-- ==== Sys2Proof/Word.lean ====
section
/-! DEFINITION. The word types of the Zalit (R4, R8, R37): machine words, bytes, and sparse canonical storage. -/

namespace Sys2Proof

/-- A 64-bit register word (R8, R137). -/
abbrev Word := BitVec 64

/-- One byte of memory (R4). -/
abbrev Byte := BitVec 8

/-- The number of a register in a 6-bit register field (R55). -/
abbrev Reg := BitVec 6

/-- Sparse storage: (key, value) pairs in one canonical form, keys strictly rising and no value equal
to the zero that an unlisted key reads as. `Cells 8` is a list of `Host.Cell`. -/
abbrev Cells (w : Nat) := List (Nat × BitVec w)

end Sys2Proof
end

