-- ==== Sys2Proof/Config.lean ====
section
/-! DEFINITION. What the spec leaves open: free values with no body (nothing can evaluate them), and the
fixed numbers of the part. A free value is applied to the operands it depends on, or to the plain
counter `free` of State for a fresh value each time. -/

namespace Sys2Proof.Config

/-- Who may move next after a step: the answer of the schedule to the step counter (R139, R334, R339 fix
results and orders, not who moves when). 0 the acting core, 1 its vector engine, 2 the agenda, 3 a memory cell, 4 the host port; n + 5 makes
core n of the module the acting core. Free value (DESIGN CHOICE, log 2). -/
opaque nextTurn : Nat → Nat

/-- Which of several enabled internal events comes next (R334: "no rule fixes which"). Free value (DESIGN CHOICE, log 2). -/
opaque pick : Nat → Nat

/-- Cycles a step takes beyond its issue spacing (R49, R139, R222; durations the spec calls not
architectural). Free value (DESIGN CHOICE, log 1). -/
opaque delay : Nat → Nat

/-- AES-256 of one block under a key, and its inverse (R86, R87, IEEE 1619): functions the spec takes from another standard. What a
unit reads as under a key it was not written under depends on them ("Which bytes those are is not defined", R88). Free values
(DESIGN CHOICE, log 7). -/
opaque aesEncrypt : BitVec 256 → BitVec 128 → BitVec 128
opaque aesDecrypt : BitVec 256 → BitVec 128 → BitVec 128

/-- How many cycles a core has counted of its own beyond the ghost clock, by core and the moment of its last reset or restore: "No two
counters are guaranteed to agree" (R14). Free value (DESIGN CHOICE, log 1). -/
opaque cycleLead : Nat → Nat → Nat

/-- A byte whose value the spec says is not defined (R136 slots after poison, R201 a poisoned part), one per
value of the counter and offset. Free value (DESIGN CHOICE, log 15). -/
opaque undefByte : Nat → Nat → Byte

/-- A 64-bit value that the spec states no result for, one per value of the counter (DESIGN CHOICE, log 16). Free value. -/
opaque undefWord : Nat → Word

/-- A choice the spec calls not architectural: the evicted block (R254), the context number (R363), the
placement (R383), a token's first place (R402). Free value (DESIGN CHOICE, log 12). -/
opaque choice : Nat → Nat

/-- Whether an HBM unit belongs to the save area of a context on a core, by unit, context and packed core number
(R393: firmware places the areas outside every lease). Free value (DESIGN CHOICE, log 20). -/
opaque saveUnit : Nat → Nat → Nat → Bool

/-- Whether an HBM unit belongs to the backing copy of a context's sketch block on a cluster, by unit, context, and
die, cluster and block packed (R253). Free value (DESIGN CHOICE, log 20). -/
opaque sketchUnit : Nat → Nat → Nat → Bool

/-- What sets the depth of the routers' input buffers (R276, R280; the spec gives none). Free value (DESIGN CHOICE, log 17). -/
opaque bufferSetting : Nat
/-- Packets one router input buffer can hold: at least one. -/
def bufferDepth : Nat := bufferSetting + 1

/-- Credits a link leaving the module shows at a moment (R280). Free value (DESIGN CHOICE, log 17). -/
opaque linkCredits : Nat → Nat

/-- The fuses and images of this module (R397): the device secret of each die, the digest of Efmund's key, and the images in
flash by their measurements. Outside values, free (DESIGN CHOICE, log 18). -/
opaque deviceSecret : Nat → BitVec 256
opaque keyDigest : BitVec 256
opaque imageMeasurement : Nat → BitVec 512
/-- The security version that an image's header names (R397), read from header and body; the spec gives the header no layout. Free function
(DESIGN CHOICE, log 18). -/
opaque imageVersion : List Byte → Nat
opaque serialNumber : BitVec 64
/-- Efmund's certificate for the module's identity key, held in flash (R406). Outside value, free (DESIGN CHOICE, log 18). -/
opaque certificate : List Byte
/-- What the module's sensors read, by moment and sensor: four of each die, then module power (R404, R405). Outside values, free
(DESIGN CHOICE, log 18). -/
opaque sensor : Nat → Nat → Nat
/-- The save key that firmware makes at an admission (R394). Free value (DESIGN CHOICE, log 20). -/
opaque saveKey : Nat → BitVec 256

/-- SHAKE256, KMAC256 (SP 800-185), ML-KEM-768 decapsulation (FIPS 203) and ML-DSA-65 signing (FIPS 204) as
functions the spec names and takes from other standards; no rule of the spec gives their values (DESIGN CHOICE, log 19). -/
opaque shake256 : List Byte → BitVec 512
opaque kmac256 : BitVec 256 → List Byte → Nat → List Byte → BitVec 512
opaque mlkemDecaps : Nat → List Byte → BitVec 256
opaque mlkemPublic : Nat → List Byte
opaque mldsaSign : BitVec 256 → List Byte → List Byte → List Byte
opaque mldsaVerify : List Byte → List Byte → List Byte → List Byte → Bool
opaque mldsaPublic : BitVec 256 → List Byte

/-- Bytes of scratchpad one core has (R11). -/
def spadBytes : Nat := 0x400000
/-- Bytes of a palette slot (R11). -/
def slotBytes : Nat := 0x20000
/-- Bytes of an accumulator tile (R11, R193). -/
def tileBytes : Nat := 0x40000
/-- Task entries and region entries of a core's quota and of the remote partition (R313). -/
def coreTasks : Nat := 224
def coreRegions : Nat := 896
def remoteTasks : Nat := 128
def remoteRegions : Nat := 512
/-- Elements a stream register holds (R175), messages an inbox holds (R178). -/
def streamDepth : Nat := 64
def inboxDepth : Nat := 16
/-- Outstanding effects of the direct status (R288), of one pair of die and class (R279), and packets a
resequencer holds (R285). -/
def directAllowance : Nat := 16
def pairOutstanding : Nat := 16384
def resequencerDepth : Nat := 1024
/-- Active slots of the mapper (R368). -/
def mapperSlots : Nat := 32

end Sys2Proof.Config
end

