-- ==== Sys2Proof/Payload.lean ====
section
/-! DEFINITION. What events carry: names of cores and engines, fault causes, packets, responses and the outside
facts of bring-up. They are operands of the event constructors of `Instr`. -/

namespace Sys2Proof

/-- A core of the module: die 0–3 (R12), logical cluster, core 0–3. -/
structure CoreId where
  die : Nat
  clu : Nat
  core : Nat
  deriving DecidableEq, Repr

/-- The engines of a cluster that take tasks (R324). -/
inductive Engine where
  | vector (core : Nat)
  | copy (n : Nat)
  | shaper
  | canvas
  | fabric
  deriving DecidableEq, Repr

/-- The fault causes and trap events of R370. -/
inductive Cause where
  | illegalOp | priv | misalign | spadRange | bufState | winLoad | winUnmapped | winDenied
  | mapMiss | leaseOut | poison | accCheck | issueCollision | walkerRange | palState | accOwner
  | sketchUnbound | sketchOverrun | arith | cancel | restoreCorrupt | unitAbsent | streamUnbound | taskForm
  | evTrap | evYield | intPre | intCmp | intMsg
  deriving DecidableEq, Repr

/-- The atomic operations of R170. -/
inductive AtomOp where
  | add | and | or | xor | min | max | minn | maxn | swap | cas | incb
  deriving DecidableEq, Repr

/-- What an atomic does at its destination: an operation of R170 with its operand and, for `cas`, the new
value, or the record update of `claim` (R174). -/
inductive AtomReq where
  | op (o : AtomOp) (size : Nat) (v : Word) (new : Word)
  | claim
  deriving DecidableEq, Repr

/-- The body of a request packet (R278). An HBM access is an atomic, or a task's read or write within one 64-byte unit (R74). -/
inductive PktBody where
  | write (addr : Nat) (bytes : List (Nat × Byte)) (raise : Bool) (poison : Bool)
  | atomic (addr : Nat) (req : AtomReq)
  | flag (f : BitVec 6) (addend : BitVec 32)
  | msg (payload : Word)
  | post (record : BitVec 512) (header : Option (BitVec 256)) (regions : List (BitVec 256)) (args : List Word)
  | cancel
  | hbm (dpa : Nat) (slot : Option Nat) (req : AtomReq)
  | hbmRead (unit : Nat) (slot : Option Nat)
  | hbmWrite (unit : Nat) (slot : Option Nat) (bytes : List (Nat × Byte)) (poison : Bool)
  deriving DecidableEq, Repr

/-- Who sent a packet: the core or the `rpost` task whose outstanding count it is in, and the window it went
through (none for the direct status); or the COPY packet (function, queue, index) whose bytes it moves. -/
structure PktSource where
  core : CoreId
  ctx : Nat
  window : Option Nat
  task : Option Nat
  pkt : Option (Nat × Nat × Nat) := none
  deriving DecidableEq, Repr

/-- A request packet (R278): source and destination die numbers of R274, FJOB, target, class, sequence number. -/
structure Packet where
  uid : Nat
  src : Nat
  dst : Nat
  fjob : BitVec 32
  clu : Nat
  core : Nat
  cls : BitVec 4
  seq : BitVec 16
  body : PktBody
  from_ : PktSource
  deriving DecidableEq, Repr

/-- The four responses of R278; a REPLY carries what an atomic read, or the unit an HBM read asked for with its mark. -/
inductive RespKind where
  | ack
  | deny (cause : Cause)
  | reply (old : BitVec 128)
  | data (unit : BitVec 512) (poison : Bool)
  | retry
  | dropped
  deriving DecidableEq, Repr

/-- A response packet: the request it answers, by number, and where it goes. -/
structure Response where
  uid : Nat
  src : Nat
  dst : Nat
  kind : RespKind
  deriving DecidableEq, Repr

/-- What moves through an adaptive buffer (R280). -/
inductive Flow where
  | request (p : Packet)
  | response (r : Response)
  deriving DecidableEq, Repr

/-- A router port: a link or the local port (R280). -/
inductive Port where
  | xp | xm | yp | ym | zp | zm | loc
  deriving DecidableEq, Repr

/-- A direction of the link at a port: into the die, or out of the module (R276). -/
structure LinkDir where
  port : Port
  out : Bool := false
  deriving DecidableEq, Repr

/-- The outcome of one bring-up unit (R398, R401): first attempt passes, second passes, or both fail. -/
inductive UnitResult where
  | pass0 | pass1 | fenced
  deriving DecidableEq, Repr

/-- One copy of a firmware image in flash (R397): its embedded public key, its header and body, and the signature over them. -/
structure ImageCopy where
  key : List Byte
  bytes : List Byte
  signature : List Byte
  deriving DecidableEq, Repr

/-- The platform descriptor in flash (R400): power class, G and cabling. -/
structure Platform where
  powerClass : Nat
  gustG : Option Nat
  cabling : List Nat
  deriving DecidableEq, Repr

/-- What power-on finds (R397, R398): the two copies of each of the seven images in flash, in the order of R369, the platform
descriptor, and the outside facts that the staged start measures. -/
structure Bringup where
  variant : BitVec 2
  images : List (ImageCopy × ImageCopy)
  platform : Platform
  step1Ok : Bool
  hbmStacks : List UnitResult
  links : List UnitResult
  shape : Option (Nat × Nat × Nat)
  origin : Nat × Nat × Nat
  hostPort : UnitResult
  clusters : List (List UnitResult)
  threshold : Nat
  recordOk : Bool
  deriving DecidableEq, Repr

/-- The scheduler a PF has firmware install on cores it shares (R441): the handler's address, IE and IM, and the program's bytes by
scratchpad address. -/
structure SchedSetup where
  cores : List CoreId
  tvec : Word
  ie : Bool
  im : BitVec 3
  program : List (Nat × Byte)
  deriving DecidableEq, Repr

/-- A function's settings (R380, R391, R368, R441). -/
structure FnSettings where
  jobPolicy : BitVec 2
  jobCount : Nat
  tenantPolicy : BitVec 2
  tenantCount : Nat
  checkpoints : Bool
  quantum : Option Nat
  scheduler : Option SchedSetup := none
  deriving DecidableEq, Repr

/-- What the patrol scrubber finds in a unit (R89). -/
inductive Scrub where
  | clean | corrected | uncorrectable
  deriving DecidableEq, Repr

/-- An uncorrectable error outside HBM, by unit of 64 bytes: in a core's scratchpad (R95), in a palette slot or an accumulator tile of a
cluster (R201). -/
inductive Upset where
  | spad (id : CoreId) (unit : Nat)
  | slot (die clu n unit : Nat)
  | tile (die clu n unit : Nat)
  deriving DecidableEq, Repr

/-- How a host read fails (R85). -/
inductive HostReadError where
  | unsupported | aborted | poisoned
  deriving DecidableEq, Repr

end Sys2Proof
end

