-- ==== Sys2Proof/Syntax.lean ====
section
/-! DEFINITION. The instructions and events of the Zalit: one constructor of `Instr` per row of the opcode
table. Rows with a word carry the operand fields the spec gives them (R52, R58, R59); the issue gap of a word
(R47) is not part of `Instr`. Rows with no word are events; they carry what the event names. -/

namespace Sys2Proof

/-- Three registers: sd, sa, sb (format A). -/
structure OpRRR where
  d : Reg
  a : Reg
  b : Reg
  deriving DecidableEq, Repr

/-- sd, sa and imm28 (format B). -/
structure OpRRI where
  d : Reg
  a : Reg
  imm : BitVec 28
  deriving DecidableEq, Repr

/-- sd, sa and a shift count (R145). -/
structure OpShift where
  d : Reg
  a : Reg
  sh : BitVec 6
  deriving DecidableEq, Repr

/-- sd and imm34 (format C). -/
structure OpRI where
  d : Reg
  imm : BitVec 34
  deriving DecidableEq, Repr

/-- sd and the 30-bit immediate of `lih` (R146). -/
structure OpLih where
  d : Reg
  imm : BitVec 30
  deriving DecidableEq, Repr

/-- sd, sa, pos and len − 1 (R147). -/
structure OpBits where
  d : Reg
  a : Reg
  pos : BitVec 6
  lenM1 : BitVec 6
  deriving DecidableEq, Repr

/-- sd, sa. -/
structure OpRR where
  d : Reg
  a : Reg
  deriving DecidableEq, Repr

/-- One destination register. -/
structure OpD where
  d : Reg
  deriving DecidableEq, Repr

/-- One source register in field a. -/
structure OpA where
  a : Reg
  deriving DecidableEq, Repr

/-- `sel` sd, sa, sb, sc (R148). -/
structure OpSel where
  d : Reg
  a : Reg
  b : Reg
  c : Reg
  deriving DecidableEq, Repr

/-- `lea` (R149). -/
structure OpLea where
  d : Reg
  a : Reg
  b : Reg
  sh : BitVec 4
  off : BitVec 18
  deriving DecidableEq, Repr

/-- Scalar floating arithmetic with a rounding code (R151). -/
structure OpF3 where
  d : Reg
  a : Reg
  b : Reg
  rm : BitVec 3
  deriving DecidableEq, Repr

/-- `fsqrt` (R151). -/
structure OpF2 where
  d : Reg
  a : Reg
  rm : BitVec 3
  deriving DecidableEq, Repr

/-- The fused family (R154). -/
structure OpFma where
  d : Reg
  a : Reg
  b : Reg
  c : Reg
  ty : BitVec 4
  rm : BitVec 3
  deriving DecidableEq, Repr

/-- The scalar conversions (R155): type4 codes of destination and source. -/
structure OpCvt where
  d : Reg
  a : Reg
  sat : Bool
  rm : BitVec 3
  dst : BitVec 4
  src : BitVec 4
  deriving DecidableEq, Repr

/-- Scalar floating comparison (R157). -/
structure OpFCmp where
  d : Reg
  a : Reg
  b : Reg
  ty : BitVec 4
  deriving DecidableEq, Repr

/-- `fclass` (R157). -/
structure OpFCls where
  d : Reg
  a : Reg
  ty : BitVec 4
  deriving DecidableEq, Repr

/-- Conditional branch or `loop` (format D). -/
structure OpBr where
  a : Reg
  b : Reg
  disp : BitVec 28
  deriving DecidableEq, Repr

/-- `jalr` (R159). -/
structure OpJalr where
  d : Reg
  a : Reg
  off : BitVec 18
  deriving DecidableEq, Repr

/-- Format M on a control core (R162). -/
structure OpMem where
  d : Reg
  a : Reg
  cls : BitVec 4
  size : BitVec 2
  sx : Bool
  off : BitVec 21
  deriving DecidableEq, Repr

/-- `q.push` (R176). -/
structure OpQA where
  q : BitVec 3
  a : Reg
  deriving DecidableEq, Repr

/-- `q.pop`, `q.count` (R176). -/
structure OpQD where
  d : Reg
  q : BitVec 3
  deriving DecidableEq, Repr

/-- `q.bind` (R176). -/
structure OpQBind where
  q : BitVec 3
  m : Bool
  deriving DecidableEq, Repr

/-- `flag.add`, `flag.set` (R181): `t` names core `core` of the cluster. -/
structure OpFlagAdd where
  a : Reg
  cls : BitVec 4
  f : BitVec 6
  core : BitVec 2
  t : Bool
  rel : Bool
  deriving DecidableEq, Repr

/-- `flag.wait` (R181). -/
structure OpFlagWait where
  d : Reg
  b : Reg
  f : BitVec 6
  acq : Bool
  deriving DecidableEq, Repr

/-- `flag.rd` (R181). -/
structure OpFlagRd where
  d : Reg
  f : BitVec 6
  deriving DecidableEq, Repr

/-- `bar.arrive` (R186). -/
structure OpBarArrive where
  d : Reg
  cls : BitVec 4
  n : BitVec 4
  rel : Bool
  deriving DecidableEq, Repr

/-- `bar.wait` (R186). -/
structure OpBarWait where
  a : Reg
  n : BitVec 4
  acq : Bool
  deriving DecidableEq, Repr

/-- `bar.sync` (R186). -/
structure OpBarSync where
  d : Reg
  cls : BitVec 4
  n : BitVec 4
  rel : Bool
  acq : Bool
  deriving DecidableEq, Repr

/-- `bar.init` (R186). -/
structure OpBarInit where
  n : BitVec 4
  cnt : BitVec 3
  deriving DecidableEq, Repr

/-- `msg.send` (R179). -/
structure OpMsgSend where
  a : Reg
  b : Reg
  cls : BitVec 4
  deriving DecidableEq, Repr

/-- `buf.decl` (R109). -/
structure OpBufDecl where
  a : Reg
  b : Reg
  vM1 : BitVec 3
  n : BitVec 8
  deriving DecidableEq, Repr

/-- A buffer id (R109). -/
structure OpBuf where
  n : BitVec 8
  deriving DecidableEq, Repr

/-- sd and a buffer id (R109). -/
structure OpBufD where
  d : Reg
  n : BitVec 8
  deriving DecidableEq, Repr

/-- `tb.reg`, `tb.arg`: an index and a register (R309). -/
structure OpTbIdx where
  a : Reg
  i : BitVec 3
  deriving DecidableEq, Repr

/-- `tb.flag` (R309). -/
structure OpTbFlag where
  f : BitVec 6
  fe : Bool
  deriving DecidableEq, Repr

/-- `tb.post` (R309). -/
structure OpTbPost where
  d : Reg
  nb : Bool
  deriving DecidableEq, Repr

/-- The common fields of a posting command (R112). -/
structure OpCmd where
  d : Reg
  a : Reg
  b : Reg
  nb : Bool
  fe : Bool
  pri : BitVec 2
  cls : BitVec 4
  flg : BitVec 6
  deriving DecidableEq, Repr

/-- `pal.claim` (R191). -/
structure OpPalClaim where
  d : Reg
  a : Reg
  nb : Bool
  deriving DecidableEq, Repr

/-- A matrix command (R196). -/
structure OpMma where
  d : Reg
  a : Reg
  b : Reg
  pri : BitVec 2
  spec : BitVec 3
  deriving DecidableEq, Repr

/-- `acc.give` (R195). -/
structure OpAccGive where
  n : BitVec 6
  core : BitVec 2
  deriving DecidableEq, Repr

/-- `lease.set` (R212). -/
structure OpLeaseSet where
  a : Reg
  t : BitVec 3
  deriving DecidableEq, Repr

/-- `win.map` (R294). -/
structure OpWinMap where
  a : Reg
  b : Reg
  n : BitVec 4
  raise : Bool
  deriving DecidableEq, Repr

/-- `win.unmap` (R294). -/
structure OpWin where
  n : BitVec 4
  deriving DecidableEq, Repr

/-- `win.allow` (R294). -/
structure OpWinA where
  a : Reg
  n : BitVec 4
  deriving DecidableEq, Repr

/-- `win.stat` (R294). -/
structure OpWinStat where
  d : Reg
  n : BitVec 4
  clr : Bool
  direct : Bool
  deriving DecidableEq, Repr

/-- `rflag` (R297). -/
structure OpRflag where
  a : Reg
  b : Reg
  cls : BitVec 4
  f : BitVec 6
  rel : Bool
  deriving DecidableEq, Repr

/-- `fence.c` (R340). -/
structure OpFenceC where
  mask : BitVec 16
  deriving DecidableEq, Repr

/-- `fence.g` (R340). -/
structure OpFenceG where
  mask : BitVec 16
  scope : BitVec 3
  deriving DecidableEq, Repr

/-- `wq.pop` (R367). -/
structure OpWqPop where
  d : Reg
  b : Reg
  nb : Bool
  n : BitVec 4
  deriving DecidableEq, Repr

/-- `wq.count` (R367). -/
structure OpWqCount where
  d : Reg
  n : BitVec 4
  deriving DecidableEq, Repr

/-- `sig.sub` (R367). -/
structure OpSigSub where
  a : Reg
  j : BitVec 6
  cls : BitVec 4
  rel : Bool
  deriving DecidableEq, Repr

/-- `sig.read` (R367). -/
structure OpSigRead where
  d : Reg
  j : BitVec 6
  deriving DecidableEq, Repr

/-- `trap` (R378). -/
structure OpTrap where
  a : Reg
  code : BitVec 8
  deriving DecidableEq, Repr

/-- `crr` (R376). -/
structure OpCrr where
  d : Reg
  n : BitVec 7
  deriving DecidableEq, Repr

/-- `crw`, `crs`, `crc` (R376). -/
structure OpCr where
  d : Reg
  a : Reg
  n : BitVec 7
  deriving DecidableEq, Repr

/-- `ctx.save.hard` (R396). -/
structure OpSaveHard where
  d : Reg
  sp : Bool
  deriving DecidableEq, Repr

/-- `sk.bind` (R270). -/
structure OpSkBind where
  n : BitVec 6
  j : BitVec 6
  deriving DecidableEq, Repr

/-- `sk.unbind` (R270). -/
structure OpSkN where
  n : BitVec 6
  deriving DecidableEq, Repr

/-- `sk.write` (R270). -/
structure OpSkWrite where
  a : Reg
  j : BitVec 6
  deriving DecidableEq, Repr

/-- `sk.inval` (R270). -/
structure OpSkInval where
  a : Reg
  m : Bool
  deriving DecidableEq, Repr

/-- `sks` (R264). -/
structure OpSks where
  n : BitVec 6
  d : Reg
  a : Reg
  b : Reg
  imm : BitVec 22
  deriving DecidableEq, Repr

/-- The common form of a vector instruction (R227): format E with mod8 split as R57 gives. -/
structure OpV where
  d : Reg
  a : Reg
  b : Reg
  c : Reg
  k : BitVec 4
  ty : BitVec 4
  z : Bool
  rm : BitVec 3
  sat : Bool
  spec : BitVec 3
  deriving DecidableEq, Repr

/-- Vector memory instructions (R244). -/
structure OpVM where
  d : Reg
  a : Reg
  k : BitVec 4
  size : BitVec 2
  pitch : Bool
  off : BitVec 21
  deriving DecidableEq, Repr

/-- `sksv` (R268): the sketch number and the common form. -/
structure OpSksv where
  n : BitVec 6
  v : OpV
  deriving DecidableEq, Repr

/-- The instructions and events: one constructor per row of the opcode table. -/
inductive Instr where
  -- major 0x00 (R64)
  | nop
  -- major 0x01 (R143, R144)
  | add (o : OpRRR) | sub (o : OpRRR) | mul (o : OpRRR) | mulh (o : OpRRR) | mulhn (o : OpRRR)
  | div (o : OpRRR) | divn (o : OpRRR) | rem (o : OpRRR) | remn (o : OpRRR)
  | and (o : OpRRR) | or (o : OpRRR) | xor (o : OpRRR) | andn (o : OpRRR)
  | shl (o : OpRRR) | shr (o : OpRRR) | sra (o : OpRRR) | rol (o : OpRRR) | ror (o : OpRRR)
  | min (o : OpRRR) | max (o : OpRRR) | minn (o : OpRRR) | maxn (o : OpRRR)
  | addo (o : OpRRR) | subo (o : OpRRR)
  -- major 0x02 (R145)
  | addi (o : OpRRI) | andi (o : OpRRI) | ori (o : OpRRI) | xori (o : OpRRI)
  | shli (o : OpShift) | shri (o : OpShift) | srai (o : OpShift) | muli (o : OpRRI)
  -- major 0x03 (R146)
  | li (o : OpRI) | lih (o : OpLih) | lpc (o : OpRI)
  -- major 0x04 (R147)
  | ext (o : OpBits) | extn (o : OpBits) | ins (o : OpBits)
  | clz (o : OpRR) | ctz (o : OpRR) | popc (o : OpRR) | bswap (o : OpRR)
  -- majors 0x05, 0x06 (R148)
  | seq (o : OpRRR) | sne (o : OpRRR) | slt (o : OpRRR) | sltn (o : OpRRR) | sle (o : OpRRR) | slen (o : OpRRR)
  | sel (o : OpSel) | seqi (o : OpRRI) | slti (o : OpRRI) | sltni (o : OpRRI)
  -- major 0x07 (R149)
  | lea (o : OpLea)
  -- majors 0x10, 0x11 (R151)
  | faddF64 (o : OpF3) | fsubF64 (o : OpF3) | fmulF64 (o : OpF3) | fdivF64 (o : OpF3) | fsqrtF64 (o : OpF2)
  | fminF64 (o : OpRRR) | fmaxF64 (o : OpRRR) | fabsF64 (o : OpRR) | fnegF64 (o : OpRR) | fsgnF64 (o : OpRRR)
  | faddF32 (o : OpF3) | fsubF32 (o : OpF3) | fmulF32 (o : OpF3) | fdivF32 (o : OpF3) | fsqrtF32 (o : OpF2)
  | fminF32 (o : OpRRR) | fmaxF32 (o : OpRRR) | fabsF32 (o : OpRR) | fnegF32 (o : OpRR) | fsgnF32 (o : OpRRR)
  -- majors 0x12–0x14 (R154–R157)
  | fma (o : OpFma) | fms (o : OpFma) | fnma (o : OpFma) | fnms (o : OpFma)
  | fcvt (o : OpCvt) | fcvti (o : OpCvt) | icvtf (o : OpCvt)
  | feq (o : OpFCmp) | flt (o : OpFCmp) | fle (o : OpFCmp) | fclass (o : OpFCls)
  -- majors 0x18–0x1B (R158–R160)
  | beq (o : OpBr) | bne (o : OpBr) | blt (o : OpBr) | bge (o : OpBr) | bltn (o : OpBr) | bgen (o : OpBr)
  | jal (o : OpRI) | jalr (o : OpJalr) | loop (o : OpBr)
  -- major 0x20 (R164)
  | ld (o : OpMem) | st (o : OpMem)
  -- majors 0x21, 0x22 (R169)
  | atomAdd (o : OpMem) | atomAnd (o : OpMem) | atomOr (o : OpMem) | atomXor (o : OpMem)
  | atomMin (o : OpMem) | atomMax (o : OpMem) | atomMinn (o : OpMem) | atomMaxn (o : OpMem)
  | atomSwap (o : OpMem) | atomCas (o : OpMem) | atomIncb (o : OpMem)
  | atomAddHbm (o : OpMem) | atomAndHbm (o : OpMem) | atomOrHbm (o : OpMem) | atomXorHbm (o : OpMem)
  | atomMinHbm (o : OpMem) | atomMaxHbm (o : OpMem) | atomMinnHbm (o : OpMem) | atomMaxnHbm (o : OpMem)
  | atomSwapHbm (o : OpMem) | atomCasHbm (o : OpMem) | atomIncbHbm (o : OpMem)
  -- major 0x23 (R173)
  | claim (o : OpMem) | claimHbm (o : OpMem)
  -- majors 0x24–0x27 (R176–R186)
  | qPush (o : OpQA) | qPop (o : OpQD) | qBind (o : OpQBind) | qCount (o : OpQD)
  | flagAdd (o : OpFlagAdd) | flagWait (o : OpFlagWait) | flagRd (o : OpFlagRd) | flagSet (o : OpFlagAdd)
  | barArrive (o : OpBarArrive) | barWait (o : OpBarWait) | barSync (o : OpBarSync) | barInit (o : OpBarInit)
  | msgSend (o : OpMsgSend) | msgRecv (o : OpD) | msgPoll (o : OpD)
  -- major 0x30 (R109)
  | bufDecl (o : OpBufDecl) | bufFree (o : OpBuf) | bufState (o : OpBufD) | bufFill (o : OpBuf)
  | bufFull (o : OpBuf) | bufDrain (o : OpBuf) | bufEmpty (o : OpBuf) | bufVer (o : OpBufD)
  -- majors 0x34, 0x35 (R309, R329)
  | tbNew (o : OpA) | tbReg (o : OpTbIdx) | tbArg (o : OpTbIdx) | tbFlag (o : OpTbFlag) | tbTag (o : OpA)
  | tbPost (o : OpTbPost) | tbCancel (o : OpRRR)
  | twait (o : OpRRR) | tqState (o : OpRRR) | tqFree (o : OpD)
  -- majors 0x38, 0x39 (R112)
  | cpBox (o : OpCmd) | cpFill (o : OpCmd) | cpGather (o : OpCmd) | cpScatter (o : OpCmd)
  | shLoad (o : OpCmd) | shUnload (o : OpCmd)
  -- majors 0x3C–0x3F (R191, R196, R206, R212)
  | palClaim (o : OpPalClaim) | palRel (o : OpA) | palOwn (o : OpD)
  | mmaBf16 (o : OpMma) | mmaF16 (o : OpMma) | mmaE4m3 (o : OpMma) | mmaE5m2 (o : OpMma) | mmaI8 (o : OpMma)
  | mmaMx4 (o : OpMma) | mmaF32 (o : OpMma) | mmaF64 (o : OpMma) | mmaZ64 (o : OpMma)
  | accZero (o : OpCmd) | accLoad (o : OpCmd) | accDrain (o : OpCmd) | accChk (o : OpCmd) | accGive (o : OpAccGive)
  | leaseSet (o : OpLeaseSet) | leaseGet (o : OpD)
  -- majors 0x40, 0x41 (R294, R297)
  | winMap (o : OpWinMap) | winUnmap (o : OpWin) | winAllow (o : OpWinA) | winStat (o : OpWinStat)
  | rpost (o : OpCmd) | rflag (o : OpRflag)
  -- major 0x44 (R340)
  | fenceC (o : OpFenceC) | fenceG (o : OpFenceG)
  -- major 0x48 (R367)
  | wqPop (o : OpWqPop) | wqCount (o : OpWqCount) | sigSub (o : OpSigSub) | sigRead (o : OpSigRead)
  -- majors 0x4C–0x4E (R376, R378, R396)
  | trapf | trapfAll | trap (o : OpTrap) | eret
  | crr (o : OpCrr) | crw (o : OpCr) | crs (o : OpCr) | crc (o : OpCr)
  | ctxSaveSoft (o : OpD) | ctxSaveHard (o : OpSaveHard) | ctxLoad (o : OpRR) | resume | yield
  -- major 0x4F, 0xF0 (R264, R270)
  | skBind (o : OpSkBind) | skUnbind (o : OpSkN) | skWrite (o : OpSkWrite) | skInval (o : OpSkInval)
  | sks (o : OpSks)
  -- major 0x80 (R232)
  | vadd (o : OpV) | vsub (o : OpV) | vmul (o : OpV) | vmulh (o : OpV) | vmin (o : OpV) | vmax (o : OpV)
  | vabs (o : OpV) | vneg (o : OpV) | vadds (o : OpV) | vsubs (o : OpV)
  -- major 0x81 (R233)
  | vand (o : OpV) | vor (o : OpV) | vxor (o : OpV) | vnot (o : OpV) | vshl (o : OpV) | vshr (o : OpV)
  | vsra (o : OpV) | vmov (o : OpV) | vsel (o : OpV)
  -- majors 0x82, 0x83 (R234, R235)
  | vfadd (o : OpV) | vfsub (o : OpV) | vfmul (o : OpV) | vfma (o : OpV) | vfms (o : OpV) | vfnma (o : OpV)
  | vfmin (o : OpV) | vfmax (o : OpV) | vfabs (o : OpV) | vfneg (o : OpV)
  | vdiv (o : OpV) | vsqrt (o : OpV) | vrcp (o : OpV) | vrsq (o : OpV) | vexp2 (o : OpV) | vlog2 (o : OpV)
  -- majors 0x84, 0x85 (R236, R237)
  | vcmp (o : OpV) | vfcmp (o : OpV) | vclass (o : OpV)
  | kand (o : OpV) | kor (o : OpV) | kxor (o : OpV) | knot (o : OpV) | kmov (o : OpV) | kpop (o : OpV) | kfirst (o : OpV)
  -- majors 0x86, 0x87 (R238–R243)
  | vcvt (o : OpV) | vqmx (o : OpV) | vdqmx (o : OpV)
  | vrotR (o : OpV) | vrotC (o : OpV) | vbcR (o : OpV) | vbcC (o : OpV) | vredR (o : OpV) | vredC (o : OpV)
  | vhad32 (o : OpV)
  -- major 0x88 (R244)
  | vld (o : OpVM) | vst (o : OpVM) | vgather (o : OpVM) | vscatter (o : OpVM)
  -- major 0x89 (R251, R252), 0xF4 (R268)
  | vrand (o : OpV) | vsplat (o : OpV) | vsplatPop (o : OpV) | vsplatPush (o : OpV)
  | sksv (o : OpSksv)
  -- writes of a control register with behaviour of its own, with the value written (R141, R374, R381, R382, R422)
  | crFpstatWrite (v : Word) (taskFlags : BitVec 7)
  | crCpolWrite (v : Word) | crTflogWrite (v : Word) | crStatusWrite (v : Word) | crCyccmpWrite (v : Word)
  | crFmapWrite (n : BitVec 3) (v : Word)
  -- a sketch block of the loaded context (R254)
  | sketchReload (block : Nat)
  -- the acting core's vector engine (R220, R218, R51)
  | vectorResultLand | kernelIterationBoundary | holdRelease
  -- the acting core (R168)
  | stalledInstructionResume
  -- the acting core's cluster (R324, R123, R322)
  | taskDispatch (e : Engine) | copyChunk (n : Nat) | taskComplete (e : Engine)
  -- its canvas and its die's gust ring (R210, R211)
  | canvasLeaseGrant | leaseEnd | canvasCold | gustTokenTake | rampWindowEnd | gustTokenAdvance
  -- the acting core (R374, R377, R392)
  | preemptRequest | cycleCompareMatch | interruptTaken | escalatedTaskFault | saveTimeout (d : Reg)
  -- request packets delivered at a die of the module (R278)
  | write (p : Packet) | atomic (p : Packet) | flag (p : Packet) | msg (p : Packet) | post (p : Packet)
  | cancel (p : Packet) | hbm (p : Packet)
  -- responses reaching their source (R278)
  | ack (r : Response) | deny (r : Response) | reply (r : Response) | retry (r : Response)
  -- resends (R286, R287), by packet number
  | packetResend (uid : Nat) | retriedPacketResend (uid : Nat)
  -- routers and links (R276, R277, R280–R283); die is the module's die 0–3
  | packetHop (die : Nat) (p : Port) (resp : Bool)
  | flitReplay (die : Nat) (p : LinkDir) (flit : Nat)
  | laneFailure (die : Nat) (p : LinkDir) (lane : Nat)
  | remap (die : Nat) (p : LinkDir) (lane : Nat) (flit : Nat)
  | ackremap (die : Nat) (p : LinkDir) (lane : Nat) (flit : Nat)
  | detectorThreshold (die : Nat) (p : Port) (resp : Bool)
  | zephyrTokenArrival (die : Nat) (gen : BitVec 16) | tokenPass (die : Nat)
  | leeDelivery (die : Nat) (f : Flow) | leeAcknowledgement (die : Nat) | tokenRegeneration
  -- the host port (R350–R357)
  | notify (fn q : Nat) (w : Word) | mbxCtl (fn : Nat) (v : Word)
  | mailboxWrite (fn off : Nat) (bytes : List (Nat × Byte)) | mailboxRead (fn off len : Nat)
  | queueEnable (fn q : Nat) | queuePause (fn q : Nat) | queueReset (fn q : Nat)
  | registerWrite (fn off : Nat) (v : Word)
  | packetFetch (fn q : Nat) | packetRefetch (fn q : Nat)
  -- packets of a queue, by index (R359)
  | launch (fn q idx : Nat) | feed (fn q idx : Nat) | signal (fn q idx : Nat) | barrierAnd (fn q idx : Nat)
  | copy (fn q idx : Nat) | packetComplete (fn q idx : Nat)
  | signalSubtract | endOfJobFence (ctx : Nat) | quantumExpiry
  -- host read outcomes (R85): the bytes of an engine's host read, by function, IOVA and length
  | hostReadErrorCompletion (fn iova len : Nat) (e : HostReadError) | completionTimeout (fn iova len : Nat)
  -- PF services, sideband, bring-up, power (R350, R397–R408)
  | setQn (fn n : Nat)
  | keyDelivery (ct : List Byte) (ctx : Nat) (w : BitVec 512) (tag : BitVec 128)
  | attestationRequest (nonce : BitVec 256) | antiRollbackUpdate (value : Nat)
  | moduleReset | powerOn (b : Bringup)
  | thermalHold (die : Nat) | thermalSingleToken (die : Nat) | thermalShutdown (die : Nat)
  | patrolScrub (unit : Nat) (found : Scrub)
  | exitFromHold (die : Nat) | powerLoss | leeRouteReplacement
  | functionEnable (fn : Nat) | functionSettings (fn : Nat) (s : FnSettings)
  | unexpectedCompletion (fn iova len : Nat)
  deriving DecidableEq, Repr

end Sys2Proof
end

