-- ==== Sys2Proof/WellFormed.lean ====
section
/-! DEFINITION. Well-formedness: which operand values the spec admits in each instruction (R53, R55–R57 and the
limits of each instruction's own description). A word outside these is a reserved value and faults with
`ILLEGAL_OP` (R61). -/

namespace Sys2Proof

/-- An even register field (R169, R173, R179, R367). -/
def even (r : Reg) : Bool := r.toNat % 2 == 0

/-- Rounding codes of a control-core or vector instruction: 0–4 and 7 (R31, R150, R228). -/
def rmScalar (rm : BitVec 3) : Bool := rm != 5 && rm != 6

/-- The control register numbers of R372. -/
def crNumber (n : BitVec 7) : Bool :=
  let k := n.toNat
  k ≤ 4 || (8 ≤ k && k ≤ 0xE) || (0x10 ≤ k && k ≤ 0x18) || (0x20 ≤ k && k ≤ 0x27)

/-- Integer types of type4 (R56). -/
def vInt (t : BitVec 4) : Bool := 8 ≤ t.toNat
/-- Signed integer types. -/
def vSigned (t : BitVec 4) : Bool := 8 ≤ t.toNat && t.toNat % 2 == 0
/-- Every type but `.mx4` and `.z64` (R233). -/
def vAny (t : BitVec 4) : Bool := t != 6 && t != 7
/-- `.f64 .f32 .f16 .bf16` (R234). -/
def vFlt (t : BitVec 4) : Bool := t.toNat ≤ 3
/-- A destination predicate k1–k7 (R214, R228). -/
def kDest (d : Reg) : Bool := 1 ≤ d.toNat && d.toNat ≤ 7

/-- Width in bits of an element of type4 (R56, R213); 0 for `.mx4` and `.z64`. -/
def typeBits (t : BitVec 4) : Nat :=
  match t.toNat with
  | 0 => 64 | 1 => 32 | 2 => 16 | 3 => 16 | 4 => 8 | 5 => 8
  | 8 => 64 | 9 => 64 | 10 => 32 | 11 => 32 | 12 => 16 | 13 => 16 | 14 => 8 | 15 => 8
  | _ => 0

/-- pos + len ≤ 64 (R147). -/
def OpBits.ok (o : OpBits) : Bool := decide (o.pos.toNat + o.lenM1.toNat + 1 ≤ 64)
/-- Atomics take sizes 32 and 64 (R169). -/
def OpMem.atomOk (o : OpMem) : Bool := decide (2 ≤ o.size.toNat)
/-- d is 0 without NB, FLG is 0 without FE (R112). -/
def OpCmd.ok (o : OpCmd) : Bool := (o.nb || o.d == 0) && (o.fe || o.flg == 0)
/-- Tile and slot ranges and the SPEC bits in `mask` (R196, R197). -/
def OpMma.ok (o : OpMma) (mask : BitVec 3) : Bool :=
  decide (o.d.toNat < 48) && decide (o.a.toNat < 32) && decide (o.b.toNat < 32) && (o.spec &&& ~~~mask) == 0
/-- No RM, SAT or SPEC. -/
def OpV.plain (o : OpV) : Bool := o.rm == 0 && !o.sat && o.spec == 0
/-- RM allowed, no SAT or SPEC (R234, R235). -/
def OpV.rounds (o : OpV) : Bool := rmScalar o.rm && !o.sat && o.spec == 0
/-- The predicate operations (R237), field a a predicate. -/
def OpV.kForm (o : OpV) : Bool :=
  o.c == 0 && o.k == 0 && o.ty == 0 && !o.z && o.plain && decide (o.a.toNat < 16)
/-- `vcvt` (R238): different types, the part below the element ratio, RM and SAT by the pair. Code 5 stands on a
narrowing floating conversion only, that is one to a format no wider (R31). -/
def OpV.cvtOk (o : OpV) : Bool :=
  let s : BitVec 4 := o.c.setWidth 4
  let ws := typeBits s
  let wd := typeBits o.ty
  o.b == 0 && decide (o.c.toNat < 16) && vAny s && vAny o.ty && s != o.ty &&
  decide (o.spec.toNat < max ws wd / min ws wd) &&
  (match vInt s, vInt o.ty with
   | false, false => o.rm != 6 && (o.rm != 5 || decide (wd ≤ ws))
   | false, true => rmScalar o.rm && !o.sat
   | true, false => rmScalar o.rm
   | true, true => o.rm == 0)
/-- `vred` (R242): E4M3 and E5M2 are not accepted, logic operations take integers, RM only on `.add` of a floating type. -/
def OpV.redOk (o : OpV) : Bool :=
  (vFlt o.ty || vInt o.ty) && o.b == 0 && o.c == 0 && !o.sat && decide (o.spec.toNat ≤ 5) &&
  (decide (o.spec.toNat ≤ 2) || vInt o.ty) &&
  (if o.spec == 0 && vFlt o.ty then rmScalar o.rm else o.rm == 0)

/-- Operand limits of the vector instructions in the common form, by major and minor (R228, R232–R243, R251, R252). -/
def wfV (major minor : Nat) (o : OpV) : Bool :=
  match major with
  | 0x80 => -- R232
    if minor ≤ 5 || minor == 8 || minor == 9 then vInt o.ty && o.c == 0 && o.plain
    else if minor == 6 then vSigned o.ty && o.b == 0 && o.c == 0 && o.rm == 0 && o.spec == 0
    else minor == 7 && vInt o.ty && (!o.sat || vSigned o.ty) && o.b == 0 && o.c == 0 && o.rm == 0 && o.spec == 0
  | 0x81 => -- R233
    if minor ≤ 2 then vAny o.ty && o.c == 0 && o.plain
    else if minor == 3 || minor == 7 then vAny o.ty && o.b == 0 && o.c == 0 && o.plain
    else if minor ≤ 6 then vInt o.ty && o.c == 0 && o.plain
    else minor == 8 && vAny o.ty && o.c == 0 && o.plain && !o.z
  | 0x82 => -- R234
    if minor ≤ 2 then vFlt o.ty && o.c == 0 && o.rounds
    else if minor ≤ 5 then vFlt o.ty && o.rounds
    else if minor ≤ 7 then vFlt o.ty && o.c == 0 && o.plain
    else decide (minor ≤ 9) && vFlt o.ty && o.b == 0 && o.c == 0 && o.plain
  | 0x83 => -- R235
    decide (minor ≤ 5) && vFlt o.ty && o.ty != 0 && (minor == 0 || o.b == 0) && o.c == 0 && o.rounds
  | 0x84 => -- R236
    if minor == 0 then vInt o.ty && kDest o.d && o.c == 0 && o.rm == 0 && !o.sat && decide (o.spec.toNat ≤ 5)
    else if minor == 1 then vFlt o.ty && kDest o.d && o.c == 0 && o.rm == 0 && !o.sat
    else minor == 2 && vFlt o.ty && o.b == 0 && o.c == 0 && o.plain
  | 0x85 => -- R237
    if minor ≤ 2 then o.kForm && kDest o.d && decide (o.b.toNat < 16)
    else if minor ≤ 4 then o.kForm && kDest o.d && o.b == 0
    else decide (minor ≤ 6) && o.kForm && decide (o.d.toNat < 16) && o.b == 0
  | 0x86 => -- R238, R239, R240
    if minor == 0 then o.cvtOk
    else if minor == 1 then o.ty == 1 && o.b == 0 && o.c == 0 && o.plain
    else minor == 2 && o.ty == 1 && o.b == 0 && o.c == 0 && o.rm == 0 && o.spec == 0
  | 0x87 => -- R241, R242, R243
    if minor == 0 || minor == 2 then vAny o.ty && o.b == 0 && o.plain && (typeBits o.ty != 64 || even o.c)
    else if minor ≤ 3 then vAny o.ty && o.b == 0 && o.plain && decide (o.c.toNat < 16)
    else if minor ≤ 5 then o.redOk
    else minor == 6 && o.ty == 1 && o.b == 0 && o.c == 0 && o.rm == 0 && !o.sat && decide (o.spec.toNat ≤ 1)
  | 0x89 => -- R251, R252
    if minor == 0 then (vInt o.ty || o.ty == 0 || o.ty == 1) && o.a == 0 && o.b == 0 && o.c == 0 && o.plain
    else minor == 1 && o.b == 0 && o.c == 0 && o.rm == 0 && !o.sat &&
      (match o.spec.toNat with
       | 0 => vAny o.ty && decide (o.a.toNat < 16)
       | 1 => vAny o.ty && decide (o.a.toNat < 8)
       | 2 => o.ty == 0 && decide (o.d.toNat < 8) && !o.z
       | _ => false)
  | _ => false

/-- Operand limits of major 0x88 (R244). -/
def wfVM (minor : Nat) (o : OpVM) : Bool :=
  decide (minor ≤ 3) && decide (o.a.toNat < 8) &&
  (decide (minor ≤ 1) || (decide (2 ≤ o.size.toNat) && !o.pitch && decide (o.off.toNat < 64)))

/-- Operand limits of `sksv` (R268): type4, RM and SAT reserved. -/
def wfSksv (o : OpV) : Bool := o.ty == 0 && o.rm == 0 && !o.sat

/-- The instruction's operands are ones the spec admits. Events carry no word and have no limits here. -/
def Instr.wf : Instr → Bool
  | .nop => true
  | .add _ => true
  | .sub _ => true
  | .mul _ => true
  | .mulh _ => true
  | .mulhn _ => true
  | .div _ => true
  | .divn _ => true
  | .rem _ => true
  | .remn _ => true
  | .and _ => true
  | .or _ => true
  | .xor _ => true
  | .andn _ => true
  | .shl _ => true
  | .shr _ => true
  | .sra _ => true
  | .rol _ => true
  | .ror _ => true
  | .min _ => true
  | .max _ => true
  | .minn _ => true
  | .maxn _ => true
  | .addo _ => true
  | .subo _ => true
  | .addi _ => true
  | .andi _ => true
  | .ori _ => true
  | .xori _ => true
  | .shli _ => true
  | .shri _ => true
  | .srai _ => true
  | .muli _ => true
  | .li _ => true
  | .lih _ => true
  | .lpc _ => true
  | .ext o => o.ok
  | .extn o => o.ok
  | .ins o => o.ok
  | .clz _ => true
  | .ctz _ => true
  | .popc _ => true
  | .bswap _ => true
  | .seq _ => true
  | .sne _ => true
  | .slt _ => true
  | .sltn _ => true
  | .sle _ => true
  | .slen _ => true
  | .sel _ => true
  | .seqi _ => true
  | .slti _ => true
  | .sltni _ => true
  | .lea _ => true
  | .faddF64 o => rmScalar o.rm
  | .fsubF64 o => rmScalar o.rm
  | .fmulF64 o => rmScalar o.rm
  | .fdivF64 o => rmScalar o.rm
  | .fsqrtF64 o => rmScalar o.rm
  | .fminF64 _ => true
  | .fmaxF64 _ => true
  | .fabsF64 _ => true
  | .fnegF64 _ => true
  | .fsgnF64 _ => true
  | .faddF32 o => rmScalar o.rm
  | .fsubF32 o => rmScalar o.rm
  | .fmulF32 o => rmScalar o.rm
  | .fdivF32 o => rmScalar o.rm
  | .fsqrtF32 o => rmScalar o.rm
  | .fminF32 _ => true
  | .fmaxF32 _ => true
  | .fabsF32 _ => true
  | .fnegF32 _ => true
  | .fsgnF32 _ => true
  | .fma o => decide (o.ty.toNat ≤ 1) && rmScalar o.rm
  | .fms o => decide (o.ty.toNat ≤ 1) && rmScalar o.rm
  | .fnma o => decide (o.ty.toNat ≤ 1) && rmScalar o.rm
  | .fnms o => decide (o.ty.toNat ≤ 1) && rmScalar o.rm
  | .fcvt o => decide (o.dst.toNat ≤ 5) && decide (o.src.toNat ≤ 5) && o.dst != o.src && rmScalar o.rm
  | .fcvti o => decide (8 ≤ o.dst.toNat) && decide (o.src.toNat ≤ 3) && !o.sat && rmScalar o.rm
  | .icvtf o => decide (o.dst.toNat ≤ 3) && decide (8 ≤ o.src.toNat) && rmScalar o.rm
  | .feq o => decide (o.ty.toNat ≤ 1)
  | .flt o => decide (o.ty.toNat ≤ 1)
  | .fle o => decide (o.ty.toNat ≤ 1)
  | .fclass o => decide (o.ty.toNat ≤ 1)
  | .beq _ => true
  | .bne _ => true
  | .blt _ => true
  | .bge _ => true
  | .bltn _ => true
  | .bgen _ => true
  | .jal _ => true
  | .jalr _ => true
  | .loop o => o.a != 0
  | .ld o => o.cls == 0
  | .st o => !o.sx
  | .atomAdd o => o.atomOk
  | .atomAnd o => o.atomOk
  | .atomOr o => o.atomOk
  | .atomXor o => o.atomOk
  | .atomMin o => o.atomOk
  | .atomMax o => o.atomOk
  | .atomMinn o => o.atomOk
  | .atomMaxn o => o.atomOk
  | .atomSwap o => o.atomOk
  | .atomIncb o => o.atomOk
  | .atomCas o => o.atomOk && even o.d
  | .atomAddHbm o => o.atomOk
  | .atomAndHbm o => o.atomOk
  | .atomOrHbm o => o.atomOk
  | .atomXorHbm o => o.atomOk
  | .atomMinHbm o => o.atomOk
  | .atomMaxHbm o => o.atomOk
  | .atomMinnHbm o => o.atomOk
  | .atomMaxnHbm o => o.atomOk
  | .atomSwapHbm o => o.atomOk
  | .atomIncbHbm o => o.atomOk
  | .atomCasHbm o => o.atomOk && even o.d
  | .claim o => o.size == 0 && !o.sx && even o.d
  | .claimHbm o => o.size == 0 && !o.sx && even o.d
  | .qPush _ => true
  | .qPop _ => true
  | .qBind _ => true
  | .qCount _ => true
  | .flagAdd o => o.t || o.core == 0
  | .flagSet o => o.t || o.core == 0
  | .flagWait _ => true
  | .flagRd _ => true
  | .barArrive _ => true
  | .barWait _ => true
  | .barSync _ => true
  | .barInit o => decide (1 ≤ o.cnt.toNat) && decide (o.cnt.toNat ≤ 4)
  | .msgSend _ => true
  | .msgRecv o => even o.d
  | .msgPoll _ => true
  | .bufDecl _ => true
  | .bufFree _ => true
  | .bufState _ => true
  | .bufFill _ => true
  | .bufFull _ => true
  | .bufDrain _ => true
  | .bufEmpty _ => true
  | .bufVer _ => true
  | .tbNew _ => true
  | .tbReg _ => true
  | .tbArg _ => true
  | .tbFlag _ => true
  | .tbTag _ => true
  | .tbPost o => o.nb || o.d == 0
  | .tbCancel _ => true
  | .twait _ => true
  | .tqState _ => true
  | .tqFree _ => true
  | .cpBox o => o.ok && o.b == 0
  | .cpGather o => o.ok && o.b == 0
  | .cpScatter o => o.ok && o.b == 0
  | .shLoad o => o.ok && o.b == 0
  | .shUnload o => o.ok && o.b == 0
  | .cpFill o => o.ok
  | .palClaim o => o.nb || o.d == 0
  | .palRel _ => true
  | .palOwn _ => true
  | .mmaBf16 o => o.ok 0b000
  | .mmaF16 o => o.ok 0b000
  | .mmaE4m3 o => o.ok 0b001
  | .mmaE5m2 o => o.ok 0b001
  | .mmaI8 o => o.ok 0b011
  | .mmaMx4 o => o.ok 0b000
  | .mmaF32 o => o.ok 0b000
  | .mmaF64 o => o.ok 0b100
  | .mmaZ64 o => o.ok 0b011 && even o.a && even o.b
  | .accZero o => o.ok && o.b == 0
  | .accLoad o => o.ok && o.b == 0
  | .accDrain o => o.ok && o.b == 0
  | .accChk o => o.ok && o.b == 0
  | .accGive o => decide (o.n.toNat < 48)
  | .leaseSet o => decide (o.t.toNat ≤ 4)
  | .leaseGet _ => true
  | .winMap _ => true
  | .winUnmap _ => true
  | .winAllow _ => true
  | .winStat o => !o.direct || o.n == 0
  | .rpost o => o.ok
  | .rflag _ => true
  | .fenceC _ => true
  | .fenceG o => decide (o.scope.toNat ≤ 4)
  | .wqPop o => even o.d && (o.nb || o.b == 0)
  | .wqCount _ => true
  | .sigSub _ => true
  | .sigRead _ => true
  | .trapf => true
  | .trapfAll => true
  | .trap _ => true
  | .eret => true
  | .crr o => crNumber o.n
  | .crw o => crNumber o.n
  | .crs o => crNumber o.n
  | .crc o => crNumber o.n
  | .ctxSaveSoft _ => true
  | .ctxSaveHard _ => true
  | .ctxLoad _ => true
  | .resume => true
  | .yield => true
  | .skBind _ => true
  | .skUnbind _ => true
  | .skWrite _ => true
  | .skInval _ => true
  | .sks _ => true
  | .vadd o => wfV 0x80 0 o
  | .vsub o => wfV 0x80 1 o
  | .vmul o => wfV 0x80 2 o
  | .vmulh o => wfV 0x80 3 o
  | .vmin o => wfV 0x80 4 o
  | .vmax o => wfV 0x80 5 o
  | .vabs o => wfV 0x80 6 o
  | .vneg o => wfV 0x80 7 o
  | .vadds o => wfV 0x80 8 o
  | .vsubs o => wfV 0x80 9 o
  | .vand o => wfV 0x81 0 o
  | .vor o => wfV 0x81 1 o
  | .vxor o => wfV 0x81 2 o
  | .vnot o => wfV 0x81 3 o
  | .vshl o => wfV 0x81 4 o
  | .vshr o => wfV 0x81 5 o
  | .vsra o => wfV 0x81 6 o
  | .vmov o => wfV 0x81 7 o
  | .vsel o => wfV 0x81 8 o
  | .vfadd o => wfV 0x82 0 o
  | .vfsub o => wfV 0x82 1 o
  | .vfmul o => wfV 0x82 2 o
  | .vfma o => wfV 0x82 3 o
  | .vfms o => wfV 0x82 4 o
  | .vfnma o => wfV 0x82 5 o
  | .vfmin o => wfV 0x82 6 o
  | .vfmax o => wfV 0x82 7 o
  | .vfabs o => wfV 0x82 8 o
  | .vfneg o => wfV 0x82 9 o
  | .vdiv o => wfV 0x83 0 o
  | .vsqrt o => wfV 0x83 1 o
  | .vrcp o => wfV 0x83 2 o
  | .vrsq o => wfV 0x83 3 o
  | .vexp2 o => wfV 0x83 4 o
  | .vlog2 o => wfV 0x83 5 o
  | .vcmp o => wfV 0x84 0 o
  | .vfcmp o => wfV 0x84 1 o
  | .vclass o => wfV 0x84 2 o
  | .kand o => wfV 0x85 0 o
  | .kor o => wfV 0x85 1 o
  | .kxor o => wfV 0x85 2 o
  | .knot o => wfV 0x85 3 o
  | .kmov o => wfV 0x85 4 o
  | .kpop o => wfV 0x85 5 o
  | .kfirst o => wfV 0x85 6 o
  | .vcvt o => wfV 0x86 0 o
  | .vqmx o => wfV 0x86 1 o
  | .vdqmx o => wfV 0x86 2 o
  | .vrotR o => wfV 0x87 0 o
  | .vrotC o => wfV 0x87 1 o
  | .vbcR o => wfV 0x87 2 o
  | .vbcC o => wfV 0x87 3 o
  | .vredR o => wfV 0x87 4 o
  | .vredC o => wfV 0x87 5 o
  | .vhad32 o => wfV 0x87 6 o
  | .vld o => wfVM 0 o
  | .vst o => wfVM 1 o
  | .vgather o => wfVM 2 o
  | .vscatter o => wfVM 3 o
  | .vrand o => wfV 0x89 0 o
  | .vsplat o => o.spec == 0 && wfV 0x89 1 o
  | .vsplatPop o => o.spec == 1 && wfV 0x89 1 o
  | .vsplatPush o => o.spec == 2 && wfV 0x89 1 o
  | .sksv o => wfSksv o.v
  | .crFpstatWrite _ _ => true
  | .crCpolWrite _ => true
  | .crTflogWrite _ => true
  | .crStatusWrite _ => true
  | .crCyccmpWrite _ => true
  | .crFmapWrite _ _ => true
  | .sketchReload _ => true
  | .vectorResultLand => true
  | .kernelIterationBoundary => true
  | .holdRelease => true
  | .stalledInstructionResume => true
  | .taskDispatch _ => true
  | .copyChunk _ => true
  | .taskComplete _ => true
  | .canvasLeaseGrant => true
  | .leaseEnd => true
  | .canvasCold => true
  | .gustTokenTake => true
  | .rampWindowEnd => true
  | .gustTokenAdvance => true
  | .preemptRequest => true
  | .cycleCompareMatch => true
  | .interruptTaken => true
  | .escalatedTaskFault => true
  | .saveTimeout _ => true
  | .write _ => true
  | .atomic _ => true
  | .flag _ => true
  | .msg _ => true
  | .post _ => true
  | .cancel _ => true
  | .hbm _ => true
  | .ack _ => true
  | .deny _ => true
  | .reply _ => true
  | .retry _ => true
  | .packetResend _ => true
  | .retriedPacketResend _ => true
  | .packetHop _ _ _ => true
  | .flitReplay _ _ _ => true
  | .laneFailure _ _ _ => true
  | .remap _ _ _ _ => true
  | .ackremap _ _ _ _ => true
  | .detectorThreshold _ _ _ => true
  | .zephyrTokenArrival _ _ => true
  | .tokenPass _ => true
  | .leeDelivery _ _ => true
  | .leeAcknowledgement _ => true
  | .tokenRegeneration => true
  | .notify _ _ _ => true
  | .mbxCtl _ _ => true
  | .mailboxWrite _ _ _ => true
  | .mailboxRead _ _ _ => true
  | .queueEnable _ _ => true
  | .queuePause _ _ => true
  | .queueReset _ _ => true
  | .registerWrite _ _ _ => true
  | .packetFetch _ _ => true
  | .packetRefetch _ _ => true
  | .launch _ _ _ => true
  | .feed _ _ _ => true
  | .signal _ _ _ => true
  | .barrierAnd _ _ _ => true
  | .copy _ _ _ => true
  | .packetComplete _ _ _ => true
  | .signalSubtract => true
  | .endOfJobFence _ => true
  | .quantumExpiry => true
  | .hostReadErrorCompletion _ _ _ _ => true
  | .completionTimeout _ _ _ => true
  | .setQn _ _ => true
  | .keyDelivery _ _ _ _ => true
  | .attestationRequest _ => true
  | .antiRollbackUpdate _ => true
  | .moduleReset => true
  | .powerOn _ => true
  | .thermalHold _ => true
  | .thermalSingleToken _ => true
  | .thermalShutdown _ => true
  | .patrolScrub _ _ => true
  | .exitFromHold _ => true
  | .powerLoss => true
  | .leeRouteReplacement => true
  | .functionEnable _ => true
  | .functionSettings _ _ => true
  | .unexpectedCompletion _ _ _ => true

end Sys2Proof
end

