-- ==== Sys2Proof/Decode.lean ====
section
/-! DEFINITION. Instruction words (R47, R52–R61): the fields of a word, packing and unpacking of each operand form,
the opcode map, the decoder and the encoder. A word decodes when its major and minor name an instruction, its
operand bits are those of the operands read from it (so every reserved bit is 0), and the operands are
well formed; every other word is `ILLEGAL_OP` (R61). What builds an `Instr` from a word is marked noncomputable because Lean's
compiler has no room for more than 244 constructors with fields; the kernel evaluates it. -/

namespace Sys2Proof

/-! ## Operand forms: bits 39:0 from the top down -/

def OpRRR.pack (o : OpRRR) : BitVec 40 := o.d ++ o.a ++ o.b ++ 0#22
def OpRRR.unpack (x : BitVec 40) : OpRRR :=
  ⟨x.extractLsb' 34 6, x.extractLsb' 28 6, x.extractLsb' 22 6⟩
def OpRRI.pack (o : OpRRI) : BitVec 40 := o.d ++ o.a ++ o.imm
def OpRRI.unpack (x : BitVec 40) : OpRRI :=
  ⟨x.extractLsb' 34 6, x.extractLsb' 28 6, x.extractLsb' 0 28⟩
def OpShift.pack (o : OpShift) : BitVec 40 := o.d ++ o.a ++ 0#22 ++ o.sh
def OpShift.unpack (x : BitVec 40) : OpShift :=
  ⟨x.extractLsb' 34 6, x.extractLsb' 28 6, x.extractLsb' 0 6⟩
def OpRI.pack (o : OpRI) : BitVec 40 := o.d ++ o.imm
def OpRI.unpack (x : BitVec 40) : OpRI :=
  ⟨x.extractLsb' 34 6, x.extractLsb' 0 34⟩
def OpLih.pack (o : OpLih) : BitVec 40 := o.d ++ 0#4 ++ o.imm
def OpLih.unpack (x : BitVec 40) : OpLih :=
  ⟨x.extractLsb' 34 6, x.extractLsb' 0 30⟩
def OpBits.pack (o : OpBits) : BitVec 40 := o.d ++ o.a ++ 0#16 ++ o.lenM1 ++ o.pos
def OpBits.unpack (x : BitVec 40) : OpBits :=
  ⟨x.extractLsb' 34 6, x.extractLsb' 28 6, x.extractLsb' 0 6, x.extractLsb' 6 6⟩
def OpRR.pack (o : OpRR) : BitVec 40 := o.d ++ o.a ++ 0#28
def OpRR.unpack (x : BitVec 40) : OpRR :=
  ⟨x.extractLsb' 34 6, x.extractLsb' 28 6⟩
def OpD.pack (o : OpD) : BitVec 40 := o.d ++ 0#34
def OpD.unpack (x : BitVec 40) : OpD :=
  ⟨x.extractLsb' 34 6⟩
def OpA.pack (o : OpA) : BitVec 40 := 0#6 ++ o.a ++ 0#28
def OpA.unpack (x : BitVec 40) : OpA :=
  ⟨x.extractLsb' 28 6⟩
def OpSel.pack (o : OpSel) : BitVec 40 := o.d ++ o.a ++ o.b ++ 0#16 ++ o.c
def OpSel.unpack (x : BitVec 40) : OpSel :=
  ⟨x.extractLsb' 34 6, x.extractLsb' 28 6, x.extractLsb' 22 6, x.extractLsb' 0 6⟩
def OpLea.pack (o : OpLea) : BitVec 40 := o.d ++ o.a ++ o.b ++ o.sh ++ o.off
def OpLea.unpack (x : BitVec 40) : OpLea :=
  ⟨x.extractLsb' 34 6, x.extractLsb' 28 6, x.extractLsb' 22 6, x.extractLsb' 18 4, x.extractLsb' 0 18⟩
def OpF3.pack (o : OpF3) : BitVec 40 := o.d ++ o.a ++ o.b ++ 0#1 ++ o.rm ++ 0#18
def OpF3.unpack (x : BitVec 40) : OpF3 :=
  ⟨x.extractLsb' 34 6, x.extractLsb' 28 6, x.extractLsb' 22 6, x.extractLsb' 18 3⟩
def OpF2.pack (o : OpF2) : BitVec 40 := o.d ++ o.a ++ 0#7 ++ o.rm ++ 0#18
def OpF2.unpack (x : BitVec 40) : OpF2 :=
  ⟨x.extractLsb' 34 6, x.extractLsb' 28 6, x.extractLsb' 18 3⟩
def OpFma.pack (o : OpFma) : BitVec 40 := o.d ++ o.a ++ o.b ++ o.c ++ 0#4 ++ o.ty ++ 0#1 ++ o.rm ++ 0#4
def OpFma.unpack (x : BitVec 40) : OpFma :=
  ⟨x.extractLsb' 34 6, x.extractLsb' 28 6, x.extractLsb' 22 6, x.extractLsb' 16 6, x.extractLsb' 8 4, x.extractLsb' 4 3⟩
def OpCvt.pack (o : OpCvt) : BitVec 40 := o.d ++ o.a ++ 0#6 ++ (BitVec.ofBool o.sat) ++ o.rm ++ 0#10 ++ o.src ++ o.dst
def OpCvt.unpack (x : BitVec 40) : OpCvt :=
  ⟨x.extractLsb' 34 6, x.extractLsb' 28 6, x.getLsbD 21, x.extractLsb' 18 3, x.extractLsb' 0 4, x.extractLsb' 4 4⟩
def OpFCmp.pack (o : OpFCmp) : BitVec 40 := o.d ++ o.a ++ o.b ++ o.ty ++ 0#18
def OpFCmp.unpack (x : BitVec 40) : OpFCmp :=
  ⟨x.extractLsb' 34 6, x.extractLsb' 28 6, x.extractLsb' 22 6, x.extractLsb' 18 4⟩
def OpFCls.pack (o : OpFCls) : BitVec 40 := o.d ++ o.a ++ 0#6 ++ o.ty ++ 0#18
def OpFCls.unpack (x : BitVec 40) : OpFCls :=
  ⟨x.extractLsb' 34 6, x.extractLsb' 28 6, x.extractLsb' 18 4⟩
def OpBr.pack (o : OpBr) : BitVec 40 := o.a ++ o.b ++ o.disp
def OpBr.unpack (x : BitVec 40) : OpBr :=
  ⟨x.extractLsb' 34 6, x.extractLsb' 28 6, x.extractLsb' 0 28⟩
def OpJalr.pack (o : OpJalr) : BitVec 40 := o.d ++ o.a ++ 0#10 ++ o.off
def OpJalr.unpack (x : BitVec 40) : OpJalr :=
  ⟨x.extractLsb' 34 6, x.extractLsb' 28 6, x.extractLsb' 0 18⟩
def OpMem.pack (o : OpMem) : BitVec 40 := o.d ++ o.a ++ o.cls ++ o.size ++ (BitVec.ofBool o.sx) ++ o.off
def OpMem.unpack (x : BitVec 40) : OpMem :=
  ⟨x.extractLsb' 34 6, x.extractLsb' 28 6, x.extractLsb' 24 4, x.extractLsb' 22 2, x.getLsbD 21, x.extractLsb' 0 21⟩
def OpQA.pack (o : OpQA) : BitVec 40 := 0#6 ++ o.a ++ 0#25 ++ o.q
def OpQA.unpack (x : BitVec 40) : OpQA :=
  ⟨x.extractLsb' 0 3, x.extractLsb' 28 6⟩
def OpQD.pack (o : OpQD) : BitVec 40 := o.d ++ 0#31 ++ o.q
def OpQD.unpack (x : BitVec 40) : OpQD :=
  ⟨x.extractLsb' 34 6, x.extractLsb' 0 3⟩
def OpQBind.pack (o : OpQBind) : BitVec 40 := 0#36 ++ (BitVec.ofBool o.m) ++ o.q
def OpQBind.unpack (x : BitVec 40) : OpQBind :=
  ⟨x.extractLsb' 0 3, x.getLsbD 3⟩
def OpFlagAdd.pack (o : OpFlagAdd) : BitVec 40 := 0#6 ++ o.a ++ 0#6 ++ o.cls ++ 0#8 ++ (BitVec.ofBool o.rel) ++ (BitVec.ofBool o.t) ++ o.core ++ o.f
def OpFlagAdd.unpack (x : BitVec 40) : OpFlagAdd :=
  ⟨x.extractLsb' 28 6, x.extractLsb' 18 4, x.extractLsb' 0 6, x.extractLsb' 6 2, x.getLsbD 8, x.getLsbD 9⟩
def OpFlagWait.pack (o : OpFlagWait) : BitVec 40 := o.d ++ 0#6 ++ o.b ++ 0#11 ++ (BitVec.ofBool o.acq) ++ 0#4 ++ o.f
def OpFlagWait.unpack (x : BitVec 40) : OpFlagWait :=
  ⟨x.extractLsb' 34 6, x.extractLsb' 22 6, x.extractLsb' 0 6, x.getLsbD 10⟩
def OpFlagRd.pack (o : OpFlagRd) : BitVec 40 := o.d ++ 0#28 ++ o.f
def OpFlagRd.unpack (x : BitVec 40) : OpFlagRd :=
  ⟨x.extractLsb' 34 6, x.extractLsb' 0 6⟩
def OpBarArrive.pack (o : OpBarArrive) : BitVec 40 := o.d ++ 0#12 ++ o.cls ++ 0#8 ++ (BitVec.ofBool o.rel) ++ 0#5 ++ o.n
def OpBarArrive.unpack (x : BitVec 40) : OpBarArrive :=
  ⟨x.extractLsb' 34 6, x.extractLsb' 18 4, x.extractLsb' 0 4, x.getLsbD 9⟩
def OpBarWait.pack (o : OpBarWait) : BitVec 40 := 0#6 ++ o.a ++ 0#17 ++ (BitVec.ofBool o.acq) ++ 0#6 ++ o.n
def OpBarWait.unpack (x : BitVec 40) : OpBarWait :=
  ⟨x.extractLsb' 28 6, x.extractLsb' 0 4, x.getLsbD 10⟩
def OpBarSync.pack (o : OpBarSync) : BitVec 40 := o.d ++ 0#12 ++ o.cls ++ 0#7 ++ (BitVec.ofBool o.acq) ++ (BitVec.ofBool o.rel) ++ 0#5 ++ o.n
def OpBarSync.unpack (x : BitVec 40) : OpBarSync :=
  ⟨x.extractLsb' 34 6, x.extractLsb' 18 4, x.extractLsb' 0 4, x.getLsbD 9, x.getLsbD 10⟩
def OpBarInit.pack (o : OpBarInit) : BitVec 40 := 0#33 ++ o.cnt ++ o.n
def OpBarInit.unpack (x : BitVec 40) : OpBarInit :=
  ⟨x.extractLsb' 0 4, x.extractLsb' 4 3⟩
def OpMsgSend.pack (o : OpMsgSend) : BitVec 40 := 0#6 ++ o.a ++ o.b ++ o.cls ++ 0#18
def OpMsgSend.unpack (x : BitVec 40) : OpMsgSend :=
  ⟨x.extractLsb' 28 6, x.extractLsb' 22 6, x.extractLsb' 18 4⟩
def OpBufDecl.pack (o : OpBufDecl) : BitVec 40 := 0#6 ++ o.a ++ o.b ++ 0#1 ++ o.vM1 ++ 0#10 ++ o.n
def OpBufDecl.unpack (x : BitVec 40) : OpBufDecl :=
  ⟨x.extractLsb' 28 6, x.extractLsb' 22 6, x.extractLsb' 18 3, x.extractLsb' 0 8⟩
def OpBuf.pack (o : OpBuf) : BitVec 40 := 0#32 ++ o.n
def OpBuf.unpack (x : BitVec 40) : OpBuf :=
  ⟨x.extractLsb' 0 8⟩
def OpBufD.pack (o : OpBufD) : BitVec 40 := o.d ++ 0#26 ++ o.n
def OpBufD.unpack (x : BitVec 40) : OpBufD :=
  ⟨x.extractLsb' 34 6, x.extractLsb' 0 8⟩
def OpTbIdx.pack (o : OpTbIdx) : BitVec 40 := 0#6 ++ o.a ++ 0#25 ++ o.i
def OpTbIdx.unpack (x : BitVec 40) : OpTbIdx :=
  ⟨x.extractLsb' 28 6, x.extractLsb' 0 3⟩
def OpTbFlag.pack (o : OpTbFlag) : BitVec 40 := 0#33 ++ (BitVec.ofBool o.fe) ++ o.f
def OpTbFlag.unpack (x : BitVec 40) : OpTbFlag :=
  ⟨x.extractLsb' 0 6, x.getLsbD 6⟩
def OpTbPost.pack (o : OpTbPost) : BitVec 40 := o.d ++ 0#12 ++ (BitVec.ofBool o.nb) ++ 0#21
def OpTbPost.unpack (x : BitVec 40) : OpTbPost :=
  ⟨x.extractLsb' 34 6, x.getLsbD 21⟩
def OpCmd.pack (o : OpCmd) : BitVec 40 := o.d ++ o.a ++ o.b ++ (BitVec.ofBool o.nb) ++ (BitVec.ofBool o.fe) ++ o.pri ++ o.cls ++ o.flg ++ 0#8
def OpCmd.unpack (x : BitVec 40) : OpCmd :=
  ⟨x.extractLsb' 34 6, x.extractLsb' 28 6, x.extractLsb' 22 6, x.getLsbD 21, x.getLsbD 20, x.extractLsb' 18 2, x.extractLsb' 14 4, x.extractLsb' 8 6⟩
def OpPalClaim.pack (o : OpPalClaim) : BitVec 40 := o.d ++ o.a ++ 0#6 ++ (BitVec.ofBool o.nb) ++ 0#21
def OpPalClaim.unpack (x : BitVec 40) : OpPalClaim :=
  ⟨x.extractLsb' 34 6, x.extractLsb' 28 6, x.getLsbD 21⟩
def OpAccGive.pack (o : OpAccGive) : BitVec 40 := 0#32 ++ o.core ++ o.n
def OpAccGive.unpack (x : BitVec 40) : OpAccGive :=
  ⟨x.extractLsb' 0 6, x.extractLsb' 6 2⟩
def OpLeaseSet.pack (o : OpLeaseSet) : BitVec 40 := 0#6 ++ o.a ++ 0#25 ++ o.t
def OpLeaseSet.unpack (x : BitVec 40) : OpLeaseSet :=
  ⟨x.extractLsb' 28 6, x.extractLsb' 0 3⟩
def OpWinMap.pack (o : OpWinMap) : BitVec 40 := 0#6 ++ o.a ++ o.b ++ 0#17 ++ (BitVec.ofBool o.raise) ++ o.n
def OpWinMap.unpack (x : BitVec 40) : OpWinMap :=
  ⟨x.extractLsb' 28 6, x.extractLsb' 22 6, x.extractLsb' 0 4, x.getLsbD 4⟩
def OpWin.pack (o : OpWin) : BitVec 40 := 0#36 ++ o.n
def OpWin.unpack (x : BitVec 40) : OpWin :=
  ⟨x.extractLsb' 0 4⟩
def OpWinA.pack (o : OpWinA) : BitVec 40 := 0#6 ++ o.a ++ 0#24 ++ o.n
def OpWinA.unpack (x : BitVec 40) : OpWinA :=
  ⟨x.extractLsb' 28 6, x.extractLsb' 0 4⟩
def OpWinStat.pack (o : OpWinStat) : BitVec 40 := o.d ++ 0#28 ++ (BitVec.ofBool o.direct) ++ (BitVec.ofBool o.clr) ++ o.n
def OpWinStat.unpack (x : BitVec 40) : OpWinStat :=
  ⟨x.extractLsb' 34 6, x.extractLsb' 0 4, x.getLsbD 4, x.getLsbD 5⟩
def OpRflag.pack (o : OpRflag) : BitVec 40 := 0#6 ++ o.a ++ o.b ++ o.cls ++ 0#8 ++ (BitVec.ofBool o.rel) ++ 0#3 ++ o.f
def OpRflag.unpack (x : BitVec 40) : OpRflag :=
  ⟨x.extractLsb' 28 6, x.extractLsb' 22 6, x.extractLsb' 18 4, x.extractLsb' 0 6, x.getLsbD 9⟩
def OpFenceC.pack (o : OpFenceC) : BitVec 40 := 0#24 ++ o.mask
def OpFenceC.unpack (x : BitVec 40) : OpFenceC :=
  ⟨x.extractLsb' 0 16⟩
def OpFenceG.pack (o : OpFenceG) : BitVec 40 := 0#19 ++ o.scope ++ 0#2 ++ o.mask
def OpFenceG.unpack (x : BitVec 40) : OpFenceG :=
  ⟨x.extractLsb' 0 16, x.extractLsb' 18 3⟩
def OpWqPop.pack (o : OpWqPop) : BitVec 40 := o.d ++ 0#6 ++ o.b ++ (BitVec.ofBool o.nb) ++ 0#17 ++ o.n
def OpWqPop.unpack (x : BitVec 40) : OpWqPop :=
  ⟨x.extractLsb' 34 6, x.extractLsb' 22 6, x.getLsbD 21, x.extractLsb' 0 4⟩
def OpWqCount.pack (o : OpWqCount) : BitVec 40 := o.d ++ 0#30 ++ o.n
def OpWqCount.unpack (x : BitVec 40) : OpWqCount :=
  ⟨x.extractLsb' 34 6, x.extractLsb' 0 4⟩
def OpSigSub.pack (o : OpSigSub) : BitVec 40 := 0#6 ++ o.a ++ 0#17 ++ (BitVec.ofBool o.rel) ++ o.cls ++ o.j
def OpSigSub.unpack (x : BitVec 40) : OpSigSub :=
  ⟨x.extractLsb' 28 6, x.extractLsb' 0 6, x.extractLsb' 6 4, x.getLsbD 10⟩
def OpSigRead.pack (o : OpSigRead) : BitVec 40 := o.d ++ 0#28 ++ o.j
def OpSigRead.unpack (x : BitVec 40) : OpSigRead :=
  ⟨x.extractLsb' 34 6, x.extractLsb' 0 6⟩
def OpTrap.pack (o : OpTrap) : BitVec 40 := 0#6 ++ o.a ++ 0#20 ++ o.code
def OpTrap.unpack (x : BitVec 40) : OpTrap :=
  ⟨x.extractLsb' 28 6, x.extractLsb' 0 8⟩
def OpCrr.pack (o : OpCrr) : BitVec 40 := o.d ++ 0#27 ++ o.n
def OpCrr.unpack (x : BitVec 40) : OpCrr :=
  ⟨x.extractLsb' 34 6, x.extractLsb' 0 7⟩
def OpCr.pack (o : OpCr) : BitVec 40 := o.d ++ o.a ++ 0#21 ++ o.n
def OpCr.unpack (x : BitVec 40) : OpCr :=
  ⟨x.extractLsb' 34 6, x.extractLsb' 28 6, x.extractLsb' 0 7⟩
def OpSaveHard.pack (o : OpSaveHard) : BitVec 40 := o.d ++ 0#32 ++ (BitVec.ofBool o.sp) ++ 1#1
def OpSaveHard.unpack (x : BitVec 40) : OpSaveHard :=
  ⟨x.extractLsb' 34 6, x.getLsbD 1⟩
def OpSkBind.pack (o : OpSkBind) : BitVec 40 := 0#28 ++ o.j ++ o.n
def OpSkBind.unpack (x : BitVec 40) : OpSkBind :=
  ⟨x.extractLsb' 0 6, x.extractLsb' 6 6⟩
def OpSkN.pack (o : OpSkN) : BitVec 40 := 0#34 ++ o.n
def OpSkN.unpack (x : BitVec 40) : OpSkN :=
  ⟨x.extractLsb' 0 6⟩
def OpSkWrite.pack (o : OpSkWrite) : BitVec 40 := 0#6 ++ o.a ++ 0#22 ++ o.j
def OpSkWrite.unpack (x : BitVec 40) : OpSkWrite :=
  ⟨x.extractLsb' 28 6, x.extractLsb' 0 6⟩
def OpSkInval.pack (o : OpSkInval) : BitVec 40 := 0#6 ++ o.a ++ 0#27 ++ (BitVec.ofBool o.m)
def OpSkInval.unpack (x : BitVec 40) : OpSkInval :=
  ⟨x.extractLsb' 28 6, x.getLsbD 0⟩
def OpV.pack (o : OpV) : BitVec 40 := o.d ++ o.a ++ o.b ++ o.c ++ o.k ++ o.ty ++ (BitVec.ofBool o.z) ++ o.rm ++ (BitVec.ofBool o.sat) ++ o.spec
def OpV.unpack (x : BitVec 40) : OpV :=
  ⟨x.extractLsb' 34 6, x.extractLsb' 28 6, x.extractLsb' 22 6, x.extractLsb' 16 6, x.extractLsb' 12 4, x.extractLsb' 8 4, x.getLsbD 7, x.extractLsb' 4 3, x.getLsbD 3, x.extractLsb' 0 3⟩
def OpVM.pack (o : OpVM) : BitVec 40 := o.d ++ o.a ++ o.k ++ o.size ++ (BitVec.ofBool o.pitch) ++ o.off
def OpVM.unpack (x : BitVec 40) : OpVM :=
  ⟨x.extractLsb' 34 6, x.extractLsb' 28 6, x.extractLsb' 24 4, x.extractLsb' 22 2, x.getLsbD 21, x.extractLsb' 0 21⟩
/-- A matrix command carries the type code of its minor in bits 11:8 (R196, R197). -/
def OpMma.pack (o : OpMma) (ty : BitVec 4) : BitVec 40 :=
  o.d ++ o.a ++ o.b ++ 0#8 ++ o.pri ++ ty ++ 0#5 ++ o.spec
def OpMma.unpack (x : BitVec 40) : OpMma :=
  ⟨x.extractLsb' 34 6, x.extractLsb' 28 6, x.extractLsb' 22 6, x.extractLsb' 12 2, x.extractLsb' 0 3⟩
/-- `sks` and `sksv` have the sketch number in the minor (R59, R264, R268). -/
def OpSks.pack (o : OpSks) : BitVec 40 := o.d ++ o.a ++ o.b ++ o.imm
def OpSks.unpack (n : BitVec 6) (x : BitVec 40) : OpSks :=
  ⟨n, x.extractLsb' 34 6, x.extractLsb' 28 6, x.extractLsb' 22 6, x.extractLsb' 0 22⟩
def OpSksv.pack (o : OpSksv) : BitVec 40 := o.v.pack
def OpSksv.unpack (n : BitVec 6) (x : BitVec 40) : OpSksv := ⟨n, OpV.unpack x⟩

/-! ## The opcode map (R58, R59) -/

/-- Major, minor and operand bits of an instruction; an event has no word. -/
def opcodeOf : Instr → Option (BitVec 8 × BitVec 6 × BitVec 40)
  | .nop => some (0x00, 0x00, 0)
  | .add o => some (0x01, 0x00, o.pack)
  | .sub o => some (0x01, 0x01, o.pack)
  | .mul o => some (0x01, 0x02, o.pack)
  | .mulh o => some (0x01, 0x03, o.pack)
  | .mulhn o => some (0x01, 0x04, o.pack)
  | .div o => some (0x01, 0x05, o.pack)
  | .divn o => some (0x01, 0x06, o.pack)
  | .rem o => some (0x01, 0x07, o.pack)
  | .remn o => some (0x01, 0x08, o.pack)
  | .and o => some (0x01, 0x09, o.pack)
  | .or o => some (0x01, 0x0A, o.pack)
  | .xor o => some (0x01, 0x0B, o.pack)
  | .andn o => some (0x01, 0x0C, o.pack)
  | .shl o => some (0x01, 0x0D, o.pack)
  | .shr o => some (0x01, 0x0E, o.pack)
  | .sra o => some (0x01, 0x0F, o.pack)
  | .rol o => some (0x01, 0x10, o.pack)
  | .ror o => some (0x01, 0x11, o.pack)
  | .min o => some (0x01, 0x12, o.pack)
  | .max o => some (0x01, 0x13, o.pack)
  | .minn o => some (0x01, 0x14, o.pack)
  | .maxn o => some (0x01, 0x15, o.pack)
  | .addo o => some (0x01, 0x16, o.pack)
  | .subo o => some (0x01, 0x17, o.pack)
  | .addi o => some (0x02, 0x00, o.pack)
  | .andi o => some (0x02, 0x01, o.pack)
  | .ori o => some (0x02, 0x02, o.pack)
  | .xori o => some (0x02, 0x03, o.pack)
  | .shli o => some (0x02, 0x04, o.pack)
  | .shri o => some (0x02, 0x05, o.pack)
  | .srai o => some (0x02, 0x06, o.pack)
  | .muli o => some (0x02, 0x07, o.pack)
  | .li o => some (0x03, 0x00, o.pack)
  | .lih o => some (0x03, 0x01, o.pack)
  | .lpc o => some (0x03, 0x02, o.pack)
  | .ext o => some (0x04, 0x00, o.pack)
  | .extn o => some (0x04, 0x01, o.pack)
  | .ins o => some (0x04, 0x02, o.pack)
  | .clz o => some (0x04, 0x03, o.pack)
  | .ctz o => some (0x04, 0x04, o.pack)
  | .popc o => some (0x04, 0x05, o.pack)
  | .bswap o => some (0x04, 0x06, o.pack)
  | .seq o => some (0x05, 0x00, o.pack)
  | .sne o => some (0x05, 0x01, o.pack)
  | .slt o => some (0x05, 0x02, o.pack)
  | .sltn o => some (0x05, 0x03, o.pack)
  | .sle o => some (0x05, 0x04, o.pack)
  | .slen o => some (0x05, 0x05, o.pack)
  | .sel o => some (0x05, 0x06, o.pack)
  | .seqi o => some (0x06, 0x00, o.pack)
  | .slti o => some (0x06, 0x01, o.pack)
  | .sltni o => some (0x06, 0x02, o.pack)
  | .lea o => some (0x07, 0x00, o.pack)
  | .faddF64 o => some (0x10, 0x00, o.pack)
  | .fsubF64 o => some (0x10, 0x01, o.pack)
  | .fmulF64 o => some (0x10, 0x02, o.pack)
  | .fdivF64 o => some (0x10, 0x03, o.pack)
  | .fsqrtF64 o => some (0x10, 0x04, o.pack)
  | .fminF64 o => some (0x10, 0x05, o.pack)
  | .fmaxF64 o => some (0x10, 0x06, o.pack)
  | .fabsF64 o => some (0x10, 0x07, o.pack)
  | .fnegF64 o => some (0x10, 0x08, o.pack)
  | .fsgnF64 o => some (0x10, 0x09, o.pack)
  | .faddF32 o => some (0x11, 0x00, o.pack)
  | .fsubF32 o => some (0x11, 0x01, o.pack)
  | .fmulF32 o => some (0x11, 0x02, o.pack)
  | .fdivF32 o => some (0x11, 0x03, o.pack)
  | .fsqrtF32 o => some (0x11, 0x04, o.pack)
  | .fminF32 o => some (0x11, 0x05, o.pack)
  | .fmaxF32 o => some (0x11, 0x06, o.pack)
  | .fabsF32 o => some (0x11, 0x07, o.pack)
  | .fnegF32 o => some (0x11, 0x08, o.pack)
  | .fsgnF32 o => some (0x11, 0x09, o.pack)
  | .fma o => some (0x12, 0x00, o.pack)
  | .fms o => some (0x12, 0x01, o.pack)
  | .fnma o => some (0x12, 0x02, o.pack)
  | .fnms o => some (0x12, 0x03, o.pack)
  | .fcvt o => some (0x13, 0x00, o.pack)
  | .fcvti o => some (0x13, 0x01, o.pack)
  | .icvtf o => some (0x13, 0x02, o.pack)
  | .feq o => some (0x14, 0x00, o.pack)
  | .flt o => some (0x14, 0x01, o.pack)
  | .fle o => some (0x14, 0x02, o.pack)
  | .fclass o => some (0x14, 0x03, o.pack)
  | .beq o => some (0x18, 0x00, o.pack)
  | .bne o => some (0x18, 0x01, o.pack)
  | .blt o => some (0x18, 0x02, o.pack)
  | .bge o => some (0x18, 0x03, o.pack)
  | .bltn o => some (0x18, 0x04, o.pack)
  | .bgen o => some (0x18, 0x05, o.pack)
  | .jal o => some (0x19, 0x00, o.pack)
  | .jalr o => some (0x1A, 0x00, o.pack)
  | .loop o => some (0x1B, 0x00, o.pack)
  | .ld o => some (0x20, 0x00, o.pack)
  | .st o => some (0x20, 0x01, o.pack)
  | .atomAdd o => some (0x21, 0x00, o.pack)
  | .atomAnd o => some (0x21, 0x01, o.pack)
  | .atomOr o => some (0x21, 0x02, o.pack)
  | .atomXor o => some (0x21, 0x03, o.pack)
  | .atomMin o => some (0x21, 0x04, o.pack)
  | .atomMax o => some (0x21, 0x05, o.pack)
  | .atomMinn o => some (0x21, 0x06, o.pack)
  | .atomMaxn o => some (0x21, 0x07, o.pack)
  | .atomSwap o => some (0x21, 0x08, o.pack)
  | .atomCas o => some (0x21, 0x09, o.pack)
  | .atomIncb o => some (0x21, 0x0A, o.pack)
  | .atomAddHbm o => some (0x22, 0x00, o.pack)
  | .atomAndHbm o => some (0x22, 0x01, o.pack)
  | .atomOrHbm o => some (0x22, 0x02, o.pack)
  | .atomXorHbm o => some (0x22, 0x03, o.pack)
  | .atomMinHbm o => some (0x22, 0x04, o.pack)
  | .atomMaxHbm o => some (0x22, 0x05, o.pack)
  | .atomMinnHbm o => some (0x22, 0x06, o.pack)
  | .atomMaxnHbm o => some (0x22, 0x07, o.pack)
  | .atomSwapHbm o => some (0x22, 0x08, o.pack)
  | .atomCasHbm o => some (0x22, 0x09, o.pack)
  | .atomIncbHbm o => some (0x22, 0x0A, o.pack)
  | .claim o => some (0x23, 0x00, o.pack)
  | .claimHbm o => some (0x23, 0x01, o.pack)
  | .qPush o => some (0x24, 0x00, o.pack)
  | .qPop o => some (0x24, 0x01, o.pack)
  | .qBind o => some (0x24, 0x02, o.pack)
  | .qCount o => some (0x24, 0x03, o.pack)
  | .flagAdd o => some (0x25, 0x00, o.pack)
  | .flagWait o => some (0x25, 0x01, o.pack)
  | .flagRd o => some (0x25, 0x02, o.pack)
  | .flagSet o => some (0x25, 0x03, o.pack)
  | .barArrive o => some (0x26, 0x00, o.pack)
  | .barWait o => some (0x26, 0x01, o.pack)
  | .barSync o => some (0x26, 0x02, o.pack)
  | .barInit o => some (0x26, 0x03, o.pack)
  | .msgSend o => some (0x27, 0x00, o.pack)
  | .msgRecv o => some (0x27, 0x01, o.pack)
  | .msgPoll o => some (0x27, 0x02, o.pack)
  | .bufDecl o => some (0x30, 0x00, o.pack)
  | .bufFree o => some (0x30, 0x01, o.pack)
  | .bufState o => some (0x30, 0x02, o.pack)
  | .bufFill o => some (0x30, 0x03, o.pack)
  | .bufFull o => some (0x30, 0x04, o.pack)
  | .bufDrain o => some (0x30, 0x05, o.pack)
  | .bufEmpty o => some (0x30, 0x06, o.pack)
  | .bufVer o => some (0x30, 0x07, o.pack)
  | .tbNew o => some (0x34, 0x00, o.pack)
  | .tbReg o => some (0x34, 0x01, o.pack)
  | .tbArg o => some (0x34, 0x02, o.pack)
  | .tbFlag o => some (0x34, 0x03, o.pack)
  | .tbTag o => some (0x34, 0x04, o.pack)
  | .tbPost o => some (0x34, 0x05, o.pack)
  | .tbCancel o => some (0x34, 0x06, o.pack)
  | .twait o => some (0x35, 0x00, o.pack)
  | .tqState o => some (0x35, 0x01, o.pack)
  | .tqFree o => some (0x35, 0x02, o.pack)
  | .cpBox o => some (0x38, 0x00, o.pack)
  | .cpFill o => some (0x38, 0x01, o.pack)
  | .cpGather o => some (0x38, 0x02, o.pack)
  | .cpScatter o => some (0x38, 0x03, o.pack)
  | .shLoad o => some (0x39, 0x00, o.pack)
  | .shUnload o => some (0x39, 0x01, o.pack)
  | .palClaim o => some (0x3C, 0x00, o.pack)
  | .palRel o => some (0x3C, 0x01, o.pack)
  | .palOwn o => some (0x3C, 0x02, o.pack)
  | .mmaBf16 o => some (0x3D, 0x00, o.pack 3)
  | .mmaF16 o => some (0x3D, 0x01, o.pack 2)
  | .mmaE4m3 o => some (0x3D, 0x02, o.pack 4)
  | .mmaE5m2 o => some (0x3D, 0x03, o.pack 5)
  | .mmaI8 o => some (0x3D, 0x04, o.pack 14)
  | .mmaMx4 o => some (0x3D, 0x05, o.pack 6)
  | .mmaF32 o => some (0x3D, 0x06, o.pack 1)
  | .mmaF64 o => some (0x3D, 0x07, o.pack 0)
  | .mmaZ64 o => some (0x3D, 0x08, o.pack 7)
  | .accZero o => some (0x3E, 0x00, o.pack)
  | .accLoad o => some (0x3E, 0x01, o.pack)
  | .accDrain o => some (0x3E, 0x02, o.pack)
  | .accChk o => some (0x3E, 0x03, o.pack)
  | .accGive o => some (0x3E, 0x04, o.pack)
  | .leaseSet o => some (0x3F, 0x00, o.pack)
  | .leaseGet o => some (0x3F, 0x01, o.pack)
  | .winMap o => some (0x40, 0x00, o.pack)
  | .winUnmap o => some (0x40, 0x01, o.pack)
  | .winAllow o => some (0x40, 0x02, o.pack)
  | .winStat o => some (0x40, 0x03, o.pack)
  | .rpost o => some (0x41, 0x00, o.pack)
  | .rflag o => some (0x41, 0x01, o.pack)
  | .fenceC o => some (0x44, 0x00, o.pack)
  | .fenceG o => some (0x44, 0x01, o.pack)
  | .wqPop o => some (0x48, 0x00, o.pack)
  | .wqCount o => some (0x48, 0x01, o.pack)
  | .sigSub o => some (0x48, 0x02, o.pack)
  | .sigRead o => some (0x48, 0x03, o.pack)
  | .trapf => some (0x4C, 0x00, 0)
  | .trapfAll => some (0x4C, 0x01, 0)
  | .trap o => some (0x4C, 0x02, o.pack)
  | .eret => some (0x4C, 0x03, 0)
  | .crr o => some (0x4D, 0x00, o.pack)
  | .crw o => some (0x4D, 0x01, o.pack)
  | .crs o => some (0x4D, 0x02, o.pack)
  | .crc o => some (0x4D, 0x03, o.pack)
  | .ctxSaveSoft o => some (0x4E, 0x00, o.pack)
  | .ctxSaveHard o => some (0x4E, 0x00, o.pack)
  | .ctxLoad o => some (0x4E, 0x01, o.pack)
  | .resume => some (0x4E, 0x02, 0)
  | .yield => some (0x4E, 0x03, 0)
  | .skBind o => some (0x4F, 0x00, o.pack)
  | .skUnbind o => some (0x4F, 0x01, o.pack)
  | .skWrite o => some (0x4F, 0x02, o.pack)
  | .skInval o => some (0x4F, 0x03, o.pack)
  | .vadd o => some (0x80, 0x00, o.pack)
  | .vsub o => some (0x80, 0x01, o.pack)
  | .vmul o => some (0x80, 0x02, o.pack)
  | .vmulh o => some (0x80, 0x03, o.pack)
  | .vmin o => some (0x80, 0x04, o.pack)
  | .vmax o => some (0x80, 0x05, o.pack)
  | .vabs o => some (0x80, 0x06, o.pack)
  | .vneg o => some (0x80, 0x07, o.pack)
  | .vadds o => some (0x80, 0x08, o.pack)
  | .vsubs o => some (0x80, 0x09, o.pack)
  | .vand o => some (0x81, 0x00, o.pack)
  | .vor o => some (0x81, 0x01, o.pack)
  | .vxor o => some (0x81, 0x02, o.pack)
  | .vnot o => some (0x81, 0x03, o.pack)
  | .vshl o => some (0x81, 0x04, o.pack)
  | .vshr o => some (0x81, 0x05, o.pack)
  | .vsra o => some (0x81, 0x06, o.pack)
  | .vmov o => some (0x81, 0x07, o.pack)
  | .vsel o => some (0x81, 0x08, o.pack)
  | .vfadd o => some (0x82, 0x00, o.pack)
  | .vfsub o => some (0x82, 0x01, o.pack)
  | .vfmul o => some (0x82, 0x02, o.pack)
  | .vfma o => some (0x82, 0x03, o.pack)
  | .vfms o => some (0x82, 0x04, o.pack)
  | .vfnma o => some (0x82, 0x05, o.pack)
  | .vfmin o => some (0x82, 0x06, o.pack)
  | .vfmax o => some (0x82, 0x07, o.pack)
  | .vfabs o => some (0x82, 0x08, o.pack)
  | .vfneg o => some (0x82, 0x09, o.pack)
  | .vdiv o => some (0x83, 0x00, o.pack)
  | .vsqrt o => some (0x83, 0x01, o.pack)
  | .vrcp o => some (0x83, 0x02, o.pack)
  | .vrsq o => some (0x83, 0x03, o.pack)
  | .vexp2 o => some (0x83, 0x04, o.pack)
  | .vlog2 o => some (0x83, 0x05, o.pack)
  | .vcmp o => some (0x84, 0x00, o.pack)
  | .vfcmp o => some (0x84, 0x01, o.pack)
  | .vclass o => some (0x84, 0x02, o.pack)
  | .kand o => some (0x85, 0x00, o.pack)
  | .kor o => some (0x85, 0x01, o.pack)
  | .kxor o => some (0x85, 0x02, o.pack)
  | .knot o => some (0x85, 0x03, o.pack)
  | .kmov o => some (0x85, 0x04, o.pack)
  | .kpop o => some (0x85, 0x05, o.pack)
  | .kfirst o => some (0x85, 0x06, o.pack)
  | .vcvt o => some (0x86, 0x00, o.pack)
  | .vqmx o => some (0x86, 0x01, o.pack)
  | .vdqmx o => some (0x86, 0x02, o.pack)
  | .vrotR o => some (0x87, 0x00, o.pack)
  | .vrotC o => some (0x87, 0x01, o.pack)
  | .vbcR o => some (0x87, 0x02, o.pack)
  | .vbcC o => some (0x87, 0x03, o.pack)
  | .vredR o => some (0x87, 0x04, o.pack)
  | .vredC o => some (0x87, 0x05, o.pack)
  | .vhad32 o => some (0x87, 0x06, o.pack)
  | .vld o => some (0x88, 0x00, o.pack)
  | .vst o => some (0x88, 0x01, o.pack)
  | .vgather o => some (0x88, 0x02, o.pack)
  | .vscatter o => some (0x88, 0x03, o.pack)
  | .vrand o => some (0x89, 0x00, o.pack)
  | .vsplat o => some (0x89, 0x01, o.pack)
  | .vsplatPop o => some (0x89, 0x01, o.pack)
  | .vsplatPush o => some (0x89, 0x01, o.pack)
  | .sks o => some (0xF0, o.n, o.pack)
  | .sksv o => some (0xF4, o.n, o.pack)
  | .crFpstatWrite _ _ => none
  | .crCpolWrite _ => none
  | .crTflogWrite _ => none
  | .crStatusWrite _ => none
  | .crCyccmpWrite _ => none
  | .crFmapWrite _ _ => none
  | .sketchReload _ => none
  | .vectorResultLand => none
  | .kernelIterationBoundary => none
  | .holdRelease => none
  | .stalledInstructionResume => none
  | .taskDispatch _ => none
  | .copyChunk _ => none
  | .taskComplete _ => none
  | .canvasLeaseGrant => none
  | .leaseEnd => none
  | .canvasCold => none
  | .gustTokenTake => none
  | .rampWindowEnd => none
  | .gustTokenAdvance => none
  | .preemptRequest => none
  | .cycleCompareMatch => none
  | .interruptTaken => none
  | .escalatedTaskFault => none
  | .saveTimeout _ => none
  | .write _ => none
  | .atomic _ => none
  | .flag _ => none
  | .msg _ => none
  | .post _ => none
  | .cancel _ => none
  | .hbm _ => none
  | .ack _ => none
  | .deny _ => none
  | .reply _ => none
  | .retry _ => none
  | .packetResend _ => none
  | .retriedPacketResend _ => none
  | .packetHop _ _ _ => none
  | .flitReplay _ _ _ => none
  | .laneFailure _ _ _ => none
  | .remap _ _ _ _ => none
  | .ackremap _ _ _ _ => none
  | .detectorThreshold _ _ _ => none
  | .zephyrTokenArrival _ _ => none
  | .tokenPass _ => none
  | .leeDelivery _ _ => none
  | .leeAcknowledgement _ => none
  | .tokenRegeneration => none
  | .notify _ _ _ => none
  | .mbxCtl _ _ => none
  | .mailboxWrite _ _ _ => none
  | .mailboxRead _ _ _ => none
  | .queueEnable _ _ => none
  | .queuePause _ _ => none
  | .queueReset _ _ => none
  | .registerWrite _ _ _ => none
  | .packetFetch _ _ => none
  | .packetRefetch _ _ => none
  | .launch _ _ _ => none
  | .feed _ _ _ => none
  | .signal _ _ _ => none
  | .barrierAnd _ _ _ => none
  | .copy _ _ _ => none
  | .packetComplete _ _ _ => none
  | .signalSubtract => none
  | .endOfJobFence _ => none
  | .quantumExpiry => none
  | .hostReadErrorCompletion _ _ _ _ => none
  | .completionTimeout _ _ _ => none
  | .setQn _ _ => none
  | .keyDelivery _ _ _ _ => none
  | .attestationRequest _ => none
  | .antiRollbackUpdate _ => none
  | .moduleReset => none
  | .powerOn _ => none
  | .thermalHold _ => none
  | .thermalSingleToken _ => none
  | .thermalShutdown _ => none
  | .patrolScrub _ _ => none
  | .exitFromHold _ => none
  | .powerLoss => none
  | .leeRouteReplacement => none
  | .functionEnable _ => none
  | .functionSettings _ _ => none
  | .unexpectedCompletion _ _ _ => none

noncomputable def candidate00 (minor : Nat) (x : BitVec 40) : Option Instr :=
  match minor with
  | 0 => some .nop
  | _ => none

noncomputable def candidate01 (minor : Nat) (x : BitVec 40) : Option Instr :=
  match minor with
  | 0 => some (.add (OpRRR.unpack x))
  | 1 => some (.sub (OpRRR.unpack x))
  | 2 => some (.mul (OpRRR.unpack x))
  | 3 => some (.mulh (OpRRR.unpack x))
  | 4 => some (.mulhn (OpRRR.unpack x))
  | 5 => some (.div (OpRRR.unpack x))
  | 6 => some (.divn (OpRRR.unpack x))
  | 7 => some (.rem (OpRRR.unpack x))
  | 8 => some (.remn (OpRRR.unpack x))
  | 9 => some (.and (OpRRR.unpack x))
  | 10 => some (.or (OpRRR.unpack x))
  | 11 => some (.xor (OpRRR.unpack x))
  | 12 => some (.andn (OpRRR.unpack x))
  | 13 => some (.shl (OpRRR.unpack x))
  | 14 => some (.shr (OpRRR.unpack x))
  | 15 => some (.sra (OpRRR.unpack x))
  | 16 => some (.rol (OpRRR.unpack x))
  | 17 => some (.ror (OpRRR.unpack x))
  | 18 => some (.min (OpRRR.unpack x))
  | 19 => some (.max (OpRRR.unpack x))
  | 20 => some (.minn (OpRRR.unpack x))
  | 21 => some (.maxn (OpRRR.unpack x))
  | 22 => some (.addo (OpRRR.unpack x))
  | 23 => some (.subo (OpRRR.unpack x))
  | _ => none

noncomputable def candidate02 (minor : Nat) (x : BitVec 40) : Option Instr :=
  match minor with
  | 0 => some (.addi (OpRRI.unpack x))
  | 1 => some (.andi (OpRRI.unpack x))
  | 2 => some (.ori (OpRRI.unpack x))
  | 3 => some (.xori (OpRRI.unpack x))
  | 4 => some (.shli (OpShift.unpack x))
  | 5 => some (.shri (OpShift.unpack x))
  | 6 => some (.srai (OpShift.unpack x))
  | 7 => some (.muli (OpRRI.unpack x))
  | _ => none

noncomputable def candidate03 (minor : Nat) (x : BitVec 40) : Option Instr :=
  match minor with
  | 0 => some (.li (OpRI.unpack x))
  | 1 => some (.lih (OpLih.unpack x))
  | 2 => some (.lpc (OpRI.unpack x))
  | _ => none

noncomputable def candidate04 (minor : Nat) (x : BitVec 40) : Option Instr :=
  match minor with
  | 0 => some (.ext (OpBits.unpack x))
  | 1 => some (.extn (OpBits.unpack x))
  | 2 => some (.ins (OpBits.unpack x))
  | 3 => some (.clz (OpRR.unpack x))
  | 4 => some (.ctz (OpRR.unpack x))
  | 5 => some (.popc (OpRR.unpack x))
  | 6 => some (.bswap (OpRR.unpack x))
  | _ => none

noncomputable def candidate05 (minor : Nat) (x : BitVec 40) : Option Instr :=
  match minor with
  | 0 => some (.seq (OpRRR.unpack x))
  | 1 => some (.sne (OpRRR.unpack x))
  | 2 => some (.slt (OpRRR.unpack x))
  | 3 => some (.sltn (OpRRR.unpack x))
  | 4 => some (.sle (OpRRR.unpack x))
  | 5 => some (.slen (OpRRR.unpack x))
  | 6 => some (.sel (OpSel.unpack x))
  | _ => none

noncomputable def candidate06 (minor : Nat) (x : BitVec 40) : Option Instr :=
  match minor with
  | 0 => some (.seqi (OpRRI.unpack x))
  | 1 => some (.slti (OpRRI.unpack x))
  | 2 => some (.sltni (OpRRI.unpack x))
  | _ => none

noncomputable def candidate07 (minor : Nat) (x : BitVec 40) : Option Instr :=
  match minor with
  | 0 => some (.lea (OpLea.unpack x))
  | _ => none

noncomputable def candidate10 (minor : Nat) (x : BitVec 40) : Option Instr :=
  match minor with
  | 0 => some (.faddF64 (OpF3.unpack x))
  | 1 => some (.fsubF64 (OpF3.unpack x))
  | 2 => some (.fmulF64 (OpF3.unpack x))
  | 3 => some (.fdivF64 (OpF3.unpack x))
  | 4 => some (.fsqrtF64 (OpF2.unpack x))
  | 5 => some (.fminF64 (OpRRR.unpack x))
  | 6 => some (.fmaxF64 (OpRRR.unpack x))
  | 7 => some (.fabsF64 (OpRR.unpack x))
  | 8 => some (.fnegF64 (OpRR.unpack x))
  | 9 => some (.fsgnF64 (OpRRR.unpack x))
  | _ => none

noncomputable def candidate11 (minor : Nat) (x : BitVec 40) : Option Instr :=
  match minor with
  | 0 => some (.faddF32 (OpF3.unpack x))
  | 1 => some (.fsubF32 (OpF3.unpack x))
  | 2 => some (.fmulF32 (OpF3.unpack x))
  | 3 => some (.fdivF32 (OpF3.unpack x))
  | 4 => some (.fsqrtF32 (OpF2.unpack x))
  | 5 => some (.fminF32 (OpRRR.unpack x))
  | 6 => some (.fmaxF32 (OpRRR.unpack x))
  | 7 => some (.fabsF32 (OpRR.unpack x))
  | 8 => some (.fnegF32 (OpRR.unpack x))
  | 9 => some (.fsgnF32 (OpRRR.unpack x))
  | _ => none

noncomputable def candidate12 (minor : Nat) (x : BitVec 40) : Option Instr :=
  match minor with
  | 0 => some (.fma (OpFma.unpack x))
  | 1 => some (.fms (OpFma.unpack x))
  | 2 => some (.fnma (OpFma.unpack x))
  | 3 => some (.fnms (OpFma.unpack x))
  | _ => none

noncomputable def candidate13 (minor : Nat) (x : BitVec 40) : Option Instr :=
  match minor with
  | 0 => some (.fcvt (OpCvt.unpack x))
  | 1 => some (.fcvti (OpCvt.unpack x))
  | 2 => some (.icvtf (OpCvt.unpack x))
  | _ => none

noncomputable def candidate14 (minor : Nat) (x : BitVec 40) : Option Instr :=
  match minor with
  | 0 => some (.feq (OpFCmp.unpack x))
  | 1 => some (.flt (OpFCmp.unpack x))
  | 2 => some (.fle (OpFCmp.unpack x))
  | 3 => some (.fclass (OpFCls.unpack x))
  | _ => none

noncomputable def candidate18 (minor : Nat) (x : BitVec 40) : Option Instr :=
  match minor with
  | 0 => some (.beq (OpBr.unpack x))
  | 1 => some (.bne (OpBr.unpack x))
  | 2 => some (.blt (OpBr.unpack x))
  | 3 => some (.bge (OpBr.unpack x))
  | 4 => some (.bltn (OpBr.unpack x))
  | 5 => some (.bgen (OpBr.unpack x))
  | _ => none

noncomputable def candidate19 (minor : Nat) (x : BitVec 40) : Option Instr :=
  match minor with
  | 0 => some (.jal (OpRI.unpack x))
  | _ => none

noncomputable def candidate1A (minor : Nat) (x : BitVec 40) : Option Instr :=
  match minor with
  | 0 => some (.jalr (OpJalr.unpack x))
  | _ => none

noncomputable def candidate1B (minor : Nat) (x : BitVec 40) : Option Instr :=
  match minor with
  | 0 => some (.loop (OpBr.unpack x))
  | _ => none

noncomputable def candidate20 (minor : Nat) (x : BitVec 40) : Option Instr :=
  match minor with
  | 0 => some (.ld (OpMem.unpack x))
  | 1 => some (.st (OpMem.unpack x))
  | _ => none

noncomputable def candidate21 (minor : Nat) (x : BitVec 40) : Option Instr :=
  match minor with
  | 0 => some (.atomAdd (OpMem.unpack x))
  | 1 => some (.atomAnd (OpMem.unpack x))
  | 2 => some (.atomOr (OpMem.unpack x))
  | 3 => some (.atomXor (OpMem.unpack x))
  | 4 => some (.atomMin (OpMem.unpack x))
  | 5 => some (.atomMax (OpMem.unpack x))
  | 6 => some (.atomMinn (OpMem.unpack x))
  | 7 => some (.atomMaxn (OpMem.unpack x))
  | 8 => some (.atomSwap (OpMem.unpack x))
  | 9 => some (.atomCas (OpMem.unpack x))
  | 10 => some (.atomIncb (OpMem.unpack x))
  | _ => none

noncomputable def candidate22 (minor : Nat) (x : BitVec 40) : Option Instr :=
  match minor with
  | 0 => some (.atomAddHbm (OpMem.unpack x))
  | 1 => some (.atomAndHbm (OpMem.unpack x))
  | 2 => some (.atomOrHbm (OpMem.unpack x))
  | 3 => some (.atomXorHbm (OpMem.unpack x))
  | 4 => some (.atomMinHbm (OpMem.unpack x))
  | 5 => some (.atomMaxHbm (OpMem.unpack x))
  | 6 => some (.atomMinnHbm (OpMem.unpack x))
  | 7 => some (.atomMaxnHbm (OpMem.unpack x))
  | 8 => some (.atomSwapHbm (OpMem.unpack x))
  | 9 => some (.atomCasHbm (OpMem.unpack x))
  | 10 => some (.atomIncbHbm (OpMem.unpack x))
  | _ => none

noncomputable def candidate23 (minor : Nat) (x : BitVec 40) : Option Instr :=
  match minor with
  | 0 => some (.claim (OpMem.unpack x))
  | 1 => some (.claimHbm (OpMem.unpack x))
  | _ => none

noncomputable def candidate24 (minor : Nat) (x : BitVec 40) : Option Instr :=
  match minor with
  | 0 => some (.qPush (OpQA.unpack x))
  | 1 => some (.qPop (OpQD.unpack x))
  | 2 => some (.qBind (OpQBind.unpack x))
  | 3 => some (.qCount (OpQD.unpack x))
  | _ => none

noncomputable def candidate25 (minor : Nat) (x : BitVec 40) : Option Instr :=
  match minor with
  | 0 => some (.flagAdd (OpFlagAdd.unpack x))
  | 1 => some (.flagWait (OpFlagWait.unpack x))
  | 2 => some (.flagRd (OpFlagRd.unpack x))
  | 3 => some (.flagSet (OpFlagAdd.unpack x))
  | _ => none

noncomputable def candidate26 (minor : Nat) (x : BitVec 40) : Option Instr :=
  match minor with
  | 0 => some (.barArrive (OpBarArrive.unpack x))
  | 1 => some (.barWait (OpBarWait.unpack x))
  | 2 => some (.barSync (OpBarSync.unpack x))
  | 3 => some (.barInit (OpBarInit.unpack x))
  | _ => none

noncomputable def candidate27 (minor : Nat) (x : BitVec 40) : Option Instr :=
  match minor with
  | 0 => some (.msgSend (OpMsgSend.unpack x))
  | 1 => some (.msgRecv (OpD.unpack x))
  | 2 => some (.msgPoll (OpD.unpack x))
  | _ => none

noncomputable def candidate30 (minor : Nat) (x : BitVec 40) : Option Instr :=
  match minor with
  | 0 => some (.bufDecl (OpBufDecl.unpack x))
  | 1 => some (.bufFree (OpBuf.unpack x))
  | 2 => some (.bufState (OpBufD.unpack x))
  | 3 => some (.bufFill (OpBuf.unpack x))
  | 4 => some (.bufFull (OpBuf.unpack x))
  | 5 => some (.bufDrain (OpBuf.unpack x))
  | 6 => some (.bufEmpty (OpBuf.unpack x))
  | 7 => some (.bufVer (OpBufD.unpack x))
  | _ => none

noncomputable def candidate34 (minor : Nat) (x : BitVec 40) : Option Instr :=
  match minor with
  | 0 => some (.tbNew (OpA.unpack x))
  | 1 => some (.tbReg (OpTbIdx.unpack x))
  | 2 => some (.tbArg (OpTbIdx.unpack x))
  | 3 => some (.tbFlag (OpTbFlag.unpack x))
  | 4 => some (.tbTag (OpA.unpack x))
  | 5 => some (.tbPost (OpTbPost.unpack x))
  | 6 => some (.tbCancel (OpRRR.unpack x))
  | _ => none

noncomputable def candidate35 (minor : Nat) (x : BitVec 40) : Option Instr :=
  match minor with
  | 0 => some (.twait (OpRRR.unpack x))
  | 1 => some (.tqState (OpRRR.unpack x))
  | 2 => some (.tqFree (OpD.unpack x))
  | _ => none

noncomputable def candidate38 (minor : Nat) (x : BitVec 40) : Option Instr :=
  match minor with
  | 0 => some (.cpBox (OpCmd.unpack x))
  | 1 => some (.cpFill (OpCmd.unpack x))
  | 2 => some (.cpGather (OpCmd.unpack x))
  | 3 => some (.cpScatter (OpCmd.unpack x))
  | _ => none

noncomputable def candidate39 (minor : Nat) (x : BitVec 40) : Option Instr :=
  match minor with
  | 0 => some (.shLoad (OpCmd.unpack x))
  | 1 => some (.shUnload (OpCmd.unpack x))
  | _ => none

noncomputable def candidate3C (minor : Nat) (x : BitVec 40) : Option Instr :=
  match minor with
  | 0 => some (.palClaim (OpPalClaim.unpack x))
  | 1 => some (.palRel (OpA.unpack x))
  | 2 => some (.palOwn (OpD.unpack x))
  | _ => none

noncomputable def candidate3D (minor : Nat) (x : BitVec 40) : Option Instr :=
  match minor with
  | 0 => some (.mmaBf16 (OpMma.unpack x))
  | 1 => some (.mmaF16 (OpMma.unpack x))
  | 2 => some (.mmaE4m3 (OpMma.unpack x))
  | 3 => some (.mmaE5m2 (OpMma.unpack x))
  | 4 => some (.mmaI8 (OpMma.unpack x))
  | 5 => some (.mmaMx4 (OpMma.unpack x))
  | 6 => some (.mmaF32 (OpMma.unpack x))
  | 7 => some (.mmaF64 (OpMma.unpack x))
  | 8 => some (.mmaZ64 (OpMma.unpack x))
  | _ => none

noncomputable def candidate3E (minor : Nat) (x : BitVec 40) : Option Instr :=
  match minor with
  | 0 => some (.accZero (OpCmd.unpack x))
  | 1 => some (.accLoad (OpCmd.unpack x))
  | 2 => some (.accDrain (OpCmd.unpack x))
  | 3 => some (.accChk (OpCmd.unpack x))
  | 4 => some (.accGive (OpAccGive.unpack x))
  | _ => none

noncomputable def candidate3F (minor : Nat) (x : BitVec 40) : Option Instr :=
  match minor with
  | 0 => some (.leaseSet (OpLeaseSet.unpack x))
  | 1 => some (.leaseGet (OpD.unpack x))
  | _ => none

noncomputable def candidate40 (minor : Nat) (x : BitVec 40) : Option Instr :=
  match minor with
  | 0 => some (.winMap (OpWinMap.unpack x))
  | 1 => some (.winUnmap (OpWin.unpack x))
  | 2 => some (.winAllow (OpWinA.unpack x))
  | 3 => some (.winStat (OpWinStat.unpack x))
  | _ => none

noncomputable def candidate41 (minor : Nat) (x : BitVec 40) : Option Instr :=
  match minor with
  | 0 => some (.rpost (OpCmd.unpack x))
  | 1 => some (.rflag (OpRflag.unpack x))
  | _ => none

noncomputable def candidate44 (minor : Nat) (x : BitVec 40) : Option Instr :=
  match minor with
  | 0 => some (.fenceC (OpFenceC.unpack x))
  | 1 => some (.fenceG (OpFenceG.unpack x))
  | _ => none

noncomputable def candidate48 (minor : Nat) (x : BitVec 40) : Option Instr :=
  match minor with
  | 0 => some (.wqPop (OpWqPop.unpack x))
  | 1 => some (.wqCount (OpWqCount.unpack x))
  | 2 => some (.sigSub (OpSigSub.unpack x))
  | 3 => some (.sigRead (OpSigRead.unpack x))
  | _ => none

noncomputable def candidate4C (minor : Nat) (x : BitVec 40) : Option Instr :=
  match minor with
  | 0 => some .trapf
  | 1 => some .trapfAll
  | 2 => some (.trap (OpTrap.unpack x))
  | 3 => some .eret
  | _ => none

noncomputable def candidate4D (minor : Nat) (x : BitVec 40) : Option Instr :=
  match minor with
  | 0 => some (.crr (OpCrr.unpack x))
  | 1 => some (.crw (OpCr.unpack x))
  | 2 => some (.crs (OpCr.unpack x))
  | 3 => some (.crc (OpCr.unpack x))
  | _ => none

noncomputable def candidate4E (minor : Nat) (x : BitVec 40) : Option Instr :=
  match minor with
  | 0 => if x.getLsbD 0 then some (.ctxSaveHard (OpSaveHard.unpack x)) else some (.ctxSaveSoft (OpD.unpack x))
  | 1 => some (.ctxLoad (OpRR.unpack x))
  | 2 => some .resume
  | 3 => some .yield
  | _ => none

noncomputable def candidate4F (minor : Nat) (x : BitVec 40) : Option Instr :=
  match minor with
  | 0 => some (.skBind (OpSkBind.unpack x))
  | 1 => some (.skUnbind (OpSkN.unpack x))
  | 2 => some (.skWrite (OpSkWrite.unpack x))
  | 3 => some (.skInval (OpSkInval.unpack x))
  | _ => none

noncomputable def candidate80 (minor : Nat) (x : BitVec 40) : Option Instr :=
  match minor with
  | 0 => some (.vadd (OpV.unpack x))
  | 1 => some (.vsub (OpV.unpack x))
  | 2 => some (.vmul (OpV.unpack x))
  | 3 => some (.vmulh (OpV.unpack x))
  | 4 => some (.vmin (OpV.unpack x))
  | 5 => some (.vmax (OpV.unpack x))
  | 6 => some (.vabs (OpV.unpack x))
  | 7 => some (.vneg (OpV.unpack x))
  | 8 => some (.vadds (OpV.unpack x))
  | 9 => some (.vsubs (OpV.unpack x))
  | _ => none

noncomputable def candidate81 (minor : Nat) (x : BitVec 40) : Option Instr :=
  match minor with
  | 0 => some (.vand (OpV.unpack x))
  | 1 => some (.vor (OpV.unpack x))
  | 2 => some (.vxor (OpV.unpack x))
  | 3 => some (.vnot (OpV.unpack x))
  | 4 => some (.vshl (OpV.unpack x))
  | 5 => some (.vshr (OpV.unpack x))
  | 6 => some (.vsra (OpV.unpack x))
  | 7 => some (.vmov (OpV.unpack x))
  | 8 => some (.vsel (OpV.unpack x))
  | _ => none

noncomputable def candidate82 (minor : Nat) (x : BitVec 40) : Option Instr :=
  match minor with
  | 0 => some (.vfadd (OpV.unpack x))
  | 1 => some (.vfsub (OpV.unpack x))
  | 2 => some (.vfmul (OpV.unpack x))
  | 3 => some (.vfma (OpV.unpack x))
  | 4 => some (.vfms (OpV.unpack x))
  | 5 => some (.vfnma (OpV.unpack x))
  | 6 => some (.vfmin (OpV.unpack x))
  | 7 => some (.vfmax (OpV.unpack x))
  | 8 => some (.vfabs (OpV.unpack x))
  | 9 => some (.vfneg (OpV.unpack x))
  | _ => none

noncomputable def candidate83 (minor : Nat) (x : BitVec 40) : Option Instr :=
  match minor with
  | 0 => some (.vdiv (OpV.unpack x))
  | 1 => some (.vsqrt (OpV.unpack x))
  | 2 => some (.vrcp (OpV.unpack x))
  | 3 => some (.vrsq (OpV.unpack x))
  | 4 => some (.vexp2 (OpV.unpack x))
  | 5 => some (.vlog2 (OpV.unpack x))
  | _ => none

noncomputable def candidate84 (minor : Nat) (x : BitVec 40) : Option Instr :=
  match minor with
  | 0 => some (.vcmp (OpV.unpack x))
  | 1 => some (.vfcmp (OpV.unpack x))
  | 2 => some (.vclass (OpV.unpack x))
  | _ => none

noncomputable def candidate85 (minor : Nat) (x : BitVec 40) : Option Instr :=
  match minor with
  | 0 => some (.kand (OpV.unpack x))
  | 1 => some (.kor (OpV.unpack x))
  | 2 => some (.kxor (OpV.unpack x))
  | 3 => some (.knot (OpV.unpack x))
  | 4 => some (.kmov (OpV.unpack x))
  | 5 => some (.kpop (OpV.unpack x))
  | 6 => some (.kfirst (OpV.unpack x))
  | _ => none

noncomputable def candidate86 (minor : Nat) (x : BitVec 40) : Option Instr :=
  match minor with
  | 0 => some (.vcvt (OpV.unpack x))
  | 1 => some (.vqmx (OpV.unpack x))
  | 2 => some (.vdqmx (OpV.unpack x))
  | _ => none

noncomputable def candidate87 (minor : Nat) (x : BitVec 40) : Option Instr :=
  match minor with
  | 0 => some (.vrotR (OpV.unpack x))
  | 1 => some (.vrotC (OpV.unpack x))
  | 2 => some (.vbcR (OpV.unpack x))
  | 3 => some (.vbcC (OpV.unpack x))
  | 4 => some (.vredR (OpV.unpack x))
  | 5 => some (.vredC (OpV.unpack x))
  | 6 => some (.vhad32 (OpV.unpack x))
  | _ => none

noncomputable def candidate88 (minor : Nat) (x : BitVec 40) : Option Instr :=
  match minor with
  | 0 => some (.vld (OpVM.unpack x))
  | 1 => some (.vst (OpVM.unpack x))
  | 2 => some (.vgather (OpVM.unpack x))
  | 3 => some (.vscatter (OpVM.unpack x))
  | _ => none

noncomputable def candidate89 (minor : Nat) (x : BitVec 40) : Option Instr :=
  match minor with
  | 0 => some (.vrand (OpV.unpack x))
  | 1 => if x.extractLsb' 0 3 = 1 then some (.vsplatPop (OpV.unpack x)) else if x.extractLsb' 0 3 = 2 then some (.vsplatPush (OpV.unpack x)) else some (.vsplat (OpV.unpack x))
  | _ => none

/-- The instruction that a major and minor name, with its operands read from the operand bits. -/
noncomputable def candidate (major minor : Nat) (x : BitVec 40) : Option Instr :=
  match major with
  | 0x00 => candidate00 minor x
  | 0x01 => candidate01 minor x
  | 0x02 => candidate02 minor x
  | 0x03 => candidate03 minor x
  | 0x04 => candidate04 minor x
  | 0x05 => candidate05 minor x
  | 0x06 => candidate06 minor x
  | 0x07 => candidate07 minor x
  | 0x10 => candidate10 minor x
  | 0x11 => candidate11 minor x
  | 0x12 => candidate12 minor x
  | 0x13 => candidate13 minor x
  | 0x14 => candidate14 minor x
  | 0x18 => candidate18 minor x
  | 0x19 => candidate19 minor x
  | 0x1A => candidate1A minor x
  | 0x1B => candidate1B minor x
  | 0x20 => candidate20 minor x
  | 0x21 => candidate21 minor x
  | 0x22 => candidate22 minor x
  | 0x23 => candidate23 minor x
  | 0x24 => candidate24 minor x
  | 0x25 => candidate25 minor x
  | 0x26 => candidate26 minor x
  | 0x27 => candidate27 minor x
  | 0x30 => candidate30 minor x
  | 0x34 => candidate34 minor x
  | 0x35 => candidate35 minor x
  | 0x38 => candidate38 minor x
  | 0x39 => candidate39 minor x
  | 0x3C => candidate3C minor x
  | 0x3D => candidate3D minor x
  | 0x3E => candidate3E minor x
  | 0x3F => candidate3F minor x
  | 0x40 => candidate40 minor x
  | 0x41 => candidate41 minor x
  | 0x44 => candidate44 minor x
  | 0x48 => candidate48 minor x
  | 0x4C => candidate4C minor x
  | 0x4D => candidate4D minor x
  | 0x4E => candidate4E minor x
  | 0x4F => candidate4F minor x
  | 0x80 => candidate80 minor x
  | 0x81 => candidate81 minor x
  | 0x82 => candidate82 minor x
  | 0x83 => candidate83 minor x
  | 0x84 => candidate84 minor x
  | 0x85 => candidate85 minor x
  | 0x86 => candidate86 minor x
  | 0x87 => candidate87 minor x
  | 0x88 => candidate88 minor x
  | 0x89 => candidate89 minor x
  | 0xF0 => some (.sks (OpSks.unpack (BitVec.ofNat 6 minor) x))
  | 0xF4 => some (.sksv (OpSksv.unpack (BitVec.ofNat 6 minor) x))
  | _ => none

/-! ## Words -/

/-- The word of R47. -/
def mkWord (gap : BitVec 10) (major : BitVec 8) (minor : BitVec 6) (x : BitVec 40) : Word :=
  gap ++ major ++ minor ++ x
def gapOf (w : Word) : BitVec 10 := w.extractLsb' 54 10
def majorOf (w : Word) : BitVec 8 := w.extractLsb' 46 8
def minorOf (w : Word) : BitVec 6 := w.extractLsb' 40 6
def operandsOf (w : Word) : BitVec 40 := w.extractLsb' 0 40

/-- The operands are ones the spec admits (R53, R55, R56, R57). -/
def admits (i : Instr) : Bool := i.wf

/-- The instruction a word stands for, or none where it faults with `ILLEGAL_OP` whatever engine it reaches (R61). -/
noncomputable def decode (w : Word) : Option Instr :=
  match candidate (majorOf w).toNat (minorOf w).toNat (operandsOf w) with
  | none => none
  | some i => if admits i && opcodeOf i == some (majorOf w, minorOf w, operandsOf w) then some i else none

/-- The word of an instruction with a gap (R47); events have none. -/
def encode (gap : BitVec 10) (i : Instr) : Option Word :=
  match opcodeOf i with
  | none => none
  | some (major, minor, x) => some (mkWord gap major minor x)

/-- The words of a control core: majors 0x00–0x4F and `sks` (R58, R60). -/
def onControlCore (w : Word) : Bool := (majorOf w).toNat < 0x50 || (majorOf w).toNat == 0xF0
/-- The words of a vector body: `nop`, the majors 0x80–0x89 and `sksv` (R59, R60). -/
def onVectorEngine (w : Word) : Bool :=
  (majorOf w).toNat == 0 || (0x80 ≤ (majorOf w).toNat && (majorOf w).toNat ≤ 0x89) || (majorOf w).toNat == 0xF4

/-- The instruction that a control core executes at this word, none for `ILLEGAL_OP` (R60, R61). -/
noncomputable def decodeControl (w : Word) : Option Instr := if onControlCore w then decode w else none
/-- The instruction that a vector engine executes at this word. -/
noncomputable def decodeVector (w : Word) : Option Instr := if onVectorEngine w then decode w else none

/-- The words that `decodeVector` accepts, said without building the instruction: no reserved bit, an admitted
operand (R63: a body is decoded before iteration 0). -/
def vectorLegal (w : Word) : Bool :=
  let x := operandsOf w
  let m := (minorOf w).toNat
  match (majorOf w).toNat with
  | 0 => m == 0 && x == 0
  | 0x88 => (OpVM.unpack x).pack == x && wfVM m (OpVM.unpack x)
  | 0xF4 => wfSksv (OpV.unpack x)
  | M => wfV M m (OpV.unpack x)

/-- Instructions that only a vector body holds. -/
def isVector (i : Instr) : Bool :=
  match opcodeOf i with
  | none => false
  | some (major, _, _) => 0x80 ≤ major.toNat && major.toNat != 0xF0

/-- A word from its eight bytes, little-endian (R4, R48). -/
def wordOfBytes : List Byte → Nat
  | [] => 0
  | b :: bs => b.toNat + 256 * wordOfBytes bs

/-- The eight bytes of a word, the first at the lowest address (R48). -/
def bytesOfWord (n w : Nat) : List Byte :=
  match n with
  | 0 => []
  | n + 1 => BitVec.ofNat 8 w :: bytesOfWord n (w / 256)

/-- The decoder on an instruction given by its bits as the opcode table numbers them: a word is one 64-bit word,
so its bits are stored as eight little-endian bytes and read back. -/
noncomputable def decodeTableWord (_nbits w : Nat) : Option Instr :=
  decode (BitVec.ofNat 64 (wordOfBytes (bytesOfWord 8 w)))

end Sys2Proof
end

