-- ==== Sys2Proof/Machine/BringupRecord.lean ====
section
/-! DEFINITION. The bring-up record (R398–R401): units, entries, their hashes, the outcome of a unit under a stored entry, and
the bytes of a half (R399). -/

namespace Sys2Proof.Machine

/-- One entry of the bring-up record (R400): step, unit, method, failures, outcome. -/
structure RecordEntry where
  step : Nat
  unit : Nat
  meth : Nat
  fails : Nat
  out : Nat
  hash : BitVec 128
  deriving DecidableEq, Repr

/-- A half of the bring-up record (R399). -/
structure RecordHalf where
  gen : Nat
  entries : List RecordEntry
  valid : Bool
  deriving DecidableEq, Repr

/-- n bytes of a number, little-endian (R4). -/
def numBytes (n v : Nat) : List Byte := (List.range n).map (fun i => BitVec.ofNat 8 (v / 256 ^ i))
/-- A string as bytes. -/
def stringBytes (t : String) : List Byte := t.toList.map (fun c => BitVec.ofNat 8 c.toNat)

/-- The platform descriptor in flash (R400): power class, G (0 for none), cabling. Its layout is the model's (DESIGN CHOICE, log 18). -/
def platformBytes (p : Platform) : List Byte :=
  List.flatten [numBytes 4 p.powerClass, numBytes 4 (p.gustG.getD 0), p.cabling.map (fun v => BitVec.ofNat 8 v)]

/-- HASH of a unit (R400): STEP, UNIT, the running management-core image's measurement, the platform descriptor, the serial number. -/
def entryHash (measure : BitVec 512) (platform : Platform) (step unit : Nat) : BitVec 128 :=
  BitVec.ofNat 128 (Config.shake256 (List.flatten [numBytes 1 step, numBytes 2 unit, numBytes 64 measure.toNat,
    platformBytes platform, numBytes 8 Config.serialNumber.toNat])).toNat

/-- The units of a module with n dies (R398): step, UNIT. Step 3 numbers the link directions ±X, ±Y, ±Z from 0; step 1 numbers the
microcontrollers and the management core 0 to 6, steps 4 and 5 have unit 0, and a stack goes by its number in the module (DESIGN CHOICE, log 102). -/
def bringupUnits (n : Nat) : List (Nat × Nat) :=
  List.flatten [(List.range 7).map (fun i => (1, i)), (List.range (2 * n)).map (fun j => (2, j / 2 * 4096 + j)),
    (List.range n).flatMap (fun d => (List.range 6).map (fun p => (3, d * 4096 + p))), [(4, 0), (5, 0)],
    (List.range n).flatMap (fun d => (List.range 12).map (fun c => (6, d * 4096 + c)))]

/-- Steps 1 and 4 have no alternate method (R398). -/
def oneMethod (step : Nat) : Bool := step == 1 || step == 4
/-- The entry an attempt writes (R400, R401). -/
def entryOf (hash : BitVec 128) (step unit : Nat) (r : UnitResult) : RecordEntry :=
  match r with
  | .pass0 => { step := step, unit := unit, meth := 0, fails := 0, out := 1, hash := hash }
  | .pass1 => { step := step, unit := unit, meth := 1, fails := 1, out := 1, hash := hash }
  | .fenced => { step := step, unit := unit, meth := if oneMethod step then 0 else 1, fails := if oneMethod step then 1 else 2, out := 3, hash := hash }
/-- The result that an entry stands for. -/
def RecordEntry.result (e : RecordEntry) : UnitResult := if e.out = 3 then .fenced else if e.meth = 0 then .pass0 else .pass1
/-- R401: PASS or FENCED with an equal hash is taken over; otherwise the unit is tried. -/
def decideUnit (stored : List RecordEntry) (hash : BitVec 128) (step unit : Nat) (tried : UnitResult) : RecordEntry :=
  match stored.find? (fun e => e.step = step && e.unit = unit) with
  | some e => if (e.out = 1 ∨ e.out = 3) ∧ e.hash = hash then e else entryOf hash step unit tried
  | none => entryOf hash step unit tried

/-- The record of a healthy ZL-4X's first start (DESIGN CHOICE, log 5). -/
def RecordHalf.healthy : RecordHalf :=
  { gen := 1, valid := true
    entries := (bringupUnits 4).map (fun u =>
      entryOf (entryHash (Config.imageMeasurement 0) { powerClass := 0, gustG := none, cabling := [] } u.1 u.2) u.1 u.2 .pass0) }

/-- The bytes of an entry (R400). -/
def RecordEntry.bytes (e : RecordEntry) : List Byte :=
  List.flatten [numBytes 8 (e.step * 2 ^ 56 + e.unit * 2 ^ 40 + e.meth * 2 ^ 16 + e.fails * 2 ^ 8 + e.out), numBytes 8 0, numBytes 16 e.hash.toNat]
/-- The 32 KiB of a half (R399). -/
def RecordHalf.bytes (h : RecordHalf) : List Byte :=
  let body := List.flatten [numBytes 8 0x5A4C425245430001, numBytes 8 h.gen, numBytes 4 h.entries.length, numBytes 44 0, h.entries.flatMap RecordEntry.bytes]
  let full := body ++ List.replicate (0x7FE0 - body.length) 0
  full ++ numBytes 32 (Config.shake256 full).toNat

end Sys2Proof.Machine
end

