-- ==== Sys2Proof/Machine/State.lean ====
section
/-! DEFINITION. The state of a module: plain data only. The acting core, its cluster and its die stand in
fields of their own; the other cores, clusters and dies stand in lists, and one that no list names is as
after reset. -/

namespace Sys2Proof.Machine

/-- Why the machine stops with a fault. -/
inductive Fault where
  /-- Raised by `step` when the module has no power (THERMAL_SHUTDOWN R404, POWER_LOSS R399) or has been reset (R405)
  and not brought up again, and the agenda does not begin with POWER_ON. Safe: nothing runs then. -/
  | unpowered
  deriving DecidableEq, Repr

/-- Why a step is refused. -/
inductive Refusal where
  /-- An instruction with no meaning yet, by mnemonic. Safe. Raised by no meaning. -/
  | notModelled (mnemonic : String)
  /-- Raised by an event's meaning when the state is one in which that event does not come about (a chunk on
  an engine that runs no copy, a packet number that is not outstanding). Safe: the hardware never gets there. -/
  | notEnabled (event : String)
  deriving DecidableEq, Repr

/-! ## The control core -/

/-- `CR_STATUS` (R374). Reserved bits read zero (R7); IPM is the inbox. -/
structure Status where
  mode : Bool := false
  pm : Bool := false
  ie : Bool := false
  pie : Bool := false
  td : Bool := false
  im : BitVec 3 := 0
  ipp : Bool := false
  ipc : Bool := false
  yp : Bool := false
  cv : Bool := false
  deriving DecidableEq, Repr

/-- The control registers of a core that hold state of their own (R372). -/
structure CtlRegs where
  fpctl : BitVec 3 := 0
  fpstat : BitVec 7 := 0
  fpen : BitVec 7 := 0
  cpol : BitVec 16 := 0xC0C0
  tflog : Word := 0
  bkey : Word := 0
  bseq : Word := 0
  tvec : Word := 0
  epc : Word := 0
  cause : Word := 0
  faddr : Word := 0
  finfo : Word := 0
  scr : Word := 0
  cyccmp : Word := 0
  deriving DecidableEq, Repr

/-- The core's program: none started, running, or ended (R363, R378, R379). -/
inductive RunState where
  | none | running | exited
  deriving DecidableEq, Repr

/-- What a stalled instruction waits for (R168). -/
inductive Wait where
  | screening | allowance | stream | inbox | flag | barrier | quota | tasks | palette | message | fence
  | sketch | workQueue | window | reply | save
  deriving DecidableEq, Repr

/-- A declared buffer's state (R102). -/
inductive BufPhase where
  | empty | filling | full | draining
  deriving DecidableEq, Repr

/-- A declared buffer (R102). -/
structure Buffer where
  id : Nat
  base : Nat
  size : Nat
  v : Nat
  ver : Nat
  phase : BufPhase
  deriving DecidableEq, Repr

/-- A stream register (R175): the oldest element first. -/
structure Stream where
  bound : Bool := false
  elems : List Word := []
  deriving DecidableEq, Repr

/-- A message in an inbox (R178). -/
structure Message where
  payload : Word
  sender : Word
  deriving DecidableEq, Repr

/-- A window's mapping (R288). -/
structure WinMap where
  die : Nat
  clu : Nat
  core : Nat
  rb : Nat
  size : Nat
  raise : Bool
  deriving DecidableEq, Repr

/-- A window (R288). -/
structure Window where
  map : Option WinMap := none
  alw : Nat := 64
  out : Nat := 0
  den : Bool := false
  deriving DecidableEq, Repr

/-- An effect the core or an ended task of it handed on for a context and that has not been performed (R341); `host` for a HOST write
(R336). -/
structure Effect where
  uid : Nat
  ctx : Nat
  cls : BitVec 4
  die : Nat
  clu : Nat
  core : Nat
  task : Option Nat
  host : Bool := false
  deriving DecidableEq, Repr

/-- An order set by `fence.c` (R342): later effects in `mask` for a die wait for the named earlier ones. -/
structure FenceOrder where
  mask : BitVec 16
  uids : List Nat
  deriving DecidableEq, Repr

/-- A sketch run's own state (R258, R265): the next micro-operation, t0–t7, the outputs, the conditions, the loop counter, the loop
(start, end, n), the store queue (effective address, physical address, bytes, value, micro-operation), the executions so far, and
whether it has loaded since it last stood still (R267). -/
structure SkRun where
  p : Nat
  t : List Nat
  out0 : Nat
  out1 : Nat
  fl : BitVec 7
  lc : Nat
  loop : Option (Nat × Nat × Nat)
  queue : List (Nat × Nat × Nat × Nat × Nat)
  x : Nat := 0
  loaded : Bool := false
  deriving DecidableEq, Repr

/-- A scalar sketch that has issued and has not begun to commit (R265, R272): its instruction, its block, and its run when that has
begun. -/
structure SketchIssue where
  op : OpSks
  block : Nat
  run : Option SkRun
  deriving DecidableEq, Repr

/-- What a waiting instruction took down when it issued (R330 `twait`, R341 `fence.g` and the release forms, R265 `sks`): the
tasks or packets it waits for, the count it answers, the sketch it runs. Dropped when the stall is abandoned. -/
structure Issued where
  ids : List Nat
  n : Nat
  sketch : Option SketchIssue := none
  deriving DecidableEq, Repr

/-- An instruction that waits for a reply: its packet, its destination register, how to extend, and the address a
denial reports (R171). -/
structure Awaiting where
  uid : Nat
  d : Reg
  size : Nat
  sx : Bool
  claim : Bool
  ea : Word
  deriving DecidableEq, Repr

/-- A scalar sketch that commits (R265): its instruction, its block, its results, the stores still to be performed, and whether the
first has been (R267). -/
structure SketchRun where
  op : OpSks
  block : Nat
  d : Reg
  two : Bool
  out0 : Word
  out1 : Word
  flags : BitVec 7
  queue : List (Nat × Nat × Nat × Nat × Nat)
  begun : Bool := false
  deriving DecidableEq, Repr

/-- A task fault escalated to the core program of a context (R377, R379). -/
structure Escalated where
  ctx : Nat
  cause : Cause
  tag : BitVec 16
  idx : BitVec 8
  addr : Word
  info : Word
  deriving DecidableEq, Repr

/-- Element spaces of a region (R96). -/
inductive Space where
  | spad | hbm | host | rem | pal | acc | strm
  deriving DecidableEq, Repr

/-- A region as the Atelier holds it (R96, R103): base relocated, extents not reduced by one. `core` is the
core of the cluster whose scratchpad, windows or streams it names (R315). -/
structure Region where
  null : Bool
  rd : Bool
  wr : Bool
  cn : Bool
  space : Space
  es : Nat
  base : Nat
  dims : List (Nat × Int)
  core : Nat
  deriving DecidableEq, Repr

/-- A walker's binding (R216, R305). -/
structure Walker where
  region : Nat
  lag : Nat
  strides : List Int
  deriving DecidableEq, Repr

/-- The parameters of a vector task (R216). The body address is relocated at POST. -/
structure VecParams where
  body : Nat
  n : Nat
  extents : List Nat
  stages : Nat
  walkers : List (Option Walker)
  args : List Word
  deriving DecidableEq, Repr

/-- What a task does. -/
inductive TaskOp where
  | vec (p : VecParams)
  | copy (op : Nat) (pat : Word)
  | shape (unload : Bool) (hdr : Word)
  | mma (minor tile a b : Nat) (spec : BitVec 3)
  | acc (op : Nat) (hdr : Word)
  | rpost (target : Word) (body : PktBody)
  deriving DecidableEq, Repr

/-- The states of R321 that last between steps: POSTED passes in the admission step; COMPLETE lasts while a fence holds the
completion flag back (R342). -/
inductive TaskPhase where
  | waiting | ready | dispatched | complete
  deriving DecidableEq, Repr

/-- Where a vector result goes (R389). -/
inductive FlightDest where
  | tile (n : Nat) (lanes : List (Nat × BitVec 32))
  | pred (n : Nat) (mask value : BitVec 1024)
  | xreg (n : Nat) (value : Word)
  deriving DecidableEq, Repr

/-- A vector operation's operands as they stood at issue (R389): the x register read, the governing predicate, the sources a, b, c. -/
structure FlightOps where
  x : Word := 0
  pred : BitVec 1024 := 0
  a : Cells 32 := []
  b : Cells 32 := []
  c : Cells 32 := []
  deriving DecidableEq, Repr

/-- A vector operation in flight (R220, R389): its word, latency, landing cycle, word index, iteration and operands. -/
structure Flight where
  word : Word
  lat : Nat
  landAt : Nat
  j : Nat
  iter : Nat
  dest : FlightDest
  ops : FlightOps := {}
  deriving DecidableEq, Repr

/-- The resume point of a stopped task (R124, R226, R326): the next element of a copy, with the remote writes sent and the
stream elements taken for its chunk (R122, R290); or the next kernel iteration with the flight record and the pipes' ends
relative to the next issue (R389). `written`: the engine has done its work, or met a fault, and waits until its HBM writes on other
dies are performed (R322). -/
inductive Resume where
  | start
  | copy (n sent : Nat) (held : List Word)
  | iter (m : Nat) (flights : List Flight) (arith perm ldst : Nat)
  | written (fault : Option Escalated)
  deriving DecidableEq, Repr

/-- A task entry (R326). `hbmOpen` are its HBM packets that have no answer, `hbmQueue` those that wait for room in their pair (R279) with
their die, `hbmUnits` the units of other dies that it has read, by number, with their marks (R74, R278). -/
structure Task where
  id : Nat
  ctx : Nat
  core : Nat
  remote : Bool
  srcDie : Nat
  fjob : BitVec 32
  op : TaskOp
  phase : TaskPhase
  waits : List Nat
  regions : List Region
  tag : BitVec 16
  pri : BitVec 2
  cls : BitVec 4
  flag : Option (BitVec 6)
  rm : BitVec 3
  kt : Word
  bindings : List (Nat × Nat)
  policy : BitVec 2
  count : Nat
  flags : BitVec 7
  resume : Resume
  stop : Bool
  entries : Nat
  orders : List FenceOrder
  hbmOpen : List Nat := []
  hbmQueue : List (Nat × PktBody) := []
  hbmUnits : List (Nat × BitVec 512 × Bool) := []
  deriving DecidableEq, Repr

/-- The staged builder (R308): record, header, region descriptors, arguments, walker entries. -/
structure Staged where
  rec_ : BitVec 512
  header : Option (BitVec 256)
  regions : List (BitVec 256)
  args : List Word
  walkers : List (BitVec 256)
  deriving DecidableEq, Repr

/-- A vector tile: 1,024 lanes of 32 bits (R213). -/
abbrev Tile := Cells 32

/-- A vector task running on an engine. `clock` is the issue cycle of the last word, in the engine's own
cycles since it started the task (R50, R51); `arith`, `perm`, `ldst` are the cycles at which a pipe is free; `sent` counts the
remote writes that the word being held has already sent (R222, R246). -/
structure VecRun where
  task : Task
  body : List Word
  iter : Nat
  next : Nat
  clock : Nat
  arith : Nat
  perm : Nat
  ldst : Nat
  flights : List Flight
  held : Bool
  sent : Nat := 0
  deriving DecidableEq, Repr

/-- A core's vector engine (R213, R214, R217, R218). -/
structure VecEngine where
  v : Vector Tile 64 := Vector.replicate 64 []
  k : Vector (BitVec 1024) 16 := Vector.replicate 16 0
  x : Vector Word 16 := Vector.replicate 16 0
  vrb : BitVec 5 := 0
  run : Option VecRun := none
  deriving DecidableEq, Repr

/-- The soft registers and flag values of a record page (R372 "soft", R386). -/
structure SoftRecord where
  pc : BitVec 32
  regs : Vector Word 64
  fpctl : BitVec 3
  fpstat : BitVec 7
  fpen : BitVec 7
  cpol : BitVec 16
  tflog : Word
  bkey : Word
  bseq : Word
  epc : Word
  flags : Vector (BitVec 32) 64
  deriving DecidableEq, Repr

/-- The check state of an accumulator part (R203). KIND 0 F32, 1 I32, 2 F64. -/
structure CheckState where
  kind : Nat := 0
  cvr : Bool := false
  cvc : Bool := false
  cr : Cells 64 := []
  cc : Cells 64 := []
  rc : BitVec 32 := 0
  xe : Int := -149
  deriving DecidableEq, Repr

/-- A palette slot with its side store (R128, R129, R134). `errors` marks the 64-byte units of its data with an uncorrectable error
(R201). -/
structure Slot where
  data : List Host.Cell := []
  scales : List Host.Cell := []
  cs : Cells 64 := []
  present : Bool := false
  errors : Cells 1 := []
  deriving DecidableEq, Repr

/-- An accumulator tile (R193) with the check state of its two halves. -/
structure AccTile where
  data : List Host.Cell := []
  poison : Cells 1 := []
  chk0 : CheckState := {}
  chk1 : CheckState := {}
  deriving DecidableEq, Repr

/-- What a hard save adds to the record page (R388); `grant` is the length of the scratchpad image. -/
structure HardRecord where
  vec : VecEngine
  streams : Vector Stream 8
  inbox : List Message
  bufs : List Buffer
  builder : Option Staged
  windows : Vector Window 16
  directDen : Bool
  tasks : List Task
  tiles : List (Nat × AccTile)
  slots : List (Nat × Slot)
  image : Option (List Host.Cell × Cells 1)
  grant : Nat := 0
  deriving DecidableEq, Repr

/-- The cluster part of a save (R388): the remote partition's entries and the free slots of the palette grant. -/
structure ClusterPart where
  tasks : List Task
  slots : List (Nat × Slot)
  deriving DecidableEq, Repr

/-- A save area (R393): context and position it was saved for, generation, the soft record, what a hard save adds, the cluster part,
whether a page has an uncorrectable error (R395), the tag of each page (R394), and the palette slots and tiles that the core owned (R391). -/
structure SaveArea where
  ctx : Nat
  core : CoreId
  gen : Nat
  soft : SoftRecord
  hard : Option HardRecord
  part : Option ClusterPart := none
  corrupt : Bool
  tags : List (BitVec 128) := []
  ownSlots : List Nat := []
  ownTiles : List Nat := []
  deriving DecidableEq, Repr

/-- A control core with its scratchpad, vector engine and the state of its loaded context. `aside` is the loaded
record whose registers and PC take effect at `resume` (R396, R422), `restored` the tasks that re-enter then, `saving`
says that a hard save has stopped admission (R388), `savingAt` since which cycle (R392). `sched` are the 64 KiB blocks of scratchpad that
hold the scheduler's code (R383). `stale` are the writes of packets to own scratchpad that no load of the core has
seen, oldest first, each by the bytes it has overwritten; `early` is how many of the oldest a plain wait lets later loads go before (R183,
R345). -/
structure Core where
  id : CoreId
  regs : Vector Word 64 := Vector.replicate 64 0
  pc : BitVec 32 := 0
  run : RunState := .none
  stall : Option Wait := none
  issued : Option Issued := none
  await : Option Awaiting := none
  sketch : Option SketchRun := none
  status : Status := {}
  cr : CtlRegs := {}
  cid : BitVec 7 := 0
  spbase : Nat := 0
  grant : Nat := 0
  cycStart : Nat := 0
  cmpArmed : Bool := false
  escalated : List Escalated := []
  spad : List Host.Cell := []
  poison : Cells 1 := []
  bufs : List Buffer := []
  builder : Option Staged := none
  streams : Vector Stream 8 := Vector.replicate 8 {}
  inbox : List Message := []
  msgsOut : List Nat := []
  windows : Vector Window 16 := Vector.replicate 16 {}
  directOut : Nat := 0
  directDen : Bool := false
  effects : List Effect := []
  fences : List FenceOrder := []
  flags : Vector (BitVec 32) 64 := Vector.replicate 64 0
  aside : Option SoftRecord := none
  saving : Bool := false
  savingAt : Nat := 0
  restored : List Task := []
  sched : List Nat := []
  early : Nat := 0
  stale : List (List (Nat × Byte)) := []
  vec : VecEngine := {}
  deriving DecidableEq, Repr

/-! ## The cluster -/

/-- The canvas (R210–R212). Requesters 0–3 are the cores, 4 the remote requester; `leaseLen` is the
length that governs the lease in force; `ending` says that a command boundary has ended it. -/
structure Canvas where
  holder : Option Nat := none
  last : Nat := 4
  done : Nat := 0
  leaseStart : Option Nat := none
  leaseLen : Nat := 16
  ending : Bool := false
  lens : Vector Nat 5 := Vector.replicate 5 16
  ends : BitVec 16 := 0
  cold : Bool := true
  gust : Bool := false
  gustAt : Nat := 0
  lastBusy : Nat := 0
  deriving DecidableEq, Repr

/-- One core's part of a barrier (R185). -/
structure BarCore where
  lp : Bool := false
  pd0 : Bool := false
  pd1 : Bool := false
  sip : Bool := false
  saved : Word := 0
  deriving DecidableEq, Repr

/-- A hardware barrier (R185). -/
structure Barrier where
  cnt : Nat := 0
  a0 : Nat := 0
  a1 : Nat := 0
  g0 : BitVec 32 := 0
  g1 : BitVec 32 := 0
  cores : Vector BarCore 4 := Vector.replicate 4 {}
  deriving DecidableEq, Repr

/-- A context's flag state on one core of a cluster (R323, R387): map, pending pairs (S bits and v values), and
held sticky conditions. `first` says that the context was launched on a core another one held and has not been loaded there (R433). -/
structure CoreFlags where
  launched : Bool := false
  fmap : Vector Word 8 := Vector.replicate 8 0
  pendS : BitVec 64 := 0
  pendV : Vector (BitVec 32) 64 := Vector.replicate 64 0
  held : BitVec 7 := 0
  first : Bool := false
  deriving DecidableEq, Repr

/-- A logical sketchbook block (R253): its image once WRITTEN, and the physical block that holds it. -/
structure SkBlock where
  image : Option (List Word) := none
  phys : Option Nat := none
  badCopy : Bool := false
  deriving DecidableEq, Repr

/-- What a cluster keeps for a context (R189, R194, R253, R255, R291, R384). -/
structure CtxCluster where
  ctx : Nat
  fjob : BitVec 32
  palGrant : BitVec 32 := 0
  slotOwner : List (Nat × Nat) := []
  tileOwner : List (Nat × Nat) := []
  barriers : Vector Barrier 16 := Vector.replicate 16 {}
  cores : Vector CoreFlags 4 := Vector.replicate 4 {}
  grants : Vector (BitVec 128) 64 := Vector.replicate 64 0
  cancelled : Bool := false
  cancelSrc : List Nat := []
  partition : Nat := 0
  blocks : List (Nat × SkBlock) := []
  bindings : List (Nat × Nat) := []
  freeSlots : List (Nat × Slot) := []
  remoteSaved : List Task := []
  deriving DecidableEq, Repr

/-- A cluster. -/
structure Cluster where
  die : Nat
  clu : Nat
  nextTask : Nat := 0
  tasks : List Task := []
  copy0 : Option Nat := none
  copy1 : Option Nat := none
  shaper : Option Nat := none
  canvasTask : Option Nat := none
  fabric : List Nat := []
  canvas : Canvas := {}
  slots : Vector Slot 32 := Vector.replicate 32 {}
  tiles : Vector AccTile 48 := Vector.replicate 48 {}
  ctxs : List CtxCluster := []
  deriving DecidableEq, Repr

/-! ## The die -/

/-- A lease (R79, R83, R84): host ranges are base, length, read, write. -/
structure Lease where
  ctx : Nat
  locked : Bool
  hostHigh : BitVec 16
  ranges : List (Nat × Nat × Bool × Bool)
  deriving DecidableEq, Repr

/-- A direction of a link (R276, R277): lanes excluded, a remap in progress (lane, and the switch flit once ACKREMAP is sent), lanes that
failed meanwhile, the first flit with a bad CRC since the last replay, the flit replay asked for, and whether it is down. -/
structure Link where
  failed : List Nat := []
  pending : Option (Nat × Option Nat) := none
  next : List Nat := []
  bad : Option Nat := none
  replay : Option Nat := none
  down : Bool := false
  deriving DecidableEq, Repr

/-- An adaptive input buffer (R280, R281): the cycle since which its head stands there, and whether its detector has reached the
threshold. -/
structure InBuf where
  port : Port
  resp : Bool
  flows : List Flow
  since : Nat
  tripped : Bool
  deriving DecidableEq, Repr

/-- A die. Keys of `seqs` and `expect` are 16 · die number + class (R279, R285); `unacked` are the packets it sent
that have no answer, `dropped` those to resend with their number (R286), `retried` the messages and posts
answered with RETRY and not yet accepted, with whether they wait to be sent again (R287); `cancels` are the CANCELs that wait for room
in their pair (R279, R301); `resequencer` holds the packets that reached it and are not delivered, `arrived` the responses not yet
acted on; `dt` is the detectors' threshold (R281). -/
structure Die where
  die : Nat
  map0 : Cells 64 := []
  map1 : Cells 64 := []
  leases : List Lease := []
  keys : Cells 512 := []
  seqs : List (Nat × BitVec 16) := []
  unacked : List Packet := []
  dropped : List Nat := []
  retried : List (Nat × Bool) := []
  cancels : List Packet := []
  expect : List (Nat × BitVec 16) := []
  resequencer : List Packet := []
  arrived : List Response := []
  bufs : List InBuf := []
  links : List (Port × Link) := []
  linksOut : List (Port × Link) := []
  lee : Option Flow := none
  leecnt : BitVec 32 := 0
  dt : Nat := 2048
  tokenGen : BitVec 16 := 0
  draining : Bool := false
  leeBroken : Bool := false
  gustG : Nat := 4
  gustFree : List Nat := [0, 3, 6, 9]
  gustHeld : Nat := 0
  gustMovedAt : Nat := 0
  thermal : Nat := 0
  holdCount : Nat := 0
  corrected : Vector (BitVec 32) 2 := Vector.replicate 2 0
  uncorrected : Vector (BitVec 32) 2 := Vector.replicate 2 0
  deriving DecidableEq, Repr

/-! ## The module, the host port and the firmware -/

/-- The bring-up fields of `CR_CAPS` (R20). -/
structure Caps where
  zmat : Bool
  hbmg : BitVec 10
  lnkx : BitVec 5
  dies : BitVec 3
  var : BitVec 2
  ncl : Vector (BitVec 4) 4
  stk : BitVec 8
  deriving DecidableEq, Repr

/-- A work queue (R366): capacity and records, oldest first. -/
structure WorkQueue where
  cap : Nat
  recs : List (BitVec 128)
  deriving DecidableEq, Repr

/-- A job and its context (R361–R366, R383, R393). `gens` are the latest generations firmware recorded (R395), `saveKey` the key of
the page tags (R394), `checkQueues` the work queues of the checkpoint (R366, R391). -/
structure Job where
  ctx : Nat
  fjob : BitVec 32
  fn : Nat
  queue : Nat
  pkt : Nat
  cores : List CoreId
  grant : Nat
  acc : Nat
  pal : BitVec 32
  signals : List Nat
  queues : List WorkQueue
  skw : Bool
  place : List (CoreId × Nat)
  saves : List (CoreId × SaveArea)
  checkpoints : List (CoreId × SaveArea)
  ended : List CoreId
  report : Option (Nat × Cause)
  killed : Bool
  jobCount : Nat
  corrupt : Bool
  sent : List (Nat × Nat)
  gens : List (CoreId × Nat) := []
  saveKey : BitVec 256 := 0
  checkQueues : Option (List WorkQueue) := none
  deriving DecidableEq, Repr

/-- The states of a queue (R357). -/
inductive QueueState where
  | disabled | running | paused | error
  deriving DecidableEq, Repr

/-- A packet between its fetch and its end (R359, R360): its eight doublewords (zeros for one whose fetch met an error,
`bad`), whether it has started, how many records or bytes it has done, and the context of the job a FEED or COPY serves. Of a COPY
`hbmOpen` are the HBM packets that have no answer, `hbmQueue` those that wait for room, `hbmUnits` the units of other dies it has read (R74). -/
structure QPacket where
  idx : Nat
  dws : List Word
  bad : Bool := false
  started : Bool := false
  done : Nat := 0
  job : Option Nat := none
  hbmOpen : List Nat := []
  hbmQueue : List (Nat × PktBody) := []
  hbmUnits : List (Nat × BitVec 512 × Bool) := []
  deriving DecidableEq, Repr

/-- A user queue (R353–R357). -/
structure Queue where
  q : Nat
  state : QueueState := .disabled
  en : Bool := false
  ring : Word := 0
  stat : Word := 0
  pri : BitVec 2 := 0
  ln : Nat := 0
  ridx : BitVec 32 := 0
  flimit : BitVec 32 := 0
  ecode : BitVec 32 := 0
  epkt : BitVec 32 := 0
  pkts : List QPacket := []
  resetting : Bool := false
  deriving DecidableEq, Repr

/-- A PCI Express function (R349, R350, R380). -/
structure Function where
  fn : Nat
  qn : Nat := 0
  mbx : Word := 0
  queues : List Queue := []
  settings : FnSettings := { jobPolicy := 2, jobCount := 0, tenantPolicy := 2, tenantCount := 0, checkpoints := false, quantum := none }
  disabled : Bool := false
  deriving DecidableEq, Repr

/-- A completion signal as the command processor keeps it (R364). -/
structure SignalRec where
  fn : Nat
  iova : Nat
  value : Word
  err : Word
  deriving DecidableEq, Repr

/-- A subtraction handed to the command processor (R364, R429). -/
structure Subtraction where
  fn : Nat
  iova : Nat
  amount : Word
  ctx : Option Nat
  deriving DecidableEq, Repr

/-- What the device reports through AER (R85, R349). -/
inductive AerError where
  | completionTimeout | uncorrectableInternal
  deriving DecidableEq, Repr

/-- A posted write that stands in the host port (R336): function, bytes, the units that carry EP, its class (none for the command
processor's own), the core and task whose effect it is, the die it comes from, the packet it serves (function, queue, index), and the
MSI-X vector where it is an interrupt message. -/
structure PostedWrite where
  uid : Nat
  fn : Nat
  bytes : List (Nat × Byte)
  bad : List Nat := []
  cls : Option (BitVec 4) := none
  ctx : Option Nat := none
  core : Option CoreId := none
  task : Option Nat := none
  die : Option Nat := none
  pkt : Option (Nat × Nat × Nat) := none
  vec : Option Nat := none
  deriving DecidableEq, Repr

/-- The host port and the firmware's queue service. `posted` are the writes not sent yet, oldest first; `unsupported` counts the
requests answered with Unsupported Request while no firmware serves them (R409). Units of 64 bytes: `readPoison` marks those whose next read comes back
marked (R85), `epMarks` those last written with EP set (R90). `slots` are the queues in active slots, the next in turn first; `slotPast` those that
have been in one, the most recent last (R368). -/
structure HostPort where
  functions : List Function := []
  mem : List Host.Cell := []
  readPoison : Cells 1 := []
  epMarks : Cells 1 := []
  signals : List SignalRec := []
  subs : List Subtraction := []
  msix : List (Nat × Nat) := []
  aer : List AerError := []
  timedOut : List (Nat × Nat × Nat) := []
  mailboxOut : List (Option (List Byte × Bool)) := []
  slots : List (Nat × Nat) := []
  slotPast : List (Nat × Nat) := []
  posted : List PostedWrite := []
  unsupported : Nat := 0
  quantum : Nat := 3600000
  quantumStart : Nat := 0
  up : Bool := true
  width : Nat := 16
  deriving DecidableEq, Repr

/-- The newest zephyr token (R282): the router it is at or going to, its generation, whether it has arrived there, and
the cycle at which a token last passed die 0. -/
structure Zephyr where
  at_ : Nat := 0
  gen : BitVec 16 := 0
  arrived : Bool := false
  seenAt0 : Nat := 0
  deriving DecidableEq, Repr

/-- What is reported to the management core: an uncorrectable event in HBM with its address (R91), a link that went DOWN (R277). -/
inductive MgmtReport where
  | uncorrectable (dpa : Nat)
  | linkDown (die : Nat) (port : Port)
  deriving DecidableEq, Repr

/-- Module-wide state. -/
structure Modul where
  caps : Caps
  torus : Nat × Nat × Nat
  origin : Nat × Nat × Nat
  physical : List (List Nat)
  hbm : List Host.Cell := []
  hbmKey : Cells 512 := []
  hbmPoison : Cells 1 := []
  jobs : List Job := []
  zephyr : Zephyr := {}
  nextUid : Nat := 0
  outside : List Flow := []
  reports : List MgmtReport := []
  free : Nat := 0
  deriving DecidableEq, Repr

/-- Why a start admits nothing (R409): an image whose two copies fail, step 1, or the record write. -/
inductive BootFailure where
  | image (n : Nat)
  | step1
  | record
  deriving DecidableEq, Repr

/-- Boot, the anti-rollback counter of each die and what it was at this start, the images that run with their security version, the platform
descriptor, the stored training results by link direction and the stored torus shape and origin (R401), cycles under power in earlier starts (R405), bring-up record, identity and attestation (R397–R409). -/
structure Boot where
  powered : Bool := true
  failed : Option BootFailure := none
  fuses : Vector Nat 4 := Vector.replicate 4 0
  counter : Nat := 0
  version : Nat := 0
  images : List (BitVec 512) := (List.range 7).map Config.imageMeasurement
  platform : Platform := { powerClass := 0, gustG := none, cabling := [] }
  trained : List (Nat × List Nat) := []
  shape : (Nat × Nat × Nat) × (Nat × Nat × Nat) := ((2, 2, 1), (0, 0, 0))
  onCycles : Nat := 0
  certificate : List Byte := Config.certificate
  half0 : RecordHalf := RecordHalf.healthy
  half1 : RecordHalf := { gen := 0, entries := [], valid := false }
  starts : Nat := 1
  report : List Byte := []
  deriving DecidableEq, Repr

/-- Who moves next: the acting core, its vector engine, the events, an error in a memory cell, the host port, another core. -/
inductive Turn where
  | core | vector | agenda | cells | host
  | switch (n : Nat)
  deriving DecidableEq, Repr

/-- The model's own schedule (DESIGN CHOICE, log 1, 2, 3): who moves, steps taken, the ghost clock in cycles, the agenda, and the
uncorrectable errors to come (R95, R201). -/
structure Sched where
  turn : Turn := .core
  tick : Nat := 0
  now : Nat := 0
  events : List Instr := []
  upsets : List Upset := []
  deriving DecidableEq, Repr

/-- The state of a module. -/
structure State where
  core : Core
  parked : List Core
  cluster : Cluster
  parkedClusters : List Cluster
  die : Die
  parkedDies : List Die
  modul : Modul
  host : HostPort
  boot : Boot
  sched : Sched
  deriving DecidableEq, Repr

/-- A core, a cluster and a die as after reset; the gust tokens of a die stand at clusters 0, 3, 6 and 9 (DESIGN CHOICE, log 106). -/
def Core.reset (id : CoreId) : Core := { id := id }
def Cluster.reset (d c : Nat) : Cluster := { die := d, clu := c }
def Die.reset (d : Nat) : Die := { die := d }

/-- `CR_CAPS` of a healthy ZL-4X (R20). -/
def Caps.zl4x : Caps :=
  { zmat := true, hbmg := 384, lnkx := 16, dies := 4, var := 0, ncl := Vector.replicate 4 12, stk := 0xFF }

/-- The machine right after reset: a healthy ZL-4X at the end of bring-up (DESIGN CHOICE, log 5), no job launched, every core
without a program, acting core 0 of cluster 0 on die 0. -/
def State.reset : State :=
  { core := Core.reset ⟨0, 0, 0⟩
    parked := []
    cluster := Cluster.reset 0 0
    parkedClusters := []
    die := Die.reset 0
    parkedDies := []
    modul := { caps := Caps.zl4x, torus := (2, 2, 1), origin := (0, 0, 0),
               physical := List.replicate 4 (List.range 12) }
    host := {}
    boot := {}
    sched := {} }

end Sys2Proof.Machine
end

