-- ==== Sys2Proof/Machine/Cells.lean ====
section
/-! DEFINITION. Sparse storage in canonical form: reading and writing `Cells`, and memory as bytes. A write
replaces a range of keys; an entry equal to zero, which an unlisted key reads as, is never listed. -/

namespace Sys2Proof.Machine

/-- The value at a key; zero where the list has none (DESIGN CHOICE, log 9). -/
def cget {w : Nat} (c : Cells w) (k : Nat) : BitVec w :=
  match c with
  | [] => 0
  | (k', v) :: rest => if k' == k then v else cget rest k

/-- The listed entries of consecutive keys from a, zero left out. -/
def centries {w : Nat} (a : Nat) : List (BitVec w) → Cells w
  | [] => []
  | v :: vs => if v = 0 then centries (a + 1) vs else (a, v) :: centries (a + 1) vs

/-- Writes values at consecutive keys from a; every other key keeps its value. -/
def csetRun {w : Nat} (c : Cells w) (a : Nat) (vs : List (BitVec w)) : Cells w :=
  c.filter (fun p => decide (p.1 < a)) ++ (centries a vs ++ c.filter (fun p => decide (a + vs.length ≤ p.1)))

/-- Writes `f k` at every key k of [a, a + n). -/
def csetRange {w : Nat} (c : Cells w) (a n : Nat) (f : Nat → BitVec w) : Cells w :=
  csetRun c a ((List.range n).map (fun i => f (a + i)))

/-- Writes one key. -/
def cset {w : Nat} (c : Cells w) (k : Nat) (v : BitVec w) : Cells w := csetRun c k [v]

/-- A list of writes as runs of consecutive keys, in the same order. -/
def runsOf {w : Nat} : List (Nat × BitVec w) → List (Nat × List (BitVec w))
  | [] => []
  | (a, v) :: rest =>
    match runsOf rest with
    | (b, vs) :: rs => if b = a + 1 then (a, v :: vs) :: rs else (a, [v]) :: (b, vs) :: rs
    | [] => [(a, [v])]

/-- Writes a list of (key, value) pairs in order. -/
def csetList {w : Nat} (c : Cells w) (l : List (Nat × BitVec w)) : Cells w :=
  (runsOf l).foldl (fun c r => csetRun c r.1 r.2) c

/-- The part of storage in [a, a + n), with its keys counted from 0. -/
def ctake {w : Nat} (c : Cells w) (a n : Nat) : Cells w :=
  (c.filter (fun p => a ≤ p.1 && p.1 < a + n)).map (fun p => (p.1 - a, p.2))

/-- Puts storage taken by `ctake` at [a, a + n). -/
def cput {w : Nat} (c : Cells w) (a n : Nat) (part : Cells w) : Cells w :=
  csetRange c a n (fun k => cget part (k - a))

/-- The canonical form: keys strictly rising, no value zero. -/
def cwf {w : Nat} : Cells w → Bool
  | [] => true
  | [p] => p.2 != 0
  | p :: q :: rest => p.2 != 0 && decide (p.1 < q.1) && cwf (q :: rest)

/-- The canonical form of a memory of bytes (R4). -/
def Memory.wf (m : List Host.Cell) : Bool := cwf m

/-- n bytes from address a, little-endian, as a number (R4). -/
def readLE (m : List Host.Cell) (a : Nat) : Nat → Nat
  | 0 => 0
  | n + 1 => (cget m a).toNat + 256 * readLE m (a + 1) n

/-- Writes the low n bytes of v at a, little-endian (R4). -/
def writeLE (m : List Host.Cell) (a n v : Nat) : List Host.Cell :=
  csetRange m a n (fun k => BitVec.ofNat 8 (v / 256 ^ (k - a)))

/-- The bytes at [a, a + n). -/
def readBytes (m : List Host.Cell) (a n : Nat) : List Byte := (List.range n).map (fun i => cget m (a + i))

/-- A doubleword (R4). -/
def readD (m : List Host.Cell) (a : Nat) : Word := BitVec.ofNat 64 (readLE m a 8)

/-! ## Fields of numbers -/

/-- Bits hi:lo of a doubleword as a number. -/
def bits (w : Word) (hi lo : Nat) : Nat := (w.toNat / 2 ^ lo) % 2 ^ (hi + 1 - lo)
/-- One bit of a doubleword. -/
def bit (w : Word) (i : Nat) : Bool := w.getLsbD i
/-- Bits hi:lo as a signed number. -/
def sbits (w : Word) (hi lo : Nat) : Int :=
  let n := hi + 1 - lo
  let v := bits w hi lo
  if v < 2 ^ (n - 1) then (v : Int) else (v : Int) - (2 ^ n : Nat)
/-- A number as n-bit two's complement. -/
def toSigned (n v : Nat) : Int :=
  let v := v % 2 ^ n
  if v < 2 ^ (n - 1) then (v : Int) else (v : Int) - (2 ^ n : Nat)
/-- The low n bits of an integer. -/
def ofSigned (n : Nat) (v : Int) : Nat := (v % ((2 ^ n : Nat) : Int)).toNat
/-- 0 or 1. -/
def bitOf (b : Bool) : Nat := if b then 1 else 0

end Sys2Proof.Machine
end

