-- ==== Sys2Proof/Machine/Flags.lean ====
section
/-! DEFINITION. The sticky bits of `CR_FPSTAT` (R34, R373) and the integer conditions that set them. -/

namespace Sys2Proof.Machine

/-- A set of sticky bits in the layout of R373. -/
abbrev Sticky := BitVec 7

/-- Invalid, divide-by-zero, overflow, underflow, inexact, integer overflow, integer divide-by-zero (R373). -/
def NV : Sticky := 1
def DZ : Sticky := 2
def OFL : Sticky := 4
def UFL : Sticky := 8
def NX : Sticky := 16
def IOF : Sticky := 32
def IDZ : Sticky := 64

/-- The sticky set of a condition. -/
def stickyIf (c : Bool) (f : Sticky) : Sticky := if c then f else 0

/-- Integer overflow of an exact signed result (R143: outside [−2^63, 2^63)). -/
def overflow64 (v : Int) : Bool := v < -(2 ^ 63 : Nat) || ((2 ^ 63 : Nat) : Int) ≤ v

/-- The flags of `addo` (R143). -/
def addoFlags (a b : Word) : Sticky := stickyIf (overflow64 (a.toInt + b.toInt)) IOF
/-- The flags of `subo` (R143). -/
def suboFlags (a b : Word) : Sticky := stickyIf (overflow64 (a.toInt - b.toInt)) IOF
/-- The flags of `div` (R144). -/
def divFlags (a b : Word) : Sticky :=
  if b = 0 then IDZ else stickyIf (a == BitVec.intMin 64 && b == BitVec.allOnes 64) IOF
/-- The flags of `divn`, `rem` and `remn` (R144). -/
def zeroDivFlags (b : Word) : Sticky := stickyIf (b == 0) IDZ

end Sys2Proof.Machine
end

