-- ==== Sys2Proof/Machine/Float.lean ====
section
/-! DEFINITION. Floating-point arithmetic (R24–R36, R39–R45): values as exact dyadic numbers, one rounding, and the
sticky bits it sets. A value may carry a mark that it lies strictly between m · 2^e and (m + 1) · 2^e, which
quotients, roots and the exponential and logarithm use; their callers carry far more bits than any format. -/

namespace Sys2Proof.Machine

/-- The formats of R24. -/
inductive FloatFmt where
  | f64 | f32 | f16 | bf16 | e5m2 | e4m3 | e2m1
  deriving DecidableEq, Repr

/-- Width in bits. -/
def FloatFmt.width : FloatFmt → Nat
  | .f64 => 64 | .f32 => 32 | .f16 => 16 | .bf16 => 16 | .e5m2 => 8 | .e4m3 => 8 | .e2m1 => 4
/-- Fraction bits. -/
def FloatFmt.mb : FloatFmt → Nat
  | .f64 => 52 | .f32 => 23 | .f16 => 10 | .bf16 => 7 | .e5m2 => 2 | .e4m3 => 3 | .e2m1 => 1
/-- Exponent bias. -/
def FloatFmt.bias : FloatFmt → Nat
  | .f64 => 1023 | .f32 => 127 | .f16 => 15 | .bf16 => 127 | .e5m2 => 15 | .e4m3 => 7 | .e2m1 => 1
/-- Code of the largest finite value (R24). -/
def FloatFmt.maxCode : FloatFmt → Nat
  | .f64 => 0x7FEFFFFFFFFFFFFF | .f32 => 0x7F7FFFFF | .f16 => 0x7BFF | .bf16 => 0x7F7F
  | .e5m2 => 0x7B | .e4m3 => 0x7E | .e2m1 => 0x7
/-- Code of infinity, where the format has one. -/
def FloatFmt.infCode : FloatFmt → Option Nat
  | .f64 => some 0x7FF0000000000000 | .f32 => some 0x7F800000 | .f16 => some 0x7C00 | .bf16 => some 0x7F80
  | .e5m2 => some 0x7C | .e4m3 => none | .e2m1 => none
/-- The canonical NaN (R27); E2M1 has none and takes +0 (R35). -/
def FloatFmt.nan : FloatFmt → Nat
  | .f64 => 0x7FF8000000000000 | .f32 => 0x7FC00000 | .f16 => 0x7E00 | .bf16 => 0x7FC0
  | .e5m2 => 0x7E | .e4m3 => 0x7F | .e2m1 => 0
/-- The sign bit of a format. -/
def FloatFmt.signBit (f : FloatFmt) : Nat := 2 ^ (f.width - 1)

/-- A value: NaN (signalling or quiet), an infinity, or (−1)^neg · (m, or strictly between m and m + 1 when `st`)
· 2^e. -/
inductive FVal where
  | nan (signalling : Bool)
  | inf (neg : Bool)
  | fin (neg : Bool) (m : Nat) (e : Int) (st : Bool)
  deriving DecidableEq, Repr

/-- The rounding modes (R31), SR with its 16-bit draw (R33). -/
inductive Rounding where
  | rne | rtz | rdn | rup | rmm
  | sr (u : Nat)
  deriving DecidableEq, Repr

/-- The value of a code (R24, R26). -/
def fdecode (f : FloatFmt) (x : Nat) : FVal :=
  let neg := x / f.signBit % 2 == 1
  let mag := x % f.signBit
  if f.maxCode < mag then
    if some mag == f.infCode then .inf neg
    else .nan (f != .e4m3 && mag / 2 ^ (f.mb - 1) % 2 == 0)
  else
    let ef := mag / 2 ^ f.mb
    let fr := mag % 2 ^ f.mb
    if ef == 0 then .fin neg fr (1 - (f.bias : Int) - f.mb) false
    else .fin neg (fr + 2 ^ f.mb) ((ef : Int) - f.bias - f.mb) false

/-- A value that is a zero. -/
def FVal.isZero : FVal → Bool
  | .fin _ m _ st => m == 0 && !st
  | _ => false
/-- Sign inverted, exact (R154). -/
def FVal.neg : FVal → FVal
  | .nan s => .nan s
  | .inf n => .inf !n
  | .fin n m e st => .fin (!n) m e st
/-- A NaN (R28). -/
def FVal.isNan : FVal → Bool
  | .nan _ => true
  | _ => false
def FVal.isSnan : FVal → Bool
  | .nan s => s
  | _ => false
def FVal.isInf : FVal → Bool
  | .inf _ => true
  | _ => false
/-- The sign of a number; false for NaN. -/
def FVal.sign : FVal → Bool
  | .nan _ => false
  | .inf n => n
  | .fin n _ _ _ => n

/-- Whether m · 2^e (plus a strict fraction when st) is rounded away from zero at the spacing 2^(e + sh), and whether
it is inexact there. `sh` is at most a few bits above the size of m; larger shifts are cut by the caller. -/
def roundDecision (neg : Bool) (m : Nat) (st : Bool) (sh : Nat) (r : Rounding) : Bool × Bool :=
  let rem := m % 2 ^ sh
  let half := 2 ^ sh / 2
  let inexact := rem != 0 || st
  let above := if sh == 0 then false else decide (half < rem) || (rem == half && st)
  let tie := sh != 0 && rem == half && !st
  let up := inexact && (match r with
    | .rne => above || (tie && m / 2 ^ sh % 2 == 1)
    | .rtz => false
    | .rdn => neg
    | .rup => !neg
    | .rmm => above || tie
    | .sr u => decide (u < rem * 65536 / 2 ^ sh))
  (up, inexact)

/-- m · 2^e rounded to a multiple of 2^q: the multiple and whether it is inexact. -/
def roundAt (neg : Bool) (m : Nat) (e : Int) (st : Bool) (q : Int) (r : Rounding) : Nat × Bool :=
  if q ≤ e then (m * 2 ^ (e - q).toNat, st)
  else
    let sh := (q - e).toNat
    -- a shift far beyond the size of m leaves only a strict fraction below 2^-17 of the spacing
    let size := Nat.log2 m + 1
    if size + 20 < sh then
      let d := roundDecision neg (if m == 0 then 0 else 1) st 20 r
      (bitOf d.1, d.2)
    else
      let d := roundDecision neg m st sh r
      (m / 2 ^ sh + bitOf d.1, d.2)

/-- The overflow result of R32 and the `.sat` column. -/
def overflowCode (f : FloatFmt) (neg sat : Bool) (r : Rounding) : Nat :=
  let s := if neg then f.signBit else 0
  match f.infCode with
  | none =>
    if f == .e2m1 || sat then s + f.maxCode else f.nan
  | some inf =>
    if sat then s + f.maxCode
    else match r with
      | .rtz => s + f.maxCode
      | .rdn => if neg then s + inf else s + f.maxCode
      | .rup => if neg then s + f.maxCode else s + inf
      | _ => s + inf

/-- One rounding into a format (R31–R35): the code and the sticky bits. -/
def fround (f : FloatFmt) (r : Rounding) (sat : Bool) (v : FVal) : Nat × Sticky :=
  match v with
  | .nan s => if f == .e2m1 then (0, NV) else (f.nan, stickyIf s NV)
  | .inf neg =>
    let s := if neg then f.signBit else 0
    if f == .e2m1 || sat then (s + f.maxCode, OFL ||| NX)
    else match f.infCode with
      | none => (f.nan, NV)
      | some inf => (s + inf, 0)
  | .fin neg m e st =>
    let s := if neg then f.signBit else 0
    if m == 0 && !st then (s, 0)
    else
      let kmin : Int := 1 - (f.bias : Int) - f.mb
      let top : Int := (Nat.log2 m : Int) + e - f.mb
      let q := max top kmin
      let (n, inexact) := roundAt neg m e st q r
      let code := if f.maxCode < 2 ^ f.mb * (q - kmin).toNat then f.maxCode + 1 else 2 ^ f.mb * (q - kmin).toNat + n
      if f.maxCode < code then (overflowCode f neg sat r, OFL ||| NX)
      else
        -- tininess after rounding with an unbounded exponent (R34; DEDUCED, log 13); under SR the delivered value (R33)
        let tiny := match r with
          | .sr _ => decide (code < 2 ^ f.mb)
          | _ => decide (top < kmin) &&
              (let n2 := (roundAt neg m e st top r).1
               decide (top + 1 < kmin) || decide (n2 < 2 ^ (f.mb + 1)))
        (s + code, stickyIf inexact NX ||| stickyIf (inexact && tiny) UFL)

/-! ## Exact operations (R28, R30, R45) -/

/-- The sum of exact terms, with its sticky bits. A zero takes its sign by R30. Beside a quiet NaN, infinities of opposite sign set nothing,
while a product ∞ × 0 of the group has set NV (DESIGN CHOICE, log 97). -/
def fsum (r : Rounding) (ts : List FVal) : FVal × Sticky :=
  let fl := stickyIf (ts.any FVal.isSnan) NV
  if ts.any FVal.isNan then (.nan false, fl)
  else
    let pinf := ts.any (fun t => t == .inf false)
    let ninf := ts.any (fun t => t == .inf true)
    if pinf && ninf then (.nan false, NV)
    else if pinf then (.inf false, 0)
    else if ninf then (.inf true, 0)
    else
      let e0 : Int := ts.foldl (fun a t => match t with
        | .fin _ m e _ => if m == 0 then a else (match a with
          | none => some e
          | some x => some (min x e))
        | _ => a) (none : Option Int) |>.getD 0
      let tot : Int := ts.foldl (fun a t => match t with
        | .fin n m e _ =>
          if m == 0 then a else
          let v : Int := (m * 2 ^ (e - e0).toNat : Nat)
          if n then a - v else a + v
        | _ => a) 0
      if tot == 0 then
        let allNeg := ts.all (fun t => t.sign && t.isZero)
        let allPos := ts.all (fun t => !t.sign && t.isZero)
        (.fin (allNeg || (!allPos && r == .rdn)) 0 0 false, 0)
      else (.fin (tot < 0) tot.natAbs e0 false, 0)

/-- The exact product (R28, R30). -/
def fprod (x y : FVal) : FVal × Sticky :=
  if (x.isInf && y.isZero) || (y.isInf && x.isZero) then (.nan false, NV)
  else if x.isNan || y.isNan then (.nan false, stickyIf (x.isSnan || y.isSnan) NV)
  else match x, y with
    | .fin a m e _, .fin b n k _ => (.fin (a != b) (m * n) (e + k) false, 0)
    | _, _ => (.inf (x.sign != y.sign), 0)

/-- x · y + z with the exact product (R154, R43): ∞ × 0 is invalid even beside a quiet NaN. -/
def ffma (r : Rounding) (x y z : FVal) (negProduct negAddend : Bool) : FVal × Sticky :=
  let (p, fp) := fprod x y
  let p := if negProduct then p.neg else p
  let z := if negAddend then z.neg else z
  let (s, fs) := fsum r [p, z]
  (s, fp ||| fs)

/-- The quotient (R151). -/
def fquot (x y : FVal) : FVal × Sticky :=
  if x.isNan || y.isNan then (.nan false, stickyIf (x.isSnan || y.isSnan) NV)
  else
    let s := x.sign != y.sign
    match x, y with
    | .inf _, .inf _ => (.nan false, NV)
    | .inf _, _ => (.inf s, 0)
    | _, .inf _ => (.fin s 0 0 false, 0)
    | .fin _ m e _, .fin _ n k _ =>
      if n == 0 then (if m == 0 then (.nan false, NV) else (.inf s, DZ))
      else if m == 0 then (.fin s 0 0 false, 0)
      else
        let sh := 160 + Nat.log2 n
        let t := m * 2 ^ sh
        (.fin s (t / n) (e - k - sh) (t % n != 0), 0)
    | _, _ => (.nan false, 0)

/-- The integer square root, bit by bit from 2^(i−1) down. -/
def isqrtFrom (n : Nat) : Nat → Nat → Nat
  | 0, r => r
  | i + 1, r => let c := r + 2 ^ i; isqrtFrom n i (if c * c ≤ n then c else r)
/-- ⌊√n⌋. -/
def isqrt (n : Nat) : Nat := isqrtFrom n (Nat.log2 n / 2 + 1) 0

/-- The square root (R28, R30): √−0 is −0. -/
def fsqrtVal (x : FVal) : FVal × Sticky :=
  match x with
  | .nan s => (.nan false, stickyIf s NV)
  | .inf true => (.nan false, NV)
  | .inf false => (.inf false, 0)
  | .fin neg m e _ =>
    if m == 0 then (.fin neg 0 0 false, 0)
    else if neg then (.nan false, NV)
    else
      let odd := e % 2 != 0
      let m := if odd then 2 * m else m
      let e := if odd then e - 1 else e
      let t := m * 2 ^ 400
      let r := isqrt t
      (.fin false r (e / 2 - 200) (r * r != t), 0)

/-- An exact integer. -/
def fint (v : Int) : FVal := .fin (v < 0) v.natAbs 0 false

/-- 1 / x (R235). -/
def frcpVal (x : FVal) : FVal × Sticky := fquot (fint 1) x

/-- 1 / √x (R235). -/
def frsqVal (x : FVal) : FVal × Sticky :=
  match x with
  | .nan s => (.nan false, stickyIf s NV)
  | .inf true => (.nan false, NV)
  | .inf false => (.fin false 0 0 false, 0)
  | .fin neg m e _ =>
    if m == 0 then (.inf neg, DZ)
    else if neg then (.nan false, NV)
    else
      -- 1/√(m·2^e) = √(2^(2k) / m) · 2^(−e/2 − k) with e even
      let odd := e % 2 != 0
      let m := if odd then 2 * m else m
      let e := if odd then e - 1 else e
      let t := 2 ^ 600
      let r := isqrt (t / m)
      (.fin false r (-(e / 2) - 300) (r * r * m != t), 0)

/-- 2^(0.b₁b₂…) in fixed point with 256 fraction bits, the fraction f / 2^k read from its last bit up. -/
def exp2Frac (f : Nat) : Nat → Nat → Nat
  | 0, y => y
  | k + 1, y =>
    let y' := if f % 2 == 1 then 2 * y else y
    exp2Frac (f / 2) k (isqrt (y' * 2 ^ 256))

/-- 2^x (R235): exact at integers, otherwise within 2^−250 with a strict fraction (DEDUCED, log 21). -/
def fexp2Val (x : FVal) : FVal × Sticky :=
  match x with
  | .nan s => (.nan false, stickyIf s NV)
  | .inf true => (.fin false 0 0 false, 0)
  | .inf false => (.inf false, 0)
  | .fin neg m e _ =>
    if m == 0 then (fint 1, 0)
    else if 0 ≤ e then
      let n : Int := (m * 2 ^ e.toNat : Nat)
      (.fin false 1 (if neg then -n else n) false, 0)
    else
      let k := (-e).toNat
      let whole : Int := if neg then -((m : Int)) else m
      let n := whole / ((2 ^ k : Nat) : Int)
      let f := (whole % ((2 ^ k : Nat) : Int)).toNat
      if f == 0 then (.fin false 1 n false, 0)
      else (.fin false (exp2Frac f k (2 ^ 256)) (n - 256) true, 0)

/-- The next n bits of log₂ y for y = v / 2^384 in [1, 2), by repeated squaring. -/
def log2Bits (v : Nat) : Nat → Nat → Nat
  | 0, acc => acc
  | k + 1, acc =>
    let w := v * v / 2 ^ 384
    if 2 ^ 385 ≤ w then log2Bits (w / 2) k (2 * acc + 1) else log2Bits w k (2 * acc)

/-- log₂ x (R235): exact at powers of two, otherwise within 2^−128 with a strict fraction (DEDUCED, log 21). log₂ 1 is +0. -/
def flog2Val (x : FVal) : FVal × Sticky :=
  match x with
  | .nan s => (.nan false, stickyIf s NV)
  | .inf true => (.nan false, NV)
  | .inf false => (.inf false, 0)
  | .fin neg m e _ =>
    if m == 0 then (.inf true, DZ)
    else if neg then (.nan false, NV)
    else
      let l := Nat.log2 m
      let n : Int := (l : Int) + e
      if m == 2 ^ l then (fint n, 0)
      else
        let f := log2Bits (m * 2 ^ 384 / 2 ^ l) 128 0
        if 0 ≤ n then (.fin false (n.toNat * 2 ^ 128 + f) (-128) true, 0)
        else (.fin true ((-n).toNat * 2 ^ 128 - f - 1) (-128) true, 0)

/-! ## Comparison and classification (R152, R157, R236) -/

/-- x < y on numbers, −0 = +0. -/
def fltVal (x y : FVal) : Bool :=
  match x, y with
  | .nan _, _ => false
  | _, .nan _ => false
  | .inf a, .inf b => a && !b
  | .inf a, _ => a
  | _, .inf b => !b
  | .fin a m e _, .fin b n k _ =>
    let e0 := min e k
    let u : Int := (m * 2 ^ (e - e0).toNat : Nat)
    let v : Int := (n * 2 ^ (k - e0).toNat : Nat)
    decide ((if a then -u else u) < (if b then -v else v))
/-- x = y on numbers, −0 = +0. -/
def feqVal (x y : FVal) : Bool := !x.isNan && !y.isNan && !fltVal x y && !fltVal y x

/-- `fmin` (R152) on codes: one operand unchanged, or the canonical NaN. −0 is less than +0. -/
def fminCode (f : FloatFmt) (max : Bool) (x y : Nat) : Nat × Sticky :=
  let a := fdecode f x
  let b := fdecode f y
  let fl := stickyIf (a.isSnan || b.isSnan) NV
  if a.isNan && b.isNan then (f.nan, fl)
  else if a.isNan then (y, fl)
  else if b.isNan then (x, fl)
  else
    let less := fltVal a b || (!fltVal b a && a.sign && !b.sign)
    if max then (if less then y else x, fl)
    else
      let more := fltVal b a || (!fltVal a b && b.sign && !a.sign)
      (if more then y else x, fl)

/-- The class mask of R157. -/
def fclassCode (f : FloatFmt) (x : Nat) : Nat :=
  match fdecode f x with
  | .nan s => if s then 256 else 512
  | .inf n => if n then 1 else 128
  | .fin n m _ _ =>
    if m == 0 then (if n then 8 else 16)
    else if m < 2 ^ f.mb then (if n then 4 else 32)
    else (if n then 2 else 64)

/-- Sign operations (R27, R153). -/
def fabsCode (f : FloatFmt) (x : Nat) : Nat := x % f.signBit
def fnegCode (f : FloatFmt) (x : Nat) : Nat :=
  if x / f.signBit % 2 == 1 then x % f.signBit else x % f.signBit + f.signBit
def fsgnCode (f : FloatFmt) (x y : Nat) : Nat := x % f.signBit + (y / f.signBit % 2) * f.signBit

/-! ## Rounded operations on codes -/

/-- Rounds a value computed with sticky bits. -/
def finish (f : FloatFmt) (r : Rounding) (v : FVal × Sticky) : Nat × Sticky :=
  let (c, fl) := fround f r false v.1
  (c, v.2 ||| fl)

def faddCode (f : FloatFmt) (r : Rounding) (x y : Nat) : Nat × Sticky :=
  finish f r (fsum r [fdecode f x, fdecode f y])
def fsubCode (f : FloatFmt) (r : Rounding) (x y : Nat) : Nat × Sticky :=
  finish f r (fsum r [fdecode f x, (fdecode f y).neg])
def fmulCode (f : FloatFmt) (r : Rounding) (x y : Nat) : Nat × Sticky :=
  finish f r (fprod (fdecode f x) (fdecode f y))
def fdivCode (f : FloatFmt) (r : Rounding) (x y : Nat) : Nat × Sticky :=
  finish f r (fquot (fdecode f x) (fdecode f y))
def fsqrtCode (f : FloatFmt) (r : Rounding) (x : Nat) : Nat × Sticky :=
  finish f r (fsqrtVal (fdecode f x))
/-- The fused family (R154): product negated in `fnma` and `fnms`, addend negated in `fms` and `fnms`. -/
def ffmaCode (f : FloatFmt) (r : Rounding) (x y z : Nat) (negProduct negAddend : Bool) : Nat × Sticky :=
  finish f r (ffma r (fdecode f x) (fdecode f y) (fdecode f z) negProduct negAddend)

/-- Floating to floating (R35): the table of R35 with SAT. A scalar conversion that widens is exact and ignores SAT (R156):
its caller passes SAT as false there. -/
def fcvtCode (dst src : FloatFmt) (r : Rounding) (sat : Bool) (x : Nat) : Nat × Sticky :=
  fround dst r sat (fdecode src x)

/-- Floating to an n-bit integer (R36): the low n bits and the sticky bits. -/
def fcvtiCode (src : FloatFmt) (n : Nat) (signed : Bool) (r : Rounding) (x : Nat) : Nat × Sticky :=
  let hi : Int := if signed then ((2 ^ (n - 1) : Nat) : Int) - 1 else ((2 ^ n : Nat) : Int) - 1
  let lo : Int := if signed then -((2 ^ (n - 1) : Nat) : Int) else 0
  match fdecode src x with
  | .nan _ => (0, NV)
  | .inf neg => (ofSigned n (if neg then lo else hi), NV)
  | .fin neg m e st =>
    let (v, inexact) := roundAt neg m e st 0 r
    let v : Int := if neg then -(v : Int) else v
    if hi < v then (ofSigned n hi, NV)
    else if v < lo then (ofSigned n lo, NV)
    else (ofSigned n v, stickyIf inexact NX)

/-- An integer to floating (R36, R156). -/
def icvtfCode (dst : FloatFmt) (r : Rounding) (sat : Bool) (v : Int) : Nat × Sticky :=
  fround dst r sat (fint v)

/-- The format of a type4 code 0–6 (R56). -/
def fmtOf (t : Nat) : FloatFmt :=
  match t with
  | 0 => .f64 | 1 => .f32 | 2 => .f16 | 3 => .bf16 | 4 => .e4m3 | 5 => .e5m2 | _ => .e2m1

/-- The mode of a rounding code, with DYN taken from the RM field of `CR_FPCTL`; a field of 5, 6 or 7 rounds RNE
(R31). Code 5 in an instruction is SR with its draw. -/
def roundingOf (rm : BitVec 3) (fpctl : BitVec 3) (u : Nat) : Rounding :=
  match rm.toNat with
  | 0 => .rne | 1 => .rtz | 2 => .rdn | 3 => .rup | 4 => .rmm | 5 => .sr u
  | _ => match fpctl.toNat with
    | 1 => .rtz | 2 => .rdn | 3 => .rup | 4 => .rmm | _ => .rne

end Sys2Proof.Machine
end

