-- ==== Sys2Proof/Machine/Lens.lean ====
section
/-! DEFINITION. Reaching the parts of a module: cores, clusters, dies, jobs, functions and queues by their
numbers, the module's place in the torus, and the registers of a core. -/

namespace Sys2Proof.Machine

/-! ## Lists keyed by number -/

/-- Applies f to the entries that p picks. -/
def mapWhere {α : Type} (p : α → Bool) (f : α → α) (l : List α) : List α := l.map (fun a => if p a then f a else a)

/-- The value of a key, if the list has it. -/
def assoc {α : Type} [DecidableEq α] {β : Type} (l : List (α × β)) (k : α) : Option β :=
  match l with
  | [] => none
  | (k', v) :: rest => if k' = k then some v else assoc rest k
/-- Sets the value of a key. -/
def assocSet {α : Type} [DecidableEq α] {β : Type} (l : List (α × β)) (k : α) (v : β) : List (α × β) :=
  match l with
  | [] => [(k, v)]
  | (k', v') :: rest => if k' = k then (k, v) :: rest else (k', v') :: assocSet rest k v
/-- Drops a key. -/
def assocDel {α : Type} [DecidableEq α] {β : Type} (l : List (α × β)) (k : α) : List (α × β) :=
  l.filter (fun p => p.1 ≠ k)

/-! ## Cores, clusters, dies -/

/-- A core of the module; one that no list names is as after reset. -/
def State.coreAt (s : State) (id : CoreId) : Core :=
  if s.core.id = id then s.core else (s.parked.find? (fun c => c.id = id)).getD (Core.reset id)
/-- Replaces a core. -/
def State.updCore (s : State) (id : CoreId) (f : Core → Core) : State :=
  if s.core.id = id then { s with core := f s.core }
  else if s.parked.any (fun c => c.id = id) then { s with parked := mapWhere (fun c => c.id = id) f s.parked }
  else { s with parked := f (Core.reset id) :: s.parked }
def State.clusterAt (s : State) (d c : Nat) : Cluster :=
  if s.cluster.die = d ∧ s.cluster.clu = c then s.cluster
  else (s.parkedClusters.find? (fun k => k.die = d && k.clu = c)).getD (Cluster.reset d c)
def State.updCluster (s : State) (d c : Nat) (f : Cluster → Cluster) : State :=
  if s.cluster.die = d ∧ s.cluster.clu = c then { s with cluster := f s.cluster }
  else if s.parkedClusters.any (fun k => k.die = d && k.clu = c) then
    { s with parkedClusters := mapWhere (fun k => k.die = d && k.clu = c) f s.parkedClusters }
  else { s with parkedClusters := f (Cluster.reset d c) :: s.parkedClusters }
def State.dieAt (s : State) (d : Nat) : Die :=
  if s.die.die = d then s.die else (s.parkedDies.find? (fun k => k.die = d)).getD (Die.reset d)
def State.updDie (s : State) (d : Nat) (f : Die → Die) : State :=
  if s.die.die = d then { s with die := f s.die }
  else if s.parkedDies.any (fun k => k.die = d) then { s with parkedDies := mapWhere (fun k => k.die = d) f s.parkedDies }
  else { s with parkedDies := f (Die.reset d) :: s.parkedDies }

/-- Makes another core the acting core, with its cluster and die. -/
def State.actAs (s : State) (id : CoreId) : State :=
  if s.core.id = id then s
  else
    let c := s.coreAt id
    let k := s.clusterAt id.die id.clu
    let d := s.dieAt id.die
    { s with
      core := c
      parked := s.core :: s.parked.filter (fun c => c.id ≠ id)
      cluster := k
      parkedClusters := if s.cluster.die = id.die ∧ s.cluster.clu = id.clu then s.parkedClusters
        else s.cluster :: s.parkedClusters.filter (fun k => !(k.die = id.die && k.clu = id.clu))
      die := d
      parkedDies := if s.die.die = id.die then s.parkedDies
        else s.die :: s.parkedDies.filter (fun k => k.die ≠ id.die) }

/-- Clusters present on die d (R12, R20). -/
def State.ncl (s : State) (d : Nat) : Nat := (s.modul.caps.ncl.toList.getD d 0).toNat
/-- Dies present. -/
def State.dies (s : State) : Nat := s.modul.caps.dies.toNat
/-- Every core of the module, in ascending order of die, cluster and core. -/
def State.coreIds (s : State) : List CoreId :=
  (List.range s.dies).flatMap (fun d => (List.range (s.ncl d)).flatMap (fun c => (List.range 4).map (fun k => ⟨d, c, k⟩)))
/-- The ids of every cluster. -/
def State.clusterIds (s : State) : List (Nat × Nat) :=
  (List.range s.dies).flatMap (fun d => (List.range (s.ncl d)).map (fun c => (d, c)))

/-- The die number of the module's die d (R274, R12). -/
def State.dieNumber (s : State) (d : Nat) : Nat :=
  let (x, y, z) := s.modul.origin
  (x + d % 2) + 16 * (y + d / 2) + 256 * z
/-- The module's die that has a die number, if it is in the module. -/
def State.dieIndex (s : State) (n : Nat) : Option Nat := (List.range s.dies).find? (fun d => s.dieNumber d == n)
/-- The coordinates of a die number (R274). -/
def coords (n : Nat) : Nat × Nat × Nat := (n % 16, n / 16 % 16, n / 256 % 16)
/-- A die number within the torus shape (R274). -/
def State.inTorus (s : State) (n : Nat) : Bool :=
  let (x, y, z) := coords n
  let (xn, yn, zn) := s.modul.torus
  x < xn && y < yn && z < zn

/-! ## Jobs, contexts, host functions -/

def State.jobOf (s : State) (ctx : Nat) : Option Job := s.modul.jobs.find? (fun j => j.ctx = ctx)
def State.updJob (s : State) (ctx : Nat) (f : Job → Job) : State :=
  { s with modul := { s.modul with jobs := mapWhere (fun j => j.ctx = ctx) f s.modul.jobs } }
def State.fnAt (s : State) (n : Nat) : Function := (s.host.functions.find? (fun f => f.fn = n)).getD { fn := n }
def State.updFn (s : State) (n : Nat) (f : Function → Function) : State :=
  if s.host.functions.any (fun g => g.fn = n) then
    { s with host := { s.host with functions := mapWhere (fun g => g.fn = n) f s.host.functions } }
  else { s with host := { s.host with functions := f { fn := n } :: s.host.functions } }
def Function.queueAt (f : Function) (q : Nat) : Queue := (f.queues.find? (fun k => k.q = q)).getD { q := q }
def Function.updQueue (f : Function) (q : Nat) (g : Queue → Queue) : Function :=
  if f.queues.any (fun k => k.q = q) then { f with queues := mapWhere (fun k => k.q = q) g f.queues }
  else { f with queues := g { q := q } :: f.queues }
def State.updQueue (s : State) (fn q : Nat) (g : Queue → Queue) : State := s.updFn fn (fun f => f.updQueue q g)
def State.queueAt (s : State) (fn q : Nat) : Queue := (s.fnAt fn).queueAt q

def Cluster.ctxAt (k : Cluster) (ctx : Nat) : Option CtxCluster := k.ctxs.find? (fun x => x.ctx = ctx)
def Cluster.updCtx (k : Cluster) (ctx : Nat) (f : CtxCluster → CtxCluster) : Cluster :=
  { k with ctxs := mapWhere (fun x => x.ctx = ctx) f k.ctxs }
def Cluster.task? (k : Cluster) (id : Nat) : Option Task := k.tasks.find? (fun t => t.id = id)
def Cluster.updTask (k : Cluster) (id : Nat) (f : Task → Task) : Cluster :=
  { k with tasks := mapWhere (fun t => t.id = id) f k.tasks }

/-- The context loaded on a core, when there is one (R384, R438). -/
def Core.ctx (c : Core) : Option Nat := if c.status.cv then some c.cid.toNat else none
/-- Whether a context holds a core now (R384). -/
def Core.holds (c : Core) (ctx : Nat) : Bool := c.status.cv && c.cid.toNat == ctx

/-- A fresh value of one the spec leaves open, and the counter moved on (DESIGN CHOICE, log 16). -/
def State.fresh (s : State) : Word := Config.undefWord s.modul.free
def State.freshen (s : State) : State := { s with modul := { s.modul with free := s.modul.free + 1 } }

/-- A core's place in one number. -/
def packCore (id : CoreId) : Nat := id.die * 64 + id.clu * 4 + id.core
/-- The acting core's cycle count (R14): 0 at its last reset or restore, rising from there with every cycle of the ghost clock, by a free
number more (DESIGN CHOICE, log 1), so that no two cores' counts need agree. -/
def State.cycles (s : State) : Nat :=
  let n := s.sched.now - s.core.cycStart
  if n = 0 then 0 else n + Config.cycleLead (packCore s.core.id) s.core.cycStart

/-! ## Registers -/

/-- A scalar register; s0 reads zero (R55, R137). -/
def Core.rd (c : Core) (r : Reg) : Word := if r = 0 then 0 else c.regs[r.toNat]'r.isLt
/-- Writes a scalar register; s0 discards (R55, R137). -/
def Core.wr (c : Core) (r : Reg) (v : Word) : Core :=
  if r = 0 then c else { c with regs := c.regs.set r.toNat v r.isLt }
/-- The acting core's registers. -/
def State.rd (s : State) (r : Reg) : Word := s.core.rd r
def State.wr (s : State) (r : Reg) (v : Word) : State := { s with core := s.core.wr r v }
/-- The register after r; s63 has none and the field values that reach it are odd (R169, R173). -/
def regAfter (r : Reg) : Reg := r + 1

/-- A stream register (R175). -/
def Core.stream (c : Core) (q : BitVec 3) : Stream := c.streams[q.toNat]'q.isLt
def Core.setStream (c : Core) (q : BitVec 3) (v : Stream) : Core := { c with streams := c.streams.set q.toNat v q.isLt }
/-- Replaces the elements of a stream register. -/
def Core.setElems (c : Core) (q : BitVec 3) (es : List Word) : Core := c.setStream q { c.stream q with elems := es }

/-- A register's value as the PC: 32 bits, always a multiple of 8 (R54, R137). -/
def pcOf (w : Word) : BitVec 32 := w.setWidth 32 &&& 0xFFFFFFF8
/-- PC + 8, the next instruction (R48, R54: 32 bits). -/
def Core.next (c : Core) : Core := { c with pc := c.pc + 8 }
def State.advance (s : State) : State := { s with core := s.core.next }
/-- Sets the PC. -/
def State.goto (s : State) (pc : BitVec 32) : State := { s with core := { s.core with pc := pc } }

/-- ORs sticky bits into `CR_FPSTAT` (R34, R141). -/
def State.sticky (s : State) (f : Sticky) : State :=
  { s with core := { s.core with cr := { s.core.cr with fpstat := s.core.cr.fpstat ||| f } } }

end Sys2Proof.Machine
end

