-- ==== Sys2Proof/Machine/Regions.lean ====
section
/-! DEFINITION. Region descriptors, footprints and hulls (R96–R100, R116), the overlap test (R315–R317), and
declared buffers (R102–R106). -/

namespace Sys2Proof.Machine

/-! ## Descriptors (R96, R99) -/

/-- A doubleword of a 32-byte or 64-byte block. -/
def dword {n : Nat} (x : BitVec n) (i : Nat) : Word := BitVec.ofNat 64 (x.toNat / 2 ^ (64 * i))

/-- The space of a code (R96). -/
def spaceOf (n : Nat) : Option Space :=
  match n with
  | 0 => some .spad | 1 => some .hbm | 2 => some .host | 3 => some .rem | 4 => some .pal | 5 => some .acc
  | 6 => some .strm
  | _ => none

/-- Dimension d of a descriptor: extent and stride (R96). -/
def descDim (x : BitVec 256) (d : Nat) : Nat × Int :=
  (x.toNat / 2 ^ (64 + 48 * d) % 2 ^ 16 + 1, toSigned 32 (x.toNat / 2 ^ (80 + 48 * d)))

/-- The null region of a core. -/
def nullRegion (core : Nat) : Region :=
  { null := true, rd := false, wr := false, cn := false, space := .spad, es := 1, base := 0, dims := [], core := core }

/-- A descriptor's region, or the cause of R99. -/
def readRegion (x : BitVec 256) (core : Nat) : Except Cause Region :=
  let w := dword x 0
  if bit w 58 then .ok (nullRegion core)
  else
    let nd := bits w 54 53
    let es := 2 ^ bits w 52 51
    let rd := bit w 55
    let wr := bit w 56
    let cn := bit w 57
    let base := bits w 47 0
    let dims := (List.range (nd + 1)).map (descDim x)
    match spaceOf (bits w 50 48) with
    | none => .error .taskForm
    | some sp =>
      if bits w 63 59 != 0 || x.toNat / 2 ^ (64 + 48 * (nd + 1)) != 0 || !(rd || wr || cn) || (cn && wr)
        || base % es != 0 || dims.any (fun d => d.2 % (es : Int) != 0) || (sp == .strm && rd) then .error .taskForm
      else if sp == .rem && (rd || cn) then .error .winLoad
      else .ok { null := false, rd := rd, wr := wr, cn := cn, space := sp, es := es, base := base, dims := dims, core := core }

/-- The number of elements: the product of the extents; 0 for a null region (R116). -/
def Region.count (r : Region) : Nat := if r.null then 0 else (r.dims.map Prod.fst).foldl (· * ·) 1

/-- Offset of element n over the dimensions, the first varying fastest (R116). -/
def dimOffset : List (Nat × Int) → Nat → Int
  | [], _ => 0
  | (e, st) :: rest, n => ((n % e : Nat) : Int) * st + dimOffset rest (n / e)
/-- The address of element n (R116). -/
def Region.elem (r : Region) (n : Nat) : Int := (r.base : Int) + dimOffset r.dims n

/-- The hull (R97), computed exactly. -/
def Region.lo (r : Region) : Int := (r.base : Int) + (r.dims.map (fun d => if d.2 < 0 then ((d.1 : Int) - 1) * d.2 else 0)).sum
def Region.hi (r : Region) : Int :=
  (r.base : Int) + r.es - 1 + (r.dims.map (fun d => if d.2 < 0 then 0 else ((d.1 : Int) - 1) * d.2)).sum

/-- Whether every byte of the footprint passes a test on byte ranges: the hull as one range, else every element. -/
def Region.within (r : Region) (ok : Int → Int → Bool) : Bool :=
  ok r.lo r.hi || (List.range r.count).all (fun n => ok (r.elem n) (r.elem n + r.es - 1))

/-! ## The overlap test (R316) -/

/-- Shared strides of two congruent regions, dimension by dimension, with both extents. -/
def congruentDims : List (Nat × Int) → List (Nat × Int) → Int → Option (List (Nat × Nat × Int))
  | [], [], _ => some []
  | (ea, sa) :: ra, (eb, sb) :: rb, prev =>
    if ea = 1 ∧ eb = 1 then (congruentDims ra rb prev).map (fun l => (ea, eb, 0) :: l)
    else if 1 < ea ∧ 1 < eb ∧ sa ≠ sb then none
    else
      let st := if 1 < ea then sa else sb
      if st < prev then none
      else (congruentDims ra rb (st * (max ea eb : Nat))).map (fun l => (ea, eb, st) :: l)
  | _, _, _ => none

/-- The bounds lowmin and lowmax over the lower dimensions. -/
def lowMin (es : Nat) (l : List (Nat × Nat × Int)) : Int :=
  -((es : Int) - 1) - (l.map (fun d => ((d.2.1 : Int) - 1) * d.2.2)).sum
def lowMax (es : Nat) (l : List (Nat × Nat × Int)) : Int :=
  ((es : Int) - 1) + (l.map (fun d => ((d.1 : Int) - 1) * d.2.2)).sum

/-- The values of k, from −(eB − 1) to eA − 1, with lowmin ≤ v − k · str ≤ lowmax. -/
def reachKs (ea eb : Nat) (str v lmin lmax : Int) : List Int :=
  let a : Int := -((eb : Int) - 1)
  let b : Int := (ea : Int) - 1
  if str ≤ 0 then (if lmin ≤ v ∧ v ≤ lmax then [0] else [])
  else
    let k0 := max a (-((lmax - v) / str))
    let k1 := min b ((v - lmin) / str)
    (List.range (k1 - k0 + 1).toNat).map (fun i => k0 + (i : Int))

/-- `reach`, the highest dimension at the head of the list. -/
def reach (es : Nat) : List (Nat × Nat × Int) → Int → Bool
  | [], v => decide (-((es : Int) - 1) ≤ v ∧ v ≤ (es : Int) - 1)
  | (ea, eb, str) :: rest, v =>
    (reachKs ea eb str v (lowMin es rest) (lowMax es rest)).any (fun k => reach es rest (v - k * str))

/-- `conflict` (R316) on regions of one space identity. -/
def conflict (a b : Region) : Bool :=
  if a.hi < b.lo ∨ b.hi < a.lo then false
  else if a.es ≠ b.es ∨ a.dims.length ≠ b.dims.length then true
  else match congruentDims a.dims b.dims a.es with
    | none => true
    | some l => reach a.es l.reverse ((b.base : Int) - a.base)

/-- Same space identity (R315). HBM, HOST, PAL and ACC are one within a context and cluster. -/
def sameIdentity (a b : Region) : Bool :=
  !a.null && !b.null && a.space == b.space &&
  (match a.space with
   | .spad => a.core == b.core
   | .rem => a.core == b.core
   | .strm => a.core == b.core
   | _ => true)

/-- Whether two regions of tasks of one context conflict. -/
def regionsConflict (a b : Region) : Bool := sameIdentity a b && conflict a b

def Region.reads (r : Region) : Bool := r.rd || r.cn
def Region.writes (r : Region) : Bool := r.wr

/-- A one-element region at a physical scratchpad address, as screening takes an access (R166, R317). -/
def accessRegion (core a n : Nat) : Region :=
  { null := false, rd := true, wr := false, cn := false, space := .spad, es := n, base := a, dims := [(1, n)], core := core }

/-! ## Declared buffers (R102–R106) -/

/-- End of the logical range and of the span. -/
def Buffer.logicalEnd (b : Buffer) : Nat := b.base + b.size
def Buffer.spanEnd (b : Buffer) : Nat := b.base + b.v * b.size

/-- A buffer by its id. -/
def bufFind (bufs : List Buffer) (n : Nat) : Option Buffer := bufs.find? (fun b => b.id = n)

/-- States in which an access is legal (R105). -/
def bufLegal (ph : BufPhase) (rd wr cn : Bool) : Bool :=
  match ph with
  | .empty => false
  | .filling => !cn
  | .full => !wr
  | .draining => !wr && (rd || cn)

/-- Buffer legality and relocation of an address range [lo, hi] (R103, R105, R106): the shift to the current version.
A range that touches versions 1 and above fails with `BUF_STATE`, then one not wholly inside a logical range it
touches with `TASK_FORM`, then an illegal state with `BUF_STATE`. -/
def bufRelocate (bufs : List Buffer) (lo hi : Int) (rd wr cn : Bool) : Except Cause Nat :=
  if bufs.any (fun b => decide (lo < (b.spanEnd : Int) ∧ (b.logicalEnd : Int) ≤ hi ∧ b.logicalEnd < b.spanEnd)) then .error .bufState
  else match bufs.find? (fun b => decide (lo < (b.logicalEnd : Int) ∧ (b.base : Int) ≤ hi)) with
    | none => .ok 0
    | some b =>
      if lo < (b.base : Int) ∨ (b.logicalEnd : Int) ≤ hi then .error .taskForm
      else if bufLegal b.phase rd wr cn then .ok (b.ver * b.size) else .error .bufState

/-- `buf.state`'s result (R110). -/
def bufStateWord (b : Option Buffer) : Word :=
  match b with
  | none => 0
  | some b =>
    let st := match b.phase with | .empty => 0 | .filling => 1 | .full => 2 | .draining => 3
    BitVec.ofNat 64 (256 + (b.v - 1) * 32 + b.ver * 4 + st)

/-- The buffers named by CN regions become EMPTY at admission (R108). The ranges are logical hulls. -/
def bufConsume (bufs : List Buffer) (lo hi : Int) : List Buffer :=
  bufs.map (fun b => if decide ((b.base : Int) ≤ lo ∧ hi < (b.logicalEnd : Int)) then { b with phase := .empty } else b)

end Sys2Proof.Machine
end

