-- ==== Sys2Proof/Machine/Result.lean ====
section
/-! DEFINITION. What a check or an instruction comes to: a value, a fault with its record, or a stall (R62, R163,
R168). -/

namespace Sys2Proof.Machine

/-- The number of a cause (R370). -/
def causeCode : Cause → Nat
  | .illegalOp => 0x01 | .priv => 0x02 | .misalign => 0x03 | .spadRange => 0x04 | .bufState => 0x05
  | .winLoad => 0x06 | .winUnmapped => 0x07 | .winDenied => 0x08 | .mapMiss => 0x09 | .leaseOut => 0x0A
  | .poison => 0x0B | .accCheck => 0x0C | .issueCollision => 0x0D | .walkerRange => 0x0E | .palState => 0x0F
  | .accOwner => 0x10 | .sketchUnbound => 0x11 | .sketchOverrun => 0x12 | .arith => 0x13 | .cancel => 0x14
  | .restoreCorrupt => 0x15 | .unitAbsent => 0x16 | .streamUnbound => 0x17 | .taskForm => 0x18
  | .evTrap => 0x40 | .evYield => 0x41 | .intPre => 0x42 | .intCmp => 0x43 | .intMsg => 0x44

/-- The record of a fault (R375): cause, faulting address where the fault has one of its own (otherwise the address
of the instruction's word, DEDUCED, log 23), index, information and `trap` code. -/
structure FaultInfo where
  cause : Cause
  addr : Option Word := none
  idx : Nat := 0
  info : Word := 0
  tcode : BitVec 8 := 0
  deriving DecidableEq, Repr

/-- A check's result. -/
inductive Res (α : Type) where
  | ok (a : α)
  | fault (f : FaultInfo)
  | stall (w : Wait)
  deriving Repr

/-- The next check runs only when this one passes; the first failure stands (R62). -/
def Res.bind {α β : Type} (r : Res α) (f : α → Res β) : Res β :=
  match r with
  | .ok a => f a
  | .fault x => .fault x
  | .stall w => .stall w

/-- Faults with a cause when the condition holds. -/
def faultIf (c : Bool) (cause : Cause) : Res Unit := if c then .fault { cause := cause } else .ok ()
/-- Faults with a cause and an address of its own when the condition holds. -/
def faultAt (c : Bool) (cause : Cause) (a : Word) : Res Unit := if c then .fault { cause := cause, addr := some a } else .ok ()
/-- Stalls while the condition holds (R168). -/
def stallIf (c : Bool) (w : Wait) : Res Unit := if c then .stall w else .ok ()
/-- A region's or task's cause as a fault. -/
def ofExcept {α : Type} (e : Except Cause α) (idx : Nat) : Res α :=
  match e with
  | .ok a => .ok a
  | .error c => .fault { cause := c, idx := idx }

end Sys2Proof.Machine
end

