-- ==== Sys2Proof/Machine/Memory.lean ====
section
/-! DEFINITION. Memories: the scratchpad with its poison marks (R92–R95), HBM behind the resident map, the lease
and the key slots (R73–R90), host memory (R83–R85), and the control core's own accesses (R163–R166). -/

namespace Sys2Proof.Machine

/-! ## Scratchpad (R92, R95). Addresses here are physical. -/

/-- Whether a byte range touches a marked unit. -/
def poisoned (marks : Cells 1) (a n : Nat) : Bool :=
  (List.range ((a + n - 1) / 64 - a / 64 + 1)).any (fun i => cget marks (a / 64 + i) != 0)

/-- The marks after a task's writes: a unit wholly covered is cleared, a unit that received a byte from a poisoned
source is marked, others keep their mark (R95). -/
def marksAfter (marks : Cells 1) (ws : List (Nat × Byte)) (bad : Nat → Bool) : Cells 1 :=
  ((ws.map (fun p => p.1 / 64)).eraseDups).foldl (fun m u =>
    if bad u then cset m u 1
    else if (List.range 64).all (fun i => ws.any (fun p => p.1 = 64 * u + i)) then cset m u 0 else m) marks

/-- The core has seen the first k of the packet writes that it has not seen (R334). -/
def Core.see (c : Core) (k : Nat) : Core := { c with stale := c.stale.drop k, early := c.early - k }
/-- An acquire, or an access of the core that finds the present bytes: no later load goes before a write performed by now (R183, R345). -/
def Core.order (c : Core) : Core := { c with early := 0, stale := [] }
/-- A plain wait of the core has ended: later loads may observe values from before the raise that satisfied it (R183, R345, DESIGN
CHOICE, log 78). -/
def Core.loosen (c : Core) : Core := { c with early := c.stale.length }
/-- How many of the unseen packet writes end with the last that shares an aligned 8 bytes with a range of addresses (R165). -/
def Core.upTo (c : Core) (as : List Nat) : Nat :=
  c.stale.length - (c.stale.reverse.takeWhile (fun e => !e.any (fun p => as.any (fun a => decide (a / 8 = p.1 / 8))))).length

/-- A task's write of bytes to a scratchpad (R95). A load waits for the task (R166), so it reads nothing older there. -/
def Core.taskWrite (c : Core) (ws : List (Nat × Byte)) (bad : Nat → Bool) : Core :=
  { c.see (c.upTo (ws.map Prod.fst)) with spad := csetList c.spad ws, poison := marksAfter c.poison ws bad }
/-- A write of bytes to a scratchpad by a packet: the rules of a task's write (R95). Until a load of the core sees it, the bytes it
overwrites stand among the unseen writes; one of the core's own is seen at once (`own`, R335). -/
def Core.packetWrite (c : Core) (own : Bool) (ws : List (Nat × Byte)) (bad : Nat → Bool) : Core :=
  let stale := c.stale ++ [ws.map (fun p => (p.1, cget c.spad p.1))]
  let c1 := if own then c.order else { c with stale := stale }
  { c1 with spad := csetList c.spad ws, poison := marksAfter c.poison ws bad }

/-- The core has read its scratchpad and found the present bytes (R138, R335). -/
def State.seesAll (s : State) : State := { s with core := s.core.order }
/-- A store of the core to its own scratchpad at a physical address. -/
def Core.store (c : Core) (a n v : Nat) : Core :=
  { c.see (c.upTo ((List.range n).map (fun i => a + i))) with spad := writeLE c.spad a n v }
/-- The scratchpad as it stood before the unseen packet writes: the newest is undone first. -/
def Core.before (c : Core) : List Host.Cell := c.stale.foldr (fun e m => csetList m e) c.spad
/-- A load of the core from its own scratchpad at a physical address. It reads the present bytes and has then seen every write; after a
plain wait, while no acquire has followed, it may, by a free value, have seen only some of the writes that the wait lets it go before, and
reads what stood there before the others (R183, R345, DESIGN CHOICE, log 78). What a load has seen every later load sees (R138, R335). -/
def State.ownLoad (s : State) (a n : Nat) : State × Nat :=
  if s.core.early = 0 then ({ s with core := s.core.order }, readLE s.core.spad a n)
  else
    let k := s.fresh.toNat % (s.core.early + 1)
    if k = s.core.early then ({ s.freshen with core := s.core.order }, readLE s.core.spad a n)
    else ({ s.freshen with core := s.core.see k }, readLE (s.core.see k).before a n)

/-- The bytes of a value at an address, little-endian (R4). -/
def bytesAt (a n v : Nat) : List (Nat × Byte) := (List.range n).map (fun i => (a + i, BitVec.ofNat 8 (v / 256 ^ i)))

/-! ## HBM (R73–R90) -/

/-- What a lookup yields: the device physical address, permissions and the key pair (0 for plain text). -/
structure Hit where
  dpa : Nat
  rd : Bool
  wr : Bool
  at_ : Bool
  key : Nat
  deriving DecidableEq, Repr

/-- Words 0 and 1 of the one valid entry of a context that a virtual address hits (R75, R77). -/
def mapEntry (d : Die) (ctx va : Nat) : Option (Word × Word) :=
  (d.map0.find? (fun e =>
    let w := e.2
    bit w 63 && bits w 58 52 == ctx && decide (va < 2 ^ 48) &&
      va / 2 ^ (21 + bits w 44 41) == bits w 26 0 / 2 ^ bits w 44 41)).map (fun e => (e.2, cget d.map1 e.1))

/-- The lookup of R77 on a die whose lease for the context is locked (R79). -/
def hbmLookup (d : Die) (ctx va : Nat) : Option Hit :=
  if d.leases.any (fun l => l.ctx = ctx && l.locked) then
    (mapEntry d ctx va).map (fun (w0, w1) =>
      { dpa := bits w1 18 0 * 2 ^ 21 + va % 2 ^ (21 + bits w0 44 41)
        rd := bit w0 62
        wr := bit w0 61
        at_ := bit w0 60
        key := if bit w0 59 then (cget d.keys (bits w0 51 45)).toNat else 0 })
  else none

/-- Every byte of a range of virtual addresses hits with the permissions asked for (R80), 2 MiB page by page. -/
def hbmCovers (d : Die) (ctx : Nat) (rd wr : Bool) (lo hi : Int) : Bool :=
  decide (0 ≤ lo) && decide (hi < 2 ^ 48) &&
  (List.range (hi.toNat / 2 ^ 21 - lo.toNat / 2 ^ 21 + 1)).all (fun i =>
    match hbmLookup d ctx (if i = 0 then lo.toNat else (lo.toNat / 2 ^ 21 + i) * 2 ^ 21) with
    | none => false
    | some h => (!rd || h.rd) && (!wr || h.wr))

/-- One doubling in GF(2^128) of IEEE 1619: x · 2, with 0x87 for the bit that leaves. -/
def xtsDouble (t : BitVec 128) : BitVec 128 := if t.msb then (t <<< 1) ^^^ 0x87 else t <<< 1
/-- The mask of block j of a unit (R87): the unit number under Key2, doubled j times. A key pair holds Key1 in its low half. -/
def xtsMask (pair : BitVec 512) (unit j : Nat) : BitVec 128 :=
  (List.range j).foldl (fun t _ => xtsDouble t) (Config.aesEncrypt ((pair >>> 256).setWidth 256) (BitVec.ofNat 128 unit))
/-- A 16-byte block of a unit on its way to the stack and back (R87); pair 0 stands for plain text. -/
def xtsEncrypt (pair : BitVec 512) (unit j : Nat) (x : BitVec 128) : BitVec 128 :=
  if pair = 0 then x else Config.aesEncrypt (pair.setWidth 256) (x ^^^ xtsMask pair unit j) ^^^ xtsMask pair unit j
def xtsDecrypt (pair : BitVec 512) (unit j : Nat) (x : BitVec 128) : BitVec 128 :=
  if pair = 0 then x else Config.aesDecrypt (pair.setWidth 256) (x ^^^ xtsMask pair unit j) ^^^ xtsMask pair unit j
/-- The cells of block j of a unit hold its plain text encrypted under the pair it was last written under. -/
def hbmCipher (m : Modul) (unit j : Nat) : BitVec 128 :=
  xtsEncrypt (cget m.hbmKey unit) unit j (BitVec.ofNat 128 (readLE m.hbm (64 * unit + 16 * j) 16))

/-- The byte of a unit as read under a key (R87, R88): decryption undoes the encryption under the same pair; under another pair it
is the decryption of what the cells hold. -/
def hbmByte (m : Modul) (key dpa : Nat) : Byte :=
  let unit := dpa / 64
  if (cget m.hbmKey unit).toNat == key then cget m.hbm dpa
  else
    let j := dpa % 64 / 16
    BitVec.ofNat 8 ((xtsDecrypt (BitVec.ofNat 512 key) unit j (hbmCipher m unit j)).toNat / 256 ^ (dpa % 16))

/-- One unit's write at the memory controller (R88, R90): a partial write to a poisoned unit is not performed; a
full one clears the mark; `bad` data sets it. A unit that changes key is read under the new key first. -/
def hbmWriteUnit (m : Modul) (key u : Nat) (ws : List (Nat × Byte)) (bad : Bool) : Modul :=
  let full := (List.range 64).all (fun i => ws.any (fun p => p.1 = 64 * u + i))
  let marked := cget m.hbmPoison u != 0
  if marked && !full then m
  else
    let m' := if (cget m.hbmKey u).toNat == key then m
      else { m with hbm := csetRange m.hbm (64 * u) 64 (fun a => hbmByte m key a), hbmKey := cset m.hbmKey u (BitVec.ofNat 512 key) }
    { m' with hbm := csetList m'.hbm ws, hbmPoison := cset m'.hbmPoison u (if bad then 1 else 0) }

/-- Writes of bytes given by virtual address, all of which hit; `bad` says which of the written bytes come from a
poisoned source. A byte that misses is not written. -/
def hbmWrite (m : Modul) (d : Die) (ctx : Nat) (ws : List (Nat × Byte)) (bad : Nat → Bool) : Modul :=
  let ps := ws.filterMap (fun p => (hbmLookup d ctx p.1).map (fun h => (h.dpa, h.key, p.2, bad p.1)))
  ((ps.map (fun p => p.1 / 64)).eraseDups).foldl (fun m u =>
    let here := ps.filter (fun p => p.1 / 64 = u)
    hbmWriteUnit m ((here.head?.map (fun p => p.2.1)).getD 0) u (here.map (fun p => (p.1, p.2.2.1))) (here.any (fun p => p.2.2.2))) m

/-- A byte read by virtual address, with whether its unit is poisoned. -/
def hbmRead (m : Modul) (d : Die) (ctx va : Nat) : Byte × Bool :=
  match hbmLookup d ctx va with
  | none => (0, false)
  | some h => (hbmByte m h.key h.dpa, cget m.hbmPoison (h.dpa / 64) != 0)

/-! ## Host memory (R83–R85) -/

/-- The key of a byte of a function's host memory. -/
def hostKey (fn iova : Nat) : Nat := fn * 2 ^ 64 + iova % 2 ^ 64
/-- Host memory as a read of the device finds it: its own posted writes of that function go before the read (R85, R336). -/
def State.hostSeen (s : State) (fn : Nat) : List Host.Cell :=
  (s.host.posted.filter (fun w => w.fn = fn)).foldl (fun m w => csetList m (w.bytes.map (fun p => (hostKey fn p.1, p.2)))) s.host.mem
def State.hostByte (s : State) (fn iova : Nat) : Byte := cget (s.hostSeen fn) (hostKey fn iova)
def State.hostBytes (s : State) (fn iova n : Nat) : List Byte := (List.range n).map (fun i => s.hostByte fn (iova + i))
def State.hostNat (s : State) (fn iova n : Nat) : Nat := readLE (s.hostSeen fn) (hostKey fn iova) n
def State.hostD (s : State) (fn iova : Nat) : Word := BitVec.ofNat 64 (s.hostNat fn iova 8)
/-- A posted write is handed to the host port under a number of its own: it stands there until it is sent (R336). -/
def State.toPort (s : State) (w : PostedWrite) : State :=
  { s with host := { s.host with posted := s.host.posted ++ [{ w with uid := s.modul.nextUid }] }
           modul := { s.modul with nextUid := s.modul.nextUid + 1 } }
/-- A write of the command processor to host memory. -/
def State.hostWrite (s : State) (fn : Nat) (ws : List (Nat × Byte)) : State := s.toPort { uid := 0, fn := fn, bytes := ws }
/-- A posted write as the host port sends it: to host memory, where units that a byte from a poisoned source reaches carry EP (R90), or as
the message of a vector. -/
def HostPort.send (h : HostPort) (w : PostedWrite) : HostPort :=
  let ws := w.bytes.map (fun p => (hostKey w.fn p.1, p.2))
  { h with posted := h.posted.filter (fun x => x.uid ≠ w.uid), mem := csetList h.mem ws, msix := h.msix ++ (w.vec.map (fun v => (w.fn, v))).toList
           epMarks := marksAfter h.epMarks ws (fun u => w.bad.any (fun a => hostKey w.fn a / 64 = u)) }
/-- The marks of a host read are those of that read alone (R85): a later read starts without them. -/
def State.hostReadDone (s : State) (fn iova n : Nat) : State :=
  let a := hostKey fn iova / 64
  { s with host := { s.host with readPoison := csetRange s.host.readPoison a ((hostKey fn iova + n - 1) / 64 - a + 1) (fun _ => 0) } }
def State.hostWriteD (s : State) (fn iova : Nat) (v : Word) : State := s.hostWrite fn (bytesAt iova 8 v.toNat)
/-- Whether a host read of a range came back marked (R85). -/
def State.hostBad (s : State) (fn iova n : Nat) : Bool := poisoned s.host.readPoison (hostKey fn iova) n

/-- A HOST write of a task, handed to the host port in its class (R322, R336); `bad` are the addresses of bytes from a poisoned source. -/
def State.hostTaskWrite (s : State) (fn : Nat) (src : Option (Nat × CoreId × Option Nat)) (cls : BitVec 4) (ws : List (Nat × Byte)) (bad : List Nat) : State :=
  if ws.isEmpty then s
  else
    let w : PostedWrite := { uid := s.modul.nextUid, fn := fn, bytes := ws, bad := bad, cls := some cls, ctx := src.map (fun x => x.1)
                             core := src.map (fun x => x.2.1), task := src.bind (fun x => x.2.2), die := src.map (fun x => x.2.1.die) }
    let s1 := s.toPort w
    match src with
    | some (ctx, id, task) => s1.updCore id (fun c => { c with effects := c.effects ++
        [{ uid := w.uid, ctx := ctx, cls := cls, die := s.dieNumber id.die, clu := id.clu, core := id.core, task := task, host := true }] })
    | none => s1
/-- A posted write may be sent: not before an earlier one of its class from its die (R338, R339; DESIGN CHOICE, log 10). The command
processor's own writes are a class of their own; it sends them in the order it makes them, after every write of the packet they serve (R360,
R429). -/
def HostPort.mayGo (h : HostPort) (w : PostedWrite) : Bool :=
  (h.posted.takeWhile (fun x => x.uid ≠ w.uid)).all (fun x => !(x.cls == w.cls && x.die == w.die) && !(x.pkt.isSome && x.pkt == w.pkt))

/-- The lease of a context on a die. -/
def leaseOf (d : Die) (ctx : Nat) : Option Lease := d.leases.find? (fun l => l.ctx = ctx && l.locked)
/-- The IOVA of a 48-bit host address of a context (R83). -/
def hostIova (d : Die) (ctx a : Nat) : Nat := ((leaseOf d ctx).map (fun l => l.hostHigh.toNat)).getD 0 * 2 ^ 48 + a
/-- Every byte of a range of host addresses lies in a host range with the permissions (R84). -/
def hostCovers (d : Die) (ctx : Nat) (rd wr : Bool) (lo hi : Int) : Bool :=
  match leaseOf d ctx with
  | none => false
  | some l =>
    decide (0 ≤ lo) && decide (hi < 2 ^ 48) &&
    (List.range (hi.toNat / 4096 - lo.toNat / 4096 + 1)).all (fun i =>
      let a := l.hostHigh.toNat * 2 ^ 48 + (lo.toNat / 4096 + i) * 4096
      l.ranges.any (fun (b, n, r, w) => b ≤ a && a + 4096 ≤ b + n && (!rd || r) && (!wr || w)))

/-! ## A control core's accesses (R163) -/

/-- Kinds of access (R92, R105, R166). -/
inductive Access where
  | load | fetch | store | atomic
  deriving DecidableEq, Repr

/-- S mode (R374). -/
def Core.sMode (c : Core) : Bool := c.status.mode
/-- The grant of R92: all of the scratchpad in S mode (R383). -/
def Core.limit (c : Core) : Nat := if c.sMode then Config.spadBytes else c.grant
/-- The placement that U-mode addresses take (R383). -/
def Core.shift (c : Core) : Nat := if c.sMode then 0 else c.spbase

/-- A task is pending from POSTED to DISPATCHED (R111, R320). -/
def Task.pending (t : Task) : Bool := t.phase != .complete
/-- Conflict of an access with pending tasks' regions (R166): a load or fetch with WR regions, the others with every
region. Tasks hold their SPAD regions at physical addresses. -/
def screened (tasks : List Task) (core a n : Nat) (k : Access) : Bool :=
  tasks.any (fun t => t.pending && t.regions.any (fun r =>
    !r.null && r.space == .spad && r.core == core &&
      (match k with
       | .load => r.wr
       | .fetch => r.wr
       | _ => true) && conflict (accessRegion core a n) r))

/-- Steps 3 and 4 of R163 for an own-scratchpad address below 2^32: the map, then buffer relocation and legality. The
result is the physical address. -/
def spadMap (c : Core) (a n : Nat) (k : Access) : Res Nat :=
  let addr : Option Word := some (BitVec.ofNat 64 a)
  if c.limit < a + n then .fault { cause := .spadRange, addr := addr }
  else
    let reloc : Except Cause Nat :=
      if c.sMode then .ok 0
      else match k with
        | .load => bufRelocate c.bufs a (a + n - 1) true false false
        | .fetch => bufRelocate c.bufs a (a + n - 1) true false false
        | .store => bufRelocate c.bufs a (a + n - 1) false true false
        | .atomic => bufRelocate c.bufs a (a + n - 1) true true false
    match reloc with
    | .error cs => .fault { cause := cs, addr := addr }
    | .ok d => .ok (a + d + c.shift)

/-- Steps 3 to 6 of R163: then screening and poison. -/
def spadCheck (c : Core) (tasks : List Task) (a n : Nat) (k : Access) : Res Nat :=
  (spadMap c a n k).bind fun pa =>
    if screened tasks c.id.core pa n k then .stall .screening
    else if poisoned c.poison pa n then .fault { cause := .poison, addr := some (BitVec.ofNat 64 a) }
    else .ok pa

/-- Which part of the map an address below 2^32 lies in (R92, R94). -/
inductive Place where
  | spad (a : Nat)
  | window (n off : Nat)
  | control (off : Nat)
  | outside
  deriving DecidableEq, Repr

/-- The address map of R92. -/
def placeOf (a : Nat) : Place :=
  if a < 0x400000 then .spad a
  else if 0x40000000 ≤ a ∧ a < 0x80000000 then .window ((a - 0x40000000) / 0x4000000) ((a - 0x40000000) % 0x4000000)
  else if 0xF0000000 ≤ a ∧ a < 0xF0100000 then .control (a - 0xF0000000)
  else .outside

/-- A load of n bytes by the control core as instructions other than `ld` make it (R113, R310): steps 3–6 of R163 on
an address whose bits 63:32 are zero. Windows fault with `WIN_LOAD`; the control space is no place for it (DESIGN CHOICE for S mode, log 85). -/
def coreLoad (s : State) (a n : Nat) : Res Nat :=
  match placeOf a with
  | .spad a => (spadCheck s.core s.cluster.tasks a n .load).bind (fun pa => .ok (readLE s.core.spad pa n))
  | .window _ _ => .fault { cause := .winLoad, addr := some (BitVec.ofNat 64 a) }
  | .control _ => .fault { cause := if s.core.sMode then .spadRange else .priv, addr := some (BitVec.ofNat 64 a) }
  | .outside => .fault { cause := .spadRange, addr := some (BitVec.ofNat 64 a) }

/-- n doublewords from a, each as a control-core load, low doubleword first. -/
def coreLoadD (s : State) : Nat → Nat → Res Nat
  | _, 0 => .ok 0
  | a, n + 1 => (coreLoad s a 8).bind (fun v => (coreLoadD s (a + 8) n).bind (fun w => .ok (v + 2 ^ 64 * w)))

/-- A 32-byte block entry (R113). -/
def coreLoadEntry (s : State) (a : Nat) : Res (BitVec 256) := (coreLoadD s a 4).bind (fun v => .ok (BitVec.ofNat 256 v))
/-- n consecutive 32-byte entries. -/
def coreLoadEntries (s : State) : Nat → Nat → Res (List (BitVec 256))
  | _, 0 => .ok []
  | a, n + 1 => (coreLoadEntry s a).bind (fun e => (coreLoadEntries s (a + 32) n).bind (fun es => .ok (e :: es)))

end Sys2Proof.Machine
end

