-- ==== Sys2Proof/Machine/SavePages.lean ====
section
/-! DEFINITION. The pages of a save area and their tags (R388, R389, R393–R395). What a page holds is the spec's; the places within a
page that the spec does not give are the model's (DESIGN CHOICE, log 20). -/

namespace Sys2Proof.Machine

/-! ## Bytes of what is saved -/

/-- A list with its length before it. -/
def listBytes {α : Type} (f : α → List Byte) (l : List α) : List Byte := numBytes 4 l.length ++ l.flatMap f
/-- A thing that may be absent. -/
def optBytes {α : Type} (f : α → List Byte) : Option α → List Byte
  | none => [0]
  | some x => 1 :: f x
def boolByte (b : Bool) : List Byte := [BitVec.ofNat 8 (bitOf b)]
/-- A word of w bits, in whole bytes. -/
def wordBytes {w : Nat} (x : BitVec w) : List Byte := numBytes ((w + 7) / 8) x.toNat
def intBytes (n : Nat) (v : Int) : List Byte := numBytes n (ofSigned (8 * n) v)
/-- n entries of sparse storage. -/
def cellBytes {w : Nat} (n : Nat) (c : Cells w) : List Byte := (List.range n).flatMap (fun i => wordBytes (cget c i))

def Space.code : Space → Nat
  | .spad => 0 | .hbm => 1 | .host => 2 | .rem => 3 | .pal => 4 | .acc => 5 | .strm => 6
def Region.bytes (r : Region) : List Byte :=
  List.flatten [numBytes 1 (bitOf r.null + 2 * bitOf r.rd + 4 * bitOf r.wr + 8 * bitOf r.cn + 16 * r.space.code), numBytes 1 r.es, numBytes 8 r.base,
    listBytes (fun d => numBytes 4 d.1 ++ intBytes 8 d.2) r.dims, numBytes 1 r.core]
def Walker.bytes (w : Walker) : List Byte := List.flatten [numBytes 1 w.region, numBytes 1 w.lag, listBytes (intBytes 4) w.strides]
def postBytes : PktBody → List Byte
  | .post r h rs as => List.flatten [wordBytes r, optBytes wordBytes h, listBytes wordBytes rs, listBytes wordBytes as]
  | _ => []
/-- What an entry runs; the walkers of a vector task that stopped between kernel iterations stand in a section of their own (R388). -/
def TaskOp.bytes (stopped : Bool) : TaskOp → List Byte
  | .vec p => List.flatten [[0], numBytes 4 p.body, numBytes 2 p.n, listBytes (numBytes 4) p.extents, numBytes 1 p.stages,
      listBytes (optBytes Walker.bytes) (if stopped then [] else p.walkers), listBytes wordBytes p.args]
  | .copy op pat => List.flatten [[1], numBytes 1 op, wordBytes pat]
  | .shape u h => List.flatten [[2], boolByte u, wordBytes h]
  | .mma m t a b sp => List.flatten [[3], numBytes 1 m, numBytes 1 t, numBytes 1 a, numBytes 1 b, wordBytes sp]
  | .acc op h => List.flatten [[4], numBytes 1 op, wordBytes h]
  | .rpost w b => List.flatten [[5], wordBytes w, postBytes b]
def TaskPhase.code : TaskPhase → Nat
  | .waiting => 0 | .ready => 1 | .dispatched => 2 | .complete => 3
/-- The resume point of a stopped task; the next kernel iteration of a vector task, its operations in flight and the ends of its pipes stand
in sections of their own (R388, R389). No task is saved in `written`. -/
def Resume.bytes : Resume → List Byte
  | .start => [0]
  | .copy n sent held => List.flatten [[1], numBytes 8 n, numBytes 4 sent, listBytes wordBytes held]
  | .written _ => [3]
  | .iter _ _ _ _ _ => [2]
def Resume.atBoundary : Resume → Bool
  | .iter _ _ _ _ _ => true
  | _ => false
def FenceOrder.bytes (o : FenceOrder) : List Byte := wordBytes o.mask ++ listBytes (numBytes 8) o.uids
/-- An Atelier entry (R326). -/
def Task.bytes (t : Task) : List Byte :=
  List.flatten [numBytes 4 t.id, numBytes 1 t.ctx, numBytes 1 t.core, boolByte t.remote, numBytes 2 t.srcDie, wordBytes t.fjob, t.op.bytes t.resume.atBoundary,
    numBytes 1 t.phase.code, listBytes (numBytes 4) t.waits, listBytes Region.bytes t.regions, wordBytes t.tag, wordBytes t.pri, wordBytes t.cls,
    optBytes wordBytes t.flag, wordBytes t.rm, wordBytes t.kt, listBytes (fun b => numBytes 1 b.1 ++ numBytes 1 b.2) t.bindings,
    wordBytes t.policy, numBytes 1 t.count, wordBytes t.flags, t.resume.bytes, boolByte t.stop, numBytes 1 t.entries,
    listBytes FenceOrder.bytes t.orders]

/-- An entry of the flight record (R389): 16 KiB. -/
def Flight.bytes (f : Flight) (rel : Nat) : List Byte :=
  let dest := match f.dest with
    | .tile n _ => (0, n)
    | .pred n _ _ => (1, n)
    | .xreg n _ => (2, n)
  List.flatten [wordBytes f.word,
    numBytes 8 (f.lat % 512 * 2 ^ 55 + rel % 512 * 2 ^ 46 + f.j % 256 * 2 ^ 38 + dest.1 * 2 ^ 6 + dest.2 % 64),
    numBytes 8 f.iter, wordBytes f.ops.x, List.replicate 96 0, wordBytes f.ops.pred, cellBytes 1024 f.ops.a, cellBytes 1024 f.ops.b,
    cellBytes 1024 f.ops.c, List.replicate 3840 0]
/-- Walkers and next kernel iteration of the tasks that stopped between kernel iterations (R388). -/
def boundaryBytes (ts : List Task) : List Byte := ts.flatMap (fun t => match t.op, t.resume with
  | .vec p, .iter m _ _ _ _ => listBytes (optBytes Walker.bytes) p.walkers ++ numBytes 8 m
  | _, _ => [])
/-- The cycles at which their pipes' last occupancies ended (R389). -/
def pipeEnds (ts : List Task) : List Nat := ts.flatMap (fun t => match t.resume with
  | .iter _ _ a p l => [a, p, l]
  | _ => [])
/-- The flights of the tasks that stopped between kernel iterations: their landing cycles count from the next issue of word 0. -/
def flightsOf (ts : List Task) : List Flight := ts.flatMap (fun t => match t.resume with
  | .iter _ fs _ _ _ => fs
  | _ => [])

def Stream.bytes (q : Stream) : List Byte := List.flatten [numBytes 8 (bitOf q.bound), numBytes 8 q.elems.length, (List.range 64).flatMap (fun i => wordBytes (q.elems.getD i 0))]
def Buffer.bytes (b : Buffer) : List Byte :=
  List.flatten [numBytes 2 b.id, numBytes 4 b.base, numBytes 4 b.size, numBytes 1 b.v, numBytes 1 b.ver, numBytes 1 (match b.phase with
    | .empty => 0 | .filling => 1 | .full => 2 | .draining => 3)]
def Staged.bytes (g : Staged) : List Byte :=
  List.flatten [wordBytes g.rec_, optBytes wordBytes g.header, listBytes wordBytes g.regions, listBytes wordBytes g.args, listBytes wordBytes g.walkers]
def WinMap.bytes (m : WinMap) : List Byte :=
  List.flatten [numBytes 2 m.die, numBytes 1 m.clu, numBytes 1 m.core, numBytes 4 m.rb, numBytes 4 m.size, boolByte m.raise]
def Window.bytes (w : Window) : List Byte := List.flatten [optBytes WinMap.bytes w.map, numBytes 2 w.alw, numBytes 2 w.out, boolByte w.den]
def CheckState.bytes (k : CheckState) (n : Nat) : List Byte :=
  List.flatten [numBytes 1 k.kind, boolByte k.cvr, boolByte k.cvc, cellBytes n k.cr, cellBytes n k.cc, wordBytes k.rc, intBytes 4 k.xe]
/-- The check state of a tile: of the whole part or `.h0`, then of `.h1`, and the marks of its units. -/
def AccTile.checkBytes (t : AccTile) : List Byte :=
  List.flatten [t.chk0.bytes 256, t.chk1.bytes 128, (List.range 512).map (fun i => BitVec.ofNat 8 (((List.range 8).map (fun b => (cget t.poison (8 * i + b)).toNat * 2 ^ b)).sum))]

/-! ## Sections and pages (R388, R393) -/

/-- Bytes of a page. -/
def pageSize : Nat := 4096
/-- Bytes in whole pages, the last filled with zeros. -/
def paged (bs : List Byte) : List (List Byte) :=
  (List.range ((bs.length + pageSize - 1) / pageSize)).map (fun i => let p := (bs.drop (pageSize * i)).take pageSize; p ++ List.replicate (pageSize - p.length) 0)
/-- Bytes in n pages at least. -/
def pagedIn (n : Nat) (bs : List Byte) : List (List Byte) := paged (bs ++ List.replicate (n * pageSize - bs.length) 0)
def tilePages (t : Tile) : List (List Byte) := paged (cellBytes 1024 t)
def accPages (t : AccTile) : List (List Byte) :=
  paged (readBytes t.data 0 Config.tileBytes) ++ pagedIn 2 t.checkBytes
def slotPages (v : Slot) : List (List Byte) :=
  List.flatten [paged (readBytes v.data 0 Config.slotBytes), paged (readBytes v.scales 0 8192), paged (cellBytes 1024 v.cs), pagedIn 1 (boolByte v.present ++ cellBytes 2048 v.errors)]

/-- The flight record (R389): a page of the pipes' ends, then the entries; no page when nothing is in flight. -/
def flightPages (ts : List Task) : List (List Byte) :=
  if (flightsOf ts).isEmpty && (pipeEnds ts).all (fun n => n == 0) then []
  else pagedIn 1 (listBytes (numBytes 4) (pipeEnds ts)) ++ (flightsOf ts).flatMap (fun f => paged (f.bytes f.landAt))
/-- The sections of a hard save in the order of R388, each in whole pages. The marks of a spilled image are not in its pages. -/
def HardRecord.sections (h : HardRecord) : List (List (List Byte)) :=
  [ h.vec.v.toList.flatMap tilePages,
    pagedIn 1 (List.flatten [h.vec.k.toList.flatMap wordBytes, h.vec.x.toList.flatMap wordBytes, boundaryBytes h.tasks, wordBytes h.vec.vrb]),
    flightPages h.tasks,
    pagedIn 2 (h.streams.toList.flatMap Stream.bytes),
    pagedIn 1 (listBytes (fun m => wordBytes m.payload ++ wordBytes m.sender) h.inbox),
    pagedIn 1 (listBytes Buffer.bytes h.bufs),
    pagedIn 1 (optBytes Staged.bytes h.builder),
    pagedIn 1 (h.windows.toList.flatMap Window.bytes ++ boolByte h.directDen),
    paged (h.tasks.flatMap Task.bytes),
    h.tiles.flatMap (fun p => accPages p.2),
    h.slots.flatMap (fun p => slotPages p.2),
    (match h.image with
     | some (m, _) => paged (readBytes m 0 h.grant)
     | none => []) ]
def ClusterPart.pages (k : ClusterPart) : List (List Byte) :=
  pagedIn 1 (listBytes Task.bytes k.tasks ++ listBytes (fun p => numBytes 1 p.1) k.slots) ++ k.slots.flatMap (fun p => slotPages p.2)
def SoftRecord.bytes (r : SoftRecord) : List Byte :=
  List.flatten [wordBytes r.pc, r.regs.toList.flatMap wordBytes, wordBytes r.fpctl, wordBytes r.fpstat, wordBytes r.fpen, wordBytes r.cpol, wordBytes r.tflog,
    wordBytes r.bkey, wordBytes r.bseq, wordBytes r.epc, r.flags.toList.flatMap wordBytes]

/-- The position of a core: bits 1:0 the core, 5:2 the logical cluster, 7:6 the die within the module (R394). -/
def corePosition (id : CoreId) : Nat := id.die * 64 + id.clu * 4 + id.core
/-- The sections after the record page, the cluster part among them when it is present (R393). -/
def SaveArea.sections (a : SaveArea) : List (List (List Byte)) :=
  ((a.hard.map HardRecord.sections).getD []) ++ (a.part.map ClusterPart.pages).toList
/-- Page 0 (R393): context, core, generation, kind, SP, the page count of each section, the soft record. -/
def SaveArea.recordPage (a : SaveArea) : List Byte :=
  List.flatten [numBytes 1 a.ctx, numBytes 2 (corePosition a.core), numBytes 8 a.gen, boolByte a.hard.isSome, boolByte (a.hard.any (fun h => h.image.isSome)),
    listBytes (fun x => numBytes 4 x.length) a.sections, a.soft.bytes]
/-- The pages of an area before its tag table (R393). -/
def SaveArea.pages (a : SaveArea) : List (List Byte) := pagedIn 1 a.recordPage ++ a.sections.flatten

/-! ## Tags (R394, R395) -/

/-- The tag of page p. -/
def pageTag (key : BitVec 256) (ctx : Nat) (id : CoreId) (gen p : Nat) (page : List Byte) : BitVec 128 :=
  (Config.kmac256 key (List.flatten [numBytes 1 ctx, numBytes 2 (corePosition id), numBytes 8 gen, numBytes 4 p, page]) 128 (stringBytes "Zalit save")).setWidth 128
/-- The tag table that the pages of an area have for a context, core and generation. -/
def SaveArea.tagsFor (a : SaveArea) (key : BitVec 256) (ctx : Nat) (id : CoreId) (gen : Nat) : List (BitVec 128) :=
  (a.pages.zipIdx).map (fun p => pageTag key ctx id gen p.2 p.1)
/-- A save writes each page and then its tag. -/
def SaveArea.retag (a : SaveArea) (key : BitVec 256) : SaveArea := { a with tags := a.tagsFor key a.ctx a.core a.gen }
/-- Every page verifies (R395): no uncorrectable error, the latest generation that firmware recorded, and every tag as that context,
core and generation give it. -/
def SaveArea.verifies (a : SaveArea) (key : BitVec 256) (ctx : Nat) (id : CoreId) (gen : Nat) : Bool :=
  !a.corrupt && a.gen == gen && a.tags == a.tagsFor key ctx id gen

end Sys2Proof.Machine
end

