-- ==== Sys2Proof/Machine/Tasks.lean ====
section
/-! DEFINITION. Pending tasks of a cluster: entries (R313), release and retirement (R320–R323), discard and stop (R327,
R328), and what reaches a context whether or not it holds its core: sticky conditions (R323), flags (R387), `CR_TFLOG`
(R382). -/

namespace Sys2Proof.Machine

/-- What a cluster keeps for a context, reached from the module. -/
def State.updCtx (s : State) (d c ctx : Nat) (f : CtxCluster → CtxCluster) : State := s.updCluster d c (fun k => k.updCtx ctx f)
def State.ctxAt (s : State) (d c ctx : Nat) : Option CtxCluster := (s.clusterAt d c).ctxAt ctx
/-- The context's flag state on a core of its cluster. -/
def CtxCluster.coreFlags (x : CtxCluster) (k : Nat) : CoreFlags := x.cores.toList.getD k {}
def CtxCluster.updFlags (x : CtxCluster) (k : Nat) (f : CoreFlags → CoreFlags) : CtxCluster :=
  { x with cores := Vector.ofFn (fun i => if i.val = k then f (x.cores[i]) else x.cores[i]) }

/-! ## Copies (R119, R121, R123) -/

/-- The region a copy writes, the region whose elements it moves, and their number; nothing when the written region is null
(R118). -/
def Task.copyRegion (t : Task) (i : Nat) : Region := t.regions.getD i (nullRegion t.core)
def copyWritten (op : Nat) : Nat := match op with
  | 0 => 1 | 1 => 0 | _ => 2
def copyCounted (op : Nat) : Nat := match op with
  | 0 => 1 | 1 => 0 | 2 => 2 | _ => 0
def Task.copyOp (t : Task) : Nat := match t.op with
  | .copy op _ => op
  | _ => 0
def Task.copyCount (t : Task) : Nat :=
  if (t.copyRegion (copyWritten t.copyOp)).null then 0 else (t.copyRegion (copyCounted t.copyOp)).count
def Task.copySize (t : Task) : Nat := (t.copyRegion (copyCounted t.copyOp)).es
/-- No HBM packet of the task waits for room or for its answer. -/
def Task.hbmIdle (t : Task) : Bool := t.hbmOpen.isEmpty && t.hbmQueue.isEmpty
/-- The engine has done its work and waits for its writes (R322). -/
def Task.hasWritten (t : Task) : Bool := match t.resume with
  | .written _ => true
  | _ => false
/-- The next element of a copy. -/
def Task.copyNext (t : Task) : Nat := match t.resume with
  | .copy n _ _ => n
  | _ => 0
/-- An overlapping copy (R121): source and destination in one scratchpad, in conflict. -/
def Task.overlapping (t : Task) : Bool :=
  t.copyOp == 0 && (t.copyRegion 0).space == .spad && (t.copyRegion 1).space == .spad && regionsConflict (t.copyRegion 0) (t.copyRegion 1)
/-- A copy stands between chunks (R124), or has moved everything; an overlapping copy has no chunk boundary. No packet of a chunk has
been sent and no HBM packet of it waits there. -/
def Task.copyAtBoundary (t : Task) : Bool :=
  t.hbmIdle && !t.hasWritten && (decide (t.copyCount ≤ t.copyNext) || (!t.overlapping && (match t.resume with
    | .copy n sent held => decide (n * t.copySize % 4096 = 0) && sent == 0 && held.isEmpty
    | _ => true)))

/-! ## Entries (R313) -/

/-- Task and region entries in use in a core's quota or in the remote partition. -/
def Cluster.used (k : Cluster) (remote : Bool) (core : Nat) : Nat × Nat :=
  let ts := k.tasks.filter (fun t => t.remote == remote && (remote || t.core == core))
  (ts.length, (ts.map (fun t => t.entries)).sum)
/-- Whether a core's quota, or the remote partition, can take a task of n region entries. -/
def Cluster.hasRoom (k : Cluster) (remote : Bool) (core n : Nat) : Bool :=
  let (t, r) := k.used remote core
  if remote then t < Config.remoteTasks && r + n ≤ Config.remoteRegions
  else t < Config.coreTasks && r + n ≤ Config.coreRegions
/-- Tasks a core of the cluster posted for a context, not RETIRED (R330). -/
def Cluster.tasksOf (k : Cluster) (ctx core : Nat) : List Task := k.tasks.filter (fun t => t.ctx = ctx && t.core = core && !t.remote)
/-- Those of them that are pending: a COMPLETE task is not (R111, R320). -/
def Cluster.pendingOf (k : Cluster) (ctx core : Nat) : List Task := (k.tasksOf ctx core).filter Task.pending

/-! ## Release (R320) -/

/-- A task that waited for `id` and for nothing else becomes READY. -/
def Task.drop (id : Nat) (t : Task) : Task :=
  let w := t.waits.filter (fun i => i ≠ id)
  { t with waits := w, phase := match t.phase with
      | .waiting => if w.isEmpty then .ready else .waiting
      | p => p }
/-- Takes a task out of the Atelier and out of its engine. -/
def Cluster.release (k : Cluster) (id : Nat) : Cluster :=
  let clear := fun (e : Option Nat) => if e = some id then none else e
  { k with
    tasks := (k.tasks.filter (fun t => t.id ≠ id)).map (Task.drop id)
    copy0 := clear k.copy0, copy1 := clear k.copy1, shaper := clear k.shaper, canvasTask := clear k.canvasTask
    fabric := k.fabric.filter (fun i => i ≠ id) }
/-- A task becomes COMPLETE (R321): it leaves its engine and its dependents are released; its entry stays. -/
def Cluster.finish (k : Cluster) (id : Nat) : Cluster :=
  let k1 := k.release id
  { k1 with tasks := (k.tasks.map (fun t => if t.id = id then { t with phase := .complete } else Task.drop id t)) }
/-- Tasks in ascending admission order (R318, R326). -/
def insertTask (t : Task) : List Task → List Task
  | [] => [t]
  | u :: rest => if t.id < u.id then t :: u :: rest else u :: insertTask t rest
def mergeTasks (new old : List Task) : List Task := new.foldr insertTask old
/-- Discards the tasks of a list that p picks (R327). -/
def dropTasks (p : Task → Bool) (l : List Task) : List Task := l.filter (fun t => !p t)

/-! ## What reaches a context -/

/-- ORs sticky conditions for a context and core (R141, R323): into the core when the context holds it, else held by the
cluster. -/
def State.orSticky (s : State) (id : CoreId) (ctx : Nat) (f : Sticky) : State :=
  if (s.coreAt id).holds ctx then
    s.updCore id (fun c => { c with cr := { c.cr with fpstat := c.cr.fpstat ||| f } })
  else s.updCtx id.die id.clu ctx (fun x => x.updFlags id.core (fun g => { g with held := g.held ||| f }))

/-- A flag update: a set or an add (R182). -/
inductive FlagOp where
  | add (a : BitVec 32)
  | set (a : BitVec 32)
  deriving DecidableEq, Repr

/-- The entry of a virtual flag in a context's map on a core: V, RES, physical flag (R387). -/
def flagEntry (m : Vector Word 8) (f : BitVec 6) : Bool × Bool × BitVec 6 :=
  let w := m.toList.getD (f.toNat / 8) 0
  let e := bits w (8 * (f.toNat % 8) + 7) (8 * (f.toNat % 8))
  (e / 128 % 2 = 1, e / 64 % 2 = 1, BitVec.ofNat 6 e)

def FlagOp.apply (o : FlagOp) (v : BitVec 32) : BitVec 32 :=
  match o with
  | .add a => v + a
  | .set a => a

/-- An update that goes into the pending pair of a flag (R387). -/
def CoreFlags.pend (g : CoreFlags) (f : BitVec 6) (o : FlagOp) : CoreFlags :=
  { g with
    pendS := match o with
      | .set _ => g.pendS ||| (1 <<< f.toNat)
      | .add _ => g.pendS
    pendV := g.pendV.set f.toNat (o.apply (g.pendV[f.toNat]'f.isLt)) f.isLt }

/-- Updates virtual flag f of a context on a core (R180, R387): an entry with V = 0 drops it; the physical flag when the
entry is resident, or the context holds the core and no `ctx.save` of it has issued (R423, R425); else the pending pair, and there too
before the context's first load on a core that another one held (R433; DEDUCED, log 95). -/
def State.updFlag (s : State) (id : CoreId) (ctx : Nat) (f : BitVec 6) (o : FlagOp) : State :=
  match s.ctxAt id.die id.clu ctx with
  | none => s
  | some x =>
    let (v, res, e) := flagEntry (x.coreFlags id.core).fmap f
    if !v then s
    else if (res && !(x.coreFlags id.core).first) || ((s.coreAt id).holds ctx && !(s.coreAt id).saving) then
      s.updCore id (fun c => { c with flags := c.flags.set e.toNat (o.apply (c.flags[e.toNat]'e.isLt)) e.isLt })
    else s.updCtx id.die id.clu ctx (fun x => x.updFlags id.core (fun g => g.pend f o))

/-- A raise adds 1 (R180). -/
def State.raiseFlag (s : State) (id : CoreId) (ctx : Nat) (f : BitVec 6) : State := s.updFlag id ctx f (.add 1)

/-- `CR_TFLOG` after one more absorbed fault (R382). -/
def tflogAfter (w : Word) (tag : BitVec 16) (cause : Cause) : Word :=
  let cnt := bits w 63 48
  if cnt = 0 then BitVec.ofNat 64 (2 ^ 48 + tag.toNat * 2 ^ 32 + causeCode cause)
  else if cnt = 0xFFFF then w else w + BitVec.ofNat 64 (2 ^ 48)

/-- Changes what is saved of a context on a core; its pages get their tags again (R394: a save writes each page and then its tag). -/
def State.updSave (s : State) (ctx : Nat) (id : CoreId) (f : SaveArea → SaveArea) : State :=
  s.updJob ctx (fun j => { j with saves := mapWhere (fun p => p.1 = id) (fun p => (p.1, (f p.2).retag j.saveKey)) j.saves })

/-- Records an absorbed task fault in the core's `CR_TFLOG`, or in the saved one of a context that does not hold it. -/
def State.logTask (s : State) (id : CoreId) (ctx : Nat) (tag : BitVec 16) (cause : Cause) : State :=
  if (s.coreAt id).holds ctx then
    s.updCore id (fun c => { c with cr := { c.cr with tflog := tflogAfter c.cr.tflog tag cause } })
  else
    s.updSave ctx id (fun a => { a with soft := { a.soft with tflog := tflogAfter a.soft.tflog tag cause } })

/-! ## Ending a task -/

/-- The core a task posts for (R323). -/
def taskCore (d c : Nat) (t : Task) : CoreId := ⟨d, c, t.core⟩

/-- A fence order holds back an effect of a class for a die (R342). -/
def fenceHolds (orders : List FenceOrder) (effects : List Effect) (die : Nat) (cls : BitVec 4) : Bool :=
  orders.any (fun o => o.mask.getLsbD cls.toNat && effects.any (fun e => e.die = die && !e.host && o.uids.contains e.uid))
/-- The completion flag waits for a fence of its core (R323, R342). -/
def State.flagHeld (s : State) (d c : Nat) (t : Task) : Bool :=
  t.flag.isSome && fenceHolds t.orders (s.coreAt (taskCore d c t)).effects (s.dieNumber d) t.cls
/-- The vector engine of a task's core is free of it. -/
def Core.dropRun (c : Core) (t : Task) : Core :=
  { c with vec := match c.vec.run with
    | some r => if r.task.id = t.id then { c.vec with run := none } else c.vec
    | none => c.vec }

/-- Ends a task (R320, R323): its conditions are ORed in, its completion flag is raised when `raise` holds, its entries
return and its dependents are released. -/
def State.endTask (s : State) (d c : Nat) (t : Task) (raise : Bool) : State :=
  let id := taskCore d c t
  let s1 := s.orSticky id t.ctx t.flags
  let s2 := match t.flag with
    | some f => if raise then s1.raiseFlag id t.ctx f else s1
    | none => s1
  let s3 := s2.updCluster d c (fun k => k.release t.id)
  s3.updCore id (fun k => k.dropRun t)
/-- A task whose engine has finished becomes COMPLETE (R321–R323): it is RETIRED in the same step unless a fence holds its flag back;
then its entry stays until the fence lets the flag go. -/
def State.completeTask (s : State) (d c : Nat) (t : Task) : State :=
  if t.stop then s.endTask d c t false
  else if s.flagHeld d c t then
    ((s.orSticky (taskCore d c t) t.ctx t.flags).updCluster d c (fun k => k.finish t.id)).updCore (taskCore d c t) (fun k => k.dropRun t)
  else s.endTask d c t true
/-- A COMPLETE task of a cluster whose flag nothing holds back any longer (R323). -/
def State.retirable (s : State) (d c : Nat) : Option Task :=
  (s.clusterAt d c).tasks.find? (fun t => t.phase == .complete && !s.flagHeld d c t)
/-- Its flag is raised and it is RETIRED; its conditions are in already. -/
def State.retire (s : State) (d c : Nat) (t : Task) : State := s.endTask d c { t with flags := 0 } true

/-- Whether a dispatched task ends at once when it is stopped: an `rpost` task (R301, R327). -/
def Task.isRpost (t : Task) : Bool := match t.op with
  | .rpost _ _ => true
  | _ => false
def Task.dispatched (t : Task) : Bool := t.phase == .dispatched

/-- An effect is performed, or counts as performed (R341, R344). -/
def Core.performed (c : Core) (uids : List Nat) : Core := { c with effects := c.effects.filter (fun e => !uids.contains e.uid) }
/-- Packets of the named tasks of cluster c that wait to be sent again. -/
def Die.waitingPosts (k : Die) (c : Nat) (ids : List Nat) : List Packet :=
  k.unacked.filter (fun p => p.from_.core.clu == c && p.from_.task.any (fun i => ids.contains i) && k.retried.contains (p.uid, true))
/-- Posts of the named tasks of cluster c that wait to be sent again are sent no more (R301, R302). -/
def Die.forgetPosts (k : Die) (c : Nat) (ids : List Nat) : Die :=
  let gone := fun (p : Packet) => p.from_.core.clu == c && p.from_.task.any (fun i => ids.contains i) && k.retried.contains (p.uid, true)
  { k with unacked := k.unacked.filter (fun p => !gone p)
           retried := k.retried.filter (fun r => !k.unacked.any (fun p => p.uid = r.1 && gone p)) }

/-- The posts of tasks of a core that wait to be sent again are given up: no fence waits for them any longer (R301, R344, DESIGN CHOICE,
log 72). -/
def State.dropPosts (s : State) (id : CoreId) (ids : List Nat) : State :=
  let uids := ((s.dieAt id.die).waitingPosts id.clu ids).map (fun p => p.uid)
  (s.updDie id.die (fun k => k.forgetPosts id.clu ids)).updCore id (fun c => c.performed uids)

/-- Discards or stops one task (R327, R328). One that is COMPLETE has no stop point left: it ends as it stands. -/
def State.stopTask (s : State) (d c : Nat) (t : Task) : State :=
  if t.phase == .complete then s
  else if !t.dispatched || t.isRpost then (s.dropPosts (taskCore d c t) [t.id]).endTask d c t false
  else s.updCluster d c (fun k => k.updTask t.id (fun t => { t with stop := true }))
/-- Discards or stops the tasks of a cluster that p picks. -/
def State.stopTasks (s : State) (d c : Nat) (p : Task → Bool) : State :=
  ((s.clusterAt d c).tasks.filter p).foldl (fun s t => s.stopTask d c t) s

/-! ## Waiting for tasks -/

/-- Tasks of a context that are pending outside the Atelier (R320): loaded and not yet let in, in the cluster part that is out, or in the
save of a core that the context does not hold. -/
def State.savedTasks (s : State) (d c ctx : Nat) : List Task :=
  (List.range 4).flatMap (fun k => (s.coreAt ⟨d, c, k⟩).restored.filter (fun t => t.ctx = ctx)) ++
  ((s.ctxAt d c ctx).map (fun x => x.remoteSaved)).getD [] ++
  (((s.jobOf ctx).map (fun j => j.saves)).getD []).flatMap (fun p =>
    if p.1.die = d && p.1.clu = c && !(s.coreAt p.1).holds ctx then (p.2.hard.map (fun h => h.tasks)).getD [] else [])
/-- Tasks of a cluster still pending somewhere. -/
def State.pendingIds (s : State) (d c : Nat) : List Nat :=
  ((s.clusterAt d c).tasks.filter Task.pending).map (fun t => t.id) ++
  s.modul.jobs.flatMap (fun j => (s.savedTasks d c j.ctx).map (fun t => t.id))
/-- A task waits only for those that are pending. -/
def Task.prune (pending : List Nat) (t : Task) : Task :=
  let w := t.waits.filter (fun i => pending.contains i)
  { t with waits := w, phase := match t.phase with
      | .waiting => if w.isEmpty then .ready else .waiting
      | p => p }
/-- Saved tasks have been discarded, or a checkpoint has replaced them: those that waited for them wait no longer (R320). -/
def State.prune (s : State) (d c : Nat) : State :=
  s.updCluster d c (fun k => { k with tasks := k.tasks.map (Task.prune (s.pendingIds d c)) })

/-- Stops and discards the tasks of a core for a context (a core program that ends, R379). -/
def State.stopCoreTasks (s : State) (id : CoreId) (ctx : Nat) : State :=
  s.stopTasks id.die id.clu (fun t => t.ctx = ctx && t.core = id.core && !t.remote)

/-- A pending task of the core has a SPAD region whose hull overlaps physical bytes [lo, hi) (R110). -/
def spadPending (tasks : List Task) (core lo hi : Nat) : Bool :=
  tasks.any (fun t => t.regions.any (fun r =>
    !r.null && r.space == .spad && r.core == core && decide (r.lo < (hi : Int) ∧ (lo : Int) ≤ r.hi)))
/-- A pending task of the core names a stream register (R176). -/
def strmPending (tasks : List Task) (core q : Nat) : Bool :=
  tasks.any (fun t => t.regions.any (fun r =>
    !r.null && r.space == .strm && r.core == core && decide (r.lo ≤ (8 * q : Nat) ∧ ((8 * q : Nat) : Int) ≤ r.hi)))
/-- A pending task of the core has a REM region in a window (R295). -/
def remPending (tasks : List Task) (core n : Nat) : Bool :=
  tasks.any (fun t => t.regions.any (fun r =>
    !r.null && r.space == .rem && r.core == core && decide (r.base / 0x4000000 = 16 + n)))

end Sys2Proof.Machine
end

