-- ==== Sys2Proof/Machine/Router.lean ====
section
/-! DEFINITION. Effects that leave a core: atomics as their destination performs them (R170, R174), the grant table
(R291, R292), delivery of a request packet (R178, R292, R300, R301), and handing an effect on (R279, R337). -/

namespace Sys2Proof.Machine

/-! ## Atomics (R170, R174) -/

/-- Bytes an atomic touches. -/
def atomWidth : AtomReq → Nat
  | .op _ size _ _ => 2 ^ size
  | .claim => 16

/-- The new value of R170 at n bits. -/
def atomNew (o : AtomOp) (n old v new : Nat) : Nat :=
  let old := old % 2 ^ n
  let v := v % 2 ^ n
  match o with
  | .add => (old + v) % 2 ^ n
  | .and => old &&& v
  | .or => old ||| v
  | .xor => old ^^^ v
  | .min => if toSigned n old ≤ toSigned n v then old else v
  | .max => if toSigned n v ≤ toSigned n old then old else v
  | .minn => if old ≤ v then old else v
  | .maxn => if v ≤ old then old else v
  | .swap => v
  | .cas => if old = v then new % 2 ^ n else old
  | .incb => if old < v then (old + 1) % 2 ^ n else old

/-- Start and count of a claim on a record {next, end, P, cmin} (R174). -/
def claimOf (rec_ : Nat) : Nat × Nat :=
  let next := rec_ % 2 ^ 32
  let end_ := rec_ / 2 ^ 32 % 2 ^ 32
  let p := rec_ / 2 ^ 64 % 2 ^ 32
  let cmin := rec_ / 2 ^ 96 % 2 ^ 32
  if end_ ≤ next then (next, 0)
  else
    let r := end_ - next
    let d := 2 * max p 1
    (next, min (max cmin ((r + d - 1) / d)) r)

/-- What an atomic leaves in its bytes, as a little-endian number. -/
def atomResult (q : AtomReq) (old : Nat) : Nat :=
  match q with
  | .op o size v new => atomNew o (8 * 2 ^ size) old v.toNat new.toNat
  | .claim =>
    let (start, cnt) := claimOf old
    old / 2 ^ 32 * 2 ^ 32 + (start + cnt) % 2 ^ 32

/-! ## A context's scratchpad on a core (R300, R383) -/

/-- The placement of a context on a core (R383). -/
def State.placement (s : State) (ctx : Nat) (id : CoreId) : Nat := ((s.jobOf ctx).bind (fun j => assoc j.place id)).getD 0
/-- The spilled image of a context on a core it does not hold, when its save has one (R388). -/
def State.spilled (s : State) (ctx : Nat) (id : CoreId) : Option (List Host.Cell × Cells 1) :=
  if (s.coreAt id).holds ctx then none
  else (s.jobOf ctx).bind (fun j => (assoc j.saves id).bind (fun a => a.hard.bind (fun h => h.image)))
/-- Replaces a spilled image. -/
def State.setSpilled (s : State) (ctx : Nat) (id : CoreId) (im : List Host.Cell × Cells 1) : State :=
  s.updSave ctx id (fun a => { a with hard := a.hard.map (fun h => { h with image := some im }) })

/-- A write at a context's own addresses by a packet (R95, R300, R383), its own or another's: at its placement, or in its spilled image. -/
def State.remoteWrite (s : State) (ctx : Nat) (id : CoreId) (own : Bool) (ws : List (Nat × Byte)) (bad : Bool) : State :=
  match s.spilled ctx id with
  | some (m, marks) => s.setSpilled ctx id (csetList m ws, marksAfter marks ws (fun _ => bad))
  | none =>
    let pb := s.placement ctx id
    s.updCore id (fun c => c.packetWrite own (ws.map (fun p => (p.1 + pb, p.2))) (fun _ => bad))
/-- n bytes at a context's own address, and whether a unit they touch is marked. -/
def State.remoteRead (s : State) (ctx : Nat) (id : CoreId) (a n : Nat) : Nat × Bool :=
  match s.spilled ctx id with
  | some (m, marks) => (readLE m a n, poisoned marks a n)
  | none =>
    let pb := s.placement ctx id
    let c := s.coreAt id
    (readLE c.spad (a + pb) n, poisoned c.poison (a + pb) n)

/-! ## Judging a packet (R291, R292) -/

/-- The permission bit of a kind in word 0 of a grant entry; a CANCEL and an HBM request need none. -/
def grantBit : PktBody → Option Nat
  | .write .. => some 62
  | .atomic .. => some 61
  | .flag .. => some 60
  | .post .. => some 59
  | .msg _ => some 58
  | .cancel => none
  | .hbm .. => none
  | .hbmRead .. => none
  | .hbmWrite .. => none

/-- The byte range a WRITE or ATOMIC addresses, as first byte and end. -/
def packetRange : PktBody → Option (Nat × Nat)
  | .write a ws _ _ => some (ws.foldl (fun m p => min m p.1) a, ws.foldl (fun m p => max m (p.1 + 1)) a)
  | .atomic a q => some (a, a + atomWidth q)
  | _ => none

/-- The first grant entry that lets a packet in: its word 0 (R292). -/
def grantEntry (x : CtxCluster) (grant : Nat) (p : Packet) : Option Word :=
  (x.grants.toList.find? (fun e =>
    let w0 := dword e 0
    let w1 := dword e 1
    bit w0 63 && bits w0 50 49 == p.core && bits w1 51 40 ≤ p.src && p.src ≤ bits w1 63 52 &&
    (match grantBit p.body with
     | some b => bit w0 b
     | none => true) &&
    (match packetRange p.body with
     | some (lo, hi) => bits w0 43 22 ≤ lo && hi ≤ bits w0 43 22 + bits w1 22 0 && hi ≤ grant
     | none => true))).map (fun e => dword e 0)

/-- The context a packet selects on a cluster (R292): launched there with the packet's FJOB and not ended. -/
def State.packetCtx (s : State) (d : Nat) (p : Packet) : Option CtxCluster :=
  if p.clu < s.ncl d then (s.clusterAt d p.clu).ctxs.find? (fun x => x.fjob = p.fjob) else none

/-- The grant of the job a context runs (R93). -/
def State.ctxGrant (s : State) (ctx : Nat) : Nat := ((s.jobOf ctx).map (fun j => j.grant)).getD 0

/-- The sender word of a packet: HERE = 0 and DIE filled in (R178). -/
def senderWord (p : Packet) : Word := BitVec.ofNat 64 (p.src * 64 + p.from_.core.clu * 4 + p.from_.core.core)

/-- Performs an atomic at the destination's scratchpad (R171, R172). -/
def State.remoteAtomic (s : State) (ctx : Nat) (id : CoreId) (own : Bool) (a : Nat) (q : AtomReq) : State × RespKind :=
  let (old, marked) := s.remoteRead ctx id a (atomWidth q)
  if marked then (s, .deny .poison)
  else (s.remoteWrite ctx id own (bytesAt a (atomWidth q) (atomResult q old)) false, .reply (BitVec.ofNat 128 old))

/-- The pair of a key slot of a die; none for plain text. -/
def Die.slotKey (k : Die) (slot : Option Nat) : Nat := match slot with
  | some n => (cget k.keys n).toNat
  | none => 0
/-- Performs a near-memory atomic at a device physical address under a key slot of the owning die (R88, R90, R171). -/
def State.hbmAtomic (s : State) (d dpa : Nat) (slot : Option Nat) (q : AtomReq) : State × RespKind :=
  let key := (s.dieAt d).slotKey slot
  if cget s.modul.hbmPoison (dpa / 64) != 0 then (s, .deny .poison)
  else
    let old := readLE ((List.range (atomWidth q)).map (fun i => (dpa + i, hbmByte s.modul key (dpa + i)))) dpa (atomWidth q)
    ({ s with modul := hbmWriteUnit s.modul key (dpa / 64) (bytesAt dpa (atomWidth q) (atomResult q old)) false },
     .reply (BitVec.ofNat 128 old))

/-- A unit read for a task of another die: its bytes under the slot's key, low byte first, and its mark (R74, R88, R90). -/
def State.hbmUnit (s : State) (d unit : Nat) (slot : Option Nat) : BitVec 512 × Bool :=
  let key := (s.dieAt d).slotKey slot
  (BitVec.ofNat 512 ((List.range 64).foldr (fun i v => (hbmByte s.modul key (64 * unit + i)).toNat + 256 * v) 0), cget s.modul.hbmPoison unit != 0)

/-- A context holds a core for flags, messages and new effects: from its `ctx.load` to the issue of the `ctx.save` (R384, R388,
R423). -/
def Core.serves (c : Core) (ctx : Nat) : Bool := c.holds ctx && !c.saving

/-- Takes a message into an inbox, or answers RETRY (R178, R179). -/
def State.takeMsg (s : State) (ctx : Nat) (id : CoreId) (m : Message) : State × RespKind :=
  let c := s.coreAt id
  if !c.serves ctx || Config.inboxDepth ≤ c.inbox.length then (s, .retry)
  else (s.updCore id (fun c => { c with inbox := c.inbox ++ [m] }), .ack)

/-- Another message to the same core, or another POST to the same cluster, in one class (R287). -/
def sameQueue (p q : Packet) : Bool :=
  p.dst == q.dst && p.clu == q.clu && p.cls == q.cls && (match p.body, q.body with
    | .msg _, .msg _ => p.core == q.core
    | .post _ _ _ _, .post _ _ _ _ => true
    | _, _ => false)
/-- An effect issued before packet p for the same place and in its class has been answered with RETRY and is not accepted (R179, R287):
p waits for it. Packets keep the numbers of their issue. -/
def Die.earlierRetried (k : Die) (p : Packet) : Bool :=
  k.unacked.any (fun q => decide (q.uid < p.uid) && sameQueue q p && k.retried.any (fun r => r.1 = q.uid))
/-- The same for a packet whose source die is one of the module. -/
def State.heldInOrder (s : State) (p : Packet) : Bool := (s.dieIndex p.src).any (fun e => (s.dieAt e).earlierRetried p)
/-- The destination answers a packet with RETRY: from now on later ones of its queue wait for it (DESIGN CHOICE, log 89). -/
def State.noteRetry (s : State) (p : Packet) : State :=
  match s.dieIndex p.src with
  | none => s
  | some e => s.updDie e (fun k =>
    if k.unacked.any (fun q => q.uid = p.uid) && !k.retried.any (fun r => r.1 = p.uid) then { k with retried := k.retried ++ [(p.uid, false)] } else k)
/-- A message packet at its inbox (R178, R179): in issue order within its class. -/
def State.queueMsg (s : State) (ctx : Nat) (id : CoreId) (p : Packet) (m : Message) : State × RespKind :=
  if s.heldInOrder p then (s.noteRetry p, .retry)
  else match s.takeMsg ctx id m with
    | (s1, .retry) => (s1.noteRetry p, .retry)
    | r => r

/-- A CANCEL on its destination die (R301): in every cluster, the undispatched remote tasks of that job from that source die
are discarded, and later packets of it will be. -/
def State.cancelFrom (s : State) (d : Nat) (p : Packet) : State :=
  (List.range (s.ncl d)).foldl (fun s c =>
    match (s.clusterAt d c).ctxs.find? (fun x => x.fjob = p.fjob) with
    | none => s
    | some x =>
      let s1 := s.updCtx d c x.ctx (fun x => { x with
        cancelSrc := p.src :: x.cancelSrc.filter (fun n => n ≠ p.src)
        remoteSaved := dropTasks (fun t => t.srcDie = p.src) x.remoteSaved })
      (s1.stopTasks d c (fun t => t.remote && t.ctx = x.ctx && t.srcDie = p.src && !t.dispatched)).prune d c) s

/-- The answer of a packet that is discarded after a CANCEL (R301, DEDUCED, log 34): an atomic ends with CANCEL, and so does an HBM
read, which nothing is read for. -/
def discardAnswer : PktBody → RespKind
  | .atomic _ _ => .deny .cancel
  | .hbm _ _ _ => .deny .cancel
  | .hbmRead _ _ => .deny .cancel
  | _ => .ack
/-- A CANCEL of the packet's job and source die has been delivered on die d (R301). -/
def State.cancelledAt (s : State) (d : Nat) (p : Packet) : Bool :=
  (List.range (s.ncl d)).any (fun c => (s.clusterAt d c).ctxs.any (fun x => x.fjob = p.fjob && x.cancelSrc.contains p.src))
/-- An HBM access at the memory controller of die d (R74, R278); no other kind is one. -/
def State.hbmAccess (s : State) (d : Nat) (b : PktBody) : State × RespKind :=
  match b with
  | .hbm dpa slot q => s.hbmAtomic d dpa slot q
  | .hbmRead unit slot => let u := s.hbmUnit d unit slot; (s, .data u.1 u.2)
  | .hbmWrite unit slot ws bad => ({ s with modul := hbmWriteUnit s.modul ((s.dieAt d).slotKey slot) unit ws bad }, .ack)
  | _ => (s, .ack)

/-- Delivers a request packet other than a POST on die d of the module (R278): its outcome and its answer. A packet of
a job and source die that a CANCEL named is discarded (R301). -/
def State.deliver (s : State) (d : Nat) (p : Packet) : State × RespKind :=
  match p.body with
  | .hbm dpa slot q => if s.cancelledAt d p then (s, discardAnswer p.body) else s.hbmAccess d (.hbm dpa slot q)
  | .hbmRead u slot => if s.cancelledAt d p then (s, discardAnswer p.body) else s.hbmAccess d (.hbmRead u slot)
  | .hbmWrite u slot ws bad => if s.cancelledAt d p then (s, discardAnswer p.body) else s.hbmAccess d (.hbmWrite u slot ws bad)
  | .cancel => (s.cancelFrom d p, .ack)
  | body =>
    match s.packetCtx d p with
    | none => (s, .deny .winDenied)
    | some x =>
      let id : CoreId := ⟨d, p.clu, p.core⟩
      let own := p.src == s.dieNumber d && p.from_.core == id
      if x.cancelSrc.contains p.src then (s, discardAnswer body)
      else match grantEntry x (s.ctxGrant x.ctx) p with
        | none => (s, .deny .winDenied)
        | some w0 =>
          match body with
          | .write _ ws rais poison =>
            let s1 := s.remoteWrite x.ctx id own ws poison
            (if rais && bit w0 57 then s1.raiseFlag id x.ctx (BitVec.ofNat 6 (bits w0 56 51)) else s1, .ack)
          | .atomic a q => s.remoteAtomic x.ctx id own a q
          | .flag f v => (s.updFlag id x.ctx f (.add v), .ack)
          | .msg m => s.queueMsg x.ctx id p { payload := m, sender := senderWord p }
          | _ => (s, .deny .winDenied)

/-! ## Moving flows (R280) -/

/-- Adds a flow at the end of an adaptive input buffer. -/
def Die.push (k : Die) (now : Nat) (p : Port) (resp : Bool) (f : Flow) : Die :=
  if k.bufs.any (fun b => b.port == p && b.resp == resp) then
    let put := fun (b : InBuf) => { b with flows := b.flows ++ [f], since := if b.flows.isEmpty then now else b.since }
    { k with bufs := mapWhere (fun b => b.port == p && b.resp == resp) put k.bufs }
  else { k with bufs := { port := p, resp := resp, flows := [f], since := now, tripped := false } :: k.bufs }

/-- Sends the answer of a delivered packet from die d (R278). -/
def State.answer (s : State) (d : Nat) (p : Packet) (r : RespKind) : State :=
  s.updDie d (fun k => k.push s.sched.now .loc true (.response { uid := p.uid, src := p.dst, dst := p.src, kind := r }))

/-! ## Handing on (R279, R337) -/

/-- The key of a pair of die number and class (R279). -/
def pairKey (die : Nat) (cls : BitVec 4) : Nat := 16 * die + cls.toNat
def nextSeq (l : List (Nat × BitVec 16)) (die : Nat) (cls : BitVec 4) : BitVec 16 := (assoc l (pairKey die cls)).getD 0
/-- The pair of destination die and class has room for one more packet (R279). -/
def Die.pairRoom (k : Die) (die : Nat) (cls : BitVec 4) : Bool :=
  (k.unacked.filter (fun p => p.dst = die && p.cls = cls && !k.retried.contains (p.uid, true))).length < Config.pairOutstanding

/-- Gives a packet its sequence number and puts it into its router (R279). -/
def State.inject (s : State) (d : Nat) (p : Packet) : State :=
  s.updDie d (fun k =>
    let q := { p with seq := nextSeq k.seqs p.dst p.cls }
    let k1 := k.push s.sched.now .loc false (.request q)
    { k1 with
      seqs := assocSet k.seqs (pairKey p.dst p.cls) (q.seq + 1)
      unacked := k.unacked.filter (fun r => r.uid ≠ p.uid) ++ [q] })

/-- Where an effect goes: die number, cluster and core of a target word with HERE = 0 (R178). -/
structure Target where
  die : Nat
  clu : Nat
  core : Nat
  deriving DecidableEq, Repr

/-- The target a target word names; with HERE = 1 a die of the sender's module (R178). -/
def State.target (s : State) (w : Word) : Target :=
  { die := if bit w 18 then s.dieNumber (bits w 7 6) else bits w 17 6, clu := bits w 5 2, core := bits w 1 0 }

/-- Whether a target lies in the cluster of a core (R337). -/
def State.ownCluster (s : State) (id : CoreId) (t : Target) : Bool := t.die == s.dieNumber id.die && t.clu == id.clu

/-- The record of an effect that has not been performed (R341). -/
def addEffect (e : Effect) (c : Core) : Core := { c with effects := c.effects ++ [e] }

/-- Hands an effect on (R337): performed at once in the sender's own cluster, with its answer; else as a packet of the
sender's die. A message answered with RETRY in the own cluster waits to be sent again (R287). -/
def State.handOn (s : State) (src : PktSource) (t : Target) (cls : BitVec 4) (body : PktBody) : State × Option RespKind :=
  let id := src.core
  let uid := s.modul.nextUid
  let fjob := ((s.jobOf src.ctx).map (fun j => j.fjob)).getD 0
  let p : Packet := { uid := uid, src := s.dieNumber id.die, dst := t.die, fjob := fjob, clu := t.clu, core := t.core,
                      cls := cls, seq := 0, body := body, from_ := src }
  let s0 := { s with modul := { s.modul with nextUid := uid + 1 } }
  let outstanding := fun (s : State) =>
    s.updCore id (addEffect { uid := uid, ctx := src.ctx, cls := cls, die := t.die, clu := t.clu, core := t.core, task := src.task })
  if s.ownCluster id t then
    match s0.deliver id.die p with
    | (s1, .retry) =>
      (outstanding (s1.updDie id.die (fun k => { k with unacked := k.unacked ++ [p], retried := k.retried ++ [(uid, true)] })), none)
    | (s1, r) => (s1, some r)
  else
    let s1 := s0.updJob src.ctx (fun j => if j.sent.contains (id.die, t.die) then j else { j with sent := (id.die, t.die) :: j.sent })
    (outstanding (s1.inject id.die p), none)

/-- An earlier message or post to the same place in the class was answered with RETRY and is not accepted (R287). -/
def Die.retryBlocks (k : Die) (t : Target) (cls : BitVec 4) (same : PktBody → Nat → Bool) : Bool :=
  k.unacked.any (fun p => p.dst = t.die && p.clu = t.clu && p.cls = cls && same p.body p.core &&
    k.retried.any (fun r => r.1 = p.uid))

end Sys2Proof.Machine
end

