-- ==== Sys2Proof/Machine/Contexts.lean ====
section
/-! DEFINITION. Saving a context of a core and loading it again (R384–R396, R422). A save area is kept as structured
data, from which its pages and tags follow (DESIGN CHOICE, log 20). -/

namespace Sys2Proof.Machine

/-! ## What a core owns (R189, R195) -/

/-- Slots and tiles of a context that a core owns. -/
def CtxCluster.slotsOf (x : CtxCluster) (core : Nat) : List Nat := (x.slotOwner.filter (fun p => p.2 = core)).map Prod.fst
def CtxCluster.tilesOf (x : CtxCluster) (core : Nat) : List Nat := (x.tileOwner.filter (fun p => p.2 = core)).map Prod.fst
def Cluster.slot (k : Cluster) (n : Nat) : Slot := k.slots.toList.getD n {}
def Cluster.tile (k : Cluster) (n : Nat) : AccTile := k.tiles.toList.getD n {}
def Cluster.setSlot (k : Cluster) (n : Nat) (v : Slot) : Cluster :=
  { k with slots := Vector.ofFn (fun i => if i.val = n then v else k.slots[i]) }
def Cluster.setTile (k : Cluster) (n : Nat) (v : AccTile) : Cluster :=
  { k with tiles := Vector.ofFn (fun i => if i.val = n then v else k.tiles[i]) }
def Cluster.setSlots (k : Cluster) (l : List (Nat × Slot)) : Cluster := l.foldl (fun k p => k.setSlot p.1 p.2) k
def Cluster.setTiles (k : Cluster) (l : List (Nat × AccTile)) : Cluster := l.foldl (fun k p => k.setTile p.1 p.2) k

/-- Another core of the cluster holds the context (R384, R388). -/
def State.heldElsewhere (s : State) (id : CoreId) (ctx : Nat) : Bool :=
  (List.range 4).any (fun k => k != id.core && (s.coreAt ⟨id.die, id.clu, k⟩).holds ctx)
/-- A context holds a cluster while it holds a core of it (R384). -/
def State.holdsCluster (s : State) (d c ctx : Nat) : Bool := (List.range 4).any (fun k => (s.coreAt ⟨d, c, k⟩).holds ctx)

/-- A hard save has asked a task to stop (R388). -/
def State.beingSaved (s : State) (d c : Nat) (t : Task) : Bool :=
  (List.range 4).any (fun k =>
    let x := s.coreAt ⟨d, c, k⟩
    x.saving && x.holds t.ctx && (if t.remote then !s.heldElsewhere ⟨d, c, k⟩ t.ctx else t.core == k))

/-- The same for a task that core id posted. -/
def State.beingSavedAt (s : State) (id : CoreId) (t : Task) : Bool := s.beingSaved id.die id.clu t

/-! ## Yield (R385) -/

/-- No task of this core pending, engine idle, no stream bound, inbox empty, no buffer declared, no slot owned. A saved task that
waits for `resume` is pending. -/
def State.idleCore (s : State) : Bool :=
  let c := s.core
  let ctx := c.cid.toNat
  (s.cluster.pendingOf ctx c.id.core).isEmpty && c.restored.isEmpty && c.vec.run.isNone && c.streams.toList.all (fun q => !q.bound) &&
  c.inbox.isEmpty && c.bufs.isEmpty &&
  (match s.cluster.ctxAt ctx with
   | some x => (x.slotsOf c.id.core).isEmpty
   | none => true)

/-- The YIELD conditions (R385). -/
def State.quiet (s : State) : Bool := s.core.status.yp && s.idleCore

/-! ## Save (R386, R388) -/

/-- Values of the non-resident flags, by virtual flag (R387); zero for the others. -/
def savedFlags (c : Core) (m : Vector Word 8) : Vector (BitVec 32) 64 :=
  Vector.ofFn (fun i =>
    let (v, res, e) := flagEntry m (BitVec.ofNat 6 i.val)
    if v && !res then c.flags[e.toNat]'e.isLt else 0)

/-- The soft record (R386). -/
def softRecord (c : Core) (m : Vector Word 8) : SoftRecord :=
  { pc := pcOf c.cr.epc, regs := c.regs, fpctl := c.cr.fpctl, fpstat := c.cr.fpstat, fpen := c.cr.fpen,
    cpol := c.cr.cpol, tflog := c.cr.tflog, bkey := c.cr.bkey, bseq := c.cr.bseq, epc := c.cr.epc, flags := savedFlags c m }

/-- The flag map of the loaded context on the core. -/
def State.loadedMap (s : State) : Vector Word 8 :=
  ((s.cluster.ctxAt s.core.cid.toNat).map (fun x => (x.coreFlags s.core.id.core).fmap)).getD (Vector.replicate 8 0)

/-- The latest generation that firmware recorded of a core's save area, and the next one (R393, R395). -/
def Job.genOf (j : Job) (id : CoreId) : Nat := (assoc j.gens id).getD 0
def State.nextGen (s : State) (ctx : Nat) (id : CoreId) : Nat := ((s.jobOf ctx).map (fun j => j.genOf id)).getD 0 + 1

/-- Puts a save area in place with its tags, as the checkpoint too when the PF enabled checkpoints (R391); the checkpoint holds the
context's work queues (R366). -/
def State.putSave (s : State) (ctx : Nat) (id : CoreId) (a : SaveArea) : State :=
  s.updJob ctx (fun j =>
    let b := a.retag j.saveKey
    let j1 := { j with saves := assocSet j.saves id b, gens := assocSet j.gens id a.gen }
    if (s.fnAt j.fn).settings.checkpoints then { j1 with checkpoints := assocSet j.checkpoints id b, checkQueues := some j.queues } else j1)

/-- CV, YP and IPP are cleared at the end of a save (R396). -/
def Core.unload (c : Core) : Core :=
  { c with status := { c.status with cv := false, yp := false, ipp := false }, saving := false, aside := none, early := 0, stale := [] }

/-- `ctx.save.soft` (R386). -/
def State.saveSoft (s : State) : State :=
  let ctx := s.core.cid.toNat
  let id := s.core.id
  let own := (s.cluster.ctxAt ctx).getD { ctx := ctx, fjob := 0 }
  let s1 := s.putSave ctx id { ctx := ctx, core := id, gen := s.nextGen ctx id, soft := softRecord s.core s.loadedMap, hard := none, corrupt := false
                               ownSlots := own.slotsOf id.core, ownTiles := own.tilesOf id.core }
  { s1 with core := s1.core.unload }

/-- Tasks of a save: the core's own, and the remote partition's when no other core of the cluster holds the context
(R388). -/
def State.savedTask (s : State) (last : Bool) (t : Task) : Bool :=
  t.ctx == s.core.cid.toNat && ((!t.remote && t.core == s.core.id.core) || (last && t.remote))

/-- A task is at its stop point (R326): not on an engine, and not COMPLETE with its flag still to raise; a copy task between chunks (R124); an `rpost` task that waits to
resend (R302). A vector task leaves its engine at a kernel-iteration boundary (R226);
shaper, matrix and accumulator tasks finish (R136, R202), and so does an `rpost` task whose packet has been accepted. -/
def State.atStop (s : State) (t : Task) : Bool :=
  if t.phase == .complete then false
  else if !t.dispatched then true
  else match t.op with
    | .copy _ _ => t.copyAtBoundary
    | .vec _ => match t.resume with
      | .iter _ _ _ _ _ => s.core.vec.run.isNone
      | _ => false
    | .rpost _ _ => s.die.unacked.any (fun p => p.from_.task == some t.id && p.from_.core == taskCore s.core.id.die s.core.id.clu t && s.die.retried.contains (p.uid, true))
    | _ => false

/-- Every stop of a hard save is reached and every OUT of the context on this core is zero (R302, R388). -/
def State.stopped (s : State) : Bool :=
  let last := !s.heldElsewhere s.core.id s.core.cid.toNat
  s.cluster.tasks.all (fun t => !s.savedTask last t || s.atStop t) &&
  s.die.unacked.all (fun p => p.from_.pkt.isSome || p.from_.core != s.core.id || p.from_.ctx != s.core.cid.toNat || s.die.retried.contains (p.uid, true))

/-- Takes tasks out of the Atelier without releasing their dependents (R326). -/
def Cluster.takeOut (k : Cluster) (ids : List Nat) : Cluster :=
  let clear := fun (e : Option Nat) => if e.any (fun i => ids.contains i) then none else e
  { k with
    tasks := k.tasks.filter (fun t => !ids.contains t.id)
    copy0 := clear k.copy0, copy1 := clear k.copy1, shaper := clear k.shaper, canvasTask := clear k.canvasTask
    fabric := k.fabric.filter (fun i => !ids.contains i) }

/-- `ctx.save.hard` once every stop is reached (R388). Tasks that a load brought back and no `resume` has let in are saved again. A
post that waits to be sent again leaves the fabric's hands: the restored task sends it (R302). -/
def State.saveHard (s : State) (sp : Bool) : State :=
  let c := s.core
  let ctx := c.cid.toNat
  let id := c.id
  let k := s.cluster
  let last := !s.heldElsewhere id ctx
  let own := mergeTasks (k.tasks.filter (fun t => s.savedTask false t)) c.restored
  let rem := if last then k.tasks.filter (fun t => t.ctx = ctx && t.remote) else []
  let slots := ((k.ctxAt ctx).map (fun x => x.slotsOf id.core)).getD []
  let tiles := ((k.ctxAt ctx).map (fun x => x.tilesOf id.core)).getD []
  let owned := ((k.ctxAt ctx).map (fun x => x.slotOwner.map Prod.fst)).getD []
  let free := ((k.ctxAt ctx).map (fun x => (List.range 32).filter (fun n => x.palGrant.getLsbD n && !owned.contains n))).getD []
  let hard : HardRecord :=
    { vec := { c.vec with run := none }, streams := c.streams, inbox := c.inbox, bufs := c.bufs, builder := c.builder,
      windows := c.windows, directDen := c.directDen, tasks := own,
      tiles := tiles.map (fun n => (n, k.tile n)), slots := slots.map (fun n => (n, k.slot n)),
      image := if sp then some (ctake c.spad c.spbase c.grant, ctake c.poison (c.spbase / 64) (c.grant / 64)) else none
      grant := c.grant }
  let part : ClusterPart := { tasks := mergeTasks (((k.ctxAt ctx).map (fun x => x.remoteSaved)).getD []) rem, slots := free.map (fun n => (n, k.slot n)) }
  let s1 := s.putSave ctx id { ctx := ctx, core := id, gen := s.nextGen ctx id, soft := softRecord c s.loadedMap, hard := some hard
                               part := if last then some part else none, corrupt := false, ownSlots := slots, ownTiles := tiles }
  let s2 := s1.dropPosts id (own.map (fun t => t.id))
  let k1 := s2.cluster.takeOut ((own ++ rem).map (fun t => t.id))
  let k2 := if last then k1.updCtx ctx (fun x => { x with remoteSaved := part.tasks, freeSlots := part.slots }) else k1
  { s2 with cluster := k2, core := { s2.core.unload with vec := { s2.core.vec with run := none }, restored := [] } }

/-! ## Load (R386, R387, R395, R396) -/

/-- Flags after a load (R387): the pending pair decides a non-resident flag, and at a context's first load on a core that another one held
every flag (R433; DEDUCED, log 95). -/
def loadFlags (c : Core) (g : CoreFlags) (saved : Vector (BitVec 32) 64) : Vector (BitVec 32) 64 :=
  (List.range 64).foldl (fun fl i =>
    let (v, res, e) := flagEntry g.fmap (BitVec.ofNat 6 i)
    if v && (!res || g.first) then
      let pv := g.pendV.toList.getD i 0
      fl.set e.toNat (if g.pendS.getLsbD i then pv else saved.toList.getD i 0 + pv) e.isLt
    else fl) c.flags

/-- What loads with either kind of save: registers set aside, soft control registers, flags, held conditions, context
number and placement, the cycle count (R387, R396, R422). -/
def Core.loadSoftPart (c : Core) (a : SoftRecord) (g : CoreFlags) (ctx pb grant now : Nat) : Core :=
  { c with
    aside := some a
    flags := loadFlags c g a.flags
    cr := { c.cr with fpctl := a.fpctl, fpstat := a.fpstat ||| g.held, fpen := a.fpen, cpol := a.cpol, tflog := a.tflog,
                      bkey := a.bkey, bseq := a.bseq, epc := a.epc }
    cid := BitVec.ofNat 7 ctx, spbase := pb, grant := grant, cycStart := now, early := 0, stale := []
    status := { c.status with cv := true } }

/-- What a context's core holds after a soft save is loaded (R386). -/
def Core.loadFresh (c : Core) : Core :=
  { c with bufs := [], builder := none, streams := Vector.replicate 8 {}, inbox := [], windows := Vector.replicate 16 {},
           directDen := false, vec := {}, restored := [], early := 0, stale := [] }

/-- What it holds after a hard save is loaded (R388); the spilled image returns to the placement. -/
def Core.loadHard (c : Core) (h : HardRecord) : Core :=
  let c1 := { c with bufs := h.bufs, builder := h.builder, streams := h.streams, inbox := h.inbox, windows := h.windows,
                     directDen := h.directDen, vec := h.vec, restored := h.tasks }
  match h.image with
  | some (m, marks) => { c1 with spad := cput c1.spad c1.spbase c1.grant m, poison := cput c1.poison (c1.spbase / 64) (c1.grant / 64) marks }
  | none => c1

/-- Counts of outstanding effects of a context on a core, from the packets its die has not had an answer to (R288). -/
def State.recount (s : State) : State :=
  let mine := s.die.unacked.filter (fun p => p.from_.core = s.core.id && p.from_.ctx = s.core.cid.toNat && p.from_.task.isNone)
  let direct := mine.filter (fun p => p.from_.window.isNone && !s.die.retried.contains (p.uid, true))
  let msgs := mine.filter (fun p => match p.body with | .msg _ => true | _ => false)
  { s with core := { s.core with
      windows := Vector.ofFn (fun i => { s.core.windows[i] with out :=
        (s.die.unacked.filter (fun p => p.from_.core = s.core.id && p.from_.ctx = s.core.cid.toNat && p.from_.window = some i.val)).length })
      directOut := (direct.filter (fun p => match p.body with | .flag _ _ => true | .msg _ => true | _ => false)).length
      msgsOut := msgs.map (fun p => p.uid) } }

/-- A saved task as it re-enters (R326): DISPATCHED becomes READY; a wait for a task that has ended is dropped. -/
def reenter (pending : List Nat) (t : Task) : Task :=
  let w := t.waits.filter (fun i => pending.contains i)
  { t with waits := w, phase := if w.isEmpty then .ready else .waiting }
/-- The cluster part of a context comes back with its first load there (R388, R396): the free slots, and the remote partition's entries
in their age. -/
def Cluster.loadPart (k : Cluster) (ctx : Nat) (pending : List Nat) : Cluster :=
  match k.ctxAt ctx with
  | none => k
  | some x =>
    let k1 := k.setSlots x.freeSlots
    { (k1.updCtx ctx (fun x => { x with remoteSaved := [], freeSlots := [] })) with tasks := mergeTasks (x.remoteSaved.map (reenter pending)) k1.tasks }
/-- Slots of a palette grant (R189). -/
def CtxCluster.grantSlots (x : CtxCluster) : List Nat := (List.range 32).filter (fun n => x.palGrant.getLsbD n)

/-- The tile state of R194: zero, F32, both checks clear. -/
def freshTile : AccTile := {}

/-- A launch or a restore starts the canvas as if the remote requester had held the last lease (R210). -/
def Canvas.restart (v : Canvas) : Canvas := { v with holder := none, last := 4, done := 0, leaseStart := none, ending := false }
/-- `ctx.load` of an area that verifies (R396). The context's first load in the cluster brings back the cluster part. -/
def State.loadCtx (s : State) (ctx : Nat) (a : SaveArea) : State :=
  let id := s.core.id
  let first := !s.holdsCluster id.die id.clu ctx
  let j := s.jobOf ctx
  let x := s.cluster.ctxAt ctx
  let g := (x.map (fun x => x.coreFlags id.core)).getD {}
  let grant := (j.map (fun j => j.grant)).getD 0
  let c1 := s.core.loadSoftPart a.soft g ctx (s.placement ctx id) grant s.sched.now
  let tiles := (x.map (fun x => x.tilesOf id.core)).getD []
  let granted := (x.map CtxCluster.grantSlots).getD []
  let (c2, k1) := match a.hard with
    | some h => (c1.loadHard h, (s.cluster.setTiles h.tiles).setSlots h.slots)
    | none => (c1.loadFresh, (s.cluster.setTiles (tiles.map (fun n => (n, freshTile)))).setSlots (granted.map (fun n => (n, {}))))
  let k2 := if first then k1.loadPart ctx (s.pendingIds id.die id.clu) else k1
  let clear := fun (g : CoreFlags) => { g with pendS := 0, pendV := Vector.replicate 64 0, held := 0, first := false }
  let k3 := k2.updCtx ctx (fun x => x.updFlags id.core clear)
  ({ s with core := c2, cluster := { k3 with canvas := { k3.canvas.restart with cold := true } } }).recount

/-- `resume` (R396, R422): the registers set aside take their places, the saved PC is next, saved tasks re-enter. A program
that has ended stays ended. -/
def State.resumeCtx (s : State) (a : SoftRecord) : State :=
  let ctx := s.core.cid.toNat
  let pending := s.pendingIds s.core.id.die s.core.id.clu
  let ended := (s.jobOf ctx).any (fun j => j.ended.contains s.core.id)
  { s with
    core := { s.core with
      regs := a.regs, pc := a.pc, aside := none, restored := []
      run := if ended then .exited else .running
      status := { s.core.status with mode := false, td := false, ie := s.core.status.pie } }
    cluster := { s.cluster with tasks := mergeTasks (s.core.restored.map (reenter pending)) s.cluster.tasks } }

end Sys2Proof.Machine
end

