-- ==== Sys2Proof/Machine/Ops.lean ====
section
/-! DEFINITION. The shared operations of instructions: how one ends (result, stall, fault), taking an exception and
returning from it (R377, R378), containment at core, job and tenant level (R371, R379, R380), and what a failing packet
does to its queue (R355, R357, R360, R364). -/

namespace Sys2Proof.Machine

abbrev Out := Host.Outcome State Fault Refusal

/-! ## Taking an exception and returning from it -/

/-- The word of `CR_CAUSE` (R375). -/
def causeWord (int tsk : Bool) (tag : BitVec 16) (idx : Nat) (tcode : BitVec 8) (c : Cause) : Word :=
  BitVec.ofNat 64 (bitOf int * 2 ^ 63 + bitOf tsk * 2 ^ 62 + tag.toNat * 2 ^ 32 + idx % 256 * 2 ^ 24 + tcode.toNat * 2 ^ 8 + causeCode c)

/-- Taking an exception (R377): the return address and the record are saved, PM and PIE keep MODE and IE, interrupts are
off, TD and S mode are set, and the handler's address is next. A stall is abandoned (R168). -/
def Core.trapEntry (c : Core) (epc : BitVec 32) (cause addr info : Word) : Core :=
  { c with
    cr := { c.cr with epc := epc.setWidth 64, cause := cause, faddr := addr, finfo := info }
    status := { c.status with pm := c.status.mode, pie := c.status.ie, ie := false, td := true, mode := true }
    pc := c.cr.tvec.setWidth 32, stall := none, issued := none, run := .running }

/-- The program of the loaded context has ended on this core. -/
def State.programEnded (s : State) : Bool :=
  s.core.status.cv && (s.jobOf s.core.cid.toNat).any (fun j => j.ended.contains s.core.id)

/-- `eret` (R378): PC := CR_EPC, MODE := PM, IE := PIE, TD := 0. A program that has ended issues nothing more. -/
def State.trapReturn (s : State) : State :=
  { s with core := { s.core with
      pc := pcOf s.core.cr.epc
      status := { s.core.status with mode := s.core.status.pm, ie := s.core.status.pie, td := false }
      run := if s.programEnded && !s.core.status.pm then .exited else .running } }

/-! ## Completion signals (R364) -/

/-- The value the command processor holds for a signal. -/
def State.signalValue (s : State) (fn iova : Nat) : Word :=
  ((s.host.signals.find? (fun r => r.fn = fn && r.iova = iova)).map (fun r => r.value)).getD (s.hostD fn iova)
/-- The command processor begins to serve a signal that a packet or a signal table names. -/
def State.serveSignal (s : State) (fn iova : Nat) : State :=
  if iova = 0 ∨ s.host.signals.any (fun r => r.fn = fn && r.iova = iova) then s
  else { s with host := { s.host with signals := { fn := fn, iova := iova, value := s.hostD fn iova, err := s.hostD fn (iova + 8) } :: s.host.signals } }
/-- Sets the error field of a signal while it is zero. -/
def State.signalError (s : State) (fn iova status cause : Nat) : State :=
  let s := s.serveSignal fn iova
  if s.host.signals.any (fun r => r.fn = fn && r.iova = iova && r.err = 0) then
    let e : Word := BitVec.ofNat 64 (status + 65536 * cause)
    let set := mapWhere (fun (r : SignalRec) => r.fn = fn && r.iova = iova) (fun r => { r with err := e }) s.host.signals
    { s with host := { s.host with signals := set } }.hostWriteD fn (iova + 8) e
  else s
/-- Applies one subtraction: value := trunc(value − amount, 64), written as one doubleword. -/
def State.subtract (s : State) (fn iova : Nat) (amount : Word) : State :=
  let s := s.serveSignal fn iova
  let v := s.signalValue fn iova - amount
  let set := mapWhere (fun (r : SignalRec) => r.fn = fn && r.iova = iova) (fun r => { r with value := v }) s.host.signals
  { s with host := { s.host with signals := set } }.hostWriteD fn iova v
/-- Applies the subtractions that have arrived, in order. -/
def State.drainSubs (s : State) : State :=
  s.host.subs.foldl (fun s b => s.subtract b.fn b.iova b.amount) { s with host := { s.host with subs := [] } }

/-! ## Packets and their queue -/

/-- Doubleword n of a packet. -/
def QPacket.dw (p : QPacket) (n : Nat) : Word := p.dws.getD n 0
/-- Writes a queue's status record: 16 bytes in one posted write (R355). -/
def State.writeStatus (s : State) (fn q : Nat) : State :=
  let k := s.queueAt fn q
  s.hostWrite fn (bytesAt k.stat.toNat 16 (k.epkt ++ k.ecode ++ (0 : BitVec 32) ++ k.ridx).toNat)
/-- The writes of the command processor that the host port has not sent serve packet idx of a queue too: they go after that packet's own
HOST writes (R360). -/
def State.behind (s : State) (n : Nat) (p : Nat × Nat × Nat) : State :=
  { s with host := { s.host with posted := mapWhere (fun w => decide (n ≤ w.uid)) (fun w => { w with pkt := some p }) s.host.posted } }
/-- The signal and the vector of a packet of queue q that ends (R360): its error field, the subtraction, its vector. The vector's message
is a posted write behind that of the signal (R358). -/
def State.signalPacket (s : State) (fn q : Nat) (p : QPacket) (status cause : Nat) : State :=
  let sig := (p.dw 1).toNat
  let s1 := if sig = 0 then s.drainSubs
    else
      let s0 := if status = 0 then s else s.signalError fn sig status cause
      s0.drainSubs.subtract fn sig 1
  let s2 := if bit (p.dw 0) 5 then s1.toPort { uid := 0, fn := fn, bytes := [], vec := some (bits (p.dw 0) 26 16) } else s1
  s2.behind s.modul.nextUid (fn, q, p.idx)
/-- The signals a packet names: its completion signal, a SIGNAL's target, a BARRIER_AND's list (R359). -/
def QPacket.names (p : QPacket) : List Nat :=
  (p.dw 1).toNat :: (match bits (p.dw 0) 3 1 with
    | 2 => [(p.dw 2).toNat]
    | 3 => [2, 3, 4, 5, 6].map (fun i => (p.dw i).toNat)
    | _ => [])
/-- The command processor serves a signal while a packet, a job or a subtraction names it (R364). -/
def State.signalServed (s : State) (r : SignalRec) : Bool :=
  s.host.functions.any (fun f => f.fn = r.fn && f.queues.any (fun k => k.pkts.any (fun p => p.names.contains r.iova))) ||
  s.modul.jobs.any (fun j => j.fn = r.fn && j.signals.contains r.iova) ||
  s.host.subs.any (fun b => b.fn = r.fn && b.iova = r.iova)
def State.releaseSignals (s : State) : State := { s with host := { s.host with signals := s.host.signals.filter s.signalServed } }
/-- Takes a packet out of its queue. -/
def State.dropPacket (s : State) (fn q idx : Nat) : State :=
  (s.updQueue fn q (fun k => { k with pkts := k.pkts.filter (fun p => p.idx ≠ idx) })).releaseSignals
/-- The queue enters ERROR (R355, R357): fetched packets that have not started fail with status 15, in index order; the packet that
fails by itself, when one does, is not among them. -/
def State.queueError (s : State) (fn q status idx : Nat) (self : Bool) : State :=
  if (s.queueAt fn q).state = .error then s
  else
    let s1 := s.updQueue fn q (fun k => { k with state := .error, ecode := BitVec.ofNat 32 status, epkt := BitVec.ofNat 32 idx })
    let s2 := s1.writeStatus fn q
    ((s2.queueAt fn q).pkts.filter (fun p => !p.started && !(self && p.idx == idx))).foldl
      (fun s p => (s.signalPacket fn q p 15 0).dropPacket fn q p.idx) s2
/-- A failing packet (R360). -/
def State.failPacket (s : State) (fn q : Nat) (p : QPacket) (status cause : Nat) : State :=
  ((s.signalPacket fn q p status cause).queueError fn q status p.idx true).dropPacket fn q p.idx

/-! ## Cancellation and containment (R301, R312, R327, R379) -/

/-- A save with its tasks discarded (R327). -/
def SaveArea.noTasks (a : SaveArea) : SaveArea :=
  { a with hard := a.hard.map (fun h => { h with tasks := [] }), part := a.part.map (fun p => { p with tasks := [] }) }
/-- Discards the tasks of a context that stand in a core's save, or wait there for `resume` (R327). -/
def State.dropSaved (s : State) (ctx : Nat) (id : CoreId) : State :=
  (s.updSave ctx id SaveArea.noTasks).updCore id (fun c => { c with restored := dropTasks (fun t => t.ctx = ctx) c.restored })
/-- Cancels a context on a cluster: its cancel point passes, its tasks are discarded or stopped (R327). -/
def State.cancelOn (s : State) (ctx : Nat) (d c : Nat) : State :=
  let s1 := s.updCtx d c ctx (fun x => { x with cancelled := true, remoteSaved := [] })
  let s2 := (List.range 4).foldl (fun s k => s.dropSaved ctx ⟨d, c, k⟩) s1
  s2.stopTasks d c (fun t => t.ctx = ctx)

/-- The clusters of a job. -/
def Job.clusters (j : Job) : List (Nat × Nat) := (j.cores.map (fun id => (id.die, id.clu))).eraseDups

/-- CANCELs that wait go out while their pairs have room (R279, R301). -/
def State.flushCancels (s : State) (d : Nat) : State :=
  (s.dieAt d).cancels.foldl (fun s p =>
    if (s.dieAt d).pairRoom p.dst p.cls then (s.updDie d (fun k => { k with cancels := k.cancels.filter (fun q => q.uid ≠ p.uid) })).inject d p else s) s
/-- Sends a CANCEL in every class to every die a source die of the job has sent a request to (R301). -/
def State.sendCancels (s : State) (j : Job) : State :=
  j.sent.foldl (fun s (d, dst) =>
    (List.range 16).foldl (fun s cls =>
      let uid := s.modul.nextUid
      let p : Packet := { uid := uid, src := s.dieNumber d, dst := dst, fjob := j.fjob, clu := 0, core := 0,
                          cls := BitVec.ofNat 4 cls, seq := 0, body := .cancel,
                          from_ := { core := ⟨d, 0, 0⟩, ctx := j.ctx, window := none, task := none } }
      (({ s with modul := { s.modul with nextUid := uid + 1 } }).updDie d (fun k => { k with cancels := k.cancels ++ [p] })).flushCancels d) s) s

/-- The core issues nothing more. -/
def Core.halt (c : Core) : Core := { c with run := .exited, stall := none, issued := none, saving := false, sketch := none, await := none }
/-- A core's program ends (R365, R379): it issues nothing more; `ended` names the cores that are done. -/
def State.endProgram (s : State) (ctx : Nat) (id : CoreId) : State :=
  let s1 := s.updJob ctx (fun j => if j.ended.contains id then j else { j with ended := j.ended ++ [id] })
  if (s1.coreAt id).holds ctx then
    s1.updCore id (fun c => if c.sMode && c.status.td then c else c.halt)
  else s1

/-- The first report of a job stands (R379). -/
def State.reportJob (s : State) (ctx : Nat) (cause : Cause) : State :=
  s.updJob ctx (fun j => match j.report with
    | none => { j with report := some (12, cause) }
    | some _ => j)

/-- KILL_SELF of the core program (R379): it ends as by exit, its pending tasks are cancelled, the job continues. A handler that runs on
the core goes on, unless the fault is its own (`own`). -/
def State.killCore (s : State) (ctx : Nat) (id : CoreId) (cause : Cause) (own : Bool) : State :=
  let s1 := (s.endProgram ctx id).reportJob ctx cause
  (((s1.dropSaved ctx id).stopCoreTasks id ctx).prune id.die id.clu).updCore id (fun c => if c.holds ctx && own then c.halt else c)

/-- KILL_SELF of the job (R379): cancelled on every cluster; its LAUNCH reports status 12 and the cause. -/
def State.killJob (s : State) (ctx : Nat) (cause : Cause) : State :=
  match s.jobOf ctx with
  | none => s
  | some j =>
    if j.killed then s
    else
      let s1 := (s.reportJob ctx cause).updJob ctx (fun j => { j with killed := true })
      let s2 := j.clusters.foldl (fun s k => s.cancelOn ctx k.1 k.2) s1
      s2.sendCancels j

/-- Every queue of a function: those below QN, and those it has used. -/
def Function.queueNumbers (f : Function) : List Nat := (List.range f.qn ++ f.queues.map (fun k => k.q)).eraseDups
/-- A kill of the tenant puts a queue into ERROR with ECODE 12, from every state (R379; DEDUCED, log 96): the packet it names, and whether a
queue that was never given a status record writes one, is the model's choice. -/
def State.tenantError (s : State) (fn q : Nat) : State :=
  let k := s.queueAt fn q
  let idx := (k.pkts.head?.map (fun p => p.idx)).getD k.ridx.toNat
  match k.state with
  | .error => (s.updQueue fn q (fun k => { k with ecode := 12 })).writeStatus fn q
  | .disabled =>
    let s1 := s.updQueue fn q (fun k => { k with state := .error, ecode := 12, epkt := BitVec.ofNat 32 idx })
    if k.stat = 0 then s1 else s1.writeStatus fn q
  | _ => s.queueError fn q 12 idx false
/-- A tenant's kill (R379): every job of the function is killed and every queue of it enters ERROR with ECODE 12. -/
def State.killTenant (s : State) (fn : Nat) (cause : Cause) : State :=
  let s1 := (s.modul.jobs.filter (fun j => j.fn = fn)).foldl (fun s j => s.killJob j.ctx cause) s
  ((s1.fnAt fn).queueNumbers).foldl (fun s q => s.tenantError fn q) s1

/-- A fault offered to the tenant (R379): every policy acts as KILL_SELF, KILL_PARENT also disables the function. -/
def State.offerTenant (s : State) (fn : Nat) (cause : Cause) : State :=
  let s1 := s.killTenant fn cause
  if (s.fnAt fn).settings.tenantPolicy = 3 then s1.updFn fn (fun f => { f with disabled := true }) else s1

/-- Takes away the tasks that a core posted for a context, those that have stopped for a save that failed among them (R392), with their
faults and their packets that wait to be sent again (R344); and the context off the core if it holds it: what a checkpoint replaces (R391). -/
def State.takeOff (s : State) (ctx : Nat) (id : CoreId) : State :=
  let ids := ((s.clusterAt id.die id.clu).tasksOf ctx id.core).map (fun t => t.id)
  let s1 := (s.dropPosts id ids).updCluster id.die id.clu (fun k => k.takeOut ids)
  s1.updCore id (fun c =>
    let c1 := { c with escalated := c.escalated.filter (fun e => e.ctx ≠ ctx), vec := { c.vec with run := c.vec.run.filter (fun r => r.task.ctx ≠ ctx) } }
    if c.holds ctx then { c1.unload with stall := none, issued := none, await := none, sketch := none, restored := [] } else c1)
/-- The numbers of a list are owned by core k, and nothing else is (R189, R194). -/
def giveTo (owner : List (Nat × Nat)) (ns : List Nat) (k : Nat) : List (Nat × Nat) :=
  owner.filter (fun p => p.2 ≠ k && !ns.contains p.1) ++ ns.map (fun n => (n, k))
/-- Puts a checkpoint's area back as the context's save: with its generation, what the core owned, and the cluster part it holds in place
of what the cluster has of the remote partition and of the free slots (DEDUCED, log 88). -/
def State.putBack (s : State) (ctx : Nat) (id : CoreId) (a : SaveArea) : State :=
  let s0 := s.updJob ctx (fun j => { j with saves := assocSet j.saves id a, gens := assocSet j.gens id a.gen })
  let s1 := s0.updCtx id.die id.clu ctx (fun x => { x with slotOwner := giveTo x.slotOwner a.ownSlots id.core, tileOwner := giveTo x.tileOwner a.ownTiles id.core })
  match a.part with
  | none => s1
  | some p => s1.updCluster id.die id.clu (fun k =>
    (k.takeOut ((k.tasks.filter (fun t => t.ctx = ctx && t.remote)).map (fun t => t.id))).updCtx ctx (fun x => { x with remoteSaved := p.tasks, freeSlots := p.slots }))
/-- Loads the context on a core again and lets it go on from its checkpoint. -/
def State.goOn (s : State) (ctx : Nat) (id : CoreId) (a : SaveArea) : State :=
  (((s.actAs id).loadCtx ctx a).resumeCtx a.soft).actAs s.core.id
/-- Restores a job's checkpoint (R366, R391): saved state only, the work queues with it; memory effects stand. Cores that held the context
hold it again and go on from their checkpoints. -/
def State.restoreJob (s : State) (j : Job) : State :=
  let held := j.checkpoints.filter (fun p => (s.coreAt p.1).holds j.ctx)
  let s1 := j.checkpoints.foldl (fun s p => s.takeOff j.ctx p.1) s
  let s2 := j.checkpoints.foldl (fun s p => s.putBack j.ctx p.1 p.2) s1
  let s3 := s2.updJob j.ctx (fun j => { j with corrupt := false, jobCount := j.jobCount - 1, queues := j.checkQueues.getD j.queues })
  let s4 := j.clusters.foldl (fun s k => s.prune k.1 k.2) s3
  held.foldl (fun s p => s.goOn j.ctx p.1 p.2) s4

/-- A fault offered to a job (R371, R379, R380); `own` when it is one of the core's own instruction. -/
def State.offerJob (s : State) (ctx : Nat) (id : CoreId) (cause : Cause) (own : Bool) : State :=
  match s.jobOf ctx with
  | none => s.updCore id Core.halt
  | some j =>
    if j.killed then s.killCore ctx id cause own
    else match (s.fnAt j.fn).settings.jobPolicy.toNat with
      | 0 => s.killCore ctx id cause own
      | 1 =>
        if j.jobCount = 0 ∨ j.checkpoints.isEmpty then (s.killCore ctx id cause own).killJob ctx cause
        else s.restoreJob j
      | 2 => (s.killCore ctx id cause own).killJob ctx cause
      | _ => (s.killCore ctx id cause own).offerTenant j.fn cause

/-! ## Faults of an instruction (R371, R379) -/

/-- The address of the instruction's word. -/
def Core.at_ (c : Core) : Word := c.pc.setWidth 64

/-- The acting core's fault at job level: with no context loaded there is no job and the core stops (DEDUCED, log 25). -/
def State.offerJobHere (s : State) (cause : Cause) : State :=
  if s.core.status.cv then s.offerJob s.core.cid.toNat s.core.id cause true
  else { s with core := { s.core with run := .exited, stall := none, issued := none } }

/-- KILL_SELF of the acting core's program. -/
def State.killHere (s : State) (cause : Cause) : State :=
  if s.core.status.cv then s.killCore s.core.cid.toNat s.core.id cause true
  else { s with core := { s.core with run := .exited, stall := none, issued := none } }

/-- The core level's policy and count in `CR_CPOL` (R381). -/
def CtlRegs.coreCount (r : CtlRegs) : Nat := r.cpol.toNat % 64
def CtlRegs.corePolicy (r : CtlRegs) : Nat := r.cpol.toNat / 64 % 4
/-- Spends one count of the core level. -/
def Core.spend (c : Core) : Core := { c with cr := { c.cr with cpol := c.cr.cpol - 1 } }

/-- A fault of an instruction: at job level inside a handler, else by the core policy. RETRY enters the handler with the
record `f`, spending one count. -/
def State.takeFault (s : State) (f : FaultInfo) : State :=
  let c := { s.core with stall := none, issued := none }
  let s := { s with core := c }
  if c.status.td then s.offerJobHere f.cause
  else match c.cr.corePolicy with
    | 0 => s.advance
    | 1 =>
      if c.cr.tvec = 0 then s.offerJobHere f.cause
      else if c.cr.coreCount = 0 then s.killHere f.cause
      else { s with core := c.spend.trapEntry c.pc (causeWord false false 0 f.idx f.tcode f.cause) (f.addr.getD c.at_) f.info }
    | 2 => s.killHere f.cause
    | _ => s.offerJobHere f.cause

/-! ## How an instruction ends -/

/-- The next state. -/
def next (s : State) : Out := .next s
/-- The instruction is finished: any stall of it is over. -/
def State.settled (s : State) : State := { s with core := { s.core with stall := none, issued := none } }
/-- The instruction stalls (R168): nothing has happened; it issues again. -/
def State.stalled (s : State) (w : Wait) : State := { s with core := { s.core with stall := some w } }
/-- The instruction stalls on what it took down when it issued. -/
def State.stalledOn (s : State) (w : Wait) (i : Issued) : State := { s with core := { s.core with stall := some w, issued := some i } }

/-- Ends an instruction of the acting core: its state, its stall, or its fault. -/
def ends (s : State) (r : Res State) : Out :=
  match r with
  | .ok t => .next t.settled
  | .fault f => .next (s.takeFault f)
  | .stall w => .next (s.stalled w)

/-- Ends an instruction that writes sd and goes on (R48). -/
def wrote (s : State) (d : Reg) (v : Word) : Out := .next ((s.wr d v).advance).settled
/-- Ends an instruction that writes sd, sets sticky bits, and goes on (R141). -/
def wroteSticky (s : State) (d : Reg) (v : Word) (f : Sticky) : Out := .next (((s.wr d v).sticky f).advance).settled
/-- Ends an instruction that only goes on. -/
def passed (s : State) : Out := .next s.advance.settled
/-- An event that does not come about in this state (DESIGN CHOICE, log 4). -/
def absent (event : String) : Out := .refused (.notEnabled event)

/-! ## Privilege (R396, R438) -/

/-- Faults with PRIV unless a context is loaded (R438). -/
def needCtx (s : State) : Res Unit := faultIf (!s.core.status.cv) .priv
/-- Faults with PRIV in U mode. -/
def needS (s : State) : Res Unit := faultIf (!s.core.sMode) .priv

end Sys2Proof.Machine
end

