-- ==== Sys2Proof/Machine/Operands.lean ====
section
/-! DEFINITION. Operand forms: immediates (R54), the effective address and the extension of format M (R162–R164),
register pairs (R169, R179), and the type codes of scalar floating instructions (R151, R154). -/

namespace Sys2Proof.Machine

/-- A signed immediate field widened to 64 bits (R54). -/
def sx {n : Nat} (i : BitVec n) : Word := i.signExtend 64

/-- The effective address of format M: trunc(sa + sext(off21), 64) (R163). -/
def memEa (s : State) (o : OpMem) : Word := s.rd o.a + sx o.off
/-- Bytes of an access (R162). -/
def memBytes (size : BitVec 2) : Nat := 2 ^ size.toNat
/-- A value of 8 · 2^size bits extended under ext1 (R162). -/
def extend (size : BitVec 2) (sign : Bool) (v : Nat) : Word :=
  let n := 8 * 2 ^ size.toNat
  if sign then BitVec.ofInt 64 (toSigned n v) else BitVec.ofNat 64 (v % 2 ^ n)

/-- Sets an even register pair: sd and s(sd+1) (R174, R179, R367); with sd = s0 only s1 is written. -/
def State.wrPair (s : State) (d : Reg) (lo hi : Word) : State := (s.wr d lo).wr (regAfter d) hi

/-- The PC plus a signed count of words (R158, R159). -/
def branchTo {n : Nat} (pc : BitVec 32) (disp : BitVec n) : BitVec 32 := pc + 8 * (disp.signExtend 32)

/-- The low 32 bits of a register as an operand (R150: bits 63:32 are ignored). -/
def low32 (v : Word) : Nat := v.toNat % 2 ^ 32

end Sys2Proof.Machine
end

