-- ==== Sys2Proof/Machine/Buffers.lean ====
section
/-! DEFINITION. The buffer instructions (R104, R109–R111). -/

namespace Sys2Proof.Machine

/-- The events of R104 that instructions make. -/
inductive BufEvent where
  | fill | full | drain | empty
  deriving DecidableEq, Repr

/-- The transition table of R104; none where the event is not listed for the state. -/
def bufNext (e : BufEvent) (b : Buffer) : Option Buffer :=
  match e, b.phase with
  | .fill, .empty => some { b with phase := .filling, ver := (b.ver + 1) % b.v }
  | .fill, .draining => some { b with phase := .filling, ver := (b.ver + 1) % b.v }
  | .full, .filling => some { b with phase := .full }
  | .drain, .full => some { b with phase := .draining }
  | .empty, .filling => some { b with phase := .empty }
  | .empty, .full => some { b with phase := .empty }
  | .empty, .draining => some { b with phase := .empty }
  | _, _ => none

/-- The shared form of `buf.fill`, `buf.full`, `buf.drain` and `buf.empty` (R110). -/
def bufTransition (s : State) (n : BitVec 8) (e : BufEvent) : Out :=
  ends s ((needCtx s).bind fun _ =>
    match (bufFind s.core.bufs n.toNat).bind (bufNext e) with
    | none => .fault { cause := .bufState }
    | some b => .ok { s with core := { s.core with bufs := mapWhere (fun x => x.id = n.toNat) (fun _ => b) s.core.bufs } }.advance)

/-- Two ranges [a, b) and [c, d) share an address. -/
def rangesMeet (a b c d : Nat) : Bool := decide (a < d ∧ c < b)

/-- The tasks of the loaded context on this core. -/
def State.ownTasks (s : State) : List Task := s.cluster.tasksOf s.core.cid.toNat s.core.id.core
/-- The pending tasks that this core posted: those posted to it from elsewhere do not count (DESIGN CHOICE, log 108). -/
def State.pendingTasks (s : State) : List Task := s.cluster.pendingOf s.core.cid.toNat s.core.id.core

/-- `buf.decl` (R110). -/
def execBufDecl (o : OpBufDecl) (s : State) : Out :=
  let base := (s.rd o.a).toNat
  let size := (s.rd o.b).toNat
  let v := o.vM1.toNat + 1
  let pb := s.core.spbase
  ends s ((needCtx s).bind fun _ =>
    (faultIf (base % 64 != 0 || size % 64 != 0) .misalign).bind fun _ =>
    (faultIf (size == 0 || decide (0x400000 < size) || decide (s.core.grant < base + v * size)) .spadRange).bind fun _ =>
    (faultIf ((bufFind s.core.bufs o.n.toNat).isSome ||
      s.core.bufs.any (fun b => rangesMeet base (base + v * size) b.base b.spanEnd)) .bufState).bind fun _ =>
    (stallIf (spadPending s.pendingTasks s.core.id.core (base + pb) (base + v * size + pb)) .tasks).bind fun _ =>
    .ok { s with core := { s.core with bufs := { id := o.n.toNat, base := base, size := size, v := v, ver := v - 1, phase := .empty } :: s.core.bufs } }.advance)

/-- `buf.free` (R110): bytes and marks stay. -/
def execBufFree (o : OpBuf) (s : State) : Out :=
  ends s ((needCtx s).bind fun _ =>
    match bufFind s.core.bufs o.n.toNat with
    | none => .fault { cause := .bufState }
    | some b =>
      (stallIf (spadPending s.pendingTasks s.core.id.core (b.base + s.core.spbase) (b.spanEnd + s.core.spbase)) .tasks).bind fun _ =>
      .ok { s with core := { s.core with bufs := s.core.bufs.filter (fun x => x.id ≠ o.n.toNat) } }.advance)

/-- `buf.state` (R110). -/
def execBufState (o : OpBufD) (s : State) : Out :=
  ends s ((needCtx s).bind fun _ => .ok (s.wr o.d (bufStateWord (bufFind s.core.bufs o.n.toNat))).advance)
/-- `buf.fill`. -/
def execBufFill (o : OpBuf) (s : State) : Out := bufTransition s o.n .fill
/-- `buf.full`. -/
def execBufFull (o : OpBuf) (s : State) : Out := bufTransition s o.n .full
/-- `buf.drain`. -/
def execBufDrain (o : OpBuf) (s : State) : Out := bufTransition s o.n .drain
/-- `buf.empty`. -/
def execBufEmpty (o : OpBuf) (s : State) : Out := bufTransition s o.n .empty
/-- `buf.ver` (R110). -/
def execBufVer (o : OpBufD) (s : State) : Out :=
  ends s ((needCtx s).bind fun _ =>
    match bufFind s.core.bufs o.n.toNat with
    | none => .fault { cause := .bufState }
    | some b => .ok (s.wr o.d (BitVec.ofNat 64 ((b.base + b.ver * b.size) % 2 ^ 32))).advance)

end Sys2Proof.Machine
end

