-- ==== Sys2Proof/Machine/ControlFlow.lean ====
section
/-! DEFINITION. Control flow: majors 0x18–0x1B (R158–R161). No target is checked here; a fault of a target is taken
when it is fetched (R161). -/

namespace Sys2Proof.Machine

/-- A conditional transfer (R158). -/
def branched (s : State) (taken : Bool) (disp : BitVec 28) : Out :=
  if taken then .next (s.goto (branchTo s.core.pc disp)).settled else passed s
/-- `beq` (R158). -/
def execBeq (o : OpBr) (s : State) : Out := branched s (s.rd o.a == s.rd o.b) o.disp
/-- `bne` (R158). -/
def execBne (o : OpBr) (s : State) : Out := branched s (s.rd o.a != s.rd o.b) o.disp
/-- `blt` (R158). -/
def execBlt (o : OpBr) (s : State) : Out := branched s ((s.rd o.a).slt (s.rd o.b)) o.disp
/-- `bge` (R158). -/
def execBge (o : OpBr) (s : State) : Out := branched s ((s.rd o.b).sle (s.rd o.a)) o.disp
/-- `bltn` (R158). -/
def execBltn (o : OpBr) (s : State) : Out := branched s ((s.rd o.a).ult (s.rd o.b)) o.disp
/-- `bgen` (R158). -/
def execBgen (o : OpBr) (s : State) : Out := branched s ((s.rd o.b).ule (s.rd o.a)) o.disp
/-- The link value zext(PC + 8, 64) (R159). -/
def Core.link (c : Core) : Word := (c.pc + 8).setWidth 64
/-- `jal` (R159). -/
def execJal (o : OpRI) (s : State) : Out :=
  .next ((s.wr o.d s.core.link).goto (branchTo s.core.pc o.imm)).settled
/-- `jalr` (R159): the target is computed before sd is written; its faults report the address of the `jalr` (DEDUCED, log 23). -/
def execJalr (o : OpJalr) (s : State) : Out :=
  let t := s.rd o.a + sx o.off
  ends s ((faultIf (t.toNat % 8 != 0) .misalign).bind fun _ => (faultIf (t.toNat / 2 ^ 32 != 0) .spadRange).bind fun _ =>
    .ok ((s.wr o.d s.core.link).goto (t.setWidth 32)))
/-- `loop` (R160): the bound is read before sa is written. -/
def execLoop (o : OpBr) (s : State) : Out :=
  let t := s.rd o.a + 1
  branched (s.wr o.a t) (t.ult (s.rd o.b)) o.disp

end Sys2Proof.Machine
end

