-- ==== Sys2Proof/Machine/ControlRegs.lean ====
section
/-! DEFINITION. The control registers (R20, R275, R284, R372–R376, R381, R382, R387, R438): one read, one write, and the
instructions and events that use them. -/

namespace Sys2Proof.Machine

/-! ## Reading -/

/-- `CR_CAPS` (R20); SKW is that of the loaded context (R438). -/
def State.capsWord (s : State) : Word :=
  let c := s.modul.caps
  let n (d : Nat) : Nat := s.ncl d
  let skw := s.core.status.cv && (s.jobOf s.core.cid.toNat).any (fun j => j.skw)
  BitVec.ofNat 64 (bitOf skw * 2 ^ 63 + bitOf c.zmat * 2 ^ 62 + c.hbmg.toNat * 2 ^ 48 + c.lnkx.toNat * 2 ^ 43 + c.dies.toNat * 2 ^ 40 +
    (n 0 + n 1 + n 2 + n 3) * 2 ^ 34 + c.var.toNat * 2 ^ 32 + n 3 * 2 ^ 28 + n 2 * 2 ^ 24 + n 1 * 2 ^ 20 + n 0 * 2 ^ 16 + c.stk.toNat * 2 ^ 8)

/-- `CR_FAB` (R275); FJOB reads 0 with no context (R438). -/
def State.fabWord (s : State) : Word :=
  let (xn, yn, zn) := s.modul.torus
  let fjob := if s.core.status.cv then ((s.jobOf s.core.cid.toNat).map (fun j => j.fjob.toNat)).getD 0 else 0
  BitVec.ofNat 64 (fjob * 2 ^ 32 + (zn - 1) * 2 ^ 20 + (yn - 1) * 2 ^ 16 + (xn - 1) * 2 ^ 12 + s.dieNumber s.core.id.die)

/-- `CR_STATUS` as read (R374); IPM is the inbox. -/
def statusWord (c : Core) : Word :=
  let t := c.status
  BitVec.ofNat 64 (bitOf t.cv * 2 ^ 15 + bitOf t.yp * 2 ^ 14 + bitOf (!c.inbox.isEmpty) * 2 ^ 13 + bitOf t.ipc * 2 ^ 12 + bitOf t.ipp * 2 ^ 11 +
    t.im.toNat * 2 ^ 8 + bitOf t.td * 2 ^ 4 + bitOf t.pie * 2 ^ 3 + bitOf t.ie * 2 ^ 2 + bitOf t.pm * 2 + bitOf t.mode)

/-- The value of a control register of the acting core (R372). -/
def State.crValue (s : State) (n : Nat) : Word :=
  let c := s.core
  match n with
  | 0x00 => s.capsWord
  | 0x01 => s.fabWord
  | 0x02 => s.die.leecnt.setWidth 64
  | 0x03 => c.cid.setWidth 64
  | 0x04 => BitVec.ofNat 64 s.cycles
  | 0x08 => c.cr.fpctl.setWidth 64
  | 0x09 => c.cr.fpstat.setWidth 64
  | 0x0A => c.cr.fpen.setWidth 64
  | 0x0B => c.cr.cpol.setWidth 64
  | 0x0C => c.cr.tflog
  | 0x0D => c.cr.bkey
  | 0x0E => c.cr.bseq
  | 0x10 => statusWord c
  | 0x11 => c.cr.tvec
  | 0x12 => c.cr.epc
  | 0x13 => c.cr.cause
  | 0x14 => c.cr.faddr
  | 0x15 => c.cr.finfo
  | 0x16 => c.cr.scr
  | 0x17 => c.cr.cyccmp
  | 0x18 => BitVec.ofNat 64 c.spbase
  | n => if c.status.cv && 0x20 ≤ n && n ≤ 0x27 then s.loadedMap.toList.getD (n - 0x20) 0 else 0

/-- Registers that U mode may name, and registers that no mode may write (R372). -/
def crUser (n : Nat) : Bool := n ≤ 0x0E
def crReadOnly (n : Nat) : Bool := n ≤ 0x04 || n == 0x18

/-! ## Writing -/

/-- The three writing instructions (R376). -/
inductive CrOp where
  | write | set | clear
  deriving DecidableEq, Repr

/-- The value that the RW bits take (R376). -/
def CrOp.value (o : CrOp) (old sa : Word) : Word :=
  match o with
  | .write => sa
  | .set => old ||| sa
  | .clear => old &&& ~~~sa

/-- The bits of `CR_CAUSE` that are not reserved (R375). -/
def causeMask : Word := 0xC000FFFFFF00FFFF

/-- `CR_STATUS` after a write (R374, R376): MODE, TD, CV and IPM stay; IPC and IPP are cleared where named. -/
def statusAfter (t : Status) (o : CrOp) (v sa : Word) : Status :=
  let clears := fun (i : Nat) => bit sa i && decide (o ≠ .set)
  { t with
    pm := bit v 1, ie := bit v 2, pie := bit v 3, im := BitVec.ofNat 3 (bits v 10 8), yp := bit v 14
    ipp := t.ipp && !clears 11, ipc := t.ipc && !clears 12 }

/-- `CR_CPOL` after a write: in U mode CP and CN keep their value (R381). -/
def cpolAfter (old : BitVec 16) (sMode : Bool) (v : Word) : BitVec 16 :=
  let n := v.setWidth 16
  if sMode then n else (n &&& 0xFF00) ||| (old &&& 0x00FF)

/-- A register of the loaded context's flag map replaced (R422). -/
def State.setMap (s : State) (n : Nat) (v : Word) : State :=
  { s with cluster := s.cluster.updCtx s.core.cid.toNat (fun x => x.updFlags s.core.id.core (fun g =>
      { g with fmap := Vector.ofFn (fun i => if i.val = n then v else g.fmap[i]) })) }

/-- Writes a control register: RW bits take the value of the operation, the others their rule (R376). -/
def State.crPut (s : State) (n : Nat) (o : CrOp) (sa : Word) : State :=
  let c := s.core
  let v := o.value (s.crValue n) sa
  let put := fun (r : CtlRegs) => { s with core := { c with cr := r } }
  match n with
  | 0x08 => put { c.cr with fpctl := v.setWidth 3 }
  | 0x09 => put { c.cr with fpstat := v.setWidth 7 }
  | 0x0A => put { c.cr with fpen := v.setWidth 7 }
  | 0x0B => put { c.cr with cpol := cpolAfter c.cr.cpol c.sMode v }
  | 0x0C => put { c.cr with tflog := 0 }
  | 0x0D => put { c.cr with bkey := v }
  | 0x0E => put { c.cr with bseq := v }
  | 0x10 => { s with core := { c with status := statusAfter c.status o v sa } }
  | 0x11 => put { c.cr with tvec := v &&& 0xFFFFFFF8 }
  | 0x12 => put { c.cr with epc := v }
  | 0x13 => put { c.cr with cause := v &&& causeMask }
  | 0x14 => put { c.cr with faddr := v }
  | 0x15 => put { c.cr with finfo := v }
  | 0x16 => put { c.cr with scr := v }
  | 0x17 => { s with core := { c with cr := { c.cr with cyccmp := v }, cmpArmed := true } }
  | n => if 0x20 ≤ n ∧ n ≤ 0x27 then s.setMap (n - 0x20) v else s

/-- The checks of a read (R372): privilege. -/
def crReadOk (s : State) (n : Nat) : Res Unit := faultIf (!s.core.sMode && !crUser n) .priv
/-- The checks of a write (R372, R438): privilege, then the read-only test, then the flag map without a context. -/
def crWriteOk (s : State) (n : Nat) : Res Unit :=
  (faultIf (!s.core.sMode && !crUser n) .priv).bind fun _ =>
  (faultIf (crReadOnly n) .illegalOp).bind fun _ =>
  faultIf (0x20 ≤ n && !s.core.status.cv) .priv

/-! ## Instructions (R376) -/

/-- `crr`. -/
def execCrr (o : OpCrr) (s : State) : Out :=
  ends s ((crReadOk s o.n.toNat).bind fun _ => .ok (s.wr o.d (s.crValue o.n.toNat)).advance)
/-- The shared form of `crw`, `crs` and `crc`: sd takes the old value. -/
def crUpdate (s : State) (op : CrOp) (o : OpCr) : Res State :=
  (crWriteOk s o.n.toNat).bind fun _ => .ok (((s.crPut o.n.toNat op (s.rd o.a)).wr o.d (s.crValue o.n.toNat)).advance)
/-- `crw`. -/
def execCrw (o : OpCr) (s : State) : Out := ends s (crUpdate s .write o)
/-- `crs`. -/
def execCrs (o : OpCr) (s : State) : Out := ends s (crUpdate s .set o)
/-- `crc`. -/
def execCrc (o : OpCr) (s : State) : Out := ends s (crUpdate s .clear o)

/-! ## Writes as events -/

/-- CR_FPSTAT_WRITE (R141): the task flags ORed in the same cycle take effect after the write. -/
def execCrFpstatWrite (v : Word) (taskFlags : BitVec 7) (s : State) : Out := .next ((s.crPut 0x09 .write v).sticky taskFlags)
/-- CR_CPOL_WRITE (R381). -/
def execCrCpolWrite (v : Word) (s : State) : Out := .next (s.crPut 0x0B .write v)
/-- CR_TFLOG_WRITE (R382): every field becomes zero. -/
def execCrTflogWrite (v : Word) (s : State) : Out := .next (s.crPut 0x0C .write v)
/-- CR_STATUS_WRITE (R374). -/
def execCrStatusWrite (v : Word) (s : State) : Out := .next (s.crPut 0x10 .write v)
/-- CR_CYCCMP_WRITE (R374): arms the single match. -/
def execCrCyccmpWrite (v : Word) (s : State) : Out := .next (s.crPut 0x17 .write v)
/-- CR_FMAP_WRITE (R422, R438): the loaded context's map. -/
def execCrFmapWrite (n : BitVec 3) (v : Word) (s : State) : Out :=
  if s.core.status.cv then .next (s.crPut (0x20 + n.toNat) .write v) else absent "CR_FMAP_WRITE"

end Sys2Proof.Machine
end

