-- ==== Sys2Proof/Machine/LoadStore.lean ====
section
/-! DEFINITION. Loads, stores, atomics and `claim` (R162–R174): own scratchpad, windows (R94, R167, R290), the core
control space (R372) and HBM (R82, R171). -/

namespace Sys2Proof.Machine

/-- Steps 1 and 2 of R163: the address fits 32 bits and is a multiple of the access size. -/
def plainEa (ea : Word) (n : Nat) : Res Nat :=
  (faultAt (ea.toNat / 2 ^ 32 != 0) .spadRange ea).bind fun _ =>
  (faultAt (ea.toNat % n != 0) .misalign ea).bind fun _ => .ok ea.toNat

/-- The register of the core control space that a 64-bit `ld` or `st` names (R372). -/
def controlReg (s : State) (ea : Word) (off size : Nat) : Res Nat :=
  (faultAt (!s.core.sMode) .priv ea).bind fun _ =>
  (faultAt (size != 8) .misalign ea).bind fun _ =>
  (faultAt (0x400 ≤ off || !crNumber (BitVec.ofNat 7 (off / 8))) .spadRange ea).bind fun _ => .ok (off / 8)

/-! ## Windows (R94, R167, R288, R290) -/

/-- The mapping of a window at an offset (R94); with no context loaded no window is mapped (DEDUCED, log 26). -/
def windowAt (s : State) (n off : Nat) (ea : Word) : Res WinMap :=
  match (s.core.windows.toList.getD n {}).map with
  | some m => if s.core.status.cv && off < m.size then .ok m else .fault { cause := .winUnmapped, addr := some ea }
  | none => .fault { cause := .winUnmapped, addr := some ea }

def Core.updWindow (c : Core) (n : Nat) (f : Window → Window) : Core :=
  { c with windows := Vector.ofFn (fun i => if i.val = n then f c.windows[i] else c.windows[i]) }

/-- A request through a window stalls while OUT has reached the allowance, while a fence holds it back, and while the
pair of die and class is full (R167, R279, R290, R342). -/
def windowReady (s : State) (n : Nat) (m : WinMap) (cls : BitVec 4) : Res Unit :=
  let w := s.core.windows.toList.getD n {}
  (stallIf (fenceHolds s.core.fences s.core.effects m.die cls) .fence).bind fun _ =>
  stallIf (decide (w.alw ≤ w.out) || !s.die.pairRoom m.die cls) .allowance

/-- Sends a request of the core through a window: OUT rises by one unless the request is answered at hand-on. -/
def windowSend (s : State) (n : Nat) (m : WinMap) (cls : BitVec 4) (body : PktBody) : State × Option RespKind :=
  let src : PktSource := { core := s.core.id, ctx := s.core.cid.toNat, window := some n, task := none }
  match s.handOn src { die := m.die, clu := m.clu, core := m.core } cls body with
  | (t, none) => ({ t with core := t.core.updWindow n (fun w => { w with out := w.out + 1 }) }, none)
  | (t, some r) => (t, some r)

/-- A store through a window (R167); a denial at hand-on sets DEN (R293). -/
def windowStore (s : State) (n off size : Nat) (ea v : Word) (cls : BitVec 4) : Res State :=
  (windowAt s n off ea).bind fun m => (windowReady s n m cls).bind fun _ =>
    match windowSend s n m cls (.write (m.rb + off) (bytesAt (m.rb + off) size v.toNat) m.raise false) with
    | (t, some (.deny _)) => .ok { t with core := t.core.updWindow n (fun w => { w with den := true }) }
    | (t, _) => .ok t

/-- A remote write of a task through window n of core `id` waits: for its allowance, for room in its pair, or for a fence of
its core (R222, R279, R290, R342). -/
def State.remoteHeld (s : State) (id : CoreId) (t : Task) (n : Nat) (m : WinMap) : Bool :=
  let c := s.coreAt id
  let win := c.windows.toList.getD n {}
  decide (win.alw ≤ win.out) || !(s.dieAt id.die).pairRoom m.die t.cls || fenceHolds t.orders c.effects m.die t.cls

/-- Sends one remote write of a task, given by window offsets (R246, R290): OUT rises by one unless the answer comes at
hand-on, where a denial sets DEN (R293). -/
def State.taskWindowWrite (s : State) (id : CoreId) (t : Task) (n : Nat) (m : WinMap) (ws : List (Nat × Byte)) (poison : Bool) : State :=
  let src : PktSource := { core := id, ctx := t.ctx, window := some n, task := some t.id }
  let put := ws.map (fun p => (m.rb + p.1, p.2))
  let body := PktBody.write ((put.head?.map Prod.fst).getD 0) put m.raise poison
  match s.handOn src { die := m.die, clu := m.clu, core := m.core } t.cls body with
  | (u, none) => u.updCore id (fun c => c.updWindow n (fun w => { w with out := w.out + 1 }))
  | (u, some (.deny _)) => u.updCore id (fun c => c.updWindow n (fun w => { w with den := true }))
  | (u, some _) => u

/-! ## Loads and stores (R164) -/

/-- `ld`. -/
def execLd (o : OpMem) (s : State) : Out :=
  let ea := memEa s o
  let n := memBytes o.size
  ends s ((plainEa ea n).bind fun a =>
    match placeOf a with
    | .spad a => (spadCheck s.core s.cluster.tasks a n .load).bind fun pa =>
        let r := s.ownLoad pa n
        .ok (r.1.wr o.d (extend o.size o.sx r.2)).advance
    | .window _ _ => .fault { cause := .winLoad, addr := some ea }
    | .control off => (controlReg s ea off n).bind fun r => .ok (s.wr o.d (s.crValue r)).advance
    | .outside => .fault { cause := .spadRange, addr := some ea })

/-- `st`. -/
def execSt (o : OpMem) (s : State) : Out :=
  let ea := memEa s o
  let n := memBytes o.size
  ends s ((plainEa ea n).bind fun a =>
    match placeOf a with
    | .spad a => (spadCheck s.core s.cluster.tasks a n .store).bind fun pa =>
        .ok { s with core := s.core.store pa n (s.rd o.d).toNat }.advance
    | .window w off => (windowStore s w off n ea (s.rd o.d) o.cls).bind fun t => .ok t.advance
    | .control off => (controlReg s ea off n).bind fun r => (crWriteOk s r).bind fun _ => .ok (s.crPut r .write (s.rd o.d)).advance
    | .outside => .fault { cause := .spadRange, addr := some ea })

/-! ## Atomics (R169–R174) -/

/-- The registers an atomic writes from what it read (R170, R174). -/
def State.takeOld (s : State) (d : Reg) (size : BitVec 2) (sx claim : Bool) (old : Nat) : State :=
  if claim then s.wrPair d (BitVec.ofNat 64 (claimOf old).1) (BitVec.ofNat 64 (claimOf old).2)
  else s.wr d (extend size sx old)

/-- The core waits for a reply (R171); the wait is not abandoned (R168). -/
def awaiting (s : State) (o : OpMem) (claim : Bool) (uid : Nat) (ea : Word) : State :=
  { s with core := { s.core with
      stall := some .reply, await := some { uid := uid, d := o.d, size := o.size.toNat, sx := o.sx, claim := claim, ea := ea } } }

/-- What an atomic comes to: finished, or waiting for its reply. -/
inductive AtomEnd where
  | done (s : State)
  | waits (s : State)

/-- Ends an atomic. -/
def endsAtom (s : State) (r : Res AtomEnd) : Out :=
  match r with
  | .ok (.done t) => .next t.advance.settled
  | .ok (.waits t) => .next t
  | .fault f => .next (s.takeFault f)
  | .stall w => .next (s.stalled w)

/-- An atomic or `claim` on own scratchpad or a window (R171, R173). -/
def atomPlain (s : State) (o : OpMem) (claim : Bool) (q : AtomReq) : Res AtomEnd :=
  let ea := memEa s o
  let n := atomWidth q
  (plainEa ea n).bind fun a =>
    match placeOf a with
    | .spad a => (spadCheck s.core s.cluster.tasks a n .atomic).bind fun pa =>
        let old := readLE s.core.spad pa n
        .ok (.done ({ s with core := s.core.store pa n (atomResult q old) }.takeOld o.d o.size o.sx claim old))
    | .window w off =>
      (windowAt s w off ea).bind fun m => (windowReady s w m o.cls).bind fun _ =>
        match windowSend s w m o.cls (.atomic (m.rb + off) q) with
        | (t, some (.reply old)) => .ok (.done (t.takeOld o.d o.size o.sx claim old.toNat))
        | (_, some (.deny c)) => .fault { cause := c, addr := some ea }
        | (t, _) => .ok (.waits (awaiting t o claim s.modul.nextUid ea))
    | .control _ => .fault { cause := if s.core.sMode then .spadRange else .priv, addr := some ea }
    | .outside => .fault { cause := .spadRange, addr := some ea }

/-- The key slot of an HBM address, none for plain text (R75). -/
def hbmSlot (d : Die) (ctx va : Nat) : Option Nat :=
  (mapEntry d ctx va).bind (fun (w0, _) => if bit w0 59 then some (bits w0 51 45) else none)

/-- An atomic or `claim` on HBM (R82, R171): on another die of the module it is a request packet (R74, R278). -/
def atomHbm (s : State) (o : OpMem) (claim : Bool) (q : AtomReq) : Res AtomEnd :=
  let ea := memEa s o
  let n := atomWidth q
  let ctx := s.core.cid.toNat
  (needCtx s).bind fun _ =>
  (faultAt (ea.toNat / 2 ^ 48 != 0) .mapMiss ea).bind fun _ =>
  (faultAt (ea.toNat % n != 0) .misalign ea).bind fun _ =>
    match hbmLookup s.die ctx ea.toNat with
    | none => .fault { cause := .mapMiss, addr := some ea }
    | some h =>
      if !h.at_ then .fault { cause := .mapMiss, addr := some ea }
      else
        let d := h.dpa / 2 ^ 38
        let slot := hbmSlot s.die ctx ea.toNat
        if d = s.core.id.die then
          (stallIf (fenceHolds s.core.fences s.core.effects (s.dieNumber d) o.cls) .fence).bind fun _ =>
          match s.hbmAtomic d h.dpa slot q with
          | (t, .reply old) => .ok (.done (t.takeOld o.d o.size o.sx claim old.toNat))
          | _ => .fault { cause := .poison, addr := some ea }
        else
          (stallIf (fenceHolds s.core.fences s.core.effects (s.dieNumber d) o.cls) .fence).bind fun _ =>
          (stallIf (!s.die.pairRoom (s.dieNumber d) o.cls) .allowance).bind fun _ =>
            let src : PktSource := { core := s.core.id, ctx := ctx, window := none, task := none }
            let t := (s.handOn src { die := s.dieNumber d, clu := 0, core := 0 } o.cls (.hbm h.dpa slot q)).1
            .ok (.waits (awaiting t o claim s.modul.nextUid ea))

/-- The request of an atomic instruction: operand sd, and s(sd+1) as the new value of `cas` (R169). -/
def atomReq (s : State) (o : OpMem) (op : AtomOp) : AtomReq := .op op o.size.toNat (s.rd o.d) (s.rd (regAfter o.d))

/-- `atom.add` (R170). -/
def execAtomAdd (o : OpMem) (s : State) : Out := endsAtom s (atomPlain s o false (atomReq s o .add))
/-- `atom.and` (R170). -/
def execAtomAnd (o : OpMem) (s : State) : Out := endsAtom s (atomPlain s o false (atomReq s o .and))
/-- `atom.or` (R170). -/
def execAtomOr (o : OpMem) (s : State) : Out := endsAtom s (atomPlain s o false (atomReq s o .or))
/-- `atom.xor` (R170). -/
def execAtomXor (o : OpMem) (s : State) : Out := endsAtom s (atomPlain s o false (atomReq s o .xor))
/-- `atom.min` (R170). -/
def execAtomMin (o : OpMem) (s : State) : Out := endsAtom s (atomPlain s o false (atomReq s o .min))
/-- `atom.max` (R170). -/
def execAtomMax (o : OpMem) (s : State) : Out := endsAtom s (atomPlain s o false (atomReq s o .max))
/-- `atom.minn` (R170). -/
def execAtomMinn (o : OpMem) (s : State) : Out := endsAtom s (atomPlain s o false (atomReq s o .minn))
/-- `atom.maxn` (R170). -/
def execAtomMaxn (o : OpMem) (s : State) : Out := endsAtom s (atomPlain s o false (atomReq s o .maxn))
/-- `atom.swap` (R170). -/
def execAtomSwap (o : OpMem) (s : State) : Out := endsAtom s (atomPlain s o false (atomReq s o .swap))
/-- `atom.cas` (R170). -/
def execAtomCas (o : OpMem) (s : State) : Out := endsAtom s (atomPlain s o false (atomReq s o .cas))
/-- `atom.incb` (R170). -/
def execAtomIncb (o : OpMem) (s : State) : Out := endsAtom s (atomPlain s o false (atomReq s o .incb))
/-- `atom.add.hbm` (R170, R171). -/
def execAtomAddHbm (o : OpMem) (s : State) : Out := endsAtom s (atomHbm s o false (atomReq s o .add))
/-- `atom.and.hbm` (R170, R171). -/
def execAtomAndHbm (o : OpMem) (s : State) : Out := endsAtom s (atomHbm s o false (atomReq s o .and))
/-- `atom.or.hbm` (R170, R171). -/
def execAtomOrHbm (o : OpMem) (s : State) : Out := endsAtom s (atomHbm s o false (atomReq s o .or))
/-- `atom.xor.hbm` (R170, R171). -/
def execAtomXorHbm (o : OpMem) (s : State) : Out := endsAtom s (atomHbm s o false (atomReq s o .xor))
/-- `atom.min.hbm` (R170, R171). -/
def execAtomMinHbm (o : OpMem) (s : State) : Out := endsAtom s (atomHbm s o false (atomReq s o .min))
/-- `atom.max.hbm` (R170, R171). -/
def execAtomMaxHbm (o : OpMem) (s : State) : Out := endsAtom s (atomHbm s o false (atomReq s o .max))
/-- `atom.minn.hbm` (R170, R171). -/
def execAtomMinnHbm (o : OpMem) (s : State) : Out := endsAtom s (atomHbm s o false (atomReq s o .minn))
/-- `atom.maxn.hbm` (R170, R171). -/
def execAtomMaxnHbm (o : OpMem) (s : State) : Out := endsAtom s (atomHbm s o false (atomReq s o .maxn))
/-- `atom.swap.hbm` (R170, R171). -/
def execAtomSwapHbm (o : OpMem) (s : State) : Out := endsAtom s (atomHbm s o false (atomReq s o .swap))
/-- `atom.cas.hbm` (R170, R171). -/
def execAtomCasHbm (o : OpMem) (s : State) : Out := endsAtom s (atomHbm s o false (atomReq s o .cas))
/-- `atom.incb.hbm` (R170, R171). -/
def execAtomIncbHbm (o : OpMem) (s : State) : Out := endsAtom s (atomHbm s o false (atomReq s o .incb))
/-- `claim` (R173, R174). -/
def execClaim (o : OpMem) (s : State) : Out := endsAtom s (atomPlain s o true .claim)
/-- `claim.hbm` (R173, R174). -/
def execClaimHbm (o : OpMem) (s : State) : Out := endsAtom s (atomHbm s o true .claim)

end Sys2Proof.Machine
end

