-- ==== Sys2Proof/Machine/TaskFaults.lean ====
section
/-! DEFINITION. A fault of a task at the task containment level, and on to the core program (R371, R379, R380, R382). -/

namespace Sys2Proof.Machine

/-- Takes a task off its engine; its entry stays. -/
def State.offEngine (s : State) (d c : Nat) (t : Task) : State :=
  let clear := fun (e : Option Nat) => if e = some t.id then none else e
  let s1 := s.updCluster d c (fun k => { k with
    copy0 := clear k.copy0, copy1 := clear k.copy1, shaper := clear k.shaper, canvasTask := clear k.canvasTask
    fabric := k.fabric.filter (fun i => i ≠ t.id) })
  s1.updCore (taskCore d c t) (fun k => { k with vec := { k.vec with run := k.vec.run.filter (fun r => r.task.id ≠ t.id) } })

/-- The record of an escalated task fault (R375, R377). -/
def escalation (t : Task) (f : FaultInfo) : Escalated :=
  { ctx := t.ctx, cause := f.cause, tag := t.tag, idx := BitVec.ofNat 8 f.idx, addr := f.addr.getD 0, info := f.info }

/-- A task fault offered to the core program: it waits for the next boundary outside a handler; inside one it is offered
at job level (R377). -/
def State.escalate (s : State) (id : CoreId) (t : Task) (f : FaultInfo) : State :=
  let c := s.coreAt id
  if c.holds t.ctx && !c.status.td then s.updCore id (fun c => { c with escalated := c.escalated ++ [escalation t f] })
  else s.offerJob t.ctx id f.cause false

/-- The policy that decides a task's fault: a task that is being cancelled is neither dispatched again nor completed
(R327), and without a count, or where the work cannot be repeated, RETRY is KILL_SELF (R125, R379). -/
def taskPolicy (t : Task) (repeatable : Bool) : Nat :=
  match t.policy.toNat with
  | 0 => if t.stop then 2 else 0
  | 1 => if t.stop || t.count = 0 || !repeatable then 2 else 1
  | n => n

/-- A fault of task t on cluster (d, c) (R379): its conditions so far are ORed in (R224). -/
def State.taskFault (s : State) (d c : Nat) (t : Task) (f : FaultInfo) (repeatable : Bool) : State :=
  let id := taskCore d c t
  match taskPolicy t repeatable with
  | 0 => (s.logTask id t.ctx t.tag f.cause).completeTask d c t
  | 1 =>
    ((s.offEngine d c t).orSticky id t.ctx t.flags).updCluster d c (fun k => k.updTask t.id (fun t =>
      { t with phase := .ready, count := t.count - 1, resume := .start, flags := 0, hbmUnits := [] }))
  | 2 => (s.logTask id t.ctx t.tag f.cause).endTask d c t false
  | _ => (s.endTask d c t false).escalate id t f

end Sys2Proof.Machine
end

