-- ==== Sys2Proof/Machine/FarMemory.lean ====
section
/-! DEFINITION. Memory as the engines reach it (R74, R90, R95, R278): own die's HBM at its controller, another die's by HBM packets in the
task's class, host memory through the host port. -/

namespace Sys2Proof.Machine

/-! ## Another die's HBM (R74, R278) -/

/-- A unit of HBM on another die: die, unit number, key slot. -/
abbrev FarUnit := Nat × Nat × Option Nat
/-- The unit a virtual address of a task lies in when another die of the module owns it. -/
def State.farAt (s : State) (d ctx va : Nat) : Option FarUnit :=
  (hbmLookup (s.dieAt d) ctx va).bind (fun h => if h.dpa / 2 ^ 38 = d then none else some (h.dpa / 2 ^ 38, h.dpa / 64, hbmSlot (s.dieAt d) ctx va))
/-- A unit of another die that bytes of a range lie in and that the task has not read yet. -/
def State.farNeed (s : State) (d : Nat) (t : Task) (r : Region) (a n : Nat) : Option FarUnit :=
  if r.space == .hbm then (List.range n).findSome? (fun i => (s.farAt d t.ctx (a + i)).filter (fun u => (assoc t.hbmUnits u.2.1).isNone)) else none
/-- Sends an HBM packet of a task (R278): it is outstanding until its answer. -/
def State.sendFar (s : State) (d c : Nat) (t : Task) (die : Nat) (body : PktBody) : State :=
  let uid := s.modul.nextUid
  let s1 := (s.handOn { core := taskCore d c t, ctx := t.ctx, window := none, task := some t.id } { die := s.dieNumber die, clu := 0, core := 0 } t.cls body).1
  s1.updCluster d c (fun k => k.updTask t.id (fun t => { t with hbmOpen := t.hbmOpen ++ [uid] }))
/-- Asks for a unit; nothing while answers are awaited or the pair has no room (R279). -/
def State.fetchFar (s : State) (d c : Nat) (t : Task) (u : FarUnit) : Option State :=
  if !t.hbmIdle || !(s.dieAt d).pairRoom (s.dieNumber u.1) t.cls then none else some (s.sendFar d c t u.1 (.hbmRead u.2.1 u.2.2))
/-- Asks for every unit of a list while the pairs have room. -/
def State.fetchAll (s : State) (d c : Nat) (t : Task) (us : List FarUnit) : Option State :=
  if !t.hbmIdle then none
  else
    let ok := us.eraseDups.filter (fun u => (s.dieAt d).pairRoom (s.dieNumber u.1) t.cls)
    if ok.isEmpty then none else some ((ok.take 4096).foldl (fun s u => s.sendFar d c t u.1 (.hbmRead u.2.1 u.2.2)) s)
/-- The units of other dies that a task's read regions lie in and that it has not read yet. -/
def State.farMissing (s : State) (d : Nat) (t : Task) : List FarUnit :=
  t.regions.flatMap (fun r => if r.space == .hbm && r.reads && !r.null then (List.range r.count).filterMap (fun n => s.farNeed d t r (r.elem n).toNat r.es) else [])
/-- Sends the HBM packets of a task that wait, in order, while their pairs have room (R279). -/
def State.flushTask (s : State) (d c : Nat) (t : Task) : State :=
  let r := t.hbmQueue.foldl (fun (x : State × List (Nat × PktBody)) p =>
    if (x.1.dieAt d).pairRoom (x.1.dieNumber p.1) t.cls then (x.1.sendFar d c t p.1 p.2, x.2) else (x.1, x.2 ++ [p])) (s, [])
  r.1.updCluster d c (fun k => k.updTask t.id (fun t => { t with hbmQueue := r.2 }))
/-- The same for every task of a die. -/
def State.flushFar (s : State) (d : Nat) : State :=
  (List.range (s.ncl d)).foldl (fun s c => ((s.clusterAt d c).tasks.filter (fun t => !t.hbmQueue.isEmpty)).foldl (fun s t => s.flushTask d c t) s) s
/-- An HBM packet of a task is answered: a read's unit is kept for the chunk that asked for it. -/
def Task.farAnswer (t : Task) (p : Packet) (data : Option (BitVec 512 × Bool)) : Task :=
  let t1 := { t with hbmOpen := t.hbmOpen.filter (fun u => u ≠ p.uid) }
  match p.body, data with
  | .hbmRead unit _, some v => { t1 with hbmUnits := t1.hbmUnits ++ [(unit, v)] }
  | _, _ => t1

/-! ## Bytes of a task's regions -/

/-- The function whose host memory a task reaches. -/
def State.taskFn (s : State) (t : Task) : Nat := ((s.jobOf t.ctx).map (fun j => j.fn)).getD 0

/-- A byte of HBM as a task reads it, with its unit's mark: at the controller, or from the unit another die has sent. -/
def State.hbmTaskByte (s : State) (d : Nat) (t : Task) (va : Nat) : Byte × Bool :=
  match s.farAt d t.ctx va with
  | none => hbmRead s.modul (s.dieAt d) t.ctx va
  | some u =>
    let v := (assoc t.hbmUnits u.2.1).getD (0, false)
    (BitVec.ofNat 8 (v.1.toNat / 256 ^ (va % 64)), v.2)

/-- n bytes at an address of a region's space, as a number, and whether a unit they touch is poisoned (R90, R95). -/
def State.memRead (s : State) (d c : Nat) (t : Task) (sp : Space) (core a n : Nat) : Nat × Bool :=
  match sp with
  | .spad => let k := s.coreAt ⟨d, c, core⟩; (readLE k.spad a n, poisoned k.poison a n)
  | .hbm =>
    let bs := (List.range n).map (fun i => s.hbmTaskByte d t (a + i))
    (bs.foldr (fun b v => b.1.toNat + 256 * v) 0, bs.any Prod.snd)
  | .host => let x := hostIova (s.dieAt d) t.ctx a; (s.hostNat (s.taskFn t) x n, s.hostBad (s.taskFn t) x n)
  | _ => (0, false)

/-- A task's writes to another die's HBM: one packet for each unit, in the order of its first byte written. -/
def State.writeFar (s : State) (d c : Nat) (t : Task) (ws : List (Nat × Byte)) (bad : List Nat) : State :=
  let far := ws.filterMap (fun p => (s.farAt d t.ctx p.1).map (fun u => (u, p.1, p.2)))
  let packets := ((far.map Prod.fst).eraseDups).map (fun u =>
    let here := far.filter (fun x => x.1 = u)
    (u.1, PktBody.hbmWrite u.2.1 u.2.2 (here.map (fun x => (64 * u.2.1 + x.2.1 % 64, x.2.2))) (here.any (fun x => bad.contains x.2.1))))
  if packets.isEmpty then s
  else (s.updCluster d c (fun k => k.updTask t.id (fun t => { t with hbmQueue := t.hbmQueue ++ packets }))).flushFar d

/-- A task's writes to a region's space; `bad` are the addresses of bytes from a poisoned source (R90, R95, R126). -/
def State.memWrite (s : State) (d c : Nat) (t : Task) (sp : Space) (core : Nat) (ws : List (Nat × Byte)) (bad : List Nat) : State :=
  match sp with
  | .spad => s.updCore ⟨d, c, core⟩ (fun k => k.taskWrite ws (fun u => bad.any (fun a => a / 64 = u)))
  | .hbm =>
    let near := ws.filter (fun p => (s.farAt d t.ctx p.1).isNone)
    { s with modul := hbmWrite s.modul (s.dieAt d) t.ctx near (fun a => bad.contains a) }.writeFar d c t ws bad
  | .host =>
    let x := fun (a : Nat) => hostIova (s.dieAt d) t.ctx a
    s.hostTaskWrite (s.taskFn t) (some (t.ctx, taskCore d c t, some t.id)) t.cls (ws.map (fun p => (x p.1, p.2))) (bad.map x)
  | _ => s

/-! ## The end of an engine's work (R322) -/

/-- The record of a fault that waits for the task's writes, and back. -/
def Escalated.toFault (e : Escalated) : FaultInfo := { cause := e.cause, addr := some e.addr, idx := e.idx.toNat, info := e.info }
/-- The engine has done its work on task t, or met a fault: the task ends now, or once its HBM writes on other dies are performed. -/
def State.endWork (s : State) (d c : Nat) (t : Task) (f : Option FaultInfo) (repeatable : Bool) : State :=
  if ((s.clusterAt d c).task? t.id).any (fun u => !u.hbmIdle) then
    s.updCluster d c (fun k => k.updTask t.id (fun u => { u with flags := t.flags, resume := .written (f.map (escalation t)) }))
  else match f with
    | some f => s.taskFault d c t f repeatable
    | none => s.completeTask d c t
/-- A task whose engine has done its work and whose HBM writes are performed ends. -/
def State.afterWork (s : State) (d c : Nat) (t : Task) (repeatable : Bool) : Option State :=
  match t.resume with
  | .written f => if !t.hbmIdle then none else match f with
    | some e => some (s.taskFault d c t e.toFault repeatable)
    | none => some (s.completeTask d c t)
  | _ => none

/-- An address as a fault of the task reports it: in own scratchpad without the placement (DEDUCED, log 23). -/
def State.taskAddr (s : State) (d c : Nat) (t : Task) (sp : Space) (a : Int) : Word :=
  BitVec.ofInt 64 (if sp == .spad then a - s.placement t.ctx (taskCore d c t) else a)

end Sys2Proof.Machine
end

