-- ==== Sys2Proof/Machine/CopyEngine.lean ====
section
/-! DEFINITION. The copy engines (R119–R127): elements, chunks, streams and windows. -/

namespace Sys2Proof.Machine

/-! ## Elements -/

/-- Why the engine goes no further: a stream, a unit of another die that has not come yet, or a fault with the host reads of its element. -/
inductive CopyStop where
  | wait
  | need (u : FarUnit)
  | fault (f : FaultInfo) (k : Core) (reads : List (Nat × Nat))
  deriving Repr
/-- The host reads of the element that ends the task. -/
def CopyStop.reads : CopyStop → List (Nat × Nat)
  | .fault _ _ l => l
  | _ => []

/-- An element that moves: its address, value and poison, where it was read, the host reads it took, and the core with its streams after
the pops. -/
structure CopyElem where
  core : Core
  addr : Int
  value : Nat
  bad : Bool
  src : Space × Int
  reads : List (Nat × Nat)

/-- The host reads of an element of a region. -/
def hostReadOf (r : Region) (a : Int) : List (Nat × Nat) := if r.space == .host then [(a.toNat, r.es)] else []

/-- Element n of a region read: popped from a stream register, or read from memory. -/
def State.takeElem (s : State) (d c : Nat) (t : Task) (r : Region) (n : Nat) (k : Core) : Except CopyStop (Core × Nat × Bool) :=
  if r.space == .strm then
    let q := BitVec.ofNat 3 (r.base / 8)
    match (k.stream q).elems with
    | [] => .error .wait
    | x :: rest => .ok (k.setElems q rest, x.toNat, false)
  else match s.farNeed d t r (r.elem n).toNat r.es with
    | some u => .error (.need u)
    | none => .ok (k, s.memRead d c t r.space r.core (r.elem n).toNat r.es)

/-- The table address that an index names, or the fault of a stray index or of a poisoned one (R120). -/
def State.tableAddr (s : State) (d c : Nat) (t : Task) (table index : Region) (n k : Nat) (bad : Bool) : Except FaultInfo Int :=
  let info : Word := BitVec.ofNat 64 n
  let a := (table.base : Int) + k * (table.dims.getD 0 (1, 0)).2
  if bad then .error { cause := .poison, addr := some (s.taskAddr d c t index.space (index.elem n)), info := info }
  else if (table.dims.getD 0 (1, 0)).1 ≤ k then
    .error { cause := if table.space == .spad then .spadRange else .leaseOut, addr := some (s.taskAddr d c t table.space a), info := info }
  else .ok a

/-- Element n of a copy (R119). -/
def State.copyElem (s : State) (d c : Nat) (t : Task) (pat : Word) (n : Nat) (k : Core) : Except CopyStop CopyElem :=
  let r0 := t.copyRegion 0
  let r1 := t.copyRegion 1
  let r2 := t.copyRegion 2
  match t.copyOp with
  | 0 => match s.takeElem d c t r0 n k with
    | .error x => .error x
    | .ok (k1, v, bad) => .ok { core := k1, addr := r1.elem n, value := v, bad := bad, src := (r0.space, r0.elem n), reads := hostReadOf r0 (r0.elem n) }
  | 1 => .ok { core := k, addr := r0.elem n, value := pat.toNat, bad := false, src := (r0.space, r0.elem n), reads := [] }
  | 2 => match s.takeElem d c t r1 n k with
    | .error x => .error x
    | .ok (k1, i, ibad) => match s.tableAddr d c t r0 r1 n i ibad with
      | .error f => .error (.fault f k1 (hostReadOf r1 (r1.elem n)))
      | .ok a => match s.farNeed d t r0 a.toNat r0.es with
        | some u => .error (.need u)
        | none =>
          let (v, bad) := s.memRead d c t r0.space r0.core a.toNat r0.es
          .ok { core := k1, addr := r2.elem n, value := v, bad := bad, src := (r0.space, a), reads := hostReadOf r1 (r1.elem n) ++ hostReadOf r0 a }
  | _ => match s.takeElem d c t r1 n k with
    | .error x => .error x
    | .ok (k1, i, ibad) => match s.tableAddr d c t r2 r1 n i ibad with
      | .error f => .error (.fault f k1 (hostReadOf r1 (r1.elem n)))
      | .ok a => match s.takeElem d c t r0 n k1 with
        | .error x => .error x
        | .ok (k2, v, bad) =>
          .ok { core := k2, addr := a, value := v, bad := bad, src := (r0.space, r0.elem n), reads := hostReadOf r1 (r1.elem n) ++ hostReadOf r0 (r0.elem n) }

/-! ## A chunk (R123) -/

/-- One past the last element of the chunk that element n lies in. -/
def Task.chunkEnd (t : Task) (n : Nat) : Nat := min t.copyCount ((n * t.copySize / 4096 + 1) * 4096 / t.copySize)

/-- What the elements of a chunk come to: the core after pops and pushes, the bytes to write, the bad addresses, the host reads, the next
element, and why it stopped before the end of the chunk. -/
structure CopyRun where
  core : Core
  ws : List (Nat × Byte)
  bad : List Nat
  reads : List (Nat × Nat)
  n : Nat
  stop : Option CopyStop

/-- A push of an element (R122, R126): a poisoned one ends the task, a full register waits. -/
def pushElem (r : Region) (n : Nat) (e : CopyElem) (at_ : Word) : Except CopyStop Core :=
  let q := BitVec.ofNat 3 (r.base / 8)
  if e.bad then .error (.fault { cause := .poison, addr := some at_, info := BitVec.ofNat 64 n } e.core e.reads)
  else if Config.streamDepth ≤ (e.core.stream q).elems.length then .error .wait
  else .ok (e.core.setElems q ((e.core.stream q).elems ++ [BitVec.ofNat 64 e.value]))

/-- Elements n, n + 1, … of a chunk in ascending order, `fuel` of them at most. -/
def State.copyElems (s : State) (d c : Nat) (t : Task) (pat : Word) : Nat → CopyRun → CopyRun
  | 0, a => a
  | fuel + 1, a =>
    let w := t.copyRegion (copyWritten t.copyOp)
    match s.copyElem d c t pat a.n a.core with
    | .error x => { a with stop := some x, reads := a.reads ++ x.reads }
    | .ok e =>
      if w.space == .strm then
        match pushElem w a.n e (s.taskAddr d c t e.src.1 e.src.2) with
        | .error x => { a with stop := some x, reads := a.reads ++ x.reads }
        | .ok k => s.copyElems d c t pat fuel { a with core := k, n := a.n + 1, reads := a.reads ++ e.reads }
      else
        s.copyElems d c t pat fuel { a with
          core := e.core, n := a.n + 1, reads := a.reads ++ e.reads, ws := a.ws ++ bytesAt e.addr.toNat w.es e.value
          bad := if e.bad then a.bad ++ (List.range w.es).map (fun i => e.addr.toNat + i) else a.bad }

/-- The host reads of a chunk are over: the marks that came with them were those of these reads (R85). -/
def State.copyHostDone (s : State) (d : Nat) (t : Task) (reads : List (Nat × Nat)) : State :=
  reads.foldl (fun s r => s.hostReadDone (s.taskFn t) (hostIova (s.dieAt d) t.ctx r.1) r.2) s

/-- Records how far a copy has come; units of other dies that it read serve the chunk they were read for. -/
def State.copyAt (s : State) (d c : Nat) (t : Task) (n sent : Nat) (held : List Word) : State :=
  s.updCluster d c (fun k => k.updTask t.id (fun t =>
    { t with resume := .copy n sent held, hbmUnits := if n * t.copySize % 4096 = 0 then [] else t.hbmUnits }))

/-- RETRY can repeat a copy unless a stream's elements have been consumed (R125). -/
def Task.repeatable (t : Task) : Bool := t.regions.all (fun r => !(r.cn && r.space == .strm))

/-- A copy that has been asked to stop ends at the end of its chunk, with no flag (R124). -/
def State.copyStop (s : State) (d c : Nat) (t : Task) : State :=
  match (s.clusterAt d c).task? t.id with
  | some u => if u.stop && u.copyAtBoundary then s.endTask d c u false else s
  | none => s

/-- The mark of the unit that an address of a region lies in, wherever its memory is. -/
def State.markAt (s : State) (d c : Nat) (t : Task) (w : Region) (a : Nat) : Bool := match w.space with
  | .spad => poisoned (s.coreAt ⟨d, c, w.core⟩).poison a 1
  | .hbm => (hbmRead s.modul (s.dieAt d) t.ctx a).2
  | _ => false
/-- Bytes that a fill has sent in earlier chunks to the marked units it is writing now: with them it covers a unit entirely (R126). In a
scratchpad they stand there (R95); in HBM the partial write of the marked unit was not performed (R90), and they are the pattern's. -/
def State.fillEarlier (s : State) (d c : Nat) (t : Task) (pat : Word) (n : Nat) (ws : List (Nat × Byte)) : List (Nat × Byte) :=
  let w := t.copyRegion 0
  let us := ((ws.map (fun p => p.1 / 64)).eraseDups).filter (fun u => s.markAt d c t w (64 * u))
  if t.copyOp = 1 && !us.isEmpty then
    (((List.range n).flatMap (fun i => bytesAt (w.elem i).toNat w.es pat.toNat)).filter (fun p => us.contains (p.1 / 64))).map (fun p =>
      if w.space == .spad then (p.1, BitVec.ofNat 8 (s.memRead d c t .spad w.core p.1 1).1) else p)
  else []

/-- A chunk whose destination is memory or a stream: none when nothing can move now. One that a stream or a unit of another die interrupts
is written in parts, each judged by itself for the units it covers (DESIGN CHOICE, log 41). -/
def State.chunkHere (s : State) (d c : Nat) (t : Task) (pat : Word) : Option State :=
  let id := taskCore d c t
  let n := t.copyNext
  let w := t.copyRegion (copyWritten t.copyOp)
  let a := s.copyElems d c t pat (t.chunkEnd n - n) { core := s.coreAt id, ws := [], bad := [], reads := [], n := n, stop := none }
  let after := match a.stop with
    | some (.fault _ k _) => k
    | _ => a.core
  let s1 := s.updCore id (fun k => { k with streams := after.streams })
  let s2 := ((s1.memWrite d c t w.space w.core (s.fillEarlier d c t pat n a.ws ++ a.ws) a.bad).copyHostDone d t a.reads).copyAt d c t a.n 0 []
  match a.stop with
  | some (.fault f _ _) => some (s2.endWork d c t (some f) t.repeatable)
  | some (.need u) => if a.n = n then s.fetchFar d c t u else some s2
  | some .wait => if a.n = n then none else some (s2.copyStop d c t)
  | none => some (s2.copyStop d c t)

/-- An overlapping copy (R121): every source element is read before any is written. -/
def State.overlapHere (s : State) (d c : Nat) (t : Task) : State :=
  let w := t.copyRegion 1
  let a := s.copyElems d c t 0 t.copyCount { core := s.coreAt (taskCore d c t), ws := [], bad := [], reads := [], n := 0, stop := none }
  ((s.memWrite d c t w.space w.core a.ws a.bad).copyAt d c t t.copyCount 0 []).copyStop d c t

/-! ## Remote destinations (R122, R290) -/

/-- The region whose elements a stream register delivers, for a copy into a window. -/
def Task.streamSource (t : Task) : Option Region :=
  let r := t.copyRegion (if t.copyOp = 2 then 1 else 0)
  if t.copyOp ≠ 1 && r.space == .strm then some r else none

/-- Takes the elements that the chunk still needs and the stream holds. -/
def State.takeHeld (s : State) (id : CoreId) (r : Region) (need : Nat) (held : List Word) : State × List Word :=
  let q := BitVec.ofNat 3 (r.base / 8)
  let es := ((s.coreAt id).stream q).elems
  let m := need - held.length
  (s.updCore id (fun k => k.setElems q (es.drop m)), held ++ es.take m)

/-- Value and poison of element n of a copy into a window; `held` are the stream elements of its chunk, which begins at
element `base`. -/
def State.remoteElem (s : State) (d c : Nat) (t : Task) (pat : Word) (base : Nat) (held : List Word) (n : Nat) : Except FaultInfo (Nat × Bool) :=
  let r0 := t.copyRegion 0
  let r1 := t.copyRegion 1
  let read := fun (r : Region) => if r.space == .strm then ((held.getD (n - base) 0).toNat, false) else s.memRead d c t r.space r.core (r.elem n).toNat r.es
  match t.copyOp with
  | 0 => .ok (read r0)
  | 1 => .ok (pat.toNat, false)
  | _ =>
    let (i, ibad) := read r1
    match s.tableAddr d c t r0 r1 n i ibad with
    | .error f => .error f
    | .ok a => .ok (s.memRead d c t r0.space r0.core a.toNat r0.es)

/-- The first element of [base, m) that ends the task, with its fault. -/
def State.remoteFault (s : State) (d c : Nat) (t : Task) (pat : Word) (base m : Nat) (held : List Word) : Option (Nat × FaultInfo) :=
  (List.range (m - base)).findSome? (fun i => match s.remoteElem d c t pat base held (base + i) with
    | .error f => some (base + i, f)
    | .ok _ => none)

/-- The first unit of another die that elements [base, m) need. -/
def State.remoteNeed (s : State) (d c : Nat) (t : Task) (base m : Nat) (held : List Word) : Option FarUnit :=
  let r0 := t.copyRegion 0
  let r1 := t.copyRegion 1
  let direct := fun (r : Region) (n : Nat) => s.farNeed d t r (r.elem n).toNat r.es
  let index := fun (n : Nat) => if r1.space == .strm then ((held.getD (n - base) 0).toNat, false) else s.memRead d c t r1.space r1.core (r1.elem n).toNat r1.es
  (List.range (m - base)).findSome? (fun i =>
    let n := base + i
    match t.copyOp with
    | 0 => direct r0 n
    | 1 => none
    | _ => match direct r1 n with
      | some u => some u
      | none => match s.tableAddr d c t r0 r1 n (index n).1 (index n).2 with
        | .ok a => s.farNeed d t r0 a.toNat r0.es
        | .error _ => none)
/-- The host reads of elements [base, m), of one that ends the task as far as it came (R85). -/
def State.remoteReads (s : State) (d c : Nat) (t : Task) (base m : Nat) (held : List Word) : List (Nat × Nat) :=
  let r0 := t.copyRegion 0
  let r1 := t.copyRegion 1
  let index := fun (n : Nat) => if r1.space == .strm then ((held.getD (n - base) 0).toNat, false) else s.memRead d c t r1.space r1.core (r1.elem n).toNat r1.es
  (List.range (m - base)).flatMap (fun i =>
    let n := base + i
    match t.copyOp with
    | 0 => hostReadOf r0 (r0.elem n)
    | 1 => []
    | _ => hostReadOf r1 (r1.elem n) ++ (match s.tableAddr d c t r0 r1 n (index n).1 (index n).2 with
      | .ok a => hostReadOf r0 a
      | .error _ => []))

/-- The packets of a chunk: for each 64-byte unit that receives a byte, its elements, in ascending order of the lowest. -/
def remotePackets (w : Region) (base m : Nat) : List (List Nat) :=
  let es := (List.range (m - base)).map (fun i => base + i)
  ((es.map (fun e => (w.elem e).toNat / 64)).eraseDups).map (fun u => es.filter (fun e => (w.elem e).toNat / 64 = u))

/-- Sends packets while the window lets them go: the state and the number sent. -/
def State.sendPackets (s : State) (id : CoreId) (t : Task) (n : Nat) (m : WinMap) : Nat → List (List (Nat × Byte) × Bool) → State × Nat
  | k, [] => (s, k)
  | k, p :: rest => if s.remoteHeld id t n m then (s, k) else (s.taskWindowWrite id t n m p.1 p.2).sendPackets id t n m (k + 1) rest

/-- Elements of a stream register that were taken beyond the one that ends the task go back to its front, in the step that took them
(R177). -/
def State.giveBack (s : State) (id : CoreId) (t : Task) (es : List Word) : State :=
  match t.streamSource with
  | some r => s.updCore id (fun k => let q := BitVec.ofNat 3 (r.base / 8); k.setElems q (es ++ (k.stream q).elems))
  | none => s
/-- Where a chunk into a window is taken up: its first element, the packets sent, the stream elements held. -/
def Task.copyAt (t : Task) : Nat × Nat × List Word :=
  match t.resume with
  | .copy n k h => (n, k, h)
  | _ => (0, 0, [])
/-- The stream elements a chunk into a window takes, n at most with those it held already: none beyond the one that ends the task. -/
def State.chunkSource (s : State) (d c : Nat) (t : Task) (pat : Word) (n : Nat) : State × List Word :=
  let held := t.copyAt.2.2
  let fault := fun (s : State) (l : List Word) => s.remoteFault d c t pat t.copyAt.1 (t.copyAt.1 + l.length) l
  match t.streamSource with
  | none => (s, held)
  | some r =>
    if (fault s held).isSome then (s, held)
    else
      let q := s.takeHeld (taskCore d c t) r n held
      let keep := ((fault q.1 q.2).map (fun f => f.1 + 1 - t.copyAt.1)).getD q.2.length
      (q.1.giveBack (taskCore d c t) t (q.2.drop keep), q.2.take keep)
/-- The end of a turn of a chunk into a window, with k of its `all` packets sent: its fault, its end, no move, or a part. -/
def State.chunkAfter (s : State) (d c : Nat) (t : Task) (last got k all : Nat) (bad : Option (Nat × FaultInfo)) (taken : List Word)
    (reads : List (Nat × Nat)) : Option State :=
  let base := t.copyAt.1
  let done := s.copyHostDone d t reads
  if k = all && bad.isSome then bad.map (fun f => done.taskFault d c t f.2 t.repeatable)
  else if got = last && bad.isNone && k = all then some ((done.copyAt d c t last 0 []).copyStop d c t)
  else if k = t.copyAt.2.1 && taken.length = t.copyAt.2.2.length then none
  else some (s.copyAt d c t base k taken)

/-- A chunk into a window: elements are read, and a unit's packet goes once all its elements are there. -/
def State.chunkRemote (s : State) (d c : Nat) (t : Task) (pat : Word) : Option State :=
  let id := taskCore d c t
  let w := t.copyRegion (copyWritten t.copyOp)
  let base := t.copyAt.1
  let last := t.chunkEnd base
  let win := (w.base - 0x40000000) / 0x4000000
  match ((s.coreAt id).windows.toList.getD win {}).map with
  | none => none
  | some m =>
    let q := s.chunkSource d c t pat (last - base)
    let got := if t.streamSource.isSome then base + q.2.length else last
    let bad := q.1.remoteFault d c t pat base got q.2
    let limit := (bad.map Prod.fst).getD got
    let whole := (remotePackets w base last).takeWhile (fun es => es.all (fun e => e < limit))
    let packets := if bad.isSome then remotePackets w base limit else whole
    let bytes := fun (es : List Nat) =>
      let vs := es.map (fun e => match q.1.remoteElem d c t pat base q.2 e with
        | .ok v => (e, v)
        | .error _ => (e, (0, false)))
      (vs.flatMap (fun v => bytesAt ((w.elem v.1).toNat - (0x40000000 + win * 0x4000000)) w.es v.2.1), vs.any (fun v => v.2.2))
    match q.1.remoteNeed d c t base limit q.2 with
    | some u => s.fetchFar d c t u
    | none =>
      let r := q.1.sendPackets id t win m t.copyAt.2.1 ((packets.drop t.copyAt.2.1).map bytes)
      r.1.chunkAfter d c t last got r.2 packets.length bad q.2 (q.1.remoteReads d c t base ((bad.map (fun f => f.1 + 1)).getD got) q.2)

/-! ## The event -/

/-- A fence of the posting core holds back the HBM writes of a task in its class (R342): for the dies that hold them. -/
def State.hbmHeld (s : State) (d c : Nat) (t : Task) : Bool :=
  t.regions.any (fun r => r.space == .hbm && r.wr && (List.range s.dies).any (fun e =>
    fenceHolds t.orders (s.coreAt (taskCore d c t)).effects (s.dieNumber e) t.cls &&
    (List.range r.count).any (fun n => (hbmLookup (s.dieAt d) t.ctx (r.elem n).toNat).any (fun h => h.dpa / 2 ^ 38 == e))))

/-- The task on copy engine n of a cluster. -/
def Cluster.copyEngine (k : Cluster) (n : Nat) : Option Task := (if n = 0 then k.copy0 else if n = 1 then k.copy1 else none).bind k.task?

/-- COPY_CHUNK (R123, R124): the engine performs its chunk, or as much of it as streams and windows let go. It begins no chunk
of a task that a save is stopping. -/
def execCopyChunk (n : Nat) (s : State) : Out :=
  let d := s.core.id.die
  let c := s.core.id.clu
  match s.cluster.copyEngine n with
  | none => absent "COPY_CHUNK"
  | some t =>
    let pat := match t.op with
      | .copy _ p => p
      | _ => 0
    if t.copyCount ≤ t.copyNext || t.hasWritten || !t.hbmQueue.isEmpty || (t.copyAtBoundary && s.beingSaved d c t) || s.hbmHeld d c t then absent "COPY_CHUNK"
    else if t.overlapping then .next (s.overlapHere d c t)
    else
      let r := if (t.copyRegion (copyWritten t.copyOp)).space == .rem then s.chunkRemote d c t pat else s.chunkHere d c t pat
      match r with
      | some u => .next u
      | none => absent "COPY_CHUNK"

end Sys2Proof.Machine
end

