-- ==== Sys2Proof/Machine/Mx.lean ====
section
/-! DEFINITION. MXFP4 (R25, R133): quantisation of a block of 32, and the value of a code under its scale; and the breeze
generator (R249, R250). -/

namespace Sys2Proof.Machine

/-- The exact value v · 2^x. -/
def FVal.scale (v : FVal) (x : Int) : FVal :=
  match v with
  | .fin n m e st => .fin n m (e + x) st
  | v => v

/-- floor(log2 |v|) of a nonzero number; none for a zero. -/
def FVal.log2? (v : FVal) : Option Int :=
  match v with
  | .fin _ m e _ => if m = 0 then none else some ((Nat.log2 m : Int) + e)
  | _ => none

/-- The value of an E2M1 code under an E8M0 scale (R25): 0xFF is a NaN. -/
def mxValue (code scale : Nat) : FVal := if scale = 0xFF then .nan false else (fdecode .e2m1 code).scale ((scale : Int) - 127)

/-- Quantises a block (R133): its scale, its codes and the conditions. -/
def mxQuant (xs : List FVal) : Nat × List Nat × Sticky :=
  if xs.any (fun x => x.isNan || x.isInf) then (0xFF, xs.map (fun _ => 0), NV)
  else
    let top := xs.foldl (fun (a : Option Int) x => match a, x.log2? with
      | none, l => l
      | some p, none => some p
      | some p, some q => some (max p q)) none
    let x : Int := match top with
      | none => -127
      | some l => max (-127) (min (l - 2) 127)
    let rs := xs.map (fun v => fround .e2m1 .rne true (v.scale (-x)))
    ((x + 127).toNat, rs.map Prod.fst, rs.foldl (fun f r => f ||| r.2) 0)

/-! ## Breeze (R249, R250) -/

/-- Rotation of a 32-bit number to the left. -/
def rotl32 (x n : Nat) : Nat := x * 2 ^ n % 2 ^ 32 + x / 2 ^ (32 - n)
/-- One round of breeze on (x, y). -/
def breezeRound (k rot : Nat) (p : Nat × Nat) : Nat × Nat :=
  let x := (p.1 + p.2 + k) % 2 ^ 32
  (x, rotl32 p.2 rot ^^^ x)
/-- z = breeze(kt, ctr) (R249). -/
def breeze (kt ctr : Nat) : Nat :=
  let k0 := kt % 2 ^ 32
  let k1 := kt / 2 ^ 32 % 2 ^ 32
  let p := breezeRound k1 25 (breezeRound k0 19 (breezeRound k1 13 (breezeRound k0 7 (ctr % 2 ^ 32, ctr / 2 ^ 32 % 2 ^ 32))))
  p.2 * 2 ^ 32 + p.1
/-- The counter of word j in kernel iteration i for element e (R250). -/
def breezeCtr (i j e : Nat) : Nat := (i * 2 ^ 20) % 2 ^ 64 ||| j * 2 ^ 12 ||| e

end Sys2Proof.Machine
end

