-- ==== Sys2Proof/Machine/Atelier.lean ====
section
/-! DEFINITION. Posting a task (R311): the checks of its regions (R98–R101, R289), of its kind (R115–R117, R130, R196–R199,
R206–R208, R216, R305, R306), cancellation, quota and admission (R312–R314, R318). -/

namespace Sys2Proof.Machine

/-! ## Who posts -/

/-- The core a POST is checked against: the posting core, or the target core of a remote post (R299). -/
structure Poster where
  id : CoreId
  ctx : Nat
  remote : Bool
  srcDie : Nat
  limit : Nat
  shift : Nat
  sMode : Bool
  bufs : List Buffer
  fpctl : BitVec 3
  windows : Vector Window 16
  streams : Vector Stream 8

/-- The acting core as poster. In S mode no placement and no buffer applies (R383). -/
def State.poster (s : State) : Poster :=
  let c := s.core
  { id := c.id, ctx := c.cid.toNat, remote := false, srcDie := s.dieNumber c.id.die, limit := c.limit, shift := c.shift,
    sMode := c.sMode, bufs := c.bufs, fpctl := c.cr.fpctl, windows := c.windows, streams := c.streams }

/-! ## Regions (R98–R101) -/

/-- A checked region: with its own addresses and, for SPAD, as relocated and placed. -/
structure Checked where
  log : Region
  phys : Region

/-- The bound of a region's space (R98, R289). -/
def boundOk (s : State) (p : Poster) (r : Region) : Option Cause :=
  let d := s.dieAt p.id.die
  match r.space with
  | .spad => if 0 ≤ r.lo ∧ r.hi < (p.limit : Int) then none else some .spadRange
  | .hbm => if r.within (hbmCovers d p.ctx r.reads r.writes) then none else some .mapMiss
  | .host => if r.within (hostCovers d p.ctx r.reads r.writes) then none else some .mapMiss
  | .rem =>
    let ok := (List.range 16).any (fun n => match (p.windows.toList.getD n {}).map with
      | some m => decide ((0x40000000 + n * 0x4000000 : Nat) ≤ r.lo ∧ r.hi < (0x40000000 + n * 0x4000000 + m.size : Nat))
      | none => false)
    if ok then none else some .winUnmapped
  | .pal => if 0 ≤ r.lo ∧ r.hi < 0x400000 then none else some .taskForm
  | .acc => if 0 ≤ r.lo ∧ r.hi < 0xC00000 then none else some .taskForm
  | .strm => if r.base % 8 = 0 ∧ r.base < 64 ∧ r.es = 8 ∧ r.dims.all (fun d => d.2 == 0) then none else some .taskForm

/-- A region after the buffer check: relocated to the current version and placed (R103, R105, R106, R383). -/
def relocated (p : Poster) (r : Region) : Except Cause Region :=
  if r.null || r.space != .spad then .ok r
  else if p.sMode then .ok { r with base := r.base + p.shift }
  else match bufRelocate p.bufs r.lo r.hi r.rd r.wr r.cn with
    | .error c => .error c
    | .ok d => .ok { r with base := r.base + d + p.shift }

/-- One region: form, its role in the command, bound, buffers (R101, R115). -/
def checkRegion (s : State) (p : Poster) (role : Region → Bool) (x : BitVec 256) : Except Cause Checked :=
  match readRegion x p.id.core with
  | .error c => .error c
  | .ok r =>
    if r.null then .ok { log := r, phys := r }
    else if !role r then .error .taskForm
    else match boundOk s p r with
      | some c => .error c
      | none =>
        match relocated p r with
        | .error c => .error c
        | .ok q => .ok { log := r, phys := q }

/-- Regions in ascending index; a fault names the index (R375). -/
def checkRegions (s : State) (p : Poster) : List ((Region → Bool) × BitVec 256) → Nat → Res (List Checked)
  | [], _ => .ok []
  | (role, x) :: rest, i =>
    match checkRegion s p role x with
    | .error c => .fault { cause := c, idx := i }
    | .ok k => (checkRegions s p rest (i + 1)).bind fun ks => .ok (k :: ks)

/-- Any role. -/
def anyRole (_ : Region) : Bool := true
/-- The role of an accumulator command's regions (R206): a load reads them, a drain writes them (DEDUCED, log 80). -/
def acRole (op : Nat) (r : Region) : Bool := if op == 1 then r.reads else r.writes
/-- A read region in given spaces: RD or CN, not WR; a written one: WR, neither RD nor CN (R115, R130). -/
def readRole (sp : List Space) (r : Region) : Bool := sp.contains r.space && (r.rd || r.cn) && !r.wr
def writeRole (sp : List Space) (r : Region) : Bool := sp.contains r.space && r.wr && !r.rd && !r.cn

/-! ## What a POST asks the Atelier to take -/

/-- A task that has passed the checks of step 2: its work, its regions, the hulls of its CN regions in own scratchpad. -/
structure Draft where
  op : TaskOp
  regions : List Region
  consumed : List (Int × Int)

/-- The fields every posting command carries (R112, R303). -/
structure Label where
  pri : BitVec 2
  cls : BitVec 4
  flag : Option (BitVec 6)
  tag : BitVec 16

/-- Hulls of the CN regions in the poster's scratchpad; in S mode a region lies in no buffer (R383). -/
def consumedOf (p : Poster) (ks : List Checked) : List (Int × Int) :=
  if p.sMode then [] else
  (ks.filter (fun k => !k.log.null && k.log.cn && k.log.space == .spad)).map (fun k => (k.log.lo, k.log.hi))

/-- STRM regions name bound registers (R175); a fault names the region (R375). -/
def streamsBound (p : Poster) (rs : List Region) : Res Unit :=
  match rs.findIdx? (fun r => !r.null && r.space == .strm && !(p.streams.toList.getD (r.base / 8) {}).bound) with
  | some i => .fault { cause := .streamUnbound, idx := i }
  | none => .ok ()

/-- An implicit region: ES 3, ND 0 (R63, R130, R199). -/
def implicitRegion (core : Nat) (sp : Space) (base n : Nat) (rd wr : Bool) : Region :=
  { null := false, rd := rd, wr := wr, cn := false, space := sp, es := 8, base := base, dims := [(n, 8)], core := core }

/-! ## Copies (R115–R117) -/

def copySpaces : List Space := [.spad, .hbm, .host]
/-- Roles of the entries of a copy block (R115). -/
def copyRoles (op : Nat) : List (Region → Bool) :=
  match op with
  | 0 => [readRole (.strm :: copySpaces), writeRole (.rem :: .strm :: copySpaces)]
  | 1 => [writeRole (.rem :: copySpaces)]
  | 2 => [readRole copySpaces, readRole (.strm :: copySpaces), writeRole (.rem :: .strm :: copySpaces)]
  | _ => [readRole (.strm :: copySpaces), readRole (.strm :: copySpaces), writeRole copySpaces]

def region (rs : List Region) (i : Nat) : Region := rs.getD i (nullRegion 0)

/-- TASK_FORM with the index of the first region that a check of a block finds bad (R375). -/
def regionsOk (bad : List Bool) : Res Unit := match bad.findIdx? (fun b => b) with
  | some i => .fault { cause := .taskForm, idx := i }
  | none => .ok ()

/-- The shape checks of R117, region by region; one on two regions is the later one's (DESIGN CHOICE, log 98). -/
def copyShapeBad (op : Nat) (rs : List Region) : List Bool :=
  let a := region rs 0
  let b := region rs 1
  let c := region rs 2
  let clash := fun (x y : Region) => x.space == y.space && sameIdentity x y && conflict x y
  let index := b.null || !(b.es == 4 || b.es == 8)
  match op with
  | 0 => if b.null then []
    else [a.null, a.count != b.count || a.es != b.es || ((a.space == .hbm || a.space == .host || a.space == .strm) && clash a b)]
  | 1 => []
  | 2 => if c.null then [] else [a.null || a.dims.length != 1, index, b.count != c.count || a.es != c.es || clash a c || clash b c]
  | _ => if c.null then [] else [a.null, index || b.count != a.count, a.es != c.es || c.dims.length != 1 || clash a c || clash b c]

/-- A copy command's block (R113, R115, R117). -/
def draftCopy (s : State) (p : Poster) (op : Nat) (pat : Word) (entries : List (BitVec 256)) : Res Draft :=
  (checkRegions s p ((copyRoles op).zip entries) 0).bind fun ks =>
    let rs := ks.map (fun k => k.phys)
    (regionsOk (copyShapeBad op rs)).bind fun _ => (streamsBound p rs).bind fun _ =>
    .ok { op := .copy op pat, regions := rs, consumed := consumedOf p ks }

/-! ## Shaper (R128–R130, R132) -/

/-- Header fields (R128). -/
def shSlot2 (h : Word) : Nat := bits h 39 35
def shSlot (h : Word) : Nat := bits h 34 30
def shRm (h : Word) : Nat := bits h 29 27
def shSat (h : Word) : Bool := bit h 26
def shCj (h : Word) : Bool := bit h 25
def shTr (h : Word) : Bool := bit h 24
def shTall (h : Word) : Bool := bit h 23
def shCsm (h : Word) : Nat := bits h 22 21
def shDf (h : Word) : Nat := bits h 20 17
def shSf (h : Word) : Nat := bits h 16 13

def typeMx4 : Nat := 6
def typeZ64 : Nat := 7
/-- A header names two descriptors for a source in MXFP4 or `.z64` (R113); one that names them in DF alone has one (DESIGN CHOICE,
log 73). -/
def shTwo (h : Word) : Bool := shSf h == typeMx4 || shSf h == typeZ64
/-- Bytes of an element of a format in memory; one for the nibble pairs of MXFP4 (R130). -/
def shBytes (t : Nat) : Nat := match t with
  | 0 => 8 | 7 => 8 | 1 => 4 | 2 => 2 | 3 => 2 | _ => 1
/-- Rows and columns of a slot (R129). -/
def slotShape (t : Nat) (tall : Bool) : Nat × Nat :=
  match t with
  | 0 => (128, 128)
  | 7 => (128, 128)
  | 1 => if tall then (128, 256) else (256, 128)
  | 2 => (256, 256)
  | 3 => (256, 256)
  | 6 => if tall then (1024, 256) else (256, 1024)
  | _ => if tall then (512, 256) else (256, 512)

/-- The pairing table of R132. -/
def shPair (sf df : Nat) (tall tr : Bool) : Bool :=
  let flt := fun t => decide (t ≤ 6)
  let int8 := fun t => t == 14 || t == 15
  if sf == typeMx4 && df == typeMx4 then tall == tr
  else (flt sf && flt df) || (sf == typeZ64 && df == typeZ64) || (int8 sf && int8 df)

/-- The header form of R130 step 1. -/
def shHeaderBad (unload : Bool) (x : BitVec 256) : Bool :=
  let h := dword x 0
  bits h 63 40 != 0 || bits h 12 0 != 0 || x.toNat / 2 ^ 64 != 0 ||
  shRm h == 5 || shRm h == 6 || (shDf h == typeMx4 && shRm h != 0) || shCsm h == 3 ||
  !shPair (shSf h) (shDf h) (shTall h) (shTr h) ||
  (shDf h == typeZ64 && shSlot2 h == shSlot h) || (shDf h != typeZ64 && shSlot2 h != 0) ||
  (shCj h && 14 ≤ shSf h) ||
  (unload && (shSf h != shDf h || shRm h != 0 || shSat h || shCj h || shCsm h != 0))

/-- The slots a header names. -/
def shSlots (h : Word) : List Nat := if shDf h == typeZ64 then [shSlot h, shSlot2 h] else [shSlot h]

/-- Slots and tiles of a context that a core owns (R189, R194). -/
def State.ownsSlot (s : State) (p : Poster) (n : Nat) : Bool :=
  (s.ctxAt p.id.die p.id.clu p.ctx).any (fun x => x.slotOwner.contains (n, p.id.core))
def State.ownsTile (s : State) (p : Poster) (n : Nat) : Bool :=
  (s.ctxAt p.id.die p.id.clu p.ctx).any (fun x => x.tileOwner.contains (n, p.id.core))

def extent (r : Region) (d : Nat) : Nat := (r.dims.getD d (1, 0)).1

/-- The shape checks of R130 step 4, region by region; one on two regions is the later one's (DESIGN CHOICE, log 98). -/
def shShapeBad (unload : Bool) (h : Word) (rs : List Region) : List Bool :=
  let (nr, nc) := slotShape (shDf h) (shTall h)
  let (nr', nc') := if shTr h then (nc, nr) else (nr, nc)
  let cols := fun (r : Region) => if shSf h == typeMx4 then 2 * extent r 0 else extent r 0
  let fits := fun (r : Region) =>
    if unload then extent r 1 == nr' && cols r == nc' else decide (extent r 1 ≤ nr') && decide (cols r ≤ nc')
  let bad := fun (r : Region) => !r.null && (r.dims.length != 2 || r.es != shBytes (shSf h))
  let a := region rs 0
  let b := region rs 1
  let mx4 := shSf h == typeMx4
  [bad a || (!a.null && !fits a) || (mx4 && (if a.null then !b.null else cols a % 32 != 0)),
   bad b || (mx4 && !a.null && (b.null || extent b 1 != extent a 1 || extent b 0 != cols a / 32)) ||
    (shSf h == typeZ64 && !b.null && (!fits b || (!a.null && (extent a 0 != extent b 0 || extent a 1 != extent b 1))))]

/-- A shaper command (R130). -/
def draftShape (s : State) (p : Poster) (unload : Bool) (header : BitVec 256) (entries : List (BitVec 256)) : Res Draft :=
  let h := dword header 0
  let role := if unload then writeRole [.spad] else readRole [.spad, .hbm]
  (faultIf (shHeaderBad unload header) .taskForm).bind fun _ =>
  (faultIf ((shSlots h).any (fun n => !s.ownsSlot p n)) .palState).bind fun _ =>
  (checkRegions s p (entries.map (fun e => (role, e))) 0).bind fun ks =>
    let rs := ks.map (fun k => k.phys)
    (regionsOk (shShapeBad unload h rs)).bind fun _ =>
    let own := (shSlots h).map (fun n => implicitRegion p.id.core .pal (n * Config.slotBytes) 16384 unload (!unload))
    let h' := if shRm h == 7 then h &&& ~~~(0x38000000 : Word) ||| (p.fpctl.setWidth 64 <<< 27) else h
    .ok { op := .shape unload h', regions := rs ++ own, consumed := consumedOf p ks }

/-! ## Matrix commands (R196–R199) -/

/-- Slots a matrix command reads (R197): four for `mma.z64`. -/
def mmaSlots (minor a b : Nat) : List Nat := if minor == 8 then [a, a + 1, b, b + 1] else [a, b]
/-- The parts a matrix command writes, as implicit regions (R199): the whole tile, or the half that SPEC bit 2 names. -/
def mmaPart (core minor tile : Nat) (spec : BitVec 3) : Region :=
  if minor == 7 then implicitRegion core .acc (tile * Config.tileBytes + bitOf (spec.getLsbD 2) * 0x20000) 16384 true true
  else implicitRegion core .acc (tile * Config.tileBytes) 32768 true true

/-- A matrix command (R198). -/
def draftMma (s : State) (p : Poster) (minor tile a b : Nat) (spec : BitVec 3) : Res Draft :=
  (faultIf ((mmaSlots minor a b).any (fun n => !s.ownsSlot p n)) .palState).bind fun _ =>
  (faultIf (!s.ownsTile p tile) .accOwner).bind fun _ =>
  .ok { op := .mma minor tile a b spec
        regions := (mmaSlots minor a b).map (fun n => implicitRegion p.id.core .pal (n * Config.slotBytes) 16384 true false) ++
          [mmaPart p.id.core minor tile spec]
        consumed := [] }

/-! ## Accumulator commands (R206–R208) -/

/-- Header fields (R207). -/
def acSat (h : Word) : Bool := bit h 22
def acRm (h : Word) : Nat := bits h 21 19
def acMf (h : Word) : Nat := bits h 18 15
def acCk (h : Word) : Bool := bit h 14
def acKind (h : Word) : Nat := bits h 13 12
def acHs (h : Word) : Nat := bits h 11 10
def acTile (h : Word) : Nat := bits h 5 0

/-- The pairs of KIND and MF (R208). -/
def acPair (op kind mf : Nat) : Bool :=
  match op, kind with
  | 1, 0 => mf == 1 || mf == 2 || mf == 3
  | 2, 0 => mf == 1 || mf == 2 || mf == 3 || mf == 4 || mf == 5
  | 1, 1 => mf == 10 || mf == 12 || mf == 14
  | 2, 1 => mf == 10 || mf == 12 || mf == 14
  | 1, 2 => mf == 0 || mf == 1
  | 2, 2 => mf == 0 || mf == 1
  | _, _ => true

/-- Regions that follow an accumulator header (R206). -/
def acRegions (op : Nat) (h : Word) : Nat :=
  if op == 1 || op == 2 then (if acKind h == 2 && acHs h == 0 then 2 else 1) else 0

/-- Bytes of an element of MF (R56). -/
def acBytes (mf : Nat) : Nat := match mf with
  | 0 => 8 | 1 => 4 | 2 => 2 | 3 => 2 | 10 => 4 | 12 => 2 | _ => 1

/-- A region that R208 calls malformed; a null region is not examined (R99). -/
def acRegionBad (h : Word) (x : BitVec 256) : Bool :=
  let w := dword x 0
  let n := if acKind h == 2 then 128 else 256
  !bit w 58 && (!(bits w 50 48 == 0 || bits w 50 48 == 1) || bits w 54 53 != 1 || 2 ^ bits w 52 51 != acBytes (acMf h) ||
    (descDim x 0).1 != n || (descDim x 1).1 != n)

/-- The malformed headers of R208, but for their regions. -/
def acHeaderBad (op : Nat) (x : BitVec 256) : Bool :=
  let h := dword x 0
  bits h 63 23 != 0 || bits h 9 6 != 0 || x.toNat / 2 ^ 64 != 0 || acKind h == 3 || acHs h == 3 || decide (47 < acTile h) ||
  (acHs h != 0 && acKind h != 2) || acRm h == 5 || acRm h == 6 ||
  (op == 3 && (acMf h != 0 || acRm h != 0 || acSat h || acCk h)) || (op == 0 && (acMf h != 0 || acRm h != 0 || acSat h)) ||
  !acPair op (acKind h) (acMf h)

/-- The implicit ACC region of an accumulator command (R199, R206). -/
def acPart (core op : Nat) (h : Word) : Region :=
  let rd := op == 2 || op == 3
  if acHs h == 0 then implicitRegion core .acc (acTile h * Config.tileBytes) 32768 rd (!rd)
  else implicitRegion core .acc (acTile h * Config.tileBytes + (acHs h - 1) * 0x20000) 16384 rd (!rd)

/-- An accumulator command (R206, R208): header, ownership, regions. -/
def draftAcc (s : State) (p : Poster) (op : Nat) (header : BitVec 256) (entries : List (BitVec 256)) : Res Draft :=
  let h := dword header 0
  (faultIf (acHeaderBad op header) .taskForm).bind fun _ => (regionsOk (entries.map (acRegionBad h))).bind fun _ =>
  (faultIf (!s.ownsTile p (acTile h)) .accOwner).bind fun _ =>
  (checkRegions s p (entries.map (fun e => (acRole op, e))) 0).bind fun ks =>
    let h' := if acRm h == 7 then h &&& ~~~(0x380000 : Word) ||| (p.fpctl.setWidth 64 <<< 19) else h
    .ok { op := .acc op h', regions := ks.map (fun k => k.phys) ++ [acPart p.id.core op h], consumed := consumedOf p ks }

/-! ## Staged records (R303–R306) -/

def recD (r : BitVec 512) (i : Nat) : Word := dword r i
def recKind (r : BitVec 512) : Nat := bits (recD r 0) 57 56
def recOp (r : BitVec 512) : Nat := bits (recD r 0) 55 51
def recFe (r : BitVec 512) : Bool := bit (recD r 0) 44
def recNr (r : BitVec 512) : Nat := bits (recD r 0) 21 18
def recN (r : BitVec 512) : Nat := bits (recD r 0) 11 4 + 1
def recNa (r : BitVec 512) : Nat := bits (recD r 4) 55 52
def recWm (r : BitVec 512) : Nat := bits (recD r 4) 63 56
def recStages (r : BitVec 512) : Nat := bits (recD r 0) 17 15 + 1
def recDepth (r : BitVec 512) : Nat := bits (recD r 0) 14 12 + 1
def recBody (r : BitVec 512) : Nat := bits (recD r 1) 63 32
def recBlk (r : BitVec 512) : Nat := bits (recD r 1) 31 0
def recWkp (r : BitVec 512) : Nat := bits (recD r 3) 31 0
def recArp (r : BitVec 512) : Nat := bits (recD r 4) 31 0
def recLabel (r : BitVec 512) : Label :=
  let w := recD r 0
  { pri := BitVec.ofNat 2 (bits w 50 49), cls := BitVec.ofNat 4 (bits w 48 45)
    flag := if recFe r then some (BitVec.ofNat 6 (bits w 43 38)) else none, tag := BitVec.ofNat 16 (bits w 37 22) }

/-- Extent minus 1 of dimension d (R304). -/
def recExtent (r : BitVec 512) (d : Nat) : Nat := if d < 4 then bits (recD r 2) (16 * d + 15) (16 * d) else bits (recD r 3) (16 * d - 17) (16 * d - 32)

/-- KIND and OP name a command (R303). -/
def recOpOk (r : BitVec 512) : Bool :=
  let op := recOp r
  match recKind r with
  | 0 => op == 0
  | 1 => op ≤ 8 || (16 ≤ op && op ≤ 19)
  | 2 => op ≤ 3
  | _ => op ≤ 1

/-- Whether the record's kind names a block (R310): copies, shapes, accumulator commands. -/
def recMat (r : BitVec 512) : Bool := recKind r == 1 && recOp r ≤ 8

/-- SPEC bits that a minor lists (R197). -/
def mmaSpecOk (minor : Nat) (spec : Nat) : Bool :=
  match minor with
  | 2 => spec ≤ 1
  | 3 => spec ≤ 1
  | 4 => spec ≤ 3
  | 7 => spec == 0 || spec == 4
  | 8 => spec ≤ 3
  | _ => spec == 0

/-- The indices of the walkers that WM selects, ascending. -/
def wmList (r : BitVec 512) : List Nat := (List.range 8).filter (fun w => recWm r / 2 ^ w % 2 == 1)

/-- A walker entry breaks R305, or binds a region outside SPAD and REM (R306). -/
def walkerBad (r : BitVec 512) (regions : List (BitVec 256)) (e : BitVec 256) : Bool :=
  let w := dword e 0
  let reg := bits w 2 0
  let x := dword (regions.getD reg 0) 0
  bits w 63 6 != 0 || decide (recNr r ≤ reg) || decide (recStages r ≤ bits w 5 3) ||
  (List.range 6).any (fun d => decide (recDepth r ≤ d) && e.toNat / 2 ^ (64 + 32 * d) % 2 ^ 32 != 0) ||
  (!bit x 58 && !(bits x 50 48 == 0 || bits x 50 48 == 3))

/-- The checks of R306 on a staged task. -/
def recBad (limit : Nat) (g : Staged) : Bool :=
  let r := g.rec_
  let w0 := recD r 0
  let plain := bits w0 21 4 == 0
  let common := bits w0 63 58 != 0 || bits w0 3 0 != 0 || bits (recD r 4) 51 32 != 0 || recD r 5 != 0 || recD r 6 != 0 || recD r 7 != 0 ||
    !recOpOk r || (!recFe r && bits w0 43 38 != 0)
  common || (match recKind r with
    | 0 =>
      decide (8 < recNr r) || decide (8 < recNa r) || recBody r % 8 != 0 || decide (limit < recBody r + 8 * recN r) ||
      decide (6 < recDepth r) || (List.range 6).any (fun d => decide (recDepth r ≤ d) && recExtent r d != 0) ||
      decide (2 ^ 32 < ((List.range (recDepth r)).map (fun d => recExtent r d + 1)).foldl (· * ·) 1) ||
      g.walkers.any (walkerBad r g.regions)
    | 1 =>
      if recMat r then
        let w2 := recD r 2
        !plain || recD r 1 != 0 || bits w2 63 19 != 0 || recD r 3 != 0 || recD r 4 != 0 || decide (47 < bits w2 5 0) ||
        !mmaSpecOk (recOp r) (bits w2 18 16) || (recOp r == 8 && (bits w2 10 6 % 2 == 1 || bits w2 15 11 % 2 == 1))
      else !plain || bits (recD r 1) 63 32 != 0 || recD r 2 != 0 || recD r 3 != 0 || recD r 4 != 0
    | 2 => !plain || bits (recD r 1) 63 32 != 0 || recD r 2 != 0 || recD r 3 != 0 || recWm r != 0 || decide (8 < recNa r)
    | _ => !plain || bits (recD r 1) 63 32 != 0 || recD r 2 != 0 || recD r 3 != 0 || recD r 4 != 0)

/-- A walker's binding (R305). -/
def walkerOf (r : BitVec 512) (e : BitVec 256) : Walker :=
  let w := dword e 0
  { region := bits w 2 0, lag := bits w 5 3,
    strides := (List.range (recDepth r)).map (fun d => toSigned 32 (e.toNat / 2 ^ (64 + 32 * d))) }

/-- The walkers w0–w7 of a staged vector task. -/
def walkersOf (g : Staged) : List (Option Walker) :=
  (List.range 8).map (fun w => match (wmList g.rec_).idxOf? w with
    | some i => (g.walkers[i]?).map (walkerOf g.rec_)
    | none => none)

/-- A vector task (R216, R63): its regions, then the implicit body region, which obeys the buffer rules of a read. -/
def draftVec (s : State) (p : Poster) (g : Staged) : Res Draft :=
  let r := g.rec_
  (checkRegions s p (g.regions.map (fun e => (anyRole, e))) 0).bind fun ks =>
    let body : Region := { (implicitRegion p.id.core .spad (recBody r) (recN r) true false) with dims := [(recN r, 8)] }
    match relocated p body with
    | .error c => .fault { cause := c, idx := g.regions.length }
    | .ok b =>
      let rs := ks.map (fun k => k.phys)
      (streamsBound p rs).bind fun _ =>
      .ok { op := .vec { body := b.base, n := recN r, extents := (List.range (recDepth r)).map (fun d => recExtent r d + 1),
                         stages := recStages r, walkers := walkersOf g, args := g.args }
            regions := rs ++ [b]
            consumed := consumedOf p ks }

/-- Presence of the F64 canvas path (R23, R197). -/
def zmatMissing (s : State) (minor : Nat) : Bool := !s.modul.caps.zmat && (minor == 7 || minor == 8)

/-- The checks of a staged task of any kind (R306, R311 step 2). -/
def draftStaged (s : State) (p : Poster) (g : Staged) : Res Draft :=
  let r := g.rec_
  (faultIf (recBad p.limit g) .taskForm).bind fun _ =>
  match recKind r with
  | 0 => draftVec s p g
  | 1 =>
    if recMat r then
      let w2 := recD r 2
      (faultIf (zmatMissing s (recOp r)) .unitAbsent).bind fun _ =>
      draftMma s p (recOp r) (bits w2 5 0) (bits w2 10 6) (bits w2 15 11) (BitVec.ofNat 3 (bits w2 18 16))
    else draftAcc s p (recOp r - 16) (g.header.getD 0) g.regions
  | 2 => draftCopy s p (recOp r) (g.args.getD 0 0) g.regions
  | _ => draftShape s p (recOp r == 1) (g.header.getD 0) g.regions

/-! ## Cancellation, quota, admission (R311 steps 3–5) -/

/-- What steps 3 to 5 come to: admitted, or no entry free. -/
inductive Posted where
  | admitted (s : State)
  | full

/-- Whether an older task holds a newer one back (R318). -/
def waitsFor (new old : List Region) : Bool :=
  old.any (fun q => new.any (fun x => ((q.writes && (x.reads || x.writes)) || (q.reads && x.writes)) && regionsConflict q x))

/-- The task entry of an admission (R311 step 5, R318, R321): POSTED passes within the step. It waits for every older pending task of its
cluster and context that conflicts, a saved one among them, as R318 counts (DESIGN CHOICE, log 81: R424 counts otherwise). -/
def State.newTask (s : State) (p : Poster) (k : Cluster) (l : Label) (d : Draft) : Task :=
  let c := s.coreAt p.id
  let older := k.tasks.filter (fun t => t.pending && t.ctx = p.ctx) ++ s.savedTasks p.id.die p.id.clu p.ctx
  let waits := (older.filter (fun t => waitsFor d.regions t.regions)).map (fun t => t.id)
  { id := k.nextTask, ctx := p.ctx, core := p.id.core, remote := p.remote, srcDie := p.srcDie
    fjob := ((s.jobOf p.ctx).map (fun j => j.fjob)).getD 0, op := d.op
    phase := if waits.isEmpty then .ready else .waiting
    waits := waits, regions := d.regions, tag := l.tag, pri := l.pri, cls := l.cls, flag := l.flag, rm := p.fpctl
    kt := c.cr.bkey ^^^ c.cr.bseq
    bindings := (k.ctxAt p.ctx).map (fun x => x.bindings) |>.getD []
    policy := if p.remote then 2 else BitVec.ofNat 2 (c.cr.cpol.toNat / 2 ^ 14)
    count := if p.remote then 0 else c.cr.cpol.toNat / 2 ^ 8 % 64
    flags := 0, resume := .start, stop := false
    entries := (d.regions.filter (fun r => !r.null)).length
    orders := if p.remote then [] else c.fences }

/-- A vector task takes its breeze key and moves `CR_BSEQ` on (R250). -/
def Core.takeKey (c : Core) (op : TaskOp) : Core :=
  match op with
  | .vec _ => { c with cr := { c.cr with bseq := c.cr.bseq + 1 } }
  | _ => c

/-- Steps 3 to 5 of R311: cancellation, space, and the indivisible admission. -/
def State.enterTask (s : State) (p : Poster) (l : Label) (d : Draft) : Res Posted :=
  let k := s.clusterAt p.id.die p.id.clu
  if (k.ctxAt p.ctx).any (fun x => x.cancelled) then .fault { cause := .cancel }
  else if !k.hasRoom p.remote p.id.core ((d.regions.filter (fun r => !r.null)).length) then .ok .full
  else
    let t := s.newTask p k l d
    let s1 := s.updCluster p.id.die p.id.clu (fun k => { k with tasks := k.tasks ++ [t], nextTask := k.nextTask + 1 })
    .ok (.admitted (s1.updCore p.id (fun c =>
      let c1 := if c.holds p.ctx then { c with bufs := d.consumed.foldl (fun b h => bufConsume b h.1 h.2) c.bufs } else c
      if p.remote then c1 else c1.takeKey d.op)))

/-- Steps 3 to 5 for the acting core: admission is stopped between a load and its `resume` (R388, R396); a cancelled context's POST
faults before that (R311, R312). -/
def State.enterTaskHere (s : State) (l : Label) (d : Draft) : Res Posted :=
  if s.core.aside.isSome && !(s.cluster.ctxAt s.core.cid.toNat).any (fun x => x.cancelled) then .ok .full else s.enterTask s.poster l d

/-- Ends a posting instruction (R113): with NB sd says whether the task was admitted; without it a full quota stalls. -/
def endsPost (s : State) (nb : Bool) (sd : Reg) (r : Res Posted) : Out :=
  ends s (r.bind fun q =>
    match q with
    | .admitted t => .ok (if nb then t.wr sd 1 else t).advance
    | .full => if nb then .ok (s.wr sd 0).advance else .stall .quota)

end Sys2Proof.Machine
end

