-- ==== Sys2Proof/Machine/Posting.lean ====
section
/-! DEFINITION. The posting commands: copies, shaper, matrix and accumulator commands (R112–R114, R196, R206), and
`acc.give` (R195). -/

namespace Sys2Proof.Machine

/-- What a posting command carries in its low fields (R112); its tag is 0 (DEDUCED, log 28). -/
def cmdLabel (o : OpCmd) : Label :=
  { pri := o.pri, cls := o.cls, flag := if o.fe then some o.flg else none, tag := 0 }

/-- The block address of a posting command (R113). -/
def blockAddr (s : State) (r : Reg) : Res Nat :=
  let a := s.rd r
  (needCtx s).bind fun _ => (faultAt (a.toNat / 2 ^ 32 != 0) .spadRange a).bind fun _ =>
  (faultAt (a.toNat % 32 != 0) .misalign a).bind fun _ => .ok a.toNat

/-- A block with a header: the header is read first and fixes the number of descriptors after it (R113). -/
def readHeaded (s : State) (a : Nat) (n : Word → Nat) : Res (BitVec 256 × List (BitVec 256)) :=
  (coreLoadEntry s a).bind fun h => (coreLoadEntries s (a + 32) (n (dword h 0))).bind fun es => .ok (h, es)

/-- Entries of a copy block (R113). -/
def copyEntries (op : Nat) : Nat := (copyRoles op).length
/-- Descriptors after a shaper header (R113). -/
def shapeEntries (h : Word) : Nat := if shTwo h then 2 else 1

/-- A copy command. -/
def postCopy (s : State) (o : OpCmd) (op : Nat) (pat : Word) : Out :=
  endsPost s o.nb o.d ((blockAddr s o.a).bind fun a => (coreLoadEntries s a (copyEntries op)).bind fun es =>
    (draftCopy s s.poster op pat es).bind fun d => s.seesAll.enterTaskHere (cmdLabel o) d)
/-- A shaper command. -/
def postShape (s : State) (o : OpCmd) (unload : Bool) : Out :=
  endsPost s o.nb o.d ((blockAddr s o.a).bind fun a => (readHeaded s a shapeEntries).bind fun (h, es) =>
    (draftShape s s.poster unload h es).bind fun d => s.seesAll.enterTaskHere (cmdLabel o) d)
/-- An accumulator command. -/
def postAcc (s : State) (o : OpCmd) (op : Nat) : Out :=
  endsPost s o.nb o.d ((blockAddr s o.a).bind fun a => (readHeaded s a (acRegions op)).bind fun (h, es) =>
    (draftAcc s s.poster op h es).bind fun d => s.seesAll.enterTaskHere (cmdLabel o) d)
/-- A matrix command (R198): presence (R62 step 4), slots, tile, post. -/
def postMma (s : State) (o : OpMma) (minor : Nat) : Out :=
  endsPost s false 0 ((needCtx s).bind fun _ => (faultIf (zmatMissing s minor) .unitAbsent).bind fun _ =>
    (draftMma s s.poster minor o.d.toNat o.a.toNat o.b.toNat o.spec).bind fun d =>
      s.enterTaskHere { pri := o.pri, cls := 0, flag := none, tag := 0 } d)

/-- `cp.box` (R115, R119). -/
def execCpBox (o : OpCmd) (s : State) : Out := postCopy s o 0 0
/-- `cp.fill`: the pattern is read at issue (R119). -/
def execCpFill (o : OpCmd) (s : State) : Out := postCopy s o 1 (s.rd o.b)
/-- `cp.gather`. -/
def execCpGather (o : OpCmd) (s : State) : Out := postCopy s o 2 0
/-- `cp.scatter`. -/
def execCpScatter (o : OpCmd) (s : State) : Out := postCopy s o 3 0
/-- `sh.load` (R130). -/
def execShLoad (o : OpCmd) (s : State) : Out := postShape s o false
/-- `sh.unload` (R130). -/
def execShUnload (o : OpCmd) (s : State) : Out := postShape s o true

/-- `mma.bf16` (R197). -/
def execMmaBf16 (o : OpMma) (s : State) : Out := postMma s o 0
/-- `mma.f16` (R197). -/
def execMmaF16 (o : OpMma) (s : State) : Out := postMma s o 1
/-- `mma.e4m3` (R197). -/
def execMmaE4m3 (o : OpMma) (s : State) : Out := postMma s o 2
/-- `mma.e5m2` (R197). -/
def execMmaE5m2 (o : OpMma) (s : State) : Out := postMma s o 3
/-- `mma.i8` (R197). -/
def execMmaI8 (o : OpMma) (s : State) : Out := postMma s o 4
/-- `mma.mx4` (R197). -/
def execMmaMx4 (o : OpMma) (s : State) : Out := postMma s o 5
/-- `mma.f32` (R197). -/
def execMmaF32 (o : OpMma) (s : State) : Out := postMma s o 6
/-- `mma.f64` (R197). -/
def execMmaF64 (o : OpMma) (s : State) : Out := postMma s o 7
/-- `mma.z64` (R197). -/
def execMmaZ64 (o : OpMma) (s : State) : Out := postMma s o 8

/-- `acc.zero` (R206). -/
def execAccZero (o : OpCmd) (s : State) : Out := postAcc s o 0
/-- `acc.load` (R206). -/
def execAccLoad (o : OpCmd) (s : State) : Out := postAcc s o 1
/-- `acc.drain` (R206). -/
def execAccDrain (o : OpCmd) (s : State) : Out := postAcc s o 2
/-- `acc.chk` (R206). -/
def execAccChk (o : OpCmd) (s : State) : Out := postAcc s o 3

/-- `acc.give` (R195). -/
def execAccGive (o : OpAccGive) (s : State) : Out :=
  let ctx := s.core.cid.toNat
  let dest := { s.core.id with core := o.core.toNat }
  ends s ((needCtx s).bind fun _ => (faultIf (!s.ownsTile s.poster o.n.toNat) .accOwner).bind fun _ =>
    (faultIf (!(s.jobOf ctx).any (fun j => j.cores.contains dest)) .priv).bind fun _ =>
    .ok { s with cluster := s.cluster.updCtx ctx (fun x => { x with tileOwner := assocSet x.tileOwner o.n.toNat o.core.toNat }) }.advance)

end Sys2Proof.Machine
end

