-- ==== Sys2Proof/Machine/Shaper.lean ====
section
/-! DEFINITION. What a shaper task does (R128–R136): conversion into a palette slot, checksum vectors, and unload. -/

namespace Sys2Proof.Machine

/-! ## Slots as matrices (R129) -/

/-- Bytes of a row: MXFP4 packs two elements in a byte. -/
def rowBytes (t : Nat) (tall : Bool) : Nat := let (_, nc) := slotShape t tall; if t = typeMx4 then nc / 2 else nc * shBytes t
/-- The code of element (row, col) of a slot in a format and geometry. -/
def slotCode (v : Slot) (t : Nat) (tall : Bool) (row col : Nat) : Nat :=
  if t = typeMx4 then (cget v.data (row * rowBytes t tall + col / 2)).toNat / (if col % 2 = 1 then 16 else 1) % 16
  else readLE v.data (row * rowBytes t tall + col * shBytes t) (shBytes t)
/-- The side byte of the scale over element (row, col). -/
def scaleIndex (tall : Bool) (row col : Nat) : Nat := if tall then row / 32 * 256 + col else row * 32 + col / 32
/-- The floating-point format of a type code; `.z64` planes are F64. -/
def planeFmt (t : Nat) : FloatFmt := if t = typeZ64 then .f64 else fmtOf t
/-- The value of element (row, col): with its scale in MXFP4; `ua` takes 8-bit integers as unsigned. -/
def slotVal (v : Slot) (t : Nat) (tall ua : Bool) (row col : Nat) : FVal :=
  let x := slotCode v t tall row col
  if t = typeMx4 then mxValue x (cget v.scales (scaleIndex tall row col)).toNat
  else if 14 ≤ t then fint (if ua then x else toSigned 8 x)
  else fdecode (planeFmt t) x

/-! ## The source (R131) -/

/-- Element (i, j) of a region of two dimensions lies in it. -/
def inPlane (r : Region) (i j : Nat) : Bool := !r.null && decide (i < extent r 1) && decide (j < extent r 0)
/-- The number of element (i, j), and its address. -/
def planeElem (r : Region) (i j : Nat) : Nat := i * extent r 0 + j
def planeAddr (r : Region) (i j : Nat) : Nat := (r.elem (planeElem r i j)).toNat
/-- The code of element (i, j); zero outside. -/
def State.planeCode (s : State) (d c : Nat) (t : Task) (r : Region) (i j : Nat) : Nat :=
  if inPlane r i j then (s.memRead d c t r.space r.core (planeAddr r i j) r.es).1 else 0
/-- The first element of a region in ascending order that lies in a poisoned unit (R90, R95). -/
def State.firstPoison (s : State) (d c : Nat) (t : Task) (r : Region) : Option Nat :=
  (List.range r.count).find? (fun n => (s.memRead d c t r.space r.core (r.elem n).toNat r.es).2)

/-! ## Conversion (R132, R133) -/

/-- The mode of a stored header: RM 7 was replaced at POST by `CR_FPCTL`, where 5, 6 and 7 round RNE (R31, R128). -/
def shMode (rm : Nat) : Rounding := roundingOf 7 (BitVec.ofNat 3 rm) 0
/-- What is recorded of a conversion: invalid and overflow (R34, R136). -/
def nvOf (f : Sticky) : Sticky := f &&& (NV ||| OFL)
/-- The code of a source element with its sign inverted when the plane is conjugated (R38). -/
def conjCode (t : Nat) (conj : Bool) (x : Nat) : Nat := if conj then x ^^^ (planeFmt t).signBit else x

/-- A plane of a load: its codes by row and column, its scales by side byte, and its conditions. -/
structure Plane where
  code : Nat → Nat → Nat
  scale : Option (Nat → Nat)
  flags : Sticky

/-- Row and column of memory that feed element (row, col). -/
def shIJ (h : Word) (row col : Nat) : Nat × Nat := if shTr h then (col, row) else (row, col)

/-- The exact value of memory element (i, j) after conjugation: padding is +0 before it (R131). -/
def State.planeVal (s : State) (d c : Nat) (t : Task) (h : Word) (conj : Bool) (r scales : Region) (i j : Nat) : FVal :=
  let sf := shSf h
  if sf = typeMx4 then
    let inside := decide (i < extent r 1 ∧ j < 2 * extent r 0) && !r.null
    let nib := if inside then s.planeCode d c t r i (j / 2) / (if j % 2 = 1 then 16 else 1) % 16 else 0
    if inside then mxValue (conjCode sf conj nib) (s.planeCode d c t scales i (j / 32)) else fdecode .e2m1 (conjCode sf conj nib)
  else fdecode (planeFmt sf) (conjCode sf conj (s.planeCode d c t r i j))

/-- Element (row, col) of a plane that is not quantised (R132). -/
def State.convertElem (s : State) (d c : Nat) (t : Task) (h : Word) (conj : Bool) (r scales : Region) (row col : Nat) : Nat × Sticky :=
  let (i, j) := shIJ h row col
  if 14 ≤ shDf h then (s.planeCode d c t r i j, 0)
  else if shDf h = typeZ64 then (conjCode typeZ64 conj (s.planeCode d c t r i j), 0)
  else fround (planeFmt (shDf h)) (shMode (shRm h)) (shSat h) (s.planeVal d c t h conj r scales i j)

/-- The elements of the block of 32 along K that side byte k covers (R129, R133). -/
def blockElems (tall : Bool) (k : Nat) : List (Nat × Nat) :=
  (List.range 32).map (fun e => if tall then (k / 256 * 32 + e, k % 256) else (k / 32, k % 32 * 32 + e))

/-- MXFP4 copied as it is (R132): padded blocks get nibble 0x0 and scale 0x7F. -/
def State.copiedMx (s : State) (d c : Nat) (t : Task) (h : Word) (r scales : Region) : Plane :=
  let inside := fun (i j : Nat) => !r.null && decide (i < extent r 1 ∧ j < 2 * extent r 0)
  { code := fun row col =>
      let (i, j) := shIJ h row col
      if inside i j then conjCode typeMx4 (shCj h) (s.planeCode d c t r i (j / 2) / (if j % 2 = 1 then 16 else 1) % 16) else 0
    scale := some (fun k => match blockElems (shTall h) k with
      | (row, col) :: _ => let (i, j) := shIJ h row col; if inside i j then s.planeCode d c t scales i (j / 32) else 0x7F
      | [] => 0)
    flags := 0 }

/-- Quantisation of a plane (R133). -/
def State.quantised (s : State) (d c : Nat) (t : Task) (h : Word) (r : Region) : Plane :=
  let tall := shTall h
  let q := (List.range 8192).map (fun k => mxQuant ((blockElems tall k).map (fun (row, col) =>
    let (i, j) := shIJ h row col
    s.planeVal d c t h (shCj h) r r i j)))
  let at_ := fun (k : Nat) => q.getD k (0, [], 0)
  { code := fun row col => (at_ (scaleIndex tall row col)).2.1.getD (if tall then row % 32 else col % 32) 0
    scale := some (fun k => (at_ k).1)
    flags := q.foldl (fun f b => f ||| b.2.2) 0 }

/-- A plane of a load (R131). -/
def State.loadPlane (s : State) (d c : Nat) (t : Task) (h : Word) (conj : Bool) (r scales : Region) : Plane :=
  if shDf h = typeMx4 then (if shSf h = typeMx4 then s.copiedMx d c t h r scales else s.quantised d c t h r)
  else
    let (nr, nc) := slotShape (shDf h) (shTall h)
    { code := fun row col => (s.convertElem d c t h conj r scales row col).1
      scale := none
      flags := (List.range nr).foldl (fun f row => (List.range nc).foldl (fun f col => f ||| (s.convertElem d c t h conj r scales row col).2) f) 0 }

/-- The bytes of a slot that holds a plane. -/
def planeBytes (h : Word) (p : Plane) : List Byte :=
  let t := shDf h
  let (nr, _) := slotShape t (shTall h)
  let rb := rowBytes t (shTall h)
  (List.range (nr * rb)).map (fun a =>
    let row := a / rb
    let o := a % rb
    if t = typeMx4 then BitVec.ofNat 8 (p.code row (2 * o) + 16 * p.code row (2 * o + 1))
    else BitVec.ofNat 8 (p.code row (o / shBytes t) / 256 ^ (o % shBytes t)))

/-! ## Checksum vectors (R134) -/

/-- One entry: the exact sum rounded once to F64. -/
def checksum (xs : List FVal) : Word := BitVec.ofNat 64 (fround .f64 .rne false (fsum .rne xs).1).1

/-- The checksum vector of a slot. -/
def checksums (v : Slot) (h : Word) : Cells 64 :=
  let t := shDf h
  let tall := shTall h
  let (nr, nc) := slotShape t tall
  let val := slotVal v t tall (t == 15)
  if shCsm h = 1 then centries 0 ((List.range nc).map (fun col => checksum ((List.range nr).map (fun row => val row col))))
  else centries 0 ((List.range nr).map (fun row => checksum ((List.range nc).map (fun col => val row col))))

/-- A slot after its plane has been loaded (R131). -/
def Slot.loaded (v : Slot) (h : Word) (p : Plane) : Slot :=
  let v1 := { v with data := centries 0 (planeBytes h p)
                     scales := match p.scale with
                       | some f => centries 0 ((List.range 8192).map (fun k => BitVec.ofNat 8 (f k)))
                       | none => v.scales
                     errors := [] }
  if shCsm h = 0 then { v1 with present := false } else { v1 with cs := checksums v1 h, present := true }

/-- A slot after its load ended with `POISON` (R136): each byte is the earlier or the new one, by a free value. -/
def Slot.mixed (old new : Slot) (k : Nat) : Slot :=
  let mix := fun (o : Nat) (a b : Cells 8) (n : Nat) =>
    csetRange [] 0 n (fun i => if (Config.undefByte k (o + i)).getLsbD 0 then cget b i else cget a i)
  { old with
    data := mix 0 old.data new.data 131072
    scales := mix 131072 old.scales new.scales 8192
    cs := csetRange [] 0 1024 (fun i => if (Config.undefByte k (139264 + i)).getLsbD 0 then cget new.cs i else cget old.cs i)
    present := false }

/-! ## The task -/

/-- The planes of a load, by slot. -/
def State.shPlanes (s : State) (d c : Nat) (t : Task) (h : Word) : List (Nat × Plane) :=
  let r0 := t.copyRegion 0
  let r1 := t.copyRegion 1
  if shDf h = typeZ64 then [(shSlot h, s.loadPlane d c t h false r0 r0), (shSlot2 h, s.loadPlane d c t h (shCj h) r1 r1)]
  else [(shSlot h, s.loadPlane d c t h (shCj h) r0 r1)]

/-- Regions of a shaper task that name memory: the implicit PAL regions come after them. -/
def Task.shRegions (t : Task) : List Region := t.regions.filter (fun r => r.space != .pal)

/-- `sh.load` (R131, R136). -/
def State.shLoad (s : State) (d c : Nat) (t : Task) (h : Word) : State :=
  let planes := s.shPlanes d c t h
  let put := fun (f : Slot → Plane → Slot) (s : State) =>
    s.updCluster d c (fun k => planes.foldl (fun k p => k.setSlot p.1 (f (k.slot p.1) p.2)) k)
  match t.shRegions.findSome? (fun r => (s.firstPoison d c t r).map (fun n => (r, n))) with
  | some (r, n) =>
    let s1 := put (fun v p => v.mixed (v.loaded h p) s.modul.free) s
    s1.freshen.taskFault d c t { cause := .poison, addr := some (s.taskAddr d c t r.space (r.elem n)), info := BitVec.ofNat 64 n } true
  | none =>
    (put (fun v p => v.loaded h p) s).completeTask d c { t with flags := t.flags ||| nvOf (planes.foldl (fun f p => f ||| p.2.flags) 0) }

/-- The bytes that an unload writes to a region: for each row i and column j of it, the code at its address. -/
def planeWrites (r : Region) (f : Nat → Nat → Nat) : List (Nat × Byte) :=
  if r.null then []
  else (List.range (extent r 1)).flatMap (fun i => (List.range (extent r 0)).flatMap (fun j => bytesAt (planeAddr r i j) r.es (f i j)))

/-- `sh.unload` (R135). Slot words with an uncorrectable error are unloaded as they stand (DESIGN CHOICE, log 109). -/
def State.shUnload (s : State) (d c : Nat) (t : Task) (h : Word) : State :=
  let k := s.clusterAt d c
  let code := fun (n i j : Nat) => let (row, col) := shIJ h i j; slotCode (k.slot n) (shDf h) (shTall h) row col
  let scale := fun (i j : Nat) => let (row, col) := shIJ h i (32 * j); (cget (k.slot (shSlot h)).scales (scaleIndex (shTall h) row col)).toNat
  let r0 := t.copyRegion 0
  let r1 := t.copyRegion 1
  let write := fun (s : State) (r : Region) (f : Nat → Nat → Nat) => s.memWrite d c t r.space r.core (planeWrites r f) []
  let s1 :=
    if shDf h = typeMx4 then write (write s r0 (fun i j => code (shSlot h) i (2 * j) + 16 * code (shSlot h) i (2 * j + 1))) r1 scale
    else if shDf h = typeZ64 then write (write s r0 (code (shSlot h))) r1 (code (shSlot2 h))
    else write s r0 (code (shSlot h))
  s1.completeTask d c t

/-- A shaper task, whole (R136). -/
def State.runShaper (s : State) (d c : Nat) (t : Task) : State :=
  match t.op with
  | .shape unload h => if unload then s.shUnload d c t h else s.shLoad d c t h
  | _ => s

end Sys2Proof.Machine
end

