-- ==== Sys2Proof/Machine/Matrix.lean ====
section
/-! DEFINITION. What a matrix task does (R38–R45, R197–R204): the accumulation, the check state, and poison. -/

namespace Sys2Proof.Machine

/-! ## Formats of a minor (R197) -/

/-- Types of A and B. -/
def mmaTypes (minor : Nat) (spec : BitVec 3) : Nat × Nat :=
  let bx := spec.getLsbD 0
  match minor with
  | 0 => (3, 3)
  | 1 => (2, 2)
  | 2 => (4, if bx then 5 else 4)
  | 3 => (5, if bx then 4 else 5)
  | 4 => (14, 14)
  | 5 => (typeMx4, typeMx4)
  | 6 => (1, 1)
  | _ => (0, 0)
/-- The shared dimension. -/
def mmaK (minor : Nat) : Nat := match minor with
  | 0 => 256 | 1 => 256 | 2 => 512 | 3 => 512 | 4 => 512 | 5 => 1024 | _ => 128
/-- Products summed before one rounding (R39–R44). -/
def mmaGroup (minor : Nat) : Nat := match minor with
  | 0 => 4 | 1 => 4 | 2 => 8 | 3 => 8 | 5 => 32 | _ => 1
/-- Roundings per element. -/
def mmaRounds (minor : Nat) : Nat := match minor with
  | 4 => 0 | 5 => 32 | 6 => 128 | 7 => 128 | 8 => 256 | _ => 64
/-- The kind of the part written: 0 F32, 1 I32, 2 F64 (R203). -/
def mmaKind (minor : Nat) : Nat := match minor with
  | 4 => 1 | 7 => 2 | 8 => 2 | _ => 0
/-- The halves written: part 0 stands for a whole tile. -/
def mmaParts (minor : Nat) (spec : BitVec 3) : List Nat := match minor with
  | 7 => [bitOf (spec.getLsbD 2)] | 8 => [0, 1] | _ => [0]

/-! ## Parts of a tile (R193) -/

def partWidth (kind : Nat) : Nat := if kind = 2 then 128 else 256
def partBytes (kind : Nat) : Nat := if kind = 2 then 8 else 4
def partFmt (kind : Nat) : FloatFmt := if kind = 2 then .f64 else .f32
/-- Bytes of a part, and where part h begins in its tile. -/
def partSize (kind : Nat) : Nat := if kind = 2 then 0x20000 else 0x40000
def partBase (h : Nat) : Nat := h * 0x20000
/-- The code of element (m, n) of a part. -/
def partCode (data : List Host.Cell) (kind h m n : Nat) : Nat := readLE data (partBase h + m * 1024 + n * partBytes kind) (partBytes kind)
/-- Replaces a part by its elements. -/
def putPart (data : List Host.Cell) (kind h : Nat) (f : Nat → Nat → Nat) : List Host.Cell :=
  let es := partBytes kind
  csetRun data (partBase h) ((List.range (partSize kind)).map (fun a => BitVec.ofNat 8 (f (a / 1024) (a % 1024 / es) / 256 ^ (a % es))))
/-- The check state of a part: a whole tile shares that of `.h0` (DESIGN CHOICE, log 74). -/
def AccTile.chk (t : AccTile) (h : Nat) : CheckState := if h = 0 then t.chk0 else t.chk1
def AccTile.setChk (t : AccTile) (h : Nat) (c : CheckState) : AccTile := if h = 0 then { t with chk0 := c } else { t with chk1 := c }
/-- The first element of a part, in ascending order, that lies in a marked unit (R201, R209). -/
def AccTile.firstMarked (t : AccTile) (kind h : Nat) : Option Nat :=
  ((List.range (partSize kind / 64)).find? (fun u => cget t.poison (partBase h / 64 + u) != 0)).map (fun u => u * 64 / partBytes kind)
/-- A part whose contents are not defined: free bytes, every unit marked, valid bits cleared (R201, R209). -/
def AccTile.spoil (t : AccTile) (kind h k : Nat) : AccTile :=
  let b := partBase h
  ({ t with
      data := csetRange t.data b (partSize kind) (fun a => Config.undefByte k a)
      poison := csetRange t.poison (b / 64) (partSize kind / 64) (fun _ => 1) } : AccTile).setChk h { t.chk h with cvr := false, cvc := false }

/-! ## Accumulation (R39–R45) -/

/-- An accumulator element on its way: its code, the conditions, and the largest exponent of a rounded result. -/
structure AccRun where
  code : Nat
  flags : Sticky
  xe : Int

/-- Below the exponent of every result: what a run starts with, so that only rounded results count (R204). -/
def noExp : Int := -1075
/-- The largest exponent so far with one more result (R203): finite nonzero values count. -/
def maxExp (xe : Int) (v : FVal) : Int := match v.log2? with
  | some e => max xe e
  | none => xe

/-- One group: the exact sum of the accumulator and the products, rounded once by RNE. -/
def accGroup (f : FloatFmt) (r : AccRun) (g : List (FVal × FVal)) : AccRun :=
  let ps := g.map (fun p => fprod p.1 p.2)
  let (v, f1) := fsum .rne (fdecode f r.code :: ps.map Prod.fst)
  let (c, f2) := fround f .rne false v
  { code := c, flags := ps.foldl (fun f p => f ||| p.2) (r.flags ||| f1 ||| f2), xe := maxExp r.xe (fdecode f c) }

/-- The groups of a result: operands by plane and k; the planes of a complex product follow R44. -/
def accGroups (minor g h : Nat) (a b : Nat → Nat → FVal) : List (List (FVal × FVal)) :=
  if minor = 8 then (List.range 128).flatMap (fun k =>
    if h = 0 then [[(a 0 k, b 0 k)], [((a 1 k).neg, b 1 k)]] else [[(a 0 k, b 1 k)], [(a 1 k, b 0 k)]])
  else (List.range (mmaK minor / g)).map (fun i => (List.range g).map (fun j => (a 0 (g * i + j), b 0 (g * i + j))))

/-- Operand element of plane p: the imaginary plane is negated when it is read conjugated (R38). -/
def operand (k : Cluster) (slot t : Nat) (tall ua conj : Bool) (p row col : Nat) : FVal :=
  let v := slotVal (k.slot (slot + p)) t tall ua row col
  if conj && p = 1 then v.neg else v

/-- A matrix command as its task names it. -/
structure MmaCmd where
  minor : Nat
  tile : Nat
  a : Nat
  b : Nat
  spec : BitVec 3

def MmaCmd.ua (o : MmaCmd) : Bool := o.minor == 4 && o.spec.getLsbD 0
def MmaCmd.ub (o : MmaCmd) : Bool := o.minor == 4 && o.spec.getLsbD 1
def MmaCmd.ca (o : MmaCmd) : Bool := o.minor == 8 && o.spec.getLsbD 0
def MmaCmd.cb (o : MmaCmd) : Bool := o.minor == 8 && o.spec.getLsbD 1
/-- a(m, k) and b(k, n) by plane. -/
def MmaCmd.opA (o : MmaCmd) (k : Cluster) (m p i : Nat) : FVal := operand k o.a (mmaTypes o.minor o.spec).1 false o.ua o.ca p m i
def MmaCmd.opB (o : MmaCmd) (k : Cluster) (n p i : Nat) : FVal := operand k o.b (mmaTypes o.minor o.spec).2 true o.ub o.cb p i n

/-- An exact integer as a number; what is no integer counts as none. -/
def FVal.toInt? (v : FVal) : Option Int :=
  match v with
  | .fin n m e _ =>
    if m = 0 then some 0
    else if 64 ≤ e then none
    else
      let d := 2 ^ (-e).toNat
      if m % d ≠ 0 then none
      else
        let i : Int := ((m / d * 2 ^ e.toNat : Nat) : Int)
        some (if n then -i else i)
  | _ => none
/-- Σ a·b over the integers. -/
def intDot (ks : List Nat) (a b : Nat → FVal) : Int := (ks.map (fun i => (a i).toInt?.getD 0 * (b i).toInt?.getD 0)).sum

/-- Element (m, n) of part h after the command (R200). -/
def MmaCmd.elem (o : MmaCmd) (k : Cluster) (h m n : Nat) : AccRun :=
  let kind := mmaKind o.minor
  let c := partCode (k.tile o.tile).data kind h m n
  if kind = 1 then { code := ofSigned 32 (c + intDot (List.range 512) (o.opA k m 0) (o.opB k n 0)), flags := 0, xe := noExp }
  else (accGroups o.minor (mmaGroup o.minor) h (o.opA k m) (o.opB k n)).foldl (accGroup (partFmt kind))
    { code := c, flags := 0, xe := noExp }

/-! ## The check state (R203, R204) -/

/-- Entry i of the checksum vector of plane p, negated where its operand is conjugated. -/
def csEntry (k : Cluster) (slot : Nat) (conj : Bool) (p i : Nat) : FVal :=
  let v := fdecode .f64 (cget (k.slot (slot + p)).cs i).toNat
  if conj && p = 1 then v.neg else v
/-- Every slot of an operand has its vector. -/
def csPresent (k : Cluster) (minor slot : Nat) : Bool := (k.slot slot).present && (minor != 8 || (k.slot (slot + 1)).present)
/-- Every entry is an integer of [−2^63, 2^63) (R204). -/
def csIntegers (k : Cluster) (slot : Nat) : Bool :=
  (List.range 512).all (fun i => match (csEntry k slot false 0 i).toInt? with
    | some v => decide (-(2 ^ 63 : Int) ≤ v ∧ v < 2 ^ 63)
    | none => false)

/-- One checksum after the command. -/
def csNext (minor kind h : Nat) (old : Word) (a b : Nat → Nat → FVal) : AccRun :=
  if kind = 1 then { code := ofSigned 64 (old.toInt + intDot (List.range 512) (a 0) (b 0)), flags := 0, xe := noExp }
  else (accGroups minor 1 h a b).foldl (accGroup .f64) { code := old.toNat, flags := 0, xe := noExp }

/-- The check state of part h after the command; `xe` is the largest exponent rounded into the part. -/
def MmaCmd.check (o : MmaCmd) (k : Cluster) (h : Nat) (xe : Int) : CheckState :=
  let kind := mmaKind o.minor
  let w := partWidth kind
  let old := (k.tile o.tile).chk h
  let st := if old.kind = kind then old else { old with kind := kind, cvr := false, cvc := false }
  let cvr := st.cvr && csPresent k o.minor o.a && (kind != 1 || csIntegers k o.a)
  let cvc := st.cvc && csPresent k o.minor o.b && (kind != 1 || csIntegers k o.b)
  let cr := if cvr then (List.range w).map (fun n => csNext o.minor kind h (cget st.cr n) (csEntry k o.a o.ca) (o.opB k n)) else []
  let cc := if cvc then (List.range w).map (fun m => csNext o.minor kind h (cget st.cc m) (o.opA k m) (csEntry k o.b o.cb)) else []
  { st with
    cvr := cvr, cvc := cvc
    cr := if cvr then centries 0 (cr.map (fun r => BitVec.ofNat 64 r.code)) else st.cr
    cc := if cvc then centries 0 (cc.map (fun r => BitVec.ofNat 64 r.code)) else st.cc
    rc := BitVec.ofNat 32 (min (st.rc.toNat + mmaRounds o.minor) 0xFFFFFFFF)
    xe := if kind = 1 then st.xe else (cr ++ cc).foldl (fun x r => max x r.xe) (max st.xe xe) }

/-- The elements of a part after the command. -/
def MmaCmd.results (o : MmaCmd) (k : Cluster) (h : Nat) : List (List AccRun) :=
  let w := partWidth (mmaKind o.minor)
  (List.range w).map (fun m => (List.range w).map (fun n => o.elem k h m n))

/-- Part h after the command, with its conditions. -/
def MmaCmd.part (o : MmaCmd) (k : Cluster) (t : AccTile) (h : Nat) : AccTile × Sticky :=
  let kind := mmaKind o.minor
  let rs := o.results k h
  let at_ := fun (m n : Nat) => ((rs.getD m []).getD n { code := 0, flags := 0, xe := 0 }).code
  let xe := rs.foldl (fun x row => row.foldl (fun x r => max x r.xe) x) noExp
  (({ t with data := putPart t.data kind h at_ } : AccTile).setChk h (o.check k h xe),
   rs.foldl (fun f row => row.foldl (fun f r => f ||| r.flags) f) 0)

/-! ## The task (R200–R202) -/

/-- Every part after the command; each reads the cluster as it was before. -/
def MmaCmd.parts (o : MmaCmd) (k : Cluster) : List Nat → AccTile × Sticky → AccTile × Sticky
  | [], p => p
  | h :: rest, (t, f) => let (t1, f1) := o.part k t h; o.parts k rest (t1, f ||| f1)

/-- The first unit with an uncorrectable error in the slots a command reads: its address in space PAL, and its number. -/
def Cluster.slotError (k : Cluster) (slots : List Nat) : Option (Nat × Nat) :=
  slots.findSome? (fun n => ((List.range (Config.slotBytes / 64)).find? (fun u => cget (k.slot n).errors u != 0)).map (fun u => (n * Config.slotBytes + 64 * u, u)))
/-- Where a command meets an uncorrectable error (R201): in a slot, else in a part of its tile; address and element (DESIGN CHOICE, log 90). -/
def MmaCmd.errorAt (o : MmaCmd) (k : Cluster) : Option (Nat × Nat) :=
  match k.slotError (mmaSlots o.minor o.a o.b) with
  | some x => some x
  | none => (mmaParts o.minor o.spec).findSome? (fun h => ((k.tile o.tile).firstMarked (mmaKind o.minor) h).map (fun n =>
      (o.tile * Config.tileBytes + partBase h + n * partBytes (mmaKind o.minor), n)))

/-- A matrix task, whole. An uncorrectable error in a word it reads ends it with `POISON` (R201). -/
def State.runMatrix (s : State) (d c : Nat) (t : Task) (o : MmaCmd) : State :=
  let k := s.clusterAt d c
  let hs := mmaParts o.minor o.spec
  match o.errorAt k with
  | some (a, n) =>
    let s1 := s.updCluster d c (fun k => k.setTile o.tile (hs.foldl (fun t h => t.spoil (mmaKind o.minor) h s.modul.free) (k.tile o.tile)))
    s1.freshen.taskFault d c t { cause := .poison, addr := some (BitVec.ofNat 64 a), info := BitVec.ofNat 64 n } true
  | none =>
    let (tile, fl) := o.parts k hs (k.tile o.tile, 0)
    (s.updCluster d c (fun k => k.setTile o.tile tile)).completeTask d c { t with flags := t.flags ||| nvOf fl }

end Sys2Proof.Machine
end

