-- ==== Sys2Proof/Machine/Accumulator.lean ====
section
/-! DEFINITION. What an accumulator task does (R205–R209): zero, load, drain and check. -/

namespace Sys2Proof.Machine

/-! ## The check (R205) -/

/-- The elements of line ℓ of a part along an axis: 0 a column, 1 a row. -/
def accLine (t : AccTile) (kind h axis l : Nat) : List Nat :=
  (List.range (partWidth kind)).map (fun i => if axis = 0 then partCode t.data kind h i l else partCode t.data kind h l i)
/-- The sum of a line: exact for I32, RNE additions of F64 in ascending order otherwise. -/
def lineSumF (kind : Nat) (l : List Nat) : Nat :=
  match l.map (fdecode (partFmt kind)) with
  | [] => 0
  | x :: rest => rest.foldl (fun s v => (fround .f64 .rne false (fsum .rne [fdecode .f64 s, v]).1).1) (fround .f64 .rne false x).1
def lineSumI (l : List Nat) : Int := (l.map (toSigned 32)).sum

/-- |v| exceeds n · 2^e, exactly. -/
def absAbove (v : FVal) (n : Nat) (e : Int) : Bool :=
  match v with
  | .fin _ m x _ => let b := min x e; decide (n * 2 ^ (e - b).toNat < m * 2 ^ (x - b).toNat)
  | _ => false

/-- A line does not match its checksum. -/
def lineMismatch (st : CheckState) (w : Nat) (l : List Nat) (sum : Word) : Bool :=
  if st.kind = 1 then ofSigned 32 (lineSumI l) != sum.toNat % 2 ^ 32
  else
    let s := fdecode .f64 (lineSumF st.kind l)
    let c := fdecode .f64 sum.toNat
    let p : Int := if st.kind = 2 then 53 else 24
    if s.isNan || s.isInf || c.isNan || c.isInf then false
    else absAbove (fsum .rne [s, c.neg]).1 (w * st.rc.toNat + 2 * w) (st.xe - p)

/-- The first mismatching line of an axis of a part. -/
def axisMismatch (t : AccTile) (h axis : Nat) : Option Nat :=
  let st := t.chk h
  let w := partWidth st.kind
  if !(if axis = 0 then st.cvr else st.cvc) then none
  else (List.range w).find? (fun l => lineMismatch st w (accLine t st.kind h axis l) (cget (if axis = 0 then st.cr else st.cc) l))

/-- The first mismatch of the parts hs: columns of every part, then rows. `CR_FINFO` names tile, half, axis and line (R375). A part is
checked by the KIND it records; the header's KIND and HS pick the parts (DESIGN CHOICE, log 75). -/
def checkParts (t : AccTile) (tile : Nat) (hs : List Nat) : Option FaultInfo :=
  let probe := (hs.map (fun h => (h, 0))) ++ (hs.map (fun h => (h, 1)))
  probe.findSome? (fun (h, axis) => (axisMismatch t h axis).map (fun l =>
    { cause := .accCheck, info := BitVec.ofNat 64 (tile + 64 * h + 128 * axis + 256 * l) }))

/-! ## Conversion (R208, R209) -/

/-- The halves a header names. -/
def acParts (h : Word) : List Nat := if acKind h != 2 then [0] else if acHs h = 0 then [0, 1] else [acHs h - 1]
/-- The part's own format. -/
def acOwn (kind mf : Nat) : Bool := match kind with
  | 0 => mf == 1 | 1 => mf == 10 | _ => mf == 0
/-- A loaded element widened. -/
def acWiden (kind mf x : Nat) : Nat × Sticky :=
  if acOwn kind mf then (x, 0)
  else if kind = 1 then (ofSigned 32 (toSigned (8 * acBytes mf) x), 0)
  else fround (partFmt kind) .rne false (fdecode (planeFmt mf) x)
/-- A drained element converted: integers truncate, or saturate with SAT (R36). -/
def acNarrow (h : Word) (x : Nat) : Nat × Sticky :=
  let kind := acKind h
  let mf := acMf h
  if acOwn kind mf then (x, 0)
  else if kind = 1 then
    let n := 8 * acBytes mf
    let v := toSigned 32 x
    let top : Int := (2 ^ (n - 1) : Nat)
    (if acSat h then ofSigned n (max (-top) (min v (top - 1))) else x % 2 ^ n, 0)
  else fround (planeFmt mf) (shMode (acRm h)) (acSat h) (fdecode (partFmt kind) x)

/-! ## The commands (R209) -/

/-- A check state at initialisation (R203); XE of KIND I32, for which the rule gives no initial value, is that of F32 (DESIGN CHOICE, log 101). -/
def freshCheck (kind : Nat) (ck : Bool) : CheckState :=
  { kind := kind, cvr := ck, cvc := ck, cr := [], cc := [], rc := 0, xe := if kind = 2 then -1074 else -149 }
/-- A part whose marks are cleared. -/
def AccTile.clearMarks (t : AccTile) (kind h : Nat) : AccTile :=
  { t with poison := csetRange t.poison (partBase h / 64) (partSize kind / 64) (fun _ => 0) }

/-- `acc.zero` of one part. -/
def AccTile.zeroPart (t : AccTile) (h : Word) (p : Nat) : AccTile :=
  let kind := acKind h
  (({ t with data := csetRange t.data (partBase p) (partSize kind) (fun _ => 0) } : AccTile).clearMarks kind p).setChk p (freshCheck kind (acCk h))

/-- The checksum of one line: RNE_f64 of the exact sum, exact for I32. -/
def loadedSum (kind : Nat) (l : List Nat) : Word :=
  if kind = 1 then BitVec.ofInt 64 (lineSumI l)
  else BitVec.ofNat 64 (fround .f64 .rne false (fsum .rne (l.map (fdecode (partFmt kind)))).1).1

/-- The largest exponent so far with one more integer: that of its magnitude. -/
def maxExpInt (xe : Int) (v : Int) : Int := if v = 0 then xe else max xe (Nat.log2 v.natAbs)
/-- The check state after a load: RC 1, XE the largest exponent of the loaded values and sums, those of I32 among them (R209). -/
def loadedCheck (t : AccTile) (kind p : Nat) (ck : Bool) : CheckState :=
  let w := partWidth kind
  let cr := (List.range w).map (fun l => loadedSum kind (accLine t kind p 0 l))
  let cc := (List.range w).map (fun l => loadedSum kind (accLine t kind p 1 l))
  let st := freshCheck kind ck
  let codes := (List.range w).flatMap (fun l => accLine t kind p 1 l)
  { st with cr := centries 0 cr, cc := centries 0 cc, rc := 1
            xe := if kind = 1 then (codes.map (toSigned 32) ++ (cr ++ cc).map BitVec.toInt).foldl maxExpInt st.xe
                  else (codes.map (fdecode (partFmt kind)) ++ (cr ++ cc).map (fun v => fdecode .f64 v.toNat)).foldl maxExp st.xe }

/-- `acc.load` of one part from its region; a null region supplies no element (DEDUCED, log 33). -/
def State.loadPart (s : State) (d c : Nat) (t : Task) (h : Word) (r : Region) (p : Nat) (tile : AccTile) : AccTile × Sticky :=
  let kind := acKind h
  let w := partWidth kind
  let elem := fun (m n : Nat) => acWiden kind (acMf h) (s.memRead d c t r.space r.core (planeAddr r m n) r.es).1
  let t1 := if r.null then tile else { tile with data := putPart tile.data kind p (fun m n => (elem m n).1) }
  let fl := if r.null then 0 else (List.range w).foldl (fun f m => (List.range w).foldl (fun f n => f ||| (elem m n).2) f) 0
  ((t1.clearMarks kind p).setChk p (loadedCheck t1 kind p (acCk h)), fl)

/-- The parts of a load in order, up to the first poisoned element: the tile, the conditions, and the fault. -/
def State.loadParts (s : State) (d c : Nat) (t : Task) (h : Word) : List Nat → Nat → AccTile × Sticky → AccTile × Sticky × Option FaultInfo
  | [], _, (tile, f) => (tile, f, none)
  | p :: rest, i, (tile, f) =>
    let r := t.copyRegion i
    match s.firstPoison d c t r with
    | some n => (tile.spoil (acKind h) p s.modul.free, f, some
        { cause := .poison, addr := some (s.taskAddr d c t r.space (r.elem n)), info := BitVec.ofNat 64 n })
    | none =>
      let (t1, f1) := s.loadPart d c t h r p tile
      s.loadParts d c t h rest (i + 1) (t1, f ||| f1)

/-- What a drain writes: for each part and its region, the elements up to the first in a marked unit. -/
def drainPart (tile : AccTile) (h : Word) (r : Region) (p : Nat) : List (Nat × Byte) × Sticky × Option Nat :=
  let kind := acKind h
  let w := partWidth kind
  if r.null then ([], 0, none)
  else
    let stop := tile.firstMarked kind p
    let es := (List.range (stop.getD (w * w))).map (fun i => (i, acNarrow h (partCode tile.data kind p (i / w) (i % w))))
    (es.flatMap (fun e => bytesAt (r.elem e.1).toNat r.es e.2.1), es.foldl (fun f e => f ||| e.2.2) 0, stop)

/-- The parts of a drain in order, up to the first marked element. -/
def State.drainParts (s : State) (d c : Nat) (t : Task) (h : Word) (tile : AccTile) : List Nat → Nat → Sticky → State × Sticky × Option FaultInfo
  | [], _, f => (s, f, none)
  | p :: rest, i, f =>
    let r := t.copyRegion i
    let (ws, fl, stop) := drainPart tile h r p
    let s1 := s.memWrite d c t r.space r.core ws []
    match stop with
    | some n =>
      let a := acTile h * Config.tileBytes + partBase p + n * partBytes (acKind h)
      (s1, f ||| fl, some { cause := .poison, addr := some (BitVec.ofNat 64 a), info := BitVec.ofNat 64 n })
    | none => s1.drainParts d c t h tile rest (i + 1) (f ||| fl)

/-- Ends a task with the conditions it recorded, completed or with a fault. -/
def State.endWith (s : State) (d c : Nat) (t : Task) (fl : Sticky) (f : Option FaultInfo) : State :=
  s.endWork d c { t with flags := t.flags ||| nvOf fl } f true

/-- An accumulator task, whole (R209). -/
def State.runAcc (s : State) (d c : Nat) (t : Task) (op : Nat) (h : Word) : State :=
  let n := acTile h
  let tile := (s.clusterAt d c).tile n
  let hs := acParts h
  let put := fun (t : AccTile) (s : State) => s.updCluster d c (fun k => k.setTile n t)
  match op with
  | 0 => (put (hs.foldl (fun t p => t.zeroPart h p) tile) s).endWith d c t 0 none
  | 1 =>
    let (t1, fl, f) := s.loadParts d c t h hs 0 (tile, 0)
    ((put t1 s).freshen).endWith d c t fl f
  | 2 =>
    match (if acCk h then checkParts tile n hs else none) with
    | some f => s.endWith d c t 0 (some f)
    | none => let (s1, fl, f) := s.drainParts d c t h tile hs 0 0; s1.endWith d c t fl f
  | _ => s.endWith d c t 0 (checkParts tile n hs)

end Sys2Proof.Machine
end

