-- ==== Sys2Proof/Machine/Fences.lean ====
section
/-! DEFINITION. Fences and the release wait (R183, R340–R345). -/

namespace Sys2Proof.Machine

/-- A task that has not reached COMPLETE nor ended, saved ones among them: its effects are no part of an earlier set (R341). -/
def State.taskPending (s : State) (id : Nat) : Bool :=
  (s.pendingIds s.core.id.die s.core.id.clu).contains id

/-- Whether a destination lies in a scope (R343): 0 core, 1 cluster, 2 package, 3 every destination of the machine, 4 also the host. -/
def inScope (s : State) (scope : Nat) (e : Effect) : Bool :=
  let id := s.core.id
  if e.host then scope == 4
  else match scope with
  | 0 => e.die == s.dieNumber id.die && e.clu == id.clu && e.core == id.core
  | 1 => e.die == s.dieNumber id.die && e.clu == id.clu
  | 2 => (s.dieIndex e.die).isSome
  | _ => true

/-- The effects of the earlier set that are not performed (R341): classes of the mask, handed on by the core or by a
task of it that is COMPLETE or has ended. HBM writes of such tasks are performed already (R342). -/
def earlier (s : State) (mask : BitVec 16) : List Effect :=
  s.core.effects.filter (fun e => mask.getLsbD e.cls.toNat && (match e.task with
    | some t => !s.taskPending t
    | none => true))

/-- What a `fence.g` or a release waits for: taken down when it issued, else computed now (R341). -/
def fenceSet (s : State) (mask : BitVec 16) (scope : Nat) : List Nat :=
  match s.core.issued with
  | some i => i.ids
  | none => ((earlier s mask).filter (inScope s scope)).map (fun e => e.uid)

/-- Some packet of a list has not been answered. -/
def outstanding (s : State) (ids : List Nat) : Bool := s.core.effects.any (fun e => ids.contains e.uid)

/-- Ends an instruction after its checks and, with `rel`, after the wait of R183 (R345). -/
def endsAfter (s : State) (checks : Res Unit) (rel : Bool) (mask : BitVec 16) (scope : Nat) (r : Res State) : Out :=
  match checks with
  | .fault f => .next (s.takeFault f)
  | .stall w => .next (s.stalled w)
  | .ok _ =>
    let ids := fenceSet s mask scope
    if rel && outstanding s ids then .next (s.stalledOn .fence { ids := ids, n := 0 })
    else ends s r

/-- The mask of one class. -/
def classMask (cls : BitVec 4) : BitVec 16 := 1 <<< cls.toNat

/-- `fence.c` (R342): later effects of its classes for a die wait for the earlier ones for that die; never stalls. -/
def execFenceC (o : OpFenceC) (s : State) : Out :=
  let e := earlier s o.mask
  let c := s.core
  let live := c.fences.filter (fun f => f.uids.any (fun u => c.effects.any (fun x => x.uid = u)))
  let c1 := if e.isEmpty then { c with fences := live }
    else { c with fences := live ++ [{ mask := o.mask, uids := e.map (fun x => x.uid) }] }
  passed { s with core := c1 }

/-- `fence.g` (R343): stalls until every effect of the earlier set in its scope is performed. -/
def execFenceG (o : OpFenceG) (s : State) : Out :=
  endsAfter s (.ok ()) true o.mask o.scope.toNat (.ok s.advance)

end Sys2Proof.Machine
end

