-- ==== Sys2Proof/Machine/Sync.lean ====
section
/-! DEFINITION. Stream registers (R175–R177), messages (R178, R179), flags (R180–R184) and barriers (R185–R188). -/

namespace Sys2Proof.Machine

/-! ## Streams (R176) -/

/-- `q.push`. -/
def execQPush (o : OpQA) (s : State) : Out :=
  let q := s.core.stream o.q
  ends s ((needCtx s).bind fun _ => (faultIf (!q.bound) .streamUnbound).bind fun _ =>
    (stallIf (decide (Config.streamDepth ≤ q.elems.length)) .stream).bind fun _ =>
    .ok { s with core := s.core.setStream o.q { q with elems := q.elems ++ [s.rd o.a] } }.advance)
/-- `q.pop`. -/
def execQPop (o : OpQD) (s : State) : Out :=
  let q := s.core.stream o.q
  ends s ((needCtx s).bind fun _ => (faultIf (!q.bound) .streamUnbound).bind fun _ =>
    match q.elems with
    | [] => .stall .stream
    | v :: rest => .ok (({ s with core := s.core.setStream o.q { q with elems := rest } }).wr o.d v).advance)
/-- `q.bind`: both forms empty the register after the stall. -/
def execQBind (o : OpQBind) (s : State) : Out :=
  ends s ((needCtx s).bind fun _ =>
    (stallIf (strmPending (s.cluster.pendingOf s.core.cid.toNat s.core.id.core) s.core.id.core o.q.toNat) .tasks).bind fun _ =>
    .ok { s with core := s.core.setStream o.q { bound := o.m, elems := [] } }.advance)
/-- `q.count`. -/
def execQCount (o : OpQD) (s : State) : Out :=
  let q := s.core.stream o.q
  ends s ((needCtx s).bind fun _ => .ok (s.wr o.d (BitVec.ofNat 64 (128 * bitOf q.bound + q.elems.length))).advance)

/-! ## Messages (R179) -/

/-- The target of a message is absent (R178): a die of the module at or above DIES, or a cluster at or above NCLd. -/
def msgAbsent (s : State) (w : Word) : Bool :=
  let t := s.target w
  (bit w 18 && decide (s.dies ≤ bits w 7 6)) ||
  (match s.dieIndex t.die with
   | some d => decide (s.ncl d ≤ t.clu)
   | none => false)

/-- Whether a body is a message to the core. -/
def isMsgTo (core : Nat) (b : PktBody) (c : Nat) : Bool := match b with
  | .msg _ => c == core
  | _ => false

/-- A message or flag of the direct status stalls while its OUT is 16 (R288, R300), while a fence holds it back, and while
the pair is full. -/
def directReady (s : State) (t : Target) (cls : BitVec 4) : Res Unit :=
  (stallIf (fenceHolds s.core.fences s.core.effects t.die cls) .fence).bind fun _ =>
  stallIf (decide (Config.directAllowance ≤ s.core.directOut) || !s.die.pairRoom t.die cls) .allowance

/-- Sends under the direct status: OUT rises unless the answer, a RETRY among them, comes at hand-on; a denial sets DEN
(R278, R288, R293). -/
def directSend (s : State) (t : Target) (cls : BitVec 4) (body : PktBody) : State × Bool :=
  let src : PktSource := { core := s.core.id, ctx := s.core.cid.toNat, window := none, task := none }
  match s.handOn src t cls body with
  | (u, none) =>
    if s.ownCluster s.core.id t then (u, false) else ({ u with core := { u.core with directOut := u.core.directOut + 1 } }, false)
  | (u, some (.deny _)) => ({ u with core := { u.core with directDen := true } }, true)
  | (u, some _) => (u, true)

/-- `msg.send`: stalls while 16 messages of the core are not accepted. A die number outside the torus has no context: the
message is denied (DEDUCED, log 27). -/
def execMsgSend (o : OpMsgSend) (s : State) : Out :=
  let w := s.rd o.b
  let t := s.target w
  ends s ((needCtx s).bind fun _ => (faultAt (msgAbsent s w) .unitAbsent w).bind fun _ =>
    if !s.inTorus t.die then .ok { s with core := { s.core with directDen := true } }.advance
    else
      (stallIf (decide (16 ≤ s.core.msgsOut.length) || s.die.retryBlocks t o.cls (isMsgTo t.core)) .message).bind fun _ =>
      (directReady s t o.cls).bind fun _ =>
        let uid := s.modul.nextUid
        match directSend s t o.cls (.msg (s.rd o.a)) with
        | (u, true) => .ok u.advance
        | (u, false) => .ok { u with core := { u.core with msgsOut := u.core.msgsOut ++ [uid] } }.advance)
/-- `msg.recv`, an acquire (R345). -/
def execMsgRecv (o : OpD) (s : State) : Out :=
  ends s ((needCtx s).bind fun _ =>
    match s.core.inbox with
    | [] => .stall .inbox
    | m :: rest => .ok ({ s with core := { s.core.order with inbox := rest } }.wrPair o.d m.payload m.sender).advance)
/-- `msg.poll`. -/
def execMsgPoll (o : OpD) (s : State) : Out :=
  ends s ((needCtx s).bind fun _ => .ok (s.wr o.d (BitVec.ofNat 64 s.core.inbox.length)).advance)

/-! ## Flags (R181, R182) -/

/-- The core a flag instruction names (R181). -/
def flagCore (s : State) (o : OpFlagAdd) : CoreId := if o.t then { s.core.id with core := o.core.toNat } else s.core.id

/-- The checks of a flag access (R181, R387): the context was launched on the target core, and the entry has V = 1. -/
def flagOk (s : State) (id : CoreId) (f : BitVec 6) : Res Unit :=
  match s.cluster.ctxAt s.core.cid.toNat with
  | none => .fault { cause := .priv }
  | some x => faultIf (!(x.coreFlags id.core).launched || !(flagEntry (x.coreFlags id.core).fmap f).1) .priv

/-- The value of a flag of the loaded context on its own core. -/
def State.flagValue (s : State) (f : BitVec 6) : BitVec 32 :=
  let e := (flagEntry s.loadedMap f).2.2
  s.core.flags[e.toNat]'e.isLt

/-- The shared form of `flag.add` and `flag.set`. An update of another core's flag is an effect in its class, which a fence holds back
(R182, R342). -/
def flagUpdate (o : OpFlagAdd) (s : State) (op : FlagOp) : Out :=
  let id := flagCore s o
  endsAfter s ((needCtx s).bind fun _ => (flagOk s id o.f).bind fun _ =>
      stallIf (id != s.core.id && fenceHolds s.core.fences s.core.effects (s.dieNumber s.core.id.die) o.cls) .fence) o.rel (classMask o.cls) 3
    (.ok (s.updFlag id s.core.cid.toNat o.f op).advance)

/-- `flag.add`. -/
def execFlagAdd (o : OpFlagAdd) (s : State) : Out := flagUpdate o s (.add ((s.rd o.a).setWidth 32))
/-- `flag.set`. -/
def execFlagSet (o : OpFlagAdd) (s : State) : Out := flagUpdate o s (.set ((s.rd o.a).setWidth 32))
/-- The end of a wait: with `.acq` later accesses are ordered after it, without they are not (R183, R345). -/
def State.observed (s : State) (acq : Bool) : State := { s with core := if acq then s.core.order else s.core.loosen }

/-- `flag.wait`: met when the counter has reached sb in wrapping order. -/
def execFlagWait (o : OpFlagWait) (s : State) : Out :=
  ends s ((needCtx s).bind fun _ => (flagOk s s.core.id o.f).bind fun _ =>
    let v := s.flagValue o.f
    (stallIf (decide ((v - (s.rd o.b).setWidth 32).toInt < 0)) .flag).bind fun _ => .ok ((s.observed o.acq).wr o.d (v.setWidth 64)).advance)
/-- `flag.rd`. -/
def execFlagRd (o : OpFlagRd) (s : State) : Out :=
  ends s ((needCtx s).bind fun _ => (flagOk s s.core.id o.f).bind fun _ => .ok (s.wr o.d ((s.flagValue o.f).setWidth 64)).advance)

/-! ## Barriers (R185, R186) -/

/-- A barrier of the loaded context's job in the cluster (R185). -/
def State.barrier (s : State) (n : BitVec 4) : Barrier :=
  ((s.cluster.ctxAt s.core.cid.toNat).map (fun x => x.barriers[n.toNat]'n.isLt)).getD {}
def State.setBarrier (s : State) (n : BitVec 4) (b : Barrier) : State :=
  { s with cluster := s.cluster.updCtx s.core.cid.toNat (fun x => { x with barriers := x.barriers.set n.toNat b n.isLt }) }

/-- A core's part of a barrier. -/
def Barrier.part (b : Barrier) (k : Nat) : BarCore := b.cores.toList.getD k {}
def Barrier.setPart (b : Barrier) (k : Nat) (v : BarCore) : Barrier :=
  { b with cores := Vector.ofFn (fun i => if i.val = k then v else b.cores[i]) }
/-- The pending bit of a parity. -/
def BarCore.pd (c : BarCore) (p : Bool) : Bool := if p then c.pd1 else c.pd0
def Barrier.gen (b : Barrier) (p : Bool) : BitVec 32 := if p then b.g1 else b.g0
/-- The token of an arrival: generation and parity (R186). -/
def Barrier.token (b : Barrier) (k : Nat) : Word :=
  let p := (b.part k).lp
  BitVec.ofNat 64 ((b.gen p).toNat * 2 + bitOf p)

/-- Completing a phase clears the pending bits of its parity on every core (R186). -/
def Barrier.complete (b : Barrier) (p : Bool) : Barrier :=
  if p then { b with a1 := 0, g1 := b.g1 + 1, cores := b.cores.map (fun c => { c with pd1 := false }) }
  else { b with a0 := 0, g0 := b.g0 + 1, cores := b.cores.map (fun c => { c with pd0 := false }) }
/-- One arrival of core k (R186). -/
def Barrier.arrive (b : Barrier) (k : Nat) : Barrier :=
  let c := b.part k
  let p := c.lp
  let c1 := { c with lp := !p, pd0 := c.pd0 || !p, pd1 := c.pd1 || p }
  let b1 := b.setPart k c1
  let b2 := if p then { b1 with a1 := b.a1 + 1 } else { b1 with a0 := b.a0 + 1 }
  if (if p then b2.a1 else b2.a0) = b.cnt then b2.complete p else b2

/-- The stalls before an arrival: an uninitialised barrier, an own arrival still open at the parity (R186). -/
def arriveReady (s : State) (n : BitVec 4) : Res Unit :=
  let b := s.barrier n
  let c := b.part s.core.id.core
  stallIf (b.cnt = 0 || c.pd c.lp) .barrier

/-- `bar.arrive`. -/
def execBarArrive (o : OpBarArrive) (s : State) : Out :=
  let b := s.barrier o.n
  let k := s.core.id.core
  endsAfter s ((needCtx s).bind fun _ => arriveReady s o.n) o.rel (classMask o.cls) 3
    (.ok ((s.setBarrier o.n (b.arrive k)).wr o.d (b.token k)).advance)

/-- A wait on a token is over when its parity's generation is another one (R186). -/
def tokenMet (b : Barrier) (tok : Word) : Bool := (b.gen (bit tok 0)).toNat != bits tok 32 1

/-- `bar.wait`. -/
def execBarWait (o : OpBarWait) (s : State) : Out :=
  ends s ((needCtx s).bind fun _ => (stallIf (!tokenMet (s.barrier o.n) (s.rd o.a)) .barrier).bind fun _ => .ok (s.observed o.acq).advance)

/-- The wait of `bar.sync` on its token: sd is written, and SIP is cleared when the wait is over. While it stalls the core keeps the
token, on which a `bar.init` releases it. -/
def syncWait (s : State) (o : OpBarSync) (tok : Word) : Out :=
  let b := s.barrier o.n
  let k := s.core.id.core
  let t := s.wr o.d tok
  if tokenMet b tok then .next (((t.observed o.acq).setBarrier o.n (b.setPart k { b.part k with sip := false })).advance).settled
  else .next (t.stalledOn .barrier { ids := [], n := tok.toNat + 1 })
/-- The token that a stalled `bar.sync` waits on; none before its arrival. -/
def Core.syncToken (c : Core) : Option Word := c.issued.bind (fun i => if i.n = 0 then none else some (BitVec.ofNat 64 (i.n - 1)))

/-- `bar.sync` (R186): arrives unless SIP says that it has; the arrival stands when the wait is abandoned. -/
def execBarSync (o : OpBarSync) (s : State) : Out :=
  let b := s.barrier o.n
  let k := s.core.id.core
  match (needCtx s) with
  | .fault f => .next (s.takeFault f)
  | .stall w => .next (s.stalled w)
  | .ok _ =>
    match s.core.syncToken with
    | some tok => syncWait s o tok
    | none =>
    if (b.part k).sip then syncWait s o (b.part k).saved
    else
      match arriveReady s o.n with
      | .fault f => .next (s.takeFault f)
      | .stall w => .next (s.stalled w)
      | .ok _ =>
        let ids := fenceSet s (classMask o.cls) 3
        if o.rel && outstanding s ids then .next (s.stalledOn .fence { ids := ids, n := 0 })
        else
          let tok := b.token k
          let b1 := b.arrive k
          syncWait ((s.setBarrier o.n (b1.setPart k { b1.part k with sip := true, saved := tok })).settled) o tok

/-- `bar.init`. -/
def execBarInit (o : OpBarInit) (s : State) : Out :=
  let b := s.barrier o.n
  let clear := fun (c : BarCore) => { c with lp := false, pd0 := false, pd1 := false, sip := false }
  ends s ((needCtx s).bind fun _ =>
    .ok (s.setBarrier o.n { cnt := o.cnt.toNat, a0 := 0, a1 := 0, g0 := b.g0 + 1, g1 := b.g1 + 1, cores := b.cores.map clear }).advance)

end Sys2Proof.Machine
end

