-- ==== Sys2Proof/Machine/TaskBuilder.lean ====
section
/-! DEFINITION. The task builder (R308–R310), cancelling tasks (R328), waiting for them and reading the Atelier
(R329–R332). -/

namespace Sys2Proof.Machine

/-! ## Staging (R310) -/

/-- A 64-byte record at an address (R303). -/
def readRecord (s : State) (a : Nat) : Res (BitVec 512) := (coreLoadD s a 8).bind fun v => .ok (BitVec.ofNat 512 v)

/-- The block a record names: header and descriptors (R304, R310). -/
def readBlock (s : State) (r : BitVec 512) : Res (Option (BitVec 256) × List (BitVec 256)) :=
  if recMat r then .ok (none, [])
  else
    let a := recBlk r
    let headed := fun (n : Word → Nat) => (readHeaded s a n).bind fun p => .ok (some p.1, p.2)
    let plain := fun (n : Nat) => (coreLoadEntries s a n).bind fun es => .ok (none, es)
    (faultAt (a % 32 != 0) .misalign (BitVec.ofNat 64 a)).bind fun _ =>
      match recKind r with
      | 0 => plain (recNr r)
      | 1 => headed (acRegions (recOp r - 16))
      | 2 => plain (copyEntries (recOp r))
      | _ => headed shapeEntries

/-- The walker entries that WM selects (R305). -/
def readWalkers (s : State) (a : Nat) : List Nat → Res (List (BitVec 256))
  | [] => .ok []
  | w :: ws => (coreLoadEntry s (a + 32 * w)).bind fun e => (readWalkers s a ws).bind fun es => .ok (e :: es)

/-- The arguments a record names: NA doublewords at ARP for a vector task or a copy (R305, R310). -/
def readArgs (s : State) (r : BitVec 512) : Res (List Word) :=
  if recKind r == 0 || recKind r == 2 then
    (faultAt (recArp r % 8 != 0) .misalign (BitVec.ofNat 64 (recArp r))).bind fun _ =>
    (coreLoadD s (recArp r) (recNa r)).bind fun v =>
    .ok ((List.range 8).map (fun j => if j < recNa r then BitVec.ofNat 64 (v / 2 ^ (64 * j)) else 0))
  else .ok (List.replicate 8 0)

/-- KIND and OP name a command, and NR and NA are at most 8 (R310). -/
def recordOk (r : BitVec 512) : Bool := recOpOk r && decide (recNr r ≤ 8) && decide (recNa r ≤ 8)

/-- The address of a record: bits 63:32 zero, a multiple of 64. -/
def recordAddr (a : Word) : Res Nat :=
  (faultAt (a.toNat / 2 ^ 32 != 0) .spadRange a).bind fun _ => (faultAt (a.toNat % 64 != 0) .misalign a).bind fun _ => .ok a.toNat

/-- The copies of `tb.new`: list by list, each with its alignment first (DESIGN CHOICE, log 79). -/
def stage (s : State) (a : Nat) : Res Staged :=
  (readRecord s a).bind fun r => (faultIf (!recordOk r) .taskForm).bind fun _ =>
  (readBlock s r).bind fun b =>
  (if recKind r == 0 then (faultAt (recWkp r % 32 != 0) .misalign (BitVec.ofNat 64 (recWkp r))).bind fun _ => readWalkers s (recWkp r) (wmList r)
    else .ok []).bind fun ws =>
  (readArgs s r).bind fun args => .ok { rec_ := r, header := b.1, regions := b.2, args := args, walkers := ws }

/-- Replaces the builder. -/
def State.setBuilder (s : State) (g : Staged) : State := { s with core := { s.core with builder := some g } }
/-- The staged task, or TASK_FORM when the builder is EMPTY. -/
def staged (s : State) : Res Staged :=
  match s.core.builder with
  | none => .fault { cause := .taskForm }
  | some g => .ok g

/-- `tb.new`. -/
def execTbNew (o : OpA) (s : State) : Out :=
  ends s ((needCtx s).bind fun _ => (recordAddr (s.rd o.a)).bind fun a => (stage s a).bind fun g => .ok (s.seesAll.setBuilder g).advance)
/-- `tb.reg`. -/
def execTbReg (o : OpTbIdx) (s : State) : Out :=
  let a := s.rd o.a
  ends s ((needCtx s).bind fun _ => (staged s).bind fun g =>
    (faultIf (decide (g.regions.length ≤ o.i.toNat)) .taskForm).bind fun _ =>
    (faultAt (a.toNat / 2 ^ 32 != 0) .spadRange a).bind fun _ => (faultAt (a.toNat % 32 != 0) .misalign a).bind fun _ =>
    (coreLoadEntry s a.toNat).bind fun e => .ok (s.seesAll.setBuilder { g with regions := g.regions.set o.i.toNat e }).advance)
/-- `tb.arg`. -/
def execTbArg (o : OpTbIdx) (s : State) : Out :=
  ends s ((needCtx s).bind fun _ => (staged s).bind fun g =>
    (faultIf (!(recKind g.rec_ == 0 || recKind g.rec_ == 2)) .taskForm).bind fun _ =>
    .ok (s.setBuilder { g with args := g.args.set o.i.toNat (s.rd o.a) }).advance)
/-- Bits lo to lo + n − 1 of a record replaced. -/
def setField (r : BitVec 512) (lo n v : Nat) : BitVec 512 :=
  BitVec.ofNat 512 (r.toNat - r.toNat / 2 ^ lo % 2 ^ n * 2 ^ lo + v % 2 ^ n * 2 ^ lo)
/-- `tb.flag`. -/
def execTbFlag (o : OpTbFlag) (s : State) : Out :=
  ends s ((needCtx s).bind fun _ => (staged s).bind fun g =>
    .ok (s.setBuilder { g with rec_ := setField (setField g.rec_ 44 1 (bitOf o.fe)) 38 6 (if o.fe then o.f.toNat else 0) }).advance)
/-- `tb.tag`. -/
def execTbTag (o : OpA) (s : State) : Out :=
  ends s ((needCtx s).bind fun _ => (staged s).bind fun g =>
    .ok (s.setBuilder { g with rec_ := setField g.rec_ 22 16 (s.rd o.a).toNat }).advance)
/-- `tb.post`: posts by R311; the builder stays STAGED. -/
def execTbPost (o : OpTbPost) (s : State) : Out :=
  endsPost s o.nb o.d ((needCtx s).bind fun _ => (staged s).bind fun g =>
    (draftStaged s s.poster g).bind fun d => s.enterTaskHere (recLabel g.rec_) d)

/-! ## By tag (R328, R330) -/

/-- The tasks of the issuing core, not RETIRED, that a tag and mask match. -/
def matching (s : State) (v m : Word) : List Task :=
  (s.cluster.tasksOf s.core.cid.toNat s.core.id.core).filter (fun t => t.tag &&& m.setWidth 16 == v.setWidth 16 &&& m.setWidth 16)

/-- `tb.cancel`: pending tasks only. -/
def execTbCancel (o : OpRRR) (s : State) : Out :=
  let ts := (matching s (s.rd o.a) (s.rd o.b)).filter Task.pending
  let id := s.core.id
  ends s ((needCtx s).bind fun _ =>
    .ok ((ts.foldl (fun s t => s.stopTask id.die id.clu t) s).wr o.d (BitVec.ofNat 64 ts.length)).advance)
/-- `twait`: the count and the tasks are those of its issue; its end is an acquire (R345). -/
def execTwait (o : OpRRR) (s : State) : Out :=
  let ids := (matching s (s.rd o.a) (s.rd o.b)).map (fun t => t.id)
  let i := s.core.issued.getD { ids := ids, n := ids.length }
  match needCtx s with
  | .fault f => .next (s.takeFault f)
  | .stall w => .next (s.stalled w)
  | .ok _ =>
    if s.cluster.tasks.any (fun t => i.ids.contains t.id) then .next (s.stalledOn .tasks i)
    else wrote (s.observed true) o.d (BitVec.ofNat 64 i.n)
/-- The `tq.state` result (R331): no task stays POSTED between steps. -/
def tqStateWord (ts : List Task) : Word :=
  let n := fun (p : TaskPhase) => (ts.filter (fun t => t.phase == p)).length
  BitVec.ofNat 64 (n .complete % 256 * 2 ^ 24 + n .dispatched % 256 * 2 ^ 16 + n .ready % 256 * 2 ^ 8 + n .waiting % 256)
/-- `tq.state`. -/
def execTqState (o : OpRRR) (s : State) : Out :=
  ends s ((needCtx s).bind fun _ => .ok (s.wr o.d (tqStateWord (matching s (s.rd o.a) (s.rd o.b)))).advance)
/-- The `tq.free` result (R332). -/
def tqFreeWord (k : Cluster) (core : Nat) : Word :=
  let (t, r) := k.used false core
  let (rt, rr) := k.used true 0
  BitVec.ofNat 64 ((Config.remoteRegions - rr) * 2 ^ 26 + (Config.remoteTasks - rt) * 2 ^ 18 +
    (Config.coreRegions - r) * 2 ^ 8 + (Config.coreTasks - t))
/-- `tq.free`. -/
def execTqFree (o : OpD) (s : State) : Out :=
  ends s ((needCtx s).bind fun _ => .ok (s.wr o.d (tqFreeWord s.cluster s.core.id.core)).advance)

end Sys2Proof.Machine
end

