-- ==== Sys2Proof/Machine/Windows.lean ====
section
/-! DEFINITION. The window instructions (R294–R296), remote posts and remote flags (R297, R298, R300). -/

namespace Sys2Proof.Machine

/-- The target checks of R295. -/
def checkTarget (s : State) (w : Word) : Res Target :=
  let t := s.target w
  (faultAt (bit w 18 || !s.inTorus t.die) .winUnmapped w).bind fun _ =>
  (faultAt ((s.dieIndex t.die).any (fun d => decide (s.ncl d ≤ t.clu))) .unitAbsent w).bind fun _ => .ok t

/-- The loaded context is cancelled here: window instructions fault with CANCEL (R301). -/
def notCancelled (s : State) : Res Unit := faultIf ((s.cluster.ctxAt s.core.cid.toNat).any (fun x => x.cancelled)) .cancel

/-- The stall of `win.map` and `win.unmap`. -/
def windowIdle (s : State) (n : Nat) : Res Unit :=
  stallIf (decide (0 < (s.core.windows.toList.getD n {}).out) || remPending s.pendingTasks s.core.id.core n) .window

/-- `win.map`. The CANCEL test stands after the checks of the operands and before the stall (DESIGN CHOICE, log 110). -/
def execWinMap (o : OpWinMap) (s : State) : Out :=
  let tw := s.rd o.a
  let rb := bits (s.rd o.b) 21 0
  let m := bits (s.rd o.b) 54 32
  ends s ((needCtx s).bind fun _ => (checkTarget s tw).bind fun t =>
    (faultIf (rb % 64 != 0 || m % 64 != 0) .misalign).bind fun _ =>
    (faultAt (m == 0 || decide (0x400000 < m) || decide (0x400000 < rb + m)) .winUnmapped tw).bind fun _ =>
    (notCancelled s).bind fun _ => (windowIdle s o.n.toNat).bind fun _ =>
    let map : WinMap := { die := t.die, clu := t.clu, core := t.core, rb := rb, size := m, raise := o.raise }
    .ok { s with core := s.core.updWindow o.n.toNat (fun w => { w with map := some map }) }.advance)
/-- `win.unmap`. -/
def execWinUnmap (o : OpWin) (s : State) : Out :=
  ends s ((needCtx s).bind fun _ => (notCancelled s).bind fun _ => (windowIdle s o.n.toNat).bind fun _ =>
    .ok { s with core := s.core.updWindow o.n.toNat (fun w => { w with map := none }) }.advance)
/-- The allowance a value sets. -/
def allowance (v : Nat) : Nat := if v = 0 then 64 else min v 1024
/-- `win.allow`. -/
def execWinAllow (o : OpWinA) (s : State) : Out :=
  ends s ((needCtx s).bind fun _ => (notCancelled s).bind fun _ =>
    .ok { s with core := s.core.updWindow o.n.toNat (fun w => { w with alw := allowance ((s.rd o.a).toNat % 2048) }) }.advance)
/-- The `win.stat` result (R296). -/
def winStatWord (alw out : Nat) (map : Option WinMap) (den : Bool) : Word :=
  let (mapped, rse, size) := match map with
    | some m => (true, m.raise, m.size)
    | none => (false, false, 0)
  BitVec.ofNat 64 (alw % 2048 * 2 ^ 37 + out % 2048 * 2 ^ 26 + bitOf mapped * 2 ^ 25 + bitOf rse * 2 ^ 24 + bitOf den * 2 ^ 23 + size % 2 ^ 23)
/-- `win.stat`: DEN is cleared after the read. -/
def execWinStat (o : OpWinStat) (s : State) : Out :=
  let c := s.core
  let w := c.windows.toList.getD o.n.toNat {}
  let v := if o.direct then winStatWord Config.directAllowance c.directOut none c.directDen else winStatWord w.alw w.out w.map w.den
  let c1 := if o.direct then { c with directDen := c.directDen && !o.clr }
    else c.updWindow o.n.toNat (fun w => { w with den := w.den && !o.clr })
  ends s ((needCtx s).bind fun _ => (notCancelled s).bind fun _ => .ok (({ s with core := c1 }).wr o.d v).advance)

/-! ## Remote instructions (R297, R298, R300) -/

/-- A region that no remote post may carry: HOST, REM or STRM (R298). -/
def remoteSpaceBad (x : BitVec 256) : Bool :=
  let w := dword x 0
  !bit w 58 && (bits w 50 48 == 2 || bits w 50 48 == 3 || bits w 50 48 == 6)

/-- The form checks of R99 on descriptors, by index. -/
def formsOk (core : Nat) : List (BitVec 256) → Nat → Res Unit
  | [], _ => .ok ()
  | x :: rest, i => (ofExcept (readRegion x core) i).bind fun _ => formsOk core rest (i + 1)

/-- What `rpost` copies: the record, its block and its arguments, which the target's command needs (DESIGN CHOICE, log 99). -/
def remoteStage (s : State) (a : Nat) : Res Staged :=
  (readRecord s a).bind fun r => (faultIf (!recordOk r) .taskForm).bind fun _ =>
  (readBlock s r).bind fun b => (faultIf (recKind r == 0) .taskForm).bind fun _ => (regionsOk (b.2.map remoteSpaceBad)).bind fun _ =>
  (readArgs s r).bind fun args =>
    let g : Staged := { rec_ := r, header := b.1, regions := b.2, args := args, walkers := [] }
    (faultIf (recBad Config.spadBytes g) .taskForm).bind fun _ => (formsOk s.core.id.core b.2 0).bind fun _ => .ok g

/-- `rpost`: posts a local task whose one effect is a POST. -/
def execRpost (o : OpCmd) (s : State) : Out :=
  endsPost s o.nb o.d ((needCtx s).bind fun _ => (checkTarget s (s.rd o.b)).bind fun _ => (recordAddr (s.rd o.a)).bind fun a =>
    (remoteStage s a).bind fun g =>
      s.seesAll.enterTaskHere (cmdLabel o) { op := .rpost (s.rd o.b) (.post g.rec_ g.header g.regions g.args), regions := [], consumed := [] })

/-- `rflag`: waits as `fence.g` with `.rel`, then sends a FLAG under the direct status. -/
def execRflag (o : OpRflag) (s : State) : Out :=
  let r := (checkTarget s (s.rd o.b)).bind fun t => (directReady s t o.cls).bind fun _ =>
    .ok (directSend s t o.cls (.flag o.f ((s.rd o.a).setWidth 32))).1.advance
  endsAfter s ((needCtx s).bind fun _ => (checkTarget s (s.rd o.b)).bind fun _ => .ok ()) o.rel (classMask o.cls) 3 r

end Sys2Proof.Machine
end

