-- ==== Sys2Proof/Machine/Delivery.lean ====
section
/-! DEFINITION. Delivering a POST (R298, R299), and every request packet (R278). -/

namespace Sys2Proof.Machine

/-- The core a remote post is checked against, in the destination context (R299): the buffers and the rounding mode the context
has there, loaded or saved. -/
def State.remotePoster (s : State) (id : CoreId) (ctx src : Nat) : Poster :=
  let c := s.coreAt id
  let area := (s.jobOf ctx).bind (fun j => assoc j.saves id)
  { id := id, ctx := ctx, remote := true, srcDie := src, limit := s.ctxGrant ctx, shift := s.placement ctx id, sMode := false
    bufs := if c.holds ctx then c.bufs else ((area.bind (fun a => a.hard)).map (fun h => h.bufs)).getD []
    fpctl := if c.holds ctx then c.cr.fpctl else (area.map (fun a => a.soft.fpctl)).getD 0
    windows := Vector.replicate 16 {}, streams := Vector.replicate 8 {} }

/-- The checks of a remote post (R299 step 3). -/
def remoteDraft (s : State) (p : Poster) (g : Staged) : Res Draft :=
  (faultIf (recKind g.rec_ == 0) .taskForm).bind fun _ => (regionsOk (g.regions.map remoteSpaceBad)).bind fun _ => draftStaged s p g

/-- A CN region empties its buffer also where the context is saved (R108). -/
def State.consumeSaved (s : State) (id : CoreId) (ctx : Nat) (hulls : List (Int × Int)) : State :=
  if (s.coreAt id).holds ctx || hulls.isEmpty then s
  else
    s.updSave ctx id (fun a => { a with hard := a.hard.map (fun h => { h with bufs := hulls.foldl (fun b x => bufConsume b x.1 x.2) h.bufs }) })

/-- Admits a delivered POST (R299). -/
def State.deliverPost (s : State) (d : Nat) (p : Packet) (x : CtxCluster) (g : Staged) : State × RespKind :=
  let id : CoreId := ⟨d, p.clu, p.core⟩
  let ps := s.remotePoster id x.ctx p.src
  if Config.remoteTasks ≤ ((s.clusterAt d p.clu).used true 0).1 then (s, .retry)
  else match remoteDraft s ps g with
    | .fault f => (s, .deny f.cause)
    | .stall _ => (s, .retry)
    | .ok a => match s.enterTask ps (recLabel g.rec_) a with
      | .fault f => (s, .deny f.cause)
      | .stall _ => (s, .retry)
      | .ok .full => (s, .retry)
      | .ok (.admitted t) => (t.consumeSaved id x.ctx a.consumed, .ack)

/-- Delivers any request packet on die d (R278). -/
def State.deliverAny (s : State) (d : Nat) (p : Packet) : State × RespKind :=
  match p.body with
  | .post r h regions args =>
    match s.packetCtx d p with
    | none => (s, .deny .winDenied)
    | some x =>
      if x.cancelSrc.contains p.src then (s, .ack)
      else match grantEntry x (s.ctxGrant x.ctx) p with
        | none => (s, .deny .winDenied)
        | some _ =>
          if s.heldInOrder p then (s.noteRetry p, .retry)
          else match s.deliverPost d p x { rec_ := r, header := h, regions := regions, args := args, walkers := [] } with
            | (s1, .retry) => (s1.noteRetry p, .retry)
            | r => r
  | _ => s.deliver d p

/-- Hands a POST on (R298, R337): in the sender's own cluster it is delivered at once, else it leaves as a packet. One
that is answered with RETRY there waits to be sent again (R287). -/
def State.handOnPost (s : State) (src : PktSource) (t : Target) (cls : BitVec 4) (body : PktBody) : State × Option RespKind :=
  let id := src.core
  if s.ownCluster id t then
    let uid := s.modul.nextUid
    let p : Packet := { uid := uid, src := s.dieNumber id.die, dst := t.die, fjob := ((s.jobOf src.ctx).map (fun j => j.fjob)).getD 0,
                        clu := t.clu, core := t.core, cls := cls, seq := 0, body := body, from_ := src }
    match ({ s with modul := { s.modul with nextUid := uid + 1 } }).deliverAny id.die p with
    | (s1, .retry) =>
      let s2 := s1.updDie id.die (fun k => { k with unacked := k.unacked ++ [p], retried := k.retried ++ [(uid, true)] })
      (s2.updCore id (addEffect { uid := uid, ctx := src.ctx, cls := cls, die := t.die, clu := t.clu, core := t.core, task := src.task }), none)
    | (s1, r) => (s1, some r)
  else s.handOn src t cls body

end Sys2Proof.Machine
end

