-- ==== Sys2Proof/Machine/Palette.lean ====
section
/-! DEFINITION. Palette ownership (R189–R192) and the lease instructions of the canvas (R212). -/

namespace Sys2Proof.Machine

/-- A set of slots as a mask. -/
def maskOf (l : List Nat) : BitVec 32 := l.foldl (fun m n => m ||| (1 <<< n)) 0

/-- The palette grant of the loaded context, and the slots of it that cores own. -/
def State.palette (s : State) : BitVec 32 × List (Nat × Nat) :=
  match s.cluster.ctxAt s.core.cid.toNat with
  | none => (0, [])
  | some x => (x.palGrant, x.slotOwner)
/-- Slots owned by this core, and by others. -/
def State.ownSlots (s : State) : BitVec 32 := maskOf ((s.palette.2.filter (fun p => p.2 = s.core.id.core)).map Prod.fst)
def State.otherSlots (s : State) : BitVec 32 := maskOf ((s.palette.2.filter (fun p => p.2 ≠ s.core.id.core)).map Prod.fst)
/-- Gives the slots of a mask an owner, or frees them. -/
def State.setOwner (s : State) (m : BitVec 32) (owner : Option Nat) : State :=
  let keep := fun (l : List (Nat × Nat)) => l.filter (fun p => !m.getLsbD p.1)
  let new := match owner with
    | some c => ((List.range 32).filter (fun n => m.getLsbD n)).map (fun n => (n, c))
    | none => []
  { s with cluster := s.cluster.updCtx s.core.cid.toNat (fun x => { x with slotOwner := keep x.slotOwner ++ new }) }

/-- `pal.claim`. -/
def execPalClaim (o : OpPalClaim) (s : State) : Out :=
  let m := (s.rd o.a).setWidth 32
  let busy := m &&& s.otherSlots != 0
  ends s ((needCtx s).bind fun _ => (faultIf (m &&& ~~~s.palette.1 != 0) .palState).bind fun _ =>
    if o.nb && busy then .ok (s.wr o.d 0).advance
    else (stallIf busy .palette).bind fun _ =>
      let t := s.setOwner m (some s.core.id.core)
      .ok (if o.nb then t.wr o.d 1 else t).advance)

/-- A pending task of this core has a PAL region in a slot of a mask. -/
def palPending (s : State) (m : BitVec 32) : Bool :=
  (s.cluster.pendingOf s.core.cid.toNat s.core.id.core).any (fun t => t.regions.any (fun r =>
    !r.null && r.space == .pal && (List.range 32).any (fun n => m.getLsbD n &&
      decide (r.lo < ((n + 1) * Config.slotBytes : Nat) ∧ ((n * Config.slotBytes : Nat) : Int) ≤ r.hi))))
/-- `pal.rel`. -/
def execPalRel (o : OpA) (s : State) : Out :=
  let m := (s.rd o.a).setWidth 32
  ends s ((needCtx s).bind fun _ => (faultIf (m &&& ~~~s.ownSlots != 0) .palState).bind fun _ =>
    (stallIf (palPending s m) .tasks).bind fun _ => .ok (s.setOwner m none).advance)
/-- `pal.own`: bits 63:32 free slots of the grant, 31:0 own. -/
def execPalOwn (o : OpD) (s : State) : Out :=
  let free := s.palette.1 &&& ~~~(s.ownSlots ||| s.otherSlots)
  ends s ((needCtx s).bind fun _ => .ok (s.wr o.d (free ++ s.ownSlots)).advance)

/-! ## Leases (R212) -/

/-- The length a value sets. -/
def leaseLength (v : Nat) : Nat := if v = 0 then 16 else min v 64
/-- `lease.set`. -/
def execLeaseSet (o : OpLeaseSet) (s : State) : Out :=
  let n := leaseLength ((s.rd o.a).toNat % 128)
  ends s ((needCtx s).bind fun _ => (faultIf (!s.core.sMode && o.t.toNat != s.core.id.core) .priv).bind fun _ =>
    .ok { s with cluster := { s.cluster with canvas := { s.cluster.canvas with
        lens := Vector.ofFn (fun i => if i.val = o.t.toNat then n else s.cluster.canvas.lens[i]) } } }.advance)
/-- The canvas is cold (R211): since reset or a restore, or 1,024 cycles have passed with no command on it. -/
def Cluster.cold (k : Cluster) (now : Nat) : Bool :=
  k.canvas.cold || (k.canvasTask.isNone && decide (k.canvas.lastBusy + 1024 ≤ now))
/-- The `lease.get` result. -/
def leaseWord (k : Canvas) (cold : Bool) (core : Nat) : Word :=
  BitVec.ofNat 64 (k.ends.toNat * 2 ^ 48 + k.lens.toList.getD core 16 % 128 * 2 ^ 34 + bitOf k.gust * 2 ^ 33 + bitOf cold * 2 ^ 32 +
    (k.holder.getD 7) % 8 * 2 ^ 29 + k.done % 128 * 2 ^ 22)
/-- `lease.get`. -/
def execLeaseGet (o : OpD) (s : State) : Out :=
  ends s ((needCtx s).bind fun _ => .ok (s.wr o.d (leaseWord s.cluster.canvas (s.cluster.cold s.sched.now) s.core.id.core)).advance)

end Sys2Proof.Machine
end

