-- ==== Sys2Proof/Machine/Sketch.lean ====
section
/-! DEFINITION. Sketch images (R256–R258), their form (R262, R263), and the micro-operations (R259–R261), which scalar and
vector sketches share at their own width. -/

namespace Sys2Proof.Machine

/-! ## Images (R256, R257). An image is its doublewords in order. -/

def skHeader (im : List Word) : Word := im.getD 0 0
def skTwo (im : List Word) : Bool := bit (skHeader im) 29
def skVector (im : List Word) : Bool := bit (skHeader im) 28
/-- Budget or latency: LAT + 1. -/
def skLat (im : List Word) : Nat := bits (skHeader im) 27 16 + 1
def skCount (im : List Word) : Nat := bits (skHeader im) 6 0

/-- A micro-operation's fields. -/
structure MicroOp where
  op : Nat
  dst : Nat
  sa : Nat
  sb : Nat
  sc : Nat
  cnd : Nat
  sh : Nat
  imm : Word

/-- Micro-operation m of an image. -/
def skOp (im : List Word) (m : Nat) : MicroOp :=
  let h := im.getD (3 + 2 * m) 0
  { op := bits h 63 58, dst := bits h 57 54, sa := bits h 53 50, sb := bits h 49 46, sc := bits h 45 42, cnd := bits h 41 38,
    sh := bits h 37 32, imm := im.getD (2 + 2 * m) 0 }

/-! ## Form (R262) -/

/-- Which of dst, sa, sb, sc, cnd and sh an operation uses; none when OP is reserved. -/
def skUses (op : Nat) : Option (Bool × Bool × Bool × Bool × Bool × Bool) :=
  match op with
  | 0x00 => some (false, false, false, false, false, false)
  | 0x01 => some (true, true, false, false, false, false)
  | 0x0D => some (true, true, false, false, false, false)
  | 0x0E => some (true, true, true, false, true, false)
  | 0x0F => some (true, true, true, true, false, false)
  | 0x13 => some (true, true, true, true, true, false)
  | 0x17 => some (true, true, false, false, true, true)
  | 0x18 => some (true, true, false, false, true, false)
  | 0x19 => some (false, true, true, false, true, false)
  | 0x1A => some (false, true, false, false, false, true)
  | 0x1B => some (false, true, false, false, false, true)
  | 0x1C => some (true, false, false, false, false, false)
  | n => if n ≤ 0x0C then some (true, true, true, false, false, false)
    else if n ≤ 0x16 then some (true, true, true, false, true, false) else none

/-- A legal rounding code of a sketch: 0–4 or 7. -/
def skRmBad (rm : Nat) : Bool := rm == 5 || rm == 6

/-- CND and SH hold values of the operation. -/
def skFieldsBad (vec : Bool) (u : MicroOp) : Bool :=
  let ft := vec && u.cnd < 8
  match u.op with
  | 0x0E => decide (5 < u.cnd)
  | 0x10 => ft || skRmBad (u.cnd % 8)
  | 0x11 => ft || skRmBad (u.cnd % 8)
  | 0x12 => ft || skRmBad (u.cnd % 8)
  | 0x13 => ft || skRmBad (u.cnd % 8)
  | 0x14 => ft || u.cnd % 8 != 0
  | 0x15 => ft || u.cnd % 8 != 0
  | 0x16 => ft || decide (3 < u.cnd % 8)
  | 0x17 => decide (5 < u.cnd) || (vec && u.cnd < 4) || decide (7 < u.sh) || skRmBad u.sh
  | 0x18 => decide (7 < u.cnd)
  | 0x19 => decide (3 < u.cnd)
  | 0x1B => u.sh == 0
  | _ => false

/-- The form of one micro-operation: reserved fields, operation, selectors, values. -/
def skOpBad (im : List Word) (m : Nat) : Bool :=
  let u := skOp im m
  let vec := skVector im
  match skUses u.op with
  | none => true
  | some (d, a, b, c, k, h) =>
    let sel := fun (used : Bool) (v : Nat) => if used then decide (13 < v) else v != 0
    bits (im.getD (3 + 2 * m) 0) 31 0 != 0 || (vec && bits u.imm 63 32 != 0) ||
    (if d then decide (9 < u.dst) || (u.dst == 9 && !skTwo im) else u.dst != 0) ||
    sel a u.sa || sel b u.sb || sel c u.sc || (!k && u.cnd != 0) || (!h && u.sh != 0) ||
    (u.imm != 0 && !(u.op == 0x18 || u.op == 0x19 || (a && u.sa == 12) || (b && u.sb == 12) || (c && u.sc == 12))) ||
    skFieldsBad vec u || (vec && (u.op == 0x18 || u.op == 0x19 || u.op == 0x1B)) || (!vec && u.op == 0x1C)

/-- The loop of a sketch: index of `rep` and index of the last micro-operation of its body. -/
def skLoop (im : List Word) : Option (Nat × Nat) :=
  ((List.range (skCount im)).find? (fun m => (skOp im m).op == 0x1A)).map (fun r => (r, (skOp im r).sh))
/-- Whether a micro-operation lies in the loop body. -/
def skInBody (im : List Word) (m : Nat) : Bool := match skLoop im with
  | some (r, e) => decide (r < m ∧ m ≤ e)
  | none => false

/-- Micro-operations of an operation. -/
def skHowMany (im : List Word) (op : Nat) : Nat := ((List.range (skCount im)).filter (fun m => (skOp im m).op == op)).length

/-- The rules about loops, skips and counts. -/
def skFlowBad (im : List Word) (m : Nat) : Bool :=
  let u := skOp im m
  let inb := skInBody im m
  let lc := match skUses u.op with
    | some (_, a, b, c, _, _) => (a && u.sa == 13) || (b && u.sb == 13) || (c && u.sc == 13)
    | none => false
  (lc && !inb) || (inb && (u.op == 0x18 || u.op == 0x19 || u.op == 0x1C)) ||
  (match u.op with
   | 0x1A => decide (u.sh ≤ m ∨ skCount im ≤ u.sh) || (skVector im && (u.sa != 12 || u.imm == 0 || decide (256 < u.imm.toNat)))
   | 0x1B =>
     let t := m + 1 + u.sh
     let e := ((skLoop im).map Prod.snd).getD 0
     decide (skCount im < t) || (!inb && skInBody im t) || (inb && !skInBody im t && t != e + 1)
   | _ => false)

/-- The cost of one micro-operation outside a loop (R259–R261). -/
def skCost1 (op : Nat) : Nat := if op < 0x10 then 1 else 2
/-- The cost of a vector sketch (R263). -/
def skCost (im : List Word) : Nat :=
  2 + ((List.range (skCount im)).map (fun m =>
    let u := skOp im m
    if skInBody im m then 0
    else if u.op == 0x1A then 1 + u.imm.toNat * (((List.range (skCount im)).filter (skInBody im)).map (fun k => skCost1 (skOp im k).op)).sum
    else skCost1 u.op)).sum

/-- A malformed image. -/
def skBad (im : List Word) : Bool :=
  let h := skHeader im
  bits h 63 30 != 0 || bits h 15 7 != 0 || im.getD 1 0 != 0 || skCount im == 0 || decide (64 < skCount im) ||
  (skVector im && (skTwo im || decide (256 < skLat im) || decide (skLat im < skCost im) || decide (8 < skHowMany im 0x1C))) ||
  decide (1 < skHowMany im 0x1A) || decide (4 < skHowMany im 0x18) || decide (2 < skHowMany im 0x19) ||
  (List.range (skCount im)).any (fun m => skOpBad im m || skFlowBad im m)

/-! ## Values (R259, R260) -/

/-- Integer and move operations at width w. -/
def skInt (w op cnd a b c : Nat) : Nat :=
  let s := b % w
  match op with
  | 0x01 => a
  | 0x02 => (a + b) % 2 ^ w
  | 0x03 => (a + 2 ^ w - b) % 2 ^ w
  | 0x04 => a * b % 2 ^ w
  | 0x05 => a &&& b
  | 0x06 => a ||| b
  | 0x07 => a ^^^ b
  | 0x08 => a * 2 ^ s % 2 ^ w
  | 0x09 => a / 2 ^ s
  | 0x0A => ofSigned w (toSigned w a / (2 ^ s : Nat))
  | 0x0B => if toSigned w a ≤ toSigned w b then a else b
  | 0x0C => if toSigned w b ≤ toSigned w a then a else b
  | 0x0D => ((List.range w).filter (fun i => a.testBit i)).length
  | 0x0E => bitOf (match cnd with
      | 0 => a == b | 1 => a != b | 2 => decide (toSigned w a < toSigned w b) | 3 => decide (toSigned w a ≤ toSigned w b)
      | 4 => decide (a < b) | _ => decide (a ≤ b))
  | 0x0F => if c != 0 then a else b
  | _ => 0

/-- `fcmp` (R260, R157). -/
def skFcmp (f : FloatFmt) (k a b : Nat) : Nat × Sticky :=
  let x := fdecode f a
  let y := fdecode f b
  let anyNan := x.isNan || y.isNan
  let snan := stickyIf (x.isSnan || y.isSnan) NV
  match k with
  | 0 => (bitOf (feqVal x y), snan)
  | 1 => (bitOf (fltVal x y), stickyIf anyNan NV)
  | 2 => (bitOf (fltVal x y || feqVal x y), stickyIf anyNan NV)
  | _ => (bitOf anyNan, snan)

/-- `fcvt` (R260): an I32 result is sign-extended to W. -/
def skFcvt (w k : Nat) (r : Rounding) (a : Nat) : Nat × Sticky :=
  match k with
  | 0 => fcvtCode .f32 .f64 r false (a % 2 ^ 64)
  | 1 => fcvtCode .f64 .f32 r false (a % 2 ^ 32)
  | 2 => fcvtiCode .f64 64 true r (a % 2 ^ 64)
  | 3 => icvtfCode .f64 r false (toSigned 64 a)
  | 4 => let (v, fl) := fcvtiCode .f32 32 true r (a % 2 ^ 32); (ofSigned w (toSigned 32 v), fl)
  | _ => icvtfCode .f32 r false (toSigned 32 a)

/-- The floating-point operations. -/
def skFloat (w : Nat) (u : MicroOp) (fpctl : BitVec 3) (a b c : Nat) : Nat × Sticky :=
  let f : FloatFmt := if 8 ≤ u.cnd then .f32 else .f64
  let a' := a % 2 ^ f.width
  let b' := b % 2 ^ f.width
  let c' := c % 2 ^ f.width
  let r := roundingOf (BitVec.ofNat 3 u.cnd) fpctl 0
  match u.op with
  | 0x10 => faddCode f r a' b'
  | 0x11 => fsubCode f r a' b'
  | 0x12 => fmulCode f r a' b'
  | 0x13 => ffmaCode f r a' b' c' false false
  | 0x14 => fminCode f false a' b'
  | 0x15 => fminCode f true a' b'
  | 0x16 => skFcmp f (u.cnd % 8) a' b'
  | _ => skFcvt w u.cnd (roundingOf (BitVec.ofNat 3 u.sh) fpctl 0) a

/-! ## A run (R265, R269) -/

/-- What a run reads: width, the four inputs, the mode of DYN, and its accesses. -/
structure SkEnv where
  w : Nat
  ins : List Nat
  fpctl : BitVec 3
  draw : Nat → Nat
  ld : Nat → Nat → Res Nat
  st : Nat → Nat → Res Nat

/-- A selector's value (R258). -/
def skVal (e : SkEnv) (k : SkRun) (imm : Word) (n : Nat) : Nat :=
  if n < 8 then k.t.getD n 0
  else if n < 12 then e.ins.getD (n - 8) 0
  else if n = 12 then imm.toNat % 2 ^ e.w
  else k.lc
/-- Writes a destination. -/
def SkRun.put (k : SkRun) (dst v : Nat) : SkRun :=
  if dst < 8 then { k with t := k.t.set dst v } else if dst = 8 then { k with out0 := v } else { k with out1 := v }

/-- Names the micro-operation of a fault (R266, R375). -/
def Res.atMicro {α : Type} (r : Res α) (p : Nat) : Res α :=
  match r with
  | .fault f => .fault { f with idx := p }
  | x => x

/-- After a micro-operation: the next one, or the next pass of the loop. -/
def SkRun.onward (k : SkRun) (p : Nat) : SkRun :=
  match k.loop with
  | some (start, e, n) => if p = e + 1 then (let lc := k.lc + 1; { k with lc := lc, p := if lc < n then start else p }) else { k with p := p }
  | none => { k with p := p }

/-- One micro-operation. -/
def skStep (im : List Word) (e : SkEnv) (k : SkRun) : Res SkRun :=
  let u := skOp im k.p
  let a := skVal e k u.imm u.sa
  let b := skVal e k u.imm u.sb
  let c := skVal e k u.imm u.sc
  let addr := (a + u.imm.toNat) % 2 ^ 64
  let n := 2 ^ (u.cnd % 4)
  let go := fun (k : SkRun) => k.onward (k.p + 1)
  match u.op with
  | 0x18 => ((e.ld addr n).atMicro k.p).bind fun v =>
      .ok { go (k.put u.dst (if 4 ≤ u.cnd then ofSigned e.w (toSigned (8 * n) v) else v)) with loaded := true }
  | 0x19 => ((e.st addr n).atMicro k.p).bind fun pa => .ok (go { k with queue := k.queue ++ [(addr, pa, n, b, k.p)] })
  | 0x1A =>
    if 256 < a then .fault { cause := .sketchOverrun, idx := k.p }
    else if a = 0 then .ok { k with p := u.sh + 1 }
    else .ok { k with loop := some (k.p + 1, u.sh, a), lc := 0, p := k.p + 1 }
  | 0x1B => .ok (k.onward (k.p + 1 + (if a = 0 then u.sh else 0)))
  | 0x1C =>
    let m := ((List.range k.p).filter (fun i => (skOp im i).op == 0x1C)).length
    .ok (go (k.put u.dst (e.draw m)))
  | 0x00 => .ok (go k)
  | _ =>
    if u.op < 0x10 then .ok (go (k.put u.dst (skInt e.w u.op u.cnd a b c)))
    else
      let (v, fl) := skFloat e.w u e.fpctl a b c
      .ok (go { k.put u.dst v with fl := k.fl ||| fl })

/-- How a run goes on: to its commit, to a stand at a micro-operation (before a further access, R267, or in a load's stall), or to a
fault. -/
inductive SkEnd where
  | done (k : SkRun)
  | stands (k : SkRun) (w : Option Wait)
  | fault (f : FaultInfo)
  deriving Repr

/-- A run that has made all its micro-operations: others may move between its last load and its first store (R267). -/
def SkRun.finish (k : SkRun) : SkEnd := if k.loaded && !k.queue.isEmpty then .stands { k with loaded := false } none else .done k
/-- A run of at most n executions; one more than the budget is SKETCH_OVERRUN. Its loads take place one by one: before each but the
first others may move (R267). -/
def skRunFor (im : List Word) (e : SkEnv) : Nat → SkRun → SkEnd
  | 0, k => if skCount im ≤ k.p then k.finish else .fault { cause := .sketchOverrun, idx := k.p }
  | n + 1, k =>
    if skCount im ≤ k.p then k.finish
    else if k.loaded && (skOp im k.p).op == 0x18 then .stands { k with loaded := false } none
    else match skStep im e k with
      | .ok k1 => skRunFor im e n { k1 with x := k.x + 1 }
      | .fault f => .fault f
      | .stall w => .stands { k with loaded := false } (some w)

/-- The state a run starts in. -/
def skStart (out0 out1 : Nat) : SkRun :=
  { p := 0, t := List.replicate 8 0, out0 := out0, out1 := out1, fl := 0, lc := 0, loop := none, queue := [] }

/-! ## Blocks (R253, R255) -/

/-- Logical block j of a context on a cluster. -/
def CtxCluster.block (x : CtxCluster) (j : Nat) : SkBlock := (assoc x.blocks j).getD {}
/-- Physical blocks in use on a cluster. -/
def Cluster.physUsed (k : Cluster) : List Nat := k.ctxs.flatMap (fun x => x.blocks.filterMap (fun b => b.2.phys))
/-- A free physical block. -/
def Cluster.physFree (k : Cluster) : Option Nat := (List.range 128).find? (fun n => !k.physUsed.contains n)
/-- Frees a physical block. -/
def Cluster.evict (k : Cluster) (n : Nat) : Cluster :=
  { k with ctxs := k.ctxs.map (fun x => { x with blocks := x.blocks.map (fun b =>
      (b.1, if b.2.phys = some n then { b.2 with phys := none } else b.2)) }) }

end Sys2Proof.Machine
end

