-- ==== Sys2Proof/Machine/VectorEngine.lean ====
section
/-! DEFINITION. The vector engine (R213–R226): registers under rotation, pipes and latencies, issue, landing, holds, kernel
iterations, and the start of a task (R63, R217, R390). -/

namespace Sys2Proof.Machine

/-! ## Types and lanes (R213) -/

/-- Width of an element type. -/
def vecBits (ty : BitVec 4) : Nat := match ty.toNat with
  | 0 => 64 | 8 => 64 | 9 => 64 | 1 => 32 | 0xA => 32 | 0xB => 32 | 2 => 16 | 3 => 16 | 0xC => 16 | 0xD => 16 | _ => 8
/-- Elements are governed in groups: a lane, or a pair of lanes for 64-bit elements. -/
def groups (w : Nat) : List Nat := List.range (if w = 64 then 512 else 1024)
/-- The predicate bit that governs a group: the odd lane's bit of a pair is ignored. -/
def governor (w g : Nat) : Nat := if w = 64 then 2 * g else g
/-- Element e of a tile at width w. -/
def elemAt (t : Tile) (w e : Nat) : Nat :=
  if w = 64 then (cget t (2 * e)).toNat + 2 ^ 32 * (cget t (2 * e + 1)).toNat
  else (cget t (e * w / 32)).toNat / 2 ^ (e * w % 32) % 2 ^ w
/-- The elements of a group. -/
def groupElems (w g : Nat) : List Nat := if w = 64 then [g] else (List.range (32 / w)).map (fun i => g * (32 / w) + i)
/-- The lanes of a group with its elements' values in place. -/
def groupLanes (w g : Nat) (vs : List Nat) : List (Nat × BitVec 32) :=
  let v := vs.foldr (fun x acc => x % 2 ^ w + 2 ^ w * acc) 0
  if w = 64 then [(2 * g, BitVec.ofNat 32 v), (2 * g + 1, BitVec.ofNat 32 (v / 2 ^ 32))] else [(g, BitVec.ofNat 32 v)]

/-- What a loop over elements writes, lane by lane, and its conditions. -/
abbrev LaneOut := List (Nat × BitVec 32) × Sticky

/-- Some group of a list is active. -/
def anyActive (w : Nat) (pred : BitVec 1024) (gs : List Nat) : Bool := gs.any (fun g => pred.getLsbD (governor w g))

/-- The loop of R230 over the groups of a list; none when no element is active (R223). -/
def vloop (w : Nat) (pred : BitVec 1024) (z : Bool) (gs : List Nat) (f : Nat → Nat × Sticky) : Option LaneOut :=
  if anyActive w pred gs then
    some (gs.foldr (fun g (acc : LaneOut) =>
      if pred.getLsbD (governor w g) then
        let rs := (groupElems w g).map f
        (groupLanes w g (rs.map Prod.fst) ++ acc.1, rs.foldl (fun fl r => fl ||| r.2) acc.2)
      else if z then (groupLanes w g [] ++ acc.1, acc.2) else acc) ([], 0))
  else none

/-! ## Registers (R214, R218) -/

/-- The physical tile of a name under `VRB`. -/
def physTile (n : Reg) (vrb : BitVec 5) : Nat := if n.toNat < 32 then n.toNat else 32 + (n.toNat - 32 + vrb.toNat) % 32
def VecEngine.tile (v : VecEngine) (n : Reg) : Tile := v.v.toList.getD (physTile n v.vrb) []
/-- A predicate; k0 reads all ones. -/
def VecEngine.pred (v : VecEngine) (n : Nat) : BitVec 1024 := if n = 0 then BitVec.allOnes 1024 else v.k.toList.getD n 0
def VecEngine.xreg (v : VecEngine) (n : Nat) : Word := v.x.toList.getD n 0
/-- k8–k15 for kernel iteration i of T nest iterations. -/
def VecEngine.stage (v : VecEngine) (i total : Nat) : VecEngine :=
  { v with k := Vector.ofFn (fun j => if 8 ≤ j.val then (if j.val - 8 ≤ i ∧ i < total + (j.val - 8) then BitVec.allOnes 1024 else 0) else v.k[j]) }

/-- A result lands in its register (R220). -/
def VecEngine.land (v : VecEngine) (d : FlightDest) : VecEngine :=
  match d with
  | .tile n lanes => { v with v := Vector.ofFn (fun i => if i.val = n then csetList v.v[i] lanes else v.v[i]) }
  | .pred n mask value => { v with k := Vector.ofFn (fun i => if i.val = n then (v.k[i] &&& ~~~mask) ||| (value &&& mask) else v.k[i]) }
  | .xreg n value => { v with x := Vector.ofFn (fun i => if i.val = n then value else v.x[i]) }

/-! ## Pipes (R220, R231) -/

/-- The pipes of an engine. -/
inductive Pipe where
  | arith | perm | ldst | none
  deriving DecidableEq, Repr

/-- Pipe, occupancy and latency (0: no register result) of a vector word; `sk` is the latency of its sketch. -/
def vecTiming (major minor : Nat) (ty : BitVec 4) (spec sk : Nat) : Pipe × Nat × Nat :=
  let occ := if vecBits ty = 64 then 8 else 4
  match major, minor with
  | 0x80, _ => (.arith, occ, 2)
  | 0x81, _ => (.arith, occ, 2)
  | 0x82, m => if 8 ≤ m then (.arith, occ, 2) else if ty = 0 then (.arith, 16, 8) else (.arith, 4, 4)
  | 0x83, _ => (.arith, 4, 12)
  | 0x84, _ => (.arith, if ty = 0 then 16 else occ, 3)
  | 0x85, _ => (.perm, 1, 1)
  | 0x86, m => (.arith, 4, if m = 0 then 5 else 6)
  | 0x87, m => (.perm, 4, match m with
      | 0 => 2 | 1 => 6 | 2 => 2 | 3 => 4 | 4 => 8 | 5 => 12 | _ => 10)
  | 0x88, m => match m with
      | 0 => (.ldst, 4, 24) | 1 => (.ldst, 4, 0) | 2 => (.ldst, 16, 40) | _ => (.ldst, 16, 0)
  | 0x89, 0 => (.arith, 4, 6)
  | 0x89, _ => (.arith, occ, if spec = 2 then 0 else 2)
  | 0xF4, _ => (.arith, 4, sk)
  | _, _ => (.none, 0, 0)

/-- When a pipe is free. -/
def VecRun.free (r : VecRun) : Pipe → Nat
  | .arith => r.arith | .perm => r.perm | .ldst => r.ldst | .none => 0
def VecRun.occupy (r : VecRun) (p : Pipe) (t : Nat) : VecRun :=
  match p with
  | .arith => { r with arith := t } | .perm => { r with perm := t } | .ldst => { r with ldst := t } | .none => r

/-! ## A running task -/

def Task.vec (t : Task) : VecParams := match t.op with
  | .vec p => p
  | _ => { body := 0, n := 1, extents := [1], stages := 1, walkers := [], args := [] }
/-- Nest iterations T. -/
def Task.nest (t : Task) : Nat := t.vec.extents.foldl (· * ·) 1
/-- Kernel iterations: T + S − 1. -/
def Task.kernels (t : Task) : Nat := t.nest + t.vec.stages - 1

/-- The cycle in which word j would issue after the word before it (R50). -/
def VecRun.issueAt (r : VecRun) (j : Nat) : Nat := r.clock + (gapOf (r.body.getD j 0)).toNat + 1
/-- The kernel iteration is the task's last one. -/
def VecRun.last (r : VecRun) : Bool := decide (r.task.kernels ≤ r.iter + 1)

/-- What the engine does next: after the last kernel iteration it lands what is in flight and is done, also when a save asks it to stop
(DESIGN CHOICE, log 77). -/
inductive VecMove where
  | land | boundary | hold | done
  | issue (w : Word)
  deriving DecidableEq, Repr

def VecRun.move (r : VecRun) : VecMove :=
  match r.body[r.next]? with
  | some w =>
    if r.flights.any (fun f => f.landAt ≤ r.issueAt r.next) then .land
    else if r.held then .hold else .issue w
  | none => if r.last then (if r.flights.isEmpty then .done else .land) else .boundary

/-- The acting core's running task and its engine replaced. -/
def State.setVec (s : State) (v : VecEngine) : State := { s with core := { s.core with vec := v } }
def State.setRun (s : State) (r : Option VecRun) : State := s.setVec { s.core.vec with run := r }

/-- The running task as the Atelier now holds it (a cancel may have come), with the conditions the engine collected. -/
def State.liveTask (s : State) (r : VecRun) : Task := { (s.cluster.task? r.task.id).getD r.task with flags := r.task.flags }

/-- Flights by landing cycle; those of one cycle keep the order of their issue (R220). -/
def landFirst (f : Flight) : List Flight → List Flight
  | [] => [f]
  | g :: rest => if f.landAt ≤ g.landAt then f :: g :: rest else g :: landFirst f rest
def landOrder (fs : List Flight) : List Flight := fs.foldr landFirst []
/-- Lands flights in order. -/
def VecEngine.landAll (v : VecEngine) (fs : List Flight) : VecEngine := (landOrder fs).foldl (fun v f => v.land f.dest) v

/-- The flights that land next: those of the earliest cycle, in issue order. -/
def earliest (fs : List Flight) : Nat := fs.foldl (fun m f => min m f.landAt) ((fs.head?.map (fun f => f.landAt)).getD 0)

/-- VECTOR_RESULT_LAND (R220). -/
def execVectorResultLand (s : State) : Out :=
  match s.core.vec.run with
  | none => absent "VECTOR_RESULT_LAND"
  | some r =>
    if r.move = .land then
      let t := earliest r.flights
      let v := s.core.vec.landAll (r.flights.filter (fun f => f.landAt = t))
      .next (s.setVec { v with run := some { r with flights := r.flights.filter (fun f => f.landAt ≠ t) } })
    else absent "VECTOR_RESULT_LAND"

/-- HOLD_RELEASE (R51, R222): the held word is issued again in the same cycle of the issue sequence. -/
def execHoldRelease (s : State) : Out :=
  match s.core.vec.run with
  | some r => if r.held then .next (s.setRun (some { r with held := false })) else absent "HOLD_RELEASE"
  | none => absent "HOLD_RELEASE"

/-- Whether the task's stop is asked for by a hard save (R388). -/
def State.vecSaving (s : State) (t : Task) : Bool := s.core.saving && t.ctx == s.core.cid.toNat

/-- KERNEL_ITERATION_BOUNDARY (R218, R226): rotation and the stage predicates of the next iteration; a save or a
cancellation stops the task here. -/
def execKernelIterationBoundary (s : State) : Out :=
  match s.core.vec.run with
  | none => absent "KERNEL_ITERATION_BOUNDARY"
  | some r =>
    if r.move ≠ .boundary then absent "KERNEL_ITERATION_BOUNDARY"
    else
      let t := s.liveTask r
      let id := s.core.id
      let i := r.iter + 1
      if t.stop then .next (((s.setVec (s.core.vec.landAll r.flights)).setRun none).endTask id.die id.clu t false)
      else
        let v := ({ s.core.vec with vrb := s.core.vec.vrb - 1 }).stage i r.task.nest
        if s.vecSaving t then
          let w := r.issueAt 0
          let v1 := v.landAll (r.flights.filter (fun f => f.landAt ≤ w))
          let fl := (r.flights.filter (fun f => w < f.landAt)).map (fun f => { f with landAt := f.landAt - w })
          let resume := Resume.iter i fl (r.arith - w) (r.perm - w) (r.ldst - w)
          .next ((s.setVec { v1 with run := none }).updCluster id.die id.clu (fun k => k.updTask t.id (fun t =>
            { t with resume := resume, flags := r.task.flags })))
        else .next (s.setVec { v with run := some { r with iter := i, next := 0 } })

/-! ## Issue (R220–R224) -/

/-- What issuing a word comes to. -/
inductive VRes where
  | done (s : State) (dest : Option FlightDest) (fl : Sticky)
  | hold (s : State)
  | fault (f : FaultInfo)

/-- The own address of the word at body index j, as faults report it: without the placement. -/
def wordAddr (s : State) (t : Task) (j : Nat) : Word := BitVec.ofNat 64 (t.vec.body + 8 * j - s.placement t.ctx s.core.id)

/-- A fault of the running task (R224): earlier operations land, this one has no effect. -/
def State.vecFault (s : State) (r : VecRun) (f : FaultInfo) : State :=
  let id := s.core.id
  let f' := { f with addr := some (f.addr.getD (wordAddr s r.task r.next)), idx := r.next,
                     info := BitVec.ofNat 64 r.iter }
  (s.setVec (s.core.vec.landAll r.flights)).taskFault id.die id.clu (s.liveTask r) f' true

/-- A predicate as a source. -/
def predCells (p : BitVec 1024) : Cells 32 := centries 0 ((List.range 32).map (fun i => p.extractLsb' (32 * i) 32))
/-- The operands of a word at issue (R389): of a load, and of a pop, what it brought stands in a; a gather's indices in b. -/
def VecEngine.operands (v : VecEngine) (w : Word) (dest : Option FlightDest) : FlightOps :=
  let o := OpV.unpack (operandsOf w)
  let major := (majorOf w).toNat
  let minor := (minorOf w).toNat
  let brought : Cells 32 := match dest with
    | some (.tile _ lanes) => csetList [] lanes
    | _ => []
  if major = 0x88 then
    let m := OpVM.unpack (operandsOf w)
    { x := if m.pitch then v.xreg 7 else 0, pred := v.pred m.k.toNat, a := brought, b := if minor = 2 then v.tile (m.off.setWidth 6) else [] }
  else if major = 0x85 then { pred := v.pred o.k.toNat, a := predCells (v.pred o.a.toNat), b := predCells (v.pred o.b.toNat) }
  else if major = 0x89 then
    { x := if o.spec = 0 && minor = 1 then v.xreg o.a.toNat else 0, pred := v.pred o.k.toNat, a := if o.spec = 1 && minor = 1 then brought else [] }
  else { pred := v.pred o.k.toNat, a := v.tile o.a, b := v.tile o.b, c := v.tile o.c }
/-- The word is on its way: its flight, its pipe, the issue cycle. -/
def VecRun.issued (r : VecRun) (t : Nat) (p : Pipe) (occ lat : Nat) (dest : Option FlightDest) (fl : Sticky) (ops : FlightOps) : VecRun :=
  let f := (dest.map (fun d => ({ word := r.body.getD r.next 0, lat := lat, landAt := t + lat, j := r.next, iter := r.iter, dest := d, ops := ops } : Flight))).toList
  { r.occupy p (t + occ) with
    clock := t, next := r.next + 1, flights := r.flights ++ f, held := false, sent := 0
    task := { r.task with flags := r.task.flags ||| fl } }

/-- Issues one word of the running task: collision first (R221), then its own effect. With no task running on the engine
the word stands where a control core fetched it, and is not one of its instructions (R60). -/
def vissue (s : State) (tm : Pipe × Nat × Nat) (act : VecRun → VRes) : Out :=
  match s.core.vec.run with
  | none => .next (s.takeFault { cause := .illegalOp })
  | some r =>
    let t := r.issueAt r.next
    if t < r.free tm.1 then .next (s.vecFault r { cause := .issueCollision })
    else match act r with
      | .fault f => .next (s.vecFault r f)
      | .hold u => .next (u.setRun (u.core.vec.run.map (fun r => { r with held := true })))
      | .done u dest fl =>
        .next (u.setRun (some (r.issued t tm.1 tm.2.1 tm.2.2 dest fl (s.core.vec.operands (r.body.getD r.next 0) dest))))

/-- An element-wise word: its destination tile is fixed at issue. -/
def vtile (s : State) (major minor : Nat) (o : OpV) (w : Nat) (gs : List Nat) (f : VecRun → Nat → Nat × Sticky) : Out :=
  vissue s (vecTiming major minor o.ty o.spec.toNat 0) (fun r =>
    let v := s.core.vec
    match vloop w (v.pred o.k.toNat) o.z gs (f r) with
    | none => .done s none 0
    | some (lanes, fl) => .done s (some (.tile (physTile o.d v.vrb) lanes)) fl)

/-- `nop` (R64): one issue slot, of the control core or of a body; it occupies no pipe. -/
def execNop (s : State) : Out :=
  match s.sched.turn with
  | .vector => vissue s (.none, 0, 0) (fun _ => .done s none 0)
  | _ => passed s

/-! ## The start of a task (R63, R217, R225, R269, R390) -/

/-- The sketch block a `sksv` word names by the task's binding copy. -/
def State.taskBlock (s : State) (t : Task) (n : Nat) : Option (Nat × SkBlock) :=
  (assoc t.bindings n).bind (fun j => (s.cluster.ctxAt t.ctx).map (fun x => (j, x.block j)))
/-- A `sksv` word with a vector sketch bound (R269). -/
def State.sksvBound (s : State) (t : Task) (w : Word) : Bool :=
  match s.taskBlock t (minorOf w).toNat with
  | some (_, b) => (match b.image with
      | some im => skVector im
      | none => false)
  | none => false
/-- Timing of a body word. -/
def State.wordTiming (s : State) (t : Task) (w : Word) : Pipe × Nat × Nat :=
  let o := OpV.unpack (operandsOf w)
  let sk := ((s.taskBlock t (minorOf w).toNat).bind (fun b => b.2.image.map skLat)).getD 0
  vecTiming (majorOf w).toNat (minorOf w).toNat o.ty o.spec.toNat (if (majorOf w).toNat = 0xF4 then sk else 0)
/-- Issue offsets of a body: Σ (gap + 1) up to each word. -/
def offsets : Nat → List Word → List Nat
  | _, [] => []
  | a, w :: ws => let b := a + (gapOf w).toNat + 1; b :: offsets b ws
/-- Operations in flight at the latest boundary of the task (R225). -/
def State.inFlight (s : State) (t : Task) (body : List Word) : Nat :=
  let off := offsets 0 body
  let len := off.getLast?.getD 1
  let w0 := off.head?.getD 1
  let before := t.kernels - 1
  ((body.zip off).map (fun p =>
    let lat := (s.wordTiming t p.1).2.2
    if lat = 0 then 0 else min before (((p.2 + lat - w0 - 1) / len)))).sum

/-- What stops a task before its first issue: poison, an illegal word, an unbound sketch, too many results in flight, which the record
puts at the first word (DESIGN CHOICE, log 82). -/
def State.bodyFault (s : State) (t : Task) (body : List Word) : Option FaultInfo :=
  let at_ := fun (c : Cause) (j : Nat) => ({ cause := c, addr := some (wordAddr s t j), idx := j } : FaultInfo)
  match (List.range t.vec.n).findIdx? (fun j => poisoned s.core.poison (t.vec.body + 8 * j) 8) with
  | some j => some (at_ .poison j)
  | none => match body.findIdx? (fun w => !vectorLegal w) with
    | some j => some (at_ .illegalOp j)
    | none => match body.findIdx? (fun w => (majorOf w).toNat = 0xF4 && !s.sksvBound t w) with
      | some j => some (at_ .sketchUnbound j)
      | none => if 32 < s.inFlight t body then some (at_ .issueCollision 0) else none

/-- The body of a task, from its scratchpad. -/
def State.bodyWords (s : State) (t : Task) : List Word := (List.range t.vec.n).map (fun j => readD s.core.spad (t.vec.body + 8 * j))

/-- The engine starts a task from kernel iteration 0 (R217). -/
def State.vecFresh (s : State) (t : Task) (body : List Word) : State :=
  let v := s.core.vec
  let x := Vector.ofFn (fun (i : Fin 16) => if i.val < 8 then t.vec.args.getD i.val 0 else 0)
  let run : VecRun := { task := t, body := body, iter := 0, next := 0, clock := 0, arith := 0, perm := 0, ldst := 0, flights := [], held := false }
  s.setVec { (({ v with x := x, vrb := 0 } : VecEngine).stage 0 t.nest) with run := some run }
/-- It takes a stopped task up again at kernel iteration i (R390): w is the issue cycle of word 0. -/
def State.vecResume (s : State) (t : Task) (body : List Word) (i : Nat) (fs : List Flight) (ca cp cl : Nat) : State :=
  let g := (gapOf (body.getD 0 0)).toNat + 1
  let t0 := fs.foldl (fun m f => max m (f.lat - f.landAt)) 0 - g
  let w := t0 + g
  let run : VecRun := { task := { t with resume := .start }, body := body, iter := i, next := 0, clock := t0, arith := w + ca, perm := w + cp,
                        ldst := w + cl, flights := fs.map (fun f => { f with landAt := w + f.landAt }), held := false }
  s.setVec { s.core.vec.stage i t.nest with run := some run }

/-- The acting core's engine takes a dispatched task (R63). -/
def State.vecStart (s : State) (t : Task) : State :=
  let body := s.bodyWords t
  match t.resume with
  | .iter i fs ca cp cl => s.vecResume t body i fs ca cp cl
  | _ =>
    match s.bodyFault t body with
    | some f => s.taskFault s.core.id.die s.core.id.clu t f true
    | none => s.vecFresh t body

end Sys2Proof.Machine
end

