-- ==== Sys2Proof/Machine/Engines.lean ====
section
/-! DEFINITION. The engines of a cluster: dispatch (R324), completion (R322, R323), the canvas's leases (R210), the gust ring
(R211, R402, R404), and a stalled instruction going on (R168). -/

namespace Sys2Proof.Machine

/-! ## Candidates (R18, R299, R324) -/

/-- A core holds a context that a `resume` has let go on (R396). -/
def Core.runs (c : Core) (ctx : Nat) : Bool := c.holds ctx && c.aside.isNone
/-- A ready task whose context holds its core, or for a remote post its cluster, and which no save is stopping. -/
def State.dispatchable (s : State) (d c : Nat) (t : Task) : Bool :=
  t.phase == .ready && !s.beingSaved d c t &&
  (if t.remote then (List.range 4).any (fun k => (s.coreAt ⟨d, c, k⟩).runs t.ctx) else (s.coreAt (taskCore d c t)).holds t.ctx)
def Task.isVec (t : Task) : Bool := match t.op with
  | .vec _ => true
  | _ => false
def Task.isCopy (t : Task) : Bool := match t.op with
  | .copy _ _ => true
  | _ => false
def Task.isShape (t : Task) : Bool := match t.op with
  | .shape _ _ => true
  | _ => false
def Task.isCanvas (t : Task) : Bool := match t.op with
  | .mma _ _ _ _ _ => true
  | .acc _ _ => true
  | _ => false
/-- The canvas requester of a task: its core, or 4 for the remote partition (R210). -/
def Task.requester (t : Task) : Nat := if t.remote then 4 else t.core

/-- The highest priority, and the oldest within it; tasks stand in admission order. -/
def bestTask (ts : List Task) : Option Task :=
  ts.foldl (fun b t => match b with
    | none => some t
    | some u => if u.pri.toNat < t.pri.toNat then some t else some u) none

def State.candidates (s : State) (d c : Nat) (p : Task → Bool) : List Task :=
  (s.clusterAt d c).tasks.filter (fun t => p t && s.dispatchable d c t)

/-- A task becomes DISPATCHED (R321). -/
def State.toEngine (s : State) (d c : Nat) (t : Task) (put : Cluster → Cluster) : State :=
  s.updCluster d c (fun k => put (k.updTask t.id (fun t => { t with phase := .dispatched })))

/-! ## The canvas (R210, R211) -/

/-- The canvas tasks that a requester has ready. -/
def State.canvasReady (s : State) (d c r : Nat) : List Task := s.candidates d c (fun t => t.isCanvas && t.requester == r)
/-- At a command boundary the lease ends (R210 rule 3), or has ended. -/
def State.leaseOver (s : State) (d c h : Nat) : Bool :=
  let k := (s.clusterAt d c).canvas
  k.ending || decide (k.leaseLen ≤ k.done) || k.leaseStart.any (fun a => decide (a + 32768 ≤ s.sched.now)) || (s.canvasReady d c h).isEmpty
def State.updCanvas (s : State) (d c : Nat) (f : Canvas → Canvas) : State := s.updCluster d c (fun k => { k with canvas := f k.canvas })

/-- CANVAS_LEASE_GRANT (R210 rule 1). -/
def execCanvasLeaseGrant (s : State) : Out :=
  let d := s.core.id.die
  let c := s.core.id.clu
  let k := s.cluster
  let order := (List.range 5).map (fun i => (k.canvas.last + 1 + i) % 5)
  let heads := order.filterMap (fun r => (bestTask (s.canvasReady d c r)).map (fun t => (r, t.pri.toNat)))
  let win := heads.foldl (fun (b : Option (Nat × Nat)) h => match b with
    | none => some h
    | some u => if u.2 < h.2 then some h else some u) none
  match k.canvas.holder, k.canvasTask, win with
  | none, none, some (r, _) =>
    .next (s.updCanvas d c (fun v => { v with holder := some r, done := 0, leaseStart := none, ending := false, leaseLen := v.lens.toList.getD r 16 }))
  | _, _, _ => absent "CANVAS_LEASE_GRANT"

/-- LEASE_END (R210 rule 3). -/
def execLeaseEnd (s : State) : Out :=
  let d := s.core.id.die
  let c := s.core.id.clu
  match s.cluster.canvas.holder, s.cluster.canvasTask with
  | some h, none =>
    if s.leaseOver d c h then
      .next (s.updCanvas d c (fun v => { v with holder := none, last := h, done := 0, leaseStart := none, ending := false, ends := v.ends + 1 }))
    else absent "LEASE_END"
  | _, _ => absent "LEASE_END"

/-- CANVAS_COLD (R211). -/
def execCanvasCold (s : State) : Out :=
  if !s.cluster.canvas.cold && s.cluster.cold s.sched.now then
    .next (s.updCanvas s.core.id.die s.core.id.clu (fun v => { v with cold := true }))
  else absent "CANVAS_COLD"

/-- The physical place of a cluster on its die's gust ring (R12, R211). -/
def State.ringPlace (s : State) (d c : Nat) : Nat := (s.modul.physical.getD d []).getD c c
/-- A cold canvas with a lease and a command to start waits for a token (R211); one that still holds a token needs no other
(DESIGN CHOICE, log 76). -/
def State.wantsToken (s : State) (d c : Nat) : Bool :=
  let k := s.clusterAt d c
  k.cold s.sched.now && !k.canvas.gust && k.canvasTask.isNone &&
  (match k.canvas.holder with
   | some h => !s.leaseOver d c h
   | none => false)
/-- Tokens that may circulate on a die (R402, R404). -/
def Die.tokens (k : Die) : Nat := match k.thermal with
  | 0 => k.gustG
  | 1 => k.gustG - k.gustG / 2
  | _ => 1

/-- GUST_TOKEN_TAKE (R211): the canvas is warm from this cycle. -/
def execGustTokenTake (s : State) : Out :=
  let d := s.core.id.die
  let c := s.core.id.clu
  let p := s.ringPlace d c
  if s.wantsToken d c && (s.dieAt d).gustFree.contains p then
    .next ((s.updCanvas d c (fun v => { v with cold := false, gust := true, gustAt := s.sched.now, lastBusy := s.sched.now })).updDie d
      (fun k => { k with gustFree := k.gustFree.erase p, gustHeld := k.gustHeld + 1 }))
  else absent "GUST_TOKEN_TAKE"

/-- RAMP_WINDOW_END (R211): the token returns to the ring, unless the die withholds it (R404). -/
def execRampWindowEnd (s : State) : Out :=
  let d := s.core.id.die
  let c := s.core.id.clu
  let v := s.cluster.canvas
  if v.gust && decide (v.gustAt + 2048 ≤ s.sched.now) then
    .next ((s.updCanvas d c (fun v => { v with gust := false })).updDie d (fun k =>
      let held := k.gustHeld - 1
      { k with gustHeld := held, gustFree := if k.gustFree.length + held < k.tokens then k.gustFree ++ [s.ringPlace d c] else k.gustFree }))
  else absent "RAMP_WINDOW_END"

/-- GUST_TOKEN_ADVANCE (R211): every 16 cycles each free token moves to the next cluster in physical order; one that a waiting
canvas can take does not pass it. -/
def execGustTokenAdvance (s : State) : Out :=
  let d := s.core.id.die
  let k := s.dieAt d
  let taken := (List.range (s.ncl d)).any (fun c => s.wantsToken d c && k.gustFree.contains (s.ringPlace d c))
  if decide (k.gustMovedAt + 16 ≤ s.sched.now) && !taken then
    .next (s.updDie d (fun k => { k with gustFree := k.gustFree.map (fun p => (p + 1) % 12), gustMovedAt := s.sched.now }))
  else absent "GUST_TOKEN_ADVANCE"

/-! ## Dispatch (R324) -/

/-- The acting core's vector engine takes its next task. -/
def State.dispatchVector (s : State) : Option State :=
  let d := s.core.id.die
  let c := s.core.id.clu
  if s.core.vec.run.isSome || s.cluster.tasks.any (fun t => t.isVec && t.core == s.core.id.core && t.dispatched) then none
  else (bestTask (s.candidates d c (fun t => t.isVec && t.core == s.core.id.core && !t.remote))).map (fun t =>
    let u := { t with phase := .dispatched }
    (s.toEngine d c t id).vecStart u)

/-- A copy engine takes a task; when both are free, engine 0 does. -/
def State.dispatchCopy (s : State) (n : Nat) : Option State :=
  let d := s.core.id.die
  let c := s.core.id.clu
  let k := s.cluster
  let t := bestTask (s.candidates d c Task.isCopy)
  match n with
  | 0 => if k.copy0.isSome then none else t.map (fun t => s.toEngine d c t (fun k => { k with copy0 := some t.id }))
  | 1 => if k.copy1.isSome || k.copy0.isNone then none else t.map (fun t => s.toEngine d c t (fun k => { k with copy1 := some t.id }))
  | _ => none

/-- The shaper takes a task. -/
def State.dispatchShaper (s : State) : Option State :=
  let d := s.core.id.die
  let c := s.core.id.clu
  if s.cluster.shaper.isSome then none
  else (bestTask (s.candidates d c Task.isShape)).map (fun t => s.toEngine d c t (fun k => { k with shaper := some t.id }))

/-- The canvas takes the holder's next task (R210 rule 2) while it is warm or holds a token. -/
def State.dispatchCanvas (s : State) : Option State :=
  let d := s.core.id.die
  let c := s.core.id.clu
  let k := s.cluster
  match k.canvas.holder with
  | none => none
  | some h =>
    if k.canvasTask.isSome || s.leaseOver d c h || (k.cold s.sched.now && !k.canvas.gust) then none
    else (bestTask (s.canvasReady d c h)).map (fun t =>
      s.toEngine d c t (fun k => { k with
        canvasTask := some t.id
        canvas := { k.canvas with cold := false, leaseStart := some (k.canvas.leaseStart.getD s.sched.now) } }))

/-- Another POST to a cluster. -/
def isPost (b : PktBody) (_ : Nat) : Bool := match b with
  | .post _ _ _ _ => true
  | _ => false

/-- The fabric interface takes the oldest `rpost` task and hands its POST on (R298), when its pair has room (R279), no earlier
post to that cluster waits to be accepted (R287), and no fence holds it back (R342). -/
def State.dispatchFabric (s : State) : Option State :=
  let d := s.core.id.die
  let c := s.core.id.clu
  match s.candidates d c Task.isRpost with
  | [] => none
  | t :: _ =>
    match t.op with
    | .rpost tw body =>
      let g := s.target tw
      if !s.die.pairRoom g.die t.cls || s.die.retryBlocks g t.cls isPost || fenceHolds t.orders (s.coreAt (taskCore d c t)).effects g.die t.cls then none
      else
        let s1 := s.toEngine d c t (fun k => { k with fabric := k.fabric ++ [t.id] })
        match s1.handOnPost { core := taskCore d c t, ctx := t.ctx, window := none, task := some t.id } g t.cls body with
        | (s2, some (.deny x)) => some (s2.taskFault d c { t with phase := .dispatched } { cause := x } true)
        | (s2, _) => some s2
    | _ => none

/-- TASK_DISPATCH (R324); a vector task starts with the check of its body (R63). -/
def execTaskDispatch (e : Engine) (s : State) : Out :=
  let r := match e with
    | .vector k => if k = s.core.id.core then s.dispatchVector else none
    | .copy n => s.dispatchCopy n
    | .shaper => s.dispatchShaper
    | .canvas => s.dispatchCanvas
    | .fabric => s.dispatchFabric
  match r with
  | some t => .next t
  | none => absent "TASK_DISPATCH"

/-! ## Completion (R322, R323) -/

/-- The acting core's vector task has issued and landed everything. -/
def State.completeVector (s : State) : Option State :=
  match s.core.vec.run with
  | none => none
  | some r =>
    let t := s.liveTask r
    if r.move = .done then some (s.completeTask s.core.id.die s.core.id.clu t) else none

/-- A copy has moved every element, or stands where a stop ends it (R124). -/
def State.completeCopy (s : State) (n : Nat) : Option State :=
  let d := s.core.id.die
  let c := s.core.id.clu
  match s.cluster.copyEngine n with
  | none => none
  | some t =>
    if t.hasWritten then s.afterWork d c t t.repeatable
    else if t.copyCount ≤ t.copyNext then (if t.hbmIdle then some (s.completeTask d c t) else none)
    else if t.stop && t.copyAtBoundary then some (s.endTask d c t false)
    else none

/-- A task that reads HBM of other dies asks for those units first; then its engine does its work. -/
def State.whenRead (s : State) (d c : Nat) (t : Task) (f : State → State) : Option State :=
  match s.farMissing d t with
  | [] => if t.hbmIdle then some (f s) else none
  | us => s.fetchAll d c t us

/-- The shaper's task, whole (R136). -/
def State.completeShaper (s : State) : Option State :=
  let d := s.core.id.die
  let c := s.core.id.clu
  (s.cluster.shaper.bind s.cluster.task?).bind (fun t => s.whenRead d c t (fun s => s.runShaper d c t))

/-- A command boundary, once the command has left the canvas: it counts in the lease, which ends here when one of its limits is reached
(R210). -/
def State.boundary (s : State) (d c : Nat) : State :=
  if (s.clusterAt d c).canvasTask.isSome then s
  else
    let s1 := s.updCanvas d c (fun v => { v with done := v.done + 1, lastBusy := s.sched.now })
    match (s1.clusterAt d c).canvas.holder with
    | some h => if s1.leaseOver d c h then s1.updCanvas d c (fun v => { v with ending := true }) else s1
    | none => s1
/-- The work of a canvas command. -/
def State.runCanvas (s : State) (d c : Nat) (t : Task) : State :=
  match t.op with
  | .mma minor tile a b spec => s.runMatrix d c t { minor := minor, tile := tile, a := a, b := b, spec := spec }
  | .acc op h => s.runAcc d c t op h
  | _ => s
/-- The canvas's command, whole (R202). -/
def State.completeCanvas (s : State) : Option State :=
  let d := s.core.id.die
  let c := s.core.id.clu
  (s.cluster.canvasTask.bind s.cluster.task?).bind (fun t =>
    if t.hasWritten then (s.afterWork d c t true).map (fun s => s.boundary d c)
    else if s.hbmHeld d c t then none
    else s.whenRead d c t (fun s => (s.runCanvas d c t).boundary d c))

/-- A post that has been accepted: no packet of its task waits for an answer. -/
def State.completeFabric (s : State) : Option State :=
  let d := s.core.id.die
  let c := s.core.id.clu
  let open_ := fun (t : Task) => s.die.unacked.any (fun p => p.from_.task == some t.id && p.from_.core == taskCore d c t)
  (s.cluster.tasks.find? (fun t => t.isRpost && t.dispatched && !open_ t)).map (fun t => s.completeTask d c t)

/-- TASK_COMPLETE (R322, R323): an engine has finished, or a fence lets the flag of a COMPLETE task go. -/
def execTaskComplete (e : Engine) (s : State) : Out :=
  let r := match e with
    | .vector k => if k = s.core.id.core then s.completeVector else none
    | .copy n => s.completeCopy n
    | .shaper => s.completeShaper
    | .canvas => s.completeCanvas
    | .fabric => s.completeFabric
  match r, s.retirable s.core.id.die s.core.id.clu with
  | some t, _ => .next t
  | none, some t => .next (s.retire s.core.id.die s.core.id.clu t)
  | none, none => absent "TASK_COMPLETE"

/-! ## A stalled instruction (R168) -/

/-- STALLED_INSTRUCTION_RESUME: the instruction issues again at the core's next turn, and completes when what it waits for has come
about (DEDUCED, log 22). A wait for a reply ends with the reply. -/
def execStalledInstructionResume (s : State) : Out :=
  match s.core.stall with
  | none => absent "STALLED_INSTRUCTION_RESUME"
  | some w => if w = .reply then absent "STALLED_INSTRUCTION_RESUME" else .next { s with core := { s.core with stall := none } }

end Sys2Proof.Machine
end

