-- ==== Sys2Proof/Machine/Fabric.lean ====
section
/-! DEFINITION. The Sefel fabric's packets (R278, R279, R285–R287, R293, R298, R301): delivery at a die, answers at their source, and
resending. -/

namespace Sys2Proof.Machine

/-! ## Delivery (R285) -/

/-- The sequence number that die d delivers next from a source die in a class. -/
def Die.expected (k : Die) (src : Nat) (cls : BitVec 4) : BitVec 16 := (assoc k.expect (pairKey src cls)).getD 0

/-- A request packet is next in its order at die d: held there, or coming in from another module (DESIGN CHOICE, log 17). -/
def State.deliverable (s : State) (d : Nat) (p : Packet) : Bool :=
  let k := s.dieAt d
  p.seq == k.expected p.src p.cls && (k.resequencer.contains p || ((s.dieIndex p.src).isNone && s.inTorus p.src))

/-- Delivers a request packet and sends its answer. -/
def State.takePacket (s : State) (d : Nat) (p : Packet) : State :=
  let s1 := s.updDie d (fun k => { k with
    resequencer := k.resequencer.filter (fun q => q ≠ p), expect := assocSet k.expect (pairKey p.src p.cls) (p.seq + 1) })
  let (s2, r) := s1.deliverAny d p
  s2.answer d p r

/-- The delivery of a packet of one kind. -/
def deliverEvent (name : String) (kind : PktBody → Bool) (p : Packet) (s : State) : Out :=
  match s.dieIndex p.dst with
  | none => absent name
  | some d => if kind p.body && s.deliverable d p then .next (s.takePacket d p) else absent name

def isWrite (b : PktBody) : Bool := match b with
  | .write _ _ _ _ => true
  | _ => false
def isAtomic (b : PktBody) : Bool := match b with
  | .atomic _ _ => true
  | _ => false
def isFlag (b : PktBody) : Bool := match b with
  | .flag _ _ => true
  | _ => false
def isMsg (b : PktBody) : Bool := match b with
  | .msg _ => true
  | _ => false
def isPosting (b : PktBody) : Bool := match b with
  | .post _ _ _ _ => true
  | _ => false
def isCancel (b : PktBody) : Bool := match b with
  | .cancel => true
  | _ => false
def isHbm (b : PktBody) : Bool := match b with
  | .hbm _ _ _ => true
  | .hbmRead _ _ => true
  | .hbmWrite _ _ _ _ => true
  | _ => false

/-- WRITE (R292). -/
def execWrite (p : Packet) (s : State) : Out := deliverEvent "WRITE" isWrite p s
/-- ATOMIC (R171). -/
def execAtomic (p : Packet) (s : State) : Out := deliverEvent "ATOMIC" isAtomic p s
/-- FLAG (R300). -/
def execFlag (p : Packet) (s : State) : Out := deliverEvent "FLAG" isFlag p s
/-- MSG (R178). -/
def execMsg (p : Packet) (s : State) : Out := deliverEvent "MSG" isMsg p s
/-- POST (R299). -/
def execPost (p : Packet) (s : State) : Out := deliverEvent "POST" isPosting p s
/-- CANCEL (R301). -/
def execCancel (p : Packet) (s : State) : Out := deliverEvent "CANCEL" isCancel p s
/-- HBM (R74). -/
def execHbm (p : Packet) (s : State) : Out := deliverEvent "HBM" isHbm p s

/-! ## Answers at the source (R278, R288, R293) -/

/-- Does something as another core and comes back to the acting one. -/
def State.asCore (s : State) (id : CoreId) (f : State → State) : State := (f (s.actAs id)).actAs s.core.id

/-- The packet is answered: it is kept no longer, and its effect is performed (R286, R341); a CANCEL that waited for its place goes out
(R279). -/
def State.forget (s : State) (d : Nat) (p : Packet) : State :=
  (((s.updDie d (fun k => { k with
    unacked := k.unacked.filter (fun q => q.uid ≠ p.uid), dropped := k.dropped.filter (fun u => u ≠ p.uid)
    retried := k.retried.filter (fun r => r.1 ≠ p.uid) })).updCore p.from_.core (fun c => c.performed [p.uid])).flushCancels d).flushFar d

/-- One count of OUT less, of the window or of the direct status, while the context holds its core (R288). -/
def countDown (p : Packet) (c : Core) : Core :=
  if !c.holds p.from_.ctx then c
  else match p.from_.window with
    | some n => c.updWindow n (fun w => { w with out := w.out - 1 })
    | none => if isFlag p.body || isMsg p.body then { c with directOut := c.directOut - 1 } else c
/-- One count more, when a message is sent again. -/
def countUp (p : Packet) (c : Core) : Core :=
  if c.holds p.from_.ctx && isMsg p.body then { c with directOut := c.directOut + 1 } else c
/-- The message has been accepted or denied (R179). -/
def messageDone (p : Packet) (c : Core) : Core := { c with msgsOut := c.msgsOut.filter (fun u => u ≠ p.uid) }
/-- A denial sets DEN of the window or of the direct status (R293), in the save of a context that is switched out (R302). -/
def setDen (p : Packet) (c : Core) : Core :=
  match p.from_.window with
  | some n => if isWrite p.body then c.updWindow n (fun w => { w with den := true }) else c
  | none => if isFlag p.body || isMsg p.body then { c with directDen := true } else c
def HardRecord.setDen (p : Packet) (h : HardRecord) : HardRecord :=
  match p.from_.window with
  | some n => if isWrite p.body then
      { h with windows := Vector.ofFn (fun i => if i.val = n then { h.windows[i] with den := true } else h.windows[i]) } else h
  | none => if isFlag p.body || isMsg p.body then { h with directDen := true } else h
def State.setDen (s : State) (p : Packet) : State :=
  if (s.coreAt p.from_.core).holds p.from_.ctx then s.updCore p.from_.core (Sys2Proof.Machine.setDen p)
  else s.updSave p.from_.ctx p.from_.core (fun a => { a with hard := a.hard.map (HardRecord.setDen p) })

/-- The core that waits for the reply to a packet. -/
def awaits (s : State) (p : Packet) : Option Awaiting := (s.coreAt p.from_.core).await.filter (fun a => a.uid = p.uid)

/-- The waiting instruction completes with the value its atomic read (R171). -/
def State.replyTo (s : State) (p : Packet) (old : Nat) : State :=
  match awaits s p with
  | none => s
  | some a => s.asCore p.from_.core (fun s =>
      (({ s with core := { s.core with await := none } }).takeOld a.d (BitVec.ofNat 2 a.size) a.sx a.claim old).advance.settled)
/-- The waiting instruction faults (R171, R293). -/
def State.denyTo (s : State) (p : Packet) (cause : Cause) : State :=
  match awaits s p with
  | none => s
  | some a => s.asCore p.from_.core (fun s => ({ s with core := { s.core with await := none } }).takeFault { cause := cause, addr := some a.ea })

/-- The task a POST belongs to, while it is still dispatched. -/
def State.postTask (s : State) (p : Packet) : Option Task :=
  p.from_.task.bind (fun i => ((s.clusterAt p.from_.core.die p.from_.core.clu).task? i).filter (fun t => t.isRpost && t.dispatched))

/-- The answer to an HBM packet of a COPY (R74): a read's unit is kept for the chunk that asked for it. -/
def QPacket.farAnswer (k : QPacket) (p : Packet) (data : Option (BitVec 512 × Bool)) : QPacket :=
  let k1 := { k with hbmOpen := k.hbmOpen.filter (fun u => u ≠ p.uid) }
  match p.body, data with
  | .hbmRead unit _, some v => { k1 with hbmUnits := k1.hbmUnits ++ [(unit, v)] }
  | _, _ => k1
/-- The answer to an HBM packet reaches its task or its COPY packet (R278). -/
def State.farDone (s : State) (p : Packet) (data : Option (BitVec 512 × Bool)) : State :=
  match p.from_.task, p.from_.pkt with
  | none, none => s
  | none, some (fn, q, idx) => s.updQueue fn q (fun k => { k with pkts := mapWhere (fun x => x.idx = idx) (fun x => x.farAnswer p data) k.pkts })
  | some i, _ => s.updCluster p.from_.core.die p.from_.core.clu (fun k => k.updTask i (fun t => t.farAnswer p data))
/-- A packet is accepted (ACK): its count ends; a post's task can complete (R298). -/
def State.accepted (s : State) (d : Nat) (p : Packet) : State :=
  ((s.forget d p).updCore p.from_.core (fun c => messageDone p (countDown p c))).farDone p none

/-- A packet is denied (R293): DEN, the fault of its atomic, or the fault of its `rpost` task (R298). -/
def State.denied (s : State) (d : Nat) (p : Packet) (cause : Cause) : State :=
  let s1 := (((s.forget d p).updCore p.from_.core (fun c => messageDone p (countDown p c))).setDen p).farDone p (some (0, true))
  match p.body with
  | .post _ _ _ _ => match s.postTask p with
    | some t => s1.taskFault p.from_.core.die p.from_.core.clu t { cause := cause } true
    | none => s1
  | _ => s1.denyTo p cause

/-- A message or post is answered with RETRY (R287): it waits to be sent again; a post whose task has ended is sent no more
(R301). -/
def State.retriedAt (s : State) (d : Nat) (p : Packet) : State :=
  let s1 := s.updCore p.from_.core (countDown p)
  if isPosting p.body && (s.postTask p).isNone then s1.forget d p
  else ((s1.updDie d (fun k => { k with retried := k.retried.filter (fun r => r.1 ≠ p.uid) ++ [(p.uid, true)] })).flushCancels d).flushFar d

/-- An answer that has reached die d, or comes in from another module (DESIGN CHOICE, log 17), with the packet it answers. -/
def State.answered (s : State) (r : Response) : Option (Nat × Packet) :=
  (s.dieIndex r.dst).bind (fun d =>
    if (s.dieAt d).arrived.contains r || ((s.dieIndex r.src).isNone && s.inTorus r.src) then
      ((s.dieAt d).unacked.find? (fun p => p.uid = r.uid && p.dst = r.src)).map (fun p => (d, p))
    else none)
/-- The answer is taken off its die. -/
def State.consumed (s : State) (d : Nat) (r : Response) : State := s.updDie d (fun k => { k with arrived := k.arrived.erase r })

/-- ACK (R278). -/
def execAck (r : Response) (s : State) : Out :=
  match r.kind, s.answered r with
  | .ack, some (d, p) => .next ((s.consumed d r).accepted d p)
  | _, _ => absent "ACK"
/-- DENY (R293). -/
def execDeny (r : Response) (s : State) : Out :=
  match r.kind, s.answered r with
  | .deny c, some (d, p) => .next ((s.consumed d r).denied d p c)
  | _, _ => absent "DENY"
/-- REPLY (R278): what an atomic read, or the unit of an HBM read. -/
def execReply (r : Response) (s : State) : Out :=
  match r.kind, s.answered r with
  | .reply old, some (d, p) => .next (((s.consumed d r).accepted d p).replyTo p old.toNat)
  | .data u bad, some (d, p) => .next (((s.consumed d r).farDone p (some (u, bad))).forget d p)
  | _, _ => absent "REPLY"
/-- RETRY (R287); a report that the destination has dropped a packet comes the same way (R286). -/
def execRetry (r : Response) (s : State) : Out :=
  match r.kind, s.answered r with
  | .retry, some (d, p) => .next ((s.consumed d r).retriedAt d p)
  | .dropped, some (d, p) => .next ((s.consumed d r).updDie d (fun k => { k with dropped := k.dropped.filter (fun u => u ≠ p.uid) ++ [p.uid] }))
  | _, _ => absent "RETRY"

/-! ## Resending (R286, R287) -/

/-- The die of the module that keeps a packet for which p holds. -/
def State.keeper (s : State) (uid : Nat) (p : Die → Bool) : Option (Nat × Packet) :=
  ((List.range s.dies).find? (fun d => p (s.dieAt d))).bind (fun d => ((s.dieAt d).unacked.find? (fun q => q.uid = uid)).map (fun q => (d, q)))

/-- PACKET_RESEND (R286): the same packet with the same number. -/
def execPacketResend (uid : Nat) (s : State) : Out :=
  match s.keeper uid (fun k => k.dropped.contains uid) with
  | none => absent "PACKET_RESEND"
  | some (d, p) => .next (s.updDie d (fun k => { (k.push s.sched.now .loc false (.request p)) with dropped := k.dropped.filter (fun u => u ≠ uid) }))

/-- The task of a post is at its stop for a save (R302): it sends again after the restore. -/
def State.postStopped (s : State) (p : Packet) : Bool :=
  isPosting p.body && (match s.postTask p with
    | some t => s.beingSavedAt p.from_.core t
    | none => true)

/-- RETRIED_PACKET_RESEND (R287): a new packet with a new number; in the sender's own cluster it is offered again (R337). -/
def execRetriedPacketResend (uid : Nat) (s : State) : Out :=
  match s.keeper uid (fun k => k.retried.contains (uid, true)) with
  | none => absent "RETRIED_PACKET_RESEND"
  | some (d, p) =>
    if s.postStopped p || (s.dieAt d).earlierRetried p then absent "RETRIED_PACKET_RESEND"
    else if s.ownCluster p.from_.core { die := p.dst, clu := p.clu, core := p.core } then
      match s.deliverAny d p with
      | (t, .retry) => .next t
      | (t, .deny c) => .next ((t.updCore p.from_.core (countUp p)).denied d p c)
      | (t, _) => .next ((t.updCore p.from_.core (countUp p)).accepted d p)
    else if !(s.dieAt d).pairRoom p.dst p.cls then absent "RETRIED_PACKET_RESEND"
    else
      let s1 := s.updDie d (fun k => { k with retried := mapWhere (fun r => r.1 = uid) (fun r => (r.1, false)) k.retried })
      .next ((s1.inject d p).updCore p.from_.core (countUp p))

end Sys2Proof.Machine
end

