-- ==== Sys2Proof/Machine/Sketches.lean ====
section
/-! DEFINITION. `sks` (R264–R267), the sketch management instructions (R270–R272) and the reload of a block (R254). -/

namespace Sys2Proof.Machine

/-- Bindings and blocks of the loaded context here: a cluster keeps its own (DESIGN CHOICE, log 83). -/
def State.sketchBook (s : State) : CtxCluster := (s.cluster.ctxAt s.core.cid.toNat).getD { ctx := 0, fjob := 0 }
/-- Replaces a logical block of a context here. -/
def State.setBlock (s : State) (ctx j : Nat) (b : SkBlock) : State :=
  { s with cluster := s.cluster.updCtx ctx (fun x => { x with blocks := assocSet x.blocks j b }) }

/-- Takes a physical block for logical block j of a context: a free one, or one evicted from a context that does not hold
the cluster (R254; which one is free, DESIGN CHOICE, log 12). -/
def State.makeResident (s : State) (ctx j : Nat) (b : SkBlock) : State :=
  let id := s.core.id
  match s.cluster.physFree with
  | some n => s.setBlock ctx j { b with phys := some n }
  | none =>
    let out := (s.cluster.ctxs.filter (fun x => !s.holdsCluster id.die id.clu x.ctx)).flatMap (fun x => x.blocks.filterMap (fun b => b.2.phys))
    match out[Config.choice s.modul.free % out.length]? with
    | some n => ({ s.freshen with cluster := s.cluster.evict n }).setBlock ctx j { b with phys := some n }
    | none => s

/-- A `sks` of the core, or a held `sksv` of its engine, has issued a block (R254). -/
def State.reloadWanted (s : State) (block : Nat) : Bool :=
  s.core.issued.any (fun i => i.sketch.any (fun g => g.block == block)) ||
  s.core.vec.run.any (fun r => r.held && (r.body[r.next]?).any (fun w =>
    (majorOf w).toNat == 0xF4 && (assoc r.task.bindings (minorOf w).toNat) == some block))
/-- SKETCH_RELOAD (R254): a WRITTEN block that has been issued while it is not resident becomes resident, from a backing copy that
reads. -/
def execSketchReload (block : Nat) (s : State) : Out :=
  let b := s.sketchBook.block block
  if s.core.status.cv && s.reloadWanted block && b.image.isSome && b.phys.isNone && !b.badCopy then .next (s.makeResident s.core.cid.toNat block b)
  else absent "SKETCH_RELOAD"

/-! ## `sks` (R265) -/

/-- A sketch's load: steps 1–6 of R163; a window or the control space faults (R261). -/
def sketchLoad (s : State) (a n : Nat) : Res Nat := (plainEa (BitVec.ofNat 64 a) n).bind fun a => coreLoad s a n
/-- A sketch's store address: steps 1–4 of R163; a window faults with SPAD_RANGE. -/
def sketchStore (s : State) (a n : Nat) : Res Nat :=
  (plainEa (BitVec.ofNat 64 a) n).bind fun a =>
    match placeOf a with
    | .spad a => spadMap s.core a n .store
    | .window _ _ => .fault { cause := .spadRange, addr := some (BitVec.ofNat 64 a) }
    | .control _ => .fault { cause := if s.core.sMode then .spadRange else .priv, addr := some (BitVec.ofNat 64 a) }
    | .outside => .fault { cause := .spadRange, addr := some (BitVec.ofNat 64 a) }

/-- What a scalar run reads. -/
def sksEnv (s : State) (o : OpSks) : SkEnv :=
  { w := 64, ins := [(s.rd o.a).toNat, (s.rd o.b).toNat, (s.rd o.d).toNat, o.imm.toNat], fpctl := s.core.cr.fpctl
    draw := fun _ => 0, ld := sketchLoad s, st := sketchStore s }

/-- The end of a commit: the results are written. -/
def State.sksDone (s : State) (r : SketchRun) : State :=
  let s1 := { s with core := { s.core with sketch := none } }.wr r.d r.out0
  let s2 := if r.two then s1.wr (regAfter r.d) r.out1 else s1
  ((s2.sticky r.flags).advance).settled
/-- The commit: before its first store it waits for screening and looks for poison; it is not abandoned, performs the stores one by one
(R267) and writes the results with the last. A store queue entry is (effective address, physical address, bytes, value,
micro-operation). -/
def sksCommit (s : State) (r : SketchRun) : Out :=
  let c := s.core
  if !r.begun && r.queue.any (fun e => screened s.cluster.tasks c.id.core e.2.1 e.2.2.1 .store) then
    .next { s with core := { c with sketch := some r, stall := some .screening } }
  else match if r.begun then none else r.queue.find? (fun e => poisoned c.poison e.2.1 e.2.2.1) with
    | some e => .next ({ s with core := { c with sketch := none } }.takeFault { cause := .poison, addr := some (BitVec.ofNat 64 e.1), idx := e.2.2.2.2 })
    | none =>
      match r.queue with
      | [] => .next (s.sksDone r)
      | e :: rest =>
        let s1 := { s with core := c.store e.2.1 e.2.2.1 e.2.2.2.1 }
        if rest.isEmpty then .next (s1.sksDone r)
        else .next { s1 with core := { s1.core with sketch := some { r with queue := rest, begun := true }, stall := none } }

/-- A sketch that has issued stands: at a stall, or between two of its accesses (R267). -/
def State.skStands (s : State) (g : SketchIssue) (w : Option Wait) : State :=
  { s with core := { s.core with stall := w, issued := some { ids := [], n := 0, sketch := some g } } }

/-- Whether an image loads. -/
def skLoads (im : List Word) : Bool := (List.range (skCount im)).any (fun p => (skOp im p).op == 0x18)
/-- A run of an image, or the rest of one. -/
def sksRun (s0 : State) (o : OpSks) (j : Nat) (im : List Word) (run : Option SkRun) : Out :=
  let s := if skLoads im then s0.seesAll else s0
  let k := run.getD (skStart (s.rd o.d).toNat (s.rd (regAfter o.d)).toNat)
  match skRunFor im (sksEnv s o) (skLat im - k.x) k with
  | .fault f => .next (s.takeFault f)
  | .stands k w => .next (s.skStands { op := o, block := j, run := some k } w)
  | .done k => sksCommit s { op := o, block := j, d := o.d, two := skTwo im, out0 := BitVec.ofNat 64 k.out0, out1 := BitVec.ofNat 64 k.out1,
                             flags := k.fl, queue := k.queue }

/-- The sketch that the core has issued and that waits or stands. -/
def Core.skIssue (c : Core) : Option SketchIssue := c.issued.bind (fun i => i.sketch)

/-- `sks`. -/
def execSks (o : OpSks) (s : State) : Out :=
  match s.core.sketch with
  | some r => sksCommit s r
  | none =>
    match needCtx s with
    | .fault f => .next (s.takeFault f)
    | .stall w => .next (s.stalled w)
    | .ok _ =>
      let issue := s.core.skIssue
      let bound := match issue with
        | some g => some g.block
        | none => assoc s.sketchBook.bindings o.n.toNat
      match bound.map (fun j => (j, s.sketchBook.block j)) with
      | none => .next (s.takeFault { cause := .sketchUnbound })
      | some (j, b) =>
        match b.image with
        | none => .next (s.takeFault { cause := .sketchUnbound })
        | some im =>
          if skVector im then .next (s.takeFault { cause := .sketchUnbound })
          else if skTwo im && o.d.toNat % 2 == 1 then .next (s.takeFault { cause := .illegalOp })
          else if b.phys.isNone then
            (if b.badCopy then .next (s.takeFault { cause := .poison })
              else .next (s.skStands { op := o, block := j, run := none } (some .sketch)))
          else sksRun s o j im (issue.bind (fun g => g.run))

/-! ## Management (R271, R272) -/

/-- Block j of a context is in use here (R272): a run that issued from it has not ended, or a pending vector task names it. What is
saved of a core counts while the context does not hold the core. -/
def State.blockInUse (s : State) (ctx j : Nat) : Bool :=
  let id := s.core.id
  let names := fun (t : Task) => t.pending && t.ctx == ctx && (match t.op with
    | .vec _ => t.bindings.any (fun b => b.2 = j)
    | _ => false)
  (List.range 4).any (fun k =>
    let c := s.coreAt ⟨id.die, id.clu, k⟩
    (c.holds ctx && (c.sketch.any (fun r => r.block = j) || c.skIssue.any (fun g => g.block = j))) || c.restored.any names) ||
  s.cluster.tasks.any names ||
  (s.jobOf ctx).any (fun b => b.saves.any (fun p => p.1.die = id.die && p.1.clu = id.clu && !(s.coreAt p.1).holds ctx &&
    (match p.2.hard with
     | some h => h.tasks.any names
     | none => false)))

/-- `sk.bind`. -/
def execSkBind (o : OpSkBind) (s : State) : Out :=
  let x := s.sketchBook
  ends s ((needCtx s).bind fun _ => (faultIf (decide (x.partition ≤ o.j.toNat)) .priv).bind fun _ =>
    (faultIf (x.block o.j.toNat).image.isNone .sketchUnbound).bind fun _ =>
    .ok { s with cluster := s.cluster.updCtx s.core.cid.toNat (fun x => { x with bindings := assocSet x.bindings o.n.toNat o.j.toNat }) }.advance)
/-- `sk.unbind`. -/
def execSkUnbind (o : OpSkN) (s : State) : Out :=
  ends s ((needCtx s).bind fun _ =>
    .ok { s with cluster := s.cluster.updCtx s.core.cid.toNat (fun x => { x with bindings := assocDel x.bindings o.n.toNat }) }.advance)

/-- n doublewords as control-core loads, in order. -/
def coreLoadWords (s : State) : Nat → Nat → Res (List Word)
  | _, 0 => .ok []
  | a, n + 1 => (coreLoad s a 8).bind fun v => (coreLoadWords s (a + 8) n).bind fun vs => .ok (BitVec.ofNat 64 v :: vs)

/-- SKW of the loaded context's job (R20, R438). -/
def State.skw (s : State) : Bool := (s.jobOf s.core.cid.toNat).any (fun j => j.skw)
/-- `sk.write`. -/
def execSkWrite (o : OpSkWrite) (s : State) : Out :=
  let a := s.rd o.a
  let j := o.j.toNat
  let ctx := s.core.cid.toNat
  ends s ((needCtx s).bind fun _ => (faultIf (!s.core.sMode && !s.skw) .priv).bind fun _ =>
    (faultIf (decide (s.sketchBook.partition ≤ j)) .priv).bind fun _ =>
    (faultAt (a.toNat / 2 ^ 32 != 0) .spadRange a).bind fun _ => (faultAt (a.toNat % 16 != 0) .misalign a).bind fun _ =>
    (coreLoadWords s a.toNat 2).bind fun h => (coreLoadWords s (a.toNat + 16) (2 * skCount h)).bind fun ops =>
    (faultIf (skBad (h ++ ops)) .illegalOp).bind fun _ => (stallIf (s.blockInUse ctx j) .sketch).bind fun _ =>
      let s := s.seesAll
      let b := s.sketchBook.block j
      let new : SkBlock := { image := some (h ++ ops), phys := b.phys, badCopy := false }
      .ok (if b.phys.isSome then s.setBlock ctx j new else s.makeResident ctx j new).advance)
/-- `sk.inval`. -/
def execSkInval (o : OpSkInval) (s : State) : Out :=
  let ctx := (s.rd o.a).toNat % 128
  let clear := fun (b : Nat × SkBlock) => (b.1, if o.m then ({} : SkBlock) else { b.2 with phys := none })
  ends s ((needS s).bind fun _ => (stallIf ((List.range 64).any (fun j => s.blockInUse ctx j)) .sketch).bind fun _ =>
    .ok { s with cluster := s.cluster.updCtx ctx (fun x =>
        { x with blocks := x.blocks.map clear, bindings := if o.m then [] else x.bindings }) }.advance)

end Sys2Proof.Machine
end

