-- ==== Sys2Proof/Machine/Launch.lean ====
section
/-! DEFINITION. Launch and admission: the descriptor (R361), the image (R439), firmware's checks (R362, R442, R254, R76) and the
creation of a job (R363, R441). -/

namespace Sys2Proof.Machine

/-! ## The descriptor (R361) -/

/-- A field of n bytes at an offset of the descriptor that packet p names. -/
def State.descField (s : State) (fn : Nat) (p : QPacket) (off n : Nat) : Nat := s.hostNat fn ((p.dw 2).toNat + off) n

/-- An HBM range: virtual address, length, RD, WR, AT, ENC. -/
structure HbmRange where
  va : Nat
  len : Nat
  rd : Bool
  wr : Bool
  at_ : Bool
  enc : Bool

/-- A launch descriptor with its lists. `high` holds what stands in reserved places of list entries. -/
structure Desc where
  image : Nat
  imgLen : Nat
  entry : Nat
  clmask : Nat
  coreMask : Nat
  spad : Nat
  acc : Nat
  skb : Nat
  pal : Nat
  args : List Nat
  rng : Nat
  grt : Nat
  sig : Nat
  nHbm : Nat
  nHost : Nat
  nGrt : Nat
  nSig : Nat
  nWq : Nat
  fl : Nat
  zero57 : Nat
  wql : List Nat
  fjob : Nat
  zero7c : Nat
  hbm : List HbmRange
  host : List (Nat × Nat × Bool × Bool)
  grants : List (Nat × BitVec 128)
  signals : List Nat
  high : Nat

def State.descOf (s : State) (fn : Nat) (p : QPacket) : Desc :=
  let f := s.descField fn p
  let d := fun (a : Nat) => s.hostD fn a
  let rng := f 0x48 8
  let grt := f 0x58 8
  let nHbm := f 0x50 2
  let nHost := f 0x52 1
  let nGrt := f 0x53 1
  let word := fun (i k : Nat) => d (rng + 16 * i + 8 * k)
  let hbm := (List.range nHbm).map (fun i =>
    ({ va := bits (word i 0) 47 0, len := (word i 1).toNat, rd := bit (word i 0) 63, wr := bit (word i 0) 62, at_ := bit (word i 0) 61
       enc := bit (word i 0) 60 } : HbmRange))
  let host := (List.range nHost).map (fun i =>
    ((word (nHbm + i) 0).toNat, bits (word (nHbm + i) 1) 61 0, bit (word (nHbm + i) 1) 63, bit (word (nHbm + i) 1) 62))
  let gw := fun (i k : Nat) => (d (grt + 24 * i + 8 * k)).toNat
  let grants := (List.range nGrt).map (fun i => (gw i 0, BitVec.ofNat 128 (gw i 1 + 2 ^ 64 * gw i 2)))
  let reserved := (List.range nHbm).map (fun i => bits (word i 0) 59 48) ++
    (List.range nGrt).map (fun i => gw i 0 / 2 ^ 48 + gw i 1 / 2 ^ 44 % 32 + gw i 1 % 2 ^ 22 + gw i 2 / 2 ^ 23 % 2 ^ 17)
  { image := f 0 8, imgLen := f 8 4, entry := f 0xC 4, clmask := f 0x10 8, coreMask := f 0x18 1, spad := f 0x19 1, acc := f 0x1A 1
    skb := f 0x1B 1, pal := f 0x1C 4, args := (List.range 5).map (fun i => f (0x20 + 8 * i) 8), rng := rng, grt := grt
    sig := f 0x60 8, nHbm := nHbm, nHost := nHost, nGrt := nGrt, nSig := f 0x54 1, nWq := f 0x55 1, fl := f 0x56 1
    zero57 := f 0x57 1, wql := (List.range 16).map (fun i => f (0x68 + i) 1), fjob := f 0x78 4, zero7c := f 0x7C 4
    hbm := hbm, host := host, grants := grants, signals := (List.range (f 0x54 1)).map (fun i => (d (f 0x60 8 + 8 * i)).toNat)
    high := reserved.sum }

/-- A reserved field or a limit of R361 broken within the descriptor itself. -/
def Desc.bad (d : Desc) : Bool :=
  d.image % 64 != 0 || d.imgLen == 0 || decide (0x400000 < d.imgLen) || d.entry % 8 != 0 || decide (d.spad * 0x10000 ≤ d.entry) ||
  d.clmask == 0 || decide (2 ^ 48 ≤ d.clmask) || d.coreMask == 0 || decide (0xF < d.coreMask) || d.spad == 0 || decide (64 < d.spad) ||
  decide (12 < d.acc) || decide (64 < d.skb) || d.rng % 16 != 0 || d.nHbm == 0 || decide (8192 < d.nHbm) || decide (16 < d.nHost) ||
  decide (64 < d.nGrt) || decide (64 < d.nSig) || decide (16 < d.nWq) || decide (4 ≤ d.fl) || d.zero57 != 0 || d.grt % 8 != 0 ||
  d.sig % 8 != 0 || d.zero7c != 0 ||
  (List.range 16).any (fun i => let v := d.wql.getD i 0; if i < d.nWq then decide (v < 2) || decide (12 < v) else v != 0)
/-- A reserved field or a limit broken in the lists. -/
def Desc.listsBad (d : Desc) : Bool :=
  d.high != 0 || d.hbm.any (fun r => r.va % 0x200000 != 0 || r.len % 0x200000 != 0) ||
  d.host.any (fun r => r.1 % 4096 != 0 || r.2.1 % 4096 != 0)
def Desc.grant (d : Desc) : Nat := d.spad * 0x10000
def Desc.needz (d : Desc) : Bool := d.fl % 2 == 1
def Desc.skw (d : Desc) : Bool := d.fl / 2 % 2 == 1
/-- The clusters a mask laid out as CLMASK names, ascending (R361). -/
def maskClusters (m : Nat) : List (Nat × Nat) := ((List.range 48).filter (fun b => m / 2 ^ b % 2 == 1)).map (fun b => (b / 12, b % 12))
/-- The named cores in ascending order of die, cluster and core (R363). -/
def Desc.cores (d : Desc) : List CoreId :=
  (maskClusters d.clmask).flatMap (fun k => ((List.range 4).filter (fun c => d.coreMask / 2 ^ c % 2 == 1)).map (fun c => ⟨k.1, k.2, c⟩))
def Desc.dies (d : Desc) : List Nat := ((maskClusters d.clmask).map Prod.fst).eraseDups

/-! ## The image (R439) -/

/-- One step of CRC-32 over a byte: the polynomial of IEEE 802.3, least significant bit first. -/
def crcByte (c : BitVec 32) (b : Byte) : BitVec 32 :=
  (List.range 8).foldl (fun c _ => if c.getLsbD 0 then (c >>> 1) ^^^ 0xEDB88320 else c >>> 1) (c ^^^ b.setWidth 32)
def crc32 (bs : List Byte) : BitVec 32 := ~~~ (bs.foldl crcByte (BitVec.allOnes 32))

/-- A number of n bytes at an offset of an image. -/
abbrev ImageAt := Nat → Nat → Nat
def imageSections (im : ImageAt) : List (Nat × Nat × Nat) :=
  (List.range (im 0x10 2)).map (fun i => let e := im 0x18 4 + 16 * i; (im e 4, im (e + 4) 4, im (e + 8) 4))
def imageBuffers (im : ImageAt) : List Buffer :=
  (List.range (im 0x12 2)).map (fun i =>
    let e := im 0x1C 4 + 16 * i
    { id := im e 1, base := im (e + 4) 4, size := im (e + 8) 4, v := im (e + 1) 1, ver := im (e + 1) 1 - 1, phase := .empty })
def imageSketch (im : ImageAt) (i : Nat) : List Word :=
  let e := im 0x20 4 + 16 * i
  (List.range (im (e + 4) 4 / 8)).map (fun k => BitVec.ofNat 64 (im (im e 4 + 8 * k) 8))
def imageSketches (im : ImageAt) : List (List Word) := (List.range (im 0x14 2)).map (imageSketch im)

/-- Two of the ranges share an address. -/
def rangesOverlap : List (Nat × Nat) → Bool
  | [] => false
  | r :: rest => rest.any (fun q => decide (r.1 < r.2) && decide (q.1 < q.2) && rangesMeet r.1 r.2 q.1 q.2) || rangesOverlap rest
/-- A table of n entries lies within the image; an empty one lies anywhere (DESIGN CHOICE, log 107). -/
def tableIn (off n size len : Nat) : Bool := off % 16 == 0 && (n == 0 || decide (off + n * size ≤ len))
def imageTablesBad (im : ImageAt) (len : Nat) : Bool :=
  im 0 8 != 0x31474D494E41534D || im 8 4 != 1 || im 0xC 4 != len || im 0x10 2 == 0 || decide (64 < im 0x10 2) || decide (256 < im 0x12 2) ||
  decide (64 < im 0x14 2) || im 0x2C 20 != 0 || !tableIn (im 0x18 4) (im 0x10 2) 16 len || !tableIn (im 0x1C 4) (im 0x12 2) 16 len ||
  !tableIn (im 0x20 4) (im 0x14 2) 16 len || !tableIn (im 0x24 4) (im 0x16 2) 64 len
/-- Sections (R439); one of no bytes has its offset anywhere and overlaps nothing (DESIGN CHOICE, log 107). -/
def imageSectionsBad (im : ImageAt) (len grant : Nat) : Bool :=
  (List.range (im 0x10 2)).any (fun i => im (im 0x18 4 + 16 * i + 12) 4 != 0) ||
  (imageSections im).any (fun x => x.1 % 8 != 0 || x.2.2 % 8 != 0 || (x.2.1 != 0 && decide (len < x.2.2 + x.2.1)) || decide (grant < x.1 + x.2.1)) ||
  rangesOverlap ((imageSections im).map (fun x => (x.1, x.1 + x.2.1)))
def imageBuffersBad (im : ImageAt) (grant : Nat) : Bool :=
  let bs := imageBuffers im
  (List.range (im 0x12 2)).any (fun i => im (im 0x1C 4 + 16 * i + 2) 2 != 0 || im (im 0x1C 4 + 16 * i + 12) 4 != 0) ||
  bs.any (fun b => b.v == 0 || decide (8 < b.v) || b.base % 64 != 0 || b.size % 64 != 0 || b.size == 0 || decide (0x400000 < b.size) ||
    decide (grant < b.spanEnd)) ||
  decide ((bs.map (fun b => b.id)).eraseDups.length < bs.length) || rangesOverlap (bs.map (fun b => (b.base, b.spanEnd)))
def imageSketchesBad (im : ImageAt) (len : Nat) : Bool :=
  (List.range (im 0x14 2)).any (fun i =>
    let e := im 0x20 4 + 16 * i
    let n := im (e + 4) 4
    im (e + 8) 8 != 0 || im e 4 % 16 != 0 || decide (len < im e 4 + n) || n != 16 + 16 * skCount (imageSketch im i) || skBad (imageSketch im i))
/-- The image is malformed. -/
def imageBad (im : ImageAt) (bytes : List Byte) (grant : Nat) : Bool :=
  let len := bytes.length
  decide (len < 0x40) || imageTablesBad im len ||
  crc32 (bytes.take 0x28 ++ [0, 0, 0, 0] ++ bytes.drop 0x2C) != BitVec.ofNat 32 (im 0x28 4) ||
  imageSectionsBad im len grant || imageBuffersBad im grant || imageSketchesBad im len

/-! ## The lease (R75, R76, R84) -/

/-- An extent of the map to be made: virtual page, SZ, physical page, and the range it belongs to. Pages are of 2 MiB. -/
structure Extent where
  page : Nat
  sz : Nat
  pab : Nat
  range : HbmRange

/-- A range as naturally aligned extents of at most 1 GiB: page, SZ. -/
def splitExtents : Nat → Nat → Nat → List (Nat × Nat)
  | 0, _, _ => []
  | fuel + 1, p, n =>
    if n = 0 then []
    else
      let k := ((List.range 10).reverse.find? (fun k => p % 2 ^ k = 0 && decide (2 ^ k ≤ n))).getD 0
      (p, k) :: splitExtents fuel (p + 2 ^ k) (n - 2 ^ k)

/-- Physical pages of a die's memory: 48 GiB for each stack present (R73). -/
def State.pagesOf (s : State) (d : Nat) : Nat :=
  if d < s.dies then 24576 * ((List.range 2).filter (fun i => s.modul.caps.stk.getLsbD (2 * d + i))).length else 0
/-- Physical extents of the valid entries of every die: first page, end. -/
def State.mappedPages (s : State) : List (Nat × Nat) :=
  (List.range s.dies).flatMap (fun d => ((s.dieAt d).map0.filter (fun e => bit e.2 63)).map (fun e =>
    let p := bits (cget (s.dieAt d).map1 e.1) 18 0
    (p, p + 2 ^ bits e.2 44 41)))
/-- Places where an extent of 2^sz pages can stand: aligned, in memory that exists, mapped for nobody. -/
def State.freePlaces (s : State) (used : List (Nat × Nat)) (sz : Nat) : List Nat :=
  (List.range s.dies).flatMap (fun d => ((List.range (s.pagesOf d / 2 ^ sz)).map (fun i => d * 2 ^ 17 + i * 2 ^ sz)).filter (fun p =>
    used.all (fun u => !rangesMeet p (p + 2 ^ sz) u.1 u.2)))
/-- Gives every extent a place, which one being free (DESIGN CHOICE, log 12); none when memory does not suffice. -/
def State.allocate (s : State) : List (Nat × Nat × HbmRange) → List (Nat × Nat) → Nat → Option (List Extent)
  | [], _, _ => some []
  | (page, sz, r) :: rest, used, k =>
    let ps := s.freePlaces used sz
    match ps[Config.choice k % ps.length]? with
    | none => none
    | some pab => (s.allocate rest ((pab, pab + 2 ^ sz) :: used) (k + 1)).map (fun es => { page := page, sz := sz, pab := pab, range := r } :: es)
def Desc.extents (d : Desc) : List (Nat × Nat × HbmRange) :=
  d.hbm.flatMap (fun r => (splitExtents (r.len / 0x200000) (r.va / 0x200000) (r.len / 0x200000)).map (fun e => (e.1, e.2, r)))

/-- The host ranges do not share bits 63:48, or one crosses a multiple of 2^48 (R83). -/
def Desc.hostBad (d : Desc) : Bool :=
  d.host.any (fun r => r.1 / 2 ^ 48 != (d.host.head?.map (fun q => q.1)).getD 0 / 2 ^ 48 ||
    (r.2.1 != 0 && (r.1 + r.2.1 - 1) / 2 ^ 48 != r.1 / 2 ^ 48))
/-- Ranges that no set of entries can map as R76 asks. -/
def Desc.rangesBad (d : Desc) : Bool :=
  d.hbm.any (fun r => decide (2 ^ 48 < r.va + r.len) || (r.at_ && !(r.rd && r.wr))) ||
  rangesOverlap (d.hbm.map (fun r => (r.va, r.va + r.len)))

/-- Indices of the map entries of a die that are not valid, lowest first. -/
def Die.freeEntries (k : Die) : List Nat := (List.range 8192).filter (fun i => !bit (cget k.map0 i) 63)
/-- Word 0 of an entry (R75). -/
def Extent.word0 (e : Extent) (ctx : Nat) : Word :=
  BitVec.ofNat 64 (2 ^ 63 + bitOf e.range.rd * 2 ^ 62 + bitOf e.range.wr * 2 ^ 61 + bitOf e.range.at_ * 2 ^ 60 + bitOf e.range.enc * 2 ^ 59 +
    ctx * 2 ^ 52 + (if e.range.enc then ctx else 0) * 2 ^ 45 + e.sz * 2 ^ 41 + e.page)

/-! ## Checks (R362) -/

/-- What firmware comes to: a status code, a wait at admission, or the launch with its context, extents and placements. -/
inductive Admission where
  | fail (status : Nat)
  | wait
  | begin (ctx : Nat) (extents : List Extent) (place : List (CoreId × Nat))

/-- A live job that stands on a core. -/
def State.jobsOn (s : State) (id : CoreId) : List Job := s.modul.jobs.filter (fun j => j.cores.contains id)
/-- A core that runs the cluster scheduler is yielded to time-slicing (R441). -/
def State.shared (s : State) (id : CoreId) : Bool := (s.coreAt id).cr.tvec != 0

/-- The 64 KiB blocks of a core's scratchpad that hold scheduler code: what firmware installed, and the handler's own. -/
def Core.codeBlocks (c : Core) : List Nat := if c.cr.tvec = 0 then c.sched else c.cr.tvec.toNat / 0x10000 :: c.sched
/-- Placements for a grant on a core: multiples of 64 KiB outside the scheduler's code (R383, DESIGN CHOICE, log 12). -/
def State.places (s : State) (id : CoreId) (grant : Nat) : List Nat :=
  ((List.range ((Config.spadBytes - grant) / 0x10000 + 1)).map (fun i => i * 0x10000)).filter (fun pb =>
    (s.coreAt id).codeBlocks.all (fun b => !rangesMeet pb (pb + grant) (b * 0x10000) ((b + 1) * 0x10000)))
/-- Those that overlap no other context's placement on the core. -/
def State.clearPlaces (s : State) (id : CoreId) (grant : Nat) : List Nat :=
  (s.places id grant).filter (fun pb => (s.jobsOn id).all (fun j =>
    !rangesMeet pb (pb + grant) ((assoc j.place id).getD 0) ((assoc j.place id).getD 0 + j.grant)))
def State.choosePlace (s : State) (grant k : Nat) (id : CoreId) : Option Nat :=
  let ps := if (s.clearPlaces id grant).isEmpty then s.places id grant else s.clearPlaces id grant
  ps[Config.choice k % ps.length]?

/-- The palette grant overlaps one of a context placed on another core of the cluster (R442). -/
def State.paletteBusy (s : State) (d : Desc) : Bool :=
  s.modul.jobs.any (fun j => (j.pal &&& BitVec.ofNat 32 d.pal) != 0 &&
    d.cores.any (fun a => j.cores.any (fun b => a.die == b.die && a.clu == b.clu && a.core != b.core)))

/-- The partition of a job on a cluster. -/
def State.partitionOf (s : State) (j : Job) (d c : Nat) : Nat := ((s.ctxAt d c j.ctx).map (fun x => x.partition)).getD 0
/-- Sketch blocks a cluster must hold at once: over its cores, the largest partition placed on each (R254). -/
def State.blocksAsked (s : State) (d : Desc) (jobs : List Job) (k : Nat × Nat) : Nat :=
  ((List.range 4).map (fun c =>
    let id : CoreId := ⟨k.1, k.2, c⟩
    ((jobs.filter (fun j => j.cores.contains id)).map (fun j => s.partitionOf j k.1 k.2)).foldl max
      (if d.cores.contains id then d.skb else 0))).sum

/-- Contexts that no live job holds. -/
def State.freeContexts (s : State) : List Nat := (List.range 128).filter (fun c => s.modul.jobs.all (fun j => j.ctx != c))
/-- Those whose key slot is loaded on every die of the job, where the launch needs a key (R76, R86). -/
def State.usableContexts (s : State) (d : Desc) : List Nat :=
  s.freeContexts.filter (fun c => !d.hbm.any (fun r => r.enc && r.len != 0) || d.dies.all (fun k => cget (s.dieAt k).keys c != 0))

/-- Checks that end a launch at once and do not read the image: codes 1 to 3. -/
def State.earlyChecks (s : State) (d : Desc) : Option Nat :=
  if d.listsBad then some 1
  else if s.freeContexts.isEmpty then some 2
  else if ((maskClusters d.clmask) ++ d.grants.flatMap (fun g => maskClusters g.1)).any (fun k => decide (s.ncl k.1 ≤ k.2)) ||
      (d.needz && !s.modul.caps.zmat) then some 3
  else none

/-- The lease and the placements: code 9, or the launch. -/
def State.leaseCheck (s : State) (d : Desc) : Admission :=
  let cs := s.usableContexts d
  match cs[Config.choice s.modul.free % cs.length]? with
  | none => .fail 9
  | some ctx =>
    if d.rangesBad || d.hostBad || d.dies.any (fun k => decide ((s.dieAt k).freeEntries.length < d.extents.length)) then .fail 9
    else match s.allocate d.extents s.mappedPages (s.modul.free + 1) with
      | none => .fail 9
      | some es => .begin ctx es (d.cores.filterMap (fun id => (s.choosePlace d.grant (s.modul.free + 2) id).map (fun pb => (id, pb))))

/-- The image of a descriptor. -/
def State.imageOf (s : State) (fn : Nat) (d : Desc) : ImageAt := fun off n => s.hostNat fn (d.image + off) n

/-- Checks from code 4 on. -/
def State.lateChecks (s : State) (fn : Nat) (d : Desc) : Admission :=
  let im := s.imageOf fn d
  let bad := imageBad im (s.hostBytes fn d.image d.imgLen) d.grant
  if d.cores.any (fun id => !(s.jobsOn id).isEmpty && !s.shared id) then .wait
  else if d.cores.any (fun id => (s.places id d.grant).isEmpty) then .fail 5
  else if s.paletteBusy d then .wait
  else if s.hostBad fn d.image d.imgLen then .fail 14
  else if (!bad && decide (d.skb < im 0x14 2)) || (maskClusters d.clmask).any (fun k => decide (128 < s.blocksAsked d [] k)) then .fail 8
  else if (maskClusters d.clmask).any (fun k => decide (128 < s.blocksAsked d s.modul.jobs k)) then .wait
  else match s.leaseCheck d with
    | .begin c es pl => if bad then .fail 10 else .begin c es pl
    | r => r

/-- R362 in its order. -/
def State.admission (s : State) (fn : Nat) (p : QPacket) : Admission :=
  if (p.dw 2).toNat % 64 != 0 || (List.range 5).any (fun i => p.dw (3 + i) != 0) then .fail 1
  else if s.hostBad fn (p.dw 2).toNat 128 then .fail 14
  else
    let d := s.descOf fn p
    if d.bad then .fail 1
    else if (decide (0 < d.nHbm + d.nHost) && s.hostBad fn d.rng (16 * (d.nHbm + d.nHost))) || (d.nGrt != 0 && s.hostBad fn d.grt (24 * d.nGrt)) ||
        (d.nSig != 0 && s.hostBad fn d.sig (8 * d.nSig)) then .fail 14
    else match s.earlyChecks d with
      | some c => .fail c
      | none => s.lateChecks fn d

/-! ## Creation (R363) -/

/-- Drops the entries of a range. -/
def cclear {w : Nat} (c : Cells w) (a n : Nat) : Cells w := c.filter (fun p => decide (p.1 < a) || decide (a + n ≤ p.1))

/-- Zero-fill of the extents with ENC = 0 (R79): plain zeros, marks cleared. -/
def zeroFill (m : Modul) (es : List Extent) : Modul :=
  es.foldl (fun m e =>
    if e.range.enc then m
    else
      let a := e.pab * 2 ^ 21
      let n := 2 ^ (21 + e.sz)
      { m with hbm := cclear m.hbm a n, hbmKey := cclear m.hbmKey (a / 64) (n / 64), hbmPoison := cclear m.hbmPoison (a / 64) (n / 64) }) m

/-- The lease of a launch on a die, locked, with its entries. -/
def Die.lock (k : Die) (d : Desc) (ctx : Nat) (es : List Extent) : Die :=
  let l : Lease := { ctx := ctx, locked := true, hostHigh := BitVec.ofNat 16 ((d.host.head?.map (fun r => r.1)).getD 0 / 2 ^ 48), ranges := d.host }
  let free := k.freeEntries
  let put := (List.range es.length).filterMap (fun i => match es[i]?, free[i]? with
    | some e, some n => some (n, e)
    | _, _ => none)
  { k with
    leases := l :: k.leases.filter (fun l => l.ctx ≠ ctx)
    map0 := put.foldl (fun m p => cset m p.1 (p.2.word0 ctx)) k.map0
    map1 := put.foldl (fun m p => cset m p.1 (BitVec.ofNat 64 p.2.pab)) k.map1 }

/-- The flag map of a launch: V = 1, RES = 1, each flag its own (R387). -/
def launchMap : Vector Word 8 :=
  Vector.ofFn (fun w => BitVec.ofNat 64 (((List.range 8).map (fun i => (0xC0 + 8 * w.val + i) * 256 ^ i)).sum))

/-- What a cluster keeps for a new context (R189, R194, R253, R255, R291, R387); `held` are the cores that another job holds. -/
def Desc.ctxCluster (d : Desc) (ctx : Nat) (sketches : List (List Word)) (held : List CoreId) (k : Nat × Nat) : CtxCluster :=
  let mine := d.cores.filter (fun id => id.die = k.1 && id.clu = k.2)
  { ctx := ctx, fjob := BitVec.ofNat 32 d.fjob, palGrant := BitVec.ofNat 32 d.pal
    tileOwner := mine.flatMap (fun id => (List.range d.acc).map (fun i => (12 * id.core + i, id.core)))
    cores := Vector.ofFn (fun c =>
      if mine.any (fun id => id.core = c.val) then { launched := true, fmap := launchMap, first := held.contains ⟨k.1, k.2, c.val⟩ } else {})
    grants := Vector.ofFn (fun j => match d.grants[j.val]? with
      | some g => if g.1 / 2 ^ (12 * k.1 + k.2) % 2 = 1 then g.2 else 0
      | none => 0)
    partition := d.skb
    blocks := (List.range sketches.length).map (fun i => (i, { image := sketches[i]? }))
    bindings := (List.range sketches.length).map (fun i => (i, i)) }

/-- Registers of a core at its start (R363). -/
def Desc.startRegs (d : Desc) (rank n : Nat) : Vector Word 64 :=
  Vector.ofFn (fun i => match i.val with
    | 1 => BitVec.ofNat 64 rank
    | 2 => BitVec.ofNat 64 n
    | 3 => BitVec.ofNat 64 d.grant
    | 62 => BitVec.ofNat 64 d.grant
    | r => if 4 ≤ r ∧ r ≤ 8 then BitVec.ofNat 64 (d.args.getD (r - 4) 0) else 0)

/-- Bytes of the image's sections at their load addresses. -/
def imageBytes (im : ImageAt) : List (Nat × Byte) :=
  (imageSections im).flatMap (fun x => (List.range x.2.1).map (fun i => (x.1 + i, BitVec.ofNat 8 (im (x.2.2 + i) 1))))

/-- A core that starts its program (R363, R441): U mode, TD 0, CV 1, soft registers at reset, S-only registers and the cycle count (R14)
kept; the image's `.buffer` entries are declared as `buf.decl` would, each EMPTY (R70). -/
def Core.launch (c : Core) (d : Desc) (im : ImageAt) (ctx pb rank n : Nat) : Core :=
  { (Core.reset c.id) with
    regs := d.startRegs rank n, pc := BitVec.ofNat 32 d.entry, run := .running
    status := { c.status with mode := false, td := false, cv := true }
    cr := { c.cr with fpctl := 0, fpstat := 0, fpen := 0, cpol := 0xC0C0, tflog := 0, bkey := 0, bseq := 0, epc := 0 }
    cid := BitVec.ofNat 7 ctx, spbase := pb, grant := d.grant, cycStart := c.cycStart, cmpArmed := c.cmpArmed, sched := c.sched
    spad := csetList (cclear c.spad pb d.grant) ((imageBytes im).map (fun p => (pb + p.1, p.2)))
    poison := cclear c.poison (pb / 64) (d.grant / 64)
    bufs := (imageBuffers im).reverse }

/-- The save area of a context that waits for the scheduler to load it (R441): its start as a saved state, of generation 0. -/
def Desc.startArea (d : Desc) (im : ImageAt) (ctx rank n : Nat) (id : CoreId) : SaveArea :=
  { ctx := ctx, core := id, gen := 0, corrupt := false
    soft := { pc := BitVec.ofNat 32 d.entry, regs := d.startRegs rank n, fpctl := 0, fpstat := 0, fpen := 0, cpol := 0xC0C0, tflog := 0
              bkey := 0, bseq := 0, epc := 0, flags := Vector.replicate 64 0 }
    hard := some { vec := {}, streams := Vector.replicate 8 {}, inbox := [], bufs := (imageBuffers im).reverse, builder := none
                   windows := Vector.replicate 16 {}, directDen := false, tasks := []
                   tiles := (List.range d.acc).map (fun i => (12 * id.core + i, {})), slots := []
                   image := some (csetList [] (imageBytes im), []), grant := d.grant }
    ownTiles := (List.range d.acc).map (fun i => 12 * id.core + i) }

/-- The canvas at a launch (R210, R212). -/
def Canvas.launch (v : Canvas) : Canvas := { v.restart with lens := Vector.replicate 5 16, ends := 0 }

/-- The job record of a launch: the save areas of the cores that another job holds, with their tags (R394). -/
def State.newJob (s : State) (fn q : Nat) (p : QPacket) (d : Desc) (ctx : Nat) (place : List (CoreId × Nat)) (held : List CoreId) : Job :=
  let im := s.imageOf fn d
  let key := Config.saveKey s.modul.free
  { ctx := ctx, fjob := BitVec.ofNat 32 d.fjob, fn := fn, queue := q, pkt := p.idx, cores := d.cores, grant := d.grant, acc := d.acc
    pal := BitVec.ofNat 32 d.pal, signals := d.signals
    queues := (List.range d.nWq).map (fun i => { cap := 2 ^ (d.wql.getD i 0 + 4), recs := [] })
    skw := d.skw, place := place
    saves := held.map (fun id => (id, (d.startArea im ctx (d.cores.idxOf id) d.cores.length id).retag key))
    checkpoints := [], ended := [], report := none, killed := false
    jobCount := (s.fnAt fn).settings.jobCount, corrupt := false, sent := []
    gens := held.map (fun id => (id, 0)), saveKey := key }

/-- Creates a job that firmware has admitted (R363), in its order. A core that another job holds gets a save area instead, and the flags of
the context there read zero at its first load (R433; DEDUCED, log 95). -/
def State.createJob (s : State) (fn q : Nat) (p : QPacket) (d : Desc) (ctx : Nat) (es : List Extent) (place : List (CoreId × Nat)) : State :=
  let im := s.imageOf fn d
  let cores := d.cores
  let n := cores.length
  let held := cores.filter (fun id => !(s.jobsOn id).isEmpty)
  let free := cores.filter (fun id => (s.jobsOn id).isEmpty)
  let job := s.newJob fn q p d ctx place held
  let s1 := { s with modul := zeroFill { s.modul with jobs := s.modul.jobs ++ [job], free := s.modul.free + 3 + es.length } es }
  let s2 := d.dies.foldl (fun s k => s.updDie k (fun die => die.lock d ctx es)) s1
  let s3 := d.signals.foldl (fun s a => s.serveSignal fn a) s2
  let s4 := (maskClusters d.clmask).foldl (fun s k =>
    let x := d.ctxCluster ctx (imageSketches im) held k
    let here := free.filter (fun id => id.die = k.1 && id.clu = k.2)
    let slots := (List.range 32).filter (fun i => x.palGrant.getLsbD i)
    s.updCluster k.1 k.2 (fun c =>
      if here.isEmpty then { c with ctxs := c.ctxs ++ [{ x with freeSlots := slots.map (fun i => (i, {})) }], canvas := c.canvas.launch }
      else
        let tiles := here.flatMap (fun id => (List.range d.acc).map (fun i => (12 * id.core + i, ({} : AccTile))))
        let c1 := (c.setSlots (slots.map (fun i => (i, {})))).setTiles tiles
        { c1 with ctxs := c1.ctxs ++ [x], canvas := c1.canvas.launch })) s3
  let back := s.core.id
  let s5 := free.foldl (fun s id =>
    s.updCore id (fun c => c.launch d im ctx ((assoc place id).getD 0) (cores.idxOf id) n)) s4
  let s6 := (maskClusters d.clmask).foldl (fun s k =>
    ((imageSketches im).zipIdx).foldl (fun s b => s.makeResident ctx b.2 { image := some b.1 }) (s.actAs ⟨k.1, k.2, 0⟩)) s5
  s6.actAs back

end Sys2Proof.Machine
end

