-- ==== Sys2Proof/Machine/HostQueues.lean ====
section
/-! DEFINITION. User queues (R350–R357), packets (R358–R360), feeding and copying (R359, R366), the end of a job (R365), and
the mapper (R368). -/

namespace Sys2Proof.Machine

/-! ## Queues -/

/-- N, the packets a ring holds (R353). -/
def Queue.size (k : Queue) : Nat := 2 ^ k.ln
/-- V of packet i is current (R353). -/
def Queue.current (k : Queue) (w : Word) : Bool := bitOf (bit w 0) == 1 - (k.ridx.toNat / k.size) % 2
/-- A packet of the queue is in progress (R357). -/
def Queue.busy (k : Queue) : Bool := k.pkts.any (fun p => p.started)
/-- Pending (R368): RUNNING with packets to fetch, or fetched ones to start (DEDUCED, log 93), or a packet is in progress. -/
def Queue.pending (k : Queue) : Bool := (k.state == .running && (k.flimit != k.ridx || !k.pkts.isEmpty)) || k.busy
/-- The oldest packet that has not started. -/
def Queue.nextUp (k : Queue) : Option QPacket := k.pkts.find? (fun p => !p.started)
/-- The function has a queue q (R350). -/
def State.hasQueue (s : State) (fn q : Nat) : Bool := s.host.up && decide (fn < 128) && decide (q < (s.fnAt fn).qn)

/-- A job has ended: every core has, or containment killed it (R365). -/
def Job.over (j : Job) : Bool := j.killed || j.cores.all (fun id => j.ended.contains id)
/-- The current job of a queue (R359). -/
def State.currentJob (s : State) (fn q : Nat) : Option Job :=
  (s.modul.jobs.filter (fun j => j.fn = fn && j.queue = q && !j.over)).getLast?

/-- Notify (R354). -/
def Queue.notified (k : Queue) (w : BitVec 32) : Queue :=
  let d := (w - k.ridx).toNat
  let c := (k.flimit - k.ridx).toNat
  if c ≤ d ∧ d ≤ k.size then { k with flimit := w } else k
/-- Setting EN (R357). -/
def Queue.enable (k : Queue) : Queue :=
  match k.state with
  | .disabled => { k with en := true, state := .running, ridx := 0, flimit := 0 }
  | .paused => { k with en := true, state := .running }
  | _ => { k with en := true }
/-- Clearing EN (R357). -/
def Queue.pause (k : Queue) : Queue :=
  match k.state with
  | .running => { k with en := false, state := .paused }
  | _ => { k with en := false }
/-- No packet in progress and no job of the queue alive (R357). -/
def State.resetReady (s : State) (fn q : Nat) : Bool :=
  !(s.queueAt fn q).busy && s.modul.jobs.all (fun j => !(j.fn = fn && j.queue = q))
/-- RESET done (R357): RIDX and ECODE 0, DISABLED with EN 0. Fetched packets that never started are dropped. -/
def State.resetDone (s : State) (fn q : Nat) : State :=
  ((s.updQueue fn q (fun k => { k with state := .disabled, en := false, ridx := 0, flimit := 0, ecode := 0, epkt := 0, pkts := [],
                                       resetting := false })).writeStatus fn q).releaseSignals
/-- RESET asked for, or waited for: it acts when the queue's work has ended. -/
def State.reset_ (s : State) (fn q : Nat) : State :=
  if s.resetReady fn q then s.resetDone fn q else s.updQueue fn q (fun k => { k with resetting := true })

/-- A write of doubleword i of a queue's configuration (R356): RING, STAT and LN only while DISABLED. -/
def State.writeConfig (s : State) (fn q i : Nat) (v : Word) : State :=
  let k := s.queueAt fn q
  let idle := k.state == .disabled
  match i with
  | 0 => if idle then s.updQueue fn q (fun k => { k with ring := v }) else s
  | 1 => if idle then s.updQueue fn q (fun k => { k with stat := v }) else s
  | 2 =>
    let ln := bits v 4 0
    let s1 := s.updQueue fn q (fun k => { k with pri := BitVec.ofNat 2 (bits v 9 8), ln := if idle && decide (4 ≤ ln) && decide (ln ≤ 16) then ln else k.ln })
    if bit v 17 then s1.reset_ fn q
    else if (s.fnAt fn).disabled then s1
    else s1.updQueue fn q (fun k => if bit v 16 then k.enable else k.pause)
  | _ => s

/-- A write of `MBX_CTL` (R351): VBASE and CTX as written, ERR cleared by a one. -/
def Function.writeMbx (f : Function) (v : Word) : Function :=
  { f with mbx := BitVec.ofNat 64 (bits v 47 26 * 2 ^ 26 + bitOf (bit f.mbx 8 && !bit v 8) * 256 + bits v 6 0) }

/-- A write of 64 bits at a BAR0 offset (R350). -/
def State.writeBar0 (s : State) (fn off : Nat) (v : Word) : State :=
  if off % 8 ≠ 0 then s
  else if off < 0x2000 then (if s.hasQueue fn (off / 8) then s.updQueue fn (off / 8) (fun k => k.notified (v.setWidth 32)) else s)
  else if off = 0x2000 then s.updFn fn (fun f => f.writeMbx v)
  else if 0x8000 ≤ off ∧ s.hasQueue fn ((off - 0x8000) / 32) then s.writeConfig fn ((off - 0x8000) / 32) (off % 32 / 8) v
  else s

/-- Doubleword i of a queue's configuration as read (R356): RESET and reserved fields read zero (R6). -/
def Queue.config (k : Queue) (i : Nat) : Word :=
  match i with
  | 0 => k.ring
  | 1 => k.stat
  | 2 => BitVec.ofNat 64 (bitOf k.en * 2 ^ 16 + k.pri.toNat * 2 ^ 8 + k.ln)
  | _ => 0
/-- A read of 64 bits at a BAR0 offset (R350, R351, R356): zero wherever nothing is listed. What a notify register reads is not stated: a
free value (DESIGN CHOICE, log 91). -/
def State.bar0 (s : State) (fn off : Nat) : Word :=
  if off % 8 ≠ 0 then 0
  else if off < 0x2000 then (if s.hasQueue fn (off / 8) then s.fresh else 0)
  else if off = 0x2000 then (s.fnAt fn).mbx
  else if 0x8000 ≤ off ∧ s.hasQueue fn ((off - 0x8000) / 32) then (s.queueAt fn ((off - 0x8000) / 32)).config (off % 32 / 8)
  else 0

/-- A host access reaches the port of a function (R349). -/
def State.portOpen (s : State) (fn : Nat) : Bool := s.host.up && decide (fn < 128)

/-- NOTIFY (R354). -/
def execNotify (fn q : Nat) (w : Word) (s : State) : Out :=
  if s.portOpen fn then .next (if s.hasQueue fn q then s.updQueue fn q (fun k => k.notified (w.setWidth 32)) else s) else absent "NOTIFY"
/-- MBX_CTL (R351). -/
def execMbxCtl (fn : Nat) (v : Word) (s : State) : Out :=
  if s.portOpen fn then .next (s.updFn fn (fun f => f.writeMbx v)) else absent "MBX_CTL"
/-- QUEUE_ENABLE (R357). A function that containment disabled keeps its queues as they are. -/
def execQueueEnable (fn q : Nat) (s : State) : Out :=
  if s.portOpen fn then
    .next (if s.hasQueue fn q && !(s.fnAt fn).disabled then s.updQueue fn q Queue.enable else s)
  else absent "QUEUE_ENABLE"
/-- QUEUE_PAUSE (R357). -/
def execQueuePause (fn q : Nat) (s : State) : Out :=
  if s.portOpen fn then .next (if s.hasQueue fn q then s.updQueue fn q Queue.pause else s) else absent "QUEUE_PAUSE"
/-- QUEUE_RESET (R357): the request, and its end once the queue's work has ended. -/
def execQueueReset (fn q : Nat) (s : State) : Out :=
  if s.portOpen fn then .next (if s.hasQueue fn q then s.reset_ fn q else s) else absent "QUEUE_RESET"
/-- REGISTER_WRITE (R350, R356). -/
def execRegisterWrite (fn off : Nat) (v : Word) (s : State) : Out :=
  if s.portOpen fn then .next (s.writeBar0 fn off v) else absent "REGISTER_WRITE"
/-- SET_QN (R350): a count that the limits forbid is not set. -/
def execSetQn (fn n : Nat) (s : State) : Out :=
  let others := ((s.host.functions.filter (fun f => f.fn ≠ fn)).map (fun f => f.qn)).sum
  if fn < 128 ∧ n ≤ 256 ∧ others + n ≤ 1024 then .next (s.updFn fn (fun f => { f with qn := n })) else .next s

/-! ## Fetching (R353–R355) -/

/-- The queue stands in a slot and may fetch and start packets (R357, R368). -/
def State.slotted (s : State) (fn q : Nat) : Bool :=
  s.host.up && s.host.slots.contains (fn, q) && (s.queueAt fn q).state == .running && !(s.queueAt fn q).resetting && !(s.fnAt fn).disabled
/-- IOVA of the ring slot of the packet at the read index. -/
def Queue.slotAt (k : Queue) : Nat := k.ring.toNat + 64 * (k.ridx.toNat % k.size)
/-- The fetcher has a packet to read; whether it can take it: V is current, or the read met an error. -/
def State.fetchable (s : State) (fn q : Nat) : Option Bool :=
  let k := s.queueAt fn q
  if s.slotted fn q && k.flimit != k.ridx then some (s.hostBad fn k.slotAt 64 || k.current (s.hostD fn k.slotAt)) else none

/-- PACKET_FETCH (R354, R355). -/
def execPacketFetch (fn q : Nat) (s : State) : Out :=
  match s.fetchable fn q with
  | some true =>
    let k := s.queueAt fn q
    let bad := s.hostBad fn k.slotAt 64
    let p : QPacket := { idx := k.ridx.toNat, bad := bad, dws := if bad then List.replicate 8 0 else (List.range 8).map (fun i => s.hostD fn (k.slotAt + 8 * i)) }
    let s1 := (s.hostReadDone fn k.slotAt 64).updQueue fn q (fun k => { k with ridx := k.ridx + 1, pkts := k.pkts ++ [p] })
    .next (p.names.foldl (fun s a => s.serveSignal fn a) (s1.writeStatus fn q))
  | _ => absent "PACKET_FETCH"
/-- PACKET_REFETCH (R354): V is not current; the packet is neither consumed nor skipped. -/
def execPacketRefetch (fn q : Nat) (s : State) : Out :=
  match s.fetchable fn q with
  | some false => .next s
  | _ => absent "PACKET_REFETCH"

/-! ## Starting packets (R359, R368) -/

def QPacket.type (p : QPacket) : Nat := bits (p.dw 0) 3 1
/-- A reserved field or a limit of R358 and R359 broken. -/
def QPacket.malformed (p : QPacket) : Bool :=
  bits (p.dw 0) 63 27 != 0 || bits (p.dw 0) 15 6 != 0 ||
  (match p.type with
   | 0 => false
   | 1 => bits (p.dw 2) 15 4 != 0 || bits (p.dw 2) 63 32 != 0 || bits (p.dw 2) 31 16 == 0 || decide (4096 < bits (p.dw 2) 31 16) ||
     (p.dw 3).toNat % 16 != 0 || [4, 5, 6, 7].any (fun i => p.dw i != 0)
   | 2 => [4, 5, 6, 7].any (fun i => p.dw i != 0)
   | 3 => p.dw 7 != 0
   | 4 => bits (p.dw 2) 63 1 != 0 || p.dw 5 == 0 || decide (2 ^ 32 < (p.dw 5).toNat) || [6, 7].any (fun i => p.dw i != 0)
   | _ => true)
/-- Why a packet fails before its own checks: 14 for a fetch that met an error, 1 for a malformed one (R362). -/
def QPacket.early (p : QPacket) : Option Nat := if p.bad then some 14 else if p.malformed then some 1 else none
/-- Firmware's answer to a LAUNCH packet. -/
def State.launchAnswer (s : State) (fn : Nat) (p : QPacket) : Admission := match p.early with
  | some c => .fail c
  | none => s.admission fn p
def Admission.waits : Admission → Bool
  | .wait => true
  | _ => false
/-- The next packet of a queue can start: BAR asks that every earlier one has completed, a LAUNCH that it does not wait. -/
def State.canStart (s : State) (fn q : Nat) (p : QPacket) : Bool :=
  let k := s.queueAt fn q
  s.slotted fn q && (!bit (p.dw 0) 4 || (k.pkts.head?.map (fun x => x.idx)) == some p.idx) && !(p.type == 0 && (s.launchAnswer fn p).waits)
/-- The packet a queue can start now. -/
def State.startable (s : State) (f : Nat × Nat) : Option QPacket := (s.queueAt f.1 f.2).nextUp.filter (s.canStart f.1 f.2)
/-- The packet that may start: its queue has the highest priority among those that can start one, and is the first of them in
turn (R368). -/
def State.mayStart (s : State) (fn q idx : Nat) : Option QPacket :=
  let pri := fun (f : Nat × Nat) => (s.queueAt f.1 f.2).pri.toNat
  let first := s.host.slots.foldl (fun (b : Option (Nat × Nat)) f =>
    if (s.startable f).isNone then b
    else match b with
      | none => some f
      | some g => if pri g < pri f then some f else some g) none
  if first = some (fn, q) then (s.startable (fn, q)).filter (fun p => p.idx = idx) else none

def Queue.updPkt (k : Queue) (idx : Nat) (f : QPacket → QPacket) : Queue := { k with pkts := mapWhere (fun p => p.idx = idx) f k.pkts }
/-- A packet starts; its queue is now the last in turn. -/
def State.startPkt (s : State) (fn q idx : Nat) (f : QPacket → QPacket) : State :=
  let s1 := s.updQueue fn q (fun k => k.updPkt idx (fun p => { f p with started := true }))
  { s1 with host := { s1.host with slots := s1.host.slots.erase (fn, q) ++ [(fn, q)] } }
/-- A packet that fails at its start. -/
def State.failStart (s : State) (fn q : Nat) (p : QPacket) (status : Nat) : State := (s.startPkt fn q p.idx id).failPacket fn q p status 0
/-- A packet in progress. -/
def State.running (s : State) (fn q idx : Nat) : Option QPacket := (s.queueAt fn q).pkts.find? (fun p => p.idx = idx && p.started)

/-- The reads of a launch are over: marks on them were those of these reads (R85). -/
def State.launchReadDone (s : State) (fn : Nat) (p : QPacket) : State :=
  let d := s.descOf fn p
  if p.early.isSome then s else [((p.dw 2).toNat, 128), (d.rng, 16 * (d.nHbm + d.nHost)), (d.grt, 24 * d.nGrt), (d.sig, 8 * d.nSig), (d.image, d.imgLen)].foldl
    (fun s r => if r.2 = 0 then s else s.hostReadDone fn r.1 r.2) s
/-- LAUNCH (R362, R363). While it waits at admission it does not start. -/
def execLaunch (fn q idx : Nat) (s : State) : Out :=
  match (s.mayStart fn q idx).filter (fun p => p.type = 0) with
  | none => absent "LAUNCH"
  | some p =>
    match s.launchAnswer fn p with
    | .wait => absent "LAUNCH"
    | .fail c => .next ((s.launchReadDone fn p).failStart fn q p c)
    | .begin ctx es pl =>
      let d := s.descOf fn p
      let s1 := (s.startPkt fn q idx id).createJob fn q p d ctx es pl
      .next s1

/-- The job a packet in progress serves, while it has not ended. -/
def State.servedJob (s : State) (p : QPacket) : Option Job := (p.job.bind s.jobOf).filter (fun j => !j.over)
/-- The work queue of a FEED has room. -/
def Job.roomIn (j : Job) (n : Nat) : Bool := (j.queues[n]?).any (fun w => decide (w.recs.length < w.cap))
/-- Appends a record. -/
def Job.pushQueue (j : Job) (n : Nat) (r : BitVec 128) : Job :=
  { j with queues := j.queues.modify n (fun w => { w with recs := w.recs ++ [r] }) }
def QPacket.count (p : QPacket) : Nat := bits (p.dw 2) 31 16
def QPacket.wq (p : QPacket) : Nat := bits (p.dw 2) 3 0

/-- FEED at its start: the job, then the work queue's number (R359). -/
def State.startFeed (s : State) (fn q : Nat) (p : QPacket) : State :=
  match p.early, s.currentJob fn q with
  | some c, _ => s.failStart fn q p c
  | none, none => s.failStart fn q p 13
  | none, some j => if j.queues.length ≤ p.wq then s.failStart fn q p 1 else s.startPkt fn q p.idx (fun p => { p with job := some j.ctx })
/-- FEED in progress: one record more (R366); a job that has ended fails it with 13, a record that cannot be read with 14. -/
def State.feedOne (s : State) (fn q : Nat) (p : QPacket) : Option State :=
  let a := (p.dw 3).toNat + 16 * p.done
  match s.servedJob p with
  | none => some (s.failPacket fn q p 13 0)
  | some j =>
    if p.count ≤ p.done || !j.roomIn p.wq then none
    else if s.hostBad fn a 16 then some ((s.hostReadDone fn a 16).failPacket fn q p 14 0)
    else
      let s1 := s.updJob j.ctx (fun j => j.pushQueue p.wq (BitVec.ofNat 128 (s.hostNat fn a 16)))
      some (s1.updQueue fn q (fun k => k.updPkt p.idx (fun p => { p with done := p.done + 1 })))
/-- FEED (R359, R366). -/
def execFeed (fn q idx : Nat) (s : State) : Out :=
  match (s.mayStart fn q idx).filter (fun p => p.type = 1) with
  | some p => .next (s.startFeed fn q p)
  | none =>
    match ((s.running fn q idx).filter (fun p => p.type = 1 && decide (p.done < p.count))).bind (s.feedOne fn q) with
    | some t => .next t
    | none => absent "FEED"

/-- SIGNAL (R359): the amount goes to the command processor. -/
def execSignal (fn q idx : Nat) (s : State) : Out :=
  match (s.mayStart fn q idx).filter (fun p => p.type = 2) with
  | none => absent "SIGNAL"
  | some p =>
    match p.early with
    | some c => .next (s.failStart fn q p c)
    | none =>
      let s1 := s.startPkt fn q idx id
      .next { s1 with host := { s1.host with subs := s1.host.subs ++ [{ fn := fn, iova := (p.dw 2).toNat, amount := p.dw 3, ctx := none }] } }

/-- BARRIER_AND (R359): it starts at once. -/
def execBarrierAnd (fn q idx : Nat) (s : State) : Out :=
  match (s.mayStart fn q idx).filter (fun p => p.type = 3) with
  | none => absent "BARRIER_AND"
  | some p =>
    match p.early with
    | some c => .next (s.failStart fn q p c)
    | none => .next (s.startPkt fn q idx id)
/-- Every signal a BARRIER_AND names reads zero. -/
def State.barrierMet (s : State) (fn : Nat) (p : QPacket) : Bool :=
  [2, 3, 4, 5, 6].all (fun i => p.dw i == 0 || s.signalValue fn (p.dw i).toNat == 0)

/-! ## COPY (R359) -/

/-- The core in whose cluster the copy engine of a COPY packet stands (R359; DESIGN CHOICE, log 11). -/
def Job.copyCore (j : Job) : CoreId := j.cores.headD ⟨0, 0, 0⟩
/-- The ranges of a COPY lie in the job's lease with the permissions its direction asks for (R80). -/
def State.copyCovered (s : State) (j : Job) (p : QPacket) : Bool :=
  let die := s.dieAt j.copyCore.die
  let up := bit (p.dw 2) 0
  let n := (p.dw 5).toNat
  let h := (p.dw 3).toNat
  let va := (p.dw 4).toNat
  let high := ((leaseOf die j.ctx).map (fun l => l.hostHigh.toNat)).getD 0
  hbmCovers die j.ctx up (!up) va (va + n - 1) && h / 2 ^ 48 == high && hostCovers die j.ctx (!up) up (h % 2 ^ 48 : Nat) ((h % 2 ^ 48 + n - 1 : Nat))
/-- COPY at its start. -/
def State.startCopy (s : State) (fn q : Nat) (p : QPacket) : State :=
  match p.early, s.currentJob fn q with
  | some c, _ => s.failStart fn q p c
  | none, none => s.failStart fn q p 13
  | none, some j => if s.copyCovered j p then s.startPkt fn q p.idx (fun p => { p with job := some j.ctx }) else s.failStart fn q p 11
/-- The class of a COPY packet's HBM accesses to another die (R74; DESIGN CHOICE, log 11). -/
def copyClass : BitVec 4 := 0
/-- Sends an HBM packet of COPY packet idx to another die (R74, R278): it is outstanding until its answer. -/
def State.sendCopy (s : State) (fn q idx : Nat) (j : Job) (b : Nat × PktBody) : State :=
  let id := j.copyCore
  let uid := s.modul.nextUid
  let p : Packet := { uid := uid, src := s.dieNumber id.die, dst := s.dieNumber b.1, fjob := j.fjob, clu := 0, core := 0, cls := copyClass, seq := 0
                      body := b.2, from_ := { core := id, ctx := j.ctx, window := none, task := none, pkt := some (fn, q, idx) } }
  let s1 := ({ s with modul := { s.modul with nextUid := uid + 1 } }).updJob j.ctx (fun j =>
    if j.sent.contains (id.die, p.dst) then j else { j with sent := (id.die, p.dst) :: j.sent })
  (s1.inject id.die p).updQueue fn q (fun k => k.updPkt idx (fun p => { p with hbmOpen := p.hbmOpen ++ [uid] }))
/-- Sends HBM packets of a COPY while their pairs have room (R279); what is left waits. -/
def State.sendCopies (s : State) (fn q idx : Nat) (j : Job) (bs : List (Nat × PktBody)) : State × List (Nat × PktBody) :=
  bs.foldl (fun x b => if (x.1.dieAt j.copyCore.die).pairRoom (x.1.dieNumber b.1) copyClass then (x.1.sendCopy fn q idx j b, x.2) else (x.1, x.2 ++ [b])) (s, [])
/-- No HBM packet of the COPY waits for room or for its answer. -/
def QPacket.hbmIdle (p : QPacket) : Bool := p.hbmOpen.isEmpty && p.hbmQueue.isEmpty
/-- A byte of HBM as a COPY reads it, with its unit's mark: at the controller, or from the unit another die has sent. -/
def State.copyByte (s : State) (p : QPacket) (j : Job) (va : Nat) : Byte × Bool :=
  match s.farAt j.copyCore.die j.ctx va with
  | none => hbmRead s.modul (s.dieAt j.copyCore.die) j.ctx va
  | some u =>
    let v := (assoc p.hbmUnits u.2.1).getD (0, false)
    (BitVec.ofNat 8 (v.1.toNat / 256 ^ (va % 64)), v.2)
/-- The packets that ask for the units of other dies that a range of a COPY needs and has not read. -/
def State.copyNeeds (s : State) (p : QPacket) (j : Job) (va n : Nat) : List (Nat × PktBody) :=
  (((List.range n).filterMap (fun i => (s.farAt j.copyCore.die j.ctx (va + i)).filter (fun u => (assoc p.hbmUnits u.2.1).isNone))).eraseDups).map (fun u =>
    (u.1, PktBody.hbmRead u.2.1 u.2.2))
/-- The packets of a COPY's writes to other dies: one for each unit; `bad` are the addresses of bytes from a poisoned source. -/
def State.copyPackets (s : State) (j : Job) (ws : List (Nat × Byte)) (bad : Nat → Bool) : List (Nat × PktBody) :=
  let far := ws.filterMap (fun b => (s.farAt j.copyCore.die j.ctx b.1).map (fun u => (u, b.1, b.2)))
  ((far.map Prod.fst).eraseDups).map (fun u =>
    let here := far.filter (fun x => x.1 = u)
    (u.1, PktBody.hbmWrite u.2.1 u.2.2 (here.map (fun x => (64 * u.2.1 + x.2.1 % 64, x.2.2))) (here.any (fun x => bad x.2.1))))
/-- A chunk of n bytes has moved: its packets to other dies leave, the units it read are given up. -/
def State.copyMoved (s : State) (fn q : Nat) (p : QPacket) (j : Job) (n : Nat) (bs : List (Nat × PktBody)) : State :=
  let r := s.sendCopies fn q p.idx j bs
  r.1.updQueue fn q (fun k => k.updPkt p.idx (fun p => { p with done := p.done + n, hbmUnits := [], hbmQueue := r.2 }))
/-- One 4 KiB chunk of a COPY; poison and EP travel with the bytes (R85, R90). From the device it first asks the other dies for their
units (R74). A killed job fails it with 13. -/
def State.copyChunkOf (s : State) (fn q : Nat) (p : QPacket) : Option State :=
  let n := min 4096 ((p.dw 5).toNat - p.done)
  let h := (p.dw 3).toNat + p.done
  let va := (p.dw 4).toNat + p.done
  if n = 0 && p.hbmQueue.isEmpty then none
  else match (p.job.bind s.jobOf).filter (fun j => !j.killed) with
    | none => some (s.failPacket fn q p 13 0)
    | some j =>
      let die := s.dieAt j.copyCore.die
      if !p.hbmOpen.isEmpty then none
      else if !p.hbmQueue.isEmpty then
        let r := s.sendCopies fn q p.idx j p.hbmQueue
        if r.2 = p.hbmQueue then none else some (r.1.updQueue fn q (fun k => k.updPkt p.idx (fun p => { p with hbmQueue := r.2 })))
      else if bit (p.dw 2) 0 then
        let need := s.copyNeeds p j va n
        if need.isEmpty then
          let bs := (List.range n).map (fun i => s.copyByte p j (va + i))
          some ((s.toPort { uid := 0, fn := fn, bytes := (bs.zipIdx).map (fun b => (h + b.2, b.1.1)), ctx := some j.ctx
                            bad := ((bs.zipIdx).filter (fun b => b.1.2)).map (fun b => h + b.2), die := some j.copyCore.die, pkt := some (fn, q, p.idx) }).copyMoved fn q p j n [])
        else
          let r := s.sendCopies fn q p.idx j need
          if r.2 = need then none else some r.1
      else
        let ws := (List.range n).map (fun i => (va + i, s.hostByte fn (h + i)))
        let bad := fun (a : Nat) => s.hostBad fn (h + (a - va)) 1
        let near := ws.filter (fun b => (s.farAt j.copyCore.die j.ctx b.1).isNone)
        let s1 := { s with modul := hbmWrite s.modul die j.ctx near bad }.hostReadDone fn h n
        some (s1.copyMoved fn q p j n (s.copyPackets j ws bad))
/-- COPY (R359). -/
def execCopy (fn q idx : Nat) (s : State) : Out :=
  match (s.mayStart fn q idx).filter (fun p => p.type = 4) with
  | some p => .next (s.startCopy fn q p)
  | none =>
    match ((s.running fn q idx).filter (fun p => p.type = 4)).bind (s.copyChunkOf fn q) with
    | some t => .next t
    | none => absent "COPY"

/-! ## Ends of packets (R360, R364) -/

/-- Every host write of a context has been sent by the host port (R343, R365). -/
def State.hostDrained (s : State) (ctx : Nat) : Bool := s.host.posted.all (fun w => w.ctx != some ctx)
/-- A packet in progress that has nothing left to do. A LAUNCH completes at the end of its job, a COPY when its bytes are there, one from the
device after a host-scope fence over its own writes (R359). -/
def State.pktDone (s : State) (fn q : Nat) (p : QPacket) : Bool :=
  match p.type with
  | 1 => decide (p.count ≤ p.done)
  | 2 => true
  | 3 => s.barrierMet fn p
  | 4 => decide ((p.dw 5).toNat ≤ p.done) && p.hbmIdle && (!bit (p.dw 2) 0 || s.host.posted.all (fun w => w.pkt != some (fn, q, p.idx)))
  | _ => false
/-- PACKET_COMPLETE (R360). A packet of a reserved type, or one whose fetch met an error, ends here too. A SIGNAL's own
subtraction comes before that of its completion, as they arrived (R364). -/
def execPacketComplete (fn q idx : Nat) (s : State) : Out :=
  match (s.running fn q idx).filter (s.pktDone fn q) with
  | some p => .next ((s.signalPacket fn q p 0 0).dropPacket fn q idx)
  | none =>
    match (s.mayStart fn q idx).filter (fun p => p.bad || decide (4 < p.type)) with
    | some p => .next (s.failStart fn q p (p.early.getD 1))
    | none => absent "PACKET_COMPLETE"

/-- SIGNAL_SUBTRACT (R364): the oldest subtraction is applied. -/
def execSignalSubtract (s : State) : Out :=
  match s.host.subs with
  | [] => absent "SIGNAL_SUBTRACT"
  | b :: rest => .next (({ s with host := { s.host with subs := rest } }).subtract b.fn b.iova b.amount).releaseSignals

/-! ## The end of a job (R365, R79, R86) -/

/-- Tasks of a context that are pending anywhere: in an Atelier, restored, or in a save. -/
def State.ctxTasks (s : State) (ctx : Nat) : Bool :=
  s.clusterIds.any (fun k => (s.clusterAt k.1 k.2).tasks.any (fun t => t.ctx = ctx) ||
    ((s.ctxAt k.1 k.2 ctx).map (fun x => !x.remoteSaved.isEmpty)).getD false) ||
  s.coreIds.any (fun id => (s.coreAt id).restored.any (fun t => t.ctx = ctx)) ||
  (s.jobOf ctx).any (fun j => j.saves.any (fun p => match p.2.hard with
    | some h => !h.tasks.isEmpty
    | none => false))
/-- Packets of a context that wait for an answer, and CANCELs that wait for room (R301); a message that waits to be sent again goes on after
the job (R287). -/
def State.ctxPackets (s : State) (ctx : Nat) : Bool :=
  (List.range s.dies).any (fun d => (s.dieAt d).cancels.any (fun p => p.from_.ctx = ctx) ||
    (s.dieAt d).unacked.any (fun p => p.from_.ctx = ctx && !(s.dieAt d).retried.contains (p.uid, true)))
/-- A FEED that has appended every record to a work queue of the job and has not completed (R359, R430). -/
def State.ctxFed (s : State) (ctx : Nat) : Bool :=
  s.host.functions.any (fun f => f.queues.any (fun k => k.pkts.any (fun p => p.job = some ctx && p.type = 1 && p.started && decide (p.count ≤ p.done))))
/-- COPY packets that still serve the job. -/
def State.ctxCopies (s : State) (ctx : Nat) : Bool :=
  s.host.functions.any (fun f => f.queues.any (fun k => k.pkts.any (fun p => p.job = some ctx && p.type = 4)))

/-- The fence's conditions (R365, R429, R430). -/
def State.fenceDone (s : State) (j : Job) : Bool :=
  j.over && !s.ctxTasks j.ctx && !s.ctxPackets j.ctx && s.hostDrained j.ctx && s.host.subs.all (fun b => b.ctx != some j.ctx) && !s.ctxFed j.ctx && (j.killed || !s.ctxCopies j.ctx)

/-- An entry of the die's map names a key slot (R75, R86). -/
def Die.namesSlot (k : Die) (slot : Nat) : Bool := k.map0.any (fun e => bit e.2 63 && bit e.2 59 && bits e.2 51 45 == slot)
/-- The number of no context: a packet that outlives its job belongs to none (R287). -/
def noContext : Nat := 128
/-- Release of a lease on a die (R79): its entries are invalid. A packet of the job that waits to be sent again stays with its source die. -/
def Die.releaseLease (k : Die) (ctx : Nat) : Die :=
  let mine := k.map0.filter (fun e => bit e.2 63 && bits e.2 58 52 == ctx)
  let m := mine.foldl (fun m e => cset m e.1 (e.2 &&& 0x7FFFFFFFFFFFFFFF)) k.map0
  { k with
    leases := k.leases.filter (fun l => l.ctx ≠ ctx)
    map0 := m
    unacked := mapWhere (fun p => p.from_.ctx = ctx) (fun p => { p with from_ := { p.from_ with ctx := noContext } }) k.unacked }

/-- Release of a context's lease on every die of the module; its key slot is cleared on all of them when that was the last lease to name
it (R86, R88). -/
def State.releaseLeases (s : State) (ctx : Nat) : State :=
  let names := fun (s : State) => (List.range s.dies).any (fun d => (s.dieAt d).namesSlot ctx)
  let s1 := (List.range s.dies).foldl (fun s d => s.updDie d (fun k => k.releaseLease ctx)) s
  if names s && !names s1 then (List.range s.dies).foldl (fun s d => s.updDie d (fun k => { k with keys := cset k.keys ctx 0 })) s1 else s1

/-- A core of a job that is over holds its context no longer; a handler goes on. What the core handed on for other contexts stays (R342). -/
def Core.leave (c0 : Core) (ctx : Nat) : Core :=
  let c := { c0 with escalated := c0.escalated.filter (fun e => e.ctx ≠ ctx), effects := c0.effects.filter (fun e => e.ctx ≠ ctx) }
  if c.holds ctx then
    let c1 := { c.unload with stall := none, issued := none, sketch := none, await := none, restored := [] }
    if c.sMode && c.status.td then c1 else { c1 with run := .none }
  else c

/-- Everything of a job goes (R365): leases, cluster state, cores, the job. -/
def State.removeJob (s : State) (j : Job) : State :=
  let s1 := s.releaseLeases j.ctx
  let s2 := j.clusters.foldl (fun s k => s.updCluster k.1 k.2 (fun c => { c with ctxs := c.ctxs.filter (fun x => x.ctx ≠ j.ctx) })) s1
  let s3 := j.cores.foldl (fun s id => s.updCore id (fun c => c.leave j.ctx)) s2
  { s3 with modul := { s3.modul with jobs := s3.modul.jobs.filter (fun x => x.ctx ≠ j.ctx) } }

/-- A packet that serves a job and has not done all its work. -/
def QPacket.unfinished (p : QPacket) : Bool := match p.type with
  | 1 => decide (p.done < p.count)
  | _ => decide (p.done < (p.dw 5).toNat)
/-- FEED and COPY packets that serve a job that is over fail with NO_JOB (R366). -/
def State.failServed (s : State) (ctx : Nat) : State :=
  let l := s.host.functions.flatMap (fun f => f.queues.flatMap (fun k =>
    (k.pkts.filter (fun p => p.job = some ctx && p.unfinished)).map (fun p => (f.fn, k.q, p))))
  l.foldl (fun s x => s.failPacket x.1 x.2.1 x.2.2 13 0) s

/-- END_OF_JOB_FENCE (R365): the LAUNCH completes or reports its kill, the lease is released, the context returns. -/
def execEndOfJobFence (ctx : Nat) (s : State) : Out :=
  match (s.jobOf ctx).filter s.fenceDone with
  | none => absent "END_OF_JOB_FENCE"
  | some j =>
    let s1 := s.failServed ctx
    let s2 := match (s1.queueAt j.fn j.queue).pkts.find? (fun p => p.idx = j.pkt && p.type = 0) with
      | none => s1
      | some p => match j.report with
        | some (st, cause) => s1.failPacket j.fn j.queue p st (causeCode cause)
        | none => (s1.signalPacket j.fn j.queue p 0 0).dropPacket j.fn j.queue p.idx
    .next (s2.removeJob j).releaseSignals

/-! ## The mapper (R368) -/

/-- A queue waits: its next packet cannot start, or one in progress waits on its signals or on a full work queue. -/
def State.waitingQueue (s : State) (f : Nat × Nat) : Bool :=
  let k := s.queueAt f.1 f.2
  (k.nextUp.any (fun p => !s.canStart f.1 f.2 p)) ||
  k.pkts.any (fun p => p.started && (match p.type with
    | 3 => !s.barrierMet f.1 p
    | 1 => decide (p.done < p.count) && (s.servedJob p).any (fun j => !j.roomIn p.wq)
    | _ => false))
/-- Every pending queue. -/
def State.pendingQueues (s : State) : List (Nat × Nat) :=
  s.host.functions.flatMap (fun f => (f.queues.filter (fun k => k.pending)).map (fun k => (f.fn, k.q)))
/-- When a queue was last in a slot: 0 never, larger later. -/
def HostPort.lastIn (h : HostPort) (f : Nat × Nat) : Nat :=
  if h.slots.contains f then h.slotPast.length + 1 else if h.slotPast.contains f then h.slotPast.idxOf f + 1 else 0
/-- Highest priority first, and among equals the least recently in a slot. -/
def State.slotBefore (s : State) (a b : Nat × Nat) : Bool :=
  let pa := (s.queueAt a.1 a.2).pri.toNat
  let pb := (s.queueAt b.1 b.2).pri.toNat
  decide (pb < pa) || (pa == pb && decide (s.host.lastIn a ≤ s.host.lastIn b))
/-- Puts a queue in its place in an ordered list. -/
def State.insertQueue (s : State) (f : Nat × Nat) : List (Nat × Nat) → List (Nat × Nat)
  | [] => [f]
  | g :: rest => if s.slotBefore g f then g :: s.insertQueue f rest else f :: g :: rest
def State.rankedQueues (s : State) : List (Nat × Nat) := s.pendingQueues.foldl (fun l f => s.insertQueue f l) []
/-- Sets the slots; those that were in one become the most recent. -/
def HostPort.setSlots (h : HostPort) (l : List (Nat × Nat)) : HostPort :=
  { h with slots := l, slotPast := h.slotPast.filter (fun f => !h.slots.contains f) ++ h.slots }

/-- The refill at the end of a quantum. -/
def State.refill (s : State) : State :=
  { s with host := { (s.host.setSlots (s.rankedQueues.take Config.mapperSlots)) with quantumStart := s.sched.now } }
/-- Whether a queue outside the slots would wait in one. -/
def State.waitingOutside (s : State) (f : Nat × Nat) : Bool :=
  ({ s with host := { s.host with slots := s.host.slots ++ [f] } }).waitingQueue f
/-- Within a quantum: a pending queue that does not wait takes a free slot, or that of a queue that waits. -/
def State.replaceSlot (s : State) : Option State :=
  match s.rankedQueues.find? (fun f => !s.host.slots.contains f && !s.waitingOutside f) with
  | none => none
  | some f =>
    if s.host.slots.length < Config.mapperSlots then some { s with host := s.host.setSlots (s.host.slots ++ [f]) }
    else (s.host.slots.find? s.waitingQueue).map (fun g => { s with host := s.host.setSlots (s.host.slots.erase g ++ [f]) })
/-- QUANTUM_EXPIRY (R368): the refill once the quantum has passed, replacements before that. -/
def execQuantumExpiry (s : State) : Out :=
  if !s.host.up then absent "QUANTUM_EXPIRY"
  else if s.host.quantumStart + s.host.quantum ≤ s.sched.now then .next s.refill
  else match s.replaceSlot with
    | some t => .next t
    | none => absent "QUANTUM_EXPIRY"

end Sys2Proof.Machine
end

