-- ==== Sys2Proof/Machine/HostPort.lean ====
section
/-! DEFINITION. The mailbox (R351, R352), host reads that fail (R85), and the settings the PF makes (R368, R379, R380). -/

namespace Sys2Proof.Machine

/-! ## The mailbox -/

/-- The context of the aperture, accepted only while it is one that the function launched (R351). -/
def State.apertureCtx (s : State) (fn : Nat) : Option Nat :=
  let c := bits (s.fnAt fn).mbx 6 0
  if (s.jobOf c).any (fun j => j.fn = fn) then some c else none
/-- The device virtual address of an aperture offset. -/
def State.apertureVa (s : State) (fn off : Nat) : Nat := bits (s.fnAt fn).mbx 47 26 * 2 ^ 26 + off
/-- A die that holds the context's lease; the entries are the same on every die of the job (R78). -/
def State.leaseDie (s : State) (ctx : Nat) : Die :=
  s.dieAt (((List.range s.dies).find? (fun d => (s.dieAt d).leases.any (fun l => l.ctx = ctx && l.locked))).getD 0)
/-- Every byte of an aperture access hits with the permission it needs. -/
def State.apertureHit (s : State) (fn : Nat) (rd wr : Bool) (offs : List Nat) : Option Nat :=
  (s.apertureCtx fn).filter (fun c => offs.all (fun o => decide (o < 0x4000000) &&
    (match hbmLookup (s.leaseDie c) c (s.apertureVa fn o) with
     | some h => (!rd || h.rd) && (!wr || h.wr)
     | none => false)))

/-- MAILBOX_WRITE (R352): bytes at their distances from the offset. A write of no byte takes its place in the order and does
nothing; one that misses is discarded whole and sets ERR. -/
def execMailboxWrite (fn off : Nat) (bytes : List (Nat × Byte)) (s : State) : Out :=
  if !s.portOpen fn then absent "MAILBOX_WRITE"
  else if bytes.isEmpty then .next s
  else match s.apertureHit fn false true (bytes.map (fun b => off + b.1)) with
    | some c =>
      let ws := bytes.map (fun b => (s.apertureVa fn (off + b.1), b.2))
      .next { s with modul := hbmWrite s.modul (s.leaseDie c) c ws (fun _ => false) }
    | none => .next (s.updFn fn (fun f => { f with mbx := f.mbx ||| 0x100 }))

/-- MAILBOX_READ (R352): the completion carries the bytes and EP, or Unsupported Request. -/
def execMailboxRead (fn off len : Nat) (s : State) : Out :=
  if !s.portOpen fn then absent "MAILBOX_READ"
  else
    let offs := (List.range len).map (fun i => off + i)
    let reply := (s.apertureHit fn true false offs).map (fun c =>
      let bs := offs.map (fun o => hbmRead s.modul (s.leaseDie c) c (s.apertureVa fn o))
      (bs.map Prod.fst, bs.any Prod.snd))
    .next { s with host := { s.host with mailboxOut := s.host.mailboxOut ++ [reply] } }

/-! ## Posted writes (R85, R336, R338) -/

/-- The host port sends a write; a task's effect is then performed (R336). -/
def State.sendPosted (s : State) (w : PostedWrite) : State :=
  let s1 := { s with host := s.host.send w }
  match w.core with
  | some id => s1.updCore id (fun c => c.performed [w.uid])
  | none => s1
/-- The port sends one of the writes that may go, which one being open (R334, DESIGN CHOICE, log 2), while the link is up. -/
def State.sendHost (s : State) : State :=
  let ws := s.host.posted.filter s.host.mayGo
  match ws[Config.pick s.sched.tick % ws.length]? with
  | some w => if s.host.up then s.sendPosted w else s
  | none => s

/-! ## Host reads that fail (R85) -/

/-- Marks the units that a host read asks for: its bytes come back poisoned. -/
def State.markHostRead (s : State) (fn iova len : Nat) : State :=
  let a := hostKey fn iova / 64
  let n := (hostKey fn iova + len - 1) / 64 - a + 1
  if len = 0 then s else { s with host := { s.host with readPoison := csetRange s.host.readPoison a n (fun _ => 1) } }

/-- HOST_READ_ERROR_COMPLETION (R85): the three kinds mark alike. -/
def execHostReadErrorCompletion (fn iova len : Nat) (_e : HostReadError) (s : State) : Out :=
  if s.portOpen fn then .next (s.markHostRead fn iova len) else absent "HOST_READ_ERROR_COMPLETION"
/-- COMPLETION_TIMEOUT (R85): marked, and reported through AER; the engine does not wait on. -/
def execCompletionTimeout (fn iova len : Nat) (s : State) : Out :=
  if s.portOpen fn then
    let s1 := s.markHostRead fn iova len
    .next { s1 with host := { s1.host with aer := s1.host.aer ++ [.completionTimeout], timedOut := s1.host.timedOut ++ [(fn, iova, len)] } }
  else absent "COMPLETION_TIMEOUT"
/-- UNEXPECTED_COMPLETION (R85): the completion of a read that has timed out is discarded. -/
def execUnexpectedCompletion (fn iova len : Nat) (s : State) : Out :=
  if s.host.timedOut.contains (fn, iova, len) then
    .next { s with host := { s.host with timedOut := s.host.timedOut.erase (fn, iova, len) } }
  else absent "UNEXPECTED_COMPLETION"

/-! ## Settings (R368, R380, R379) -/

/-- FUNCTION_ENABLE (R379). -/
def execFunctionEnable (fn : Nat) (s : State) : Out := .next (s.updFn fn (fun f => { f with disabled := false }))

/-- The quantum's range, 0.1 ms to 100 ms in cycles of 1.8 GHz (R5, R368). -/
def quantumOk (n : Nat) : Bool := decide (180000 ≤ n) && decide (n ≤ 180000000)
/-- Firmware installs a scheduler on a core it shares (R441): its program, `CR_TVEC`, IE and IM. -/
def Core.install (c : Core) (v : SchedSetup) : Core :=
  { c with
    spad := csetList c.spad (v.program.filter (fun p => decide (p.1 < Config.spadBytes)))
    sched := ((v.program.filter (fun p => decide (p.1 < Config.spadBytes))).map (fun p => p.1 / 0x10000)).eraseDups
    cr := { c.cr with tvec := v.tvec &&& 0xFFFFFFF8 }
    status := { c.status with ie := v.ie, im := v.im } }
/-- The cores of a setting that are in the module and serve no live job (DESIGN CHOICE, log 92). -/
def State.installable (s : State) (v : SchedSetup) : List CoreId := v.cores.filter (fun id => s.coreIds.contains id && (s.jobsOn id).isEmpty)
def State.installOn (s : State) (v : SchedSetup) : State := (s.installable v).foldl (fun s id => s.updCore id (fun c => c.install v)) s
/-- FUNCTION_SETTINGS (R441): the scheduler of a shared core; a quantum outside its range is not taken. -/
def execFunctionSettings (fn : Nat) (v : FnSettings) (s : State) : Out :=
  let s0 := s.updFn fn (fun f => { f with settings := v })
  let s1 := match v.scheduler with
    | some p => s0.installOn p
    | none => s0
  .next (match v.quantum with
    | some n => if quantumOk n then { s1 with host := { s1.host with quantum := n } } else s1
    | none => s1)

end Sys2Proof.Machine
end

