-- ==== Sys2Proof/Machine/Routing.lean ====
section
/-! DEFINITION. Routers and links (R274, R276, R277, R280, R281), the zephyr token and the lee lane (R282–R284), and the
resequencer (R285, R286). Events name the module's die 0–3; a link direction is named by the die and port it comes in at, or, when it
leaves the module, goes out at. -/

namespace Sys2Proof.Machine

/-! ## The torus (R274, R280) -/

/-- The size of the dimension of a port. -/
def State.portSize (s : State) (p : Port) : Nat :=
  let (xn, yn, zn) := s.modul.torus
  match p with
  | .xp => xn | .xm => xn | .yp => yn | .ym => yn | .zp => zn | .zm => zn | .loc => 1
/-- The coordinate of a die number in a port's dimension. -/
def portCoord (p : Port) (n : Nat) : Nat :=
  let (x, y, z) := coords n
  match p with
  | .xp => x | .xm => x | .yp => y | .ym => y | .zp => z | .zm => z | .loc => 0
def portPlus (p : Port) : Bool := p == .xp || p == .yp || p == .zp
/-- The port at the other end of a link. -/
def opposite (p : Port) : Port :=
  match p with
  | .xp => .xm | .xm => .xp | .yp => .ym | .ym => .yp | .zp => .zm | .zm => .zp | .loc => .loc
/-- The die number at the other end. -/
def State.neighbour (s : State) (n : Nat) (p : Port) : Nat :=
  let k := s.portSize p
  let a := portCoord p n
  let b := if portPlus p then (a + 1) % k else (a + k - 1) % k
  let (x, y, z) := coords n
  match p with
  | .xp => b + 16 * y + 256 * z | .xm => b + 16 * y + 256 * z
  | .yp => x + 16 * b + 256 * z | .ym => x + 16 * b + 256 * z
  | .zp => x + 16 * y + 256 * b | .zm => x + 16 * y + 256 * b
  | .loc => n
/-- The links in the order that decides ties (R280). -/
def linkPorts : List Port := [.xp, .xm, .yp, .ym, .zp, .zm]
/-- A productive direction from die number a to b (R280). -/
def State.productive (s : State) (a b : Nat) (p : Port) : Bool :=
  let k := s.portSize p
  let fwd := (portCoord p b + k - portCoord p a) % k
  let back := (portCoord p a + k - portCoord p b) % k
  if portPlus p then decide (0 < fwd ∧ fwd ≤ back) else decide (0 < back ∧ back ≤ fwd)

/-! ## Links (R277) -/

def Die.link (k : Die) (p : Port) : Link := (assoc k.links p).getD {}
def Die.setLink (k : Die) (p : Port) (l : Link) : Die := { k with links := assocSet k.links p l }
/-- A direction at a port: into the die, or out of the module. -/
def Die.dir (k : Die) (p : LinkDir) : Link := if p.out then (assoc k.linksOut p.port).getD {} else k.link p.port
def Die.setDir (k : Die) (p : LinkDir) (l : Link) : Die :=
  if p.out then { k with linksOut := assocSet k.linksOut p.port l } else k.setLink p.port l
/-- The link at a port leaves the module. -/
def State.leaves (s : State) (d : Nat) (p : Port) : Bool := decide (1 < s.portSize p) && (s.dieIndex (s.neighbour (s.dieNumber d) p)).isNone
/-- The direction exists: every port of a die has one into it; the one out of it has another die of the module at its end, or the outside. -/
def State.hasDir (s : State) (d : Nat) (p : LinkDir) : Bool :=
  decide (d < s.dies) && decide (1 < s.portSize p.port) && (!p.out || s.leaves d p.port)
/-- The link through a port is in use by its router. -/
def Die.linkUp (k : Die) (p : Port) : Bool := !(k.link p).down

/-- The port a lee route leaves a die by (R283): X, then Y, then Z, a tie going to +. -/
def State.leePort (s : State) (a b : Nat) : Option Port := [Port.xp, .xm, .yp, .ym, .zp, .zm].find? (s.productive a b)
/-- The links of a lee route. -/
def State.leeRoute (s : State) (b : Nat) : Nat → Nat → List (Nat × Port)
  | 0, _ => []
  | fuel + 1, a => match s.leePort a b with
    | none => []
    | some p => (a, p) :: s.leeRoute b fuel (s.neighbour a p)
/-- Every die number of the torus, ascending (R274, R282). -/
def State.torusDies (s : State) : List Nat :=
  let (xn, yn, zn) := s.modul.torus
  (List.range zn).flatMap (fun z => (List.range yn).flatMap (fun y => (List.range xn).map (fun x => x + 16 * y + 256 * z)))
/-- Some lee route from die number a crosses the link at (n, p) in either direction. -/
def State.leeCrosses (s : State) (a n : Nat) (p : Port) : Bool :=
  let m := s.neighbour n p
  s.torusDies.any (fun b => (s.leeRoute b 48 a).any (fun h => h = (n, p) || h = (m, opposite p)))

/-- A link goes DOWN (R277): both routers stop using it, and lee routes across it are broken (R283). -/
def State.linkDown (s : State) (d : Nat) (p : Port) : State :=
  let n := s.dieNumber d
  let down := fun (k : Die) (q : LinkDir) => k.setDir q { k.dir q with down := true, pending := none, next := [] }
  let s1 := s.updDie d (fun k => down k ⟨p, false⟩)
  let s2 := match s.dieIndex (s.neighbour n p) with
    | some e => s1.updDie e (fun k => down k ⟨opposite p, false⟩)
    | none => s1.updDie d (fun k => down k ⟨p, true⟩)
  (List.range s.dies).foldl (fun s e => s.updDie e (fun k => { k with leeBroken := k.leeBroken || s.leeCrosses (s.dieNumber e) n p })) s2

/-- A link that goes DOWN in service is reported to the management core (R277). -/
def State.linkLost (s : State) (d : Nat) (p : Port) : State :=
  let s1 := s.linkDown d p
  { s1 with modul := { s1.modul with reports := s1.modul.reports ++ [.linkDown d p] } }

/-- Lanes of a direction that have failed, those still to be remapped among them. -/
def Link.lost (l : Link) : List Nat := l.failed ++ (l.pending.map Prod.fst).toList ++ l.next
/-- LANE_FAILURE (R277 step 1): the receiver sends REMAP, after a remap that is in progress; a third failed lane takes the link DOWN.
Which flit was the first with a bad CRC is open (DESIGN CHOICE, log 12). -/
def execLaneFailure (d : Nat) (p : LinkDir) (lane : Nat) (s : State) : Out :=
  let l := (s.dieAt d).dir p
  let bad := l.bad.or (some (Config.choice s.sched.tick))
  if !s.hasDir d p || l.down || 18 ≤ lane || l.lost.contains lane then absent "LANE_FAILURE"
  else if 2 ≤ l.lost.length then .next (s.linkLost d p.port)
  else if l.pending.isSome then .next (s.updDie d (fun k => k.setDir p { l with next := l.next ++ [lane], bad := bad }))
  else .next (s.updDie d (fun k => k.setDir p { l with pending := some (lane, none), bad := bad }))
/-- REMAP (R277 step 2): the transmitter picks the switch flit and answers ACKREMAP. -/
def execRemap (d : Nat) (p : LinkDir) (lane flit : Nat) (s : State) : Out :=
  let l := (s.dieAt d).dir p
  if s.hasDir d p && l.pending == some (lane, none) then .next (s.updDie d (fun k => k.setDir p { l with pending := some (lane, some flit) }))
  else absent "REMAP"
/-- ACKREMAP (R277 steps 3, 4): from the switch flit the lane is excluded; the receiver asks for replay from the first flit with a bad CRC,
and sends REMAP of a lane that failed meanwhile. -/
def execAckremap (d : Nat) (p : LinkDir) (lane flit : Nat) (s : State) : Out :=
  let l := (s.dieAt d).dir p
  if s.hasDir d p && l.pending == some (lane, some flit) then
    .next (s.updDie d (fun k => k.setDir p { l with
      pending := l.next.head?.map (fun n => (n, none)), next := l.next.drop 1, failed := l.failed ++ [lane], replay := l.bad.or l.replay
      bad := if l.next.isEmpty then none else l.bad }))
  else absent "ACKREMAP"
/-- FLIT_REPLAY (R276): flits from the named one are sent again; a program sees only the delay. -/
def execFlitReplay (d : Nat) (p : LinkDir) (flit : Nat) (s : State) : Out :=
  let l := (s.dieAt d).dir p
  if s.hasDir d p && !l.down then .next (s.updDie d (fun k => k.setDir p { l with replay := if l.replay = some flit then none else l.replay }))
  else absent "FLIT_REPLAY"

/-! ## Arrival (R285, R286) -/

/-- A request packet reaches its destination die: held for its turn, or dropped when it is out of order and the resequencer is full. -/
def State.arrive (s : State) (d : Nat) (p : Packet) : State :=
  let k := s.dieAt d
  let waiting := (k.resequencer.filter (fun q => q.seq ≠ k.expected q.src q.cls)).length
  if p.seq != k.expected p.src p.cls && Config.resequencerDepth ≤ waiting then s.answer d p .dropped
  else s.updDie d (fun k => { k with resequencer := k.resequencer ++ [p] })
/-- A flow reaches its destination die. -/
def State.arriveFlow (s : State) (d : Nat) (f : Flow) : State :=
  match f with
  | .request p => s.arrive d p
  | .response r => s.updDie d (fun k => { k with arrived := k.arrived ++ [r] })
def flowDst (f : Flow) : Nat := match f with
  | .request p => p.dst
  | .response r => r.dst

/-! ## Hops (R280) -/

def Die.buf? (k : Die) (p : Port) (resp : Bool) : Option InBuf := k.bufs.find? (fun b => b.port == p && b.resp == resp)
/-- The head of a buffer leaves it; its detector counts from zero again (R281). -/
def Die.pop (k : Die) (now : Nat) (p : Port) (resp : Bool) : Die :=
  { k with bufs := mapWhere (fun b => b.port == p && b.resp == resp) (fun b => { b with flows := b.flows.drop 1, since := now, tripped := false }) k.bufs }
/-- Free credits of the link through a port on a channel. -/
def State.credits (s : State) (n : Nat) (p : Port) (resp : Bool) : Nat :=
  match s.dieIndex (s.neighbour n p) with
  | some e => Config.bufferDepth - (((s.dieAt e).buf? (opposite p) resp).map (fun b => b.flows.length)).getD 0
  | none => Config.linkCredits s.sched.tick
/-- The link a router chooses: productive, UP, the most free credits, the first in a tie. -/
def State.bestLink (s : State) (d : Nat) (dst : Nat) (resp : Bool) : Option Port :=
  let n := s.dieNumber d
  let ok := linkPorts.filter (fun p => s.productive n dst p && (s.dieAt d).linkUp p && decide (0 < s.credits n p resp))
  ok.foldl (fun b p => match b with
    | none => some p
    | some q => if s.credits n q resp < s.credits n p resp then some p else some q) none

/-- PACKET_HOP (R280): the head of an input buffer moves on, or reaches its die. A flow for another module leaves by the link. -/
def execPacketHop (d : Nat) (p : Port) (resp : Bool) (s : State) : Out :=
  let n := s.dieNumber d
  match ((s.dieAt d).buf? p resp).bind (fun b => b.flows.head?) with
  | none => absent "PACKET_HOP"
  | some f =>
    let s1 := s.updDie d (fun k => k.pop s.sched.now p resp)
    if s.dies ≤ d then absent "PACKET_HOP"
    else if flowDst f = n then .next (s1.arriveFlow d f)
    else match s.bestLink d (flowDst f) resp with
      | none => absent "PACKET_HOP"
      | some q => match s.dieIndex (s.neighbour n q) with
        | some e => .next (s1.updDie e (fun k => k.push s.sched.now (opposite q) resp f))
        | none => .next { s1 with modul := { s1.modul with outside := s1.modul.outside ++ [f] } }

/-! ## Recovery (R281–R284) -/

/-- DETECTOR_THRESHOLD (R281): the head has not advanced for DT cycles. -/
def execDetectorThreshold (d : Nat) (p : Port) (resp : Bool) (s : State) : Out :=
  match (s.dieAt d).buf? p resp with
  | none => absent "DETECTOR_THRESHOLD"
  | some b =>
    if d < s.dies && !b.flows.isEmpty && !b.tripped && decide (b.since + (s.dieAt d).dt ≤ s.sched.now) then
      .next (s.updDie d (fun k => { k with bufs := mapWhere (fun b => b.port == p && b.resp == resp) (fun b => { b with tripped := true }) k.bufs }))
    else absent "DETECTOR_THRESHOLD"

def Die.suspect (k : Die) : Bool := k.bufs.any (fun b => b.tripped)
/-- The order of the input ports in a tie: +X −X +Y −Y +Z −Z, then the local port (DESIGN CHOICE, log 84). -/
def portRank (p : Port) : Nat := match p with
  | .xp => 0 | .xm => 1 | .yp => 2 | .ym => 3 | .zp => 4 | .zm => 5 | .loc => 6
/-- The buffer whose head has waited longest; the lowest input port in a tie (R282), and of the two buffers of a port the one first in
the list (DESIGN CHOICE, log 84). -/
def Die.longest (k : Die) : Option InBuf :=
  (k.bufs.filter (fun b => !b.flows.isEmpty)).foldl (fun b c => match b with
    | none => some c
    | some a => if c.since < a.since || (c.since == a.since && portRank c.port < portRank a.port) then some c else some a) none
/-- A suspect router drains one flow into the lee lane and counts it (R282, R284). -/
def Die.drain (k : Die) (now : Nat) : Die :=
  match k.longest with
  | none => k
  | some b => { (k.pop now b.port b.resp) with
      lee := b.flows.head?, draining := true, leecnt := if k.leecnt = BitVec.allOnes 32 then k.leecnt else k.leecnt + 1 }

/-- A generation older than the last one seen, of 16 bits that wrap (R282). -/
def olderGen (g seen : BitVec 16) : Bool := (g - seen).msb

/-- The next die number in ascending order (R282). -/
def State.nextRouter (s : State) (n : Nat) : Nat := (s.torusDies.find? (fun m => decide (n < m))).getD 0

/-- ZEPHYR_TOKEN_ARRIVAL (R282): an older token is discarded; a suspect router whose lee routes hold drains one packet. -/
def execZephyrTokenArrival (d : Nat) (gen : BitVec 16) (s : State) : Out :=
  let n := s.dieNumber d
  let k := s.dieAt d
  let z := s.modul.zephyr
  let fromOutside := (s.dieIndex z.at_).isNone && !olderGen gen z.gen
  if s.dies ≤ d then absent "ZEPHYR_TOKEN_ARRIVAL"
  else if olderGen gen k.tokenGen then (if gen = z.gen && z.at_ = n then absent "ZEPHYR_TOKEN_ARRIVAL" else .next s)
  else if (z.at_ = n && !z.arrived && z.gen = gen) || fromOutside then
    let s1 := { s with modul := { s.modul with zephyr := { at_ := n, gen := gen, arrived := true, seenAt0 := if n = 0 then s.sched.now else z.seenAt0 } } }
    .next (s1.updDie d (fun k =>
      let k := { k with tokenGen := gen }
      if k.suspect && !k.leeBroken && !k.draining then k.drain s.sched.now else k))
  else absent "ZEPHYR_TOKEN_ARRIVAL"

/-- The token goes on to the next router. -/
def State.passToken (s : State) (n : Nat) : State :=
  let z := s.modul.zephyr
  if z.at_ = n && z.arrived then { s with modul := { s.modul with zephyr := { z with at_ := s.nextRouter n, arrived := false } } } else s

/-- TOKEN_PASS (R282): a router that drains nothing passes the token on. -/
def execTokenPass (d : Nat) (s : State) : Out :=
  let n := s.dieNumber d
  let z := s.modul.zephyr
  if d < s.dies && z.at_ = n && z.arrived && !(s.dieAt d).draining then .next (s.passToken n) else absent "TOKEN_PASS"

/-- LEE_DELIVERY (R283): a drained flow arrives at die d: a request at its resequencer, a response at its source. -/
def execLeeDelivery (d : Nat) (f : Flow) (s : State) : Out :=
  if s.dies ≤ d || flowDst f ≠ s.dieNumber d then absent "LEE_DELIVERY"
  else match (List.range s.dies).find? (fun e => (s.dieAt e).lee == some f) with
    | some e => .next ((s.updDie e (fun k => { k with lee := none })).arriveFlow d f)
    | none =>
      -- drained in another module (DESIGN CHOICE, log 17): possible while none of this module drains
      if (List.range s.dies).all (fun e => !(s.dieAt e).draining) && s.torusDies.any (fun n => (s.dieIndex n).isNone) then .next (s.arriveFlow d f)
      else absent "LEE_DELIVERY"

/-- LEE_ACKNOWLEDGEMENT (R282): the drained flow has arrived; the router resets its detectors and passes the token on. -/
def execLeeAcknowledgement (d : Nat) (s : State) : Out :=
  let k := s.dieAt d
  let left := k.lee.toList.filter (fun f => (s.dieIndex (flowDst f)).isNone)
  if d < s.dies && k.draining && (k.lee.isNone || !left.isEmpty) then
    let s1 := s.updDie d (fun k => { k with
      draining := false, lee := none, bufs := k.bufs.map (fun b => { b with tripped := false, since := s.sched.now }) })
    .next ({ s1 with modul := { s1.modul with outside := s1.modul.outside ++ left } }.passToken (s.dieNumber d))
  else absent "LEE_ACKNOWLEDGEMENT"

/-- TOKEN_REGENERATION (R282): die 0 issues a token of the next generation after 2^22 cycles without one. -/
def execTokenRegeneration (s : State) : Out :=
  let z := s.modul.zephyr
  if (s.dieIndex 0).isSome && decide (z.seenAt0 + 2 ^ 22 ≤ s.sched.now) then
    .next { s with modul := { s.modul with zephyr := { at_ := 0, gen := z.gen + 1, arrived := false, seenAt0 := s.sched.now } } }
  else absent "TOKEN_REGENERATION"

/-- LEE_ROUTE_REPLACEMENT (R283): firmware replaces the broken lee routes at a quiescent point. -/
def execLeeRouteReplacement (s : State) : Out :=
  if (List.range s.dies).any (fun d => (s.dieAt d).draining || (s.dieAt d).lee.isSome) then absent "LEE_ROUTE_REPLACEMENT"
  else .next ((List.range s.dies).foldl (fun s d => s.updDie d (fun k => { k with leeBroken := false })) s)

end Sys2Proof.Machine
end

