-- ==== Sys2Proof/Machine/Power.lean ====
section
/-! DEFINITION. Bring-up, power and security: verified boot and the staged start (R397–R402), thermal control (R404), scrubbing
(R89, R91), keys and attestation (R405–R408). -/

namespace Sys2Proof.Machine

/-! ## The record in force (R399) -/

/-- The valid half with the higher generation. -/
def Boot.inForce (b : Boot) : Option RecordHalf :=
  if b.half0.valid && (!b.half1.valid || decide (b.half1.gen ≤ b.half0.gen)) then some b.half0
  else if b.half1.valid then some b.half1 else none
def Boot.stored (b : Boot) : List RecordEntry := (b.inForce.map (fun h => h.entries)).getD []
def Boot.generation (b : Boot) : Nat := (b.inForce.map (fun h => h.gen)).getD 0
/-- Writes a record into the half that is not in force, with that generation plus 1; with neither half valid, generation 1 into half 0
(DESIGN CHOICE, log 103). -/
def Boot.writeRecord (b : Boot) (entries : List RecordEntry) : Boot :=
  let h : RecordHalf := { gen := b.generation + 1, entries := entries, valid := true }
  if b.half0.valid && (!b.half1.valid || decide (b.half1.gen ≤ b.half0.gen)) then { b with half1 := h } else { b with half0 := h }

/-! ## Verified boot (R397) -/

/-- What the anti-rollback counter of die 0 shows, whose boot ROM verifies the images (R397). -/
def Boot.rollback (b : Boot) : Nat := b.fuses[0]
/-- The security version of a copy, read from what its signature covers. -/
def versionIn (c : ImageCopy) : Nat := Config.imageVersion c.bytes
/-- The checks of the boot ROM on a copy of an image: its key, its signature over header and body, its security version. -/
def copyVerifies (c : ImageCopy) (rollback : Nat) : Bool :=
  (Config.shake256 c.key).setWidth 256 == Config.keyDigest && Config.mldsaVerify c.key c.bytes (stringBytes "Zalit image") c.signature && decide (rollback ≤ versionIn c)
/-- Of the two copies in flash the one that runs: the first, or the second when the first fails a check. -/
def pickCopy (rollback : Nat) (p : ImageCopy × ImageCopy) : Option ImageCopy :=
  if copyVerifies p.1 rollback then some p.1 else if copyVerifies p.2 rollback then some p.2 else none
/-- The copy of image n that runs, and the lowest image that has none. -/
def runningImage (b : Bringup) (rollback n : Nat) : Option ImageCopy := (b.images[n]?).bind (pickCopy rollback)
def failedImage (b : Bringup) (rollback : Nat) : Option Nat := (List.range 7).find? (fun n => (runningImage b rollback n).isNone)
def runningImages (b : Bringup) (rollback : Nat) : List ImageCopy := (List.range 7).filterMap (runningImage b rollback)
/-- The measurements of the images that run, in the order of R369 (R407). -/
def measuresOf (b : Bringup) (rollback : Nat) : List (BitVec 512) := (runningImages b rollback).map (fun c => Config.shake256 c.bytes)
/-- The security version of the running images: the lowest of theirs (DEDUCED, log 94). -/
def versionOf (b : Bringup) (rollback : Nat) : Nat :=
  match (runningImages b rollback).map versionIn with
  | [] => 0
  | v :: rest => rest.foldl min v

/-! ## The staged start (R398, R401) -/

/-- Dies of a variant (R1). -/
def variantDies (v : BitVec 2) : Nat := if v = 2 then 2 else 4
/-- What cable discovery finds is a shape of R274 that holds the module's block; otherwise step 4 fails. -/
def shapeOk (n : Nat) (shape origin : Nat × Nat × Nat) : Bool :=
  let ey := if n = 4 then 2 else 1
  let ok := fun (v : Nat) => decide (1 ≤ v) && decide (v ≤ 16)
  ok shape.1 && ok shape.2.1 && ok shape.2.2 && origin.1 % 2 == 0 && origin.2.1 % ey == 0 && decide (origin.1 + 2 ≤ shape.1) &&
  decide (origin.2.1 + ey ≤ shape.2.1) && decide (origin.2.2 < shape.2.2)
/-- How a unit fares when it is tried. -/
def triedUnit (b : Bringup) (step unit : Nat) : UnitResult :=
  let d := unit / 4096
  let u := unit % 4096
  match step with
  | 1 => if b.step1Ok then .pass0 else .fenced
  | 2 => b.hbmStacks.getD u .fenced
  | 3 => b.links.getD (6 * d + u) .fenced
  | 4 => match b.shape with
    | some sh => if shapeOk (variantDies b.variant) sh b.origin then .pass0 else .fenced
    | none => .fenced
  | 5 => b.hostPort
  | _ => (b.clusters.getD d []).getD u .fenced
/-- The entries of this start, under the measurement of the management-core image that runs. -/
def bringupEntries (b : Bringup) (measure : BitVec 512) (stored : List RecordEntry) : List RecordEntry :=
  (bringupUnits (variantDies b.variant)).map (fun u =>
    decideUnit stored (entryHash measure b.platform u.1 u.2) u.1 u.2 (triedUnit b u.1 u.2))
/-- The result of a unit in a list of entries. -/
def resultOf (es : List RecordEntry) (step unit : Nat) : UnitResult :=
  ((es.find? (fun e => e.step = step && e.unit = unit)).map RecordEntry.result).getD .fenced
def isPresent : UnitResult → Bool
  | .fenced => false
  | _ => true
def isReduced : UnitResult → Bool
  | .pass1 => true
  | _ => false

/-- A port of die d keeps inside the package (R12). -/
def innerPort (n d : Nat) (p : Port) : Bool :=
  match p with
  | .xp => d % 2 == 0
  | .xm => d % 2 == 1
  | .yp => n == 4 && d / 2 == 0
  | .ym => n == 4 && d / 2 == 1
  | _ => false

/-- Clusters of a die that are present, by physical number ascending: their logical numbers are their places (R12). -/
def presentClusters (es : List RecordEntry) (d : Nat) : List Nat := (List.range 12).filter (fun c => isPresent (resultOf es 6 (4096 * d + c)))
/-- `CR_CAPS` as bring-up finds it (R20, R21). -/
def capsOf (v : BitVec 2) (es : List RecordEntry) : Caps :=
  let n := variantDies v
  let mem := (List.range (2 * n)).filter (fun j => isPresent (resultOf es 2 (j / 2 * 4096 + j)))
  let outer := (List.range n).flatMap (fun d => (List.range 6).filter (fun i =>
    !innerPort n d (linkPorts.getD i .loc) && isPresent (resultOf es 3 (4096 * d + i))))
  { zmat := v != 1, hbmg := BitVec.ofNat 10 (48 * mem.length), lnkx := BitVec.ofNat 5 outer.length, dies := BitVec.ofNat 3 n, var := v
    ncl := Vector.ofFn (fun d => if d.val < n then BitVec.ofNat 4 (presentClusters es d.val).length else 0)
    stk := BitVec.ofNat 8 ((mem.map (fun j => 2 ^ j)).sum) }
/-- G of a die (R398, R402): from the descriptor, or 4; each cluster that passed under method 1, in ascending order, halves what stands. -/
def gustOf (p : Platform) (es : List RecordEntry) (d : Nat) : Nat :=
  (List.range 12).foldl (fun g c => if isReduced (resultOf es 6 (4096 * d + c)) then max 1 (g / 2) else g) (max 1 (min 12 (p.gustG.getD 4)))
/-- Lanes remapped when a link direction trained under method 1: at most two, which ones being open (DESIGN CHOICE, log 12). -/
def trainedLanes (r : UnitResult) (k : Nat) : List Nat :=
  if isReduced r then ([Config.choice k % 18, Config.choice (k + 1) % 18]).eraseDups else []
/-- The training results of link direction i of die d: those stored where the record's entry is taken over, new ones otherwise (R401). -/
def laneResults (trained : List (Nat × List Nat)) (stored es : List RecordEntry) (d i k : Nat) : List Nat :=
  let u := 4096 * d + i
  let kept := match es.find? (fun e => e.step = 3 && e.unit = u) with
    | some e => stored.contains e
    | none => false
  if kept then (assoc trained u).getD [] else trainedLanes (resultOf es 3 u) k
/-- The training results of every link direction of a module. -/
def allLanes (trained : List (Nat × List Nat)) (stored es : List RecordEntry) (n free : Nat) : List (Nat × List Nat) :=
  (List.range n).flatMap (fun d => (List.range 6).map (fun i => (4096 * d + i, laneResults trained stored es d i (free + 60 + 12 * d + 2 * i))))
/-- Torus shape and origin after step 4 (R274, R398): those stored where the record's entry is taken over (R401), what cable discovery finds
otherwise; 1×1×1 when the step failed. -/
def shapeResult (b : Bringup) (kept : (Nat × Nat × Nat) × (Nat × Nat × Nat)) (stored es : List RecordEntry) : (Nat × Nat × Nat) × (Nat × Nat × Nat) :=
  match es.find? (fun e => e.step = 4 && e.unit = 0) with
  | some e => if !isPresent e.result then ((1, 1, 1), (0, 0, 0)) else if stored.contains e then kept else (b.shape.getD (1, 1, 1), b.origin)
  | none => ((1, 1, 1), (0, 0, 0))
/-- Lanes remapped in a direction that leaves the module: another module's training found them (DESIGN CHOICE, log 12). -/
def farLanes (k : Nat) : List Nat := ([Config.choice k % 18, Config.choice (k + 1) % 18].eraseDups).take (Config.choice (k + 2) % 3)
/-- DT as firmware sets it, within its range (R281). -/
def detectorTime (n : Nat) : Nat := max 256 (min 65535 n)

/-- The module without power or in reset: running state is gone; fuses, record, flash and what bring-up found stay until the
next one (R22); host memory and what has left the device are the host's, which sees the link go down (R404). -/
def State.dark (s : State) : State :=
  let r := State.reset
  { r with
    modul := { r.modul with caps := s.modul.caps, torus := s.modul.torus, origin := s.modul.origin, physical := s.modul.physical
                            free := s.modul.free, nextUid := s.modul.nextUid }
    host := { r.host with mem := s.host.mem, epMarks := s.host.epMarks, msix := s.host.msix, aer := s.host.aer, mailboxOut := s.host.mailboxOut
                          unsupported := s.host.unsupported, up := false }
    boot := { s.boot with powered := false, report := [], onCycles := s.boot.onCycles + s.sched.now }
    sched := { s.sched with turn := .agenda, upsets := [] } }

/-- A die at the end of bring-up. -/
def Die.start (k : Die) (b : Bringup) (es : List RecordEntry) (lanes : List (Nat × List Nat)) (free : Nat) : Die :=
  let g := gustOf b.platform es k.die
  { k with
    dt := detectorTime b.threshold, gustG := g, gustFree := (List.range g).map (fun i => Config.choice (free + 12 * k.die + i) % 12)
    links := (List.range 6).map (fun i =>
      (linkPorts.getD i .loc, { failed := (assoc lanes (4096 * k.die + i)).getD [] }))
    linksOut := (List.range 6).map (fun i => (linkPorts.getD i .loc, { failed := farLanes (free + 120 + 18 * k.die + 3 * i) })) }
/-- The links that failed step 3 are DOWN; lee routes are then set around them (step 4). -/
def State.startLinks (s : State) (es : List RecordEntry) : State :=
  let bad := (List.range s.dies).flatMap (fun d => ((List.range 6).filter (fun i => !isPresent (resultOf es 3 (4096 * d + i)))).map (fun i => (d, linkPorts.getD i .loc)))
  let s1 := bad.foldl (fun s x => s.linkDown x.1 x.2) s
  (List.range s.dies).foldl (fun s d => s.updDie d (fun k => { k with leeBroken := false })) s1

/-- The module after a staged start whose step 1 passed. -/
def State.started (s : State) (b : Bringup) (es : List RecordEntry) (lanes : List (Nat × List Nat))
    (shape : (Nat × Nat × Nat) × (Nat × Nat × Nat)) : State :=
  let n := variantDies b.variant
  let free := s.modul.free
  let port := resultOf es 5 0
  let s1 := { s with
    modul := { s.modul with
      caps := capsOf b.variant es, torus := shape.1, origin := shape.2, free := free + 200
      physical := (List.range n).map (presentClusters es) }
    host := { s.host with up := isPresent port, width := if isReduced port then 8 else 16 } }
  ((List.range n).foldl (fun s d => s.updDie d (fun k => k.start b es lanes free)) s1).startLinks es

/-- Power comes, with what flash holds and the images that run (R397); the start fails for cause f, if any. -/
def Boot.on (t : Boot) (b : Bringup) (f : Option BootFailure) : Boot :=
  { t with
    powered := true, failed := f, starts := t.starts + 1, platform := b.platform
    counter := t.rollback
    images := if (failedImage b t.rollback).isSome then t.images else measuresOf b t.rollback
    version := if (failedImage b t.rollback).isSome then t.version else versionOf b t.rollback }
/-- The record of a start that has ended, with the results stored beside it (R399, R401). -/
def Boot.recorded (t : Boot) (es : List RecordEntry) (lanes : List (Nat × List Nat)) (shape : (Nat × Nat × Nat) × (Nat × Nat × Nat)) : Boot :=
  { t.writeRecord es with trained := lanes, shape := shape }
/-- POWER_ON (R397–R402, R406, R409): verified boot, the staged start and the record. It comes about only without power or in
reset. A failed boot, step 1 or record write leaves a module that admits nothing, with the cause. -/
def execPowerOn (b : Bringup) (s : State) : Out :=
  let on := fun (f : Option BootFailure) => { s with boot := s.boot.on b f, sched := { s.sched with now := 0 } }
  if s.boot.powered then absent "POWER_ON"
  else match failedImage b s.boot.rollback with
    | some n => .next (on (some (.image n)))
    | none =>
      let stored := s.boot.stored
      let es := bringupEntries b ((measuresOf b s.boot.rollback).headD 0) stored
      let lanes := allLanes s.boot.trained stored es (variantDies b.variant) s.modul.free
      let shape := shapeResult b s.boot.shape stored es
      if !(List.range 7).all (fun i => isPresent (resultOf es 1 i)) then .next (on (some .step1))
      else
        let u := (on (if b.recordOk then none else some .record)).started b es lanes shape
        .next (if b.recordOk then { u with boot := u.boot.recorded es lanes shape } else u)

/-- POWER_LOSS (R399): running state is lost; the record in force stays. -/
def execPowerLoss (s : State) : Out := if s.boot.powered then .next s.dark else absent "POWER_LOSS"
/-- MODULE_RESET (R405): as a loss of power, up to the next bring-up. -/
def execModuleReset (s : State) : Out := if s.boot.powered then .next s.dark else absent "MODULE_RESET"

/-! ## Thermal control (R404) -/

/-- Sets a die's level: 0 none, 1 thermal hold, 2 a single token. The change is counted; tokens are withheld, or circulate again
from places that are open (R402, DESIGN CHOICE, log 12). -/
def Die.setThermal (k : Die) (level free : Nat) : Die :=
  let k1 := { k with thermal := level, holdCount := k.holdCount + 1 }
  let want := k1.tokens - k1.gustHeld
  let back := (List.range (want - k1.gustFree.length)).map (fun i => Config.choice (free + i) % 12)
  { k1 with gustFree := k1.gustFree.take want ++ back }
def State.thermalTo (s : State) (d level : Nat) : State :=
  let s1 := s.updDie d (fun k => k.setThermal level s.modul.free)
  { s1 with modul := { s1.modul with free := s1.modul.free + 12 } }

/-- THERMAL_HOLD: 95 °C or above. -/
def execThermalHold (d : Nat) (s : State) : Out :=
  if d < s.dies ∧ (s.dieAt d).thermal = 0 then .next (s.thermalTo d 1) else absent "THERMAL_HOLD"
/-- THERMAL_SINGLE_TOKEN: 105 °C or above. -/
def execThermalSingleToken (d : Nat) (s : State) : Out :=
  if d < s.dies ∧ (s.dieAt d).thermal < 2 then .next (s.thermalTo d 2) else absent "THERMAL_SINGLE_TOKEN"
/-- EXIT_FROM_HOLD: below 100 °C a single token becomes thermal hold; below 90 °C thermal hold ends. -/
def execExitFromHold (d : Nat) (s : State) : Out :=
  if d < s.dies ∧ (s.dieAt d).thermal ≠ 0 then .next (s.thermalTo d ((s.dieAt d).thermal - 1)) else absent "EXIT_FROM_HOLD"
/-- THERMAL_SHUTDOWN: 115 °C or above; power goes without firmware. -/
def execThermalShutdown (d : Nat) (s : State) : Out :=
  if d < s.dies ∧ s.boot.powered then .next s.dark else absent "THERMAL_SHUTDOWN"

/-! ## Scrubbing (R89, R91) -/

/-- The stack of its die that holds a unit (R73): bit 8 of the address with both present. -/
def State.stackOf (s : State) (d unit : Nat) : Fin 2 :=
  let one := s.modul.caps.stk.getLsbD (2 * d + 1)
  let zero := s.modul.caps.stk.getLsbD (2 * d)
  if zero && one then (if unit / 4 % 2 = 1 then 1 else 0) else if one then 1 else 0
/-- A 32-bit counter that saturates. -/
def satInc (v : BitVec 32) : BitVec 32 := if v = BitVec.allOnes 32 then v else v + 1
/-- The place of a block of a cluster in one number. -/
def packBlock (d c j : Nat) : Nat := (d * 16 + c) * 64 + j
/-- A unit outside every lease may hold a page of a save area (R395) or of a sketch's backing copy (R254). -/
def State.spoilFirmware (s : State) (unit : Nat) : State :=
  if s.mappedPages.any (fun e => decide (e.1 ≤ unit / 32768) && decide (unit / 32768 < e.2)) then s
  else
    let jobs := s.modul.jobs.map (fun j => { j with saves := j.saves.map (fun p =>
      (p.1, if Config.saveUnit unit j.ctx (packCore p.1) then { p.2 with corrupt := true } else p.2)) })
    let s1 := { s with modul := { s.modul with jobs := jobs } }
    s1.clusterIds.foldl (fun s k => s.updCluster k.1 k.2 (fun c => { c with ctxs := c.ctxs.map (fun x => { x with
      blocks := x.blocks.map (fun b => (b.1, if Config.sketchUnit unit x.ctx (packBlock k.1 k.2 b.1) then { b.2 with badCopy := true } else b.2)) }) })) s1

/-- PATROL_SCRUB (R89, R91): a corrected error is counted and changes nothing else; an uncorrectable one marks the unit and is reported
to the management core with its address. -/
def execPatrolScrub (unit : Nat) (found : Scrub) (s : State) : Out :=
  let d := unit / 2 ^ 32
  if s.pagesOf d ≤ unit % 2 ^ 32 / 32768 then absent "PATROL_SCRUB"
  else
    let i := s.stackOf d unit
    match found with
    | .clean => .next s
    | .corrected => .next (s.updDie d (fun k => { k with corrected := k.corrected.set i (satInc k.corrected[i]) }))
    | .uncorrectable =>
      let s1 := s.updDie d (fun k => { k with uncorrected := k.uncorrected.set i (satInc k.uncorrected[i]) })
      let s2 := { s1 with
        modul := { s1.modul with hbmPoison := cset s1.modul.hbmPoison unit 1, reports := s1.modul.reports ++ [MgmtReport.uncorrectable (64 * unit)] }
        host := { s1.host with aer := s1.host.aer ++ [AerError.uncorrectableInternal] } }
      .next (s2.spoilFirmware unit)

/-- An uncorrectable error in another memory sets the mark of its unit: a core's scratchpad (R95), a palette slot or an accumulator tile
(R201). What shows it later is the read. -/
def State.upset (s : State) (u : Upset) : State :=
  let s1 := { s with host := { s.host with aer := s.host.aer ++ [AerError.uncorrectableInternal] } }
  match u with
  | .spad id n => if s.coreIds.contains id && decide (64 * n < Config.spadBytes) then s1.updCore id (fun c => { c with poison := cset c.poison n 1 }) else s
  | .slot d c n i => if decide (n < 32) && decide (64 * i < Config.slotBytes) && decide (c < s.ncl d) then
      s1.updCluster d c (fun k => k.setSlot n { k.slot n with errors := cset (k.slot n).errors i 1 }) else s
  | .tile d c n i => if decide (n < 48) && decide (64 * i < Config.tileBytes) && decide (c < s.ncl d) then
      s1.updCluster d c (fun k => k.setTile n { k.tile n with poison := cset (k.tile n).poison i 1 }) else s
/-- The next of the errors to come. -/
def State.nextUpset (s : State) : State :=
  match s.sched.upsets with
  | [] => s
  | u :: rest => ({ s with sched := { s.sched with upsets := rest } }).upset u

/-! ## Keys, fuses and reports (R86, R397, R406–R408) -/

/-- A locked lease names key slot k on some die (R86). -/
def State.slotNamed (s : State) (k : Nat) : Bool :=
  (List.range s.dies).any (fun d => (s.dieAt d).map0.any (fun e =>
    bit e.2 63 && bit e.2 59 && bits e.2 51 45 == k && (s.dieAt d).leases.any (fun l => l.locked && l.ctx = bits e.2 58 52)))
/-- The key pair that a wrap yields, when its tag holds and Key1 differs from Key2 (R408). In both messages k is one byte (DESIGN CHOICE,
log 104). -/
def unwrapKey (start : Nat) (ct : List Byte) (ctx : Nat) (w : BitVec 512) (tag : BitVec 128) : Option (BitVec 512) :=
  let k := Config.mlkemDecaps start ct
  let pair := Config.kmac256 k (numBytes 1 ctx) 512 (stringBytes "Zalit key") ^^^ w
  let t := (Config.kmac256 k (numBytes 1 ctx ++ numBytes 64 w.toNat) 128 (stringBytes "Zalit key tag")).setWidth 128
  if t = tag ∧ pair.setWidth 256 ≠ (pair >>> 256).setWidth 256 then some pair else none
/-- KEY_DELIVERY (R408): the slot is loaded on every die, or the service refuses and changes nothing. -/
def execKeyDelivery (ct : List Byte) (ctx : Nat) (w : BitVec 512) (tag : BitVec 128) (s : State) : Out :=
  match unwrapKey s.boot.starts ct ctx w tag with
  | some pair =>
    if 128 ≤ ctx ∨ s.slotNamed ctx then .next s
    else .next ((List.range s.dies).foldl (fun s d => s.updDie d (fun k => { k with keys := cset k.keys ctx pair })) s)
  | none => .next s

/-- The counters of the n dies of a module, blown up to a value; a fuse that is blown stays blown. -/
def blown (fuses : Vector Nat 4) (n value : Nat) : Vector Nat 4 := Vector.ofFn (fun i => if i.val < n then max fuses[i] value else fuses[i])
/-- ANTI_ROLLBACK_UPDATE (R397): fuses are only blown, on every die of the module (DEDUCED, log 105), never above the running images' version
or the 64 there are. -/
def execAntiRollbackUpdate (value : Nat) (s : State) : Out :=
  if value ≤ s.boot.version ∧ value ≤ 64 then .next { s with boot := { s.boot with fuses := blown s.boot.fuses s.dies value } } else .next s

/-- n bytes of a list. -/
def fixedBytes (n : Nat) (l : List Byte) : List Byte := (List.range n).map (fun i => l.getD i 0)
/-- The report of R407 without its signature; the counter as this start found it, so that two reports of one start differ only in the nonce. -/
def State.reportBody (s : State) (nonce : BitVec 256) : List Byte :=
  List.flatten [numBytes 8 1, numBytes 32 nonce.toNat, numBytes 8 (s.capsWord.toNat % 2 ^ 63), numBytes 4 s.boot.counter, numBytes 4 s.boot.version,
    (List.range 7).flatMap (fun i => numBytes 64 (s.boot.images.getD i 0).toNat),
    numBytes 64 (Config.shake256 ((s.boot.inForce.map RecordHalf.bytes).getD [])).toNat, numBytes 8 s.boot.generation,
    fixedBytes 1184 (Config.mlkemPublic s.boot.starts), List.replicate 832 0]
/-- The seed of the identity key (R406), from the device secret of die 0 (DEDUCED, log 105). -/
def identitySeed : BitVec 256 := (Config.shake256 (numBytes 32 (Config.deviceSecret 0).toNat ++ stringBytes "Zalit identity")).setWidth 256
/-- The identity public key (R406). -/
def identityKey : List Byte := Config.mldsaPublic identitySeed
/-- ATTESTATION_REQUEST (R407). -/
def execAttestationRequest (nonce : BitVec 256) (s : State) : Out :=
  let body := s.reportBody nonce
  .next { s with boot := { s.boot with report := body ++ fixedBytes 3309 (Config.mldsaSign identitySeed body (stringBytes "Zalit attest")) } }

end Sys2Proof.Machine
end

