-- ==== Sys2Proof/Machine/Queues.lean ====
section
/-! DEFINITION. The work-queue and signal instructions (R366, R367). -/

namespace Sys2Proof.Machine

/-- The job of the loaded context. -/
def State.loadedJob (s : State) : Option Job := s.jobOf s.core.cid.toNat
/-- A work queue of the loaded context; UNIT_ABSENT at or above NWQ. -/
def workQueue (s : State) (n : Nat) : Res WorkQueue :=
  match s.loadedJob.bind (fun j => j.queues[n]?) with
  | some q => .ok q
  | none => .fault { cause := .unitAbsent }
/-- Signal j of the loaded context: its function and address; UNIT_ABSENT at or above NSIG. -/
def signalOf (s : State) (j : Nat) : Res (Nat × Nat) :=
  match s.loadedJob.bind (fun b => (b.signals[j]?).map (fun a => (b.fn, a))) with
  | some p => .ok p
  | none => .fault { cause := .unitAbsent }

/-- Drops the oldest record of a work queue. -/
def Job.popQueue (j : Job) (n : Nat) : Job :=
  { j with queues := j.queues.modify n (fun q => { q with recs := q.recs.drop 1 }) }

/-- `wq.pop`. -/
def execWqPop (o : OpWqPop) (s : State) : Out :=
  ends s ((needCtx s).bind fun _ => (workQueue s o.n.toNat).bind fun q =>
    match q.recs with
    | [] => if o.nb then .ok (s.wr o.b 0).advance else .stall .workQueue
    | r :: _ =>
      let t := (s.updJob s.core.cid.toNat (fun j => j.popQueue o.n.toNat)).wrPair o.d (dword r 0) (dword r 1)
      .ok (if o.nb then t.wr o.b 1 else t).advance)
/-- `wq.count`. -/
def execWqCount (o : OpWqCount) (s : State) : Out :=
  ends s ((needCtx s).bind fun _ => (workQueue s o.n.toNat).bind fun q => .ok (s.wr o.d (BitVec.ofNat 64 q.recs.length)).advance)
/-- `sig.sub`: with REL it waits as `fence.g(1 << class, host)`; then the subtraction is handed on. -/
def execSigSub (o : OpSigSub) (s : State) : Out :=
  let r := (signalOf s o.j.toNat).bind fun (fn, a) =>
    let b : Subtraction := { fn := fn, iova := a, amount := s.rd o.a, ctx := some s.core.cid.toNat }
    .ok { s with host := { s.host with subs := s.host.subs ++ [b] } }.advance
  endsAfter s ((needCtx s).bind fun _ => (signalOf s o.j.toNat).bind fun _ => .ok ()) o.rel (classMask o.cls) 4 r
/-- `sig.read`. -/
def execSigRead (o : OpSigRead) (s : State) : Out :=
  ends s ((needCtx s).bind fun _ => (signalOf s o.j.toNat).bind fun (fn, a) => .ok (s.wr o.d (s.signalValue fn a)).advance)

end Sys2Proof.Machine
end

