-- ==== Sys2Proof/Machine/Scalar.lean ====
section
/-! DEFINITION. Integer instructions of the control core: majors 0x00–0x07 (R64, R143–R149). None traps. -/

namespace Sys2Proof.Machine

/-- bits 5:0 of a shift count (R143). -/
def shamt (b : Word) : Nat := b.toNat % 64
/-- 1 or 0 as a word. -/
def ofBool (b : Bool) : Word := if b then 1 else 0
/-- The high half of the signed and of the unsigned product (R143). -/
def mulHigh (a b : Word) : Word := ((a.signExtend 128 * b.signExtend 128) >>> 64).setWidth 64
def mulHighN (a b : Word) : Word := ((a.setWidth 128 * b.setWidth 128) >>> 64).setWidth 64
/-- The results of division (R144). -/
def divWord (a b : Word) : Word := if b = 0 then BitVec.allOnes 64 else BitVec.ofInt 64 (a.toInt.tdiv b.toInt)
def divnWord (a b : Word) : Word := if b = 0 then BitVec.allOnes 64 else a / b
def remWord (a b : Word) : Word := if b = 0 then a else BitVec.ofInt 64 (a.toInt.tmod b.toInt)
def remnWord (a b : Word) : Word := if b = 0 then a else a % b
/-- Bits pos+len−1:pos of a word as a number (R147). -/
def fieldOf (a : Word) (pos len : Nat) : Nat := a.toNat / 2 ^ pos % 2 ^ len
/-- `ins` (R147). -/
def insertField (d a : Word) (pos len : Nat) : Word :=
  let m : Word := BitVec.ofNat 64 ((2 ^ len - 1) * 2 ^ pos)
  (d &&& ~~~m) ||| ((a <<< pos) &&& m)
/-- Leading and trailing zero bits, one bits (R147). -/
def clzWord (a : Word) : Nat := if a = 0 then 64 else 63 - Nat.log2 a.toNat
def ctzWord (a : Word) : Nat := ((List.range 64).find? (fun i => a.getLsbD i)).getD 64
def popWord (a : Word) : Nat := ((List.range 64).filter (fun i => a.getLsbD i)).length
/-- The bytes in reverse order (R147). -/
def bswapWord (a : Word) : Word :=
  BitVec.ofNat 64 ((List.range 8).foldl (fun v i => v * 256 + a.toNat / 256 ^ i % 256) 0)

/-- `add` (R143). -/
def execAdd (o : OpRRR) (s : State) : Out := wrote s o.d (s.rd o.a + s.rd o.b)
/-- `sub` (R143). -/
def execSub (o : OpRRR) (s : State) : Out := wrote s o.d (s.rd o.a - s.rd o.b)
/-- `mul` (R143). -/
def execMul (o : OpRRR) (s : State) : Out := wrote s o.d (s.rd o.a * s.rd o.b)
/-- `mulh` (R143). -/
def execMulh (o : OpRRR) (s : State) : Out := wrote s o.d (mulHigh (s.rd o.a) (s.rd o.b))
/-- `mulhn` (R143). -/
def execMulhn (o : OpRRR) (s : State) : Out := wrote s o.d (mulHighN (s.rd o.a) (s.rd o.b))
/-- `and` (R143). -/
def execAnd (o : OpRRR) (s : State) : Out := wrote s o.d (s.rd o.a &&& s.rd o.b)
/-- `or` (R143). -/
def execOr (o : OpRRR) (s : State) : Out := wrote s o.d (s.rd o.a ||| s.rd o.b)
/-- `xor` (R143). -/
def execXor (o : OpRRR) (s : State) : Out := wrote s o.d (s.rd o.a ^^^ s.rd o.b)
/-- `andn` (R143). -/
def execAndn (o : OpRRR) (s : State) : Out := wrote s o.d (s.rd o.a &&& ~~~(s.rd o.b))
/-- `shl` (R143). -/
def execShl (o : OpRRR) (s : State) : Out := wrote s o.d (s.rd o.a <<< shamt (s.rd o.b))
/-- `shr` (R143). -/
def execShr (o : OpRRR) (s : State) : Out := wrote s o.d (s.rd o.a >>> shamt (s.rd o.b))
/-- `sra` (R143). -/
def execSra (o : OpRRR) (s : State) : Out := wrote s o.d ((s.rd o.a).sshiftRight (shamt (s.rd o.b)))
/-- `rol` (R143). -/
def execRol (o : OpRRR) (s : State) : Out := wrote s o.d ((s.rd o.a).rotateLeft (shamt (s.rd o.b)))
/-- `ror` (R143). -/
def execRor (o : OpRRR) (s : State) : Out := wrote s o.d ((s.rd o.a).rotateRight (shamt (s.rd o.b)))
/-- `min` (R143). -/
def execMin (o : OpRRR) (s : State) : Out := wrote s o.d (if (s.rd o.a).sle (s.rd o.b) then s.rd o.a else s.rd o.b)
/-- `max` (R143). -/
def execMax (o : OpRRR) (s : State) : Out := wrote s o.d (if (s.rd o.b).sle (s.rd o.a) then s.rd o.a else s.rd o.b)
/-- `minn` (R143). -/
def execMinn (o : OpRRR) (s : State) : Out := wrote s o.d (if (s.rd o.a).ule (s.rd o.b) then s.rd o.a else s.rd o.b)
/-- `maxn` (R143). -/
def execMaxn (o : OpRRR) (s : State) : Out := wrote s o.d (if (s.rd o.b).ule (s.rd o.a) then s.rd o.a else s.rd o.b)
/-- `div` (R144). -/
def execDiv (o : OpRRR) (s : State) : Out :=
  wroteSticky s o.d (divWord (s.rd o.a) (s.rd o.b)) (divFlags (s.rd o.a) (s.rd o.b))
/-- `divn` (R144). -/
def execDivn (o : OpRRR) (s : State) : Out :=
  wroteSticky s o.d (divnWord (s.rd o.a) (s.rd o.b)) (zeroDivFlags (s.rd o.b))
/-- `rem` (R144). -/
def execRem (o : OpRRR) (s : State) : Out :=
  wroteSticky s o.d (remWord (s.rd o.a) (s.rd o.b)) (zeroDivFlags (s.rd o.b))
/-- `remn` (R144). -/
def execRemn (o : OpRRR) (s : State) : Out :=
  wroteSticky s o.d (remnWord (s.rd o.a) (s.rd o.b)) (zeroDivFlags (s.rd o.b))
/-- `addo` (R143). -/
def execAddo (o : OpRRR) (s : State) : Out :=
  wroteSticky s o.d (s.rd o.a + s.rd o.b) (addoFlags (s.rd o.a) (s.rd o.b))
/-- `subo` (R143). -/
def execSubo (o : OpRRR) (s : State) : Out :=
  wroteSticky s o.d (s.rd o.a - s.rd o.b) (suboFlags (s.rd o.a) (s.rd o.b))
/-- `addi` (R145). -/
def execAddi (o : OpRRI) (s : State) : Out := wrote s o.d (s.rd o.a + sx o.imm)
/-- `andi` (R145). -/
def execAndi (o : OpRRI) (s : State) : Out := wrote s o.d (s.rd o.a &&& sx o.imm)
/-- `ori` (R145). -/
def execOri (o : OpRRI) (s : State) : Out := wrote s o.d (s.rd o.a ||| sx o.imm)
/-- `xori` (R145). -/
def execXori (o : OpRRI) (s : State) : Out := wrote s o.d (s.rd o.a ^^^ sx o.imm)
/-- `muli` (R145). -/
def execMuli (o : OpRRI) (s : State) : Out := wrote s o.d (s.rd o.a * sx o.imm)
/-- `seqi` (R148). -/
def execSeqi (o : OpRRI) (s : State) : Out := wrote s o.d (ofBool (s.rd o.a == sx o.imm))
/-- `slti` (R148). -/
def execSlti (o : OpRRI) (s : State) : Out := wrote s o.d (ofBool ((s.rd o.a).slt (sx o.imm)))
/-- `sltni` (R148). -/
def execSltni (o : OpRRI) (s : State) : Out := wrote s o.d (ofBool ((s.rd o.a).ult (sx o.imm)))
/-- `shli` (R145). -/
def execShli (o : OpShift) (s : State) : Out := wrote s o.d (s.rd o.a <<< o.sh.toNat)
/-- `shri` (R145). -/
def execShri (o : OpShift) (s : State) : Out := wrote s o.d (s.rd o.a >>> o.sh.toNat)
/-- `srai` (R145). -/
def execSrai (o : OpShift) (s : State) : Out := wrote s o.d ((s.rd o.a).sshiftRight o.sh.toNat)
/-- `seq` (R148). -/
def execSeq (o : OpRRR) (s : State) : Out := wrote s o.d (ofBool (s.rd o.a == s.rd o.b))
/-- `sne` (R148). -/
def execSne (o : OpRRR) (s : State) : Out := wrote s o.d (ofBool (s.rd o.a != s.rd o.b))
/-- `slt` (R148). -/
def execSlt (o : OpRRR) (s : State) : Out := wrote s o.d (ofBool ((s.rd o.a).slt (s.rd o.b)))
/-- `sltn` (R148). -/
def execSltn (o : OpRRR) (s : State) : Out := wrote s o.d (ofBool ((s.rd o.a).ult (s.rd o.b)))
/-- `sle` (R148). -/
def execSle (o : OpRRR) (s : State) : Out := wrote s o.d (ofBool ((s.rd o.a).sle (s.rd o.b)))
/-- `slen` (R148). -/
def execSlen (o : OpRRR) (s : State) : Out := wrote s o.d (ofBool ((s.rd o.a).ule (s.rd o.b)))
/-- `li` (R146). -/
def execLi (o : OpRI) (s : State) : Out := wrote s o.d (sx o.imm)
/-- `lih` (R146): bits 63:34 replaced. -/
def execLih (o : OpLih) (s : State) : Out := wrote s o.d (o.imm ++ (s.rd o.d).setWidth 34)
/-- `lpc` (R146). -/
def execLpc (o : OpRI) (s : State) : Out := wrote s o.d ((branchTo s.core.pc o.imm).setWidth 64)
/-- `ext` (R147). -/
def execExt (o : OpBits) (s : State) : Out :=
  let len := o.lenM1.toNat + 1
  wrote s o.d (BitVec.ofInt 64 (toSigned len (fieldOf (s.rd o.a) o.pos.toNat len)))
/-- `extn` (R147). -/
def execExtn (o : OpBits) (s : State) : Out := wrote s o.d (BitVec.ofNat 64 (fieldOf (s.rd o.a) o.pos.toNat (o.lenM1.toNat + 1)))
/-- `ins` (R147). -/
def execIns (o : OpBits) (s : State) : Out := wrote s o.d (insertField (s.rd o.d) (s.rd o.a) o.pos.toNat (o.lenM1.toNat + 1))
/-- `clz` (R147). -/
def execClz (o : OpRR) (s : State) : Out := wrote s o.d (BitVec.ofNat 64 (clzWord (s.rd o.a)))
/-- `ctz` (R147). -/
def execCtz (o : OpRR) (s : State) : Out := wrote s o.d (BitVec.ofNat 64 (ctzWord (s.rd o.a)))
/-- `popc` (R147). -/
def execPopc (o : OpRR) (s : State) : Out := wrote s o.d (BitVec.ofNat 64 (popWord (s.rd o.a)))
/-- `bswap` (R147). -/
def execBswap (o : OpRR) (s : State) : Out := wrote s o.d (bswapWord (s.rd o.a))
/-- `sel` (R148). -/
def execSel (o : OpSel) (s : State) : Out := wrote s o.d (if s.rd o.c ≠ 0 then s.rd o.a else s.rd o.b)
/-- `lea` (R149). -/
def execLea (o : OpLea) (s : State) : Out := wrote s o.d (s.rd o.a + (s.rd o.b <<< o.sh.toNat) + sx o.off)

end Sys2Proof.Machine
end

