-- ==== Sys2Proof/Machine/ScalarFloat.lean ====
section
/-! DEFINITION. Floating-point instructions of the control core: majors 0x10–0x14 (R150–R157). Each rounds at most
once under its rounding code (R31), sets its sticky bits (R34) and never traps. -/

namespace Sys2Proof.Machine

/-- The rounding an instruction's code names (R31); SR is a reserved value on a control core. -/
def State.rounding (s : State) (rm : BitVec 3) : Rounding := roundingOf rm s.core.cr.fpctl 0
/-- An operand of a format, from the low bits of a register (R150). -/
def State.fsrc (s : State) (f : FloatFmt) (r : Reg) : Nat := (s.rd r).toNat % 2 ^ f.width
/-- Ends an instruction with a floating-point result, zero-extended (R150). -/
def wroteCode (s : State) (d : Reg) (r : Nat × Sticky) : Out := wroteSticky s d (BitVec.ofNat 64 r.1) r.2
/-- The format of the two-format families (R154, R157). -/
def fmt2 (t : BitVec 4) : FloatFmt := if t = 0 then .f64 else .f32
/-- Width and signedness of an integer type code (R56). -/
def intBits (t : BitVec 4) : Nat := match t.toNat with
  | 0x8 => 64 | 0x9 => 64 | 0xA => 32 | 0xB => 32 | 0xC => 16 | 0xD => 16 | _ => 8
def intSigned (t : BitVec 4) : Bool := t.toNat % 2 = 0
/-- `fadd.f64` (R151). -/
def execFaddF64 (o : OpF3) (s : State) : Out :=
  wroteCode s o.d (faddCode .f64 (s.rounding o.rm) (s.fsrc .f64 o.a) (s.fsrc .f64 o.b))
/-- `fsub.f64` (R151). -/
def execFsubF64 (o : OpF3) (s : State) : Out :=
  wroteCode s o.d (fsubCode .f64 (s.rounding o.rm) (s.fsrc .f64 o.a) (s.fsrc .f64 o.b))
/-- `fmul.f64` (R151). -/
def execFmulF64 (o : OpF3) (s : State) : Out :=
  wroteCode s o.d (fmulCode .f64 (s.rounding o.rm) (s.fsrc .f64 o.a) (s.fsrc .f64 o.b))
/-- `fdiv.f64` (R151). -/
def execFdivF64 (o : OpF3) (s : State) : Out :=
  wroteCode s o.d (fdivCode .f64 (s.rounding o.rm) (s.fsrc .f64 o.a) (s.fsrc .f64 o.b))
/-- `fsqrt.f64` (R151). -/
def execFsqrtF64 (o : OpF2) (s : State) : Out := wroteCode s o.d (fsqrtCode .f64 (s.rounding o.rm) (s.fsrc .f64 o.a))
/-- `fmin.f64` (R152). -/
def execFminF64 (o : OpRRR) (s : State) : Out := wroteCode s o.d (fminCode .f64 false (s.fsrc .f64 o.a) (s.fsrc .f64 o.b))
/-- `fmax.f64` (R152). -/
def execFmaxF64 (o : OpRRR) (s : State) : Out := wroteCode s o.d (fminCode .f64 true (s.fsrc .f64 o.a) (s.fsrc .f64 o.b))
/-- `fabs.f64` (R153). -/
def execFabsF64 (o : OpRR) (s : State) : Out := wroteCode s o.d (fabsCode .f64 (s.fsrc .f64 o.a), 0)
/-- `fneg.f64` (R153). -/
def execFnegF64 (o : OpRR) (s : State) : Out := wroteCode s o.d (fnegCode .f64 (s.fsrc .f64 o.a), 0)
/-- `fsgn.f64` (R153). -/
def execFsgnF64 (o : OpRRR) (s : State) : Out := wroteCode s o.d (fsgnCode .f64 (s.fsrc .f64 o.a) (s.fsrc .f64 o.b), 0)
/-- `fadd.f32` (R151). -/
def execFaddF32 (o : OpF3) (s : State) : Out :=
  wroteCode s o.d (faddCode .f32 (s.rounding o.rm) (s.fsrc .f32 o.a) (s.fsrc .f32 o.b))
/-- `fsub.f32` (R151). -/
def execFsubF32 (o : OpF3) (s : State) : Out :=
  wroteCode s o.d (fsubCode .f32 (s.rounding o.rm) (s.fsrc .f32 o.a) (s.fsrc .f32 o.b))
/-- `fmul.f32` (R151). -/
def execFmulF32 (o : OpF3) (s : State) : Out :=
  wroteCode s o.d (fmulCode .f32 (s.rounding o.rm) (s.fsrc .f32 o.a) (s.fsrc .f32 o.b))
/-- `fdiv.f32` (R151). -/
def execFdivF32 (o : OpF3) (s : State) : Out :=
  wroteCode s o.d (fdivCode .f32 (s.rounding o.rm) (s.fsrc .f32 o.a) (s.fsrc .f32 o.b))
/-- `fsqrt.f32` (R151). -/
def execFsqrtF32 (o : OpF2) (s : State) : Out := wroteCode s o.d (fsqrtCode .f32 (s.rounding o.rm) (s.fsrc .f32 o.a))
/-- `fmin.f32` (R152). -/
def execFminF32 (o : OpRRR) (s : State) : Out := wroteCode s o.d (fminCode .f32 false (s.fsrc .f32 o.a) (s.fsrc .f32 o.b))
/-- `fmax.f32` (R152). -/
def execFmaxF32 (o : OpRRR) (s : State) : Out := wroteCode s o.d (fminCode .f32 true (s.fsrc .f32 o.a) (s.fsrc .f32 o.b))
/-- `fabs.f32` (R153). -/
def execFabsF32 (o : OpRR) (s : State) : Out := wroteCode s o.d (fabsCode .f32 (s.fsrc .f32 o.a), 0)
/-- `fneg.f32` (R153). -/
def execFnegF32 (o : OpRR) (s : State) : Out := wroteCode s o.d (fnegCode .f32 (s.fsrc .f32 o.a), 0)
/-- `fsgn.f32` (R153). -/
def execFsgnF32 (o : OpRRR) (s : State) : Out := wroteCode s o.d (fsgnCode .f32 (s.fsrc .f32 o.a) (s.fsrc .f32 o.b), 0)
/-- The fused family (R154): one rounding of ±(x·y) ± z. -/
def fusedCode (o : OpFma) (s : State) (np na : Bool) : Nat × Sticky :=
  let f := fmt2 o.ty
  ffmaCode f (s.rounding o.rm) (s.fsrc f o.a) (s.fsrc f o.b) (s.fsrc f o.c) np na
/-- `fma` (R154). -/
def execFma (o : OpFma) (s : State) : Out := wroteCode s o.d (fusedCode o s false false)
/-- `fms` (R154). -/
def execFms (o : OpFma) (s : State) : Out := wroteCode s o.d (fusedCode o s false true)
/-- `fnma` (R154). -/
def execFnma (o : OpFma) (s : State) : Out := wroteCode s o.d (fusedCode o s true false)
/-- `fnms` (R154). -/
def execFnms (o : OpFma) (s : State) : Out := wroteCode s o.d (fusedCode o s true true)
/-- `fcvt` (R156): SAT has no effect on a widening conversion, which is one to a wider format (R31). -/
def execFcvt (o : OpCvt) (s : State) : Out :=
  let src := fmtOf o.src.toNat
  let dst := fmtOf o.dst.toNat
  let sat := o.sat && decide (dst.width ≤ src.width)
  wroteCode s o.d (fcvtCode dst src (s.rounding o.rm) sat (s.fsrc src o.a))
/-- `fcvti` (R156): a signed result is sign-extended. -/
def execFcvti (o : OpCvt) (s : State) : Out :=
  let src := fmtOf o.src.toNat
  let n := intBits o.dst
  let r := fcvtiCode src n (intSigned o.dst) (s.rounding o.rm) (s.fsrc src o.a)
  wroteSticky s o.d (if intSigned o.dst then BitVec.ofInt 64 (toSigned n r.1) else BitVec.ofNat 64 r.1) r.2
/-- `icvtf` (R156). -/
def execIcvtf (o : OpCvt) (s : State) : Out :=
  let n := intBits o.src
  let v : Int := if intSigned o.src then toSigned n (s.rd o.a).toNat else (((s.rd o.a).toNat % 2 ^ n : Nat) : Int)
  wroteCode s o.d (icvtfCode (fmtOf o.dst.toNat) (s.rounding o.rm) o.sat v)
/-- The operands of a comparison as values. -/
def cmpVals (o : OpFCmp) (s : State) : FVal × FVal :=
  let f := fmt2 o.ty
  (fdecode f (s.fsrc f o.a), fdecode f (s.fsrc f o.b))
/-- Invalid for any NaN, or only for a signalling one (R157). -/
def anyNan (p : FVal × FVal) : Sticky := stickyIf (p.1.isNan || p.2.isNan) NV
def anySnan (p : FVal × FVal) : Sticky := stickyIf (p.1.isSnan || p.2.isSnan) NV
/-- `feq` (R157). -/
def execFeq (o : OpFCmp) (s : State) : Out :=
  let p := cmpVals o s
  wroteCode s o.d (bitOf (feqVal p.1 p.2), anySnan p)
/-- `flt` (R157). -/
def execFlt (o : OpFCmp) (s : State) : Out :=
  let p := cmpVals o s
  wroteCode s o.d (bitOf (fltVal p.1 p.2), anyNan p)
/-- `fle` (R157). -/
def execFle (o : OpFCmp) (s : State) : Out :=
  let p := cmpVals o s
  wroteCode s o.d (bitOf (fltVal p.1 p.2 || feqVal p.1 p.2), anyNan p)
/-- `fclass` (R157). -/
def execFclass (o : OpFCls) (s : State) : Out :=
  let f := fmt2 o.ty
  wroteCode s o.d (fclassCode f (s.fsrc f o.a), 0)

end Sys2Proof.Machine
end

