-- ==== Sys2Proof/Machine/Traps.lean ====
section
/-! DEFINITION. The trap instructions (R378), the context instructions (R385, R396), and the events that end at a core's
instruction boundary (R374, R377, R392). -/

namespace Sys2Proof.Machine

/-! ## Trap instructions (R378) -/

/-- A window or the direct status of the core reports a denial (R293). -/
def Core.denied (c : Core) : Bool := c.directDen || c.windows.toList.any (fun w => w.den)
/-- The test of `trapf` and `trapf.all`. -/
def trapfTest (s : State) : Res State :=
  (faultIf (s.core.cr.fpstat &&& s.core.cr.fpen != 0) .arith).bind fun _ =>
  (faultIf s.core.denied .winDenied).bind fun _ => .ok s.advance

/-- `trapf`. -/
def execTrapf (s : State) : Out := ends s ((needCtx s).bind fun _ => trapfTest s)
/-- `trapf.all`: waits for every task this core posted. -/
def execTrapfAll (s : State) : Out :=
  ends s ((needCtx s).bind fun _ => (stallIf (!s.ownTasks.isEmpty) .tasks).bind fun _ => trapfTest s)

/-- Exit: the core issues nothing more; its tasks continue (R378, R365). -/
def State.exitProgram (s : State) : State :=
  if s.core.status.cv then s.endProgram s.core.cid.toNat s.core.id
  else { s with core := { s.core with run := .exited } }

/-- `trap`: code 0 exits; another code enters the handler, or goes to containment when there is none. -/
def execTrap (o : OpTrap) (s : State) : Out :=
  let c := s.core
  let addr := s.rd o.a
  if c.sMode then .next (s.takeFault { cause := .priv })
  else if o.code = 0 then .next s.exitProgram.settled
  else if c.cr.tvec = 0 then .next (s.takeFault { cause := .evTrap, addr := some addr, tcode := o.code })
  else .next { s with core := c.trapEntry (c.pc + 8) (causeWord false false 0 0 o.code .evTrap) addr 0 }
/-- `eret`. -/
def execEret (s : State) : Out :=
  if s.core.sMode then .next s.trapReturn.settled else .next (s.takeFault { cause := .priv })

/-! ## Context instructions (R396) -/

/-- `ctx.save.soft`. -/
def execCtxSaveSoft (o : OpD) (s : State) : Out :=
  ends s ((needS s).bind fun _ => (needCtx s).bind fun _ => (faultIf (!s.quiet) .priv).bind fun _ =>
    .ok (s.saveSoft.wr o.d 0).advance)
/-- The stops of a save have not come within 2^22 cycles of its issue (R392). -/
def State.saveLate (s : State) : Bool := s.core.saving && decide (s.core.savingAt + 2 ^ 22 ≤ s.sched.now)
/-- A save that has not ended waits for its stops. -/
def State.saveWaits (s : State) : State :=
  { s with core := { s.core with saving := true, savingAt := if s.core.saving then s.core.savingAt else s.sched.now, issued := none, stall := some .save } }
/-- `ctx.save.hard`: its first issue stops admission and dispatch; it ends when every stop is reached in time (R388, R392). -/
def execCtxSaveHard (o : OpSaveHard) (s : State) : Out :=
  if s.core.sMode && s.core.status.cv && !(s.stopped && !s.saveLate) then .next s.saveWaits
  else ends s ((needS s).bind fun _ => (needCtx s).bind fun _ => .ok ((s.saveHard o.sp).wr o.d 0).advance)

/-- The context is launched on the core and has a save. -/
def State.savedArea (s : State) (ctx : Nat) : Option SaveArea :=
  (s.jobOf ctx).bind (fun j => if j.cores.contains s.core.id then assoc j.saves s.core.id else none)
/-- Every page of the area verifies for this core, under the latest generation that firmware recorded (R395). -/
def State.verified (s : State) (ctx : Nat) (a : SaveArea) : Bool :=
  (s.jobOf ctx).any (fun j => a.verifies j.saveKey ctx s.core.id (j.genOf s.core.id))
/-- A context whose save does not verify is marked corrupt, and RESTORE_CORRUPT is offered at job level (R395). -/
def State.markCorrupt (s : State) (ctx : Nat) : State :=
  (s.updJob ctx (fun j => { j with corrupt := true })).offerJob ctx s.core.id .restoreCorrupt false
/-- `ctx.load`. -/
def execCtxLoad (o : OpRR) (s : State) : Out :=
  let ctx := (s.rd o.a).toNat % 128
  ends s ((needS s).bind fun _ => (faultIf s.core.status.cv .priv).bind fun _ =>
    match s.savedArea ctx with
    | none => .fault { cause := .priv }
    | some a =>
      if (s.jobOf ctx).any (fun j => j.corrupt) then .ok (s.wr o.d 1).advance
      else if !s.verified ctx a then .ok ((s.markCorrupt ctx).wr o.d 1).advance
      else .ok ((s.loadCtx ctx a).wr o.d 0).advance)
/-- `resume` with nothing loaded since the last one: the PC saved is `CR_EPC` (DEDUCED, log 29). -/
def State.resumeHere (s : State) : State :=
  { s with core := { s.core with
      pc := pcOf s.core.cr.epc
      run := if s.programEnded then .exited else .running
      status := { s.core.status with mode := false, td := false, ie := s.core.status.pie } } }
/-- `resume`. -/
def execResume (s : State) : Out :=
  ends s ((needS s).bind fun _ => (needCtx s).bind fun _ =>
    match s.core.aside with
    | some a => .ok (s.resumeCtx a)
    | none => .ok s.resumeHere)
/-- `yield`: `CR_FADDR` after it is a value the spec does not state (DESIGN CHOICE, log 16). -/
def execYield (s : State) : Out :=
  ends s ((needCtx s).bind fun _ =>
    let c := s.core
    if !c.sMode && c.status.yp && s.quiet then
      .ok { s.freshen with core := c.trapEntry (c.pc + 8) (causeWord false false 0 0 0 .evYield) s.fresh 0 }
    else .ok s.advance)

/-! ## Events of the core -/

/-- PREEMPT_REQUEST: firmware sets IPP (R374). -/
def execPreemptRequest (s : State) : Out := .next { s with core := { s.core with status := { s.core.status with ipp := true } } }
/-- CYCLE_COMPARE_MATCH: `CR_CYC` has reached `CR_CYCCMP` since its last write; IPC is set once (R374). -/
def execCycleCompareMatch (s : State) : Out :=
  let c := s.core
  if c.cmpArmed && decide (c.cr.cyccmp.toNat ≤ s.cycles) then
    .next { s with core := { c with cmpArmed := false, status := { c.status with ipc := true } } }
  else absent "CYCLE_COMPARE_MATCH"

/-- The address of the next instruction to issue: of the stalled one itself, or of the one at the PC (R377). -/
def Core.resumePc (c : Core) : BitVec 32 := c.pc
/-- A wait that is not abandoned: a reply (R168), the stops of a save (R392), the commit of a sketch (R265). -/
def waitHolds (c : Core) : Bool := c.await.isSome || c.saving || c.sketch.isSome
/-- INTERRUPT_TAKEN: PRE, then CMP, then MSG (R377). A reply and the stops of a save are waited out (R168, DEDUCED, log 30). -/
def execInterruptTaken (s : State) : Out :=
  let c := s.core
  let t := c.status
  let pick : Option Cause :=
    if t.ipp && t.im.getLsbD 0 then some .intPre
    else if t.ipc && t.im.getLsbD 1 then some .intCmp
    else if !c.inbox.isEmpty && t.im.getLsbD 2 then some .intMsg
    else none
  match pick with
  | none => absent "INTERRUPT_TAKEN"
  | some cs =>
    if t.ie && !t.td && !waitHolds c then
      .next { s.freshen with core := c.trapEntry c.resumePc (causeWord true false 0 0 0 cs) s.fresh 0 }
    else absent "INTERRUPT_TAKEN"

/-- The oldest task fault offered to the program that holds the core; one of another context waits for that context (DEDUCED, log 100). -/
def Core.dueFault (c : Core) : Option Escalated := c.escalated.find? (fun e => c.holds e.ctx)
/-- ESCALATED_TASK_FAULT: a task fault offered to the core program (R377, R379, R381). -/
def execEscalatedTaskFault (s : State) : Out :=
  let c := s.core
  match c.dueFault with
  | none => absent "ESCALATED_TASK_FAULT"
  | some e =>
    if c.status.td || waitHolds c then absent "ESCALATED_TASK_FAULT"
    else
      let s := { s with core := { c with escalated := c.escalated.erase e } }
      match c.cr.corePolicy with
      | 0 => .next s
      | 1 =>
        if c.cr.tvec = 0 then .next (s.offerJobHere e.cause)
        else if c.cr.coreCount = 0 then .next (s.killHere e.cause)
        else .next { s with core := s.core.spend.trapEntry c.resumePc (causeWord false true e.tag e.idx.toNat 0 e.cause) e.addr e.info }
      | 2 => .next (s.killHere e.cause)
      | _ => .next (s.offerJobHere e.cause)

/-- SAVE_TIMEOUT (R392), 2^22 cycles after the `ctx.save`: the save ends with status 1; tasks that have not stopped are stopped as by cancellation, CANCEL
is offered at job level, and the context does not resume from this save. -/
def execSaveTimeout (d : Reg) (s : State) : Out :=
  let c := s.core
  if s.saveLate then
    let ctx := c.cid.toNat
    let last := !s.heldElsewhere c.id ctx
    let s1 := s.stopTasks c.id.die c.id.clu (fun t => s.savedTask last t && !s.atStop t)
    let s2 := s1.updJob ctx (fun j => { j with saves := j.saves.filter (fun p => p.1 ≠ c.id) })
    let s3 := (({ s2 with core := s2.core.unload }).wr d 1).advance.settled
    .next (s3.offerJob ctx c.id .cancel false)
  else absent "SAVE_TIMEOUT"

end Sys2Proof.Machine
end

