-- ==== Sys2Proof/Machine/Vector.lean ====
section
/-! DEFINITION. Vector arithmetic: majors 0x80–0x85 (R232–R237). -/

namespace Sys2Proof.Machine

/-- A type whose integers are signed. -/
def vecSigned (ty : BitVec 4) : Bool := ty.toNat % 2 == 0
/-- An element as an integer of its type. -/
def vecInt (ty : BitVec 4) (x : Nat) : Int := if vecSigned ty then toSigned (vecBits ty) x else (x : Int)
/-- An integer clamped to a type's range. -/
def vecClamp (ty : BitVec 4) (v : Int) : Int :=
  let n := vecBits ty
  if vecSigned ty then max (-(2 ^ (n - 1) : Nat)) (min v ((2 ^ (n - 1) : Nat) - 1)) else max 0 (min v ((2 ^ n : Nat) - 1))

/-! ## Integer arithmetic (R232) -/

/-- An integer word: f on the two source elements, narrowed to the element. -/
def vint (s : State) (minor : Nat) (o : OpV) (f : Int → Int → Int) : Out :=
  let w := vecBits o.ty
  let v := s.core.vec
  vtile s 0x80 minor o w (groups w) (fun _ e =>
    (ofSigned w (f (vecInt o.ty (elemAt (v.tile o.a) w e)) (vecInt o.ty (elemAt (v.tile o.b) w e))), 0))

/-- `vadd`. -/
def execVadd (o : OpV) (s : State) : Out := vint s 0 o (fun a b => a + b)
/-- `vsub`. -/
def execVsub (o : OpV) (s : State) : Out := vint s 1 o (fun a b => a - b)
/-- `vmul`. -/
def execVmul (o : OpV) (s : State) : Out := vint s 2 o (fun a b => a * b)
/-- `vmulh`: bits 2N−1:N of the exact product. -/
def execVmulh (o : OpV) (s : State) : Out := vint s 3 o (fun a b => a * b / (2 ^ vecBits o.ty : Nat))
/-- `vmin`. -/
def execVmin (o : OpV) (s : State) : Out := vint s 4 o (fun a b => if a ≤ b then a else b)
/-- `vmax`. -/
def execVmax (o : OpV) (s : State) : Out := vint s 5 o (fun a b => if b ≤ a then a else b)
/-- `vabs`: with `.sat` at most the largest value. -/
def execVabs (o : OpV) (s : State) : Out := vint s 6 o (fun a _ => let v : Int := a.natAbs; if o.sat then vecClamp o.ty v else v)
/-- `vneg`: with `.sat` clamped. -/
def execVneg (o : OpV) (s : State) : Out := vint s 7 o (fun a _ => if o.sat then vecClamp o.ty (-a) else -a)
/-- `vadds`. -/
def execVadds (o : OpV) (s : State) : Out := vint s 8 o (fun a b => vecClamp o.ty (a + b))
/-- `vsubs`. -/
def execVsubs (o : OpV) (s : State) : Out := vint s 9 o (fun a b => vecClamp o.ty (a - b))

/-! ## Logic, shifts, moves (R233) -/

/-- A bit-wise word: f on the bits of the two source elements. -/
def vbits (s : State) (minor : Nat) (o : OpV) (f : Nat → Nat → Nat → Nat) : Out :=
  let w := vecBits o.ty
  let v := s.core.vec
  vtile s 0x81 minor o w (groups w) (fun _ e => (f w (elemAt (v.tile o.a) w e) (elemAt (v.tile o.b) w e), 0))

/-- `vand`. -/
def execVand (o : OpV) (s : State) : Out := vbits s 0 o (fun _ a b => a &&& b)
/-- `vor`. -/
def execVor (o : OpV) (s : State) : Out := vbits s 1 o (fun _ a b => a ||| b)
/-- `vxor`. -/
def execVxor (o : OpV) (s : State) : Out := vbits s 2 o (fun _ a b => a ^^^ b)
/-- `vnot`. -/
def execVnot (o : OpV) (s : State) : Out := vbits s 3 o (fun w a _ => 2 ^ w - 1 - a)
/-- `vshl`. -/
def execVshl (o : OpV) (s : State) : Out := vbits s 4 o (fun w a b => a * 2 ^ (b % w) % 2 ^ w)
/-- `vshr`. -/
def execVshr (o : OpV) (s : State) : Out := vbits s 5 o (fun w a b => a / 2 ^ (b % w))
/-- `vsra`. -/
def execVsra (o : OpV) (s : State) : Out := vbits s 6 o (fun w a b => ofSigned w (toSigned w a / (2 ^ (b % w) : Nat)))
/-- `vmov`. -/
def execVmov (o : OpV) (s : State) : Out := vbits s 7 o (fun _ a _ => a)
/-- `vsel`: writes every element. -/
def execVsel (o : OpV) (s : State) : Out :=
  let w := vecBits o.ty
  let v := s.core.vec
  let pred := v.pred o.k.toNat
  vissue s (vecTiming 0x81 8 o.ty 0 0) (fun _ =>
    let lanes := (groups w).flatMap (fun g => groupLanes w g ((groupElems w g).map (fun e =>
      if pred.getLsbD (governor w g) then elemAt (v.tile o.a) w e else elemAt (v.tile o.b) w e)))
    .done s (some (.tile (physTile o.d v.vrb) lanes)) 0)

/-! ## Floating point (R234, R235) -/

/-- The rounding mode of a word in a task (R229). -/
def VecRun.rounding (r : VecRun) (rm : BitVec 3) : Rounding := roundingOf rm r.task.rm 0

/-- A floating-point word on up to three source elements. -/
def vfloat (s : State) (major minor : Nat) (o : OpV) (f : FloatFmt → Rounding → Nat → Nat → Nat → Nat × Sticky) : Out :=
  let w := vecBits o.ty
  let v := s.core.vec
  vtile s major minor o w (groups w) (fun r e =>
    f (fmtOf o.ty.toNat) (r.rounding o.rm) (elemAt (v.tile o.a) w e) (elemAt (v.tile o.b) w e) (elemAt (v.tile o.c) w e))

/-- `vfadd`. -/
def execVfadd (o : OpV) (s : State) : Out := vfloat s 0x82 0 o (fun f r x y _ => faddCode f r x y)
/-- `vfsub`. -/
def execVfsub (o : OpV) (s : State) : Out := vfloat s 0x82 1 o (fun f r x y _ => fsubCode f r x y)
/-- `vfmul`. -/
def execVfmul (o : OpV) (s : State) : Out := vfloat s 0x82 2 o (fun f r x y _ => fmulCode f r x y)
/-- `vfma`. -/
def execVfma (o : OpV) (s : State) : Out := vfloat s 0x82 3 o (fun f r x y z => ffmaCode f r x y z false false)
/-- `vfms`. -/
def execVfms (o : OpV) (s : State) : Out := vfloat s 0x82 4 o (fun f r x y z => ffmaCode f r x y z false true)
/-- `vfnma`. -/
def execVfnma (o : OpV) (s : State) : Out := vfloat s 0x82 5 o (fun f r x y z => ffmaCode f r x y z true false)
/-- `vfmin`. -/
def execVfmin (o : OpV) (s : State) : Out := vfloat s 0x82 6 o (fun f _ x y _ => fminCode f false x y)
/-- `vfmax`. -/
def execVfmax (o : OpV) (s : State) : Out := vfloat s 0x82 7 o (fun f _ x y _ => fminCode f true x y)
/-- `vfabs`. -/
def execVfabs (o : OpV) (s : State) : Out := vfloat s 0x82 8 o (fun f _ x _ _ => (fabsCode f x, 0))
/-- `vfneg`. -/
def execVfneg (o : OpV) (s : State) : Out := vfloat s 0x82 9 o (fun f _ x _ _ => (fnegCode f x, 0))
/-- `vdiv`. -/
def execVdiv (o : OpV) (s : State) : Out := vfloat s 0x83 0 o (fun f r x y _ => fdivCode f r x y)
/-- `vsqrt`. -/
def execVsqrt (o : OpV) (s : State) : Out := vfloat s 0x83 1 o (fun f r x _ _ => fsqrtCode f r x)
/-- `vrcp`. -/
def execVrcp (o : OpV) (s : State) : Out := vfloat s 0x83 2 o (fun f r x _ _ => finish f r (frcpVal (fdecode f x)))
/-- `vrsq`. -/
def execVrsq (o : OpV) (s : State) : Out := vfloat s 0x83 3 o (fun f r x _ _ => finish f r (frsqVal (fdecode f x)))
/-- `vexp2`. -/
def execVexp2 (o : OpV) (s : State) : Out := vfloat s 0x83 4 o (fun f r x _ _ => finish f r (fexp2Val (fdecode f x)))
/-- `vlog2`. -/
def execVlog2 (o : OpV) (s : State) : Out := vfloat s 0x83 5 o (fun f r x _ _ => finish f r (flog2Val (fdecode f x)))

/-! ## Comparison and classification (R236) -/

/-- A comparison: the AND of the condition over the elements of a lane, into the lane's bit, or into both lanes' bits of a
64-bit element. -/
def vcompare (s : State) (minor : Nat) (o : OpV) (cond : Nat → Nat → Bool × Sticky) : Out :=
  let w := vecBits o.ty
  let v := s.core.vec
  let pred := v.pred o.k.toNat
  vissue s (vecTiming 0x84 minor o.ty 0 0) (fun _ =>
    if !anyActive w pred (groups w) then .done s none 0
    else
      let lane : BitVec 1024 := if w = 64 then 3 else 1
      let acc := (groups w).foldl (fun (acc : BitVec 1024 × BitVec 1024 × Sticky) g =>
        let (mask, value, fl) := acc
        let here := lane <<< governor w g
        if pred.getLsbD (governor w g) then
          let rs := (groupElems w g).map (fun e => cond (elemAt (v.tile o.a) w e) (elemAt (v.tile o.b) w e))
          (mask ||| here, if rs.all (fun r => r.1) then value ||| here else value, rs.foldl (fun f r => f ||| r.2) fl)
        else (if o.z then mask ||| here else mask, value, fl)) (0, 0, 0)
      .done s (some (.pred o.d.toNat acc.1 acc.2.1)) acc.2.2)

/-- `vcmp`. -/
def execVcmp (o : OpV) (s : State) : Out :=
  vcompare s 0 o (fun a b =>
    let x := vecInt o.ty a
    let y := vecInt o.ty b
    (match o.spec.toNat with
     | 0 => x == y | 1 => x != y | 2 => decide (x < y) | 3 => decide (x ≤ y) | 4 => decide (y < x) | _ => decide (y ≤ x), 0))
/-- `vfcmp`: invalid for any NaN under the ordered relations, else for a signalling one. -/
def execVfcmp (o : OpV) (s : State) : Out :=
  vcompare s 1 o (fun a b =>
    let x := fdecode (fmtOf o.ty.toNat) a
    let y := fdecode (fmtOf o.ty.toNat) b
    let nan := x.isNan || y.isNan
    let rel := decide (2 ≤ o.spec.toNat ∧ o.spec.toNat ≤ 5)
    (match o.spec.toNat with
     | 0 => feqVal x y | 1 => !feqVal x y | 2 => fltVal x y | 3 => fltVal x y || feqVal x y | 4 => fltVal y x
     | 5 => fltVal y x || feqVal x y | 6 => nan | _ => !nan,
     stickyIf ((nan && rel) || x.isSnan || y.isSnan) NV))
/-- `vclass`: the class mask of R157, zero-extended. -/
def execVclass (o : OpV) (s : State) : Out :=
  let w := vecBits o.ty
  let v := s.core.vec
  vtile s 0x84 2 o w (groups w) (fun _ e => (fclassCode (fmtOf o.ty.toNat) (elemAt (v.tile o.a) w e), 0))

/-! ## Predicates (R237) -/

/-- A predicate word. -/
def vpred (s : State) (minor : Nat) (o : OpV) (f : BitVec 1024 → BitVec 1024 → BitVec 1024) : Out :=
  let v := s.core.vec
  vissue s (vecTiming 0x85 minor 0 0 0) (fun _ =>
    .done s (some (.pred o.d.toNat (BitVec.allOnes 1024) (f (v.pred o.a.toNat) (v.pred o.b.toNat)))) 0)

/-- `kand`. -/
def execKand (o : OpV) (s : State) : Out := vpred s 0 o (fun a b => a &&& b)
/-- `kor`. -/
def execKor (o : OpV) (s : State) : Out := vpred s 1 o (fun a b => a ||| b)
/-- `kxor`. -/
def execKxor (o : OpV) (s : State) : Out := vpred s 2 o (fun a b => a ^^^ b)
/-- `knot`. -/
def execKnot (o : OpV) (s : State) : Out := vpred s 3 o (fun a _ => ~~~a)
/-- `kmov`. -/
def execKmov (o : OpV) (s : State) : Out := vpred s 4 o (fun a _ => a)
/-- Set bits of a predicate, and its lowest one. -/
def predCount (p : BitVec 1024) : Nat := ((List.range 1024).filter (fun i => p.getLsbD i)).length
def predFirst (p : BitVec 1024) : Nat := ((List.range 1024).find? (fun i => p.getLsbD i)).getD 1024
/-- `kpop`. -/
def execKpop (o : OpV) (s : State) : Out :=
  vissue s (vecTiming 0x85 5 0 0 0) (fun _ => .done s (some (.xreg o.d.toNat (BitVec.ofNat 64 (predCount (s.core.vec.pred o.a.toNat))))) 0)
/-- `kfirst`. -/
def execKfirst (o : OpV) (s : State) : Out :=
  vissue s (vecTiming 0x85 6 0 0 0) (fun _ => .done s (some (.xreg o.d.toNat (BitVec.ofNat 64 (predFirst (s.core.vec.pred o.a.toNat))))) 0)

end Sys2Proof.Machine
end

