-- ==== Sys2Proof/Machine/VectorMove.lean ====
section
/-! DEFINITION. Conversions and packing (R238–R240), rotations, broadcasts, reductions and the Hadamard transform
(R241–R243). -/

namespace Sys2Proof.Machine

/-- The draw of the word at issue for destination element e (R250). -/
def VecRun.draw (r : VecRun) (e : Nat) : Nat := breeze r.task.kt.toNat (breezeCtr r.iter r.next e)

/-! ## `vcvt` (R238) -/

/-- A type4 code of a floating format of the vector engine. -/
def vecFloat (ty : BitVec 4) : Bool := decide (ty.toNat ≤ 5)
/-- Elements of a tile in a type. -/
def vecCount (ty : BitVec 4) : Nat := 32768 / vecBits ty

/-- The conversion of one element. -/
def vecConvert (src dst : BitVec 4) (r : Rounding) (sat : Bool) (x : Nat) : Nat × Sticky :=
  match vecFloat src, vecFloat dst with
  | true, true => fcvtCode (fmtOf dst.toNat) (fmtOf src.toNat) r sat x
  | true, false => fcvtiCode (fmtOf src.toNat) (vecBits dst) (vecSigned dst) r x
  | false, true => icvtfCode (fmtOf dst.toNat) r sat (vecInt src x)
  | false, false => (ofSigned (vecBits dst) (if sat then vecClamp dst (vecInt src x) else vecInt src x), 0)

/-- Groups that hold elements [a, a + n) of width w. -/
def groupsFrom (w a n : Nat) : List Nat := (List.range (if w = 64 then n else n * w / 32)).map (fun g => (if w = 64 then a else a * w / 32) + g)

/-- The source element of destination element e when the first one written is `start`. -/
def vcvtSource (ns n part start e : Nat) (wide : Bool) : Nat := if wide then (part * n + e) % ns else e - start

/-- `vcvt`: destination elements outside the part written keep their values. -/
def execVcvt (o : OpV) (s : State) : Out :=
  let src : BitVec 4 := o.c.setWidth 4
  let ns := vecCount src
  let nd := vecCount o.ty
  let n := min ns nd
  let wide := decide (nd ≤ ns)
  let start := if wide then 0 else o.spec.toNat * n
  let w := vecBits o.ty
  let v := s.core.vec
  vtile s 0x86 0 o w (groupsFrom w start n) (fun r e =>
    let rd := if o.rm = 5 then Rounding.sr (r.draw e / 2 ^ 48) else r.rounding o.rm
    vecConvert src o.ty rd o.sat (elemAt (v.tile o.a) (vecBits src) (vcvtSource ns n o.spec.toNat start e wide)))

/-! ## `vqmx` and `vdqmx` (R239, R240) -/

/-- The lanes of a loop over rows: a row is governed by the bit of its lane 0. -/
def vrows (pred : BitVec 1024) (z : Bool) (f : Nat → List Nat × Sticky) : Option LaneOut :=
  if (List.range 16).any (fun r => pred.getLsbD (64 * r)) then
    some ((List.range 16).foldr (fun r (acc : LaneOut) =>
      let put := fun (vs : List Nat) => (List.range 64).map (fun j => (64 * r + j, BitVec.ofNat 32 (vs.getD j 0)))
      if pred.getLsbD (64 * r) then (put (f r).1 ++ acc.1, (f r).2 ||| acc.2)
      else if z then (put [] ++ acc.1, acc.2) else acc) ([], 0))
  else none

/-- A word whose unit is the row. -/
def vrowOp (s : State) (minor : Nat) (o : OpV) (f : Tile → Nat → List Nat × Sticky) : Out :=
  vissue s (vecTiming 0x86 minor o.ty 0 0) (fun _ =>
    let v := s.core.vec
    match vrows (v.pred o.k.toNat) o.z (f (v.tile o.a)) with
    | none => .done s none 0
    | some (lanes, fl) => .done s (some (.tile (physTile o.d v.vrb) lanes)) fl)

/-- Codes packed eight to a lane, the lower-numbered one in the lower nibble. -/
def packNibbles (cs : List Nat) : Nat := cs.foldr (fun c acc => c % 16 + 16 * acc) 0

/-- A row of 64 F32 elements as MXFP4. -/
def qmxRow (t : Tile) (r : Nat) : List Nat × Sticky :=
  let block := fun (b : Nat) => mxQuant ((List.range 32).map (fun j => fdecode .f32 (elemAt t 32 (64 * r + 32 * b + j))))
  let (s0, c0, f0) := block 0
  let (s1, c1, f1) := block 1
  let cs := c0 ++ c1
  (((List.range 8).map (fun m => packNibbles ((cs.drop (8 * m)).take 8))) ++ [s0 + 256 * s1], f0 ||| f1)

/-- A row of MXFP4 as 64 F32 elements. -/
def dqmxRow (sat : Bool) (t : Tile) (r : Nat) : List Nat × Sticky :=
  let one := fun (j : Nat) =>
    let code := elemAt t 32 (64 * r + j / 8) / 16 ^ (j % 8) % 16
    let sc := elemAt t 32 (64 * r + 8) / 256 ^ (j / 32) % 256
    if sc = 0xFF then (FloatFmt.f32.nan, (0 : Sticky)) else fround .f32 .rne sat (mxValue code sc)
  let rs := (List.range 64).map one
  (rs.map Prod.fst, rs.foldl (fun f x => f ||| x.2) 0)

/-- `vqmx`. -/
def execVqmx (o : OpV) (s : State) : Out := vrowOp s 1 o qmxRow
/-- `vdqmx`. -/
def execVdqmx (o : OpV) (s : State) : Out := vrowOp s 2 o (dqmxRow o.sat)

/-! ## Rotations and broadcasts (R241) -/

/-- A word that moves lanes: f gives the source lane of a destination lane. -/
def vlanes (s : State) (minor : Nat) (o : OpV) (f : Nat → Nat) : Out :=
  let w := vecBits o.ty
  let v := s.core.vec
  let pred := v.pred o.k.toNat
  let lanesOf := fun (g : Nat) => if w = 64 then [2 * g, 2 * g + 1] else [g]
  vissue s (vecTiming 0x87 minor o.ty 0 0) (fun _ =>
    if !anyActive w pred (groups w) then .done s none 0
    else
      let lanes := (groups w).flatMap (fun g =>
        if pred.getLsbD (governor w g) then (lanesOf g).map (fun l => (l, cget (v.tile o.a) (f l)))
        else if o.z then (lanesOf g).map (fun l => (l, 0)) else [])
      .done s (some (.tile (physTile o.d v.vrb) lanes)) 0)

/-- `vrot.r`. -/
def execVrotR (o : OpV) (s : State) : Out := vlanes s 0 o (fun l => 64 * (l / 64) + (l % 64 + 64 - o.c.toNat) % 64)
/-- `vrot.c`. -/
def execVrotC (o : OpV) (s : State) : Out := vlanes s 1 o (fun l => 64 * ((l / 64 + 16 - o.c.toNat % 16) % 16) + l % 64)
/-- `vbc.r`: every lane of a row receives lane n, whatever the element type. -/
def execVbcR (o : OpV) (s : State) : Out := vlanes s 2 o (fun l => 64 * (l / 64) + o.c.toNat)
/-- `vbc.c`. -/
def execVbcC (o : OpV) (s : State) : Out := vlanes s 3 o (fun l => 64 * (o.c.toNat % 16) + l % 64)

/-! ## Reductions (R242) -/

/-- The operation of a reduction. -/
def redOp (ty : BitVec 4) (op : Nat) (r : Rounding) (a b : Nat) : Nat × Sticky :=
  let f := fmtOf ty.toNat
  let n := vecBits ty
  match op with
  | 0 => if vecFloat ty then faddCode f r a b else ((a + b) % 2 ^ n, 0)
  | 1 => if vecFloat ty then fminCode f false a b else (if vecInt ty a ≤ vecInt ty b then a else b, 0)
  | 2 => if vecFloat ty then fminCode f true a b else (if vecInt ty b ≤ vecInt ty a then a else b, 0)
  | 3 => (a &&& b, 0)
  | 4 => (a ||| b, 0)
  | _ => (a ^^^ b, 0)

/-- The identity of a reduction. -/
def redIdentity (ty : BitVec 4) (op : Nat) : Nat :=
  let f := fmtOf ty.toNat
  let n := vecBits ty
  match op with
  | 0 => if vecFloat ty then f.signBit else 0
  | 1 => if vecFloat ty then f.infCode.getD 0 else if vecSigned ty then 2 ^ (n - 1) - 1 else 2 ^ n - 1
  | 2 => if vecFloat ty then f.infCode.getD 0 + f.signBit else if vecSigned ty then 2 ^ (n - 1) else 0
  | 3 => 2 ^ n - 1
  | _ => 0

/-- One level of the tree: neighbours combined, conditions collected. -/
def redLevel (f : Nat → Nat → Nat × Sticky) : List Nat → List Nat × Sticky
  | a :: b :: rest =>
    let (v, fl) := f a b
    let (vs, fs) := redLevel f rest
    (v :: vs, fl ||| fs)
  | l => (l, 0)
/-- The fixed tree, of at most n levels. -/
def redTree (f : Nat → Nat → Nat × Sticky) : Nat → List Nat → Nat × Sticky
  | 0, l => (l.headD 0, 0)
  | n + 1, l =>
    let (vs, fl) := redLevel f l
    let (v, fs) := redTree f n vs
    (v, fl ||| fs)

/-- The group of an element. -/
def groupOf (w e : Nat) : Nat := if w = 64 then e else e * w / 32

/-- A reduction: `line e` is the index of e's line and `members k` the elements of line k, in order. -/
def vreduce (s : State) (minor : Nat) (o : OpV) (line : Nat → Nat) (count : Nat) (members : Nat → List Nat) : Out :=
  let w := vecBits o.ty
  let v := s.core.vec
  let pred := v.pred o.k.toNat
  let op := o.spec.toNat
  vtile s 0x87 minor o w (groups w) (fun r e =>
    let results := (List.range count).map (fun k => redTree (redOp o.ty op (r.rounding o.rm)) 8 ((members k).map (fun i =>
      if pred.getLsbD (governor w (groupOf w i)) then elemAt (v.tile o.a) w i else redIdentity o.ty op)))
    results.getD (line e) (0, 0))

/-- Columns of a tile at the element width. -/
def vecCols (ty : BitVec 4) : Nat := 2048 / vecBits ty

/-- `vred.r`. -/
def execVredR (o : OpV) (s : State) : Out :=
  let n := vecCols o.ty
  vreduce s 4 o (fun e => e / n) 16 (fun k => (List.range n).map (fun j => k * n + j))
/-- `vred.c`. -/
def execVredC (o : OpV) (s : State) : Out :=
  let n := vecCols o.ty
  vreduce s 5 o (fun e => e % n) n (fun k => (List.range 16).map (fun r => r * n + k))

/-! ## The Hadamard transform (R243) -/

/-- Every value of a list rounded by f, with the conditions. -/
def mapSticky (l : List (Nat × Sticky)) : List Nat × Sticky := (l.map Prod.fst, l.foldl (fun f x => f ||| x.2) 0)

/-- One stage: sums and differences at distance d, then the scaling of stages 2 and 4. -/
def hadStage (raw : Bool) (t : List Nat × Sticky) (st : Nat) : List Nat × Sticky :=
  let d := 2 ^ (st - 1)
  let at_ := fun (i : Nat) => t.1.getD i 0
  let (u, f) := mapSticky ((List.range 32).map (fun i =>
    if i / d % 2 = 0 then faddCode .f32 .rne (at_ i) (at_ (i + d)) else fsubCode .f32 .rne (at_ (i - d)) (at_ i)))
  if !raw && (st = 2 || st = 4) then
    let (v, g) := mapSticky (u.map (fun x => fmulCode .f32 .rne x 0x3F000000))
    (v, t.2 ||| f ||| g)
  else (u, t.2 ||| f)
/-- A block of 32 lanes. -/
def hadBlock (raw : Bool) (xs : List Nat) : List Nat × Sticky :=
  let t := [1, 2, 3, 4, 5].foldl (hadStage raw) (xs, 0)
  if raw then t
  else
    let (v, g) := mapSticky (t.1.map (fun x => fmulCode .f32 .rne x 0x3F3504F3))
    (v, t.2 ||| g)

/-- `vhad32`. -/
def execVhad32 (o : OpV) (s : State) : Out :=
  let v := s.core.vec
  vtile s 0x87 6 o 32 (groups 32) (fun _ e =>
    let blocks := (List.range 32).map (fun b => hadBlock (o.spec.getLsbD 0) ((List.range 32).map (fun i => elemAt (v.tile o.a) 32 (32 * b + i))))
    let (xs, fl) := blocks.getD (e / 32) ([], 0)
    (xs.getD (e % 32) 0, fl))

end Sys2Proof.Machine
end

