-- ==== Sys2Proof/Machine/VectorBreeze.lean ====
section
/-! DEFINITION. `vrand` and `vsplat` (R251, R252) and vector sketches (R268, R269). -/

namespace Sys2Proof.Machine

/-- `vrand`: the top bits of each element's draw, as an integer or as a fraction in [0, 1). -/
def execVrand (o : OpV) (s : State) : Out :=
  let w := vecBits o.ty
  vtile s 0x89 0 o w (groups w) (fun r e =>
    let z := r.draw e
    match o.ty.toNat with
    | 0 => fround .f64 .rne false (.fin false (z / 2 ^ 11) (-53) false)
    | 1 => fround .f32 .rne false (.fin false (z / 2 ^ 40) (-24) false)
    | _ => (z / 2 ^ (64 - w), 0))

/-- `vsplat` of an x register. -/
def execVsplat (o : OpV) (s : State) : Out :=
  let w := vecBits o.ty
  vtile s 0x89 1 o w (groups w) (fun _ _ => ((s.core.vec.xreg o.a.toNat).toNat % 2 ^ w, 0))

/-- `vsplat.pop`: pops at issue when an element is active; an empty register holds the engine. -/
def execVsplatPop (o : OpV) (s : State) : Out :=
  let w := vecBits o.ty
  let v := s.core.vec
  let pred := v.pred o.k.toNat
  let n := o.a.setWidth 3
  let q := s.core.stream n
  vissue s (vecTiming 0x89 1 o.ty 1 0) (fun _ =>
    if !anyActive w pred (groups w) then .done s none 0
    else if !q.bound then .fault { cause := .streamUnbound }
    else match q.elems with
      | [] => .hold s
      | x :: rest =>
        let lanes := ((vloop w pred o.z (groups w) (fun _ => (x.toNat % 2 ^ w, 0))).map Prod.fst).getD []
        .done { s with core := s.core.setElems n rest } (some (.tile (physTile o.d v.vrb) lanes)) 0)

/-- `vsplat.push`: pushes lanes 0 and 1 when bit 0 of the predicate is 1; a full register holds the engine. -/
def execVsplatPush (o : OpV) (s : State) : Out :=
  let v := s.core.vec
  let n := o.d.setWidth 3
  let q := s.core.stream n
  vissue s (vecTiming 0x89 1 0 2 0) (fun _ =>
    if !(v.pred o.k.toNat).getLsbD 0 then .done s none 0
    else if !q.bound then .fault { cause := .streamUnbound }
    else if Config.streamDepth ≤ q.elems.length then .hold s
    else .done { s with core := s.core.setElems n (q.elems ++ [BitVec.ofNat 64 (elemAt (v.tile o.a) 64 0)]) } none 0)

/-! ## `sksv` (R269) -/

/-- What one lane's run reads (R258–R261): the lane of va, vb and vc, and SPEC. -/
def sksvEnv (s : State) (o : OpV) (r : VecRun) (l : Nat) : SkEnv :=
  let v := s.core.vec
  { w := 32, ins := [elemAt (v.tile o.a) 32 l, elemAt (v.tile o.b) 32 l, elemAt (v.tile o.c) 32 l, o.spec.toNat]
    fpctl := r.task.rm
    draw := fun m => breeze r.task.kt.toNat (breezeCtr r.iter r.next l ||| m * 2 ^ 56) / 2 ^ 32
    ld := fun _ _ => .ok 0, st := fun _ _ => .ok 0 }

/-- One lane's result; out0 starts as the old lane of vd. A vector sketch cannot fault while it runs. -/
def sksvLane (im : List Word) (e : SkEnv) (old : Nat) : Nat × Sticky :=
  match skRunFor im e 32768 (skStart old 0) with
  | .done k => (k.out0 % 2 ^ 32, k.fl)
  | _ => (0, 0)

/-- `sksv`: with an active lane, a block that is not resident is reloaded while the engine holds; a backing copy that does not read is
POISON (R223, R254). -/
def execSksv (o : OpSksv) (s : State) : Out :=
  let v := s.core.vec
  match s.core.vec.run with
  | none => vissue s (.none, 0, 0) (fun _ => .done s none 0)
  | some r =>
    let b := s.taskBlock r.task o.n.toNat
    let im := (b.bind (fun p => p.2.image)).getD []
    vissue s (vecTiming 0xF4 o.n.toNat 0 0 (skLat im)) (fun r =>
      match b with
      | none => .fault { cause := .sketchUnbound }
      | some (_, b) =>
        if !anyActive 32 (v.pred o.v.k.toNat) (groups 32) then .done s none 0
        else if b.phys.isNone then (if b.badCopy then .fault { cause := .poison } else .hold s)
        else match vloop 32 (v.pred o.v.k.toNat) o.v.z (groups 32) (fun l => sksvLane im (sksvEnv s o.v r l) (elemAt (v.tile o.v.d) 32 l)) with
          | none => .done s none 0
          | some (lanes, fl) => .done s (some (.tile (physTile o.v.d v.vrb) lanes)) fl)

end Sys2Proof.Machine
end

