-- ==== Sys2Proof/Machine/VectorMem.lean ====
section
/-! DEFINITION. Vector memory instructions (R219, R244–R248): walkers, contiguous and pitched tiles, gathers and scatters,
own scratchpad and windows. -/

namespace Sys2Proof.Machine

/-- Σ i_d(u) · σ_d over the nest (R219). -/
def nestOffset : List Nat → List Int → Nat → Int
  | e :: es, st :: sts, u => ((u % e : Nat) : Int) * st + nestOffset es sts (u / e)
  | _, _, _ => 0
/-- The region and the address of walker w in kernel iteration i; none when the walker is idle or its region null. -/
def Task.walkerAt (t : Task) (i w : Nat) : Option (Region × Int) :=
  match t.vec.walkers.getD w none with
  | none => none
  | some k =>
    if k.lag ≤ i ∧ i - k.lag < t.nest then
      let r := t.regions.getD k.region (nullRegion t.core)
      if r.null then none else some (r, (r.base : Int) + nestOffset t.vec.extents k.strides (i - k.lag))
    else none

/-- The active elements of an access. -/
def activeElems (w : Nat) (pred : BitVec 1024) : List Nat := ((groups w).filter (fun g => pred.getLsbD (governor w g))).flatMap (groupElems w)

/-- The address a fault reports: in own scratchpad without the placement (DEDUCED, log 23). -/
def vecFaultAddr (s : State) (t : Task) (r : Region) (a : Int) : Word :=
  BitVec.ofInt 64 (if r.space == .spad then a - s.placement t.ctx s.core.id else a)

/-- An element's range check (R219). -/
def walkerOk (r : Region) (store : Bool) (a : Int) (n : Nat) : Bool :=
  decide (r.lo ≤ a ∧ a + n - 1 ≤ r.hi) && (if store then r.wr else (r.rd || r.cn) && r.space != .rem)

/-- Every check of a vector access before any effect (R245, R247): the region, or the fault. `addr` gives element e's address
from the walker's. -/
def vmemCheck (s : State) (t : Task) (i : Nat) (o : OpVM) (store : Bool) (misaligned : Int → Option Int) (addr : Int → Nat → Int)
    (es : List Nat) : Res (Region × Int) :=
  let n := memBytes o.size
  match t.walkerAt i o.a.toNat with
  | none => .fault { cause := .walkerRange }
  | some (r, a) =>
    let at_ := fun (c : Cause) (x : Int) => (.fault { cause := c, addr := some (vecFaultAddr s t r x) } : Res (Region × Int))
    match misaligned a with
    | some x => at_ .misalign x
    | none =>
      match es.find? (fun e => !walkerOk r store (addr a e) n) with
      | some e => at_ .walkerRange (addr a e)
      | none =>
        match if store then none else es.find? (fun e => poisoned s.core.poison (addr a e).toNat n) with
        | some e => at_ .poison (addr a e)
        | none => .ok (r, a)

/-- A load through a walker. -/
def vload (s : State) (minor : Nat) (o : OpVM) (misaligned : Int → Option Int) (addr : Int → Nat → Int) : Out :=
  let n := memBytes o.size
  let w := 8 * n
  let v := s.core.vec
  let pred := v.pred o.k.toNat
  vissue s (vecTiming 0x88 minor 0 0 0) (fun r =>
    match activeElems w pred with
    | [] => .done s none 0
    | es =>
      match vmemCheck s r.task r.iter o false misaligned addr es with
      | .fault f => .fault f
      | .stall _ => .hold s
      | .ok (_, a) =>
        let lanes := ((vloop w pred false (groups w) (fun e => (readLE s.core.spad (addr a e).toNat n, 0))).map Prod.fst).getD []
        .done s (some (.tile (physTile o.d v.vrb) lanes)) 0)

/-- Hands on the remaining remote writes of a word, in order (R222, R246): a used-up allowance, a full pair or a fence's
order holds the engine, with the number of writes sent. Each write is its window offsets and bytes. -/
def vsend (s : State) (t : Task) (n : Nat) (m : WinMap) : Nat → List (List (Nat × Byte)) → VRes
  | _, [] => .done s none 0
  | k, w :: rest =>
    if s.remoteHeld s.core.id t n m then
      .hold (s.setRun (s.core.vec.run.map (fun r => { r with sent := k })))
    else vsend (s.taskWindowWrite s.core.id t n m w false) t n m (k + 1) rest

/-- The bytes of the active elements, in ascending element order. -/
def storeBytes (v : VecEngine) (src : Reg) (w : Nat) (addr : Nat → Int) (es : List Nat) : List (List (Nat × Byte)) :=
  es.map (fun e => bytesAt (addr e).toNat (w / 8) (elemAt (v.tile src) w e))

/-- The bytes grouped by naturally aligned 64-byte unit, in ascending order of the lowest element in each. -/
def byUnit (ws : List (Nat × Byte)) : List (List (Nat × Byte)) :=
  ((ws.map (fun p => p.1 / 64)).eraseDups).map (fun u => ws.filter (fun p => p.1 / 64 = u))

/-- A store through a walker: a task write of own scratchpad (R95), or posted remote writes (R246). -/
def vstore (s : State) (minor : Nat) (o : OpVM) (misaligned : Int → Option Int) (addr : Int → Nat → Int)
    (split : List (List (Nat × Byte)) → List (List (Nat × Byte))) : Out :=
  let n := memBytes o.size
  let w := 8 * n
  let v := s.core.vec
  vissue s (vecTiming 0x88 minor 0 0 0) (fun r =>
    match activeElems w (v.pred o.k.toNat) with
    | [] => .done s none 0
    | es =>
      match vmemCheck s r.task r.iter o true misaligned addr es with
      | .fault f => .fault f
      | .stall _ => .hold s
      | .ok (reg, a) =>
        let bs := storeBytes v o.d w (addr a) es
        if reg.space == .rem then
          let k := (reg.base - 0x40000000) / 0x4000000
          let base := 0x40000000 + k * 0x4000000
          match (s.core.windows.toList.getD k {}).map with
          | none => .done s none 0
          | some m =>
            let ws := split (bs.map (fun b => b.map (fun p => (p.1 - base, p.2))))
            vsend s r.task k m r.sent (ws.drop r.sent)
        else .done { s with core := s.core.taskWrite bs.flatten (fun _ => false) } none 0)

/-- The pitch of the rows (R245). -/
def vecPitch (s : State) : Int := toSigned 32 (s.core.vec.xreg 7).toNat
/-- Element e of a tile in memory, from the walker's address (R245). -/
def tileAddr (s : State) (o : OpVM) (a : Int) (e : Nat) : Int :=
  let n := memBytes o.size
  let cols := 256 / n
  let b := a + o.off.toInt
  if o.pitch then b + (e / cols : Nat) * vecPitch s + (e % cols * n : Nat) else b + (e * n : Nat)
/-- The alignment test of `vld` and `vst`: the address that fails it. -/
def tileMisaligned (s : State) (o : OpVM) (a : Int) : Option Int :=
  let n : Int := (memBytes o.size : Nat)
  if (a + o.off.toInt) % n ≠ 0 ∨ (o.pitch ∧ vecPitch s % n ≠ 0) then some (a + o.off.toInt) else none
/-- Element e of a gather or scatter (R247). -/
def indexAddr (s : State) (o : OpVM) (a : Int) (e : Nat) : Int :=
  let n := memBytes o.size
  a + (elemAt (s.core.vec.tile (o.off.setWidth 6)) (8 * n) e * n : Nat)
/-- The alignment test of `vgather` and `vscatter`: the walker's address when it fails. -/
def indexMisaligned (o : OpVM) (a : Int) : Option Int := if a % ((memBytes o.size : Nat) : Int) ≠ 0 then some a else none

/-- `vld`. -/
def execVld (o : OpVM) (s : State) : Out := vload s 0 o (tileMisaligned s o) (tileAddr s o)
/-- `vst`. -/
def execVst (o : OpVM) (s : State) : Out := vstore s 1 o (tileMisaligned s o) (tileAddr s o) (fun bs => byUnit bs.flatten)
/-- `vgather`. -/
def execVgather (o : OpVM) (s : State) : Out := vload s 2 o (indexMisaligned o) (indexAddr s o)
/-- `vscatter`. -/
def execVscatter (o : OpVM) (s : State) : Out := vstore s 3 o (indexMisaligned o) (indexAddr s o) id

end Sys2Proof.Machine
end

