-- ==== Sys2Proof/Machine/Dispatch.lean ====
section
/-! DEFINITION. The one place where instructions and events find their meanings: one arm per constructor. -/

namespace Sys2Proof.Machine

def exec (i : Instr) (s : State) : Host.Outcome State Fault Refusal :=
  match i with
  | .nop => Sys2Proof.Machine.execNop s
  | .add o => Sys2Proof.Machine.execAdd o s
  | .sub o => Sys2Proof.Machine.execSub o s
  | .mul o => Sys2Proof.Machine.execMul o s
  | .mulh o => Sys2Proof.Machine.execMulh o s
  | .mulhn o => Sys2Proof.Machine.execMulhn o s
  | .div o => Sys2Proof.Machine.execDiv o s
  | .divn o => Sys2Proof.Machine.execDivn o s
  | .rem o => Sys2Proof.Machine.execRem o s
  | .remn o => Sys2Proof.Machine.execRemn o s
  | .and o => Sys2Proof.Machine.execAnd o s
  | .or o => Sys2Proof.Machine.execOr o s
  | .xor o => Sys2Proof.Machine.execXor o s
  | .andn o => Sys2Proof.Machine.execAndn o s
  | .shl o => Sys2Proof.Machine.execShl o s
  | .shr o => Sys2Proof.Machine.execShr o s
  | .sra o => Sys2Proof.Machine.execSra o s
  | .rol o => Sys2Proof.Machine.execRol o s
  | .ror o => Sys2Proof.Machine.execRor o s
  | .min o => Sys2Proof.Machine.execMin o s
  | .max o => Sys2Proof.Machine.execMax o s
  | .minn o => Sys2Proof.Machine.execMinn o s
  | .maxn o => Sys2Proof.Machine.execMaxn o s
  | .addo o => Sys2Proof.Machine.execAddo o s
  | .subo o => Sys2Proof.Machine.execSubo o s
  | .addi o => Sys2Proof.Machine.execAddi o s
  | .andi o => Sys2Proof.Machine.execAndi o s
  | .ori o => Sys2Proof.Machine.execOri o s
  | .xori o => Sys2Proof.Machine.execXori o s
  | .shli o => Sys2Proof.Machine.execShli o s
  | .shri o => Sys2Proof.Machine.execShri o s
  | .srai o => Sys2Proof.Machine.execSrai o s
  | .muli o => Sys2Proof.Machine.execMuli o s
  | .li o => Sys2Proof.Machine.execLi o s
  | .lih o => Sys2Proof.Machine.execLih o s
  | .lpc o => Sys2Proof.Machine.execLpc o s
  | .ext o => Sys2Proof.Machine.execExt o s
  | .extn o => Sys2Proof.Machine.execExtn o s
  | .ins o => Sys2Proof.Machine.execIns o s
  | .clz o => Sys2Proof.Machine.execClz o s
  | .ctz o => Sys2Proof.Machine.execCtz o s
  | .popc o => Sys2Proof.Machine.execPopc o s
  | .bswap o => Sys2Proof.Machine.execBswap o s
  | .seq o => Sys2Proof.Machine.execSeq o s
  | .sne o => Sys2Proof.Machine.execSne o s
  | .slt o => Sys2Proof.Machine.execSlt o s
  | .sltn o => Sys2Proof.Machine.execSltn o s
  | .sle o => Sys2Proof.Machine.execSle o s
  | .slen o => Sys2Proof.Machine.execSlen o s
  | .sel o => Sys2Proof.Machine.execSel o s
  | .seqi o => Sys2Proof.Machine.execSeqi o s
  | .slti o => Sys2Proof.Machine.execSlti o s
  | .sltni o => Sys2Proof.Machine.execSltni o s
  | .lea o => Sys2Proof.Machine.execLea o s
  | .faddF64 o => Sys2Proof.Machine.execFaddF64 o s
  | .fsubF64 o => Sys2Proof.Machine.execFsubF64 o s
  | .fmulF64 o => Sys2Proof.Machine.execFmulF64 o s
  | .fdivF64 o => Sys2Proof.Machine.execFdivF64 o s
  | .fsqrtF64 o => Sys2Proof.Machine.execFsqrtF64 o s
  | .fminF64 o => Sys2Proof.Machine.execFminF64 o s
  | .fmaxF64 o => Sys2Proof.Machine.execFmaxF64 o s
  | .fabsF64 o => Sys2Proof.Machine.execFabsF64 o s
  | .fnegF64 o => Sys2Proof.Machine.execFnegF64 o s
  | .fsgnF64 o => Sys2Proof.Machine.execFsgnF64 o s
  | .faddF32 o => Sys2Proof.Machine.execFaddF32 o s
  | .fsubF32 o => Sys2Proof.Machine.execFsubF32 o s
  | .fmulF32 o => Sys2Proof.Machine.execFmulF32 o s
  | .fdivF32 o => Sys2Proof.Machine.execFdivF32 o s
  | .fsqrtF32 o => Sys2Proof.Machine.execFsqrtF32 o s
  | .fminF32 o => Sys2Proof.Machine.execFminF32 o s
  | .fmaxF32 o => Sys2Proof.Machine.execFmaxF32 o s
  | .fabsF32 o => Sys2Proof.Machine.execFabsF32 o s
  | .fnegF32 o => Sys2Proof.Machine.execFnegF32 o s
  | .fsgnF32 o => Sys2Proof.Machine.execFsgnF32 o s
  | .fma o => Sys2Proof.Machine.execFma o s
  | .fms o => Sys2Proof.Machine.execFms o s
  | .fnma o => Sys2Proof.Machine.execFnma o s
  | .fnms o => Sys2Proof.Machine.execFnms o s
  | .fcvt o => Sys2Proof.Machine.execFcvt o s
  | .fcvti o => Sys2Proof.Machine.execFcvti o s
  | .icvtf o => Sys2Proof.Machine.execIcvtf o s
  | .feq o => Sys2Proof.Machine.execFeq o s
  | .flt o => Sys2Proof.Machine.execFlt o s
  | .fle o => Sys2Proof.Machine.execFle o s
  | .fclass o => Sys2Proof.Machine.execFclass o s
  | .beq o => Sys2Proof.Machine.execBeq o s
  | .bne o => Sys2Proof.Machine.execBne o s
  | .blt o => Sys2Proof.Machine.execBlt o s
  | .bge o => Sys2Proof.Machine.execBge o s
  | .bltn o => Sys2Proof.Machine.execBltn o s
  | .bgen o => Sys2Proof.Machine.execBgen o s
  | .jal o => Sys2Proof.Machine.execJal o s
  | .jalr o => Sys2Proof.Machine.execJalr o s
  | .loop o => Sys2Proof.Machine.execLoop o s
  | .ld o => Sys2Proof.Machine.execLd o s
  | .st o => Sys2Proof.Machine.execSt o s
  | .atomAdd o => Sys2Proof.Machine.execAtomAdd o s
  | .atomAnd o => Sys2Proof.Machine.execAtomAnd o s
  | .atomOr o => Sys2Proof.Machine.execAtomOr o s
  | .atomXor o => Sys2Proof.Machine.execAtomXor o s
  | .atomMin o => Sys2Proof.Machine.execAtomMin o s
  | .atomMax o => Sys2Proof.Machine.execAtomMax o s
  | .atomMinn o => Sys2Proof.Machine.execAtomMinn o s
  | .atomMaxn o => Sys2Proof.Machine.execAtomMaxn o s
  | .atomSwap o => Sys2Proof.Machine.execAtomSwap o s
  | .atomCas o => Sys2Proof.Machine.execAtomCas o s
  | .atomIncb o => Sys2Proof.Machine.execAtomIncb o s
  | .atomAddHbm o => Sys2Proof.Machine.execAtomAddHbm o s
  | .atomAndHbm o => Sys2Proof.Machine.execAtomAndHbm o s
  | .atomOrHbm o => Sys2Proof.Machine.execAtomOrHbm o s
  | .atomXorHbm o => Sys2Proof.Machine.execAtomXorHbm o s
  | .atomMinHbm o => Sys2Proof.Machine.execAtomMinHbm o s
  | .atomMaxHbm o => Sys2Proof.Machine.execAtomMaxHbm o s
  | .atomMinnHbm o => Sys2Proof.Machine.execAtomMinnHbm o s
  | .atomMaxnHbm o => Sys2Proof.Machine.execAtomMaxnHbm o s
  | .atomSwapHbm o => Sys2Proof.Machine.execAtomSwapHbm o s
  | .atomCasHbm o => Sys2Proof.Machine.execAtomCasHbm o s
  | .atomIncbHbm o => Sys2Proof.Machine.execAtomIncbHbm o s
  | .claim o => Sys2Proof.Machine.execClaim o s
  | .claimHbm o => Sys2Proof.Machine.execClaimHbm o s
  | .qPush o => Sys2Proof.Machine.execQPush o s
  | .qPop o => Sys2Proof.Machine.execQPop o s
  | .qBind o => Sys2Proof.Machine.execQBind o s
  | .qCount o => Sys2Proof.Machine.execQCount o s
  | .flagAdd o => Sys2Proof.Machine.execFlagAdd o s
  | .flagWait o => Sys2Proof.Machine.execFlagWait o s
  | .flagRd o => Sys2Proof.Machine.execFlagRd o s
  | .flagSet o => Sys2Proof.Machine.execFlagSet o s
  | .barArrive o => Sys2Proof.Machine.execBarArrive o s
  | .barWait o => Sys2Proof.Machine.execBarWait o s
  | .barSync o => Sys2Proof.Machine.execBarSync o s
  | .barInit o => Sys2Proof.Machine.execBarInit o s
  | .msgSend o => Sys2Proof.Machine.execMsgSend o s
  | .msgRecv o => Sys2Proof.Machine.execMsgRecv o s
  | .msgPoll o => Sys2Proof.Machine.execMsgPoll o s
  | .bufDecl o => Sys2Proof.Machine.execBufDecl o s
  | .bufFree o => Sys2Proof.Machine.execBufFree o s
  | .bufState o => Sys2Proof.Machine.execBufState o s
  | .bufFill o => Sys2Proof.Machine.execBufFill o s
  | .bufFull o => Sys2Proof.Machine.execBufFull o s
  | .bufDrain o => Sys2Proof.Machine.execBufDrain o s
  | .bufEmpty o => Sys2Proof.Machine.execBufEmpty o s
  | .bufVer o => Sys2Proof.Machine.execBufVer o s
  | .tbNew o => Sys2Proof.Machine.execTbNew o s
  | .tbReg o => Sys2Proof.Machine.execTbReg o s
  | .tbArg o => Sys2Proof.Machine.execTbArg o s
  | .tbFlag o => Sys2Proof.Machine.execTbFlag o s
  | .tbTag o => Sys2Proof.Machine.execTbTag o s
  | .tbPost o => Sys2Proof.Machine.execTbPost o s
  | .tbCancel o => Sys2Proof.Machine.execTbCancel o s
  | .twait o => Sys2Proof.Machine.execTwait o s
  | .tqState o => Sys2Proof.Machine.execTqState o s
  | .tqFree o => Sys2Proof.Machine.execTqFree o s
  | .cpBox o => Sys2Proof.Machine.execCpBox o s
  | .cpFill o => Sys2Proof.Machine.execCpFill o s
  | .cpGather o => Sys2Proof.Machine.execCpGather o s
  | .cpScatter o => Sys2Proof.Machine.execCpScatter o s
  | .shLoad o => Sys2Proof.Machine.execShLoad o s
  | .shUnload o => Sys2Proof.Machine.execShUnload o s
  | .palClaim o => Sys2Proof.Machine.execPalClaim o s
  | .palRel o => Sys2Proof.Machine.execPalRel o s
  | .palOwn o => Sys2Proof.Machine.execPalOwn o s
  | .mmaBf16 o => Sys2Proof.Machine.execMmaBf16 o s
  | .mmaF16 o => Sys2Proof.Machine.execMmaF16 o s
  | .mmaE4m3 o => Sys2Proof.Machine.execMmaE4m3 o s
  | .mmaE5m2 o => Sys2Proof.Machine.execMmaE5m2 o s
  | .mmaI8 o => Sys2Proof.Machine.execMmaI8 o s
  | .mmaMx4 o => Sys2Proof.Machine.execMmaMx4 o s
  | .mmaF32 o => Sys2Proof.Machine.execMmaF32 o s
  | .mmaF64 o => Sys2Proof.Machine.execMmaF64 o s
  | .mmaZ64 o => Sys2Proof.Machine.execMmaZ64 o s
  | .accZero o => Sys2Proof.Machine.execAccZero o s
  | .accLoad o => Sys2Proof.Machine.execAccLoad o s
  | .accDrain o => Sys2Proof.Machine.execAccDrain o s
  | .accChk o => Sys2Proof.Machine.execAccChk o s
  | .accGive o => Sys2Proof.Machine.execAccGive o s
  | .leaseSet o => Sys2Proof.Machine.execLeaseSet o s
  | .leaseGet o => Sys2Proof.Machine.execLeaseGet o s
  | .winMap o => Sys2Proof.Machine.execWinMap o s
  | .winUnmap o => Sys2Proof.Machine.execWinUnmap o s
  | .winAllow o => Sys2Proof.Machine.execWinAllow o s
  | .winStat o => Sys2Proof.Machine.execWinStat o s
  | .rpost o => Sys2Proof.Machine.execRpost o s
  | .rflag o => Sys2Proof.Machine.execRflag o s
  | .fenceC o => Sys2Proof.Machine.execFenceC o s
  | .fenceG o => Sys2Proof.Machine.execFenceG o s
  | .wqPop o => Sys2Proof.Machine.execWqPop o s
  | .wqCount o => Sys2Proof.Machine.execWqCount o s
  | .sigSub o => Sys2Proof.Machine.execSigSub o s
  | .sigRead o => Sys2Proof.Machine.execSigRead o s
  | .trapf => Sys2Proof.Machine.execTrapf s
  | .trapfAll => Sys2Proof.Machine.execTrapfAll s
  | .trap o => Sys2Proof.Machine.execTrap o s
  | .eret => Sys2Proof.Machine.execEret s
  | .crr o => Sys2Proof.Machine.execCrr o s
  | .crw o => Sys2Proof.Machine.execCrw o s
  | .crs o => Sys2Proof.Machine.execCrs o s
  | .crc o => Sys2Proof.Machine.execCrc o s
  | .ctxSaveSoft o => Sys2Proof.Machine.execCtxSaveSoft o s
  | .ctxSaveHard o => Sys2Proof.Machine.execCtxSaveHard o s
  | .ctxLoad o => Sys2Proof.Machine.execCtxLoad o s
  | .resume => Sys2Proof.Machine.execResume s
  | .yield => Sys2Proof.Machine.execYield s
  | .skBind o => Sys2Proof.Machine.execSkBind o s
  | .skUnbind o => Sys2Proof.Machine.execSkUnbind o s
  | .skWrite o => Sys2Proof.Machine.execSkWrite o s
  | .skInval o => Sys2Proof.Machine.execSkInval o s
  | .sks o => Sys2Proof.Machine.execSks o s
  | .vadd o => Sys2Proof.Machine.execVadd o s
  | .vsub o => Sys2Proof.Machine.execVsub o s
  | .vmul o => Sys2Proof.Machine.execVmul o s
  | .vmulh o => Sys2Proof.Machine.execVmulh o s
  | .vmin o => Sys2Proof.Machine.execVmin o s
  | .vmax o => Sys2Proof.Machine.execVmax o s
  | .vabs o => Sys2Proof.Machine.execVabs o s
  | .vneg o => Sys2Proof.Machine.execVneg o s
  | .vadds o => Sys2Proof.Machine.execVadds o s
  | .vsubs o => Sys2Proof.Machine.execVsubs o s
  | .vand o => Sys2Proof.Machine.execVand o s
  | .vor o => Sys2Proof.Machine.execVor o s
  | .vxor o => Sys2Proof.Machine.execVxor o s
  | .vnot o => Sys2Proof.Machine.execVnot o s
  | .vshl o => Sys2Proof.Machine.execVshl o s
  | .vshr o => Sys2Proof.Machine.execVshr o s
  | .vsra o => Sys2Proof.Machine.execVsra o s
  | .vmov o => Sys2Proof.Machine.execVmov o s
  | .vsel o => Sys2Proof.Machine.execVsel o s
  | .vfadd o => Sys2Proof.Machine.execVfadd o s
  | .vfsub o => Sys2Proof.Machine.execVfsub o s
  | .vfmul o => Sys2Proof.Machine.execVfmul o s
  | .vfma o => Sys2Proof.Machine.execVfma o s
  | .vfms o => Sys2Proof.Machine.execVfms o s
  | .vfnma o => Sys2Proof.Machine.execVfnma o s
  | .vfmin o => Sys2Proof.Machine.execVfmin o s
  | .vfmax o => Sys2Proof.Machine.execVfmax o s
  | .vfabs o => Sys2Proof.Machine.execVfabs o s
  | .vfneg o => Sys2Proof.Machine.execVfneg o s
  | .vdiv o => Sys2Proof.Machine.execVdiv o s
  | .vsqrt o => Sys2Proof.Machine.execVsqrt o s
  | .vrcp o => Sys2Proof.Machine.execVrcp o s
  | .vrsq o => Sys2Proof.Machine.execVrsq o s
  | .vexp2 o => Sys2Proof.Machine.execVexp2 o s
  | .vlog2 o => Sys2Proof.Machine.execVlog2 o s
  | .vcmp o => Sys2Proof.Machine.execVcmp o s
  | .vfcmp o => Sys2Proof.Machine.execVfcmp o s
  | .vclass o => Sys2Proof.Machine.execVclass o s
  | .kand o => Sys2Proof.Machine.execKand o s
  | .kor o => Sys2Proof.Machine.execKor o s
  | .kxor o => Sys2Proof.Machine.execKxor o s
  | .knot o => Sys2Proof.Machine.execKnot o s
  | .kmov o => Sys2Proof.Machine.execKmov o s
  | .kpop o => Sys2Proof.Machine.execKpop o s
  | .kfirst o => Sys2Proof.Machine.execKfirst o s
  | .vcvt o => Sys2Proof.Machine.execVcvt o s
  | .vqmx o => Sys2Proof.Machine.execVqmx o s
  | .vdqmx o => Sys2Proof.Machine.execVdqmx o s
  | .vrotR o => Sys2Proof.Machine.execVrotR o s
  | .vrotC o => Sys2Proof.Machine.execVrotC o s
  | .vbcR o => Sys2Proof.Machine.execVbcR o s
  | .vbcC o => Sys2Proof.Machine.execVbcC o s
  | .vredR o => Sys2Proof.Machine.execVredR o s
  | .vredC o => Sys2Proof.Machine.execVredC o s
  | .vhad32 o => Sys2Proof.Machine.execVhad32 o s
  | .vld o => Sys2Proof.Machine.execVld o s
  | .vst o => Sys2Proof.Machine.execVst o s
  | .vgather o => Sys2Proof.Machine.execVgather o s
  | .vscatter o => Sys2Proof.Machine.execVscatter o s
  | .vrand o => Sys2Proof.Machine.execVrand o s
  | .vsplat o => Sys2Proof.Machine.execVsplat o s
  | .vsplatPop o => Sys2Proof.Machine.execVsplatPop o s
  | .vsplatPush o => Sys2Proof.Machine.execVsplatPush o s
  | .sksv o => Sys2Proof.Machine.execSksv o s
  | .crFpstatWrite v taskFlags => Sys2Proof.Machine.execCrFpstatWrite v taskFlags s
  | .crCpolWrite v => Sys2Proof.Machine.execCrCpolWrite v s
  | .crTflogWrite v => Sys2Proof.Machine.execCrTflogWrite v s
  | .crStatusWrite v => Sys2Proof.Machine.execCrStatusWrite v s
  | .crCyccmpWrite v => Sys2Proof.Machine.execCrCyccmpWrite v s
  | .crFmapWrite n v => Sys2Proof.Machine.execCrFmapWrite n v s
  | .sketchReload block => Sys2Proof.Machine.execSketchReload block s
  | .vectorResultLand => Sys2Proof.Machine.execVectorResultLand s
  | .kernelIterationBoundary => Sys2Proof.Machine.execKernelIterationBoundary s
  | .holdRelease => Sys2Proof.Machine.execHoldRelease s
  | .stalledInstructionResume => Sys2Proof.Machine.execStalledInstructionResume s
  | .taskDispatch e => Sys2Proof.Machine.execTaskDispatch e s
  | .copyChunk n => Sys2Proof.Machine.execCopyChunk n s
  | .taskComplete e => Sys2Proof.Machine.execTaskComplete e s
  | .canvasLeaseGrant => Sys2Proof.Machine.execCanvasLeaseGrant s
  | .leaseEnd => Sys2Proof.Machine.execLeaseEnd s
  | .canvasCold => Sys2Proof.Machine.execCanvasCold s
  | .gustTokenTake => Sys2Proof.Machine.execGustTokenTake s
  | .rampWindowEnd => Sys2Proof.Machine.execRampWindowEnd s
  | .gustTokenAdvance => Sys2Proof.Machine.execGustTokenAdvance s
  | .preemptRequest => Sys2Proof.Machine.execPreemptRequest s
  | .cycleCompareMatch => Sys2Proof.Machine.execCycleCompareMatch s
  | .interruptTaken => Sys2Proof.Machine.execInterruptTaken s
  | .escalatedTaskFault => Sys2Proof.Machine.execEscalatedTaskFault s
  | .saveTimeout d => Sys2Proof.Machine.execSaveTimeout d s
  | .write p => Sys2Proof.Machine.execWrite p s
  | .atomic p => Sys2Proof.Machine.execAtomic p s
  | .flag p => Sys2Proof.Machine.execFlag p s
  | .msg p => Sys2Proof.Machine.execMsg p s
  | .post p => Sys2Proof.Machine.execPost p s
  | .cancel p => Sys2Proof.Machine.execCancel p s
  | .hbm p => Sys2Proof.Machine.execHbm p s
  | .ack r => Sys2Proof.Machine.execAck r s
  | .deny r => Sys2Proof.Machine.execDeny r s
  | .reply r => Sys2Proof.Machine.execReply r s
  | .retry r => Sys2Proof.Machine.execRetry r s
  | .packetResend uid => Sys2Proof.Machine.execPacketResend uid s
  | .retriedPacketResend uid => Sys2Proof.Machine.execRetriedPacketResend uid s
  | .packetHop die p resp => Sys2Proof.Machine.execPacketHop die p resp s
  | .flitReplay die p flit => Sys2Proof.Machine.execFlitReplay die p flit s
  | .laneFailure die p lane => Sys2Proof.Machine.execLaneFailure die p lane s
  | .remap die p lane flit => Sys2Proof.Machine.execRemap die p lane flit s
  | .ackremap die p lane flit => Sys2Proof.Machine.execAckremap die p lane flit s
  | .detectorThreshold die p resp => Sys2Proof.Machine.execDetectorThreshold die p resp s
  | .zephyrTokenArrival die gen => Sys2Proof.Machine.execZephyrTokenArrival die gen s
  | .tokenPass die => Sys2Proof.Machine.execTokenPass die s
  | .leeDelivery die f => Sys2Proof.Machine.execLeeDelivery die f s
  | .leeAcknowledgement die => Sys2Proof.Machine.execLeeAcknowledgement die s
  | .tokenRegeneration => Sys2Proof.Machine.execTokenRegeneration s
  | .notify fn q w => Sys2Proof.Machine.execNotify fn q w s
  | .mbxCtl fn v => Sys2Proof.Machine.execMbxCtl fn v s
  | .mailboxWrite fn off bytes => Sys2Proof.Machine.execMailboxWrite fn off bytes s
  | .mailboxRead fn off len => Sys2Proof.Machine.execMailboxRead fn off len s
  | .queueEnable fn q => Sys2Proof.Machine.execQueueEnable fn q s
  | .queuePause fn q => Sys2Proof.Machine.execQueuePause fn q s
  | .queueReset fn q => Sys2Proof.Machine.execQueueReset fn q s
  | .registerWrite fn off v => Sys2Proof.Machine.execRegisterWrite fn off v s
  | .packetFetch fn q => Sys2Proof.Machine.execPacketFetch fn q s
  | .packetRefetch fn q => Sys2Proof.Machine.execPacketRefetch fn q s
  | .launch fn q idx => Sys2Proof.Machine.execLaunch fn q idx s
  | .feed fn q idx => Sys2Proof.Machine.execFeed fn q idx s
  | .signal fn q idx => Sys2Proof.Machine.execSignal fn q idx s
  | .barrierAnd fn q idx => Sys2Proof.Machine.execBarrierAnd fn q idx s
  | .copy fn q idx => Sys2Proof.Machine.execCopy fn q idx s
  | .packetComplete fn q idx => Sys2Proof.Machine.execPacketComplete fn q idx s
  | .signalSubtract => Sys2Proof.Machine.execSignalSubtract s
  | .endOfJobFence ctx => Sys2Proof.Machine.execEndOfJobFence ctx s
  | .quantumExpiry => Sys2Proof.Machine.execQuantumExpiry s
  | .hostReadErrorCompletion fn iova len e => Sys2Proof.Machine.execHostReadErrorCompletion fn iova len e s
  | .completionTimeout fn iova len => Sys2Proof.Machine.execCompletionTimeout fn iova len s
  | .setQn fn n => Sys2Proof.Machine.execSetQn fn n s
  | .keyDelivery ct ctx w tag => Sys2Proof.Machine.execKeyDelivery ct ctx w tag s
  | .attestationRequest nonce => Sys2Proof.Machine.execAttestationRequest nonce s
  | .antiRollbackUpdate value => Sys2Proof.Machine.execAntiRollbackUpdate value s
  | .moduleReset => Sys2Proof.Machine.execModuleReset s
  | .powerOn b => Sys2Proof.Machine.execPowerOn b s
  | .thermalHold die => Sys2Proof.Machine.execThermalHold die s
  | .thermalSingleToken die => Sys2Proof.Machine.execThermalSingleToken die s
  | .thermalShutdown die => Sys2Proof.Machine.execThermalShutdown die s
  | .patrolScrub unit found => Sys2Proof.Machine.execPatrolScrub unit found s
  | .exitFromHold die => Sys2Proof.Machine.execExitFromHold die s
  | .powerLoss => Sys2Proof.Machine.execPowerLoss s
  | .leeRouteReplacement => Sys2Proof.Machine.execLeeRouteReplacement s
  | .functionEnable fn => Sys2Proof.Machine.execFunctionEnable fn s
  | .functionSettings fn cfg => Sys2Proof.Machine.execFunctionSettings fn cfg s
  | .unexpectedCompletion fn iova len => Sys2Proof.Machine.execUnexpectedCompletion fn iova len s

end Sys2Proof.Machine
end

