-- ==== Sys2Proof/Machine/Sideband.lean ====
section
/-! DEFINITION. What the outside reads: the sideband (R405, R409), the registers of BAR0 (R350, R397, R409). A read changes nothing and is
no step of the module; it is a function of the state. Also what is left of the host's requests after a failed start. -/

namespace Sys2Proof.Machine

/-! ## The sideband (R405) -/

/-- Cycles of the clock in an hour (R5). -/
def cyclesPerHour : Nat := 1800000000 * 3600
/-- Power-on hours, all starts together. -/
def State.powerOnHours (s : State) : Nat := (s.boot.onCycles + s.sched.now) / cyclesPerHour
/-- A link direction as the sideband shows it: die, port, whether it goes out of the module, DOWN, lanes remapped. -/
structure LinkView where
  die : Nat
  port : Port
  out : Bool
  down : Bool
  remapped : List Nat
  deriving DecidableEq, Repr
/-- The items of R405: the image that failed verified boot, the cause of a failed start, hours; the record in force; temperatures of each
die, power and hold counters; the counters of each stack, corrected and uncorrectable; links and `CR_LEECNT`; certificate and report. -/
structure SidebandView where
  bootImage : Option Nat
  bringup : Option BootFailure
  hours : Nat
  record : List Byte
  temperatures : List (List Nat)
  power : Nat
  holds : List Nat
  memory : List (List (BitVec 32 × BitVec 32))
  links : List LinkView
  leecnt : List (BitVec 32)
  certificate : List Byte
  report : List Byte
  deriving DecidableEq, Repr

def State.linkViews (s : State) : List LinkView :=
  let view := fun (d : Nat) (p : Port) (out : Bool) => let l := (s.dieAt d).dir ⟨p, out⟩; LinkView.mk d p out l.down l.failed
  (List.range s.dies).flatMap (fun d => linkPorts.flatMap (fun p => view d p false :: (if s.leaves d p then [view d p true] else [])))
/-- The four junction sensors of die d and the module's power, from what the sensors show at the moment (R404). -/
def State.dieTemperatures (s : State) (d : Nat) : List Nat := (List.range 4).map (fun i => Config.sensor s.sched.now (4 * d + i))
def State.modulePower (s : State) : Nat := Config.sensor s.sched.now 16
/-- The image both copies of which failed, when that was the cause. -/
def BootFailure.imageNo : BootFailure → Option Nat
  | .image n => some n
  | _ => none
/-- What the sideband shows of a module with power. -/
def State.sideband (s : State) : SidebandView :=
  let dies := List.range s.dies
  { bootImage := s.boot.failed.bind BootFailure.imageNo, bringup := s.boot.failed, hours := s.powerOnHours
    record := (s.boot.inForce.map RecordHalf.bytes).getD []
    temperatures := dies.map s.dieTemperatures, power := s.modulePower, holds := dies.map (fun d => (s.dieAt d).holdCount)
    memory := dies.map (fun d => let k := s.dieAt d; [(k.corrected[0], k.uncorrected[0]), (k.corrected[1], k.uncorrected[1])])
    links := s.linkViews, leecnt := dies.map (fun d => (s.dieAt d).leecnt), certificate := s.boot.certificate, report := s.boot.report }

/-! ## BAR0 reads (R350, R397, R409) -/

/-- The answer to a 64-bit read of BAR0 of a function: none is Unsupported Request, or no link. After a failed verified boot only the PF
is there and reads zero; after another failure every request is unsupported (DESIGN CHOICE, log 87). -/
def State.readBar0 (s : State) (fn off : Nat) : Option Word :=
  if !s.boot.powered then none
  else match s.boot.failed with
    | some (.image _) => if fn = 0 then some 0 else none
    | some _ => none
    | none => if s.portOpen fn then some (s.bar0 fn off) else none

/-! ## After a failed start (R409) -/

/-- The host's requests and the PF's services: what reaches the module through PCI Express. -/
def hostRequest : Instr → Bool
  | .notify .. => true
  | .mbxCtl .. => true
  | .queueEnable .. => true
  | .queuePause .. => true
  | .queueReset .. => true
  | .registerWrite .. => true
  | .mailboxWrite .. => true
  | .mailboxRead .. => true
  | .setQn .. => true
  | .functionEnable .. => true
  | .functionSettings .. => true
  | .keyDelivery .. => true
  | .antiRollbackUpdate .. => true
  | _ => false
/-- A request over PCI Express is answered with Unsupported Request. A request for a report, which the sideband takes too, is served while the
images run; after a failed verified boot or step 1 it gets no answer (DESIGN CHOICE, log 87). -/
def State.unserved (s : State) (i : Instr) : Option State :=
  if hostRequest i then some { s with host := { s.host with unsupported := s.host.unsupported + 1 } }
  else match i with
    | .attestationRequest _ => if s.boot.failed = some .record then none else some s
    | _ => none

end Sys2Proof.Machine
end

