-- ==== Sys2Proof/Machine/Step.lean ====
section
/-! DEFINITION. One step of the module: who moves (DESIGN CHOICE, log 2), the boundary rules of a control core (R377, R168), fetch and
decode (R48, R62), the vector engine's issue (R50, R218, R220), and the events that come about (DESIGN CHOICE, log 3). -/

namespace Sys2Proof.Machine

/-- Whether an outcome is a next state. -/
def isNext (o : Out) : Bool := match o with
  | .next _ => true
  | _ => false

/-- The interrupts that are pending and enabled while they may be taken (R374, R377). -/
def interruptReady (c : Core) : Bool :=
  let t := c.status
  t.ie && !t.td &&
  ((t.ipp && t.im.getLsbD 0) || (t.ipc && t.im.getLsbD 1) || (!c.inbox.isEmpty && t.im.getLsbD 2))


/-- The fetch of the word at the PC (R48): steps 3–6 of R163 as a load of 8 bytes; from any address outside own scratchpad it faults with
SPAD_RANGE in both modes (R48, R62; DEDUCED, log 86). -/
def fetch (s : State) : Res Word :=
  let pc := s.core.pc.toNat
  if pc % 8 != 0 ∨ 0x400000 ≤ pc then .fault { cause := .spadRange }
  else (spadCheck s.core s.cluster.tasks pc 8 .fetch).bind fun pa => .ok (readD s.core.spad pa)

/-- The acting core goes on in its program: with a sketch that has begun to commit (R265) or has issued and stands, without reading its
word again; else with the word at the PC. -/
noncomputable def runTurn (s : State) : Out :=
  match s.core.sketch, s.core.skIssue with
  | some r, _ => sksCommit s r
  | none, some g => exec (.sks g.op) s
  | none, none =>
    match fetch s with
    | .fault f => .next (s.takeFault f)
    | .stall w => .next (s.stalled w)
    | .ok w =>
      match decodeControl w with
      | none => .next (s.takeFault { cause := .illegalOp })
      | some i => exec i s

/-- The acting core moves. -/
noncomputable def coreTurn (s : State) : Out :=
  let c := s.core
  if !waitHolds c && !c.status.td && c.dueFault.isSome then exec .escalatedTaskFault s
  else if !waitHolds c && interruptReady c then exec .interruptTaken s
  else if c.await.isSome then .next s
  else if c.stall.isSome then exec .stalledInstructionResume s
  else match c.run with
    | .running => runTurn s
    | _ => .next s

/-- The acting core's vector engine moves: a result lands when its cycle has come, a kernel iteration ends after its last
word, a hold ends, otherwise the next word issues. A task that has issued and landed everything waits for TASK_COMPLETE. -/
noncomputable def vectorTurn (s : State) : Out :=
  match s.core.vec.run with
  | none => .next s
  | some r =>
    match r.move with
    | .land => exec .vectorResultLand s
    | .boundary => exec .kernelIterationBoundary s
    | .hold => exec .holdRelease s
    | .done => .next s
    | .issue w =>
      match decodeVector w with
      | none => .next s
      | some i => exec i s

/-- The event that delivers a request packet (R278). -/
noncomputable def deliveryOf (p : Packet) : Instr :=
  match p.body with
  | .write .. => Instr.write p
  | .atomic .. => Instr.atomic p
  | .flag .. => Instr.flag p
  | .msg _ => Instr.msg p
  | .post .. => Instr.post p
  | .cancel => Instr.cancel p
  | .hbm .. => Instr.hbm p
  | .hbmRead .. => Instr.hbm p
  | .hbmWrite .. => Instr.hbm p
/-- The event that a response's arrival is (R278). -/
noncomputable def arrivalOf (r : Response) : Instr :=
  match r.kind with
  | .ack => Instr.ack r
  | .deny _ => Instr.deny r
  | .reply _ => Instr.reply r
  | .data .. => Instr.reply r
  | .retry => Instr.retry r
  | .dropped => Instr.retry r
/-- The engines a core's turn can see: its own vector engine and those of its cluster. -/
def enginesOf (core : Nat) : List Engine := [.vector core, .copy 0, .copy 1, .shaper, .canvas, .fabric]
noncomputable def engineEvents (core : Nat) : List Instr :=
  List.append ((enginesOf core).map Instr.taskDispatch) ((enginesOf core).map Instr.taskComplete)
noncomputable def clusterEvents : List Instr :=
  [Instr.copyChunk 0, Instr.copyChunk 1, Instr.canvasLeaseGrant, Instr.leaseEnd, Instr.canvasCold, Instr.gustTokenTake,
   Instr.rampWindowEnd, Instr.gustTokenAdvance, Instr.cycleCompareMatch, Instr.signalSubtract, Instr.quantumExpiry, Instr.tokenRegeneration]
/-- Events of a die's router and resequencer; a drained flow is delivered at the die it is for (R283). -/
noncomputable def dieEvents (s : State) (d : Nat) : List Instr :=
  let k := s.dieAt d
  List.flatten [k.resequencer.map deliveryOf, k.arrived.map arrivalOf, k.dropped.map Instr.packetResend,
    k.retried.map (fun p => Instr.retriedPacketResend p.1),
    k.bufs.map (fun b => Instr.packetHop d b.port b.resp),
    k.bufs.map (fun b => Instr.detectorThreshold d b.port b.resp),
    [Instr.tokenPass d, Instr.leeAcknowledgement d, Instr.zephyrTokenArrival d s.modul.zephyr.gen],
    k.lee.toList.flatMap (fun f => (s.dieIndex (flowDst f)).toList.map (fun e => Instr.leeDelivery e f))]
/-- Those of every die of the module, with or without clusters (R21). -/
noncomputable def fabricEvents (s : State) : List Instr := (List.range s.dies).flatMap (dieEvents s)
noncomputable def packetEvents (fn q idx : Nat) : List Instr :=
  [Instr.launch fn q idx, Instr.feed fn q idx, Instr.signal fn q idx, Instr.barrierAnd fn q idx, Instr.copy fn q idx,
   Instr.packetComplete fn q idx]
noncomputable def queueEvents (s : State) : List Instr :=
  s.host.functions.flatMap (fun f => f.queues.flatMap (fun k =>
    Instr.packetFetch f.fn k.q :: Instr.packetRefetch f.fn k.q :: k.pkts.flatMap (fun p => packetEvents f.fn k.q p.idx)))
/-- The save that a core is in times out into its own destination register (R392). -/
noncomputable def saveEvents (s : State) : List Instr :=
  match fetch s with
  | .ok w => match decodeControl w with
    | some (.ctxSaveHard o) => [Instr.saveTimeout o.d]
    | _ => []
  | _ => []
/-- Remaps in progress and replays asked for on a die (R276, R277). -/
noncomputable def linkEvents (s : State) (d : Nat) : List Instr :=
  let dirs := (s.dieAt d).links.map (fun l => (l.1, false, l.2)) ++ (s.dieAt d).linksOut.map (fun l => (l.1, true, l.2))
  dirs.flatMap (fun (p, out, l) => l.replay.toList.map (Instr.flitReplay d ⟨p, out⟩) ++ match l.pending with
    | some (lane, some flit) => [Instr.ackremap d ⟨p, out⟩ lane flit]
    | some (lane, none) => [Instr.remap d ⟨p, out⟩ lane (Config.choice s.sched.tick)]
    | none => [])
/-- Remaps (R277), resets that wait (R357), blocks to reload (R254), lee routes to replace (R283). -/
noncomputable def serviceEvents (s : State) : List Instr :=
  List.flatten [(List.range s.dies).flatMap (linkEvents s),
    s.host.functions.flatMap (fun f => (f.queues.filter (fun k => k.resetting)).map (fun k => Instr.queueReset f.fn k.q)),
    (s.sketchBook.blocks.filter (fun b => s.reloadWanted b.1)).map (fun b => Instr.sketchReload b.1),
    if (List.range s.dies).any (fun d => (s.dieAt d).leeBroken) then [Instr.leeRouteReplacement] else []]
/-- Events inside the module that may come about on their own; those whose meaning answers a next state are enabled. -/
noncomputable def ownEvents (s : State) : List Instr :=
  List.flatten [engineEvents s.core.id.core, clusterEvents, fabricEvents s, queueEvents s, saveEvents s, serviceEvents s,
    s.modul.jobs.map (fun j => Instr.endOfJobFence j.ctx)]

/-- An event comes about: one of those of the module that are enabled, or the next one of the agenda (DESIGN CHOICE, log 2, 3). -/
noncomputable def agendaTurn (s : State) : Out :=
  let own := (ownEvents s).filter (fun i => isNext (exec i s))
  match s.sched.events with
  | [] =>
    match own[Config.pick s.sched.tick % own.length]? with
    | some i => exec i s
    | none => .next s
  | e :: rest =>
    match own[Config.pick s.sched.tick % (own.length + 1)]? with
    | some i => exec i s
    | none => exec e { s with sched := { s.sched with events := rest } }

/-- The turn that a number of the schedule names. -/
def turnOf (n : Nat) : Turn :=
  match n with
  | 0 => .core
  | 1 => .vector
  | 2 => .agenda
  | 3 => .cells
  | 4 => .host
  | n + 5 => .switch n

/-- After a step: one more step counted, the ghost clock moved on (DESIGN CHOICE, log 1), and who moves next (DESIGN CHOICE, log 2). -/
noncomputable def State.ticked (s : State) : State :=
  { s with sched := { s.sched with
      tick := s.sched.tick + 1, now := s.sched.now + 1 + Config.delay s.sched.tick, turn := turnOf (Config.nextTurn s.sched.tick) } }

/-- The move of a state with power and firmware. -/
noncomputable def move (s : State) : Out :=
  match s.sched.turn with
  | .core => coreTurn s
  | .vector => vectorTurn s
  | .agenda => agendaTurn s
  | .cells => .next s.nextUpset
  | .host => .next s.sendHost
  | .switch n =>
    match s.coreIds[n]? with
    | some id => .next (s.actAs id)
    | none => .next s

/-- Without power only POWER_ON comes about (R399, R404, R405). -/
noncomputable def darkMove (s : State) : Out :=
  match s.sched.events with
  | .powerOn b :: rest => exec (.powerOn b) { s with sched := { s.sched with events := rest } }
  | _ => .fault .unpowered
/-- After a failed start nothing is launched: a request of the host gets Unsupported Request, the rest of the agenda comes about (R404,
R405, R409). -/
noncomputable def failedMove (s : State) : Out :=
  match s.sched.events with
  | [] => .next s
  | e :: rest =>
    let t := { s with sched := { s.sched with events := rest } }
    match t.unserved e with
    | some u => .next u
    | none => exec e t

/-- One step of the module. -/
noncomputable def step (s : State) : Host.Outcome State Fault Refusal :=
  let o := if !s.boot.powered then darkMove s else if s.boot.failed.isSome then failedMove s else move s
  match o with
  | .next t => .next t.ticked
  | .fault f => .fault f
  | .refused r => .refused r

/-- The job that a word placed from outside belongs to (DESIGN CHOICE, log 6). -/
def placedJob (id : CoreId) : Job :=
  { ctx := 0, fjob := 0, fn := 0, queue := 0, pkt := 0, cores := [id], grant := Config.spadBytes, acc := 0, pal := 0, signals := [],
    queues := [], skw := false, place := [(id, 0)], saves := [], checkpoints := [], ended := [], report := none, killed := false,
    jobCount := 0, corrupt := false, sent := [] }

/-- The vector task that runs a word placed from outside. -/
def placedTask (core : Nat) : Task :=
  { id := 0, ctx := 0, core := core, remote := false, srcDie := 0, fjob := 0,
    op := .vec { body := 0, n := 1, extents := [1], stages := 1, walkers := List.replicate 8 none, args := List.replicate 8 0 },
    phase := .dispatched, waits := [], regions := [], tag := 0, pri := 0, cls := 0, flag := none, rm := 0, kt := 0, bindings := [],
    policy := 2, count := 0, flags := 0, resume := .start, stop := false, entries := 0, orders := [] }

/-- s with an instruction placed where the next step fetches (DESIGN CHOICE, log 6): a control word at address 0 of the acting core's
scratchpad, with the core running a job in U mode; a vector word as the body of a running task. -/
def State.withFetchWord (s : State) (_nbits w : Nat) : State :=
  let word : Word := BitVec.ofNat 64 w
  let c := s.core
  let c1 := { c with
    pc := 0, run := .running, stall := none, issued := none, await := none, sketch := none, saving := false, escalated := [], bufs := [],
    status := { c.status with mode := false, ie := false, td := false, cv := true }
    early := 0, stale := [], aside := none, cid := 0, spbase := 0, grant := Config.spadBytes, poison := []
    spad := writeLE c.spad 0 8 word.toNat }
  let x : CtxCluster := { ctx := 0, fjob := 0, cores := Vector.replicate 4 { launched := true } }
  let t := placedTask c.id.core
  let vector := onVectorEngine word && (majorOf word).toNat != 0
  let run : VecRun := { task := t, body := [word], iter := 0, next := 0, clock := 0, arith := 0, perm := 0, ldst := 0, flights := [], held := false }
  { s with
    core := if vector then { c1 with vec := { c1.vec with run := some run, k := c1.vec.k.set 0 (BitVec.allOnes 1024) } } else c1
    cluster := { s.cluster with tasks := if vector then [t] else [], ctxs := x :: s.cluster.ctxs.filter (fun y => y.ctx ≠ 0) }
    modul := { s.modul with jobs := placedJob c.id :: s.modul.jobs.filter (fun j => j.ctx ≠ 0) }
    boot := { s.boot with powered := true, failed := none }
    sched := { s.sched with turn := if vector then .vector else .core } }

end Sys2Proof.Machine
end

