-- ==== Sys2Proof/Safety.lean ====
section
/-! DEFINITION. What claims are stated in: canonical memories, the anti-rollback order of the boot state, what a step keeps, the
state an instruction leaves when it goes on, and what is left alone. -/

namespace Sys2Proof.Machine

/-- A palette slot with its side store, and an accumulator tile, in canonical form. -/
def Slot.wf (v : Slot) : Bool := cwf v.data && cwf v.scales && cwf v.cs && cwf v.errors
def AccTile.wf (t : AccTile) : Bool := cwf t.data && cwf t.poison
/-- A core's scratchpad with its marks. -/
def Core.memWf (c : Core) : Bool := cwf c.spad && cwf c.poison
/-- The slots and tiles of a cluster, and the free slots it keeps for contexts. -/
def Cluster.memWf (k : Cluster) : Bool :=
  k.slots.toList.all Slot.wf && k.tiles.toList.all AccTile.wf && k.ctxs.all (fun x => x.freeSlots.all (fun p => p.2.wf))
/-- Slots, tiles and the spilled scratchpad of a save area. -/
def HardRecord.memWf (h : HardRecord) : Bool :=
  h.tiles.all (fun p => p.2.wf) && h.slots.all (fun p => p.2.wf) && h.image.all (fun m => cwf m.1 && cwf m.2)
def SaveArea.memWf (a : SaveArea) : Bool := a.hard.all HardRecord.memWf && a.part.all (fun p => p.slots.all (fun q => q.2.wf))
def Job.memWf (j : Job) : Bool := j.saves.all (fun p => p.2.memWf) && j.checkpoints.all (fun p => p.2.memWf)
/-- Every byte store of the machine is in canonical form: scratchpads, palette slots, accumulator tiles, what saves hold of them, HBM, host
memory, and the marks of each. -/
def State.memWf (s : State) : Bool :=
  s.core.memWf && s.parked.all Core.memWf && s.cluster.memWf && s.parkedClusters.all Cluster.memWf && s.modul.jobs.all Job.memWf &&
  cwf s.modul.hbm && cwf s.modul.hbmKey && cwf s.modul.hbmPoison && cwf s.host.mem && cwf s.host.readPoison && cwf s.host.epMarks

/-- The anti-rollback order (R397): the counter that the boot ROM checks never passes the security version that runs, and a die has 64 fuses. -/
def Boot.ordered (b : Boot) : Bool := decide (b.rollback ≤ b.version) && b.fuses.toList.all (fun n => decide (n ≤ 64))

/-- A step keeps a property of the state. -/
def KeptByStep (p : State → Prop) : Prop := ∀ s t, p s → step s = .next t → p t

/-! ## The state after an instruction. Each of these gives every field, so it says the frame too. -/

/-- The next word is next, and the instruction is over (R48). -/
def State.afterNext (s : State) : State :=
  { s with core := { s.core with pc := s.core.pc + 8, stall := none, issued := none } }
/-- The registers with one written; s0 is never written (R55, R137). -/
def Core.regsWith (c : Core) (d : Reg) (v : Word) : Vector Word 64 := if d = 0 then c.regs else c.regs.set d.toNat v d.isLt
/-- sd takes v and the next word is next. -/
def State.afterWrite (s : State) (d : Reg) (v : Word) : State :=
  { s with core := { s.core with regs := s.core.regsWith d v, pc := s.core.pc + 8, stall := none, issued := none } }
/-- As `afterWrite`, with sticky bits ORed into `CR_FPSTAT` (R34, R141). -/
def State.afterFlags (s : State) (d : Reg) (v : Word) (f : BitVec 7) : State :=
  { s with core := { s.core with regs := s.core.regsWith d v, pc := s.core.pc + 8, stall := none, issued := none
                                 cr := { s.core.cr with fpstat := s.core.cr.fpstat ||| f } } }
/-- sd takes v and the word at an address is next. -/
def State.afterJump (s : State) (d : Reg) (v : Word) (pc : BitVec 32) : State :=
  { s with core := { s.core with regs := s.core.regsWith d v, pc := pc, stall := none, issued := none } }
/-- As `afterNext`, with the core changed further. -/
def State.afterNextWith (s : State) (f : Core → Core) : State := { s.afterNext with core := f s.afterNext.core }
/-- The even pair sd, s(sd + 1) takes two values (R174, R179). -/
def State.afterPair (s : State) (d : Reg) (lo hi : Word) : State :=
  { s.afterWrite d lo with core := { (s.afterWrite d lo).core with regs := (s.afterWrite d lo).core.regsWith (d + 1) hi } }
/-- The core after a wait of its own has ended: after an acquire no later load reads what was there before, after a plain wait one may
go before the packet writes that no load has seen (R183, R345; DESIGN CHOICE, log 78). -/
def State.afterWait (s : State) (acq : Bool) : State :=
  { s with core := { s.core with early := if acq then 0 else s.core.stale.length, stale := if acq then [] else s.core.stale } }
/-- The instruction waits (R168): nothing else has changed. -/
def State.waitsOn (s : State) (w : Wait) : State := { s with core := { s.core with stall := some w } }

/-! ## Named bits of `CR_FPSTAT` (R373) and numbers -/

/-- The integer conditions: overflow is bit 5, divide by zero is bit 6. -/
def ioBit : BitVec 7 := 0x20#7
def idzBit : BitVec 7 := 0x40#7
/-- A signed result that 64 bits cannot hold (R143). -/
def overflows (v : Int) : Prop := v < -(2 ^ 63) ∨ 2 ^ 63 ≤ v
/-- The bits of a word that are one. -/
def onesOf (w : Word) : List Nat := (List.range 64).filter (fun i => w.getLsbD i)

/-! ## What is left alone -/

/-- Every byte of every scratchpad, of HBM and of host memory reads as before. -/
def SameBytes (s t : State) : Prop :=
  (∀ id a, cget (t.coreAt id).spad a = cget (s.coreAt id).spad a) ∧
  (∀ a, cget t.modul.hbm a = cget s.modul.hbm a) ∧ (∀ a, cget t.host.mem a = cget s.host.mem a)
/-- The acting core stands in its own cluster and die. -/
def State.placed (s : State) : Prop :=
  s.cluster.die = s.core.id.die ∧ s.cluster.clu = s.core.id.clu ∧ s.die.die = s.core.id.die
/-- The core has seen the packet writes up to the last that shares an aligned 8 bytes with n bytes at a (R165; DESIGN CHOICE, log 78); the
bytes of its scratchpad are as before. -/
def Core.seesAt (c : Core) (a n : Nat) : Core := c.see (c.upTo ((List.range n).map (fun i => a + i)))
/-- Everything is as before but what a load draws a free value from, and which packet writes the core has not seen (DESIGN CHOICE, log 78). -/
def SameButRead (s t : State) : Prop :=
  { t with core := { t.core with stale := s.core.stale, early := s.core.early }, modul := { t.modul with free := s.modul.free } } = s
/-- Everything outside the acting core is as before. -/
def SameOutside (s t : State) : Prop := { t with core := s.core } = s

end Sys2Proof.Machine
end

