-- ==== Sys2Proof/Certificates/Slice0/Obligations.lean ====
section
/-! DEFINITION. The statements about the model, from the numbered rules of the spec: reset and whole-machine rules, encodings,
then the instructions and events family by family. Where a statement gives the next state as one record, every field that
it does not set is the field of the state before. -/

open Sys2Proof Sys2Proof.Machine

/-! ## Integer instructions of the control core (R143–R149) -/

/-- R143: sums, differences, products, minima and maxima, over the registers' values as signed and unsigned numbers; `addo`
and `subo` set the integer overflow bit exactly when the signed result does not fit. Completion and frame are the record. -/
def integerArithmetic : Prop :=
  ∀ (s : State) (o : OpRRR), let a := s.rd o.a; let b := s.rd o.b
    exec (.add o) s = .next (s.afterWrite o.d (BitVec.ofNat 64 (a.toNat + b.toNat))) ∧
    exec (.sub o) s = .next (s.afterWrite o.d (BitVec.ofInt 64 (a.toInt - b.toInt))) ∧
    exec (.mul o) s = .next (s.afterWrite o.d (BitVec.ofNat 64 (a.toNat * b.toNat))) ∧
    exec (.mulh o) s = .next (s.afterWrite o.d (BitVec.ofInt 64 (a.toInt * b.toInt / 2 ^ 64))) ∧
    exec (.mulhn o) s = .next (s.afterWrite o.d (BitVec.ofNat 64 (a.toNat * b.toNat / 2 ^ 64))) ∧
    exec (.min o) s = .next (s.afterWrite o.d (BitVec.ofInt 64 (min a.toInt b.toInt))) ∧
    exec (.max o) s = .next (s.afterWrite o.d (BitVec.ofInt 64 (max a.toInt b.toInt))) ∧
    exec (.minn o) s = .next (s.afterWrite o.d (BitVec.ofNat 64 (min a.toNat b.toNat))) ∧
    exec (.maxn o) s = .next (s.afterWrite o.d (BitVec.ofNat 64 (max a.toNat b.toNat))) ∧
    (∀ f, f = ioBit ∧ overflows (a.toInt + b.toInt) ∨ f = 0 ∧ ¬ overflows (a.toInt + b.toInt) →
      exec (.addo o) s = .next (s.afterFlags o.d (BitVec.ofInt 64 (a.toInt + b.toInt)) f)) ∧
    (∀ f, f = ioBit ∧ overflows (a.toInt - b.toInt) ∨ f = 0 ∧ ¬ overflows (a.toInt - b.toInt) →
      exec (.subo o) s = .next (s.afterFlags o.d (BitVec.ofInt 64 (a.toInt - b.toInt)) f))

/-- R143: the logical instructions bit by bit, and the shifts and rotations by the low 6 bits of sb. -/
def logicAndShifts : Prop :=
  ∀ (s : State) (o : OpRRR), let a := s.rd o.a; let b := s.rd o.b; let n := b.toNat % 64
    (∃ v, exec (.and o) s = .next (s.afterWrite o.d v) ∧ ∀ i, v.getLsbD i = (a.getLsbD i && b.getLsbD i)) ∧
    (∃ v, exec (.or o) s = .next (s.afterWrite o.d v) ∧ ∀ i, v.getLsbD i = (a.getLsbD i || b.getLsbD i)) ∧
    (∃ v, exec (.xor o) s = .next (s.afterWrite o.d v) ∧ ∀ i, v.getLsbD i = (a.getLsbD i != b.getLsbD i)) ∧
    (∃ v, exec (.andn o) s = .next (s.afterWrite o.d v) ∧ ∀ i, v.getLsbD i = (a.getLsbD i && !b.getLsbD i)) ∧
    exec (.shl o) s = .next (s.afterWrite o.d (BitVec.ofNat 64 (a.toNat * 2 ^ n))) ∧
    exec (.shr o) s = .next (s.afterWrite o.d (BitVec.ofNat 64 (a.toNat / 2 ^ n))) ∧
    exec (.sra o) s = .next (s.afterWrite o.d (BitVec.ofInt 64 (a.toInt / 2 ^ n))) ∧
    (∃ v, exec (.rol o) s = .next (s.afterWrite o.d v) ∧ ∀ i < 64, v.getLsbD ((i + n) % 64) = a.getLsbD i) ∧
    (∃ v, exec (.ror o) s = .next (s.afterWrite o.d v) ∧ ∀ i < 64, v.getLsbD i = a.getLsbD ((i + n) % 64))

/-- R54, R145: the immediate forms, with the 28-bit immediate sign-extended, and the shifts by a constant. -/
def immediateForms : Prop :=
  (∀ (s : State) (o : OpRRI), let a := s.rd o.a; let m := BitVec.ofInt 64 o.imm.toInt
    exec (.addi o) s = .next (s.afterWrite o.d (BitVec.ofInt 64 (a.toInt + o.imm.toInt))) ∧
    exec (.muli o) s = .next (s.afterWrite o.d (BitVec.ofInt 64 (a.toInt * o.imm.toInt))) ∧
    exec (.andi o) s = .next (s.afterWrite o.d (a &&& m)) ∧
    exec (.ori o) s = .next (s.afterWrite o.d (a ||| m)) ∧
    exec (.xori o) s = .next (s.afterWrite o.d (a ^^^ m))) ∧
  (∀ (s : State) (o : OpShift), let a := s.rd o.a
    exec (.shli o) s = .next (s.afterWrite o.d (BitVec.ofNat 64 (a.toNat * 2 ^ o.sh.toNat))) ∧
    exec (.shri o) s = .next (s.afterWrite o.d (BitVec.ofNat 64 (a.toNat / 2 ^ o.sh.toNat))) ∧
    exec (.srai o) s = .next (s.afterWrite o.d (BitVec.ofInt 64 (a.toInt / 2 ^ o.sh.toNat))))

/-- R144: division by zero gives all ones or the dividend and sets its bit; −2^63 / −1 gives −2^63 with remainder 0 and sets
the overflow bit of `div` only; otherwise quotients truncate toward zero, and quotient and remainder make up the dividend. -/
def integerDivision : Prop :=
  ∀ (s : State) (o : OpRRR), let a := s.rd o.a; let b := s.rd o.b
    (b = 0 →
      exec (.div o) s = .next (s.afterFlags o.d (BitVec.allOnes 64) idzBit) ∧
      exec (.divn o) s = .next (s.afterFlags o.d (BitVec.allOnes 64) idzBit) ∧
      exec (.rem o) s = .next (s.afterFlags o.d a idzBit) ∧
      exec (.remn o) s = .next (s.afterFlags o.d a idzBit)) ∧
    (a.toInt = -(2 ^ 63) ∧ b.toInt = -1 →
      exec (.div o) s = .next (s.afterFlags o.d a ioBit) ∧
      exec (.rem o) s = .next (s.afterFlags o.d 0 0)) ∧
    (b ≠ 0 →
      exec (.divn o) s = .next (s.afterFlags o.d (BitVec.ofNat 64 (a.toNat / b.toNat)) 0) ∧
      exec (.remn o) s = .next (s.afterFlags o.d (BitVec.ofNat 64 (a.toNat % b.toNat)) 0)) ∧
    (b ≠ 0 ∧ ¬ (a.toInt = -(2 ^ 63) ∧ b.toInt = -1) →
      ∃ q r : Int, a.toInt = q * b.toInt + r ∧ |r| < |b.toInt| ∧ (r = 0 ∨ r.sign = a.toInt.sign) ∧
        exec (.div o) s = .next (s.afterFlags o.d (BitVec.ofInt 64 q) 0) ∧
        exec (.rem o) s = .next (s.afterFlags o.d (BitVec.ofInt 64 r) 0))

/-- R148: comparisons write 1 or 0; `sel` picks by sc. -/
def comparisonsAndSelect : Prop :=
  (∀ (s : State) (o : OpRRR), let a := s.rd o.a; let b := s.rd o.b
    exec (.seq o) s = .next (s.afterWrite o.d (if a.toNat = b.toNat then 1 else 0)) ∧
    exec (.sne o) s = .next (s.afterWrite o.d (if a.toNat = b.toNat then 0 else 1)) ∧
    exec (.slt o) s = .next (s.afterWrite o.d (if a.toInt < b.toInt then 1 else 0)) ∧
    exec (.sltn o) s = .next (s.afterWrite o.d (if a.toNat < b.toNat then 1 else 0)) ∧
    exec (.sle o) s = .next (s.afterWrite o.d (if a.toInt ≤ b.toInt then 1 else 0)) ∧
    exec (.slen o) s = .next (s.afterWrite o.d (if a.toNat ≤ b.toNat then 1 else 0))) ∧
  (∀ (s : State) (o : OpRRI), let a := s.rd o.a
    exec (.seqi o) s = .next (s.afterWrite o.d (if a.toInt = o.imm.toInt then 1 else 0)) ∧
    exec (.slti o) s = .next (s.afterWrite o.d (if a.toInt < o.imm.toInt then 1 else 0)) ∧
    exec (.sltni o) s = .next (s.afterWrite o.d (if a.toNat < (BitVec.ofInt 64 o.imm.toInt).toNat then 1 else 0))) ∧
  (∀ (s : State) (o : OpSel),
    exec (.sel o) s = .next (s.afterWrite o.d (if s.rd o.c = 0 then s.rd o.b else s.rd o.a)))

/-- R146, R149: constants, PC-relative addresses and address arithmetic. -/
def constantsAndAddresses : Prop :=
  (∀ (s : State) (o : OpRI),
    exec (.li o) s = .next (s.afterWrite o.d (BitVec.ofInt 64 o.imm.toInt)) ∧
    exec (.lpc o) s = .next (s.afterWrite o.d (BitVec.ofNat 64 ((s.core.pc.toNat + 8 * o.imm.toInt) % 2 ^ 32).toNat))) ∧
  (∀ (s : State) (o : OpLih),
    exec (.lih o) s = .next (s.afterWrite o.d (BitVec.ofNat 64 (o.imm.toNat * 2 ^ 34 + (s.rd o.d).toNat % 2 ^ 34)))) ∧
  (∀ (s : State) (o : OpLea),
    exec (.lea o) s = .next (s.afterWrite o.d
      (BitVec.ofInt 64 ((s.rd o.a).toInt + (s.rd o.b).toInt * 2 ^ o.sh.toNat + o.off.toInt))))

/-- R147: bit fields and bit counts. -/
def bitFieldsAndCounts : Prop :=
  (∀ (s : State) (o : OpBits), o.pos.toNat + o.lenM1.toNat + 1 ≤ 64 →
    let len := o.lenM1.toNat + 1; let a := s.rd o.a; let f := a.toNat / 2 ^ o.pos.toNat % 2 ^ len
    exec (.extn o) s = .next (s.afterWrite o.d (BitVec.ofNat 64 f)) ∧
    exec (.ext o) s = .next (s.afterWrite o.d (BitVec.ofInt 64 (if f < 2 ^ (len - 1) then (f : Int) else f - 2 ^ len))) ∧
    (∃ v, exec (.ins o) s = .next (s.afterWrite o.d v) ∧ ∀ i < 64,
      v.getLsbD i = if o.pos.toNat ≤ i ∧ i < o.pos.toNat + len then a.getLsbD (i - o.pos.toNat) else (s.rd o.d).getLsbD i)) ∧
  (∀ (s : State) (o : OpRR), let a := s.rd o.a
    (∃ n, exec (.clz o) s = .next (s.afterWrite o.d (BitVec.ofNat 64 n)) ∧ n ≤ 64 ∧
      (∀ i < 64, 64 - n ≤ i → a.getLsbD i = false) ∧ (n < 64 → a.getLsbD (63 - n) = true)) ∧
    (∃ n, exec (.ctz o) s = .next (s.afterWrite o.d (BitVec.ofNat 64 n)) ∧ n ≤ 64 ∧
      (∀ i < n, a.getLsbD i = false) ∧ (n < 64 → a.getLsbD n = true)) ∧
    exec (.popc o) s = .next (s.afterWrite o.d (BitVec.ofNat 64 (onesOf a).length)) ∧
    (∃ v, exec (.bswap o) s = .next (s.afterWrite o.d v) ∧ ∀ i < 8, v.toNat / 256 ^ i % 256 = a.toNat / 256 ^ (7 - i) % 256))

/-- R54, R55, R143, R145, R146, R149: the statements above on this, together. -/
def Obligations.LogicShiftsAndImmediates : Prop := logicAndShifts ∧ immediateForms ∧ constantsAndAddresses

/-- R147, R148: the statements above on this, together. -/
def Obligations.ComparisonsAndBitFields : Prop := comparisonsAndSelect ∧ bitFieldsAndCounts

/-- R143, R144: the statements above on this, together. -/
def Obligations.SumsProductsAndQuotients : Prop := integerArithmetic ∧ integerDivision

/-! ## Floating-point instructions of the control core (R150–R157) -/

/-- R151 with R27, R28, R31: one rounding of the exact result under the instruction's rounding code; any NaN operand gives the
canonical NaN, and a signalling one sets NV; ∞ − ∞, 0 · ∞, 0 / 0 and ∞ / ∞ are invalid; a finite nonzero value over zero is an
infinity with DZ; the root of a negative number is invalid. -/
def floatArithmetic (f : FloatFmt) (add sub mul div : OpF3 → Instr) (sqrt : OpF2 → Instr) : Prop :=
  (∀ (s : State) (o : OpF3),
    let x := fdecode f ((s.rd o.a).toNat % 2 ^ f.width); let y := fdecode f ((s.rd o.b).toNat % 2 ^ f.width)
    let r := roundingOf o.rm s.core.cr.fpctl 0
    let gives := fun (i : Instr) (c : Nat) (fl : BitVec 7) => exec i s = .next (s.afterFlags o.d (BitVec.ofNat 64 c) fl)
    gives (add o) (finish f r (fsum r [x, y])).1 (finish f r (fsum r [x, y])).2 ∧
    gives (sub o) (finish f r (fsum r [x, y.neg])).1 (finish f r (fsum r [x, y.neg])).2 ∧
    gives (mul o) (finish f r (fprod x y)).1 (finish f r (fprod x y)).2 ∧
    gives (div o) (finish f r (fquot x y)).1 (finish f r (fquot x y)).2 ∧
    (x.isNan = true ∨ y.isNan = true →
      let fl : BitVec 7 := if x.isSnan = true ∨ y.isSnan = true then 1 else 0
      gives (add o) f.nan fl ∧ gives (sub o) f.nan fl ∧ gives (mul o) f.nan fl ∧ gives (div o) f.nan fl) ∧
    (x.isInf = true ∧ y.isInf = true →
      gives (div o) f.nan 1 ∧ (x.sign ≠ y.sign → gives (add o) f.nan 1) ∧ (x.sign = y.sign → gives (sub o) f.nan 1)) ∧
    (x.isInf = true ∧ y.isZero = true ∨ x.isZero = true ∧ y.isInf = true → gives (mul o) f.nan 1) ∧
    (x.isZero = true ∧ y.isZero = true → gives (div o) f.nan 1) ∧
    (∀ n m e k z, x = .fin n (m + 1) e false → y = .fin k 0 z false → ∀ c, f.infCode = some c →
      gives (div o) ((if n = k then 0 else f.signBit) + c) 2)) ∧
  (∀ (s : State) (o : OpF2),
    let x := fdecode f ((s.rd o.a).toNat % 2 ^ f.width)
    let r := roundingOf o.rm s.core.cr.fpctl 0
    let gives := fun (c : Nat) (fl : BitVec 7) => exec (sqrt o) s = .next (s.afterFlags o.d (BitVec.ofNat 64 c) fl)
    gives (finish f r (fsqrtVal x)).1 (finish f r (fsqrtVal x)).2 ∧
    (∀ m e, x = .fin true (m + 1) e false → gives f.nan 1) ∧ (x = .inf true → gives f.nan 1))

/-- R150, R151 for `.f64` and `.f32`. -/
def Obligations.FloatArithmetic : Prop :=
  floatArithmetic .f64 Instr.faddF64 Instr.fsubF64 Instr.fmulF64 Instr.fdivF64 Instr.fsqrtF64 ∧
  floatArithmetic .f32 Instr.faddF32 Instr.fsubF32 Instr.fmulF32 Instr.fdivF32 Instr.fsqrtF32

/-- R154: one rounding of ±(a · b) ± c, the product unrounded; and R31: code 7 takes the mode of `CR_FPCTL`. -/
def fusedMultiplyAdd : Prop :=
  (∀ (s : State) (o : OpFma) (f : FloatFmt), o.ty = 0 ∧ f = .f64 ∨ o.ty = 1 ∧ f = .f32 →
    let v := fun (q : Reg) => fdecode f ((s.rd q).toNat % 2 ^ f.width)
    let r := roundingOf o.rm s.core.cr.fpctl 0
    let p := fprod (v o.a) (v o.b)
    let gives := fun (i : Instr) (x z : FVal) => ∃ c fl, finish f r ((fsum r [x, z]).1, p.2 ||| (fsum r [x, z]).2) = (c, fl) ∧
      exec i s = .next (s.afterFlags o.d (BitVec.ofNat 64 c) fl)
    gives (.fma o) p.1 (v o.c) ∧ gives (.fms o) p.1 (v o.c).neg ∧
    gives (.fnma o) p.1.neg (v o.c) ∧ gives (.fnms o) p.1.neg (v o.c).neg) ∧
  (∀ (fpctl : BitVec 3) (u : Nat),
    (fpctl = 0 → roundingOf 7 fpctl u = .rne) ∧ (fpctl = 1 → roundingOf 7 fpctl u = .rtz) ∧ (fpctl = 2 → roundingOf 7 fpctl u = .rdn) ∧
    (fpctl = 3 → roundingOf 7 fpctl u = .rup) ∧ (fpctl = 4 → roundingOf 7 fpctl u = .rmm))

/-- R31: rounding the magnitude m to a multiple of 2^k is to the nearest, ties to even (RNE) or away from zero (RMM), toward
zero (RTZ), toward −∞ (RDN) or +∞ (RUP); the result is inexact exactly when m is no multiple. -/
def roundingModes : Prop :=
  ∀ (neg : Bool) (m k : Nat), let n := fun r => (roundAt neg m 0 false k r).1
    (n .rtz = m / 2 ^ k) ∧
    (n .rdn = if neg then (m + 2 ^ k - 1) / 2 ^ k else m / 2 ^ k) ∧
    (n .rup = if neg then m / 2 ^ k else (m + 2 ^ k - 1) / 2 ^ k) ∧
    (2 * m ≤ (2 * n .rne + 1) * 2 ^ k ∧ (2 * n .rne : Int) * 2 ^ k ≤ 2 * m + 2 ^ k ∧
      (2 * m = (2 * n .rne + 1) * 2 ^ k → n .rne % 2 = 0) ∧ ((2 * n .rne : Int) * 2 ^ k = 2 * m + 2 ^ k ∧ k ≠ 0 → n .rne % 2 = 0)) ∧
    (2 * m < (2 * n .rmm + 1) * 2 ^ k ∧ (2 * n .rmm : Int) * 2 ^ k ≤ 2 * m + 2 ^ k) ∧
    (∀ r, (roundAt neg m 0 false k r).2 = true ↔ m % 2 ^ k ≠ 0)

/-- R152, R153: `fmin` and `fmax` give one operand unchanged, a number rather than a NaN, with −0 less than +0, and the
canonical NaN for two; the sign operations touch only the sign bit. -/
def floatMinMaxSign (f : FloatFmt) (min max sgn : OpRRR → Instr) (abs neg : OpRR → Instr) : Prop :=
  (∀ (s : State) (o : OpRRR),
    let a := (s.rd o.a).toNat % 2 ^ f.width; let b := (s.rd o.b).toNat % 2 ^ f.width
    let x := fdecode f a; let y := fdecode f b
    let fl : BitVec 7 := if x.isSnan = true ∨ y.isSnan = true then 1 else 0
    let gives := fun (i : Instr) (c : Nat) (fl : BitVec 7) => exec i s = .next (s.afterFlags o.d (BitVec.ofNat 64 c) fl)
    (x.isNan = true ∧ y.isNan = true → gives (min o) f.nan fl ∧ gives (max o) f.nan fl) ∧
    (x.isNan = true ∧ y.isNan = false → gives (min o) b fl ∧ gives (max o) b fl) ∧
    (x.isNan = false ∧ y.isNan = true → gives (min o) a fl ∧ gives (max o) a fl) ∧
    (x.isNan = false ∧ y.isNan = false →
      (fltVal x y = true → gives (min o) a 0 ∧ gives (max o) b 0) ∧ (fltVal y x = true → gives (min o) b 0 ∧ gives (max o) a 0) ∧
      (x.isZero = true ∧ y.isZero = true ∧ x.sign = true ∧ y.sign = false → gives (min o) a 0 ∧ gives (max o) b 0) ∧
      (x.isZero = true ∧ y.isZero = true ∧ x.sign = false ∧ y.sign = true → gives (min o) b 0 ∧ gives (max o) a 0) ∧
      (a = b → gives (min o) a 0 ∧ gives (max o) a 0)) ∧
    gives (sgn o) (a % 2 ^ (f.width - 1) + b / 2 ^ (f.width - 1) * 2 ^ (f.width - 1)) 0) ∧
  (∀ (s : State) (o : OpRR), let a := (s.rd o.a).toNat % 2 ^ f.width
    exec (abs o) s = .next (s.afterFlags o.d (BitVec.ofNat 64 (a % 2 ^ (f.width - 1))) 0) ∧
    exec (neg o) s = .next (s.afterFlags o.d (BitVec.ofNat 64 ((a + 2 ^ (f.width - 1)) % 2 ^ f.width)) 0))

/-- R152, R153 for `.f64` and `.f32`. -/
def floatMinMaxAndSign : Prop :=
  floatMinMaxSign .f64 Instr.fminF64 Instr.fmaxF64 Instr.fsgnF64 Instr.fabsF64 Instr.fnegF64 ∧
  floatMinMaxSign .f32 Instr.fminF32 Instr.fmaxF32 Instr.fsgnF32 Instr.fabsF32 Instr.fnegF32

/-- R156, R36: conversions. Between floating-point formats one rounding, SAT counting only when the destination is no wider. A
floating-point value goes to an integer rounded by the mode, with the table's result and NV when it does not fit; a NaN gives 0 and NV. -/
def Obligations.ScalarConversions : Prop :=
  ∀ (s : State) (o : OpCvt), let r := roundingOf o.rm s.core.cr.fpctl 0
    (let dst := fmtOf o.dst.toNat; let src := fmtOf o.src.toNat
     ∀ sat : Bool, (sat = true ↔ o.sat = true ∧ dst.width ≤ src.width) → ∃ c fl,
      fround dst r sat (fdecode src ((s.rd o.a).toNat % 2 ^ src.width)) = (c, fl) ∧
      exec (.fcvt o) s = .next (s.afterFlags o.d (BitVec.ofNat 64 c) fl)) ∧
    (∃ c fl, let n := intBits o.src; let u := (s.rd o.a).toNat % 2 ^ n
      fround (fmtOf o.dst.toNat) r o.sat (fint (if intSigned o.src && decide (2 ^ (n - 1) ≤ u) then (u : Int) - 2 ^ n else u)) = (c, fl) ∧
      exec (.icvtf o) s = .next (s.afterFlags o.d (BitVec.ofNat 64 c) fl)) ∧
    (let x := fdecode (fmtOf o.src.toNat) ((s.rd o.a).toNat % 2 ^ (fmtOf o.src.toNat).width)
     let n := intBits o.dst
     let hi : Int := if intSigned o.dst then 2 ^ (n - 1) - 1 else 2 ^ n - 1
     let lo : Int := if intSigned o.dst then -(2 ^ (n - 1)) else 0
     let gives := fun (v : Int) (fl : BitVec 7) => exec (.fcvti o) s = .next (s.afterFlags o.d (BitVec.ofInt 64 v) fl)
     (x.isNan = true → gives 0 1) ∧ (x = .inf true → gives lo 1) ∧ (x = .inf false → gives hi 1) ∧
     (∀ neg m e st, x = .fin neg m e st →
       let q := roundAt neg m e st 0 r; let v : Int := if neg then -q.1 else q.1
       (lo ≤ v ∧ v ≤ hi → gives v (if q.2 then 16 else 0)) ∧ (v < lo → gives lo 1) ∧ (hi < v → gives hi 1)))

/-- R157: comparisons write 1 or 0, 0 when an operand is a NaN; `flt` and `fle` set NV for any NaN, `feq` for a signalling one.
`fclass` writes the one-bit mask of the operand's class. -/
def floatCompareAndClass : Prop :=
  (∀ (s : State) (o : OpFCmp) (f : FloatFmt), o.ty = 0 ∧ f = .f64 ∨ o.ty = 1 ∧ f = .f32 →
    let x := fdecode f ((s.rd o.a).toNat % 2 ^ f.width); let y := fdecode f ((s.rd o.b).toNat % 2 ^ f.width)
    let gives := fun (i : Instr) (v : Word) (fl : BitVec 7) => exec i s = .next (s.afterFlags o.d v fl)
    (x.isNan = true ∨ y.isNan = true →
      gives (.feq o) 0 (if x.isSnan = true ∨ y.isSnan = true then 1 else 0) ∧ gives (.flt o) 0 1 ∧ gives (.fle o) 0 1) ∧
    (x.isNan = false ∧ y.isNan = false →
      let lt := fltVal x y = true; let gt := fltVal y x = true
      gives (.feq o) (if lt ∨ gt then 0 else 1) 0 ∧ gives (.flt o) (if lt then 1 else 0) 0 ∧ gives (.fle o) (if gt then 0 else 1) 0)) ∧
  (∀ (s : State) (o : OpFCls) (f : FloatFmt), o.ty = 0 ∧ f = .f64 ∨ o.ty = 1 ∧ f = .f32 →
    let x := fdecode f ((s.rd o.a).toNat % 2 ^ f.width)
    let gives := fun (k : Nat) => exec (.fclass o) s = .next (s.afterFlags o.d (BitVec.ofNat 64 (2 ^ k)) 0)
    (x = .inf true → gives 0) ∧ (x = .inf false → gives 7) ∧ (x = .nan true → gives 8) ∧ (x = .nan false → gives 9) ∧
    (∀ n m e, x = .fin n m e false →
      (m = 0 → gives (if n then 3 else 4)) ∧ (0 < m ∧ m < 2 ^ f.mb → gives (if n then 2 else 5)) ∧
      (2 ^ f.mb ≤ m → gives (if n then 1 else 6))))

/-! ## Control flow (R158–R161) -/

/-- R158–R160: a taken branch goes to PC + 8 · disp (modulo 2^32), one not taken to the next word; `jal` and `jalr` write the
address after the word, the target being computed first; `loop` adds 1 to sa and branches while it is below sb. -/
def branchesAndJumps : Prop :=
  (∀ (s : State) (o : OpBr),
    let a := s.rd o.a; let b := s.rd o.b
    let dest := BitVec.ofInt 32 (s.core.pc.toNat + 8 * o.disp.toInt)
    let goes := fun (i : Instr) (c : Prop) => (c → exec i s = .next (s.afterJump 0 0 dest)) ∧ (¬ c → exec i s = .next s.afterNext)
    goes (.beq o) (a.toNat = b.toNat) ∧ goes (.bne o) (a.toNat ≠ b.toNat) ∧ goes (.blt o) (a.toInt < b.toInt) ∧
    goes (.bge o) (b.toInt ≤ a.toInt) ∧ goes (.bltn o) (a.toNat < b.toNat) ∧ goes (.bgen o) (b.toNat ≤ a.toNat) ∧
    ((a.toNat + 1) % 2 ^ 64 < b.toNat →
      exec (.loop o) s = .next (s.afterJump o.a (a + 1) dest)) ∧
    (¬ (a.toNat + 1) % 2 ^ 64 < b.toNat →
      exec (.loop o) s = .next (s.afterWrite o.a (a + 1)))) ∧
  (∀ (s : State) (o : OpRI),
    exec (.jal o) s = .next (s.afterJump o.d (BitVec.ofNat 64 ((s.core.pc.toNat + 8) % 2 ^ 32))
      (BitVec.ofInt 32 (s.core.pc.toNat + 8 * o.imm.toInt)))) ∧
  (∀ (s : State) (o : OpJalr), let t := ((s.rd o.a).toInt + o.off.toInt) % 2 ^ 64
    t % 8 = 0 ∧ t < 2 ^ 32 →
      exec (.jalr o) s = .next (s.afterJump o.d (BitVec.ofNat 64 ((s.core.pc.toNat + 8) % 2 ^ 32)) (BitVec.ofInt 32 t)))

/-- R159: `jalr` to a target that is no multiple of 8 is MISALIGN, and to one at or above 2^32 SPAD_RANGE, in that order. -/
def jumpTargetFaults : Prop :=
  ∀ (s : State) (o : OpJalr), let t := s.rd o.a + BitVec.ofInt 64 o.off.toInt
    (t.toNat % 8 ≠ 0 → exec (.jalr o) s = .next (s.takeFault { cause := .misalign })) ∧
    (t.toNat % 8 = 0 → 2 ^ 32 ≤ t.toNat → exec (.jalr o) s = .next (s.takeFault { cause := .spadRange }))

/-- R31, R154: the statements above on this, together. -/
def Obligations.RoundingAndFusedMultiplyAdd : Prop := roundingModes ∧ fusedMultiplyAdd

/-- R152, R153, R157: the statements above on this, together. -/
def Obligations.FloatSelectionAndComparison : Prop := floatMinMaxAndSign ∧ floatCompareAndClass

/-- R158–R160: the statements above on this, together. -/
def Obligations.ControlFlow : Prop := branchesAndJumps ∧ jumpTargetFaults

/-! ## Own scratchpad, loads, stores and atomics (R92, R103–R106, R162–R174) -/

/-- R163, R92, R103, R105, R166: what an access to own scratchpad comes to, in the order of the checks: the limit (the grant in U mode,
4 MiB in S mode), buffer legality and relocation, screening, poison. S mode takes no placement and no buffer. -/
def scratchpadChecks : Prop :=
  ∀ (c : Core) (tasks : List Task) (a n : Nat) (k : Access),
    let limit := if c.status.mode then 0x400000 else c.grant
    let at_ := fun (x : Cause) => (Res.fault { cause := x, addr := some (BitVec.ofNat 64 a) } : Res Nat)
    let ends := fun (pa : Nat) => if screened tasks c.id.core pa n k then Res.stall .screening else if poisoned c.poison pa n then at_ .poison else .ok pa
    let apart := ∀ b ∈ c.bufs, 1 ≤ b.v ∧ (a + n ≤ b.base ∨ b.base + b.v * b.size ≤ a)
    (limit < a + n → spadCheck c tasks a n k = at_ .spadRange) ∧
    (a + n ≤ limit ∧ c.status.mode = true → spadCheck c tasks a n k = ends a) ∧
    (a + n ≤ limit ∧ c.status.mode = false ∧ 0 < n ∧ apart → spadCheck c tasks a n k = ends (a + c.spbase)) ∧
    (∀ b, a + n ≤ limit ∧ c.status.mode = false ∧ 0 < n ∧ c.bufs = [b] ∧ 1 ≤ b.v ∧ b.base ≤ a ∧ a + n ≤ b.base + b.size →
      ((k = .load ∨ k = .fetch) ∧ b.phase = .empty ∨ k = .store ∧ b.phase ≠ .filling ∨ k = .atomic ∧ b.phase ≠ .filling →
        spadCheck c tasks a n k = at_ .bufState) ∧
      ((k = .load ∨ k = .fetch) ∧ b.phase ≠ .empty ∨ (k = .store ∨ k = .atomic) ∧ b.phase = .filling →
        spadCheck c tasks a n k = ends (a + b.ver * b.size + c.spbase)))

/-- R163, R164: a load from own scratchpad gives the bytes at the physical address, least significant first, extended by its sign
or with zeros; a store writes the low bytes there and no other byte. After a plain wait that no acquire has followed, a load may have
seen only k of the packet writes that the core has not seen: it gives the bytes as they stood before the others, each write whole, and what it has seen every
later load sees (R165, R183, R335, R345; DESIGN CHOICE, log 78). -/
def Obligations.LoadsAndStores : Prop :=
  ∀ (s : State) (o : OpMem) (pa : Nat),
    let ea := s.rd o.a + BitVec.ofInt 64 o.off.toInt; let n := 2 ^ o.size.toNat
    ea.toNat < 0x400000 → ea.toNat % n = 0 →
      (spadCheck s.core s.cluster.tasks ea.toNat n .load = .ok pa →
        ∃ v u k, exec (.ld o) s = .next (u.afterWrite o.d v) ∧ SameButRead s u ∧ u.core.stale = s.core.stale.drop k ∧
          (k < s.core.early ∨ s.core.stale.length ≤ k) ∧ u.core.early ≤ s.core.early - k ∧
          (∀ i < n, BitVec.ofNat 8 (v.toNat / 256 ^ i) = cget ((s.core.stale.drop k).foldr (fun e m => csetList m e) s.core.spad) (pa + i)) ∧
          (s.core.stale = [] → s.core.early = 0 → u = s) ∧ ∀ i, 8 * n ≤ i → i < 64 → v.getLsbD i = (o.sx && v.getLsbD (8 * n - 1))) ∧
      (spadCheck s.core s.cluster.tasks ea.toNat n .store = .ok pa →
        ∃ m, exec (.st o) s = .next (s.afterNextWith (fun c => { c.seesAt pa n with spad := m })) ∧
          (∀ i < n, cget m (pa + i) = BitVec.ofNat 8 ((s.rd o.d).toNat / 256 ^ i)) ∧
          ∀ a, ¬ (pa ≤ a ∧ a < pa + n) → cget m a = cget s.core.spad a)

/-- The results of R170 at N bits, with old, operand and new value as unsigned N-bit numbers. -/
def atomTable (N : Nat) : List ((OpMem → Instr) × (OpMem → Instr) × (Nat → Nat → Nat → Nat)) :=
  let n := fun (x : Nat) => if x < 2 ^ (N - 1) then (x : Int) else x - 2 ^ N
  [(Instr.atomAdd, Instr.atomAddHbm, fun old v _ => (old + v) % 2 ^ N), (Instr.atomAnd, Instr.atomAndHbm, fun old v _ => old &&& v),
   (Instr.atomOr, Instr.atomOrHbm, fun old v _ => old ||| v), (Instr.atomXor, Instr.atomXorHbm, fun old v _ => old ^^^ v),
   (Instr.atomMin, Instr.atomMinHbm, fun old v _ => if n v < n old then v else old),
   (Instr.atomMax, Instr.atomMaxHbm, fun old v _ => if n old < n v then v else old),
   (Instr.atomMinn, Instr.atomMinnHbm, fun old v _ => min old v), (Instr.atomMaxn, Instr.atomMaxnHbm, fun old v _ => max old v),
   (Instr.atomSwap, Instr.atomSwapHbm, fun _ v _ => v), (Instr.atomCas, Instr.atomCasHbm, fun old v new => if old = v then new else old),
   (Instr.atomIncb, Instr.atomIncbHbm, fun old v _ => if old < v then old + 1 else old)]

/-- R163, R94: an address of 2^32 or more is SPAD_RANGE, then a misaligned one is MISALIGN; own scratchpad faults as its checks
say, for a `claim` and its 16 bytes too; a load from a window is WIN_LOAD; addresses the map leaves out are SPAD_RANGE; U mode in the control space is PRIV. -/
def addressFaults : Prop :=
  ∀ (s : State) (o : OpMem),
    let ea := s.rd o.a + BitVec.ofInt 64 o.off.toInt; let n := 2 ^ o.size.toNat
    let faults := fun (i : Instr) (c : Cause) => exec i s = .next (s.takeFault { cause := c, addr := some ea })
    let all := fun (c : Cause) => faults (.ld o) c ∧ faults (.st o) c ∧ ∀ p ∈ atomTable 64, faults (p.1 o) c
    let claims := faults (.claim o)
    (2 ^ 32 ≤ ea.toNat → all .spadRange ∧ claims .spadRange) ∧
    (ea.toNat < 2 ^ 32 → ea.toNat % 16 ≠ 0 → claims .misalign) ∧
    (ea.toNat < 2 ^ 32 → ea.toNat % n ≠ 0 → all .misalign) ∧
    (ea.toNat % n = 0 →
      (∀ f, ea.toNat < 0x400000 → spadCheck s.core s.cluster.tasks ea.toNat n .load = .fault f → exec (.ld o) s = .next (s.takeFault f)) ∧
      (∀ f, ea.toNat < 0x400000 → spadCheck s.core s.cluster.tasks ea.toNat n .store = .fault f → exec (.st o) s = .next (s.takeFault f)) ∧
      (∀ f, ea.toNat < 0x400000 → spadCheck s.core s.cluster.tasks ea.toNat n .atomic = .fault f → ∀ p ∈ atomTable 64, exec (p.1 o) s = .next (s.takeFault f)) ∧
      (0x40000000 ≤ ea.toNat ∧ ea.toNat < 0x80000000 → faults (.ld o) .winLoad) ∧
      (0x400000 ≤ ea.toNat ∧ ea.toNat < 0x40000000 ∨ 0x80000000 ≤ ea.toNat ∧ ea.toNat < 0xF0000000 ∨ 0xF0100000 ≤ ea.toNat ∧ ea.toNat < 2 ^ 32 →
        all .spadRange) ∧
      (0xF0000000 ≤ ea.toNat ∧ ea.toNat < 0xF0100000 ∧ s.core.status.mode = false →
        all .priv)) ∧
    (ea.toNat % 16 = 0 →
      (∀ f, ea.toNat < 0x400000 → spadCheck s.core s.cluster.tasks ea.toNat 16 .atomic = .fault f → exec (.claim o) s = .next (s.takeFault f)) ∧
      (0x400000 ≤ ea.toNat ∧ ea.toNat < 0x40000000 ∨ 0x80000000 ≤ ea.toNat ∧ ea.toNat < 0xF0000000 ∨ 0xF0100000 ≤ ea.toNat ∧ ea.toNat < 2 ^ 32 →
        claims .spadRange) ∧
      (0xF0000000 ≤ ea.toNat ∧ ea.toNat < 0xF0100000 ∧ s.core.status.mode = false → claims .priv))

/-- R169–R171: an atomic on own scratchpad replaces its 4 or 8 bytes by the table's result, writes no other byte, and gives the old
value, extended. -/
def scratchpadAtomics : Prop :=
  ∀ (s : State) (o : OpMem) (pa : Nat), 2 ≤ o.size.toNat →
    let ea := s.rd o.a + BitVec.ofInt 64 o.off.toInt; let n := 2 ^ o.size.toNat; let N := 8 * n
    let old := readLE s.core.spad pa n
    ea.toNat < 0x400000 → ea.toNat % n = 0 → spadCheck s.core s.cluster.tasks ea.toNat n .atomic = .ok pa →
      ∀ p ∈ atomTable N, ∃ m,
        exec (p.1 o) s = .next ({ s with core := { s.core.seesAt pa n with spad := m } }.afterWrite o.d
          (if o.sx = true ∧ 2 ^ (N - 1) ≤ old then BitVec.ofInt 64 ((old : Int) - 2 ^ N) else BitVec.ofNat 64 old)) ∧
        readLE m pa n = p.2.2 old ((s.rd o.d).toNat % 2 ^ N) ((s.rd (o.d + 1)).toNat % 2 ^ N) ∧
        ∀ a, ¬ (pa ≤ a ∧ a < pa + n) → cget m a = cget s.core.spad a

/-- R173, R174: `claim` on a record {next, end, P, cmin}: the start and the count of the chunk go to the pair, `next` moves on by the
count, and the record's other bytes stay. -/
def claimARange : Prop :=
  ∀ (s : State) (o : OpMem) (pa : Nat),
    let ea := s.rd o.a + BitVec.ofInt 64 o.off.toInt
    let next := readLE s.core.spad pa 4; let stop := readLE s.core.spad (pa + 4) 4
    let parts := readLE s.core.spad (pa + 8) 4; let cmin := readLE s.core.spad (pa + 12) 4
    let left := stop - next
    let count := if stop ≤ next then 0 else min (max cmin ((left + 2 * max parts 1 - 1) / (2 * max parts 1))) left
    ea.toNat < 0x400000 → ea.toNat % 16 = 0 → spadCheck s.core s.cluster.tasks ea.toNat 16 .atomic = .ok pa →
      ∃ m, exec (.claim o) s = .next ({ s with core := { s.core.seesAt pa 16 with spad := m } }.afterPair o.d (BitVec.ofNat 64 next) (BitVec.ofNat 64 count)) ∧
        readLE m pa 4 = next + count ∧ ∀ a, ¬ (pa ≤ a ∧ a < pa + 4) → cget m a = cget s.core.spad a

/-- A request of the acting core, of one of its tasks where `src` names one, has left for another cluster (R279, R337): its packet stands among the
unanswered ones of its die with the next number of its pair of die and class, its effect is outstanding, and no byte has changed. -/
def leavesFrom (s : State) (t : Target) (cls : BitVec 4) (body : PktBody) (src : PktSource) (u : State) : Prop :=
  let d := s.core.id.die
  (∃ p ∈ (u.dieAt d).unacked, p.uid = s.modul.nextUid ∧ p.dst = t.die ∧ p.clu = t.clu ∧ p.core = t.core ∧ p.cls = cls ∧ p.body = body ∧
    p.src = s.dieNumber d ∧ p.seq = nextSeq (s.dieAt d).seqs t.die cls ∧ p.from_ = src) ∧
  nextSeq (u.dieAt d).seqs t.die cls = nextSeq (s.dieAt d).seqs t.die cls + 1 ∧
  u.core.effects = s.core.effects ++ [{ uid := s.modul.nextUid, ctx := src.ctx, cls := cls, die := t.die, clu := t.clu, core := t.core, task := src.task }] ∧
  SameBytes s u
/-- The same for a request of the core's own. -/
def leavesAs (s : State) (t : Target) (cls : BitVec 4) (body : PktBody) (window : Option Nat) (u : State) : Prop :=
  leavesFrom s t cls body { core := s.core.id, ctx := s.core.cid.toNat, window := window, task := none } u

/-- An HBM atomic has left v in n bytes that key reads, and changed nothing else there (R88, R171). -/
def storedInHbm (s t : State) (h : Hit) (n v : Nat) : Prop :=
  (∀ i < n, hbmByte t.modul h.key (h.dpa + i) = BitVec.ofNat 8 (v / 256 ^ i)) ∧
  (∀ b, b < h.dpa ∨ h.dpa + n ≤ b → hbmByte t.modul h.key b = hbmByte s.modul h.key b) ∧
  (∀ b, b / 64 ≠ h.dpa / 64 → cget t.modul.hbm b = cget s.modul.hbm b) ∧ (∀ u, cget t.modul.hbmPoison u = cget s.modul.hbmPoison u) ∧
  { t with core := s.core, modul := { t.modul with hbm := s.modul.hbm, hbmKey := s.modul.hbmKey, hbmPoison := s.modul.hbmPoison } } = s

/-- R74, R82, R88, R90, R171, R173, R342: an atomic or claim on HBM. An address of 2^48 or more, one that misses and one whose entry has AT = 0 are MAP_MISS, a
misaligned one MISALIGN; a fence holds it back; on the own die a marked unit is POISON, else the bytes under the entry's key take the table's result and sd
the old value; for another die it leaves as a request packet and the core waits for the reply. -/
def Obligations.NearMemoryAtomics : Prop :=
  ∀ (s : State) (o : OpMem), s.core.status.cv = true →
    let ea := s.rd o.a + BitVec.ofInt 64 o.off.toInt; let n := 2 ^ o.size.toNat; let N := 8 * n
    let faults := fun (i : Instr) (c : Cause) => exec i s = .next (s.takeFault { cause := c, addr := some ea })
    let kinds : List (Instr × Nat) := (atomTable N).map (fun p => (p.2.1 o, n)) ++ [(.claimHbm o, 16)]
    let hit := hbmLookup s.die s.core.cid.toNat ea.toNat
    let operand := (s.rd o.d).toNat % 2 ^ N; let new := (s.rd (o.d + 1)).toNat % 2 ^ N
    (∀ k ∈ kinds, (2 ^ 48 ≤ ea.toNat → faults k.1 .mapMiss) ∧
      (ea.toNat < 2 ^ 48 → (ea.toNat % k.2 ≠ 0 → faults k.1 .misalign) ∧ (ea.toNat % k.2 = 0 → hit = none → faults k.1 .mapMiss))) ∧
    (∀ h, ea.toNat < 2 ^ 48 → hit = some h →
      (h.at_ = false → ∀ k ∈ kinds, ea.toNat % k.2 = 0 → faults k.1 .mapMiss) ∧
      (h.at_ = true →
        let d := h.dpa / 2 ^ 38; let far : Target := { die := s.dieNumber d, clu := 0, core := 0 }
        let held := fenceHolds s.core.fences s.core.effects far.die o.cls
        (held = true → ∀ k ∈ kinds, ea.toNat % k.2 = 0 → exec k.1 s = .next (s.waitsOn .fence)) ∧
        (held = false → d = s.core.id.die → s.die.die = s.core.id.die →
          let old := fun (n : Nat) => readLE ((List.range n).map (fun i => (h.dpa + i, hbmByte s.modul h.key (h.dpa + i)))) h.dpa n
          (cget s.modul.hbmPoison (h.dpa / 64) ≠ 0 → ∀ k ∈ kinds, ea.toNat % k.2 = 0 → faults k.1 .poison) ∧
          (cget s.modul.hbmPoison (h.dpa / 64) = 0 →
            (2 ≤ o.size.toNat → ea.toNat % n = 0 → ∀ p ∈ atomTable N, ∃ t, exec (p.2.1 o) s = .next t ∧ storedInHbm s t h n (p.2.2 (old n) operand new) ∧
              t.core = (s.afterWrite o.d (if o.sx = true ∧ 2 ^ (N - 1) ≤ old n then BitVec.ofInt 64 ((old n : Int) - 2 ^ N) else BitVec.ofNat 64 (old n))).core) ∧
            (ea.toNat % 16 = 0 → let r := claimOf (old 16); ∃ t, exec (.claimHbm o) s = .next t ∧
              storedInHbm s t h 16 (old 16 / 2 ^ 32 * 2 ^ 32 + (r.1 + r.2) % 2 ^ 32) ∧
              t.core = (s.afterPair o.d (BitVec.ofNat 64 r.1) (BitVec.ofNat 64 r.2)).core))) ∧
        (held = false → d ≠ s.core.id.die → s.ownCluster s.core.id far = false →
          let slot := hbmSlot s.die s.core.cid.toNat ea.toNat
          let leaves := fun (i : Instr) (claim : Bool) (u : State) (q : AtomReq) => exec i s = .next u ∧ leavesAs s far o.cls (.hbm h.dpa slot q) none u ∧
            u.core.regs = s.core.regs ∧ u.core.pc = s.core.pc ∧ u.core.stall = some .reply ∧
            u.core.await.map (fun a => (a.uid, a.d, a.claim)) = some (s.modul.nextUid, o.d, claim)
          (s.die.pairRoom far.die o.cls = false → ∀ k ∈ kinds, ea.toNat % k.2 = 0 → exec k.1 s = .next (s.waitsOn .allowance)) ∧
          (s.die.pairRoom far.die o.cls = true →
            (ea.toNat % n = 0 → ∀ p ∈ atomTable N, ∃ u q, leaves (p.2.1 o) false u q ∧
              (2 ≤ o.size.toNat → ∀ old < 2 ^ N, atomResult q old = p.2.2 old operand new)) ∧
            (ea.toNat % 16 = 0 → ∃ u, leaves (.claimHbm o) true u .claim)))))

/-- R92, R94, R103, R105, R163, R166: the statements above on this, together. -/
def Obligations.AddressChecks : Prop := addressFaults ∧ scratchpadChecks

/-- R169–R171, R173, R174: the statements above on this, together. -/
def Obligations.AtomicsAndClaims : Prop := scratchpadAtomics ∧ claimARange

/-! ## Streams, messages, flags, barriers and buffers (R102–R111, R175–R188) -/

/-- R176: `q.push` appends to a bound register that holds fewer than 64 elements, `q.pop` takes the oldest, `q.bind` empties the
register and binds or unbinds it when no task of the core names it, `q.count` reads the count with the binding in bit 7. -/
def Obligations.StreamRegisters : Prop :=
  ∀ (s : State), s.core.status.cv = true →
    (∀ o : OpQA, let q := s.core.stream o.q
      (q.bound = true ∧ q.elems.length < 64 → exec (.qPush o) s = .next (s.afterNextWith (fun c =>
        { c with streams := c.streams.set o.q.toNat { bound := true, elems := q.elems ++ [s.rd o.a] } o.q.isLt }))) ∧
      (q.bound = true ∧ 64 ≤ q.elems.length → exec (.qPush o) s = .next (s.waitsOn .stream)) ∧
      (q.bound = false → exec (.qPush o) s = .next (s.takeFault { cause := .streamUnbound }))) ∧
    (∀ o : OpQD, let q := s.core.stream o.q
      (∀ v rest, q.bound = true ∧ q.elems = v :: rest → exec (.qPop o) s = .next
        ({ s with core := { s.core with streams := s.core.streams.set o.q.toNat { bound := true, elems := rest } o.q.isLt } }.afterWrite o.d v)) ∧
      (q.bound = true ∧ q.elems = [] → exec (.qPop o) s = .next (s.waitsOn .stream)) ∧
      (q.bound = false → exec (.qPop o) s = .next (s.takeFault { cause := .streamUnbound })) ∧
      exec (.qCount o) s = .next (s.afterWrite o.d (BitVec.ofNat 64 ((if q.bound then 128 else 0) + q.elems.length)))) ∧
    (∀ o : OpQBind,
      let named := ∃ t ∈ s.cluster.tasks, t.pending = true ∧ t.ctx = s.core.cid.toNat ∧ t.core = s.core.id.core ∧ t.remote = false ∧
        ∃ r ∈ t.regions, r.null = false ∧ r.space = .strm ∧ r.core = s.core.id.core ∧ r.lo ≤ 8 * o.q.toNat ∧ (8 * o.q.toNat : Int) ≤ r.hi
      (¬ named → exec (.qBind o) s = .next (s.afterNextWith (fun c =>
        { c with streams := c.streams.set o.q.toNat { bound := o.m, elems := [] } o.q.isLt }))) ∧
      (named → exec (.qBind o) s = .next (s.waitsOn .tasks)))

/-- R178, R179: `msg.recv` takes the oldest message into the pair and waits on an empty inbox; it is an acquire (R345). `msg.poll` reads
how many there are. -/
def messageReceive : Prop :=
  ∀ (s : State) (o : OpD), s.core.status.cv = true →
    (∀ m rest, s.core.inbox = m :: rest →
      exec (.msgRecv o) s = .next ({ s with core := { (s.afterWait true).core with inbox := rest } }.afterPair o.d m.payload m.sender)) ∧
    (s.core.inbox = [] → exec (.msgRecv o) s = .next (s.waitsOn .inbox)) ∧
    exec (.msgPoll o) s = .next (s.afterWrite o.d (BitVec.ofNat 64 s.core.inbox.length))

/-- R178, R179, R279, R288: a message to another cluster leaves as a MSG packet with the next sequence number of its pair of die and
class; it counts in OUT of the direct status and among the messages not yet accepted, of which there are at most 16. -/
def messageSend : Prop :=
  ∀ (s : State) (o : OpMsgSend), s.core.status.cv = true →
    let w := s.rd o.b; let t := s.target w
    msgAbsent s w = false → s.inTorus t.die = true → s.ownCluster s.core.id t = false →
    (16 ≤ s.core.msgsOut.length → exec (.msgSend o) s = .next (s.waitsOn .message)) ∧
    (s.core.msgsOut.length < 16 → s.die.retryBlocks t o.cls (isMsgTo t.core) = false →
      fenceHolds s.core.fences s.core.effects t.die o.cls = false →
      (16 ≤ s.core.directOut → exec (.msgSend o) s = .next (s.waitsOn .allowance)) ∧
      (s.core.directOut < 16 → s.die.pairRoom t.die o.cls = true →
        ∃ u, exec (.msgSend o) s = .next u ∧ leavesAs s t o.cls (.msg (s.rd o.a)) none u ∧
          u.core.directOut = s.core.directOut + 1 ∧ u.core.msgsOut = s.core.msgsOut ++ [s.modul.nextUid] ∧
          u.core.regs = s.core.regs ∧ u.core.pc = s.core.pc + 8))

/-- A context's flags on a core after an update of virtual flag f there (R182, R387, R423): the physical flag takes it when the entry is resident or the context
holds the core and no save of it has issued; else the pending pair does, as it does before the context's first load on a core that another one held (R433;
DEDUCED, log 95). -/
def flagTakes (s t : State) (x : CtxCluster) (id : CoreId) (f : BitVec 6) (new : BitVec 32 → BitVec 32) (sets : Bool) : Prop :=
  let g := flagEntry (x.coreFlags id.core).fmap f; let c := s.coreAt id; let old := x.coreFlags id.core
  let direct := g.2.1 = true ∧ old.first = false ∨ c.holds x.ctx = true ∧ c.saving = false
  (direct → (t.coreAt id).flags = c.flags.set g.2.2.toNat (new (c.flags[g.2.2.toNat]'g.2.2.isLt)) g.2.2.isLt ∧ t.cluster = s.cluster) ∧
  (¬ direct → (t.coreAt id).flags = c.flags ∧ ∃ y, t.cluster.ctxAt x.ctx = some y ∧ { y with cores := x.cores } = x ∧ ∀ i : Fin 4,
    y.cores[i] = if i.val = id.core then { old with
      pendV := old.pendV.set f.toNat (new (old.pendV[f.toNat]'f.isLt)) f.isLt
      pendS := if sets then old.pendS ||| (1 <<< f.toNat) else old.pendS } else x.cores[i])

/-- R180–R182, R342, R387: `flag.add` adds a 32-bit amount to a flag of the own core or of another core of the cluster, and `flag.set` sets its value; a fence
holds an update of another core's flag back. `flag.rd` reads a flag of the own core; `flag.wait` waits until it has reached sb in wrapping
order and then reads it. A virtual flag whose map entry is not valid, and a core that the context was not launched on, is PRIV. -/
def Obligations.FlagsOfTheOwnCore : Prop :=
  ∀ (s : State) (x : CtxCluster), s.core.status.cv = true → s.placed → s.cluster.ctxAt s.core.cid.toNat = some x →
    (∀ o : OpFlagAdd,
      let id : CoreId := ⟨s.core.id.die, s.core.id.clu, if o.t then o.core.toNat else s.core.id.core⟩
      let there := x.coreFlags id.core; let ok := there.launched = true ∧ (flagEntry there.fmap o.f).1 = true
      let held := id ≠ s.core.id ∧ fenceHolds s.core.fences s.core.effects (s.dieNumber s.core.id.die) o.cls = true
      let a := BitVec.ofNat 32 (s.rd o.a).toNat
      let updates := fun (i : Instr) (new : BitVec 32 → BitVec 32) (sets : Bool) => ∃ t, exec i s = .next t ∧ flagTakes s t x id o.f new sets ∧ SameBytes s t ∧
        { t.core with flags := s.core.flags } = s.afterNext.core ∧ ∀ k, k ≠ id → (t.coreAt k).flags = (s.coreAt k).flags
      (¬ ok → exec (.flagAdd o) s = .next (s.takeFault { cause := .priv }) ∧ exec (.flagSet o) s = .next (s.takeFault { cause := .priv })) ∧
      (ok → held → exec (.flagAdd o) s = .next (s.waitsOn .fence) ∧ exec (.flagSet o) s = .next (s.waitsOn .fence)) ∧
      (ok → ¬ held → (o.rel = false ∨ outstanding s (fenceSet s (1 <<< o.cls.toNat) 3) = false) →
        updates (.flagAdd o) (fun v => v + a) false ∧ updates (.flagSet o) (fun _ => a) true)) ∧
    (∀ f : BitVec 6, let here := x.coreFlags s.core.id.core; let g := flagEntry here.fmap f; let ok := here.launched = true ∧ g.1 = true
      let v := s.core.flags[g.2.2.toNat]'g.2.2.isLt
      (∀ o : OpFlagRd, o.f = f →
        (ok → exec (.flagRd o) s = .next (s.afterWrite o.d (BitVec.ofNat 64 v.toNat))) ∧ (¬ ok → exec (.flagRd o) s = .next (s.takeFault { cause := .priv }))) ∧
      (∀ o : OpFlagWait, o.f = f → let ahead := (v - BitVec.ofNat 32 (s.rd o.b).toNat).toNat
        (ok → ahead < 2 ^ 31 → exec (.flagWait o) s = .next ((s.afterWait o.acq).afterWrite o.d (BitVec.ofNat 64 v.toNat))) ∧
        (ok → 2 ^ 31 ≤ ahead → exec (.flagWait o) s = .next (s.waitsOn .flag)) ∧
        (¬ ok → exec (.flagWait o) s = .next (s.takeFault { cause := .priv }))))

/-- R185, R186: an arrival gives the token of the core's parity and flips it; the last of the count's arrivals begins the next generation
of that parity and clears its pending bits, another one counts and sets the core's own. A core that has an arrival open at its
parity, and any core at a barrier of count 0, waits. -/
def barrierArrival : Prop :=
  ∀ (s : State) (o : OpBarArrive) (k : Fin 4), s.core.status.cv = true → s.core.id.core = k.val →
    let b := s.barrier o.n; let c := b.cores[k]; let p := c.lp
    let gen := if p then b.g1 else b.g0; let count := if p then b.a1 else b.a0; let openAt := if p then c.pd1 else c.pd0
    (b.cnt = 0 ∨ openAt = true → exec (.barArrive o) s = .next (s.waitsOn .barrier)) ∧
    (b.cnt ≠ 0 → openAt = false → (o.rel = false ∨ outstanding s (fenceSet s (1 <<< o.cls.toNat) 3) = false) →
      ∃ b', exec (.barArrive o) s = .next ((s.setBarrier o.n b').afterWrite o.d (BitVec.ofNat 64 (gen.toNat * 2 + if p then 1 else 0))) ∧
        b'.cnt = b.cnt ∧ b'.cores[k].lp = !p ∧
        (if p then b'.a0 = b.a0 ∧ b'.g0 = b.g0 else b'.a1 = b.a1 ∧ b'.g1 = b.g1) ∧
        (∀ j : Fin 4, (if p then b'.cores[j].pd0 = b.cores[j].pd0 else b'.cores[j].pd1 = b.cores[j].pd1) ∧ (j ≠ k → b'.cores[j].lp = b.cores[j].lp) ∧
          b'.cores[j].sip = b.cores[j].sip ∧ b'.cores[j].saved = b.cores[j].saved) ∧
        (count + 1 = b.cnt →
          (if p then b'.a1 = 0 ∧ b'.g1 = gen + 1 else b'.a0 = 0 ∧ b'.g0 = gen + 1) ∧
          ∀ j : Fin 4, (if p then b'.cores[j].pd1 else b'.cores[j].pd0) = false) ∧
        (count + 1 ≠ b.cnt →
          (if p then b'.a1 = count + 1 ∧ b'.g1 = gen else b'.a0 = count + 1 ∧ b'.g0 = gen) ∧
          ∀ j : Fin 4, (if p then b'.cores[j].pd1 else b'.cores[j].pd0) = if j = k then true else if p then b.cores[j].pd1 else b.cores[j].pd0))

/-- R186: `bar.wait` goes on once the parity of its token is in another generation; `bar.init` sets the count, begins both generations
anew and clears every core's part; `bar.sync` of the only core of a barrier arrives, takes its token and goes on at once, waits as an arrival does, and one
that has arrived waits on its token, also when `bar.init` has cleared its part. -/
def barrierWaitAndInit : Prop :=
  ∀ (s : State), s.core.status.cv = true →
    (∀ o : OpBarWait, let b := s.barrier o.n; let v := s.rd o.a
      let gen := if v.getLsbD 0 then b.g1 else b.g0
      (v.toNat / 2 % 2 ^ 32 ≠ gen.toNat → exec (.barWait o) s = .next (s.afterWait o.acq).afterNext) ∧
      (v.toNat / 2 % 2 ^ 32 = gen.toNat → exec (.barWait o) s = .next (s.waitsOn .barrier))) ∧
    (∀ o : OpBarInit, ∃ b, exec (.barInit o) s = .next (s.setBarrier o.n b).afterNext ∧
      b.cnt = o.cnt.toNat ∧ b.a0 = 0 ∧ b.a1 = 0 ∧ b.g0 = (s.barrier o.n).g0 + 1 ∧ b.g1 = (s.barrier o.n).g1 + 1 ∧
      ∀ k : Fin 4, b.cores[k].lp = false ∧ b.cores[k].pd0 = false ∧ b.cores[k].pd1 = false ∧ b.cores[k].sip = false) ∧
    (∀ (o : OpBarSync) (k : Fin 4) (x : CtxCluster), s.core.id.core = k.val → s.cluster.ctxAt s.core.cid.toNat = some x →
      let b := s.barrier o.n; let c := b.cores[k]
      (s.core.issued = none → c.sip = false →
        (b.cnt = 1 → b.a0 = 0 → b.a1 = 0 → c.lp = false → c.pd0 = false →
          (o.rel = false ∨ outstanding s (fenceSet s (1 <<< o.cls.toNat) 3) = false) →
          ∃ t, exec (.barSync o) s = .next t ∧ t.core = ((s.afterWait o.acq).afterWrite o.d (BitVec.ofNat 64 (b.g0.toNat * 2))).core ∧
            (t.barrier o.n).g0 = b.g0 + 1 ∧ (t.barrier o.n).a0 = 0 ∧ (t.barrier o.n).cores[k].lp = true ∧ (t.barrier o.n).cores[k].sip = false ∧
            SameBytes s t) ∧
        (b.cnt = 0 ∨ (if c.lp then c.pd1 else c.pd0) = true → exec (.barSync o) s = .next (s.waitsOn .barrier))) ∧
      (∀ tok : Word, (∃ i, s.core.issued = some i ∧ i.n = tok.toNat + 1) ∨ s.core.issued = none ∧ c.sip = true ∧ c.saved = tok →
        let gen := if tok.getLsbD 0 then b.g1 else b.g0
        (tok.toNat / 2 % 2 ^ 32 ≠ gen.toNat → ∃ t, exec (.barSync o) s = .next t ∧ t.core = ((s.afterWait o.acq).afterWrite o.d tok).core ∧
          (t.barrier o.n).g0 = b.g0 ∧ (t.barrier o.n).g1 = b.g1 ∧ (t.barrier o.n).cores[k].sip = false ∧ SameBytes s t) ∧
        (tok.toNat / 2 % 2 ^ 32 = gen.toNat → ∃ t, exec (.barSync o) s = .next t ∧ t.core.regs = s.core.regsWith o.d tok ∧ t.core.pc = s.core.pc ∧
          t.core.stall = some .barrier ∧ t.core.issued.map (fun i => i.n) = some (tok.toNat + 1) ∧ t.cluster = s.cluster)))

/-- The events of R104 that instructions make, and the transitions the table lists: event, state before, state after. -/
def bufferEvents : List (OpBuf → Instr) := [Instr.bufFill, Instr.bufFull, Instr.bufDrain, Instr.bufEmpty]
def bufferTable : List (Fin 4 × BufPhase × BufPhase) :=
  [(0, .empty, .filling), (0, .draining, .filling), (1, .filling, .full), (2, .full, .draining), (3, .filling, .empty), (3, .full, .empty),
   (3, .draining, .empty)]

/-- R104, R110: each listed event takes the buffer to its next state, `buf.fill` to the next version as well; an event the table does
not list, and any event on a buffer that is not declared, is BUF_STATE. -/
def bufferTransitions : Prop :=
  ∀ (s : State) (o : OpBuf) (e : Fin 4), s.core.status.cv = true →
    let i := (bufferEvents.getD e.val Instr.bufFill) o
    (∀ b, s.core.bufs.find? (fun x => x.id = o.n.toNat) = some b →
      (∀ after, (e, b.phase, after) ∈ bufferTable → exec i s = .next (s.afterNextWith (fun c => { c with bufs := c.bufs.map (fun x =>
        if x.id = o.n.toNat then { b with phase := after, ver := if e = 0 then (b.ver + 1) % b.v else b.ver } else x) }))) ∧
      ((∀ after, (e, b.phase, after) ∉ bufferTable) → exec i s = .next (s.takeFault { cause := .bufState }))) ∧
    ((∀ b ∈ s.core.bufs, b.id ≠ o.n.toNat) → exec i s = .next (s.takeFault { cause := .bufState }))

/-- R110: declaring a buffer, freeing it, and reading its state and its current version's address. -/
def bufferDeclarations : Prop :=
  ∀ (s : State), s.core.status.cv = true →
    (∀ o : OpBufDecl, let base := (s.rd o.a).toNat; let size := (s.rd o.b).toNat; let v := o.vM1.toNat + 1; let stop := base + v * size
      base % 64 = 0 → size % 64 = 0 → 0 < size → size ≤ 0x400000 → stop ≤ s.core.grant →
      (∀ b ∈ s.core.bufs, b.id ≠ o.n.toNat ∧ (stop ≤ b.base ∨ b.base + b.v * b.size ≤ base)) →
      spadPending s.pendingTasks s.core.id.core (base + s.core.spbase) (stop + s.core.spbase) = false →
        exec (.bufDecl o) s = .next (s.afterNextWith (fun c => { c with bufs :=
          { id := o.n.toNat, base := base, size := size, v := v, ver := v - 1, phase := .empty } :: c.bufs }))) ∧
    (∀ (o : OpBuf) (b : Buffer), s.core.bufs.find? (fun x => x.id = o.n.toNat) = some b →
      spadPending s.pendingTasks s.core.id.core (b.base + s.core.spbase) (b.base + b.v * b.size + s.core.spbase) = false →
        exec (.bufFree o) s = .next (s.afterNextWith (fun c => { c with bufs := c.bufs.filter (fun x => x.id ≠ o.n.toNat) }))) ∧
    (∀ o : OpBufD,
      ((∀ b ∈ s.core.bufs, b.id ≠ o.n.toNat) → exec (.bufState o) s = .next (s.afterWrite o.d 0)) ∧
      (∀ b, s.core.bufs.find? (fun x => x.id = o.n.toNat) = some b →
        exec (.bufVer o) s = .next (s.afterWrite o.d (BitVec.ofNat 64 ((b.base + b.ver * b.size) % 2 ^ 32))) ∧
        ∀ k, (b.phase = .empty ∧ k = 0 ∨ b.phase = .filling ∧ k = 1 ∨ b.phase = .full ∧ k = 2 ∨ b.phase = .draining ∧ k = 3) →
          exec (.bufState o) s = .next (s.afterWrite o.d (BitVec.ofNat 64 (256 + (b.v - 1) * 32 + b.ver * 4 + k)))))

/-- R178, R179: the statements above on this, together. -/
def Obligations.Messages : Prop := messageReceive ∧ messageSend

/-- R185, R186: the statements above on this, together. -/
def Obligations.Barriers : Prop := barrierArrival ∧ barrierWaitAndInit

/-- R104, R110: the statements above on this, together. -/
def Obligations.Buffers : Prop := bufferTransitions ∧ bufferDeclarations

/-! ## Tasks: builder, posting, bookkeeping (R112–R117, R130, R196–R199, R206–R208, R298, R308–R332) -/

/-- R308–R310: `tb.new` stages what a record at an aligned address names, `tb.reg`, `tb.arg`, `tb.flag` and `tb.tag` replace one part of
the staged task, and each of the four is TASK_FORM while nothing is staged. What `tb.new` and `tb.reg` read of own scratchpad, later loads have seen (R335; log 78). -/
def Obligations.TaskBuilder : Prop :=
  ∀ (s : State), s.core.status.cv = true →
    let put := fun (g : Staged) => s.afterNextWith (fun c => { c with builder := some g })
    let putRead := fun (g : Staged) => s.afterNextWith (fun c => { c.order with builder := some g })
    (∀ (o : OpA), let a := s.rd o.a
      (2 ^ 32 ≤ a.toNat → exec (.tbNew o) s = .next (s.takeFault { cause := .spadRange, addr := some a })) ∧
      (a.toNat < 2 ^ 32 → a.toNat % 64 ≠ 0 → exec (.tbNew o) s = .next (s.takeFault { cause := .misalign, addr := some a })) ∧
      (a.toNat < 2 ^ 32 → a.toNat % 64 = 0 →
        (∀ g, stage s a.toNat = .ok g → exec (.tbNew o) s = .next (putRead g)) ∧
        (∀ f, stage s a.toNat = .fault f → exec (.tbNew o) s = .next (s.takeFault f)) ∧
        (∀ v, coreLoadD s a.toNat 8 = .ok v → recKind (BitVec.ofNat 512 v) = 1 → recOp (BitVec.ofNat 512 v) ≤ 8 →
          recNr (BitVec.ofNat 512 v) ≤ 8 → recNa (BitVec.ofNat 512 v) ≤ 8 →
          exec (.tbNew o) s = .next (putRead { rec_ := BitVec.ofNat 512 v, header := none, regions := [], args := List.replicate 8 0, walkers := [] })))) ∧
    (∀ g, s.core.builder = some g →
      (∀ o : OpTbIdx, let a := s.rd o.a
        (∀ e, o.i.toNat < g.regions.length → a.toNat < 2 ^ 32 → a.toNat % 32 = 0 → coreLoadEntry s a.toNat = .ok e →
          exec (.tbReg o) s = .next (putRead { g with regions := g.regions.set o.i.toNat e })) ∧
        (recKind g.rec_ = 0 ∨ recKind g.rec_ = 2 → exec (.tbArg o) s = .next (put { g with args := g.args.set o.i.toNat a })) ∧
        (g.regions.length ≤ o.i.toNat → exec (.tbReg o) s = .next (s.takeFault { cause := .taskForm })) ∧
        (recKind g.rec_ ≠ 0 ∧ recKind g.rec_ ≠ 2 → exec (.tbArg o) s = .next (s.takeFault { cause := .taskForm }))) ∧
      (∀ o : OpTbFlag, ∃ r, exec (.tbFlag o) s = .next (put { g with rec_ := r }) ∧
        ∀ i, r.getLsbD i = if i = 44 then o.fe else if 38 ≤ i ∧ i < 44 then o.fe && o.f.getLsbD (i - 38) else g.rec_.getLsbD i) ∧
      (∀ o : OpA, ∃ r, exec (.tbTag o) s = .next (put { g with rec_ := r }) ∧
        ∀ i, r.getLsbD i = if 22 ≤ i ∧ i < 38 then (s.rd o.a).getLsbD (i - 22) else g.rec_.getLsbD i)) ∧
    (s.core.builder = none →
      (∀ o, exec (.tbReg o) s = .next (s.takeFault { cause := .taskForm }) ∧ exec (.tbArg o) s = .next (s.takeFault { cause := .taskForm })) ∧
      (∀ o, exec (.tbFlag o) s = .next (s.takeFault { cause := .taskForm })) ∧
      (∀ o, exec (.tbTag o) s = .next (s.takeFault { cause := .taskForm })))

/-- A posting command with what its block, read at an aligned address, is checked to be (R113). -/
def postTable (s : State) (o : OpCmd) : List (Instr × Res Draft) :=
  let a := (s.rd o.a).toNat
  let copy := fun op pat => (coreLoadEntries s a (copyRoles op).length).bind fun es => draftCopy s s.poster op pat es
  let shape := fun u => (readHeaded s a shapeEntries).bind fun b => draftShape s s.poster u b.1 b.2
  let acc := fun op => (readHeaded s a (acRegions op)).bind fun b => draftAcc s s.poster op b.1 b.2
  [(.cpBox o, copy 0 0), (.cpFill o, copy 1 (s.rd o.b)), (.cpGather o, copy 2 0), (.cpScatter o, copy 3 0),
   (.shLoad o, shape false), (.shUnload o, shape true),
   (.accZero o, acc 0), (.accLoad o, acc 1), (.accDrain o, acc 2), (.accChk o, acc 3)]

/-- The state after an admitted task of the acting core: its entry is the cluster's newest, declared buffers it consumes move on, a vector
task takes its key, and with `nb` sd says so. It waits for every older pending task of its context and cluster that conflicts, the saved ones among them (R318, R320; which of
R318 and R424 counts the waits, log 81, DESIGN CHOICE). The rest is `afterWrite`'s. -/
def admittedAs (s : State) (d : Draft) (nb : Bool) (sd : Reg) (k : Task) (t : State) : Prop :=
  let own := s.clusterAt s.core.id.die s.core.id.clu
  let consumed := if s.core.status.cv then d.consumed.foldl (fun b h => bufConsume b h.1 h.2) s.core.bufs else s.core.bufs
  let base := if nb then s.afterWrite sd 1 else s.afterNext
  t.core = { base.core with bufs := consumed
                            cr := match d.op with
                              | .vec _ => { base.core.cr with bseq := base.core.cr.bseq + 1 }
                              | _ => base.core.cr } ∧
  t.clusterAt s.core.id.die s.core.id.clu = { own with tasks := own.tasks ++ [k], nextTask := own.nextTask + 1 } ∧
  k.op = d.op ∧ k.regions = d.regions ∧ k.ctx = s.core.cid.toNat ∧ k.core = s.core.id.core ∧ k.remote = false ∧ k.stop = false ∧
  (∀ w, w ∈ k.waits ↔ (∃ q ∈ own.tasks, q.id = w ∧ q.pending = true ∧ q.ctx = s.core.cid.toNat ∧ waitsFor d.regions q.regions = true) ∨
    ∃ q ∈ s.savedTasks s.core.id.die s.core.id.clu s.core.cid.toNat, q.id = w ∧ waitsFor d.regions q.regions = true) ∧
  (k.phase = .ready ∧ k.waits = [] ∨ k.phase = .waiting ∧ k.waits ≠ []) ∧ k.flags = 0 ∧ k.resume = .start ∧
  k.rm = s.core.cr.fpctl ∧ k.kt = s.core.cr.bkey ^^^ s.core.cr.bseq ∧ k.policy.toNat = s.core.cr.cpol.toNat / 2 ^ 14 ∧
  k.count = s.core.cr.cpol.toNat / 2 ^ 8 % 64 ∧
  { t with core := s.core, cluster := s.cluster, parkedClusters := s.parkedClusters } = s

/-- R112–R114, R311–R314, R318, R321: a posting command whose block passes its checks admits a task that waits for every older task
of its context that conflicts with it; a full quota stalls it, or with NB gives 0; a failed check is its fault. What the command has read of own scratchpad, later loads have
seen (R335; log 78). -/
def postingCommands : Prop :=
  ∀ (s : State) (o : OpCmd), s.core.status.cv = true → s.core.aside = none →
    let own := s.clusterAt s.core.id.die s.core.id.clu
    (∀ x, own.ctxAt s.core.cid.toNat = some x → x.cancelled = false) →
    let a := s.rd o.a
    ∀ p ∈ postTable s o,
      (2 ^ 32 ≤ a.toNat → exec p.1 s = .next (s.takeFault { cause := .spadRange, addr := some a })) ∧
      (a.toNat < 2 ^ 32 → a.toNat % 32 ≠ 0 → exec p.1 s = .next (s.takeFault { cause := .misalign, addr := some a })) ∧
      (a.toNat < 2 ^ 32 → a.toNat % 32 = 0 →
        (∀ f, p.2 = .fault f → exec p.1 s = .next (s.takeFault f)) ∧
        (∀ d, p.2 = .ok d → let n := (d.regions.filter (fun r => !r.null)).length
          (own.hasRoom false s.core.id.core n = true → ∃ k t, exec p.1 s = .next t ∧ admittedAs s.seesAll d o.nb o.d k t ∧
            k.id = own.nextTask ∧ k.pri = o.pri ∧ k.cls = o.cls ∧ k.flag = (if o.fe then some o.flg else none) ∧ k.entries = n) ∧
          (own.hasRoom false s.core.id.core n = false →
            exec p.1 s = .next (if o.nb then s.afterWrite o.d 0 else s.waitsOn .quota))))

/-- R311, R312, R327: a POST of a context that is cancelled in the cluster is CANCEL after its own checks, also between a load and its `resume`. Between the two nothing else is
admitted: the post stalls, or gives 0 with NB; that is the model's choice (DESIGN CHOICE, log 39). -/
def cancelledPosts : Prop :=
  ∀ (s : State) (o : OpCmd) (x : CtxCluster), s.core.status.cv = true → s.placed → s.cluster.ctxAt s.core.cid.toNat = some x →
    (s.rd o.a).toNat < 2 ^ 32 → (s.rd o.a).toNat % 32 = 0 → ∀ p ∈ postTable s o, ∀ d, p.2 = .ok d →
      (x.cancelled = true → exec p.1 s = .next (s.takeFault { cause := .cancel })) ∧
      (x.cancelled = false → s.core.aside ≠ none → exec p.1 s = .next (if o.nb then s.afterWrite o.d 0 else s.waitsOn .quota))

/-- R303–R306, R311: `tb.post` posts the staged task by the same rules, with the record's own fields, and leaves it staged; R298: `rpost`
posts a task of no regions whose one effect is the POST of the record, block and arguments it copied. -/
def stagedAndRemotePosts : Prop :=
  ∀ (s : State), s.core.status.cv = true → s.core.aside = none →
    let own := s.clusterAt s.core.id.die s.core.id.clu
    (∀ x, own.ctxAt s.core.cid.toNat = some x → x.cancelled = false) →
    (∀ o : OpTbPost,
      (s.core.builder = none → exec (.tbPost o) s = .next (s.takeFault { cause := .taskForm })) ∧
      (∀ g, s.core.builder = some g →
        (∀ f, draftStaged s s.poster g = .fault f → exec (.tbPost o) s = .next (s.takeFault f)) ∧
        (∀ d, draftStaged s s.poster g = .ok d → let n := (d.regions.filter (fun r => !r.null)).length
          (own.hasRoom false s.core.id.core n = true → ∃ k t, exec (.tbPost o) s = .next t ∧ admittedAs s d o.nb o.d k t ∧
            t.core.builder = some g ∧ k.tag.toNat = g.rec_.toNat / 2 ^ 22 % 2 ^ 16 ∧ k.pri.toNat = g.rec_.toNat / 2 ^ 49 % 4 ∧
            k.cls.toNat = g.rec_.toNat / 2 ^ 45 % 16 ∧
            k.flag = if g.rec_.getLsbD 44 then some (BitVec.ofNat 6 (g.rec_.toNat / 2 ^ 38 % 64)) else none) ∧
          (own.hasRoom false s.core.id.core n = false →
            exec (.tbPost o) s = .next (if o.nb then s.afterWrite o.d 0 else s.waitsOn .quota))))) ∧
    (∀ (o : OpCmd) (t : Target) (g : Staged), checkTarget s (s.rd o.b) = .ok t → (s.rd o.a).toNat < 2 ^ 32 → (s.rd o.a).toNat % 64 = 0 →
      remoteStage s (s.rd o.a).toNat = .ok g →
      (own.hasRoom false s.core.id.core 0 = true → ∃ k u, exec (.rpost o) s = .next u ∧
        admittedAs s.seesAll { op := .rpost (s.rd o.b) (.post g.rec_ g.header g.regions g.args), regions := [], consumed := [] } o.nb o.d k u ∧
        k.phase = .ready ∧ k.cls = o.cls ∧ k.pri = o.pri) ∧
      (own.hasRoom false s.core.id.core 0 = false → exec (.rpost o) s = .next (if o.nb then s.afterWrite o.d 0 else s.waitsOn .quota)))

/-- The matrix commands with their minor numbers and the slots each reads (R197). -/
def mmaTable (o : OpMma) : List (Instr × Nat × List Nat) :=
  let two := [o.a.toNat, o.b.toNat]
  [(.mmaBf16 o, 0, two), (.mmaF16 o, 1, two), (.mmaE4m3 o, 2, two), (.mmaE5m2 o, 3, two), (.mmaI8 o, 4, two), (.mmaMx4 o, 5, two),
   (.mmaF32 o, 6, two), (.mmaF64 o, 7, two), (.mmaZ64 o, 8, [o.a.toNat, o.a.toNat + 1, o.b.toNat, o.b.toNat + 1])]

/-- R23, R196–R199: a matrix command whose slots and tile the core owns admits a task that reads its slots of 128 KiB and reads and writes its
tile of 256 KiB, `mma.f64` the half that bit 2 of SPEC names; an F64 command without the F64 path is UNIT_ABSENT before that, a slot not
owned PAL_STATE, then a tile not owned ACC_OWNER; a full quota stalls. -/
def Obligations.MatrixCommands : Prop :=
  ∀ (s : State) (o : OpMma) (x : CtxCluster), s.core.status.cv = true → s.core.aside = none → o.a.toNat < 32 → o.b.toNat < 32 →
    let own := s.clusterAt s.core.id.die s.core.id.clu
    own.ctxAt s.core.cid.toNat = some x → x.cancelled = false →
    ∀ p ∈ mmaTable o,
      let slots := p.2.2; let absent := p.2.1 ∈ [7, 8] ∧ s.modul.caps.zmat = false
      let ownSlots := ∀ n ∈ slots, (n, s.core.id.core) ∈ x.slotOwner
      let ownTile := (o.d.toNat, s.core.id.core) ∈ x.tileOwner
      (absent → exec p.1 s = .next (s.takeFault { cause := .unitAbsent })) ∧
      (¬ absent → ¬ ownSlots → exec p.1 s = .next (s.takeFault { cause := .palState })) ∧
      (¬ absent → ownSlots → ¬ ownTile → exec p.1 s = .next (s.takeFault { cause := .accOwner })) ∧
      (¬ absent → ownSlots → ownTile →
        let half := p.2.1 = 7
        let part : Region := Region.mk false true true false .acc 8
          (o.d.toNat * 0x40000 + (if half then (if o.spec.getLsbD 2 then 0x20000 else 0) else 0)) [(if half then 16384 else 32768, 8)] s.core.id.core
        let read := fun (n : Nat) => Region.mk false true false false .pal 8 (n * 0x20000) [(16384, 8)] s.core.id.core
        let d : Draft := { op := .mma p.2.1 o.d.toNat o.a.toNat o.b.toNat o.spec, regions := slots.map read ++ [part], consumed := [] }
        (own.hasRoom false s.core.id.core d.regions.length = true → ∃ k t, exec p.1 s = .next t ∧ admittedAs s d false 0 k t ∧ k.pri = o.pri) ∧
        (own.hasRoom false s.core.id.core d.regions.length = false → exec p.1 s = .next (s.waitsOn .quota)))

/-- A task of the issuing core that a tag and a mask match (R328, R330). -/
def matchedBy (s : State) (o : OpRRR) (t : Task) : Prop :=
  t.ctx = s.core.cid.toNat ∧ t.core = s.core.id.core ∧ t.remote = false ∧
    ∀ i < 16, (s.rd o.b).getLsbD i = true → t.tag.getLsbD i = (s.rd o.a).getLsbD i

/-- R320, R328–R332: `tb.cancel` takes out of the Atelier the pending tasks it matches that have not been dispatched, stops the dispatched ones, leaves every
other task but for what it waited for, and counts what it matches; `twait` goes on when none of what it took down at issue is left, answering how many there
were, and is an acquire; `tq.state` counts by state and `tq.free` free entries. -/
def Obligations.TasksByTag : Prop :=
  ∀ (s : State), s.core.status.cv = true →
    (∀ o : OpRRR,
      let m := s.cluster.tasks.filter (fun t => decide (t.ctx = s.core.cid.toNat ∧ t.core = s.core.id.core ∧ t.remote = false ∧
        t.tag &&& BitVec.ofNat 16 (s.rd o.b).toNat = BitVec.ofNat 16 (s.rd o.a).toNat &&& BitVec.ofNat 16 (s.rd o.b).toNat))
      let pending := m.filter (fun t => t.pending); let count := fun (p : TaskPhase) => (m.filter (fun t => t.phase = p)).length
      let gone := (pending.filter (fun t => decide (t.phase ≠ .dispatched) || t.isRpost)).map (fun t => t.id)
      let left := fun (u : Task) =>
        let w := u.waits.filter (fun i => i ∉ gone)
        { u with waits := w, phase := if u.phase = .waiting ∧ w = [] ∧ gone ≠ [] then .ready else u.phase
                 stop := u.stop || decide (u.id ∈ pending.map (fun t => t.id)) }
      (∀ t, t ∈ m ↔ t ∈ s.cluster.tasks ∧ matchedBy s o t) ∧
      (pending = [] → exec (.tbCancel o) s = .next (s.afterWrite o.d 0)) ∧
      (∃ t, exec (.tbCancel o) s = .next t ∧ t.core.regs = s.core.regsWith o.d (BitVec.ofNat 64 pending.length) ∧ t.core.pc = s.core.pc + 8 ∧
        (s.placed → (s.cluster.tasks.map (fun t => t.id)).Nodup →
          t.cluster.tasks = (s.cluster.tasks.filter (fun u => u.id ∉ gone)).map left)) ∧
      (s.core.issued = none →
        (m = [] → exec (.twait o) s = .next ((s.afterWait true).afterWrite o.d 0)) ∧
        (m ≠ [] → exec (.twait o) s = .next { s with core := { s.core with stall := some .tasks, issued := some { ids := m.map (fun t => t.id), n := m.length } } })) ∧
      (∀ i, s.core.issued = some i →
        ((∀ t ∈ s.cluster.tasks, t.id ∉ i.ids) → exec (.twait o) s = .next ((s.afterWait true).afterWrite o.d (BitVec.ofNat 64 i.n))) ∧
        ((∃ t ∈ s.cluster.tasks, t.id ∈ i.ids) → exec (.twait o) s = .next (s.waitsOn .tasks))) ∧
      (m.length < 256 → exec (.tqState o) s = .next (s.afterWrite o.d (BitVec.ofNat 64 (count .waiting + count .ready * 2 ^ 8 + count .dispatched * 2 ^ 16 +
        count .complete * 2 ^ 24))))) ∧
    (∀ o : OpD,
      let mine := s.cluster.tasks.filter (fun t => t.remote = false && t.core = s.core.id.core)
      let far := s.cluster.tasks.filter (fun t => t.remote)
      let entries := fun (l : List Task) => (l.map (fun t => t.entries)).sum
      exec (.tqFree o) s = .next (s.afterWrite o.d (BitVec.ofNat 64 ((224 - mine.length) + (896 - entries mine) * 2 ^ 8 +
        (128 - far.length) * 2 ^ 18 + (512 - entries far) * 2 ^ 26))))

/-- R112–R114, R298, R303–R306, R311–R314, R318, R321: the statements above on this, together. -/
def Obligations.PostedTasks : Prop := postingCommands ∧ cancelledPosts ∧ stagedAndRemotePosts

/-! ## Palette, canvas leases, windows, remote requests (R167, R189–R195, R212, R288–R300) -/

/-- R189–R192: a core claims slots of its context's grant that no other core owns, releases slots it owns that no pending task of it
names, and reads which are free and which are its own; slots outside the grant, or released without owning them, are PAL_STATE. -/
def paletteSlots : Prop :=
  ∀ (s : State) (x : CtxCluster), s.core.status.cv = true → s.cluster.ctxAt s.core.cid.toNat = some x →
    let k := s.core.id.core
    let owned := fun (t : State) (own : Nat → Nat → Prop) => ∃ y, t.cluster.ctxAt s.core.cid.toNat = some y ∧ { y with slotOwner := x.slotOwner } = x ∧
      ∀ n c, (n, c) ∈ y.slotOwner ↔ own n c
    (∀ o : OpPalClaim, let m := s.rd o.a
      let inGrant := ∀ n < 32, m.getLsbD n = true → x.palGrant.getLsbD n = true
      let busy := ∃ n c, n < 32 ∧ m.getLsbD n = true ∧ (n, c) ∈ x.slotOwner ∧ c ≠ k
      (¬ inGrant → exec (.palClaim o) s = .next (s.takeFault { cause := .palState })) ∧
      (inGrant → busy → exec (.palClaim o) s = .next (if o.nb then s.afterWrite o.d 0 else s.waitsOn .palette)) ∧
      (inGrant → ¬ busy → ∃ t, exec (.palClaim o) s = .next t ∧
        owned t (fun n c => if n < 32 ∧ m.getLsbD n = true then c = k else (n, c) ∈ x.slotOwner) ∧
        t.core = (if o.nb then s.afterWrite o.d 1 else s.afterNext).core ∧
        { t with core := s.core, cluster := { t.cluster with ctxs := s.cluster.ctxs } } = s)) ∧
    (∀ o : OpA, let m := s.rd o.a
      let mine := ∀ n < 32, m.getLsbD n = true → (n, k) ∈ x.slotOwner
      let named := palPending s (BitVec.ofNat 32 m.toNat) = true
      (¬ mine → exec (.palRel o) s = .next (s.takeFault { cause := .palState })) ∧
      (mine → named → exec (.palRel o) s = .next (s.waitsOn .tasks)) ∧
      (mine → ¬ named → ∃ t, exec (.palRel o) s = .next t ∧ owned t (fun n c => ¬ (n < 32 ∧ m.getLsbD n = true) ∧ (n, c) ∈ x.slotOwner) ∧
        t.core = s.afterNext.core ∧ { t with core := s.core, cluster := { t.cluster with ctxs := s.cluster.ctxs } } = s)) ∧
    (∀ o : OpD, ∃ v, exec (.palOwn o) s = .next (s.afterWrite o.d v) ∧ ∀ n < 32,
      (v.getLsbD n = true ↔ (n, k) ∈ x.slotOwner) ∧
      (v.getLsbD (n + 32) = true ↔ x.palGrant.getLsbD n = true ∧ ∀ c, (n, c) ∉ x.slotOwner))

/-- R195, R212: a tile is given to a core of the job; a requester's lease length is set, by U mode its own only, 0 as 16 and above 64 as 64;
`lease.get` reads the canvas. -/
def tilesAndLeases : Prop :=
  ∀ (s : State), s.core.status.cv = true →
    (∀ (o : OpAccGive) (x : CtxCluster) (j : Job), s.placed → s.cluster.ctxAt s.core.cid.toNat = some x → s.jobOf s.core.cid.toNat = some j →
      let mine := (o.n.toNat, s.core.id.core) ∈ x.tileOwner
      let launched := (⟨s.core.id.die, s.core.id.clu, o.core.toNat⟩ : CoreId) ∈ j.cores
      (¬ mine → exec (.accGive o) s = .next (s.takeFault { cause := .accOwner })) ∧
      (mine → ¬ launched → exec (.accGive o) s = .next (s.takeFault { cause := .priv })) ∧
      (mine → launched → ∃ t y, exec (.accGive o) s = .next t ∧ t.cluster.ctxAt s.core.cid.toNat = some y ∧ { y with tileOwner := x.tileOwner } = x ∧
        (∀ n, assoc y.tileOwner n = if n = o.n.toNat then some o.core.toNat else assoc x.tileOwner n) ∧ t.core = s.afterNext.core)) ∧
    (∀ o : OpLeaseSet,
      (s.core.status.mode = false ∧ o.t.toNat ≠ s.core.id.core → exec (.leaseSet o) s = .next (s.takeFault { cause := .priv })) ∧
      (s.core.status.mode = true ∨ o.t.toNat = s.core.id.core → ∃ l,
        exec (.leaseSet o) s = .next ({ s with cluster := { s.cluster with canvas := { s.cluster.canvas with lens := l } } }.afterNext) ∧
        ∀ i : Fin 5, l[i] = if i.val = o.t.toNat then (let v := (s.rd o.a).toNat % 128; if v = 0 then 16 else min v 64)
          else s.cluster.canvas.lens[i])) ∧
    (∀ (o : OpD) (k : Fin 5), s.core.id.core = k.val → s.cluster.canvas.lens[k] < 128 → s.cluster.canvas.done < 128 →
      let c := s.cluster.canvas
      let cold := c.cold = true ∨ s.cluster.canvasTask = none ∧ c.lastBusy + 1024 ≤ s.sched.now
      ∃ v, exec (.leaseGet o) s = .next (s.afterWrite o.d v) ∧ v.toNat / 2 ^ 48 = c.ends.toNat ∧ v.toNat / 2 ^ 34 % 2 ^ 7 = c.lens[k] ∧
        (v.getLsbD 33 = true ↔ c.gust = true) ∧ (v.getLsbD 32 = true ↔ cold) ∧ v.toNat / 2 ^ 22 % 2 ^ 7 = c.done ∧
        (c.holder = none → v.toNat / 2 ^ 29 % 8 = 7) ∧ (∀ h, c.holder = some h → v.toNat / 2 ^ 29 % 8 = h % 8))

/-- R288, R294–R296, R300, R301: mapping, unmapping, setting the allowance of and reading a window; a window with outstanding requests or named
by a pending task waits, a cancelled context is CANCEL, and a bad target, length or place is the fault the checks name. -/
def windowInstructions : Prop :=
  ∀ (s : State), s.core.status.cv = true →
    let cancelled := ∃ x, s.cluster.ctxAt s.core.cid.toNat = some x ∧ x.cancelled = true
    let busy := fun (i : Fin 16) => 0 < s.core.windows[i].out ∨ remPending s.pendingTasks s.core.id.core i.val = true
    let put := fun (i : Fin 16) (w : Window) => s.afterNextWith (fun c => { c with windows := c.windows.set i.val w i.isLt })
    (∀ (o : OpWinMap) (f : FaultInfo), checkTarget s (s.rd o.a) = .fault f → exec (.winMap o) s = .next (s.takeFault f)) ∧
    (∀ (o : OpRflag) (f : FaultInfo), checkTarget s (s.rd o.b) = .fault f → exec (.rflag o) s = .next (s.takeFault f)) ∧
    (∀ w, let t := s.target w
      let noPlace := w.getLsbD 18 = true ∨ s.inTorus t.die = false
      let noCluster := ∃ d, s.dieIndex t.die = some d ∧ s.ncl d ≤ t.clu
      (noPlace → checkTarget s w = .fault { cause := .winUnmapped, addr := some w }) ∧
      (¬ noPlace → noCluster → checkTarget s w = .fault { cause := .unitAbsent, addr := some w }) ∧
      (¬ noPlace → ¬ noCluster → checkTarget s w = .ok t)) ∧
    (∀ (o : OpWinMap) (i : Fin 16) (t : Target), o.n.toNat = i.val → checkTarget s (s.rd o.a) = .ok t →
      let rb := (s.rd o.b).toNat % 2 ^ 22; let m := (s.rd o.b).toNat / 2 ^ 32 % 2 ^ 23
      (rb % 64 ≠ 0 ∨ m % 64 ≠ 0 → exec (.winMap o) s = .next (s.takeFault { cause := .misalign })) ∧
      (rb % 64 = 0 → m % 64 = 0 →
        (m = 0 ∨ 0x400000 < rb + m → exec (.winMap o) s = .next (s.takeFault { cause := .winUnmapped, addr := some (s.rd o.a) })) ∧
        (m ≠ 0 → rb + m ≤ 0x400000 →
          (cancelled → exec (.winMap o) s = .next (s.takeFault { cause := .cancel })) ∧
          (¬ cancelled → busy i → exec (.winMap o) s = .next (s.waitsOn .window)) ∧
          (¬ cancelled → ¬ busy i → exec (.winMap o) s = .next (put i { s.core.windows[i] with
            map := some { die := t.die, clu := t.clu, core := t.core, rb := rb, size := m, raise := o.raise } }))))) ∧
    (∀ (o : OpWin) (i : Fin 16), o.n.toNat = i.val →
      (cancelled → exec (.winUnmap o) s = .next (s.takeFault { cause := .cancel })) ∧
      (¬ cancelled → busy i → exec (.winUnmap o) s = .next (s.waitsOn .window)) ∧
      (¬ cancelled → ¬ busy i → exec (.winUnmap o) s = .next (put i { s.core.windows[i] with map := none }))) ∧
    (¬ cancelled →
      (∀ (o : OpWinA) (i : Fin 16), o.n.toNat = i.val →
        exec (.winAllow o) s = .next (put i { s.core.windows[i] with
          alw := (let v := (s.rd o.a).toNat % 2048; if v = 0 then 64 else min v 1024) })) ∧
      (∀ (o : OpWinStat) (i : Fin 16), o.n.toNat = i.val → let w := s.core.windows[i]
        (o.direct = false → (∀ m, w.map = some m → m.size < 2 ^ 23) → w.alw < 2048 → w.out < 2048 →
          let ws := s.core.windows.set i.val { w with den := w.den && !o.clr } i.isLt
          ∃ v, exec (.winStat o) s = .next ({ s with core := { s.core with windows := ws } }.afterWrite o.d v) ∧
            v.toNat / 2 ^ 37 = w.alw ∧ v.toNat / 2 ^ 26 % 2048 = w.out ∧ (v.getLsbD 23 = true ↔ w.den = true) ∧
            (v.getLsbD 25 = true ↔ w.map ≠ none) ∧ (w.map = none → v.toNat % 2 ^ 23 = 0 ∧ v.getLsbD 24 = false) ∧
            ∀ m, w.map = some m → v.toNat % 2 ^ 23 = m.size ∧ (v.getLsbD 24 = true ↔ m.raise = true)) ∧
        (o.direct = true → s.core.directOut < 2048 →
          ∃ v, exec (.winStat o) s = .next ({ s with core := { s.core with directDen := s.core.directDen && !o.clr } }.afterWrite o.d v) ∧
            v.toNat / 2 ^ 37 = 16 ∧ v.toNat / 2 ^ 26 % 2048 = s.core.directOut ∧ (v.getLsbD 23 = true ↔ s.core.directDen = true) ∧
            v.getLsbD 25 = false ∧ v.toNat % 2 ^ 23 = 0)))

/-- R167, R171, R288, R290, R293, R297, R300: a store through a mapped window to another cluster leaves as a WRITE of its bytes and counts in OUT;
an atomic leaves as an ATOMIC that performs the table's operation, and the core waits for its reply; `rflag` leaves as a FLAG under the
direct status. Outside the mapping both are WIN_UNMAPPED, at the allowance they wait. -/
def requestsToOtherClusters : Prop :=
  ∀ (s : State), s.core.status.cv = true →
    (∀ (o : OpMem) (i : Fin 16),
      let ea := s.rd o.a + BitVec.ofInt 64 o.off.toInt; let n := 2 ^ o.size.toNat; let win := s.core.windows[i]
      ea.toNat / 0x4000000 = 16 + i.val → ea.toNat % n = 0 →
      let off := ea.toNat % 0x4000000
      (win.map = none → exec (.st o) s = .next (s.takeFault { cause := .winUnmapped, addr := some ea }) ∧
        ∀ p ∈ atomTable (8 * n), exec (p.1 o) s = .next (s.takeFault { cause := .winUnmapped, addr := some ea })) ∧
      (∀ m, win.map = some m →
        (m.size ≤ off → exec (.st o) s = .next (s.takeFault { cause := .winUnmapped, addr := some ea }) ∧
          ∀ p ∈ atomTable (8 * n), exec (p.1 o) s = .next (s.takeFault { cause := .winUnmapped, addr := some ea })) ∧
        (off < m.size → fenceHolds s.core.fences s.core.effects m.die o.cls = false →
          (win.alw ≤ win.out → exec (.st o) s = .next (s.waitsOn .allowance) ∧ ∀ p ∈ atomTable (8 * n), exec (p.1 o) s = .next (s.waitsOn .allowance)) ∧
          (win.out < win.alw → s.die.pairRoom m.die o.cls = true →
            let t : Target := { die := m.die, clu := m.clu, core := m.core }
            s.ownCluster s.core.id t = false →
              (∃ u, exec (.st o) s = .next u ∧ leavesAs s t o.cls (.write (m.rb + off) (bytesAt (m.rb + off) n (s.rd o.d).toNat) m.raise false) (some i.val) u ∧
                u.core.windows[i] = { win with out := win.out + 1 } ∧ u.core.regs = s.core.regs ∧ u.core.pc = s.core.pc + 8) ∧
              (2 ≤ o.size.toNat → ∀ p ∈ atomTable (8 * n), ∃ u q, exec (p.1 o) s = .next u ∧ leavesAs s t o.cls (.atomic (m.rb + off) q) (some i.val) u ∧
                (∀ old < 2 ^ (8 * n), atomResult q old = p.2.2 old ((s.rd o.d).toNat % 2 ^ (8 * n)) ((s.rd (o.d + 1)).toNat % 2 ^ (8 * n))) ∧
                u.core.windows[i] = { win with out := win.out + 1 } ∧ u.core.regs = s.core.regs ∧ u.core.pc = s.core.pc ∧
                u.core.stall = some .reply ∧ u.core.await.map (fun a => (a.uid, a.d)) = some (s.modul.nextUid, o.d)))))) ∧
    (∀ (o : OpRflag) (t : Target), checkTarget s (s.rd o.b) = .ok t → s.ownCluster s.core.id t = false →
      fenceHolds s.core.fences s.core.effects t.die o.cls = false → s.core.directOut < 16 → s.die.pairRoom t.die o.cls = true →
      (o.rel = false ∨ outstanding s (fenceSet s (1 <<< o.cls.toNat) 3) = false) →
        ∃ u, exec (.rflag o) s = .next u ∧ leavesAs s t o.cls (.flag o.f (BitVec.ofNat 32 (s.rd o.a).toNat)) none u ∧
          u.core.directOut = s.core.directOut + 1 ∧ u.core.regs = s.core.regs ∧ u.core.pc = s.core.pc + 8)

/-! ## Fences, work queues, signals (R340–R345, R366, R367) -/

/-- R341: an effect of the classes in `mask` that is part of the earlier set: the core handed it on, or a task that has reached COMPLETE or ended did. -/
def earlierEffect (s : State) (mask : BitVec 16) (e : Effect) : Prop :=
  e ∈ s.core.effects ∧ mask.getLsbD e.cls.toNat = true ∧ ∀ t, e.task = some t → t ∉ s.pendingIds s.core.id.die s.core.id.clu

/-- R343: the scopes, core, cluster, package and system over the machine's destinations; the host's are in the host scope alone. -/
def inReach (s : State) (scope : Nat) (e : Effect) : Prop :=
  let here := s.dieNumber s.core.id.die
  (e.host = true → scope = 4) ∧ (e.host = false →
    (scope = 0 → e.die = here ∧ e.clu = s.core.id.clu ∧ e.core = s.core.id.core) ∧ (scope = 1 → e.die = here ∧ e.clu = s.core.id.clu) ∧
    (scope = 2 → ∃ d < s.dies, s.dieNumber d = e.die))

/-- The instruction waits, with the effects it waits for taken down when it issued. -/
def waitsForEffects (s : State) (mask : BitVec 16) (scope : Nat) (i : Instr) : Prop :=
  let waits := fun (ids : List Nat) => exec i s = .next { s with core := { s.core with stall := some .fence, issued := some { ids := ids, n := 0 } } }
  (s.core.issued = none → (∃ e, earlierEffect s mask e ∧ inReach s scope e) →
    ∃ ids, waits ids ∧ ∀ u, u ∈ ids ↔ ∃ e, e.uid = u ∧ earlierEffect s mask e ∧ inReach s scope e) ∧
  (∀ k, s.core.issued = some k → (∃ e ∈ s.core.effects, e.uid ∈ k.ids) → waits k.ids)

/-- R340–R345: `fence.c` never waits and makes later effects of its classes wait for the earlier ones for the same die; `fence.g` waits until every earlier
effect in its classes and scope is performed, then goes on. So, in their own class, do the release forms of `flag.add`, `flag.set`, `bar.arrive`,
`bar.sync` and `rflag`, at system scope, and of `sig.sub`, at host scope (R183). -/
def Obligations.Fences : Prop :=
  ∀ (s : State),
    (∀ o : OpFenceC, ∃ f, exec (.fenceC o) s = .next (s.afterNextWith (fun c => { c with fences := f })) ∧
      ∀ die cls, fenceHolds f s.core.effects die cls = true ↔ fenceHolds s.core.fences s.core.effects die cls = true ∨
        o.mask.getLsbD cls.toNat = true ∧ ∃ e e', e' ∈ s.core.effects ∧ e'.die = die ∧ e'.host = false ∧ e'.uid = e.uid ∧ earlierEffect s o.mask e) ∧
    (∀ o : OpFenceG, waitsForEffects s o.mask o.scope.toNat (.fenceG o) ∧
      (s.core.issued = none → (∀ e, ¬ (earlierEffect s o.mask e ∧ inReach s o.scope.toNat e)) → exec (.fenceG o) s = .next s.afterNext) ∧
      (∀ k, s.core.issued = some k → (∀ e ∈ s.core.effects, e.uid ∉ k.ids) → exec (.fenceG o) s = .next s.afterNext)) ∧
    (s.core.status.cv = true →
      (∀ (o : OpFlagAdd) (x : CtxCluster), o.rel = true → s.cluster.ctxAt s.core.cid.toNat = some x →
        let id : CoreId := ⟨s.core.id.die, s.core.id.clu, if o.t then o.core.toNat else s.core.id.core⟩
        let there := x.coreFlags id.core
        there.launched = true → (flagEntry there.fmap o.f).1 = true →
        id = s.core.id ∨ fenceHolds s.core.fences s.core.effects (s.dieNumber s.core.id.die) o.cls = false →
        waitsForEffects s (1 <<< o.cls.toNat) 3 (.flagAdd o) ∧ waitsForEffects s (1 <<< o.cls.toNat) 3 (.flagSet o)) ∧
      (∀ (k : Fin 4), s.core.id.core = k.val →
        (∀ o : OpBarArrive, o.rel = true → (s.barrier o.n).cnt ≠ 0 →
          (let c := (s.barrier o.n).cores[k]; if c.lp then c.pd1 else c.pd0) = false → waitsForEffects s (1 <<< o.cls.toNat) 3 (.barArrive o)) ∧
        (∀ o : OpBarSync, o.rel = true → (s.barrier o.n).cnt ≠ 0 → (s.barrier o.n).cores[k].sip = false → (∀ i, s.core.issued = some i → i.n = 0) →
          (let c := (s.barrier o.n).cores[k]; if c.lp then c.pd1 else c.pd0) = false → waitsForEffects s (1 <<< o.cls.toNat) 3 (.barSync o))) ∧
      (∀ (o : OpRflag) (t : Target), o.rel = true → checkTarget s (s.rd o.b) = .ok t → waitsForEffects s (1 <<< o.cls.toNat) 3 (.rflag o)) ∧
      (∀ (o : OpSigSub) (j : Job), o.rel = true → s.jobOf s.core.cid.toNat = some j → o.j.toNat < j.signals.length →
        waitsForEffects s (1 <<< o.cls.toNat) 4 (.sigSub o)))

/-- R366, R367: `wq.pop` takes the oldest record into the pair, and with NB says in sb whether there was one; `wq.count` counts; `sig.sub` hands a
subtraction to the command processor; `sig.read` reads the signal's value; a number the job has not is UNIT_ABSENT. -/
def Obligations.QueuesAndSignals : Prop :=
  ∀ (s : State) (j : Job), s.core.status.cv = true → s.jobOf s.core.cid.toNat = some j →
    (∀ (o : OpWqPop) (q : WorkQueue), j.queues[o.n.toNat]? = some q →
      (q.recs = [] → exec (.wqPop o) s = .next (if o.nb then s.afterWrite o.b 0 else s.waitsOn .workQueue)) ∧
      (∀ r rest, q.recs = r :: rest →
        let got := (s.updJob s.core.cid.toNat (fun j => { j with queues := j.queues.modify o.n.toNat (fun q => { q with recs := rest }) })).afterPair o.d
          (BitVec.ofNat 64 r.toNat) (BitVec.ofNat 64 (r.toNat / 2 ^ 64))
        ∃ t, exec (.wqPop o) s = .next t ∧ t.core = { got.core with regs := if o.nb then got.core.regsWith o.b 1 else got.core.regs } ∧
          t.cluster = got.cluster ∧ ∃ j', t.jobOf s.core.cid.toNat = some j' ∧ { j' with queues := j.queues } = j ∧
            ∀ m q', j.queues[m]? = some q' → j'.queues[m]? = some (if m = o.n.toNat then { q' with recs := q'.recs.drop 1 } else q'))) ∧
    (∀ (o : OpWqCount) (q : WorkQueue), j.queues[o.n.toNat]? = some q →
      exec (.wqCount o) s = .next (s.afterWrite o.d (BitVec.ofNat 64 q.recs.length))) ∧
    (∀ (o : OpSigSub) (a : Nat), j.signals[o.j.toNat]? = some a →
      (o.rel = false ∨ outstanding s (fenceSet s (1 <<< o.cls.toNat) 4) = false) →
      let b : Subtraction := { fn := j.fn, iova := a, amount := s.rd o.a, ctx := some s.core.cid.toNat }
      exec (.sigSub o) s = .next ({ s with host := { s.host with subs := s.host.subs ++ [b] } }.afterNext)) ∧
    (∀ (o : OpSigRead) (a : Nat), j.signals[o.j.toNat]? = some a →
      (∀ r, s.host.signals.find? (fun r => r.fn = j.fn && r.iova = a) = some r → exec (.sigRead o) s = .next (s.afterWrite o.d r.value)) ∧
      ((∀ r ∈ s.host.signals, ¬ (r.fn = j.fn ∧ r.iova = a)) → exec (.sigRead o) s = .next (s.afterWrite o.d (s.hostD j.fn a)))) ∧
    (∀ n, j.queues.length ≤ n →
      (∀ o : OpWqPop, o.n.toNat = n → exec (.wqPop o) s = .next (s.takeFault { cause := .unitAbsent })) ∧
      ∀ o : OpWqCount, o.n.toNat = n → exec (.wqCount o) s = .next (s.takeFault { cause := .unitAbsent })) ∧
    (∀ k, j.signals.length ≤ k →
      (∀ o : OpSigSub, o.j.toNat = k → exec (.sigSub o) s = .next (s.takeFault { cause := .unitAbsent })) ∧
      ∀ o : OpSigRead, o.j.toNat = k → exec (.sigRead o) s = .next (s.takeFault { cause := .unitAbsent }))

/-! ## Traps, faults, privilege, control registers, contexts (R371–R396, R438) -/

/-- R64, R371, R374, R377, R378: `trap` with a code saves the next address, the cause, its operand and the code and enters the handler in S mode
with interrupts off; code 0 ends the program; `eret` returns to the saved address, mode and interrupt enable; `trapf` and `trapf.all`
go on when no enabled condition is set and no denial stands, and are ARITH or WIN_DENIED otherwise. `trap` with a code and no handler goes to containment as a
fault with cause TRAP and its code. `nop` only goes on, and in a body takes one issue slot and no pipe (R64). That `eret` to a context whose
program has ended leaves it ended is the model's choice (log 54), and so is that the PC takes the low 32 bits of the saved address and drops the last three (log 14). -/
def Obligations.TrapsAndReturn : Prop :=
  ∀ (s : State),
    (s.sched.turn ≠ .vector → exec .nop s = .next s.afterNext) ∧
    (∀ r, s.sched.turn = .vector → s.core.vec.run = some r → exec .nop s = .next { s with core := { s.core with vec := { s.core.vec with run := some { r with
      clock := r.clock + (gapOf (r.body.getD r.next 0)).toNat + 1, next := r.next + 1, held := false, sent := 0 } } } }) ∧
    (s.core.status.mode = false → ∀ o : OpTrap,
      (o.code ≠ 0 → s.core.cr.tvec ≠ 0 → exec (.trap o) s = .next { s with core := { s.core with
        pc := BitVec.ofNat 32 s.core.cr.tvec.toNat, run := .running, stall := none, issued := none
        cr := { s.core.cr with epc := BitVec.ofNat 64 (s.core.pc + 8).toNat, faddr := s.rd o.a, finfo := 0
                               cause := BitVec.ofNat 64 (o.code.toNat * 2 ^ 8 + 0x40) }
        status := { s.core.status with pm := false, pie := s.core.status.ie, ie := false, td := true, mode := true } } }) ∧
      (o.code ≠ 0 → s.core.cr.tvec = 0 → exec (.trap o) s = .next (s.takeFault { cause := .evTrap, addr := some (s.rd o.a), tcode := o.code })) ∧
      (o.code = 0 → s.core.status.cv = false → exec (.trap o) s = .next { s with core := { s.core with run := .exited, stall := none, issued := none } }) ∧
      (o.code = 0 → s.core.status.cv = true → ∃ t, exec (.trap o) s = .next t ∧ t.core.run = .exited ∧
        t.core.regs = s.core.regs ∧ t.cluster = s.cluster ∧ ∀ j, s.jobOf s.core.cid.toNat = some j →
          ∃ j', t.jobOf s.core.cid.toNat = some j' ∧ (∀ c, c ∈ j'.ended ↔ c = s.core.id ∨ c ∈ j.ended) ∧ { j' with ended := j.ended } = j)) ∧
    (s.core.status.mode = true →
      (∀ o, exec (.trap o) s = .next (s.takeFault { cause := .priv })) ∧
      (∀ r, let done := s.core.status.cv = true ∧ s.core.status.pm = false ∧ ∃ j, s.jobOf s.core.cid.toNat = some j ∧ s.core.id ∈ j.ended
        (done ∧ r = .exited ∨ ¬ done ∧ r = .running) → exec .eret s = .next { s with core := { s.core with
          pc := pcOf s.core.cr.epc, stall := none, issued := none
          run := r
          status := { s.core.status with mode := s.core.status.pm, ie := s.core.status.pie, td := false } } })) ∧
    (s.core.status.cv = true → ∀ i ∈ [Instr.trapf, Instr.trapfAll], (i = .trapfAll → s.ownTasks = []) →
      let raised := ∃ n < 7, s.core.cr.fpstat.getLsbD n = true ∧ s.core.cr.fpen.getLsbD n = true
      let denied := s.core.directDen = true ∨ ∃ w ∈ s.core.windows.toList, w.den = true
      (raised → exec i s = .next (s.takeFault { cause := .arith })) ∧
      (¬ raised → denied → exec i s = .next (s.takeFault { cause := .winDenied })) ∧
      (¬ raised → ¬ denied → exec i s = .next s.afterNext)) ∧
    (s.core.status.cv = true → s.ownTasks ≠ [] → exec .trapfAll s = .next (s.waitsOn .tasks))

/-- The tasks of a cluster after one has ended: it is gone, and one that waited for nothing else is READY (R320). -/
def afterEnd (k : Cluster) (id : Nat) : List Task :=
  (k.tasks.filter (fun u => u.id ≠ id)).map (fun u =>
    let w := u.waits.filter (fun i => i ≠ id)
    { u with waits := w, phase := if u.phase = .waiting ∧ w = [] then .ready else u.phase })

/-- R371, R375, R377, R379, R381: what a fault of an instruction comes to. Outside a handler the core's policy decides: IGNORE goes to the
next word; RETRY with counts left and a handler spends one count and enters the handler with the record of R375 and the instruction's own
address; without a handler it goes to the job, with or without a count left (the model's reading, log 53); with no count left, and for KILL_SELF, the program ends. Inside a
handler it goes to the job. -/
def coreLevel : Prop :=
  ∀ (s : State) (f : FaultInfo),
    let c := s.core
    let quiet : State := { s with core := { c with stall := none, issued := none } }
    let count := c.cr.cpol.toNat % 64; let policy := c.cr.cpol.toNat / 64 % 4
    (c.status.td = true → s.takeFault f = quiet.offerJobHere f.cause) ∧
    (c.status.td = false →
      (policy = 0 → s.takeFault f = s.afterNext) ∧
      (policy = 1 → c.cr.tvec ≠ 0 → 0 < count → s.takeFault f = { s with core := { c with
        pc := BitVec.ofNat 32 c.cr.tvec.toNat, run := .running, stall := none, issued := none
        cr := { c.cr with epc := BitVec.ofNat 64 c.pc.toNat, faddr := f.addr.getD (BitVec.ofNat 64 c.pc.toNat), finfo := f.info
                          cpol := BitVec.ofNat 16 (c.cr.cpol.toNat - 1)
                          cause := BitVec.ofNat 64 (f.idx % 256 * 2 ^ 24 + f.tcode.toNat * 2 ^ 8 + causeCode f.cause) }
        status := { c.status with pm := c.status.mode, pie := c.status.ie, ie := false, td := true, mode := true } } }) ∧
      (policy = 1 → c.cr.tvec = 0 → s.takeFault f = quiet.offerJobHere f.cause) ∧
      (policy = 1 → c.cr.tvec ≠ 0 → count = 0 → s.takeFault f = quiet.killHere f.cause) ∧
      (policy = 2 → s.takeFault f = quiet.killHere f.cause) ∧
      (policy = 3 → s.takeFault f = quiet.offerJobHere f.cause)) ∧
    (∀ j, c.status.cv = true → s.jobOf c.cid.toNat = some j → ∃ j', (quiet.killHere f.cause).jobOf c.cid.toNat = some j' ∧
      c.id ∈ j'.ended ∧ j'.report = (match j.report with | some r => some r | none => some (12, f.cause)) ∧ j'.killed = j.killed ∧
      (quiet.killHere f.cause).core.run = .exited)

/-- R224, R379, R380, R382: what a fault of a task comes to at the task level. RETRY with a count left, of a task that may be repeated and is not being
cancelled, spends one count and dispatches it again from its start, with nothing recorded; otherwise RETRY, and KILL_SELF, retire it without its flag and record
the fault; IGNORE retires it as COMPLETE would, with its flag, and records the fault; KILL_PARENT retires it without its flag and offers it to the core
program, where it waits with its record for the core's next boundary, or goes to the job when the core is in its handler. A task that is being cancelled
raises no flag (R327). -/
def taskLevel : Prop :=
  ∀ (s : State) (t : Task) (f : FaultInfo) (repeatable : Bool), s.placed →
    let d := s.core.id.die; let cl := s.core.id.clu; let id : CoreId := ⟨d, cl, t.core⟩
    let c := s.coreAt id
    let u := s.taskFault d cl t f repeatable
    let off := u.cluster.copy0 ≠ some t.id ∧ u.cluster.copy1 ≠ some t.id ∧ u.cluster.shaper ≠ some t.id ∧ u.cluster.canvasTask ≠ some t.id ∧
      t.id ∉ u.cluster.fabric ∧ ∀ r, (u.coreAt id).vec.run = some r → r.task.id ≠ t.id
    let conditions := c.holds t.ctx = true → (u.coreAt id).cr.fpstat = c.cr.fpstat ||| t.flags
    let noFlag := (u.coreAt id).flags = c.flags
    let flagUp := c.holds t.ctx = true → c.saving = false → ∀ x v, s.cluster.ctxAt t.ctx = some x → t.flag = some v → let g := flagEntry (x.coreFlags t.core).fmap v
      g.1 = true → (u.coreAt id).flags = c.flags.set g.2.2.toNat (c.flags[g.2.2.toNat]'g.2.2.isLt + 1) g.2.2.isLt
    let old := c.cr.tflog.toNat; let log := (u.coreAt id).cr.tflog.toNat
    let recorded := c.holds t.ctx = true → log / 2 ^ 48 = min 0xFFFF (old / 2 ^ 48 + 1) ∧
      log % 2 ^ 48 = if old / 2 ^ 48 = 0 then t.tag.toNat * 2 ^ 32 + causeCode f.cause else old % 2 ^ 48
    let retried := t.policy = 1 ∧ t.stop = false ∧ 0 < t.count ∧ repeatable = true
    let ignored := t.policy = 0 ∧ t.stop = false
    (retried → u.cluster.tasks = s.cluster.tasks.map (fun k => if k.id = t.id then
        { k with phase := .ready, count := k.count - 1, resume := .start, flags := 0, hbmUnits := [] } else k) ∧
      off ∧ conditions ∧ noFlag ∧ (u.coreAt id).cr.tflog = c.cr.tflog) ∧
    (¬ retried → ¬ ignored → t.policy ≠ 3 → u.cluster.tasks = afterEnd s.cluster t.id ∧ off ∧ conditions ∧ noFlag ∧ recorded) ∧
    (ignored → (t.flag = none ∨ fenceHolds t.orders c.effects (s.dieNumber d) t.cls = false) →
      u.cluster.tasks = afterEnd s.cluster t.id ∧ off ∧ conditions ∧ flagUp ∧ recorded) ∧
    (t.policy = 3 → c.holds t.ctx = true → c.status.td = false → u.cluster.tasks = afterEnd s.cluster t.id ∧ off ∧ conditions ∧ noFlag ∧
      (u.coreAt id).cr.tflog = c.cr.tflog ∧ (u.coreAt id).escalated = c.escalated ++
        [{ ctx := t.ctx, cause := f.cause, tag := t.tag, idx := BitVec.ofNat 8 f.idx, addr := f.addr.getD 0, info := f.info }]) ∧
    (t.policy = 3 → c.holds t.ctx = true → c.status.td = true → u = (s.endTask d cl t false).offerJob t.ctx id f.cause false)

/-- R366, R379, R380, R391: what a fault offered to a job means. IGNORE ends the core's program alone, and the first report stands; KILL_SELF, and RETRY without a
count or a checkpoint, cancel the job on every cluster of it; KILL_PARENT goes to the tenant, which kills every job of the function and puts its queues in
ERROR with ECODE 12, and whose KILL_PARENT also disables the function. RETRY with both spends one count and puts back what the checkpoint saved, memory as it is: each core's
save with its generation (the last entry of a core counts) and the work queues, nothing else of the job; a core that held the context has its registers, streams,
inbox, buffers and vector state from it and owns no slot or tile beyond it. That they go on at once, under the checkpoint's own generation (log 88), and that
a tenant's kill reaches DISABLED queues too (log 96), are the model's readings. -/
def jobLevel : Prop :=
  ∀ (s : State) (ctx : Nat) (id : CoreId) (cause : Cause) (own : Bool) (j : Job), s.jobOf ctx = some j → j.killed = false →
    let u := s.offerJob ctx id cause own
    let set := (s.fnAt j.fn).settings
    let kept := 0 < j.jobCount ∧ j.checkpoints ≠ []
    let report := match j.report with | some r => some r | none => some (12, cause)
    (set.jobPolicy = 0 → ∃ j', u.jobOf ctx = some j' ∧ id ∈ j'.ended ∧ j'.report = report ∧ j'.killed = false) ∧
    (set.jobPolicy = 2 ∨ set.jobPolicy = 1 ∧ ¬ kept → (∃ j', u.jobOf ctx = some j' ∧ j'.report = report ∧ j'.killed = true) ∧
      ∀ c ∈ j.cores, ∀ x, u.ctxAt c.die c.clu ctx = some x → x.cancelled = true) ∧
    (set.jobPolicy = 3 → (∀ k, s.jobOf k.ctx = some k → k.fn = j.fn → ∃ k', u.jobOf k.ctx = some k' ∧ k'.killed = true) ∧
      (∀ q, q < (s.fnAt j.fn).qn ∨ (∃ k ∈ (s.fnAt j.fn).queues, k.q = q) → (u.queueAt j.fn q).state = .error ∧ (u.queueAt j.fn q).ecode = 12) ∧
      ((u.fnAt j.fn).disabled = true ↔ (s.fnAt j.fn).disabled = true ∨ set.tenantPolicy = 3)) ∧
    (set.jobPolicy = 1 → kept → let last := fun i => assoc j.checkpoints.reverse i
      (∃ j', u.jobOf ctx = some j' ∧ j'.jobCount = j.jobCount - 1 ∧ j'.killed = false ∧ j'.corrupt = false ∧ j'.queues = j.checkQueues.getD j.queues ∧
        (∀ i, assoc j'.saves i = (last i).or (assoc j.saves i) ∧ assoc j'.gens i = ((last i).map (fun a => a.gen)).or (assoc j.gens i)) ∧
        { j' with saves := j.saves, gens := j.gens, queues := j.queues, corrupt := j.corrupt, jobCount := j.jobCount } = j) ∧
      (∀ i a, last i = some a → (s.coreAt i).holds ctx = true → let c := u.coreAt i
        c.holds ctx = true ∧ c.regs = a.soft.regs ∧ c.pc = a.soft.pc ∧ c.run = (if i ∈ j.ended then .exited else .running) ∧ c.status.mode = false ∧
        (c.cr.fpctl, c.cr.fpen, c.cr.cpol, c.cr.tflog, c.cr.bkey, c.cr.bseq, c.cr.epc) =
          (a.soft.fpctl, a.soft.fpen, a.soft.cpol, a.soft.tflog, a.soft.bkey, a.soft.bseq, a.soft.epc) ∧
        ∀ h, a.hard = some h → c.streams = h.streams ∧ c.inbox = h.inbox ∧ c.bufs = h.bufs ∧ c.builder = h.builder ∧ c.vec = h.vec) ∧
      (∀ i a x, last i = some a → u.ctxAt i.die i.clu ctx = some x →
        (∀ n, (n, i.core) ∈ x.slotOwner → n ∈ a.ownSlots) ∧ ∀ n, (n, i.core) ∈ x.tileOwner → n ∈ a.ownTiles) ∧
      u.modul.hbm = s.modul.hbm ∧ u.host.mem = s.host.mem)

/-- R371, R375, R377, R379–R382: the statements above on the core, the task, and the job and tenant levels, together. -/
def Obligations.FaultContainment : Prop := coreLevel ∧ taskLevel ∧ jobLevel

/-- R372, R396, R438: in U mode the S-mode instructions are PRIV, and with no context loaded so are the instructions that need one, the two saves and the writes of the
flag map among them; a read of the flag map is zero then. -/
def Obligations.Privilege : Prop :=
  ∀ (s : State),
    let priv := fun i => exec i s = .next (s.takeFault { cause := .priv })
    (s.core.status.mode = false →
      priv .eret ∧ priv .resume ∧ (∀ o, priv (.ctxSaveSoft o)) ∧ (∀ o, priv (.ctxSaveHard o)) ∧ (∀ o, priv (.ctxLoad o)) ∧ (∀ o, priv (.skInval o)) ∧
      (∀ o : OpCrr, 0x10 ≤ o.n.toNat → priv (.crr o)) ∧ (∀ o : OpCr, 0x10 ≤ o.n.toNat → priv (.crw o) ∧ priv (.crs o) ∧ priv (.crc o))) ∧
    (s.core.status.cv = false →
      priv .trapf ∧ priv .trapfAll ∧ priv .yield ∧ priv .resume ∧ (∀ o, priv (.ctxSaveSoft o)) ∧ (∀ o, priv (.ctxSaveHard o)) ∧
      (∀ o : OpCr, 0x20 ≤ o.n.toNat ∧ o.n.toNat < 0x28 → priv (.crw o) ∧ priv (.crs o) ∧ priv (.crc o)) ∧
      (s.core.status.mode = true → ∀ o : OpCrr, 0x20 ≤ o.n.toNat ∧ o.n.toNat < 0x28 → exec (.crr o) s = .next (s.afterWrite o.d 0)) ∧
      (∀ o, priv (.atomAddHbm o) ∧ priv (.atomAndHbm o) ∧ priv (.atomOrHbm o) ∧ priv (.atomXorHbm o) ∧ priv (.atomMinHbm o) ∧ priv (.atomMaxHbm o) ∧
        priv (.atomMinnHbm o) ∧ priv (.atomMaxnHbm o) ∧ priv (.atomSwapHbm o) ∧ priv (.atomCasHbm o) ∧ priv (.atomIncbHbm o) ∧ priv (.claimHbm o)) ∧
      (∀ o, priv (.qPush o)) ∧ (∀ o, priv (.qPop o) ∧ priv (.qCount o)) ∧ (∀ o, priv (.qBind o)) ∧
      (∀ o, priv (.flagAdd o) ∧ priv (.flagSet o)) ∧ (∀ o, priv (.flagWait o)) ∧ (∀ o, priv (.flagRd o)) ∧
      (∀ o, priv (.barArrive o)) ∧ (∀ o, priv (.barWait o)) ∧ (∀ o, priv (.barSync o)) ∧ (∀ o, priv (.barInit o)) ∧
      (∀ o, priv (.msgSend o)) ∧ (∀ o, priv (.msgRecv o) ∧ priv (.msgPoll o)) ∧ (∀ o, priv (.bufDecl o)) ∧
      (∀ o, priv (.bufFree o) ∧ priv (.bufFill o) ∧ priv (.bufFull o) ∧ priv (.bufDrain o) ∧ priv (.bufEmpty o)) ∧
      (∀ o, priv (.bufState o) ∧ priv (.bufVer o)) ∧
      (∀ o, priv (.tbNew o) ∧ priv (.tbTag o)) ∧ (∀ o, priv (.tbReg o) ∧ priv (.tbArg o)) ∧ (∀ o, priv (.tbFlag o)) ∧ (∀ o, priv (.tbPost o)) ∧
      (∀ o, priv (.twait o) ∧ priv (.tqState o) ∧ priv (.tbCancel o)) ∧ (∀ o, priv (.tqFree o)) ∧
      (∀ o, priv (.cpBox o) ∧ priv (.cpFill o) ∧ priv (.cpGather o) ∧ priv (.cpScatter o) ∧ priv (.shLoad o) ∧ priv (.shUnload o) ∧
        priv (.accZero o) ∧ priv (.accLoad o) ∧ priv (.accDrain o) ∧ priv (.accChk o) ∧ priv (.rpost o)) ∧
      (∀ o, priv (.mmaBf16 o) ∧ priv (.mmaF16 o) ∧ priv (.mmaE4m3 o) ∧ priv (.mmaE5m2 o) ∧ priv (.mmaI8 o) ∧ priv (.mmaMx4 o) ∧ priv (.mmaF32 o) ∧
        priv (.mmaF64 o) ∧ priv (.mmaZ64 o)) ∧
      (∀ o, priv (.palClaim o)) ∧ (∀ o, priv (.palRel o)) ∧ (∀ o, priv (.palOwn o) ∧ priv (.leaseGet o)) ∧ (∀ o, priv (.accGive o)) ∧ (∀ o, priv (.leaseSet o)) ∧
      (∀ o, priv (.winMap o)) ∧ (∀ o, priv (.winUnmap o)) ∧ (∀ o, priv (.winAllow o)) ∧ (∀ o, priv (.winStat o)) ∧ (∀ o, priv (.rflag o)) ∧
      (∀ o, priv (.wqPop o)) ∧ (∀ o, priv (.wqCount o)) ∧ (∀ o, priv (.sigSub o)) ∧ (∀ o, priv (.sigRead o)) ∧
      (s.core.sketch = none → ∀ o, priv (.sks o)) ∧ (∀ o, priv (.skBind o)) ∧ (∀ o, priv (.skUnbind o)) ∧ ∀ o, priv (.skWrite o))

/-- R189–R192, R195, R212: the statements above on this, together. -/
def Obligations.PaletteTilesAndLeases : Prop := paletteSlots ∧ tilesAndLeases

/-- R288, R290, R293–R297, R300, R301: the statements above on this, together. -/
def Obligations.WindowsAndRemoteRequests : Prop := windowInstructions ∧ requestsToOtherClusters

/-- The bits of a control register that a write sets as given (R372–R376); the others of these registers are reserved and read zero. -/
def plainRegisters : List (Nat × Word) :=
  [(0x08, 0x7), (0x09, 0x7F), (0x0A, 0x7F), (0x0D, BitVec.allOnes 64), (0x0E, BitVec.allOnes 64), (0x11, 0xFFFFFFF8), (0x12, BitVec.allOnes 64),
   (0x13, 0xC000FFFFFF00FFFF), (0x14, BitVec.allOnes 64), (0x15, BitVec.allOnes 64), (0x16, BitVec.allOnes 64), (0x17, BitVec.allOnes 64)] ++
  (List.range 8).map (fun i => (0x20 + i, BitVec.allOnes 64))

/-- A control register the acting core may write: by its mode, and the flag map only with a context loaded (R372, R438). -/
def mayWrite (s : State) (n : Nat) : Prop :=
  (s.core.status.mode = true ∨ n ≤ 0x0E) ∧ 4 < n ∧ n ≠ 0x18 ∧
    (0x20 ≤ n → s.core.status.cv = true ∧ s.core.id.core < 4 ∧ ∃ x, s.cluster.ctxAt s.core.cid.toNat = some x)

/-- R372–R376, R381, R382: `crr` reads a register; `crw`, `crs` and `crc` give its old value and write it, set or clear its bits; `CR_CPOL` keeps its
lower half in U mode, `CR_TFLOG` becomes zero, and of `CR_STATUS` the writable fields take their bits while IPP and IPC are cleared where named;
no other register changes. A 64-bit access at its address in the core control space reads or writes it as `crr` and `crw` do. -/
def controlRegisters : Prop :=
  ∀ (s : State),
    (∀ o : OpCrr, s.core.status.mode = true ∨ o.n.toNat ≤ 0x0E → exec (.crr o) s = .next (s.afterWrite o.d (s.crValue o.n.toNat))) ∧
    (∀ o : OpCr, s.core.status.mode = true → o.n.toNat ≤ 4 ∨ o.n.toNat = 0x18 → ∀ i ∈ [Instr.crw o, .crs o, .crc o],
      exec i s = .next (s.takeFault { cause := .illegalOp })) ∧
    (∀ o : OpCr, let n := o.n.toNat; let sa := s.rd o.a; let old := s.crValue n
      mayWrite s n → ∀ p ∈ [(Instr.crw o, sa, true), (.crs o, old ||| sa, false), (.crc o, old &&& ~~~sa, true)], ∃ t, exec p.1 s = .next t ∧
        t.core.regs = s.core.regsWith o.d old ∧ t.core.pc = s.core.pc + 8 ∧ SameBytes s t ∧ (∀ m, m ≠ n → t.crValue m = s.crValue m) ∧
        (∀ mask, (n, mask) ∈ plainRegisters → t.crValue n = p.2.1 &&& mask) ∧
        (n = 0x0B → t.crValue n = if s.core.status.mode then p.2.1 &&& 0xFFFF else (p.2.1 &&& 0xFF00) ||| (old &&& 0xFF)) ∧
        (n = 0x0C → t.crValue n = 0) ∧
        (n = 0x10 → ∀ i, (t.crValue n).getLsbD i =
          if i ∈ [1, 2, 3, 8, 9, 10, 14] then p.2.1.getLsbD i
          else if i ∈ [11, 12] then old.getLsbD i && !(p.2.2 && sa.getLsbD i) else old.getLsbD i)) ∧
    (∀ (o : OpMem) (n : Nat), s.core.status.mode = true → crNumber (BitVec.ofNat 7 n) = true → n < 128 → o.size = 3 →
      s.rd o.a + BitVec.ofInt 64 o.off.toInt = BitVec.ofNat 64 (0xF0000000 + 8 * n) →
      exec (.ld o) s = .next (s.afterWrite o.d (s.crValue n)) ∧
      (∀ (r : OpCr) (t : State), r.d = 0 → r.a = o.d → r.n.toNat = n → exec (.crw r) s = .next t → mayWrite s n → exec (.st o) s = .next t))

/-- R20, R141, R250, R275, R284, R372–R375, R387: what the registers of the core read as. -/
def controlRegisterValues : Prop :=
  ∀ (s : State) (d : Reg), let c := s.core
    let reads := fun (n : Nat) (v : Word) => c.status.mode = true ∨ n ≤ 0x0E → exec (.crr { d := d, n := BitVec.ofNat 7 n }) s = .next (s.afterWrite d v)
    reads 0x02 (BitVec.ofNat 64 s.die.leecnt.toNat) ∧ reads 0x03 (BitVec.ofNat 64 c.cid.toNat) ∧ reads 0x04 (BitVec.ofNat 64 s.cycles) ∧
    reads 0x08 (BitVec.ofNat 64 c.cr.fpctl.toNat) ∧ reads 0x09 (BitVec.ofNat 64 c.cr.fpstat.toNat) ∧ reads 0x0A (BitVec.ofNat 64 c.cr.fpen.toNat) ∧
    reads 0x0B (BitVec.ofNat 64 c.cr.cpol.toNat) ∧ reads 0x0C c.cr.tflog ∧ reads 0x0D c.cr.bkey ∧ reads 0x0E c.cr.bseq ∧
    reads 0x11 c.cr.tvec ∧ reads 0x12 c.cr.epc ∧ reads 0x13 c.cr.cause ∧ reads 0x14 c.cr.faddr ∧ reads 0x15 c.cr.finfo ∧ reads 0x16 c.cr.scr ∧
    reads 0x17 c.cr.cyccmp ∧ reads 0x18 (BitVec.ofNat 64 c.spbase) ∧
    (∃ v, reads 0x10 v ∧ ∀ i, v.getLsbD i = match i with
      | 0 => c.status.mode | 1 => c.status.pm | 2 => c.status.ie | 3 => c.status.pie | 4 => c.status.td
      | 8 => c.status.im.getLsbD 0 | 9 => c.status.im.getLsbD 1 | 10 => c.status.im.getLsbD 2 | 11 => c.status.ipp | 12 => c.status.ipc
      | 13 => !c.inbox.isEmpty | 14 => c.status.yp | 15 => c.status.cv | _ => false) ∧
    (∃ v, reads 0x00 v ∧ let p := s.modul.caps
      (v.getLsbD 63 = true ↔ c.status.cv = true ∧ ∃ j, s.jobOf c.cid.toNat = some j ∧ j.skw = true) ∧ v.getLsbD 62 = p.zmat ∧
      v.toNat / 2 ^ 58 % 16 = 0 ∧ v.toNat / 2 ^ 48 % 2 ^ 10 = p.hbmg.toNat ∧ v.toNat / 2 ^ 43 % 2 ^ 5 = p.lnkx.toNat ∧ v.toNat / 2 ^ 40 % 8 = p.dies.toNat ∧
      v.toNat / 2 ^ 34 % 2 ^ 6 = p.ncl[0].toNat + p.ncl[1].toNat + p.ncl[2].toNat + p.ncl[3].toNat ∧ v.toNat / 2 ^ 32 % 4 = p.var.toNat ∧
      (∀ d : Fin 4, v.toNat / 2 ^ (16 + 4 * d.val) % 16 = p.ncl[d].toNat) ∧ v.toNat / 2 ^ 8 % 2 ^ 8 = p.stk.toNat ∧ v.toNat % 2 ^ 8 = 0) ∧
    (let n := s.modul.torus; 1 ≤ n.1 → n.1 ≤ 16 → 1 ≤ n.2.1 → n.2.1 ≤ 16 → 1 ≤ n.2.2 → n.2.2 ≤ 16 → s.dieNumber c.id.die < 2 ^ 12 →
      ∃ v, reads 0x01 v ∧ v.toNat % 2 ^ 12 = s.dieNumber c.id.die ∧ v.toNat / 2 ^ 12 % 16 = n.1 - 1 ∧ v.toNat / 2 ^ 16 % 16 = n.2.1 - 1 ∧
        v.toNat / 2 ^ 20 % 2 ^ 12 = n.2.2 - 1 ∧ (∀ j, c.status.cv = true → s.jobOf c.cid.toNat = some j → v.toNat / 2 ^ 32 = j.fjob.toNat) ∧
        (c.status.cv = false → v.toNat / 2 ^ 32 = 0)) ∧
    ∀ i : Fin 8, (∀ x, c.status.cv = true → s.cluster.ctxAt c.cid.toNat = some x → reads (0x20 + i.val) ((x.coreFlags c.id.core).fmap[i])) ∧
      (c.status.cv = false → reads (0x20 + i.val) 0)

/-- Another core of the acting core's cluster holds a context (R384, R388). -/
def heldBeside (s : State) (ctx : Nat) : Prop := ∃ k < 4, k ≠ s.core.id.core ∧ (s.coreAt ⟨s.core.id.die, s.core.id.clu, k⟩).holds ctx = true

/-- R384–R388, R393, R395, R396: `ctx.save.soft` of a quiet core saves the soft state, the values of non-resident flags among it, under the next generation
and unloads the context. `ctx.save.hard` waits, with dispatch stopped, until every task is at its stop point and every request is answered, and then saves the
soft state, the vector state, the streams, inbox, buffer table, builder, window states and direct status, the core's tasks, the tiles and slots it owns, the
scratchpad image when it is asked for, and, when no other core of the cluster holds the context, the cluster part. -/
def contextSaves : Prop :=
  ∀ (s : State) (j : Job) (x : CtxCluster),
    let c := s.core; let ctx := c.cid.toNat
    let gen := (assoc j.gens c.id).getD 0 + 1
    let unloaded := fun (t : State) (d : Reg) => t.core.status = { c.status with cv := false, yp := false, ipp := false } ∧
      t.core.regs = c.regsWith d 0 ∧ t.core.pc = c.pc + 8 ∧ t.core.saving = false ∧ t.core.aside = none
    let soft := fun (r : SoftRecord) => r.pc = pcOf c.cr.epc ∧ r.regs = c.regs ∧ r.fpctl = c.cr.fpctl ∧ r.fpstat = c.cr.fpstat ∧
      r.fpen = c.cr.fpen ∧ r.cpol = c.cr.cpol ∧ r.tflog = c.cr.tflog ∧ r.bkey = c.cr.bkey ∧ r.bseq = c.cr.bseq ∧ r.epc = c.cr.epc ∧
      ∀ f : BitVec 6, let e := flagEntry (x.coreFlags c.id.core).fmap f
        e.1 = true → e.2.1 = false → r.flags[f.toNat]'f.isLt = c.flags[e.2.2.toNat]'e.2.2.isLt
    let saved := fun (t : State) (a : SaveArea) => ∃ j', t.jobOf ctx = some j' ∧ assoc j'.saves c.id = some a ∧ a.verifies j.saveKey ctx c.id gen = true ∧
      assoc j'.gens c.id = some gen ∧ soft a.soft
    let mine := fun (k : Task) => k.ctx = ctx ∧ k.core = c.id.core ∧ k.remote = false
    c.status.mode = true → c.status.cv = true → s.jobOf ctx = some j → s.cluster.ctxAt ctx = some x →
      (∀ o : OpD, (s.quiet = false → exec (.ctxSaveSoft o) s = .next (s.takeFault { cause := .priv })) ∧
        (s.quiet = true → ∃ t a, exec (.ctxSaveSoft o) s = .next t ∧ unloaded t o.d ∧ saved t a ∧ a.hard = none ∧ a.part = none ∧ t.cluster = s.cluster ∧ SameBytes s t)) ∧
      (∀ o : OpSaveHard,
        (s.stopped = false ∨ s.saveLate = true → exec (.ctxSaveHard o) s = .next { s with core := { c with
          stall := some .save, issued := none, saving := true, savingAt := if c.saving then c.savingAt else s.sched.now } }) ∧
        (s.stopped = true → s.saveLate = false → ∃ t a h y, exec (.ctxSaveHard o) s = .next t ∧ unloaded t o.d ∧ saved t a ∧ a.hard = some h ∧ SameBytes s t ∧
          t.cluster.ctxAt ctx = some y ∧
          h.streams = c.streams ∧ h.inbox = c.inbox ∧ h.bufs = c.bufs ∧ h.builder = c.builder ∧ h.vec = { c.vec with run := none } ∧
          h.windows = c.windows ∧ h.directDen = c.directDen ∧ h.grant = c.grant ∧
          (∀ n v, (n, v) ∈ h.tiles ↔ (n, c.id.core) ∈ x.tileOwner ∧ v = s.cluster.tile n) ∧
          (∀ n v, (n, v) ∈ h.slots ↔ (n, c.id.core) ∈ x.slotOwner ∧ v = s.cluster.slot n) ∧
          (o.sp = false → h.image = none) ∧
          (o.sp = true → ∃ m marks, h.image = some (m, marks) ∧ (∀ i < c.grant, cget m i = cget c.spad (c.spbase + i)) ∧
            ∀ i < c.grant / 64, cget marks i = cget c.poison (c.spbase / 64 + i)) ∧
          (∀ k, k ∈ h.tasks ↔ k ∈ c.restored ∨ k ∈ s.cluster.tasks ∧ mine k) ∧ (∀ k ∈ t.cluster.tasks, ¬ mine k) ∧
          (heldBeside s ctx → a.part = none ∧ y = x) ∧
          (¬ heldBeside s ctx → ∃ p, a.part = some p ∧ y = { x with remoteSaved := p.tasks, freeSlots := p.slots } ∧
            (∀ k, k ∈ p.tasks ↔ k ∈ x.remoteSaved ∨ k ∈ s.cluster.tasks ∧ k.ctx = ctx ∧ k.remote = true) ∧
            (∀ k ∈ t.cluster.tasks, ¬ (k.ctx = ctx ∧ k.remote = true)) ∧
            ∀ n v, (n, v) ∈ p.slots ↔ n < 32 ∧ x.palGrant.getLsbD n = true ∧ (∀ k, (n, k) ∉ x.slotOwner) ∧ v = s.cluster.slot n)))

/-- R385–R388, R395, R396, R422, R433: `ctx.load` loads what was saved, at once but for the registers, which wait for `resume`; it answers 1 for a save that does
not verify under the latest generation. A hard save comes back whole; after a soft save the buffers, builder, streams, windows, vector state, inbox, the core's
tiles and the palette grant are as at the start. A flag that is not resident takes its saved value and what has been added since, or what it was set to; the
context's first load in the cluster brings back the cluster part. That a context's first load on a core that another one held sets every mapped flag is the
model's reading (log 95). Of two entries of one number in a save, the last counts. -/
def contextLoads : Prop :=
  ∀ (s : State) (j : Job) (o : OpRR), let c := s.core; let ctx := (s.rd o.a).toNat % 128
    c.status.mode = true →
    (c.status.cv = true → exec (.ctxLoad o) s = .next (s.takeFault { cause := .priv })) ∧
    (c.status.cv = false → s.jobOf ctx = some j →
      (c.id ∉ j.cores ∨ assoc j.saves c.id = none → exec (.ctxLoad o) s = .next (s.takeFault { cause := .priv })) ∧
      (∀ a, c.id ∈ j.cores → assoc j.saves c.id = some a →
        (j.corrupt = true → exec (.ctxLoad o) s = .next (s.afterWrite o.d 1)) ∧
        (j.corrupt = false → s.verified ctx a = false → exec (.ctxLoad o) s = .next
          (((s.updJob ctx (fun j => { j with corrupt := true })).offerJob ctx c.id .restoreCorrupt false).afterWrite o.d 1)) ∧
        (j.corrupt = false → s.verified ctx a = true → ∃ t, exec (.ctxLoad o) s = .next t ∧ t.core.regs = c.regsWith o.d 0 ∧ t.core.pc = c.pc + 8 ∧
          t.core.cid = BitVec.ofNat 7 ctx ∧ t.core.status = { c.status with cv := true } ∧ t.core.aside = some a.soft ∧ t.core.grant = j.grant ∧
          t.core.spbase = (assoc j.place c.id).getD 0 ∧ t.core.cycStart = s.sched.now ∧ t.core.cr.fpctl = a.soft.fpctl ∧ t.core.cr.fpen = a.soft.fpen ∧
          t.core.cr.cpol = a.soft.cpol ∧ t.core.cr.tflog = a.soft.tflog ∧ t.core.cr.bkey = a.soft.bkey ∧ t.core.cr.bseq = a.soft.bseq ∧
          t.core.cr.epc = a.soft.epc ∧ t.cluster.canvas.cold = true ∧
          (∀ h, a.hard = some h → t.core.streams = h.streams ∧ t.core.inbox = h.inbox ∧ t.core.bufs = h.bufs ∧ t.core.builder = h.builder ∧
            t.core.vec = h.vec ∧ t.core.restored = h.tasks ∧ t.core.directDen = h.directDen ∧
            (∀ i : Fin 16, t.core.windows[i] = { h.windows[i] with out := t.core.windows[i].out }) ∧
            (h.image = none → t.core.spad = c.spad ∧ t.core.poison = c.poison) ∧
            ∀ m marks, h.image = some (m, marks) → let b := t.core.spbase
              (∀ k, cget t.core.spad k = if b ≤ k ∧ k < b + j.grant then cget m (k - b) else cget c.spad k) ∧
              ∀ k, cget t.core.poison k = if b / 64 ≤ k ∧ k < b / 64 + j.grant / 64 then cget marks (k - b / 64) else cget c.poison k) ∧
          (a.hard = none → t.core.inbox = [] ∧ t.core.bufs = [] ∧ t.core.builder = none ∧ t.core.restored = [] ∧ t.core.spad = c.spad ∧ t.core.poison = c.poison ∧
            t.core.streams = Vector.replicate 8 {} ∧ t.core.vec = {} ∧ t.core.directDen = false ∧
            ∀ i : Fin 16, t.core.windows[i] = { map := none, alw := 64, den := false, out := t.core.windows[i].out }) ∧
          (∀ x, s.cluster.ctxAt ctx = some x →
            let g := x.coreFlags c.id.core; let entry := fun (f : BitVec 6) => flagEntry g.fmap f
            let loads := fun (f : BitVec 6) => (entry f).1 = true ∧ ((entry f).2.1 = false ∨ g.first = true)
            let back := ∀ k < 4, (s.coreAt ⟨c.id.die, c.id.clu, k⟩).holds ctx = false
            let free := fun (n : Nat) (v : Slot) => back ∧ assoc x.freeSlots.reverse n = some v
            let noFree := fun (n : Nat) => ¬ back ∨ assoc x.freeSlots.reverse n = none
            (∀ f, loads f → (∀ f', loads f' → (entry f').2.2 = (entry f).2.2 → f' = f) → t.core.flags[(entry f).2.2.toNat]'(entry f).2.2.isLt =
              if g.pendS.getLsbD f.toNat then g.pendV[f.toNat]'f.isLt else a.soft.flags[f.toNat]'f.isLt + g.pendV[f.toNat]'f.isLt) ∧
            (∀ e : Fin 64, (∀ f, loads f → (entry f).2.2.toNat ≠ e.val) → t.core.flags[e] = c.flags[e]) ∧
            t.core.cr.fpstat = a.soft.fpstat ||| g.held ∧
            (∀ h, a.hard = some h →
              (∀ n < 48, t.cluster.tile n = (assoc h.tiles.reverse n).getD (s.cluster.tile n)) ∧
              ∀ n < 32, noFree n → t.cluster.slot n = (assoc h.slots.reverse n).getD (s.cluster.slot n)) ∧
            (a.hard = none →
              (∀ n < 48, t.cluster.tile n = if (n, c.id.core) ∈ x.tileOwner then {} else s.cluster.tile n) ∧
              ∀ n < 32, noFree n → t.cluster.slot n = if x.palGrant.getLsbD n then {} else s.cluster.slot n) ∧
            (∀ n v, n < 32 → free n v → t.cluster.slot n = v) ∧
            ∃ y, t.cluster.ctxAt ctx = some y ∧ (back → y.remoteSaved = [] ∧ y.freeSlots = []) ∧ (¬ back → y.remoteSaved = x.remoteSaved ∧ y.freeSlots = x.freeSlots) ∧
              (∀ id, (∃ k ∈ t.cluster.tasks, k.id = id) ↔ (∃ k ∈ s.cluster.tasks, k.id = id) ∨ back ∧ ∃ k ∈ x.remoteSaved, k.id = id) ∧
              (c.id.core < 4 → let g' := y.coreFlags c.id.core
                g'.pendS = 0 ∧ g'.pendV = Vector.replicate 64 0 ∧ g'.held = 0 ∧ g'.fmap = g.fmap)))))

/-- R385, R389, R396, R422: `resume` puts the saved registers and PC in place, lets the saved tasks in and goes on in U mode; `yield` enters the handler when
a yield is asked for and the core is quiet, and only goes on otherwise. Where nothing was loaded since the last one, `resume` goes to `CR_EPC` with the registers
as they stand: the model's reading (log 29). -/
def resumeAndYield : Prop :=
  ∀ (s : State) (j : Job), let c := s.core; let ctx := c.cid.toNat
    (c.status.mode = true → c.status.cv = true →
      (∀ a, c.aside = some a → ∃ t, exec .resume s = .next t ∧ t.core.regs = a.regs ∧ t.core.pc = a.pc ∧ t.core.aside = none ∧
        t.core.status = { c.status with mode := false, td := false, ie := c.status.pie } ∧
        (s.jobOf ctx = some j → c.id ∉ j.ended → t.core.run = .running) ∧ t.cluster.tasks.length = c.restored.length + s.cluster.tasks.length ∧ SameBytes s t) ∧
      (c.aside = none → ∃ t, exec .resume s = .next t ∧ t.core.regs = c.regs ∧ t.core.pc = pcOf c.cr.epc ∧
        t.core.status = { c.status with mode := false, td := false, ie := c.status.pie } ∧ t.cluster = s.cluster)) ∧
    (c.status.cv = true →
      (c.status.mode = true ∨ c.status.yp = false ∨ s.quiet = false → exec .yield s = .next s.afterNext) ∧
      (c.status.mode = false → c.status.yp = true → s.quiet = true → ∃ t, exec .yield s = .next t ∧
        t.core.pc = BitVec.ofNat 32 c.cr.tvec.toNat ∧ t.core.cr.epc = BitVec.ofNat 64 (c.pc + 8).toNat ∧ t.core.cr.cause = 0x41 ∧ t.core.regs = c.regs ∧
        t.core.status = { c.status with pm := false, pie := c.status.ie, ie := false, td := true, mode := true }))

/-- R384–R389, R395, R396, R422: the statements above on saving, loading and going on with a context, together. -/
def Obligations.Contexts : Prop := contextSaves ∧ contextLoads ∧ resumeAndYield

/-- R374, R377, R379, R381, R392: a preempt request and a reached cycle compare set their pending bits; an enabled pending interrupt enters the handler
outside one, PRE before CMP before MSG, with the address of the next instruction; an escalated task fault is contained at core level
as a fault of the core is, with the task's record, and one of another context waits until that context is back (log 100); the wait of a context save ends after 2^22 cycles. The model's readings of the spec here: RETRY without a
handler goes to the job (log 53); an enabled interrupt is taken by a core whose program has ended (log 54), and none during a wait for a reply, a save or the end of a
sketch (log 30); a save that ends so leaves no save area (log 70). -/
def coreEvents : Prop :=
  ∀ (s : State), let c := s.core
    exec .preemptRequest s = .next { s with core := { c with status := { c.status with ipp := true } } } ∧
    (c.cmpArmed = true → c.cr.cyccmp.toNat ≤ s.cycles →
      exec .cycleCompareMatch s = .next { s with core := { c with cmpArmed := false, status := { c.status with ipc := true } } }) ∧
    (let pre := c.status.ipp = true ∧ c.status.im.getLsbD 0 = true; let cmp := c.status.ipc = true ∧ c.status.im.getLsbD 1 = true
     let msg := c.inbox ≠ [] ∧ c.status.im.getLsbD 2 = true
     ∀ code, (pre ∧ code = 0x42 ∨ ¬ pre ∧ cmp ∧ code = 0x43 ∨ ¬ pre ∧ ¬ cmp ∧ msg ∧ code = 0x44) →
      c.status.ie = true → c.status.td = false → c.await = none → c.saving = false → c.sketch = none → ∃ t, exec .interruptTaken s = .next t ∧
        t.core.pc = BitVec.ofNat 32 c.cr.tvec.toNat ∧ t.core.cr.epc = BitVec.ofNat 64 c.pc.toNat ∧ t.core.cr.cause = BitVec.ofNat 64 (2 ^ 63 + code) ∧
        t.core.status = { c.status with pm := c.status.mode, pie := true, ie := false, td := true, mode := true } ∧
        t.core.stall = none ∧ t.core.regs = c.regs ∧ t.core.cr.cpol = c.cr.cpol ∧ t.cluster = s.cluster ∧ SameBytes s t) ∧
    ((∀ e ∈ c.escalated, c.holds e.ctx = false) → exec .escalatedTaskFault s = .refused (.notEnabled "ESCALATED_TASK_FAULT")) ∧
    (∀ before e rest, c.escalated = before ++ e :: rest → (∀ d ∈ before, c.holds d.ctx = false) → c.holds e.ctx = true → c.status.td = false → c.await = none → c.saving = false → c.sketch = none →
      let policy := c.cr.cpol.toNat / 64 % 4; let count := c.cr.cpol.toNat % 64
      let popped : State := { s with core := { c with escalated := before ++ rest } }
      (policy = 0 → exec .escalatedTaskFault s = .next popped) ∧
      (policy = 1 → c.cr.tvec ≠ 0 → 0 < count → exec .escalatedTaskFault s = .next { s with core := { c with
        escalated := before ++ rest, pc := BitVec.ofNat 32 c.cr.tvec.toNat, run := .running, stall := none, issued := none
        cr := { c.cr with epc := BitVec.ofNat 64 c.pc.toNat, faddr := e.addr, finfo := e.info, cpol := BitVec.ofNat 16 (c.cr.cpol.toNat - 1)
                          cause := BitVec.ofNat 64 (2 ^ 62 + e.tag.toNat * 2 ^ 32 + e.idx.toNat * 2 ^ 24 + causeCode e.cause) }
        status := { c.status with pm := c.status.mode, pie := c.status.ie, ie := false, td := true, mode := true } } }) ∧
      (policy = 1 → c.cr.tvec = 0 → exec .escalatedTaskFault s = .next (popped.offerJobHere e.cause)) ∧
      (policy = 1 → c.cr.tvec ≠ 0 → count = 0 → exec .escalatedTaskFault s = .next (popped.killHere e.cause)) ∧
      (policy = 2 → exec .escalatedTaskFault s = .next (popped.killHere e.cause)) ∧
      (policy = 3 → exec .escalatedTaskFault s = .next (popped.offerJobHere e.cause))) ∧
    (∀ d, c.saving = true → c.savingAt + 2 ^ 22 ≤ s.sched.now → ∃ t, exec (.saveTimeout d) s = .next t ∧
      (d ≠ 0 → t.rd d = 1) ∧ t.core.saving = false ∧ t.core.status.cv = false ∧ t.core.stall = none)

/-- R141, R374, R381, R382, R422, R438: writes of a control register with behaviour of its own, and the end of a stall: the value is written as
`crw` writes it, the flags a task ORs into `CR_FPSTAT` in the same cycle come after it. -/
def controlRegisterWrites : Prop :=
  ∀ (s : State) (v : Word),
    let same := fun (n : Nat) (i : Instr) => ∀ o : OpCr, o.n.toNat = n → o.d = 0 → s.rd o.a = v → mayWrite s n → ∃ t u, exec (.crw o) s = .next t ∧
      exec i s = .next u ∧ u.core.cr = t.core.cr ∧ u.core.status = t.core.status ∧ u.core.cmpArmed = t.core.cmpArmed ∧ u.cluster = t.cluster ∧
      u.core.pc = s.core.pc ∧ u.core.regs = s.core.regs
    same 0x0B (.crCpolWrite v) ∧ same 0x0C (.crTflogWrite v) ∧ same 0x10 (.crStatusWrite v) ∧ same 0x17 (.crCyccmpWrite v) ∧
    (∀ n : BitVec 3, same (0x20 + n.toNat) (.crFmapWrite n v)) ∧
    (∀ f, exec (.crFpstatWrite v f) s = .next { s with core := { s.core with cr := { s.core.cr with fpstat := BitVec.ofNat 7 v.toNat ||| f } } }) ∧
    (∀ w, w ≠ .reply → s.core.stall = some w → exec .stalledInstructionResume s = .next { s with core := { s.core with stall := none } })

/-! ## Sketches (R253–R272) -/

/-- Two-operand micro-operations with what they compute at 64 bits (R259). -/
def microTable (a b : Word) : List (Nat × Word) :=
  [(0x02, BitVec.ofNat 64 (a.toNat + b.toNat)), (0x03, BitVec.ofInt 64 (a.toInt - b.toInt)), (0x04, BitVec.ofNat 64 (a.toNat * b.toNat)),
   (0x05, a &&& b), (0x06, a ||| b), (0x07, a ^^^ b), (0x08, BitVec.ofNat 64 (a.toNat * 2 ^ (b.toNat % 64))),
   (0x09, BitVec.ofNat 64 (a.toNat / 2 ^ (b.toNat % 64))), (0x0A, BitVec.ofInt 64 (a.toInt / 2 ^ (b.toNat % 64))),
   (0x0B, BitVec.ofInt 64 (min a.toInt b.toInt)), (0x0C, BitVec.ofInt 64 (max a.toInt b.toInt))]

/-- R265–R267: the commit of a run waits, begun, for the screening of its stores; or, where a store lies on a unit with an error mark, is POISON with that
store's effective address and micro-operation and stores nothing. Otherwise it performs its stores in order, one in each move, and with the last writes the one or
two results and ORs the run's conditions. The run issues in s0 and has left s. -/
def commits (s0 s : State) (r : SketchRun) (i : Instr) : Prop :=
  let c := s.core
  let held := fun (e : Nat × Nat × Nat × Nat × Nat) => screened s.cluster.tasks c.id.core e.2.1 e.2.2.1 .store = true
  let bad := fun (e : Nat × Nat × Nat × Nat × Nat) => poisoned c.poison e.2.1 e.2.2.1 = true
  let done := fun (u : State) =>
    let one := { u with core := { u.core with sketch := none } }.afterFlags r.d r.out0 r.flags
    if r.two then { one with core := { one.core with regs := one.core.regsWith (r.d + 1) r.out1 } } else one
  (r.begun = false → (∃ e ∈ r.queue, held e) → exec i s0 = .next { s with core := { c with sketch := some r, stall := some .screening } }) ∧
  (r.begun = false → (∀ e ∈ r.queue, ¬ held e) → ∀ l e l', r.queue = l ++ e :: l' → (∀ b ∈ l, ¬ bad b) → bad e →
    exec i s0 = .next ({ s with core := { c with sketch := none } }.takeFault { cause := .poison, addr := some (BitVec.ofNat 64 e.1), idx := e.2.2.2.2 })) ∧
  (r.begun = true ∨ (∀ e ∈ r.queue, ¬ held e ∧ ¬ bad e) →
    (r.queue = [] → exec i s0 = .next (done s)) ∧
    ∀ e rest, r.queue = e :: rest →
      let s1 := { s with core := { c.seesAt e.2.1 e.2.2.1 with spad := writeLE c.spad e.2.1 e.2.2.1 e.2.2.2.1 } }
      (rest = [] → exec i s0 = .next (done s1)) ∧
      (rest ≠ [] → exec i s0 = .next { s1 with core := { s1.core with sketch := some { r with queue := rest, begun := true }, stall := none } }))

/-- R254–R259, R264–R267: `sks` runs the bound scalar sketch; a run that ends commits; a run that faults changes nothing but what it has seen; before each load
but the first, and between its last load and its first store, a run may stand, and it goes on from there; a begun commit goes on whatever has become of the binding. An unbound number, an empty block and a
vector sketch are SKETCH_UNBOUND, a pair at an odd register ILLEGAL_OP, and a block that is not resident is waited for, or is POISON if its copy is bad. A sketch of
one micro-operation computes the operation's value. -/
def Obligations.ScalarSketches : Prop :=
  ∀ (s : State) (o : OpSks) (x : CtxCluster),
    (∀ r, s.core.sketch = some r → commits s s r (.sks o)) ∧
    (s.core.status.cv = true → s.core.sketch = none → s.cluster.ctxAt s.core.cid.toNat = some x →
      let unbound := exec (.sks o) s = .next (s.takeFault { cause := .sketchUnbound })
      let stands := fun (s' : State) (j : Nat) (run : Option SkRun) (w : Option Wait) => exec (.sks o) s = .next { s' with core := { s'.core with
        stall := w, issued := some { ids := [], n := 0, sketch := some { op := o, block := j, run := run } } } }
      (s.core.skIssue = none → assoc x.bindings o.n.toNat = none → unbound) ∧
      (∀ j run, (s.core.skIssue = none ∧ assoc x.bindings o.n.toNat = some j ∧ run = none ∨
          ∃ g, s.core.skIssue = some g ∧ g.block = j ∧ g.run = run) →
        ((x.block j).image = none → unbound) ∧
        (∀ im, (x.block j).image = some im →
          let two := (skHeader im).getLsbD 29; let lat := (skHeader im).toNat / 2 ^ 16 % 2 ^ 12 + 1
          ((skHeader im).getLsbD 28 = true → unbound) ∧
          ((skHeader im).getLsbD 28 = false →
            (two = true ∧ o.d.toNat % 2 = 1 → exec (.sks o) s = .next (s.takeFault { cause := .illegalOp })) ∧
            (¬ (two = true ∧ o.d.toNat % 2 = 1) →
              ((x.block j).phys = none → (x.block j).badCopy = false → stands s j none (some .sketch)) ∧
              ((x.block j).phys = none → (x.block j).badCopy = true → exec (.sks o) s = .next (s.takeFault { cause := .poison })) ∧
              ((x.block j).phys ≠ none →
                let k0 := run.getD (skStart (s.rd o.d).toNat (s.rd (o.d + 1)).toNat)
                let loads := ∃ p < skCount im, (skOp im p).op = 0x18
                ∀ s', (loads ∧ s' = { s with core := { s.core with early := 0, stale := [] } } ∨ ¬ loads ∧ s' = s) →
                let ran := skRunFor im (sksEnv s' o) (lat - k0.x) k0
                (∀ f, ran = .fault f → exec (.sks o) s = .next (s'.takeFault f)) ∧ (∀ k w, ran = .stands k w → stands s' j (some k) w) ∧
                (∀ k, ran = .done k → commits s s' { op := o, block := j, d := o.d, two := two, out0 := BitVec.ofNat 64 k.out0,
                                                                   out1 := BitVec.ofNat 64 k.out1, flags := k.fl, queue := k.queue } (.sks o))))))) ∧
      (∀ j, s.core.skIssue = none → assoc x.bindings o.n.toNat = some j →
        ∀ p ∈ microTable (s.rd o.a) (s.rd o.b), (x.block j).phys ≠ none →
          (x.block j).image = some [1, 0, 0, BitVec.ofNat 64 (p.1 * 2 ^ 58 + 8 * 2 ^ 54 + 8 * 2 ^ 50 + 9 * 2 ^ 46)] →
            exec (.sks o) s = .next (s.afterWrite o.d p.2)))

/-- R254, R270–R272: a number is bound to a written block of the partition and unbound again; `sk.write` puts an image into a block and makes it
resident; `sk.inval` drops residence, with its flag the contents and the bindings too; a reload makes a written block that has been issued resident. -/
def Obligations.SketchManagement : Prop :=
  ∀ (s : State) (x : CtxCluster), s.core.status.cv = true → s.cluster.ctxAt s.core.cid.toNat = some x →
    let after := fun (t : State) (rel : CtxCluster → Prop) => ∃ y, t.cluster.ctxAt s.core.cid.toNat = some y ∧ rel y ∧
      { y with bindings := x.bindings, blocks := x.blocks } = x
    let goesOn := fun (i : Instr) (rel : CtxCluster → Prop) => ∃ t, exec i s = .next t ∧ t.core = s.afterNext.core ∧ after t rel
    let written := fun (i : Instr) (rel : CtxCluster → Prop) => ∃ t, exec i s = .next t ∧ t.core = { s.afterNext.core with early := 0, stale := [] } ∧ after t rel
    (∀ o : OpSkBind, let j := o.j.toNat
      (x.partition ≤ j → exec (.skBind o) s = .next (s.takeFault { cause := .priv })) ∧
      (j < x.partition → (x.block j).image = none → exec (.skBind o) s = .next (s.takeFault { cause := .sketchUnbound })) ∧
      (j < x.partition → (x.block j).image ≠ none → goesOn (.skBind o) (fun y => y.blocks = x.blocks ∧
        ∀ n, assoc y.bindings n = if n = o.n.toNat then some j else assoc x.bindings n))) ∧
    (∀ o : OpSkN, goesOn (.skUnbind o) (fun y => y.blocks = x.blocks ∧ ∀ n, assoc y.bindings n = if n = o.n.toNat then none else assoc x.bindings n)) ∧
    (∀ (o : OpSkWrite) (h ops : List Word), let a := (s.rd o.a).toNat; let j := o.j.toNat
      (s.core.status.mode = true ∨ ∃ b, s.jobOf s.core.cid.toNat = some b ∧ b.skw = true) → j < x.partition → a < 2 ^ 32 → a % 16 = 0 →
      coreLoadWords s a 2 = .ok h → coreLoadWords s (a + 16) (2 * skCount h) = .ok ops →
      (skBad (h ++ ops) = true → exec (.skWrite o) s = .next (s.takeFault { cause := .illegalOp })) ∧
      (skBad (h ++ ops) = false → s.blockInUse s.core.cid.toNat j = true → exec (.skWrite o) s = .next (s.waitsOn .sketch)) ∧
      (skBad (h ++ ops) = false → s.blockInUse s.core.cid.toNat j = false → ((x.block j).phys ≠ none ∨ s.cluster.physFree ≠ none) →
        written (.skWrite o) (fun y => (y.block j).image = some (h ++ ops) ∧ (y.block j).phys ≠ none ∧ y.bindings = x.bindings ∧
          ∀ i, i ≠ j → y.block i = x.block i))) ∧
    (∀ o : OpSkInval, s.core.status.mode = true → (s.rd o.a).toNat % 128 = s.core.cid.toNat →
      (∀ j < 64, s.blockInUse s.core.cid.toNat j = false) → goesOn (.skInval o) (fun y =>
        (∀ i, (y.block i).phys = none ∧ (y.block i).image = if o.m then none else (x.block i).image) ∧ y.bindings = if o.m then [] else x.bindings)) ∧
    (∀ j, s.reloadWanted j = true → (x.block j).image ≠ none → (x.block j).phys = none → (x.block j).badCopy = false → s.cluster.physFree ≠ none → ∃ t, exec (.sketchReload j) s = .next t ∧
      t.core = s.core ∧ after t (fun y => (y.block j).phys ≠ none ∧ (y.block j).image = (x.block j).image ∧ y.bindings = x.bindings ∧
        ∀ i, i ≠ j → y.block i = x.block i))

/-- R372–R376, R381, R382: the statements above on this, together. -/
def Obligations.ControlRegistersAndValues : Prop := controlRegisters ∧ controlRegisterValues

/-- R168, R182, R376, R377, R379, R392: the statements above on this, together. -/
def Obligations.CoreEventsAndRegisterWrites : Prop := coreEvents ∧ controlRegisterWrites

/-! ## The vector engine (R213–R252, R268, R269) -/

/-- The running task of the acting core's engine may issue its next word on a pipe: the pipe is free in the word's cycle (R220, R221). -/
def mayIssue (s : State) (r : VecRun) (p : Pipe) : Prop := s.core.vec.run = some r ∧ r.free p ≤ r.issueAt r.next
/-- The state after that word has issued: the engine has moved on, and a result, if there is one, is in flight for its latency (R220). -/
def afterIssue (s : State) (r : VecRun) (p : Pipe) (occ lat : Nat) (dest : Option FlightDest) (fl : BitVec 7) : State :=
  { s with core := { s.core with vec := { s.core.vec with run := some (r.issued (r.issueAt r.next) p occ lat dest fl
    (s.core.vec.operands (r.body.getD r.next 0) dest)) } } }
/-- Element e at width w is active under predicate k: k0 governs every element, otherwise the bit of the lane that holds it, of the even
lane of a pair for 64 bits (R214, R215). -/
def active (s : State) (k : BitVec 4) (w e : Nat) : Prop :=
  k = 0 ∨ (s.core.vec.k[k.toNat]'k.isLt).getLsbD (if w = 64 then 2 * e else e * w / 32) = true
/-- A source element of a word. -/
def src (s : State) (n : Reg) (w e : Nat) : Nat := elemAt (s.core.vec.tile n) w e
/-- A word writes elements: with no element active it has no result; else its flight carries, for every element of the part it writes, the
value of an active one, zero for another under `.z`, and nothing elsewhere; the conditions of the active ones are collected (R223, R230). -/
def writesElements (s : State) (r : VecRun) (i : Instr) (p : Pipe) (occ lat : Nat) (d : Reg) (k : BitVec 4) (z : Bool) (w : Nat)
    (part : Nat → Prop) (f : Nat → Nat × BitVec 7) : Prop :=
  let count := 32768 / w
  ((∀ e < count, part e → ¬ active s k w e) → exec i s = .next (afterIssue s r p occ lat none 0)) ∧
  ((∃ e < count, part e ∧ active s k w e) → ∃ lanes fl,
    exec i s = .next (afterIssue s r p occ lat (some (.tile (physTile d s.core.vec.vrb) lanes)) fl) ∧
    (∀ b, fl.getLsbD b = true ↔ ∃ e < count, part e ∧ active s k w e ∧ (f e).2.getLsbD b = true) ∧
    ∀ (old : Tile) (e : Nat), e < count → let new := elemAt (csetList old lanes) w e
      (part e ∧ active s k w e → new = (f e).1 % 2 ^ w) ∧ (part e ∧ ¬ active s k w e ∧ z = true → new = 0) ∧
      (¬ part e ∨ ¬ active s k w e ∧ z = false → new = elemAt old w e))
/-- An element as an integer of its type: the even integer types are signed (R56). -/
def elemInt (ty : BitVec 4) (x : Nat) : Int := if ty.toNat % 2 = 0 ∧ 2 ^ (vecBits ty - 1) ≤ x then (x : Int) - 2 ^ vecBits ty else x
/-- The range of an integer type. -/
def loOf (ty : BitVec 4) : Int := if ty.toNat % 2 = 0 then -(2 ^ (vecBits ty - 1)) else 0
def hiOf (ty : BitVec 4) : Int := if ty.toNat % 2 = 0 then 2 ^ (vecBits ty - 1) - 1 else 2 ^ vecBits ty - 1

/-- R232, R233: the integer, bitwise, shift and move words of vectors, element by element. -/
def Obligations.VectorIntegerWords : Prop :=
  ∀ (s : State) (r : VecRun) (o : OpV), mayIssue s r .arith →
    let w := vecBits o.ty; let occ := if w = 64 then 8 else 4
    let A := fun e => elemInt o.ty (src s o.a w e); let B := fun e => elemInt o.ty (src s o.b w e)
    let low := fun (v : Int) => (v % 2 ^ w).toNat
    let clamp := fun (v : Int) => max (loOf o.ty) (min v (hiOf o.ty))
    (8 ≤ o.ty.toNat → ∀ p ∈ ([(.vadd o, fun a b => a + b), (.vsub o, fun a b => a - b), (.vmul o, fun a b => a * b), (.vmulh o, fun a b => a * b / 2 ^ w),
        (.vmin o, min), (.vmax o, max), (.vabs o, fun a _ => if o.sat then clamp |a| else |a|), (.vneg o, fun a _ => if o.sat then clamp (-a) else -a),
        (.vadds o, fun a b => clamp (a + b)), (.vsubs o, fun a b => clamp (a - b))] : List (Instr × (Int → Int → Int))),
      writesElements s r p.1 .arith occ 2 o.d o.k o.z w (fun _ => True) (fun e => (low (p.2 (A e) (B e)), 0))) ∧
    (∀ p ∈ ([(.vand o, fun a b => a &&& b), (.vor o, fun a b => a ||| b), (.vxor o, fun a b => a ^^^ b), (.vnot o, fun a _ => 2 ^ w - 1 - a),
        (.vmov o, fun a _ => a), (.vshl o, fun a b => a * 2 ^ (b % w)), (.vshr o, fun a b => a / 2 ^ (b % w))] : List (Instr × (Nat → Nat → Nat))),
      writesElements s r p.1 .arith occ 2 o.d o.k o.z w (fun _ => True) (fun e => (p.2 (src s o.a w e) (src s o.b w e), 0))) ∧
    (8 ≤ o.ty.toNat → writesElements s r (.vsra o) .arith occ 2 o.d o.k o.z w (fun _ => True) (fun e =>
      let a : Int := let x := src s o.a w e; if 2 ^ (w - 1) ≤ x then (x : Int) - 2 ^ w else x
      (low (a / 2 ^ (src s o.b w e % w)), 0))) ∧
    (∃ lanes, exec (.vsel o) s = .next (afterIssue s r .arith occ 2 (some (.tile (physTile o.d s.core.vec.vrb) lanes)) 0) ∧
      ∀ (old : Tile) (e : Nat), e < 32768 / w → let new := elemAt (csetList old lanes) w e
        (active s o.k w e → new = src s o.a w e) ∧ (¬ active s o.k w e → new = src s o.b w e))

/-- R229, R234, R235, R236: the floating-point words of vectors: each element is what the scalar operation of the element's format gives
under the word's mode, the task's for the dynamic mode; `vclass` gives the class mask. How 2^x and log2 x are brought to a correctly rounded result is the
model's reading (DEDUCED, log 21). -/
def Obligations.VectorFloatWords : Prop :=
  ∀ (s : State) (r : VecRun) (o : OpV), mayIssue s r .arith → o.ty.toNat ≤ 3 →
    let w := vecBits o.ty; let f := fmtOf o.ty.toNat
    let m := roundingOf o.rm r.task.rm 0
    let each := fun (i : Instr) (occ lat : Nat) (g : Nat → Nat → Nat → Nat × BitVec 7) =>
      writesElements s r i .arith occ lat o.d o.k o.z w (fun _ => True) (fun e => g (src s o.a w e) (src s o.b w e) (src s o.c w e))
    (∀ p ∈ ([(.vfadd o, fun x y _ => faddCode f m x y), (.vfsub o, fun x y _ => fsubCode f m x y), (.vfmul o, fun x y _ => fmulCode f m x y),
        (.vfma o, fun x y z => ffmaCode f m x y z false false), (.vfms o, fun x y z => ffmaCode f m x y z false true),
        (.vfnma o, fun x y z => ffmaCode f m x y z true false), (.vfmin o, fun x y _ => fminCode f false x y), (.vfmax o, fun x y _ => fminCode f true x y)] :
        List (Instr × (Nat → Nat → Nat → Nat × BitVec 7))), each p.1 (if w = 64 then 16 else 4) (if w = 64 then 8 else 4) p.2) ∧
    each (.vfabs o) (if w = 64 then 8 else 4) 2 (fun x _ _ => (x % 2 ^ (w - 1), 0)) ∧
    each (.vfneg o) (if w = 64 then 8 else 4) 2 (fun x _ _ => ((x + 2 ^ (w - 1)) % 2 ^ w, 0)) ∧
    (∀ p ∈ ([(.vdiv o, fun x y _ => fdivCode f m x y), (.vsqrt o, fun x _ _ => fsqrtCode f m x), (.vrcp o, fun x _ _ => finish f m (frcpVal (fdecode f x))),
        (.vrsq o, fun x _ _ => finish f m (frsqVal (fdecode f x))), (.vexp2 o, fun x _ _ => finish f m (fexp2Val (fdecode f x))),
        (.vlog2 o, fun x _ _ => finish f m (flog2Val (fdecode f x)))] : List (Instr × (Nat → Nat → Nat → Nat × BitVec 7))), each p.1 4 12 p.2) ∧
    each (.vclass o) (if w = 64 then 16 else 4) 3 (fun x _ _ => (fclassCode f x, 0))

/-- A word writes the predicate bits of lanes: those of active ones take the condition, others are cleared under `.z` and kept without it. -/
def writesPredicate (s : State) (r : VecRun) (i : Instr) (occ : Nat) (d : Nat) (k : BitVec 4) (z : Bool) (w : Nat) (cond : Nat → Prop) (flag : Nat → Nat → Prop) : Prop :=
  let lanes := if w = 64 then 512 else 1024
  let first := fun (g : Nat) => if w = 64 then 2 * g else g
  let on := fun (g : Nat) => k = 0 ∨ (s.core.vec.k[k.toNat]'k.isLt).getLsbD (first g) = true
  ((∀ g < lanes, ¬ on g) → exec i s = .next (afterIssue s r .arith occ 3 none 0)) ∧
  ((∃ g < lanes, on g) → ∃ mask value fl, exec i s = .next (afterIssue s r .arith occ 3 (some (.pred d mask value)) fl) ∧
    (∀ b, fl.getLsbD b = true ↔ ∃ g < lanes, on g ∧ flag g b) ∧
    ∀ g < lanes, ∀ j < (if w = 64 then 2 else 1), let n := first g + j
      (mask.getLsbD n = true ↔ on g ∨ z = true) ∧ (mask.getLsbD n = true → (value.getLsbD n = true ↔ on g ∧ cond g)))

/-- R236, R237: the comparisons give a lane the AND of the condition over its elements; an ordered relation of a NaN is invalid, the others
only for a signalling one. The predicate operations work on whole predicates, and `kpop` and `kfirst` count. -/
def vectorComparisons : Prop :=
  ∀ (s : State) (r : VecRun) (o : OpV),
    let w := vecBits o.ty; let per := if w = 64 then 1 else 32 / w; let spec := o.spec.toNat
    let elems := fun (g : Nat) (c : Nat → Prop) => ∀ e < per, c (g * per + e)
    (mayIssue s r .arith → 8 ≤ o.ty.toNat → spec < 6 → writesPredicate s r (.vcmp o) (if w = 64 then 8 else 4) o.d.toNat o.k o.z w
      (fun g => elems g (fun e => let a := elemInt o.ty (src s o.a w e); let b := elemInt o.ty (src s o.b w e)
        (spec = 0 → a = b) ∧ (spec = 1 → a ≠ b) ∧ (spec = 2 → a < b) ∧ (spec = 3 → a ≤ b) ∧ (spec = 4 → b < a) ∧ (spec = 5 → b ≤ a))) (fun _ _ => False)) ∧
    (mayIssue s r .arith → o.ty.toNat ≤ 3 → let f := fmtOf o.ty.toNat
      let x := fun e => fdecode f (src s o.a w e); let y := fun e => fdecode f (src s o.b w e)
      let nan := fun e => (x e).isNan = true ∨ (y e).isNan = true
      writesPredicate s r (.vfcmp o) (if w = 64 then 16 else 4) o.d.toNat o.k o.z w
        (fun g => elems g (fun e => (spec = 0 → feqVal (x e) (y e) = true) ∧ (spec = 1 → feqVal (x e) (y e) = false) ∧ (spec = 2 → fltVal (x e) (y e) = true) ∧
          (spec = 3 → fltVal (x e) (y e) = true ∨ feqVal (x e) (y e) = true) ∧ (spec = 4 → fltVal (y e) (x e) = true) ∧
          (spec = 5 → fltVal (y e) (x e) = true ∨ feqVal (x e) (y e) = true) ∧ (spec = 6 → nan e) ∧ (spec = 7 → ¬ nan e)))
        (fun g b => b = 0 ∧ ∃ e < per, let n := g * per + e
          (2 ≤ spec ∧ spec ≤ 5 ∧ nan n) ∨ (x n).isSnan = true ∨ (y n).isSnan = true)) ∧
    (mayIssue s r .perm → let K := fun (n : Reg) => s.core.vec.pred n.toNat
      (∀ p ∈ ([(.kand o, fun a b => a && b), (.kor o, fun a b => a || b), (.kxor o, fun a b => a != b), (.knot o, fun a _ => !a), (.kmov o, fun a _ => a)] :
          List (Instr × (Bool → Bool → Bool))),
        ∃ v, exec p.1 s = .next (afterIssue s r .perm 1 1 (some (.pred o.d.toNat (BitVec.allOnes 1024) v)) 0) ∧
          ∀ n < 1024, v.getLsbD n = p.2 ((K o.a).getLsbD n) ((K o.b).getLsbD n)) ∧
      exec (.kpop o) s = .next (afterIssue s r .perm 1 1
        (some (.xreg o.d.toNat (BitVec.ofNat 64 ((List.range 1024).filter (fun n => (K o.a).getLsbD n)).length))) 0) ∧
      ∃ n, exec (.kfirst o) s = .next (afterIssue s r .perm 1 1 (some (.xreg o.d.toNat (BitVec.ofNat 64 n))) 0) ∧
        n ≤ 1024 ∧ (∀ m < n, (K o.a).getLsbD m = false) ∧ (n < 1024 → (K o.a).getLsbD n = true)) ∧
    (∀ n, s.core.vec.pred 0 = BitVec.allOnes 1024 ∧ (n ≠ 0 → s.core.vec.pred n = s.core.vec.k.toList.getD n 0))

/-- A word that moves lanes whole: an active destination lane takes the lane that `from_` names. -/
def movesLanes (s : State) (r : VecRun) (i : Instr) (lat : Nat) (o : OpV) (from_ : Nat → Nat) : Prop :=
  let w := vecBits o.ty
  let on := fun (l : Nat) => o.k = 0 ∨ (s.core.vec.k[o.k.toNat]'o.k.isLt).getLsbD (if w = 64 then l / 2 * 2 else l) = true
  ((∀ l < 1024, ¬ on l) → exec i s = .next (afterIssue s r .perm 4 lat none 0)) ∧
  ((∃ l < 1024, on l) → ∃ lanes, exec i s = .next (afterIssue s r .perm 4 lat (some (.tile (physTile o.d s.core.vec.vrb) lanes)) 0) ∧
    ∀ (old : Tile) (l : Nat), l < 1024 → cget (csetList old lanes) l =
      if o.k = 0 ∨ (s.core.vec.k[o.k.toNat]'o.k.isLt).getLsbD (if w = 64 then l / 2 * 2 else l) = true then cget (s.core.vec.tile o.a) (from_ l)
      else if o.z then 0 else cget old l)

/-- R238, R241–R243, R250: `vcvt` converts the part of the source that SPEC names, or into the part of the destination that it names, with the
draw of the element for a stochastic rounding; rotations and broadcasts move lanes in the 16 by 64 arrangement; a reduction combines a line's
elements, inactive ones replaced by the identity, as a tree of neighbours; `vhad32` transforms blocks of 32. -/
def vectorMoves : Prop :=
  ∀ (s : State) (r : VecRun) (o : OpV),
    (mayIssue s r .perm → o.c.toNat < 64 →
      movesLanes s r (.vrotR o) 2 o (fun l => 64 * (l / 64) + (l % 64 + 64 - o.c.toNat) % 64) ∧
      movesLanes s r (.vbcR o) 2 o (fun l => 64 * (l / 64) + o.c.toNat) ∧
      (o.c.toNat < 16 → movesLanes s r (.vrotC o) 6 o (fun l => (l + 1024 - 64 * o.c.toNat) % 1024) ∧
        movesLanes s r (.vbcC o) 4 o (fun l => 64 * o.c.toNat + l % 64))) ∧
    (mayIssue s r .perm → let w := vecBits o.ty; let n := 2048 / w
      let m := roundingOf o.rm r.task.rm 0
      let value := fun (e : Nat) => if s.core.vec.pred o.k.toNat |>.getLsbD (if w = 64 then 2 * e else e * w / 32) then src s o.a w e else redIdentity o.ty o.spec.toNat
      let fold := fun (l : List Nat) => redTree (redOp o.ty o.spec.toNat m) 8 (l.map value)
      writesElements s r (.vredR o) .perm 4 8 o.d o.k o.z w (fun _ => True) (fun e => fold ((List.range n).map (fun j => e / n * n + j))) ∧
      writesElements s r (.vredC o) .perm 4 12 o.d o.k o.z w (fun _ => True) (fun e => fold ((List.range 16).map (fun j => j * n + e % n))) ∧
      (vecFloat o.ty = false → o.spec.toNat = 0 → o.k = 0 →
        ∀ e < 32768 / w, (fold ((List.range n).map (fun j => e / n * n + j))).1 % 2 ^ w = ((List.range n).map (fun j => src s o.a w (e / n * n + j))).sum % 2 ^ w)) ∧
    (mayIssue s r .perm → writesElements s r (.vhad32 o) .perm 4 10 o.d o.k o.z 32 (fun _ => True) (fun e =>
      let b := hadBlock (o.spec.getLsbD 0) ((List.range 32).map (fun i => src s o.a 32 (e / 32 * 32 + i)))
      (b.1.getD (e % 32) 0, b.2))) ∧
    (mayIssue s r .arith → o.c.toNat < 16 → (o.c.toNat < 6 ∨ 8 ≤ o.c.toNat) → (o.ty.toNat < 6 ∨ 8 ≤ o.ty.toNat) →
      let from_ : BitVec 4 := BitVec.ofNat 4 o.c.toNat; let ns := 32768 / vecBits from_; let nd := 32768 / vecBits o.ty; let n := min ns nd; let w := vecBits o.ty
      let mode := fun e => if o.rm = 5 then Rounding.sr (breeze r.task.kt.toNat (breezeCtr r.iter r.next e) / 2 ^ 48)
        else roundingOf o.rm r.task.rm 0
      (nd ≤ ns → (o.spec.toNat + 1) * n ≤ ns → writesElements s r (.vcvt o) .arith 4 5 o.d o.k o.z w (fun _ => True) (fun e =>
        vecConvert from_ o.ty (mode e) o.sat (src s o.a (vecBits from_) (o.spec.toNat * n + e)))) ∧
      (ns < nd → (o.spec.toNat + 1) * n ≤ nd → writesElements s r (.vcvt o) .arith 4 5 o.d o.k o.z w
        (fun e => o.spec.toNat * n ≤ e ∧ e < (o.spec.toNat + 1) * n) (fun e =>
        vecConvert from_ o.ty (mode e) o.sat (src s o.a (vecBits from_) (e - o.spec.toNat * n)))))

/-- A row of 64 lanes that a packing word writes: governed by the predicate bit of the row's lane 0. -/
def writesRows (s : State) (r : VecRun) (i : Instr) (o : OpV) (f : Nat → List Nat × BitVec 7) : Prop :=
  let on := fun (row : Nat) => o.k = 0 ∨ (s.core.vec.k[o.k.toNat]'o.k.isLt).getLsbD (64 * row) = true
  ((∀ row < 16, ¬ on row) → exec i s = .next (afterIssue s r .arith 4 6 none 0)) ∧
  ((∃ row < 16, on row) → ∃ lanes fl, exec i s = .next (afterIssue s r .arith 4 6 (some (.tile (physTile o.d s.core.vec.vrb) lanes)) fl) ∧
    (∀ b, fl.getLsbD b = true ↔ ∃ row < 16, on row ∧ (f row).2.getLsbD b = true) ∧
    ∀ (old : Tile) (row l : Nat), row < 16 → l < 64 → let new := cget (csetList old lanes) (64 * row + l)
      (on row → new = BitVec.ofNat 32 ((f row).1.getD l 0)) ∧ (¬ on row → o.z = true → new = 0) ∧ (¬ on row → o.z = false → new = cget old (64 * row + l)))

/-- R25, R133, R239, R240, R249–R252: `vqmx` packs each row's two blocks of 32 as codes and scales and `vdqmx` unpacks them; `vrand` gives the top bits of
the draws, for F32 and F64 as fractions; `vsplat` copies an x register to every active element; `vsplat.pop` takes the oldest element of a bound
stream and `vsplat.push` appends lanes 0 and 1, or they hold the engine, and an unbound stream is STREAM_UNBOUND. -/
def Obligations.VectorPackingAndStreams : Prop :=
  ∀ (s : State) (r : VecRun) (o : OpV), mayIssue s r .arith →
    let w := vecBits o.ty
    let block := fun (row b : Nat) => mxQuant ((List.range 32).map (fun j => fdecode .f32 (src s o.a 32 (64 * row + 32 * b + j))))
    writesRows s r (.vqmx o) o (fun row =>
      ((List.range 8).map (fun m => ((List.range 8).map (fun j => ((block row 0).2.1 ++ (block row 1).2.1).getD (8 * m + j) 0 % 16 * 16 ^ j)).sum) ++
        [(block row 0).1 + 256 * (block row 1).1], (block row 0).2.2 ||| (block row 1).2.2)) ∧
    (∃ f, writesRows s r (.vdqmx o) o f ∧ ∀ row < 16, ∀ j < 64,
      let code := src s o.a 32 (64 * row + j / 8) / 16 ^ (j % 8) % 16; let sc := src s o.a 32 (64 * row + 8) / 256 ^ (j / 32) % 256
      (f row).1.getD j 0 = if sc = 255 then FloatFmt.f32.nan else (fround .f32 .rne o.sat (mxValue code sc)).1) ∧
    writesElements s r (.vrand o) .arith 4 6 o.d o.k o.z w (fun _ => True) (fun e =>
      let x := breeze r.task.kt.toNat (breezeCtr r.iter r.next e)
      if o.ty = 0 then fround .f64 .rne false (.fin false (x / 2 ^ 11) (-53) false)
      else if o.ty = 1 then fround .f32 .rne false (.fin false (x / 2 ^ 40) (-24) false) else (x / 2 ^ (64 - w), 0)) ∧
    (o.spec = 0 → writesElements s r (.vsplat o) .arith (if w = 64 then 8 else 4) 2 o.d o.k o.z w (fun _ => True)
      (fun _ => ((s.core.vec.x.toList.getD o.a.toNat 0).toNat, 0))) ∧
    (let q := s.core.stream (BitVec.ofNat 3 o.a.toNat); let some_ := ∃ e < 32768 / w, active s o.k w e
     let occ := if w = 64 then 8 else 4
     (¬ some_ → exec (.vsplatPop o) s = .next (afterIssue s r .arith occ 2 none 0)) ∧
     (some_ → q.bound = false → exec (.vsplatPop o) s = .next (s.vecFault r { cause := .streamUnbound })) ∧
     (some_ → q.bound = true → q.elems = [] → exec (.vsplatPop o) s = .next (s.setRun (some { r with held := true }))) ∧
     (∀ x rest, some_ → q.bound = true → q.elems = x :: rest → ∃ lanes, exec (.vsplatPop o) s = .next (afterIssue
         { s with core := s.core.setElems (BitVec.ofNat 3 o.a.toNat) rest } r .arith occ 2 (some (.tile (physTile o.d s.core.vec.vrb) lanes)) 0) ∧
       ∀ (old : Tile) (e : Nat), e < 32768 / w → let new := elemAt (csetList old lanes) w e
         (active s o.k w e → new = x.toNat % 2 ^ w) ∧ (¬ active s o.k w e → new = if o.z then 0 else elemAt old w e))) ∧
    (let q := s.core.stream (BitVec.ofNat 3 o.d.toNat); let on := o.k = 0 ∨ (s.core.vec.k[o.k.toNat]'o.k.isLt).getLsbD 0 = true
     (¬ on → exec (.vsplatPush o) s = .next (afterIssue s r .arith 8 0 none 0)) ∧
     (on → q.bound = false → exec (.vsplatPush o) s = .next (s.vecFault r { cause := .streamUnbound })) ∧
     (on → q.bound = true → 64 ≤ q.elems.length → exec (.vsplatPush o) s = .next (s.setRun (some { r with held := true }))) ∧
     (on → q.bound = true → q.elems.length < 64 → exec (.vsplatPush o) s = .next (afterIssue
       { s with core := s.core.setElems (BitVec.ofNat 3 o.d.toNat) (q.elems ++ [BitVec.ofNat 64 (src s o.a 64 0)]) } r .arith 8 0 none 0)))

/-- R246, R290: remote writes of a running task leave through a window one after another; none waits for its allowance, its pair or a fence. -/
def sendsInOrder (s : State) (t : Task) (k : Nat) (m : WinMap) : List (List (Nat × Byte)) → State → Prop
  | [], u => u = s
  | w :: ws, u => s.remoteHeld s.core.id t k m = false ∧ sendsInOrder (s.taskWindowWrite s.core.id t k m w false) t k m ws u

/-- R219, R223, R224, R245, R247: a vector memory word with an element active is judged before any effect: the walker, the alignment, each active element
against the region in element order, and for loads the error marks; the first that fails faults with the address it names. -/
def vectorMemoryFaults : Prop :=
  ∀ (s : State) (r : VecRun) (o : OpVM), mayIssue s r .ldst → o.a.toNat < 8 →
    let n := 2 ^ o.size.toNat; let w := 8 * n; let count := 32768 / w
    let pitch : Int := let x : Nat := (s.core.vec.xreg 7).toNat % 2 ^ 32; if x < 2 ^ 31 then (x : Int) else (x : Int) - 2 ^ 32
    (∃ e < count, active s o.k w e) →
    (r.task.walkerAt r.iter o.a.toNat = none → ∀ i ∈ [Instr.vld o, .vst o, .vgather o, .vscatter o],
      exec i s = .next (s.vecFault r { cause := .walkerRange })) ∧
    (∀ reg a, r.task.walkerAt r.iter o.a.toNat = some (reg, a) →
      let fails := fun (i : Instr) (c : Cause) (x : Int) => exec i s = .next (s.vecFault r { cause := c, addr := some (vecFaultAddr s r.task reg x) })
      let tileAt := fun (e : Nat) => a + o.off.toInt + (if o.pitch then ((e / (256 / n) : Nat) : Int) * pitch + ((e % (256 / n) * n : Nat) : Int) else ((e * n : Nat) : Int))
      let indexAt := fun (e : Nat) => a + ((src s (BitVec.ofNat 6 o.off.toNat) w e * n : Nat) : Int)
      let tileAligned := (a + o.off.toInt) % n = 0 ∧ (o.pitch = true → pitch % n = 0)
      let within := fun (x : Int) => reg.lo ≤ x ∧ x + n - 1 ≤ reg.hi
      let readable := fun (x : Int) => within x ∧ (reg.rd = true ∨ reg.cn = true) ∧ reg.space ≠ .rem
      let writable := fun (x : Int) => within x ∧ reg.wr = true
      let first := fun (ok : Nat → Prop) (e : Nat) => e < count ∧ active s o.k w e ∧ ¬ ok e ∧ ∀ e' < e, active s o.k w e' → ok e'
      (¬ tileAligned → fails (.vld o) .misalign (a + o.off.toInt) ∧ fails (.vst o) .misalign (a + o.off.toInt)) ∧
      (a % n ≠ 0 → fails (.vgather o) .misalign a ∧ fails (.vscatter o) .misalign a) ∧
      (∀ p ∈ [(Instr.vld o, Instr.vst o, tileAt, tileAligned), (.vgather o, .vscatter o, indexAt, a % n = 0)], p.2.2.2 →
        (∀ e, first (fun e => readable (p.2.2.1 e)) e → fails p.1 .walkerRange (p.2.2.1 e)) ∧
        (∀ e, first (fun e => writable (p.2.2.1 e)) e → fails p.2.1 .walkerRange (p.2.2.1 e)) ∧
        ((∀ e < count, active s o.k w e → readable (p.2.2.1 e)) →
          ∀ e, first (fun e => poisoned s.core.poison (p.2.2.1 e).toNat n = false) e → fails p.1 .poison (p.2.2.1 e))))

/-- R222, R246, R290: a store through a walker of a mapped window: a `vst` sends one write for each naturally aligned 64-byte unit with an active byte, in the
order of the lowest element in each, a `vscatter` one for each active element; each leaves as a WRITE of the task with those bytes and takes one unit of
the allowance. The engine holds before a write that must wait. -/
def vectorRemoteStores : Prop :=
  ∀ (s : State) (r : VecRun) (o : OpVM) (reg : Region) (a : Int) (i : Fin 16) (m : WinMap), mayIssue s r .ldst → o.a.toNat < 8 →
    r.task.walkerAt r.iter o.a.toNat = some (reg, a) → reg.space = .rem → reg.wr = true →
    let n := 2 ^ o.size.toNat; let w := 8 * n; let base := 0x40000000 + i.val * 0x4000000
    (reg.base - 0x40000000) / 0x4000000 = i.val → s.core.windows[i].map = some m → r.sent = 0 →
    ∀ es : List Nat, es ≠ [] → es.Pairwise (· < ·) → (∀ e, e ∈ es ↔ e < 32768 / w ∧ active s o.k w e) →
    let tileAt := fun (e : Nat) => a + o.off.toInt + ((e * n : Nat) : Int)
    let indexAt := fun (e : Nat) => a + ((src s (BitVec.ofNat 6 o.off.toNat) w e * n : Nat) : Int)
    let bytes := fun (at_ : Nat → Int) (e : Nat) => bytesAt ((at_ e).toNat - base) n (src s o.d w e)
    let sends := fun (j : Instr) (occ : Nat) (ws : List (List (Nat × Byte))) =>
      (s.remoteHeld s.core.id r.task i.val m = true → exec j s = .next (s.setRun (some { r with held := true }))) ∧
      (∀ u, sendsInOrder s r.task i.val m ws u → exec j s = .next (afterIssue u r .ldst occ 0 none 0))
    let inside := fun (at_ : Nat → Int) => ∀ e ∈ es, reg.lo ≤ at_ e ∧ at_ e + n - 1 ≤ reg.hi ∧ (base : Int) ≤ at_ e
    (o.pitch = false → (a + o.off.toInt) % n = 0 → inside tileAt →
      let all := es.flatMap (bytes tileAt)
      sends (.vst o) 4 (((all.map (fun p => p.1 / 64)).eraseDups).map (fun u => all.filter (fun p => p.1 / 64 = u)))) ∧
    (a % n = 0 → inside indexAt → sends (.vscatter o) 16 (es.map (bytes indexAt))) ∧
    (∀ w : List (Nat × Byte), w ≠ [] → let t : Target := { die := m.die, clu := m.clu, core := m.core }; s.ownCluster s.core.id t = false →
      let u := s.taskWindowWrite s.core.id r.task i.val m w false; let put := w.map (fun p => (m.rb + p.1, p.2))
      leavesFrom s t r.task.cls (.write ((put.head?.map Prod.fst).getD 0) put m.raise false)
        { core := s.core.id, ctx := r.task.ctx, window := some i.val, task := some r.task.id } u ∧
      u.core.windows[i] = { s.core.windows[i] with out := s.core.windows[i].out + 1 } ∧ u.core.vec = s.core.vec)

/-- R219, R222, R244–R248, R268, R269: a vector load reads, and a store to own scratchpad writes, the active elements at the walker's address plus the offset,
contiguous or by rows at the pitch, or at the index elements for a gather and a scatter; nothing active does nothing; `sksv` runs the bound sketch
on each active lane, and with none active does nothing. -/
def vectorMemoryAndSksv : Prop :=
  ∀ (s : State) (r : VecRun),
    (∀ o : OpVM, mayIssue s r .ldst → o.a.toNat < 8 →
      let n := 2 ^ o.size.toNat; let w := 8 * n; let none_ := ∀ e < 32768 / w, ¬ active s o.k w e
      let pitch : Int := let x : Nat := (s.core.vec.xreg 7).toNat % 2 ^ 32; if x < 2 ^ 31 then (x : Int) else (x : Int) - 2 ^ 32
      (none_ → exec (.vld o) s = .next (afterIssue s r .ldst 4 24 none 0) ∧ exec (.vst o) s = .next (afterIssue s r .ldst 4 0 none 0) ∧
        exec (.vgather o) s = .next (afterIssue s r .ldst 16 40 none 0) ∧ exec (.vscatter o) s = .next (afterIssue s r .ldst 16 0 none 0)) ∧
      (¬ none_ → ∀ reg a, r.task.walkerAt r.iter o.a.toNat = some (reg, a) → reg.space = .spad →
        let tileAt := fun (e : Nat) => a + o.off.toInt + (if o.pitch then ((e / (256 / n) : Nat) : Int) * pitch + ((e % (256 / n) * n : Nat) : Int) else ((e * n : Nat) : Int))
        let indexAt := fun (e : Nat) => a + ((src s (BitVec.ofNat 6 o.off.toNat) w e * n : Nat) : Int)
        let aligned := (a + o.off.toInt) % n = 0 ∧ (o.pitch = true → pitch % n = 0)
        let inside := fun (at_ : Nat → Int) => ∀ e < 32768 / w, active s o.k w e → reg.lo ≤ at_ e ∧ at_ e + n - 1 ≤ reg.hi ∧ 0 ≤ at_ e
        let clean := fun (at_ : Nat → Int) => ∀ e < 32768 / w, active s o.k w e → poisoned s.core.poison (at_ e).toNat n = false
        let loads := fun (i : Instr) (occ lat : Nat) (at_ : Nat → Int) =>
          writesElements s r i .ldst occ lat o.d o.k false w (fun _ => True) (fun e => (readLE s.core.spad (at_ e).toNat n, 0))
        let stores := fun (i : Instr) (occ : Nat) (at_ : Nat → Int) => ∃ m marks k,
          exec i s = .next (afterIssue { s with core := { s.core.see k with spad := m, poison := marks } } r .ldst occ 0 none 0) ∧
          (∀ b : Nat, (∀ e < 32768 / w, active s o.k w e → ¬ (at_ e ≤ (b : Int) ∧ (b : Int) < at_ e + n)) → cget m b = cget s.core.spad b) ∧
          (∀ e < 32768 / w, active s o.k w e → (∀ e' < 32768 / w, active s o.k w e' → e < e' → at_ e' + n ≤ at_ e ∨ at_ e + n ≤ at_ e') →
            readLE m (at_ e).toNat n = src s o.d w e)
        (reg.rd = true ∨ reg.cn = true → (aligned → inside tileAt → clean tileAt → loads (.vld o) 4 24 tileAt) ∧
          (a % n = 0 → inside indexAt → clean indexAt → loads (.vgather o) 16 40 indexAt)) ∧
        (reg.wr = true → (aligned → inside tileAt → stores (.vst o) 4 tileAt) ∧ (a % n = 0 → inside indexAt → stores (.vscatter o) 16 indexAt)))) ∧
    (∀ (o : OpSksv) (j : Nat) (b : SkBlock) (im : List Word), mayIssue s r .arith → s.taskBlock r.task o.n.toNat = some (j, b) → b.image = some im →
      let lat := (skHeader im).toNat / 2 ^ 16 % 2 ^ 12 + 1
      (b.phys ≠ none → writesElements s r (.sksv o) .arith 4 lat o.v.d o.v.k o.v.z 32 (fun _ => True) (fun l =>
        sksvLane im (sksvEnv s o.v r l) (src s o.v.d 32 l))) ∧
      (let some_ := ∃ l < 1024, active s o.v.k 32 l
       (¬ some_ → exec (.sksv o) s = .next (afterIssue s r .arith 4 lat none 0)) ∧
       (some_ → b.phys = none → b.badCopy = false → exec (.sksv o) s = .next (s.setRun (some { r with held := true }))) ∧
       (some_ → b.phys = none → b.badCopy = true → exec (.sksv o) s = .next (s.vecFault r { cause := .poison }))))

/-- R219, R222–R224, R244–R248, R268, R269: the statements above on this, together. -/
def Obligations.VectorMemoryAndSketches : Prop := vectorMemoryAndSksv ∧ vectorMemoryFaults ∧ vectorRemoteStores

/-- R236–R238, R241–R243, R250: the statements above on this, together. -/
def Obligations.VectorComparisonsAndMoves : Prop := vectorComparisons ∧ vectorMoves

/-! ## Engines of a cluster (R115–R124, R197–R211, R213–R226, R320–R324) -/

/-- The task an engine takes: of those that may start and that the engine runs, the highest priority, and the oldest within it (R324). -/
def chosen (s : State) (kind : Task → Bool) (t : Task) : Prop :=
  let may := fun (u : Task) => kind u && s.dispatchable s.core.id.die s.core.id.clu u
  ∃ older newer, s.cluster.tasks = older ++ t :: newer ∧ may t = true ∧ (∀ u ∈ older, may u = true → u.pri.toNat < t.pri.toNat) ∧
    ∀ u ∈ newer, may u = true → u.pri.toNat ≤ t.pri.toNat
/-- The tasks of a cluster with one DISPATCHED (R321). -/
def withDispatched (k : Cluster) (t : Task) : List Task := k.tasks.map (fun u => if u.id = t.id then { u with phase := .dispatched } else u)

/-- R63, R210, R211, R217, R225, R298, R321, R324: a free engine takes its chosen task; the canvas only one of the holder's during its lease and while it is
warm or holds a token; a vector engine starts at kernel iteration 0 with its arguments in x0–x7, or the task ends with a fault before its first issue, for a marked word
of its body, an illegal one, an unbound sketch, or more than 32 results in flight at a boundary; an `rpost` task's POST leaves. That the last of these faults names
the body's first word is the model's choice (log 82). -/
def Obligations.TaskDispatch : Prop :=
  ∀ (s : State) (t : Task), s.placed →
    let k := s.cluster; let c := k.canvas
    let takes := fun (e : Engine) (k' : Cluster) => exec (.taskDispatch e) s = .next { s with cluster := k' }
    (chosen s Task.isCopy t →
      (k.copy0 = none → takes (.copy 0) { k with tasks := withDispatched k t, copy0 := some t.id }) ∧
      (k.copy0 ≠ none → k.copy1 = none → takes (.copy 1) { k with tasks := withDispatched k t, copy1 := some t.id })) ∧
    (chosen s Task.isShape t → k.shaper = none → takes .shaper { k with tasks := withDispatched k t, shaper := some t.id }) ∧
    (∀ h, c.holder = some h → c.ending = false → chosen s (fun u => u.isCanvas && (if u.remote then 4 else u.core) == h) t → k.canvasTask = none →
      c.done < c.leaseLen → (∀ a, c.leaseStart = some a → s.sched.now < a + 32768) →
      (c.gust = true ∨ c.cold = false ∧ s.sched.now < c.lastBusy + 1024) →
      takes .canvas { k with tasks := withDispatched k t, canvasTask := some t.id,
                             canvas := { c with cold := false, leaseStart := some (c.leaseStart.getD s.sched.now) } }) ∧
    (chosen s (fun u => u.isVec && u.core == s.core.id.core && !u.remote) t → s.core.vec.run = none →
      (∀ u ∈ k.tasks, u.isVec = true → u.core = s.core.id.core → u.phase ≠ .dispatched) → t.resume = .start →
      s.bodyFault { t with phase := .dispatched } (s.bodyWords t) = none →
        ∃ u r, exec (.taskDispatch (.vector s.core.id.core)) s = .next u ∧ u.core.vec.run = some r ∧ r.task.id = t.id ∧ r.body = s.bodyWords t ∧
          r.iter = 0 ∧ r.next = 0 ∧ r.clock = 0 ∧ r.flights = [] ∧ u.core.vec.vrb = 0 ∧ u.core.vec.v = s.core.vec.v ∧
          (∀ i : Fin 16, u.core.vec.x[i] = if i.val < 8 then t.vec.args.getD i.val 0 else 0) ∧
          (∀ i : Fin 16, i.val < 8 → u.core.vec.k[i] = s.core.vec.k[i]) ∧
          u.cluster.tasks = withDispatched k t) ∧
    (chosen s (fun u => u.isVec && u.core == s.core.id.core && !u.remote) t → s.core.vec.run = none →
      (∀ u ∈ k.tasks, u.isVec = true → u.core = s.core.id.core → u.phase ≠ .dispatched) → t.resume = .start →
      let u := { t with phase := .dispatched }; let words := s.bodyWords t
      let marked := fun j => j < t.vec.n ∧ poisoned s.core.poison (t.vec.body + 8 * j) 8 = true
      let illegal := fun j => ∃ w, words[j]? = some w ∧ vectorLegal w = false
      let unbound := fun j => ∃ w, words[j]? = some w ∧ (majorOf w).toNat = 0xF4 ∧ s.sksvBound u w = false
      let first := fun (bad : Nat → Prop) (j : Nat) => bad j ∧ ∀ i < j, ¬ bad i
      let faults := fun (c : Cause) (j : Nat) => exec (.taskDispatch (.vector s.core.id.core)) s = .next (({ s with cluster := { k with tasks := withDispatched k t } }).taskFault
        s.core.id.die s.core.id.clu u { cause := c, addr := some (BitVec.ofNat 64 (t.vec.body + 8 * j - s.placement t.ctx s.core.id)), idx := j } true)
      (∀ j, first marked j → faults .poison j) ∧
      ((∀ j, ¬ marked j) → (∀ j, first illegal j → faults .illegalOp j) ∧
        ((∀ j, ¬ illegal j) → (∀ j, first unbound j → faults .sketchUnbound j) ∧
          ((∀ j, ¬ unbound j) → 32 < s.inFlight u words → faults .issueCollision 0)))) ∧
    (∀ older newer tw body, k.tasks = older ++ t :: newer → t.op = .rpost tw body → s.dispatchable s.core.id.die s.core.id.clu t = true →
      (∀ u ∈ older, (u.isRpost && s.dispatchable s.core.id.die s.core.id.clu u) = false) →
      let g := s.target tw
      s.ownCluster ⟨s.core.id.die, s.core.id.clu, t.core⟩ g = false → s.die.pairRoom g.die t.cls = true → s.die.retryBlocks g t.cls isPost = false →
      fenceHolds t.orders (s.coreAt ⟨s.core.id.die, s.core.id.clu, t.core⟩).effects g.die t.cls = false →
        ∃ u p, exec (.taskDispatch .fabric) s = .next u ∧ u.cluster.tasks = withDispatched k t ∧ u.cluster.fabric = k.fabric ++ [t.id] ∧
          p ∈ u.die.unacked ∧ p.uid = s.modul.nextUid ∧ p.dst = g.die ∧ p.clu = g.clu ∧ p.core = g.core ∧ p.cls = t.cls ∧ p.body = body ∧
          p.seq = nextSeq s.die.seqs g.die t.cls ∧ p.from_.task = some t.id)

/-- The tasks of a cluster after one has become COMPLETE and stays: its dependents are released, its entry is kept (R320, R321). -/
def afterComplete (k : Cluster) (id : Nat) : List Task :=
  k.tasks.map (fun u => if u.id = id then { u with phase := .complete } else
    let w := u.waits.filter (fun i => i ≠ id)
    { u with waits := w, phase := if u.phase = .waiting ∧ w = [] then .ready else u.phase })
/-- A dispatched task has done all its work and meets no fault (R322): a copy has moved every element, a shaper has read what it needs and no marked unit, a
canvas command reads no marked unit, a vector engine has issued and landed everything, a post has no packet unanswered; and every write that the engine
sent to HBM of another die has been performed. -/
def isDone (s : State) (e : Engine) (t : Task) : Prop :=
  match e with
  | .copy n => s.cluster.copyEngine n = some t ∧ t.hbmIdle = true ∧ (t.resume = .written none ∨ t.hasWritten = false ∧ t.copyCount ≤ t.copyNext)
  | .shaper => s.cluster.shaper.bind s.cluster.task? = some t ∧ t.hbmIdle = true ∧ s.farMissing s.core.id.die t = [] ∧ ∃ unload h, t.op = .shape unload h ∧
      (unload = true ∨ ∀ r ∈ t.regions, r.space ≠ .pal → ∀ n < r.count,
        (s.memRead s.core.id.die s.core.id.clu t r.space r.core (r.elem n).toNat r.es).2 = false)
  | .canvas => s.cluster.canvasTask.bind s.cluster.task? = some t ∧ t.hbmIdle = true ∧ (t.resume = .written none ∨
      t.hasWritten = false ∧ s.hbmHeld s.core.id.die s.core.id.clu t = false ∧ s.farMissing s.core.id.die t = [] ∧
      ((∃ h, t.op = .acc 0 h) ∨ ∃ minor tile a b spec, t.op = .mma minor tile a b spec ∧
        (∀ h ∈ mmaParts minor spec, ∀ u < partSize (mmaKind minor) / 64, cget (s.cluster.tile tile).poison (partBase h / 64 + u) = 0) ∧
        ∀ n ∈ mmaSlots minor a b, ∀ u < 2048, cget (s.cluster.slot n).errors u = 0))
  | .vector k => k = s.core.id.core ∧ t.core = k ∧ ∃ r, s.core.vec.run = some r ∧ r.body.length ≤ r.next ∧ r.task.kernels ≤ r.iter + 1 ∧ r.flights = [] ∧ t = s.liveTask r
  | .fabric => ∃ older newer, s.cluster.tasks = older ++ t :: newer ∧ t.isRpost = true ∧ t.phase = .dispatched ∧ (∀ u ∈ older, u.isRpost = false) ∧
      ∀ p ∈ s.die.unacked, p.from_.task = some t.id → p.from_.core ≠ ⟨s.core.id.die, s.core.id.clu, t.core⟩

/-- R320–R323, R342: a task that has done its work completes: those that waited only for it become READY, its engine is free, its conditions are ORed into its
core's `CR_FPSTAT`, its entry returns and its completion flag rises by one, unless it was stopped. While a fence of its core holds the flag back the task is COMPLETE
and keeps its entry; when the fence lets it go, the flag rises and the entry returns. That dependents and the engine do not wait for that fence is the model's
reading (log 69). -/
def Obligations.TaskCompletion : Prop :=
  ∀ (s : State) (t : Task), s.placed →
    let id : CoreId := ⟨s.core.id.die, s.core.id.clu, t.core⟩
    let fenced := t.flag ≠ none ∧ fenceHolds t.orders (s.coreAt id).effects (s.dieNumber id.die) t.cls = true
    let recorded := fun (u : State) => (s.coreAt id).holds t.ctx = true → ∀ i, t.flags.getLsbD i = true → (u.coreAt id).cr.fpstat.getLsbD i = true
    let rises := fun (u : State) (does : Bool) => (s.coreAt id).holds t.ctx = true → (s.coreAt id).saving = false →
      ∀ x f, s.cluster.ctxAt t.ctx = some x → t.flag = some f → let g := flagEntry (x.coreFlags t.core).fmap f
        g.1 = true → (u.coreAt id).flags = if does then (s.coreAt id).flags.set g.2.2.toNat ((s.coreAt id).flags[g.2.2.toNat]'g.2.2.isLt + 1) g.2.2.isLt
          else (s.coreAt id).flags
    (∀ e, isDone s e t →
      let free := fun (u : State) => match e with
        | .copy 0 => u.cluster.copy0 = none
        | .copy _ => u.cluster.copy1 = none
        | .shaper => u.cluster.shaper = none
        | .canvas => u.cluster.canvasTask = none ∧ u.cluster.canvas.done = s.cluster.canvas.done + 1 ∧
            (∀ h, s.cluster.canvas.holder = some h → s.cluster.canvas.leaseLen ≤ s.cluster.canvas.done + 1 → u.cluster.canvas.ending = true)
        | .vector _ => u.core.vec.run = none
        | .fabric => t.id ∉ u.cluster.fabric
      (¬ fenced ∨ t.stop = true →
        ∃ u, exec (.taskComplete e) s = .next u ∧ u.cluster.tasks = afterEnd s.cluster t.id ∧ free u ∧ recorded u ∧ rises u (!t.stop)) ∧
      (fenced → t.stop = false →
        ∃ u, exec (.taskComplete e) s = .next u ∧ u.cluster.tasks = afterComplete s.cluster t.id ∧ free u ∧ recorded u ∧ rises u false)) ∧
    (∀ older newer, s.cluster.copy0 = none → s.cluster.tasks = older ++ t :: newer → t.phase = .complete → ¬ fenced →
      (∀ k ∈ older, k.phase = .complete → s.flagHeld s.core.id.die s.core.id.clu k = true) →
      ∃ u, exec (.taskComplete (.copy 0)) s = .next u ∧ u.cluster.tasks = afterEnd s.cluster t.id ∧ rises u true)

/-- R115, R116, R119, R123: a chunk of a box copy between scratchpads, and of a fill, writes the elements from where the copy stands to the end of
its 4,096-byte chunk, each where no later one of the chunk overlaps it; no other byte changes, and the copy stands at the chunk's end. -/
def copyChunks : Prop :=
  ∀ (s : State) (n : Nat) (t : Task) (pat : Word) (src dst : Region), s.placed → n < 2 → s.cluster.copyEngine n = some t →
    (t.op = .copy 0 pat ∧ t.regions = [src, dst] ∧ src.space = .spad ∧ src.null = false ∧ src.es = dst.es ∧ t.overlapping = false ∨
      t.op = .copy 1 pat ∧ t.regions = [dst]) →
    dst.space = .spad → dst.null = false → dst.es ∈ [1, 2, 4, 8] → t.copyNext < dst.count → t.stop = false → t.hasWritten = false → t.hbmQueue = [] →
    (t.copyAtBoundary = false ∨ s.beingSaved s.core.id.die s.core.id.clu t = false) →
    let first := t.copyNext; let stop := min dst.count ((first * dst.es / 4096 + 1) * 4096 / dst.es)
    let here := fun (k : Nat) => (⟨s.core.id.die, s.core.id.clu, k⟩ : CoreId)
    let at_ := fun i => (dst.elem i).toNat
    let value := fun i => if t.regions = [dst] then pat.toNat % 2 ^ (8 * dst.es) else readLE (s.coreAt (here src.core)).spad (src.elem i).toNat dst.es
    ∃ u, exec (.copyChunk n) s = .next u ∧
      (∀ i, first ≤ i → i < stop → (∀ j, i < j → j < stop → at_ j + dst.es ≤ at_ i ∨ at_ i + dst.es ≤ at_ j) →
        readLE (u.coreAt (here dst.core)).spad (at_ i) dst.es = value i) ∧
      (∀ a, (∀ i, first ≤ i → i < stop → ¬ (at_ i ≤ a ∧ a < at_ i + dst.es)) → cget (u.coreAt (here dst.core)).spad a = cget (s.coreAt (here dst.core)).spad a) ∧
      (∀ id, id ≠ here dst.core → ∀ a, cget (u.coreAt id).spad a = cget (s.coreAt id).spad a) ∧
      (∀ a, cget u.modul.hbm a = cget s.modul.hbm a) ∧
      u.cluster.tasks = s.cluster.tasks.map (fun k => if k.id = t.id then
        { k with resume := .copy stop 0 [], hbmUnits := if stop * dst.es % 4096 = 0 then [] else k.hbmUnits } else k)

/-- R116, R119, R120, R123: a chunk of a gather or scatter within scratchpads moves element i from, or to, the table element that index i names; an index beyond
the table, or in a marked unit, ends the task at its element. -/
def indexedChunks : Prop :=
  ∀ (s : State) (n : Nat) (t : Task) (pat : Word) (r0 index r2 : Region) (gather : Bool), s.placed → n < 2 → s.cluster.copyEngine n = some t →
    t.op = .copy (if gather then 2 else 3) pat → t.regions = [r0, index, r2] → (∀ r ∈ t.regions, r.space = .spad ∧ r.null = false) → r0.es = r2.es → r2.es ∈ [1, 2, 4, 8] →
    let line := if gather then r2 else r0; let table := if gather then r0 else r2
    t.copyNext < line.count → t.stop = false → t.hasWritten = false → t.hbmQueue = [] →
    (t.copyAtBoundary = false ∨ s.beingSaved s.core.id.die s.core.id.clu t = false) →
    let first := t.copyNext; let stop := min line.count ((first * line.es / 4096 + 1) * 4096 / line.es)
    let here := fun (k : Nat) => (⟨s.core.id.die, s.core.id.clu, k⟩ : CoreId)
    let read := fun (r : Region) (a : Nat) => readLE (s.coreAt (here r.core)).spad a r.es
    let named := fun i => read index (index.elem i).toNat
    let usable := fun i => named i < (table.dims.getD 0 (1, 0)).1 ∧ poisoned (s.coreAt (here index.core)).poison (index.elem i).toNat index.es = false
    let entry := fun i => ((table.base : Int) + named i * (table.dims.getD 0 (1, 0)).2).toNat
    let at_ := fun i => if gather then (r2.elem i).toNat else entry i
    let value := fun i => if gather then read r0 (entry i) else read r0 (r0.elem i).toNat
    ((∀ i, first ≤ i → i < stop → usable i) → ∃ u, exec (.copyChunk n) s = .next u ∧
      (∀ i, first ≤ i → i < stop → (∀ j, i < j → j < stop → at_ j + r2.es ≤ at_ i ∨ at_ i + r2.es ≤ at_ j) →
        readLE (u.coreAt (here r2.core)).spad (at_ i) r2.es = value i) ∧
      (∀ a, (∀ i, first ≤ i → i < stop → ¬ (at_ i ≤ a ∧ a < at_ i + r2.es)) → cget (u.coreAt (here r2.core)).spad a = cget (s.coreAt (here r2.core)).spad a) ∧
      (∀ id, id ≠ here r2.core → ∀ a, cget (u.coreAt id).spad a = cget (s.coreAt id).spad a) ∧
      u.cluster.tasks = s.cluster.tasks.map (fun k => if k.id = t.id then
        { k with resume := .copy stop 0 [], hbmUnits := if stop * line.es % 4096 = 0 then [] else k.hbmUnits } else k)) ∧
    (¬ usable first → t.hbmOpen = [] → t.policy = 2 → ∃ u, exec (.copyChunk n) s = .next u ∧ u.cluster.tasks = afterEnd s.cluster t.id ∧
      (∀ id a, cget (u.coreAt id).spad a = cget (s.coreAt id).spad a) ∧
      ((s.coreAt (here t.core)).holds t.ctx = true → (s.coreAt (here t.core)).cr.tflog.toNat / 2 ^ 48 = 0 → ∃ cause, (u.coreAt (here t.core)).cr.tflog.toNat =
          2 ^ 48 + t.tag.toNat * 2 ^ 32 + causeCode cause ∧
        cause = if poisoned (s.coreAt (here index.core)).poison (index.elem first).toNat index.es = true then .poison else .spadRange))

/-- R197, R200, R206: `mma.i8` adds to each of its tile's 256 by 256 numbers of 32 bits the exact sum of 512 products, A read by rows of 512 and B
by rows of 256, each signed unless SPEC says unsigned, modulo 2^32; `acc.zero` makes the numbers of its whole tile zero. -/
def matrixAndZero : Prop :=
  ∀ (s : State) (t : Task), s.placed → isDone s .canvas t → t.hasWritten = false →
    (t.flag = none ∨ t.stop = true ∨ fenceHolds t.orders (s.coreAt ⟨s.core.id.die, s.core.id.clu, t.core⟩).effects (s.dieNumber s.core.id.die) t.cls = false) →
    (∀ tile a b spec, t.op = .mma 4 tile a b spec → tile < 48 → ∃ u, exec (.taskComplete .canvas) s = .next u ∧
      let byteOf := fun (unsigned : Bool) (slot i : Nat) => let x := (cget (s.cluster.slot slot).data i).toNat
        if unsigned = false ∧ 128 ≤ x then (x : Int) - 256 else (x : Int)
      ∀ m < 256, ∀ n < 256, (readLE (u.cluster.tile tile).data (1024 * m + 4 * n) 4 : Int) =
        ((readLE (s.cluster.tile tile).data (1024 * m + 4 * n) 4 : Int) +
          ((List.range 512).map (fun k => byteOf (spec.getLsbD 0) a (512 * m + k) * byteOf (spec.getLsbD 1) b (256 * k + n))).sum) % 2 ^ 32) ∧
    (∀ h, t.op = .acc 0 h → h.toNat % 64 < 48 → h.toNat / 2 ^ 12 % 4 ≠ 2 → ∃ u, exec (.taskComplete .canvas) s = .next u ∧
      ∀ m < 256, ∀ n < 256, readLE (u.cluster.tile (h.toNat % 64)).data (1024 * m + 4 * n) 4 = 0)

/-- R39–R41, R43, R44, R197, R200: a floating-point matrix command adds to each element of its part its products in ascending k, in groups of 4 (BF16, F16),
8 (E4M3, E5M2), 32 (MXFP4, with scales) or 1 (F32, F64), each group's exact sum with the element rounded once to nearest even; `mma.z64` adds two products to each
plane, a plane negated where SPEC conjugates it. -/
def floatMatrix : Prop :=
  ∀ (s : State) (t : Task), s.placed → isDone s .canvas t → t.hasWritten = false →
    (t.flag = none ∨ t.stop = true ∨ fenceHolds t.orders (s.coreAt ⟨s.core.id.die, s.core.id.clu, t.core⟩).effects (s.dieNumber s.core.id.die) t.cls = false) →
    ∀ minor tile a b spec, t.op = .mma minor tile a b spec → tile < 48 →
    let slot := s.cluster.slot; let old := (s.cluster.tile tile).data
    let group := fun (f : FloatFmt) (c : Nat) (ps : List (FVal × FVal)) =>
      (fround f .rne false (fsum .rne (fdecode f c :: ps.map (fun p => (fprod p.1 p.2).1))).1).1
    let flat := fun (f : FloatFmt) (es w i : Nat) (n row col : Nat) => fdecode f (readLE (slot n).data (es * (w * row + col) + i) es)
    let whole := fun (k g : Nat) (A B : Nat → Nat → FVal) => ∃ u, exec (.taskComplete .canvas) s = .next u ∧ ∀ m < 256, ∀ n < 256,
      readLE (u.cluster.tile tile).data (1024 * m + 4 * n) 4 = (List.range (k / g)).foldl (fun c i =>
        group .f32 c ((List.range g).map (fun j => (A m (g * i + j), B (g * i + j) n)))) (readLE old (1024 * m + 4 * n) 4)
    let eight := fun (e5 : Bool) => if e5 then FloatFmt.e5m2 else .e4m3
    let nibble := fun (n at_ : Nat) => (cget (slot n).data (at_ / 2)).toNat / 16 ^ (at_ % 2) % 16
    let scale := fun (n at_ : Nat) => (cget (slot n).scales at_).toNat
    (minor = 0 → whole 256 4 (flat .bf16 2 256 0 a) (flat .bf16 2 256 0 b)) ∧
    (minor = 1 → whole 256 4 (flat .f16 2 256 0 a) (flat .f16 2 256 0 b)) ∧
    (minor = 2 → whole 512 8 (flat .e4m3 1 512 0 a) (flat (eight (spec.getLsbD 0)) 1 256 0 b)) ∧
    (minor = 3 → whole 512 8 (flat .e5m2 1 512 0 a) (flat (eight (!spec.getLsbD 0)) 1 256 0 b)) ∧
    (minor = 5 → whole 1024 32 (fun m k => mxValue (nibble a (1024 * m + k)) (scale a (32 * m + k / 32)))
      (fun k n => mxValue (nibble b (256 * k + n)) (scale b (256 * (k / 32) + n)))) ∧
    (minor = 6 → whole 128 1 (flat .f32 4 128 0 a) (flat .f32 4 256 0 b)) ∧
    (minor = 7 → let h := if spec.getLsbD 2 then 0x20000 else 0
      ∃ u, exec (.taskComplete .canvas) s = .next u ∧ (∀ m < 128, ∀ n < 128,
        readLE (u.cluster.tile tile).data (h + 1024 * m + 8 * n) 8 = (List.range 128).foldl (fun c k =>
          group .f64 c [(flat .f64 8 128 0 a m k, flat .f64 8 128 0 b k n)]) (readLE old (h + 1024 * m + 8 * n) 8)) ∧
        ∀ x < 0x20000, cget (u.cluster.tile tile).data (0x20000 - h + x) = cget old (0x20000 - h + x)) ∧
    (minor = 8 → let conj := fun (c : Bool) (v : FVal) => if c then v.neg else v
      let ar := flat .f64 8 128 0 a; let ai := fun m k => conj (spec.getLsbD 0) (flat .f64 8 128 0 (a + 1) m k)
      let br := flat .f64 8 128 0 b; let bi := fun k n => conj (spec.getLsbD 1) (flat .f64 8 128 0 (b + 1) k n)
      let plane := fun (p q p' q' : Nat → Nat → FVal) (m n c0 : Nat) =>
        (List.range 128).foldl (fun c k => group .f64 (group .f64 c [(p m k, q k n)]) [(p' m k, q' k n)]) c0
      ∃ u, exec (.taskComplete .canvas) s = .next u ∧ ∀ m < 128, ∀ n < 128, let e := 1024 * m + 8 * n
        readLE (u.cluster.tile tile).data e 8 = plane ar br (fun m k => (ai m k).neg) bi m n (readLE old e 8) ∧
        readLE (u.cluster.tile tile).data (0x20000 + e) 8 = plane ar bi ai br m n (readLE old (0x20000 + e) 8))

/-- What a shaper or a canvas command of the task t reads at row i and column j of a region. -/
def elementCode (s : State) (t : Task) (r : Region) (i j : Nat) : Nat :=
  (s.memRead s.core.id.die s.core.id.clu t r.space r.core (r.elem (i * extent r 0 + j)).toNat r.es).1

/-- R131–R134: `sh.load` fills its slot with +0 outside the region's extents and inside them with the element, conjugated where CJ asks, converted with one
rounding, 8-bit integers as they are, MXFP4 by blocks of 32 or copied with its scales; the present mark and the checksum vector are as CSM asks, and other slots as before. -/
def shaperLoads : Prop :=
  ∀ (s : State) (t : Task) (h : Word), s.placed → isDone s .shaper t → t.op = .shape false h → shSlot h < 32 →
    (t.flag = none ∨ t.stop = true ∨ fenceHolds t.orders (s.coreAt ⟨s.core.id.die, s.core.id.clu, t.core⟩).effects (s.dieNumber s.core.id.die) t.cls = false) →
    let df := shDf h; let sf := shSf h; let nr := (slotShape df (shTall h)).1; let nc := (slotShape df (shTall h)).2
    let r0 := t.copyRegion 0; let r1 := t.copyRegion 1
    let at_ := fun (r : Region) (i j : Nat) => if r.null = false ∧ i < extent r 1 ∧ j < extent r 0 then elementCode s t r i j else 0
    let source := fun (r : Region) (row col : Nat) => if shTr h then at_ r col row else at_ r row col
    let signed := fun (f : FloatFmt) (x : Nat) => if shCj h then x ^^^ f.signBit else x
    let inside := fun (i j : Nat) => r0.null = false ∧ i < extent r0 1 ∧ j < 2 * extent r0 0
    let nib := fun (i j : Nat) => if inside i j then at_ r0 i (j / 2) / 16 ^ (j % 2) % 16 else 0
    let mxAt := fun (i j : Nat) => if inside i j then mxValue (signed .e2m1 (nib i j)) (at_ r1 i (j / 32)) else fdecode .e2m1 (signed .e2m1 0)
    let value := fun (row col : Nat) => if sf = 6 then (if shTr h then mxAt col row else mxAt row col) else fdecode (fmtOf sf) (signed (fmtOf sf) (source r0 row col))
    let member := fun (k e : Nat) => if shTall h then (k / 256 * 32 + e, k % 256) else (k / 32, k % 32 * 32 + e)
    ∃ u, exec (.taskComplete .shaper) s = .next u ∧
      let v := u.cluster.slot (shSlot h)
      (∀ n, n ≠ shSlot h → ¬ (df = 7 ∧ n = shSlot2 h) → u.cluster.slot n = s.cluster.slot n) ∧
      (v.present = true ↔ shCsm h ≠ 0) ∧
      (df ∈ [0, 1, 2, 3, 4, 5] → sf ∈ [0, 1, 2, 3, 4, 5, 6] → ∀ row < nr, ∀ col < nc,
        readLE v.data (shBytes df * (row * nc + col)) (shBytes df) = (fround (fmtOf df) (roundingOf 7 (BitVec.ofNat 3 (shRm h)) 0) (shSat h) (value row col)).1) ∧
      (df = 6 → sf ∈ [0, 1, 2, 3, 4, 5, 6] → ∀ k < 8192, ∀ e < 32, let x := (member k e).1 * nc + (member k e).2
        let q := mxQuant ((List.range 32).map (fun e => value (member k e).1 (member k e).2))
        let i := if shTr h then (member k e).2 else (member k e).1; let j := if shTr h then (member k e).1 else (member k e).2
        (cget v.data (x / 2)).toNat / 16 ^ (x % 2) % 16 = (if sf = 6 then (if inside i j then signed .e2m1 (nib i j) else 0) else q.2.1.getD e 0) ∧
        (sf ≠ 6 → (cget v.scales k).toNat = q.1 % 256) ∧
        (sf = 6 → e = 0 → (cget v.scales k).toNat = (if inside i j then at_ r1 i (j / 32) else 0x7F) % 256)) ∧
      (df ∈ [14, 15] → ∀ row < nr, ∀ col < nc, (cget v.data (row * nc + col)).toNat = source r0 row col % 256) ∧
      (df = 7 → shSlot2 h ≠ shSlot h → ∀ row < 128, ∀ col < 128, readLE v.data (8 * (row * 128 + col)) 8 = source r0 row col % 2 ^ 64 ∧
        readLE (u.cluster.slot (shSlot2 h)).data (8 * (row * 128 + col)) 8 = (if shCj h then source r1 row col ^^^ 2 ^ 63 else source r1 row col) % 2 ^ 64) ∧
      (df ≠ 7 → shCsm h ≠ 0 → ∀ e < 1024, let along := if shCsm h = 1 then nr else nc; let entries := if shCsm h = 1 then nc else nr
        cget v.cs e = if e < entries then BitVec.ofNat 64 (fround .f64 .rne false (fsum .rne ((List.range along).map (fun x =>
          if shCsm h = 1 then slotVal v df (shTall h) (df == 15) x e else slotVal v df (shTall h) (df == 15) e x))).1).1 else 0)

/-- R135: `sh.unload` writes the bits of the slot's elements, stated where no other written element overlaps; the slots stay. -/
def shaperUnloads : Prop :=
  ∀ (s : State) (t : Task) (h : Word), s.placed → isDone s .shaper t → t.op = .shape true h →
    (t.flag = none ∨ t.stop = true ∨ fenceHolds t.orders (s.coreAt ⟨s.core.id.die, s.core.id.clu, t.core⟩).effects (s.dieNumber s.core.id.die) t.cls = false) →
    let df := shDf h; let nc := (slotShape df (shTall h)).2; let slot := s.cluster.slot
    let turned := fun (f : Nat → Nat → Nat) (i j : Nat) => if shTr h then f j i else f i j
    let bitsOf := fun (n row col : Nat) => readLE (slot n).data (shBytes df * (row * nc + col)) (shBytes df)
    let nibble := fun (row col : Nat) => (cget (slot (shSlot h)).data ((row * nc + col) / 2)).toNat / 16 ^ (col % 2) % 16
    let scale := fun (row col : Nat) => (cget (slot (shSlot h)).scales (if shTall h then row / 32 * 256 + col else row * 32 + col / 32)).toNat
    let planes : List (Region × (Nat → Nat → Nat)) :=
      if df = 6 then [(t.copyRegion 0, fun i j => turned nibble i (2 * j) + 16 * turned nibble i (2 * j + 1)), (t.copyRegion 1, fun i j => turned scale i (32 * j))]
      else if df = 7 then [(t.copyRegion 0, turned (bitsOf (shSlot h))), (t.copyRegion 1, turned (bitsOf (shSlot2 h)))]
      else [(t.copyRegion 0, turned (bitsOf (shSlot h)))]
    let written := planes.filter (fun p => p.1.null = false)
    (∀ p ∈ written, p.1.space = .spad ∧ p.1.es ∈ [1, 2, 4, 8]) →
    let place := fun (n i j : Nat) => let r := (written.getD n (t.copyRegion 0, fun _ _ => 0)).1
      ((⟨s.core.id.die, s.core.id.clu, r.core⟩ : CoreId), (r.elem (i * extent r 0 + j)).toNat, r.es)
    let inside := fun (n i j : Nat) => n < written.length ∧ let r := (written.getD n (t.copyRegion 0, fun _ _ => 0)).1; i < extent r 1 ∧ j < extent r 0
    ∃ u, exec (.taskComplete .shaper) s = .next u ∧ (∀ n, u.cluster.slot n = slot n) ∧
      (∀ n i j, inside n i j → (∀ n' i' j', inside n' i' j' → (n', i', j') ≠ (n, i, j) → (place n' i' j').1 = (place n i j).1 →
          (place n' i' j').2.1 + (place n' i' j').2.2 ≤ (place n i j).2.1 ∨ (place n i j).2.1 + (place n i j).2.2 ≤ (place n' i' j').2.1) →
        readLE (u.coreAt (place n i j).1).spad (place n i j).2.1 (place n i j).2.2 =
          (written.getD n (t.copyRegion 0, fun _ _ => 0)).2 i j % 256 ^ (place n i j).2.2) ∧
      (∀ id a, (∀ n i j, inside n i j → (place n i j).1 = id → ¬ ((place n i j).2.1 ≤ a ∧ a < (place n i j).2.1 + (place n i j).2.2)) →
        cget (u.coreAt id).spad a = cget (s.coreAt id).spad a)

/-- R207–R209: `acc.load` fills its part, bits kept or widened, clears its marks, makes RC 1 and the valid bits CK; `acc.drain` writes the elements, bits kept or
converted, and leaves the tile; `acc.chk` of an I32 tile compares column sums, then row sums, with their checksums modulo 2^32. -/
def accumulatorTasks : Prop :=
  ∀ (s : State) (t : Task) (h : Word) (op : Nat), s.placed → t.op = .acc op h → s.cluster.canvasTask.bind s.cluster.task? = some t → t.hbmIdle = true →
    t.hasWritten = false → s.hbmHeld s.core.id.die s.core.id.clu t = false → s.farMissing s.core.id.die t = [] → acTile h < 48 → acKind h ≠ 3 → acHs h ≠ 3 →
    (acKind h ≠ 2 → acHs h = 0) → acMf h ≠ 7 →
    (t.flag = none ∨ t.stop = true ∨ fenceHolds t.orders (s.coreAt ⟨s.core.id.die, s.core.id.clu, t.core⟩).effects (s.dieNumber s.core.id.die) t.cls = false) →
    let kind := acKind h; let mf := acMf h; let w := if kind = 2 then 128 else 256; let es := if kind = 2 then 8 else 4
    let own : FloatFmt := if kind = 2 then .f64 else .f32
    let same := mf = if kind = 0 then 1 else if kind = 1 then 10 else 0
    let named := fun (p : Nat) => if kind = 2 then p < 2 ∧ (acHs h = 0 ∨ acHs h = p + 1) else p = 0
    let region := fun (p : Nat) => t.copyRegion (if acHs h = 0 then p else 0)
    let tile := s.cluster.tile (acTile h)
    let code := fun (k : AccTile) (p m n : Nat) => readLE k.data (0x20000 * p + 1024 * m + es * n) es
    let finish := fun (u : State) => ∃ u', exec (.taskComplete .canvas) s = .next u' ∧ u'.cluster.tasks = afterEnd s.cluster t.id ∧ u'.cluster.tile (acTile h) = u.cluster.tile (acTile h)
    (op = 1 → (∀ p, named p → (region p).null = false) →
      (∀ p, named p → let r := region p; ∀ n < r.count, (s.memRead s.core.id.die s.core.id.clu t r.space r.core (r.elem n).toNat r.es).2 = false) →
      ∃ u, exec (.taskComplete .canvas) s = .next u ∧ u.cluster.tasks = afterEnd s.cluster t.id ∧ let k := u.cluster.tile (acTile h)
        (∀ p, named p → (k.chk p).kind = kind ∧ (k.chk p).cvr = acCk h ∧ (k.chk p).cvc = acCk h ∧ (k.chk p).rc = 1 ∧
          (∀ x < w * w * es / 64, cget k.poison (0x800 * p + x) = 0) ∧
          ∀ m < w, ∀ n < w, let x := elementCode s t (region p) m n
            code k p m n = (if same then x else if kind = 1 then (toSigned (8 * acBytes mf) x % 2 ^ 32).toNat
              else (fround own .rne false (fdecode (fmtOf mf) x)).1) % 256 ^ es) ∧
        (kind = 2 → ∀ p < 2, ¬ named p → ∀ m < w, ∀ n < w, code k p m n = code tile p m n)) ∧
    (op = 2 → acCk h = false → (∀ p, named p → (region p).null = false ∧ (region p).space = .spad ∧ (region p).es ∈ [1, 2, 4, 8]) →
      (∀ x < 4096, cget tile.poison x = 0) →
      ∃ u, exec (.taskComplete .canvas) s = .next u ∧ u.cluster.tasks = afterEnd s.cluster t.id ∧ u.cluster.tile (acTile h) = tile ∧
        let place := fun (p m n : Nat) => ((⟨s.core.id.die, s.core.id.clu, (region p).core⟩ : CoreId), ((region p).elem (m * w + n)).toNat, (region p).es)
        let inside := fun (p m n : Nat) => named p ∧ m < w ∧ n < w
        (∀ p m n, inside p m n → (∀ p' m' n', inside p' m' n' → (p', m', n') ≠ (p, m, n) → (place p' m' n').1 = (place p m n).1 →
            (place p' m' n').2.1 + (place p' m' n').2.2 ≤ (place p m n).2.1 ∨ (place p m n).2.1 + (place p m n).2.2 ≤ (place p' m' n').2.1) →
          let x := code tile p m n
          readLE (u.coreAt (place p m n).1).spad (place p m n).2.1 (place p m n).2.2 =
            (if same then x else if kind = 1 then (let b := 8 * acBytes mf; let v := toSigned 32 x
                if acSat h then (max (-(2 ^ (b - 1))) (min v (2 ^ (b - 1) - 1)) % 2 ^ b).toNat else x % 2 ^ b)
              else (fround (fmtOf mf) (roundingOf 7 (BitVec.ofNat 3 (acRm h)) 0) (acSat h) (fdecode own x)).1) % 256 ^ (place p m n).2.2) ∧
        (∀ id a, (∀ p m n, inside p m n → (place p m n).1 = id → ¬ ((place p m n).2.1 ≤ a ∧ a < (place p m n).2.1 + (place p m n).2.2)) →
          cget (u.coreAt id).spad a = cget (s.coreAt id).spad a)) ∧
    (op = 3 → kind = 1 → tile.chk0.kind = 1 →
      let colSum := fun n => ((List.range 256).map (fun m => toSigned 32 (code tile 0 m n))).sum
      let rowSum := fun m => ((List.range 256).map (fun n => toSigned 32 (code tile 0 m n))).sum
      let colBad := fun n => tile.chk0.cvr = true ∧ colSum n % 2 ^ 32 ≠ ((cget tile.chk0.cr n).toNat : Int) % 2 ^ 32
      let rowBad := fun m => tile.chk0.cvc = true ∧ rowSum m % 2 ^ 32 ≠ ((cget tile.chk0.cc m).toNat : Int) % 2 ^ 32
      ((∀ n < 256, ¬ colBad n) → (∀ m < 256, ¬ rowBad m) → finish s) ∧
      (∀ n < 256, colBad n → (∀ x < n, ¬ colBad x) →
        exec (.taskComplete .canvas) s = .next ((s.taskFault s.core.id.die s.core.id.clu t { cause := .accCheck, info := BitVec.ofNat 64 (acTile h + 256 * n) } true).boundary
          s.core.id.die s.core.id.clu)) ∧
      (∀ m < 256, (∀ n < 256, ¬ colBad n) → rowBad m → (∀ x < m, ¬ rowBad x) →
        exec (.taskComplete .canvas) s = .next ((s.taskFault s.core.id.die s.core.id.clu t { cause := .accCheck, info := BitVec.ofNat 64 (acTile h + 128 + 256 * m) } true).boundary
          s.core.id.die s.core.id.clu)))

/-- R214, R218, R220–R222, R226: how a vector engine moves on. A word that issues occupies its pipe and puts its result in flight; results land in the
order of their cycles before the next word that would issue later; a kernel iteration ends with the rotation and its stage predicates. There a task that is to stop
ends, once what is in flight has landed, without its flag, and one that a hard save stops leaves the engine with the next iteration's number, the operations in
flight, and the cycles to which its pipes are busy, while what is due by the next word 0 lands. A held word issues again when it is released; a word whose pipe is not
free is ISSUE_COLLISION. That the last kernel iteration's results land also while a hard save waits is the model's choice (log 77). -/
def Obligations.VectorEngineSteps : Prop :=
  (∀ (r : VecRun) (t occ lat : Nat) (p : Pipe) (dest : Option FlightDest) (fl : BitVec 7) (ops : FlightOps), let u := r.issued t p occ lat dest fl ops
    u.clock = t ∧ u.next = r.next + 1 ∧ u.iter = r.iter ∧ u.body = r.body ∧ u.held = false ∧ u.task = { r.task with flags := r.task.flags ||| fl } ∧
    (∀ q, u.free q = if q = p ∧ p ≠ .none then t + occ else r.free q) ∧
    (dest = none → u.flights = r.flights) ∧
    (∀ d, dest = some d → ∃ f, u.flights = r.flights ++ [f] ∧ f.dest = d ∧ f.landAt = t + lat ∧ f.j = r.next ∧ f.iter = r.iter ∧
      f.lat = lat ∧ f.ops = ops ∧ f.word = r.body.getD r.next 0)) ∧
  (∀ (v : VecEngine) (f g : Flight), v.landAll [f, g] = if f.landAt ≤ g.landAt then (v.land f.dest).land g.dest else (v.land g.dest).land f.dest) ∧
  (∀ (s : State) (r : VecRun), s.core.vec.run = some r →
    (r.flights ≠ [] → (r.next < r.body.length ∧ (∃ f ∈ r.flights, f.landAt ≤ r.issueAt r.next) ∨ r.body.length ≤ r.next ∧ r.task.kernels ≤ r.iter + 1) →
      ∃ c, (∃ f ∈ r.flights, f.landAt = c) ∧ (∀ f ∈ r.flights, c ≤ f.landAt) ∧
        let landing := r.flights.filter (fun f => f.landAt = c)
        exec .vectorResultLand s = .next { s with core := { s.core with vec := { s.core.vec.landAll landing with
          run := some { r with flights := r.flights.filter (fun f => f.landAt ≠ c) } } } }) ∧
    (r.body.length ≤ r.next → r.iter + 1 < r.task.kernels → (s.liveTask r).stop = false → s.vecSaving (s.liveTask r) = false →
      ∃ v, exec .kernelIterationBoundary s = .next { s with core := { s.core with vec := v } } ∧ v.run = some { r with iter := r.iter + 1, next := 0 } ∧
        v.vrb = s.core.vec.vrb - 1 ∧ v.v = s.core.vec.v ∧ v.x = s.core.vec.x ∧
        ∀ j : Fin 16, v.k[j] = if j.val < 8 then s.core.vec.k[j]
          else if j.val - 8 ≤ r.iter + 1 ∧ r.iter + 1 < r.task.nest + (j.val - 8) then BitVec.allOnes 1024 else 0) ∧
    (s.placed → r.body.length ≤ r.next → r.iter + 1 < r.task.kernels → (s.liveTask r).stop = true →
      ∃ u, exec .kernelIterationBoundary s = .next u ∧ u.core.vec = { s.core.vec.landAll r.flights with run := none } ∧ u.core.flags = s.core.flags ∧
        u.cluster.tasks = afterEnd s.cluster r.task.id) ∧
    (s.placed → r.body.length ≤ r.next → r.iter + 1 < r.task.kernels → (s.liveTask r).stop = false → s.vecSaving (s.liveTask r) = true →
      let w := r.issueAt 0; let due := r.flights.filter (fun f => f.landAt ≤ w); let rest := r.flights.filter (fun f => w < f.landAt); let landed := s.core.vec.landAll due
      ∃ u, exec .kernelIterationBoundary s = .next u ∧ u.core.vec.run = none ∧ u.core.vec.vrb = s.core.vec.vrb - 1 ∧ u.core.vec.v = landed.v ∧ u.core.vec.x = landed.x ∧
        (∀ j : Fin 16, j.val < 8 → u.core.vec.k[j] = landed.k[j]) ∧ u.core.flags = s.core.flags ∧
        u.cluster.tasks = s.cluster.tasks.map (fun k => if k.id = r.task.id then
          { k with flags := r.task.flags, resume := .iter (r.iter + 1) (rest.map (fun f => { f with landAt := f.landAt - w })) (r.arith - w) (r.perm - w) (r.ldst - w) } else k)) ∧
    (r.held = true → exec .holdRelease s = .next { s with core := { s.core with vec := { s.core.vec with run := some { r with held := false } } } }) ∧
    (∀ o : OpV, r.issueAt r.next < r.free .arith → ∀ i ∈ [Instr.vadd o, .vsub o, .vmul o, .vmulh o, .vmin o, .vmax o, .vabs o, .vneg o, .vadds o, .vsubs o,
        .vand o, .vor o, .vxor o, .vnot o, .vshl o, .vshr o, .vsra o, .vmov o, .vsel o, .vfadd o, .vfsub o, .vfmul o, .vfma o, .vfms o, .vfnma o, .vfmin o, .vfmax o,
        .vfabs o, .vfneg o, .vdiv o, .vsqrt o, .vrcp o, .vrsq o, .vexp2 o, .vlog2 o, .vcmp o, .vfcmp o, .vclass o, .vcvt o, .vqmx o, .vdqmx o, .vrand o,
        .vsplat o, .vsplatPop o, .vsplatPush o],
      exec i s = .next (s.vecFault r { cause := .issueCollision })) ∧
    (∀ o : OpV, r.issueAt r.next < r.free .perm → ∀ i ∈ [Instr.kand o, .kor o, .kxor o, .knot o, .kmov o, .kpop o, .kfirst o, .vrotR o, .vrotC o, .vbcR o, .vbcC o,
        .vredR o, .vredC o, .vhad32 o],
      exec i s = .next (s.vecFault r { cause := .issueCollision })) ∧
    (∀ o : OpSksv, r.issueAt r.next < r.free .arith → exec (.sksv o) s = .next (s.vecFault r { cause := .issueCollision })) ∧
    (∀ o : OpVM, r.issueAt r.next < r.free .ldst → ∀ i ∈ [Instr.vld o, .vst o, .vgather o, .vscatter o],
      exec i s = .next (s.vecFault r { cause := .issueCollision }))) ∧
  (∀ (v : VecEngine) (n : Nat) (lanes : List (Nat × BitVec 32)) (mask value : BitVec 1024) (w : Word),
    (∀ i : Fin 64, (v.land (.tile n lanes)).v[i] = if i.val = n then csetList v.v[i] lanes else v.v[i]) ∧
    (∀ i : Fin 16, ∀ b, ((v.land (.pred n mask value)).k[i]).getLsbD b =
      if i.val = n ∧ mask.getLsbD b = true then value.getLsbD b else (v.k[i]).getLsbD b) ∧
    (∀ i : Fin 16, (v.land (.xreg n w)).x[i] = if i.val = n then w else v.x[i]))

/-- R210, R211, R402, R404: the canvas goes to the requester whose best ready command has the highest priority, and among equals to the next one after the last
holder; a lease ends at its length, after 32,768 cycles or when nothing is ready; a canvas idle for 1,024 cycles is cold; a cold canvas with a
command takes a token at its place and gives it back after 2,048 cycles; free tokens move on every 16 cycles. That a cold canvas without a command lets a token
pass is the model's choice (log 76). -/
def Obligations.CanvasAndTokens : Prop :=
  ∀ (s : State), s.placed →
    let d := s.core.id.die; let cl := s.core.id.clu; let k := s.cluster; let c := k.canvas
    let canvas := fun (v : Canvas) => { s with cluster := { k with canvas := v } }
    (c.holder = none → k.canvasTask = none → c.last < 5 → (∃ r < 5, s.canvasReady d cl r ≠ []) →
      ∃ w, ∃ h : w < 5, exec .canvasLeaseGrant s = .next (canvas { c with holder := some w, done := 0, leaseStart := none, ending := false, leaseLen := c.lens[w] }) ∧
        ∃ t ∈ s.canvasReady d cl w, ∀ r < 5, ∀ u ∈ s.canvasReady d cl r, u.pri.toNat ≤ t.pri.toNat ∧
          (u.pri = t.pri → (w + 4 - c.last) % 5 ≤ (r + 4 - c.last) % 5)) ∧
    (∀ h, c.holder = some h → k.canvasTask = none →
      (c.ending = true ∨ c.leaseLen ≤ c.done ∨ (∃ a, c.leaseStart = some a ∧ a + 32768 ≤ s.sched.now) ∨ s.canvasReady d cl h = []) →
      exec .leaseEnd s = .next (canvas { c with holder := none, last := h, done := 0, leaseStart := none, ending := false, ends := c.ends + 1 })) ∧
    (c.cold = false → k.canvasTask = none → c.lastBusy + 1024 ≤ s.sched.now → exec .canvasCold s = .next (canvas { c with cold := true })) ∧
    (let place := s.ringPlace d cl
     (∀ h, c.holder = some h → c.ending = false → k.canvasTask = none → c.done < c.leaseLen → (∀ a, c.leaseStart = some a → s.sched.now < a + 32768) →
        s.canvasReady d cl h ≠ [] → (c.cold = true ∨ c.lastBusy + 1024 ≤ s.sched.now) → c.gust = false → place ∈ s.die.gustFree →
        exec .gustTokenTake s = .next { canvas { c with cold := false, gust := true, gustAt := s.sched.now, lastBusy := s.sched.now } with
          die := { s.die with gustFree := s.die.gustFree.erase place, gustHeld := s.die.gustHeld + 1 } }) ∧
     (c.gust = true → c.gustAt + 2048 ≤ s.sched.now → s.die.thermal = 0 →
        let back := s.die.gustFree.length + (s.die.gustHeld - 1) < s.die.gustG
        exec .rampWindowEnd s = .next { canvas { c with gust := false } with
          die := { s.die with gustHeld := s.die.gustHeld - 1, gustFree := if back then s.die.gustFree ++ [place] else s.die.gustFree } })) ∧
    (s.die.gustMovedAt + 16 ≤ s.sched.now → (∀ c' < s.ncl d, s.wantsToken d c' = true → s.ringPlace d c' ∉ s.die.gustFree) →
      exec .gustTokenAdvance s = .next { s with die := { s.die with gustFree := s.die.gustFree.map (fun p => (p + 1) % 12), gustMovedAt := s.sched.now } })

/-- R115, R116, R119, R120, R123, R131–R135, R197, R200, R206, R209: the statements above on this, together. -/
def Obligations.CopyAndMatrixTasks : Prop := copyChunks ∧ indexedChunks ∧ matrixAndZero ∧ floatMatrix ∧ shaperLoads ∧ shaperUnloads ∧ accumulatorTasks

/-! ## The fabric (R274–R302) -/

/-- Die d delivers packet p in the event i: the outcome holds, the pair's next number is p's successor, and the answer is on its way (R278, R285). -/
def delivers (s : State) (d : Nat) (p : Packet) (i : Instr) (outcome : State → RespKind → Prop) : Prop :=
  ∃ t r, exec i s = .next t ∧ outcome t r ∧ (t.dieAt d).expected p.src p.cls = p.seq + 1 ∧ p ∉ (t.dieAt d).resequencer ∧
    ∃ b ∈ (t.dieAt d).bufs, b.port = .loc ∧ b.resp = true ∧ b.flows.getLast? = some (.response { uid := p.uid, src := p.dst, dst := p.src, kind := r })
/-- The byte at a context's own address on a core: in its spilled image, else at its placement (R300, R383). -/
def ownByte (s : State) (ctx : Nat) (id : CoreId) (a : Nat) : Byte :=
  match s.spilled ctx id with
  | some im => cget im.1 a
  | none => cget (s.coreAt id).spad (a + s.placement ctx id)
/-- The flags of a core after v is added to virtual flag f of a context there (R182, R387, R423): only a valid entry, and a resident one or one of the context
that holds the core with no save of it issued, reaches a physical flag. -/
def flagsAfter (s : State) (x : CtxCluster) (id : CoreId) (f : BitVec 6) (v : BitVec 32) : Vector (BitVec 32) 64 :=
  let e := flagEntry (x.coreFlags id.core).fmap f; let old := (s.coreAt id).flags
  if e.1 = true ∧ (e.2.1 = true ∨ (s.coreAt id).holds x.ctx = true ∧ (s.coreAt id).saving = false) then old.set e.2.2.toNat (old[e.2.2.toNat]'e.2.2.isLt + v) e.2.2.isLt else old

/-- R74, R171, R178, R278, R285, R287, R292, R300, R301: a request packet whose turn it is is delivered: discarded after a CANCEL of its job and source die, denied with no effect where no context or no grant entry lets
it in, else a WRITE writes its bytes and raises its entry's flag, an ATOMIC and an HBM request answer the old value and leave the new one, a FLAG adds, a MSG
enters the inbox or, while the core does not take it or an earlier one of its queue waits, is answered with RETRY. HBM requests of tasks read a unit and write
bytes of one. RETRY behind an earlier message of the queue is the model's reading of R287 (log 89), and so are the packets of single units of HBM (log 11). -/
def Obligations.PacketDelivery : Prop :=
  ∀ (s : State) (p : Packet) (d : Nat), s.dieIndex p.dst = some d → s.deliverable d p = true →
    let id : CoreId := ⟨d, p.clu, p.core⟩
    let nothing := fun (t : State) => SameBytes s t ∧ ∀ id, (t.coreAt id).flags = (s.coreAt id).flags ∧ (t.coreAt id).inbox = (s.coreAt id).inbox
    let denied := delivers s d p (deliveryOf p) (fun t r => r = .deny .winDenied ∧ nothing t)
    let told := isHbm p.body = false ∧ p.body ≠ .cancel
    (s.packetCtx d p = none → told → denied) ∧
    (isHbm p.body = true → s.cancelledAt d p = true → delivers s d p (.hbm p) (fun t _ => nothing t)) ∧
    (∀ x, s.packetCtx d p = some x → told → p.src ∈ x.cancelSrc → delivers s d p (deliveryOf p) (fun t _ => nothing t)) ∧
    (∀ x, s.packetCtx d p = some x → s.ctxAt d p.clu x.ctx = some x → p.src ∉ x.cancelSrc →
      (grantEntry x (s.ctxGrant x.ctx) p = none → told → denied) ∧
      (∀ w0, grantEntry x (s.ctxGrant x.ctx) p = some w0 →
        (∀ a ws rais bad, p.body = .write a ws rais bad → (ws.map Prod.fst).Nodup →
          delivers s d p (.write p) (fun t r => r = .ack ∧ (∀ q ∈ ws, ownByte t x.ctx id q.1 = q.2) ∧
            (∀ b, b ∉ ws.map Prod.fst → ownByte t x.ctx id b = ownByte s x.ctx id b) ∧ (∀ i, i ≠ id → (t.coreAt i).spad = (s.coreAt i).spad) ∧
            (t.coreAt id).flags = if rais = true ∧ w0.getLsbD 57 = true then flagsAfter s x id (BitVec.ofNat 6 (w0.toNat / 2 ^ 51)) 1 else (s.coreAt id).flags)) ∧
        (∀ a q, p.body = .atomic a q → let n := atomWidth q; let old := s.remoteRead x.ctx id a n
          (old.2 = true → delivers s d p (.atomic p) (fun t r => r = .deny .poison ∧ nothing t)) ∧
          (old.2 = false → delivers s d p (.atomic p) (fun t r => r = .reply (BitVec.ofNat 128 old.1) ∧
            (∀ i < n, ownByte t x.ctx id (a + i) = BitVec.ofNat 8 (atomResult q old.1 / 256 ^ i)) ∧
            (∀ b, b < a ∨ a + n ≤ b → ownByte t x.ctx id b = ownByte s x.ctx id b) ∧ ∀ i, i ≠ id → (t.coreAt i).spad = (s.coreAt i).spad))) ∧
        (∀ f v, p.body = .flag f v → delivers s d p (.flag p) (fun t r => r = .ack ∧ SameBytes s t ∧ (t.coreAt id).flags = flagsAfter s x id f v)) ∧
        (∀ m, p.body = .msg m → let c := s.coreAt id; let room := c.holds x.ctx = true ∧ c.saving = false ∧ c.inbox.length < 16 ∧ s.heldInOrder p = false
          delivers s d p (.msg p) (fun t r => SameBytes s t ∧ r = (if room then .ack else .retry) ∧
            (t.coreAt id).inbox = if room then c.inbox ++ [⟨m, senderWord p⟩] else c.inbox)))) ∧
    (∀ a slot q, p.body = .hbm a slot q → s.cancelledAt d p = false → let n := atomWidth q
      let key := (slot.map (fun k => (cget (s.dieAt d).keys k).toNat)).getD 0
      let old := readLE ((List.range n).map (fun i => (a + i, hbmByte s.modul key (a + i)))) a n
      (cget s.modul.hbmPoison (a / 64) ≠ 0 → delivers s d p (.hbm p) (fun t r => r = .deny .poison ∧ nothing t)) ∧
      (cget s.modul.hbmPoison (a / 64) = 0 → 0 < n → (a + n - 1) / 64 = a / 64 → delivers s d p (.hbm p) (fun t r => r = .reply (BitVec.ofNat 128 old) ∧
        (∀ i < n, hbmByte t.modul key (a + i) = BitVec.ofNat 8 (atomResult q old / 256 ^ i)) ∧
        (∀ b, b < a ∨ a + n ≤ b → hbmByte t.modul key b = hbmByte s.modul key b) ∧ ∀ id, (t.coreAt id).spad = (s.coreAt id).spad))) ∧
    (∀ unit slot, s.cancelledAt d p = false → let key := (slot.map (fun k => (cget (s.dieAt d).keys k).toNat)).getD 0
      (p.body = .hbmRead unit slot → delivers s d p (.hbm p) (fun t r => nothing t ∧ ∃ v bad, r = .data v bad ∧ (bad = true ↔ cget s.modul.hbmPoison unit ≠ 0) ∧
        ∀ i < 64, BitVec.ofNat 8 (v.toNat / 256 ^ i) = hbmByte s.modul key (64 * unit + i))) ∧
      (∀ ws bad, p.body = .hbmWrite unit slot ws bad → (ws.map Prod.fst).Nodup → (∀ q ∈ ws, q.1 / 64 = unit) →
        delivers s d p (.hbm p) (fun t r => r = .ack ∧ (∀ q ∈ ws, hbmByte t.modul key q.1 = q.2) ∧
          (∀ b, b ∉ ws.map Prod.fst → hbmByte t.modul key b = hbmByte s.modul key b) ∧ ∀ id, (t.coreAt id).spad = (s.coreAt id).spad)))

/-- R108, R287, R299, R301: a POST is denied where no entry lets it in, answered with RETRY where the remote partition is full, denied with the cause of
the first check it fails, else admitted as a remote task that waits for every older pending one that conflicts, the saved ones among them; while an earlier one to that
cluster in its class waits it is answered with RETRY too; a CANCEL discards the undispatched remote tasks of its job and source die, and marks them. RETRY behind an
earlier POST (log 89), RETRY for want of region entries (log 68) and the count of what is waited for (log 81) are the model's readings. -/
def Obligations.RemotePostsAndCancels : Prop :=
  ∀ (s : State) (p : Packet) (d : Nat), s.dieIndex p.dst = some d → s.deliverable d p = true →
    let id : CoreId := ⟨d, p.clu, p.core⟩
    let s1 := s.updDie d (fun k => { k with resequencer := k.resequencer.filter (fun q => q ≠ p), expect := assocSet k.expect (pairKey p.src p.cls) (p.seq + 1) })
    (∀ r h g a, p.body = .post r h g a →
      (s.packetCtx d p = none → delivers s d p (.post p) (fun t k => k = .deny .winDenied ∧ SameBytes s t)) ∧
      (∀ x, s.packetCtx d p = some x → s.ctxAt d p.clu x.ctx = some x → p.src ∉ x.cancelSrc →
        (grantEntry x (s.ctxGrant x.ctx) p = none → delivers s d p (.post p) (fun t k => k = .deny .winDenied ∧ SameBytes s t)) ∧
        (∀ w0, grantEntry x (s.ctxGrant x.ctx) p = some w0 → s.heldInOrder p = true →
          delivers s d p (.post p) (fun t k => k = .retry ∧ (t.clusterAt d p.clu).tasks = (s.clusterAt d p.clu).tasks)) ∧
        (∀ w0, grantEntry x (s.ctxGrant x.ctx) p = some w0 → s.heldInOrder p = false → let own := s.clusterAt d p.clu
          let draft := remoteDraft s1 (s1.remotePoster id x.ctx p.src) { rec_ := r, header := h, regions := g, args := a, walkers := [] }
          (128 ≤ (own.tasks.filter (fun t => t.remote)).length → delivers s d p (.post p) (fun t k => k = .retry ∧ (t.clusterAt d p.clu).tasks = own.tasks)) ∧
          ((own.tasks.filter (fun t => t.remote)).length < 128 → (∀ f, draft = .fault f →
            delivers s d p (.post p) (fun t k => k = .deny f.cause ∧ (t.clusterAt d p.clu).tasks = own.tasks))) ∧
          (∀ q, draft = .ok q → x.cancelled = false → let n := (q.regions.filter (fun r => !r.null)).length
            (own.hasRoom true p.core n = true → delivers s d p (.post p) (fun t k => k = .ack ∧ ∃ u, (t.clusterAt d p.clu).tasks = own.tasks ++ [u] ∧
              u.remote = true ∧ u.srcDie = p.src ∧ u.core = p.core ∧ u.ctx = x.ctx ∧ u.op = q.op ∧ u.regions = q.regions ∧ u.id = own.nextTask ∧
              (∀ w, w ∈ u.waits ↔ (∃ v ∈ own.tasks, v.id = w ∧ v.pending = true ∧ v.ctx = x.ctx ∧ waitsFor q.regions v.regions = true) ∨
                ∃ v ∈ s.savedTasks d p.clu x.ctx, v.id = w ∧ waitsFor q.regions v.regions = true))) ∧
            (own.hasRoom true p.core n = false → delivers s d p (.post p) (fun t k => k = .retry ∧ (t.clusterAt d p.clu).tasks = own.tasks)))))) ∧
    (p.body = .cancel → delivers s d p (.cancel p) (fun t k => k = .ack ∧ SameBytes s t ∧
      ∀ c < s.ncl d, ∀ x, (s.clusterAt d c).ctxs.find? (fun x => x.fjob = p.fjob) = some x →
        (∃ y, (t.clusterAt d c).ctxs.find? (fun x => x.fjob = p.fjob) = some y ∧ p.src ∈ y.cancelSrc) ∧
        ∀ u ∈ (t.clusterAt d c).tasks, u.remote = true → u.ctx = x.ctx → u.srcDie = p.src → u.phase = .dispatched ∨ u.phase = .complete))

/-- What an answer does at its source (R278, R286, R288): the packet is kept no longer and its effect is over, and one count of OUT ends while its context
holds its core: of its window, or of the direct status for a FLAG or a MSG. -/
def counted (s : State) (d : Nat) (p : Packet) (t : State) : Prop :=
  let c := s.coreAt p.from_.core; let u := t.coreAt p.from_.core
  (∀ q ∈ (t.dieAt d).unacked, q.uid ≠ p.uid) ∧ (∀ e ∈ u.effects, e.uid ≠ p.uid) ∧ p.uid ∉ u.msgsOut ∧ SameBytes s t ∧
  (c.holds p.from_.ctx = true →
    (∀ i : Fin 16, u.windows[i].out = c.windows[i].out - (if p.from_.window = some i.val then 1 else 0)) ∧
    u.directOut = c.directOut - (if p.from_.window = none ∧ (isFlag p.body = true ∨ isMsg p.body = true) then 1 else 0))
/-- The DEN bits of its window and of the direct status are as before, but for what a denial sets (R293); where the context does not hold its core, in its save
(R302). -/
def denAfter (s : State) (p : Packet) (t : State) (deny : Bool) : Prop :=
  let c := s.coreAt p.from_.core; let u := t.coreAt p.from_.core
  c.holds p.from_.ctx = true →
    (∀ i : Fin 16, u.windows[i].den = (c.windows[i].den || deny && isWrite p.body && decide (p.from_.window = some i.val))) ∧
    u.directDen = (c.directDen || deny && (isFlag p.body || isMsg p.body) && decide (p.from_.window = none))
/-- The denial in a save. -/
def denSaved (s : State) (p : Packet) (t : State) : Prop :=
  let me := p.from_.core
  (s.coreAt me).holds p.from_.ctx = false → ∀ j a h, s.jobOf p.from_.ctx = some j → assoc j.saves me = some a → a.hard = some h →
    ∃ j' a' h', t.jobOf p.from_.ctx = some j' ∧ assoc j'.saves me = some a' ∧ a'.hard = some h' ∧ a'.gen = a.gen ∧ h'.tasks = h.tasks ∧
      (∀ i : Fin 16, h'.windows[i].den = (h.windows[i].den || isWrite p.body && decide (p.from_.window = some i.val))) ∧
      h'.directDen = (h.directDen || (isFlag p.body || isMsg p.body) && decide (p.from_.window = none))
/-- No CANCEL and no HBM packet of a task waits at a die for room (R279). -/
def noneWaits (s : State) (d : Nat) : Prop := (s.dieAt d).cancels = [] ∧ ∀ c, ∀ t ∈ (s.clusterAt d c).tasks, t.hbmQueue = []

/-- R171, R278, R286–R288, R293, R298: answers at their source. ACK ends a count; DENY also sets DEN, makes a waiting atomic fault, or ends an `rpost` task with its
cause; REPLY completes the waiting atomic, or brings a task the unit of HBM it asked for; a CANCEL that waited for room goes out; RETRY keeps the message or post for sending again, in the order of issue; a report of a drop makes the packet go again with its number. That a task or a COPY packet
reads another die's HBM by units, each brought by a REPLY, is the model's choice (log 11). -/
def Obligations.AnswersAndResends : Prop :=
  (∀ (s : State) (r : Response) (d : Nat) (p : Packet), s.answered r = some (d, p) → noneWaits s d →
    let me := p.from_.core; let c := s.coreAt me
    (r.kind = .ack → ∃ t, exec (.ack r) s = .next t ∧ counted s d p t ∧ denAfter s p t false ∧ (t.coreAt me).regs = c.regs ∧ (t.coreAt me).pc = c.pc) ∧
    (∀ cause, r.kind = .deny cause →
      (isPosting p.body = false → (∀ a, c.await = some a → a.uid ≠ p.uid) →
        ∃ t, exec (.deny r) s = .next t ∧ counted s d p t ∧ denAfter s p t true ∧ denSaved s p t ∧ (t.coreAt me).regs = c.regs ∧ (t.coreAt me).pc = c.pc) ∧
      (∀ a, isPosting p.body = false → c.await = some a → a.uid = p.uid →
        ∃ u, counted s d p u ∧ denAfter s p u true ∧ u.core.id = me ∧ u.core.regs = c.regs ∧ u.core.pc = c.pc ∧ u.core.status = c.status ∧ u.core.await = none ∧
          exec (.deny r) s = .next ((u.takeFault { cause := cause, addr := some a.ea }).actAs s.core.id)) ∧
      (∀ k, isPosting p.body = true → s.postTask p = some k → (∀ v ∈ (s.clusterAt me.die me.clu).tasks, p.uid ∉ v.hbmOpen) →
        ∃ u, counted s d p u ∧ u.clusterAt me.die me.clu = s.clusterAt me.die me.clu ∧
          exec (.deny r) s = .next (u.taskFault me.die me.clu k { cause := cause } true))) ∧
    (∀ old a, r.kind = .reply old → c.await = some a → a.uid = p.uid →
      ∃ t, exec (.reply r) s = .next t ∧ counted s d p t ∧ denAfter s p t false ∧ (t.coreAt me).pc = c.pc + 8 ∧ (t.coreAt me).await = none ∧ (t.coreAt me).stall = none ∧
        (a.claim = false → ∀ v : Word, v.toInt = toSigned (8 * 2 ^ (a.size % 4)) old.toNat ∧ a.sx = true ∨ v.toNat = old.toNat % 2 ^ (8 * 2 ^ (a.size % 4)) ∧ a.sx = false →
          (t.coreAt me).regs = c.regsWith a.d v)) ∧
    (∀ v bad unit slot i, r.kind = .data v bad → p.body = .hbmRead unit slot → p.from_.task = some i →
      ∃ t, exec (.reply r) s = .next t ∧ SameBytes s t ∧ (∀ q ∈ (t.dieAt d).unacked, q.uid ≠ p.uid) ∧
        ∀ k, (s.clusterAt me.die me.clu).task? i = some k → ∃ k', (t.clusterAt me.die me.clu).task? i = some k' ∧
          k'.hbmUnits = k.hbmUnits ++ [(unit, (v, bad))] ∧ (∀ u, u ∈ k'.hbmOpen ↔ u ∈ k.hbmOpen ∧ u ≠ p.uid) ∧ k'.resume = k.resume ∧ k'.phase = k.phase) ∧
    (∀ v bad unit slot fn q idx, r.kind = .data v bad → p.body = .hbmRead unit slot → p.from_.task = none → p.from_.pkt = some (fn, q, idx) →
      ∃ t, exec (.reply r) s = .next t ∧ SameBytes s t ∧ (∀ x ∈ (t.dieAt d).unacked, x.uid ≠ p.uid) ∧
        ∀ k ∈ (s.queueAt fn q).pkts, k.idx = idx →
          { k with hbmOpen := k.hbmOpen.filter (fun u => u ≠ p.uid), hbmUnits := k.hbmUnits ++ [(unit, (v, bad))] } ∈ (t.queueAt fn q).pkts) ∧
    (r.kind = .retry → (isPosting p.body = true → (s.postTask p).isSome = true) →
      ∃ t, exec (.retry r) s = .next t ∧ (p.uid, true) ∈ (t.dieAt d).retried ∧ p ∈ (t.dieAt d).unacked ∧ SameBytes s t ∧
        (c.holds p.from_.ctx = true → p.from_.window = none → isMsg p.body = true → (t.coreAt me).directOut = c.directOut - 1)) ∧
    (r.kind = .dropped → ∃ t, exec (.retry r) s = .next t ∧ p.uid ∈ (t.dieAt d).dropped ∧ p ∈ (t.dieAt d).unacked ∧ t.coreAt me = c)) ∧
  (∀ (s : State) (r : Response) (d : Nat) (p q : Packet), s.answered r = some (d, p) → r.kind = .ack → (s.dieAt d).cancels = [q] → q.uid ≠ p.uid →
    (∀ c, ∀ t ∈ (s.clusterAt d c).tasks, t.hbmQueue = []) → (s.dieAt d).pairRoom q.dst q.cls = true →
    ∃ t seq, exec (.ack r) s = .next t ∧ (t.dieAt d).cancels = [] ∧ { q with seq := seq } ∈ (t.dieAt d).unacked ∧ ∀ u ∈ (t.dieAt d).unacked, u.uid ≠ p.uid) ∧
  (∀ (s : State) (uid d : Nat) (p : Packet),
    let leaves := fun (t : State) (seq : BitVec 16) => ∃ b ∈ (t.dieAt d).bufs, b.port = .loc ∧ b.resp = false ∧ b.flows.getLast? = some (.request { p with seq := seq })
    (s.keeper uid (fun k => k.dropped.contains uid) = some (d, p) →
      ∃ t, exec (.packetResend uid) s = .next t ∧ leaves t p.seq ∧ uid ∉ (t.dieAt d).dropped ∧ (t.dieAt d).seqs = (s.dieAt d).seqs ∧ SameBytes s t) ∧
    (s.keeper uid (fun k => k.retried.contains (uid, true)) = some (d, p) → (s.dieAt d).earlierRetried p = true → ∀ t, exec (.retriedPacketResend uid) s ≠ .next t) ∧
    (s.keeper uid (fun k => k.retried.contains (uid, true)) = some (d, p) → s.postStopped p = false → (s.dieAt d).earlierRetried p = false →
      s.ownCluster p.from_.core { die := p.dst, clu := p.clu, core := p.core } = false → (s.dieAt d).pairRoom p.dst p.cls = true →
      ∃ t n, exec (.retriedPacketResend uid) s = .next t ∧ n = nextSeq (s.dieAt d).seqs p.dst p.cls ∧ leaves t n ∧ nextSeq (t.dieAt d).seqs p.dst p.cls = n + 1 ∧
        (uid, true) ∉ (t.dieAt d).retried ∧ { p with seq := n } ∈ (t.dieAt d).unacked ∧ SameBytes s t))

/-- A productive direction (R280): the way by it is not longer than the other way round, and not empty. -/
def isProductive (s : State) (a b : Nat) (p : Port) : Prop :=
  let k := s.portSize p; let x := portCoord p a; let y := portCoord p b
  let fwd := (y + k - x) % k; let back := (x + k - y) % k
  p ≠ .loc ∧ if portPlus p then 0 < fwd ∧ fwd ≤ back else 0 < back ∧ back ≤ fwd
/-- A router may send on a port: productive, UP, with a free credit (R280). -/
def maySend (s : State) (d dst : Nat) (resp : Bool) (p : Port) : Prop :=
  isProductive s (s.dieNumber d) dst p ∧ ((s.dieAt d).link p).down = false ∧ 0 < s.credits (s.dieNumber d) p resp

/-- R280, R285, R286: the head of an input buffer moves by the productive link that is UP and has the most credits, ties going to X before Y before Z and + before −; at its
die a request is held for its turn, or dropped with a report when it is ahead of its turn and 1,024 such packets are held, and a response is there to act. -/
def packetRouting : Prop :=
  ∀ (s : State) (d : Nat) (p : Port) (resp : Bool) (b : InBuf) (f : Flow) (rest : List Flow), d < s.dies →
    (s.dieAt d).buf? p resp = some b → b.flows = f :: rest →
    let n := s.dieNumber d; let k := s.dieAt d
    let left := fun (t : State) => ∃ c, (t.dieAt d).buf? p resp = some c ∧ c.flows = rest ∧ c.since = s.sched.now ∧ c.tripped = false
    (∀ q, f = .request q → q.dst = n → q.seq = k.expected q.src q.cls ∨ (k.resequencer.filter (fun r => r.seq ≠ k.expected r.src r.cls)).length < 1024 →
      ∃ t, exec (.packetHop d p resp) s = .next t ∧ left t ∧ (t.dieAt d).resequencer = k.resequencer ++ [q] ∧ SameBytes s t) ∧
    (∀ q, f = .request q → q.dst = n → q.seq ≠ k.expected q.src q.cls → 1024 ≤ (k.resequencer.filter (fun r => r.seq ≠ k.expected r.src r.cls)).length →
      ∃ t, exec (.packetHop d p resp) s = .next t ∧ (t.dieAt d).resequencer = k.resequencer ∧ SameBytes s t ∧
        ∃ c ∈ (t.dieAt d).bufs, c.port = .loc ∧ c.resp = true ∧ c.flows.getLast? = some (.response { uid := q.uid, src := q.dst, dst := q.src, kind := .dropped })) ∧
    (∀ r, f = .response r → r.dst = n → ∃ t, exec (.packetHop d p resp) s = .next t ∧ left t ∧ (t.dieAt d).arrived = k.arrived ++ [r] ∧ SameBytes s t) ∧
    (flowDst f ≠ n → (∃ q, maySend s d (flowDst f) resp q) →
      ∃ t q, exec (.packetHop d p resp) s = .next t ∧ maySend s d (flowDst f) resp q ∧ SameBytes s t ∧
        (∀ o, maySend s d (flowDst f) resp o → s.credits n o resp < s.credits n q resp ∨ s.credits n o resp = s.credits n q resp ∧ portRank q ≤ portRank o) ∧
        match s.dieIndex (s.neighbour n q) with
        | some e => ∃ c ∈ (t.dieAt e).bufs, c.port = opposite q ∧ c.resp = resp ∧ c.flows.getLast? = some f
        | none => t.modul.outside = s.modul.outside ++ [f])

/-- R276, R277, R281–R284: links and recovery. Of either direction, also that out of the module, a failed lane is excluded from the switch flit on, after a remap
that is in progress, and replay goes from the first flit with a bad CRC; the third takes the link DOWN, with a report to the management core; a replay leaves
nothing but delay. A buffer whose head has stood DT cycles trips its detector; the token is passed on, or a suspect router drains the flow that has waited longest, counts it, and
keeps the token until its acknowledgement; an older token is discarded and die 0 issues the next generation after 2^22 cycles. The order of the ports in a tie is the
model's choice (log 84); which flit was first with a bad CRC is a free value (log 12). -/
def linksAndRecovery : Prop :=
  ∀ (s : State) (d : Nat), d < s.dies →
    let n := s.dieNumber d; let k := s.dieAt d; let z := s.modul.zephyr
    (∀ p out lane flit, 2 ≤ s.portSize p → (out = true → s.dieIndex (s.neighbour n p) = none) → let l := k.dir ⟨p, out⟩
      (let lost := l.failed ++ (l.pending.map Prod.fst).toList ++ l.next
       l.down = false → lane < 18 → lane ∉ lost →
        (lost.length < 2 → l.pending = none →
          ∃ t b, exec (.laneFailure d ⟨p, out⟩ lane) s = .next t ∧ (t.dieAt d).dir ⟨p, out⟩ = { l with pending := some (lane, none), bad := some b } ∧ (∀ f, l.bad = some f → b = f) ∧ SameBytes s t) ∧
        (lost.length < 2 → l.pending ≠ none →
          ∃ t b, exec (.laneFailure d ⟨p, out⟩ lane) s = .next t ∧ (t.dieAt d).dir ⟨p, out⟩ = { l with next := l.next ++ [lane], bad := some b } ∧ (∀ f, l.bad = some f → b = f) ∧ SameBytes s t) ∧
        (2 ≤ lost.length → ∃ t, exec (.laneFailure d ⟨p, out⟩ lane) s = .next t ∧ ((t.dieAt d).link p).down = true ∧ SameBytes s t ∧
          t.modul = { s.modul with reports := s.modul.reports ++ [.linkDown d p] } ∧
          (s.dieIndex (s.neighbour n p) = none → ((t.dieAt d).dir ⟨p, true⟩).down = true) ∧
          ∀ e, s.dieIndex (s.neighbour n p) = some e → ((t.dieAt e).link (opposite p)).down = true)) ∧
      (l.pending = some (lane, none) → ∃ t, exec (.remap d ⟨p, out⟩ lane flit) s = .next t ∧ (t.dieAt d).dir ⟨p, out⟩ = { l with pending := some (lane, some flit) }) ∧
      (l.pending = some (lane, some flit) → ∃ t, exec (.ackremap d ⟨p, out⟩ lane flit) s = .next t ∧
        (t.dieAt d).dir ⟨p, out⟩ = { l with pending := l.next.head?.map (fun n => (n, none)), next := l.next.drop 1, failed := l.failed ++ [lane]
                                            replay := l.bad.or l.replay, bad := if l.next = [] then none else l.bad }) ∧
      (l.down = false → ∃ t, exec (.flitReplay d ⟨p, out⟩ flit) s = .next t ∧
        (t.dieAt d).dir ⟨p, out⟩ = { l with replay := if l.replay = some flit then none else l.replay } ∧ (t.dieAt d).bufs = k.bufs ∧ SameBytes s t)) ∧
    (∀ p resp b, k.buf? p resp = some b → b.flows ≠ [] → b.tripped = false → b.since + k.dt ≤ s.sched.now →
      ∃ t, exec (.detectorThreshold d p resp) s = .next t ∧ (t.dieAt d).buf? p resp = some { b with tripped := true } ∧ (t.dieAt d).suspect = true ∧ SameBytes s t) ∧
    (z.at_ = n → z.arrived = true → k.draining = false → exec (.tokenPass d) s =
      .next { s with modul := { s.modul with zephyr := { z with at_ := s.nextRouter n, arrived := false } } }) ∧
    (∀ gen, (gen - k.tokenGen).msb = true → ¬ (gen = z.gen ∧ z.at_ = n) → exec (.zephyrTokenArrival d gen) s = .next s) ∧
    (z.at_ = n → z.arrived = false → (z.gen - k.tokenGen).msb = false →
      ∃ t, exec (.zephyrTokenArrival d z.gen) s = .next t ∧ t.modul.zephyr.at_ = n ∧ t.modul.zephyr.arrived = true ∧ t.modul.zephyr.gen = z.gen ∧
        (t.dieAt d).tokenGen = z.gen ∧ SameBytes s t ∧
        ((k.bufs.any (fun b => b.tripped) && !k.leeBroken && !k.draining) = false → (t.dieAt d).bufs = k.bufs ∧ (t.dieAt d).leecnt = k.leecnt) ∧
        ((k.bufs.any (fun b => b.tripped) && !k.leeBroken && !k.draining) = true → (∃ b ∈ k.bufs, b.flows ≠ []) →
          ∃ b ∈ k.bufs, b.flows ≠ [] ∧ (t.dieAt d).lee = b.flows.head? ∧ (t.dieAt d).draining = true ∧
            (t.dieAt d).leecnt.toNat = min (k.leecnt.toNat + 1) (2 ^ 32 - 1) ∧
            ∀ c ∈ k.bufs, c.flows ≠ [] → b.since < c.since ∨ b.since = c.since ∧ portRank b.port ≤ portRank c.port)) ∧
    (∀ f, k.lee = some f → (∀ e, e < d → (s.dieAt e).lee ≠ some f) → ∀ e, e < s.dies → flowDst f = s.dieNumber e →
      ∃ t, exec (.leeDelivery e f) s = .next t ∧ (t.dieAt d).lee = none ∧ SameBytes s t ∧
        (∀ r, f = .response r → (t.dieAt e).arrived = (s.dieAt e).arrived ++ [r]) ∧
        (∀ q, f = .request q → q.seq = (s.dieAt e).expected q.src q.cls → (t.dieAt e).resequencer = (s.dieAt e).resequencer ++ [q])) ∧
    (k.draining = true → k.lee = none → z.at_ = n → z.arrived = true →
      ∃ t, exec (.leeAcknowledgement d) s = .next t ∧ (t.dieAt d).draining = false ∧ (t.dieAt d).suspect = false ∧
        t.modul.zephyr = { z with at_ := s.nextRouter n, arrived := false } ∧ SameBytes s t) ∧
    ((s.dieIndex 0).isSome = true → z.seenAt0 + 2 ^ 22 ≤ s.sched.now → exec .tokenRegeneration s =
      .next { s with modul := { s.modul with zephyr := { at_ := 0, gen := z.gen + 1, arrived := false, seenAt0 := s.sched.now } } }) ∧
    ((∀ e < s.dies, (s.dieAt e).draining = false ∧ (s.dieAt e).lee = none) →
      ∃ t, exec .leeRouteReplacement s = .next t ∧ SameBytes s t ∧ ∀ e < s.dies, (t.dieAt e).leeBroken = false)

/-- R276, R277, R280–R286: the statements above on this, together. -/
def Obligations.RoutingLinksAndRecovery : Prop := packetRouting ∧ linksAndRecovery

/-! ## The host: registers, queues, packets and the mailbox (R349–R368) -/

/-- Queue q of function fn is k afterwards; every other queue, the rest of the module and host memory are as before. -/
def queueBecomes (s : State) (fn q : Nat) (k : Queue) (t : State) : Prop :=
  t.queueAt fn q = k ∧ (∀ g r, (g, r) ≠ (fn, q) → t.queueAt g r = s.queueAt g r) ∧ t.host.mem = s.host.mem ∧ t.host.posted = s.host.posted ∧ t.host.slots = s.host.slots ∧
  { t with host := s.host } = s
/-- Nothing but the host port, and the count that gives each packet and write its own number, is touched. -/
def onlyHost (s t : State) : Prop := { t with host := s.host, modul := { t.modul with nextUid := s.modul.nextUid } } = s
/-- A queue with its EN bit set, and cleared (R357). -/
def enabled (k : Queue) : Queue :=
  if k.state = .disabled then { k with en := true, state := .running, ridx := 0, flimit := 0 }
  else if k.state = .paused then { k with en := true, state := .running } else { k with en := true }
def cleared (k : Queue) : Queue := if k.state = .running then { k with en := false, state := .paused } else { k with en := false }
/-- A queue after its reset (R357). -/
def resetOf (k : Queue) : Queue :=
  { k with state := .disabled, en := false, ridx := 0, flimit := 0, ecode := 0, epkt := 0, pkts := [], resetting := false }
/-- `MBX_CTL` after a write (R351). -/
def mailboxAfter (old v new : Word) : Prop :=
  ∀ i < 64, new.getLsbD i = if i < 7 ∨ 26 ≤ i ∧ i < 48 then v.getLsbD i else if i = 8 then old.getLsbD 8 && !v.getLsbD 8 else false

/-- Firmware's installing of a scheduler (R441) on the cores it names that exist and serve no job (DESIGN CHOICE, log 92): the program's bytes in the scratchpad, which 64 KiB blocks
they stand in, `CR_TVEC`, IE and IM; nothing else of them, and nothing of other cores. -/
def schedulerInstalled (s : State) (p : SchedSetup) (t : State) : Prop :=
  t.modul = s.modul ∧ t.boot = s.boot ∧ t.sched = s.sched ∧ (∀ d, t.dieAt d = s.dieAt d) ∧ (∀ d c, t.clusterAt d c = s.clusterAt d c) ∧
  ∀ id, let c := s.coreAt id; let u := t.coreAt id; let named := id ∈ p.cores ∧ id ∈ s.coreIds ∧ ∀ j ∈ s.modul.jobs, id ∉ j.cores
    (¬ named → u = c) ∧
    (named → { u with spad := c.spad, sched := c.sched, cr := { u.cr with tvec := c.cr.tvec }, status := { u.status with ie := c.status.ie, im := c.status.im } } = c ∧
      (∀ i < 64, u.cr.tvec.getLsbD i = (decide (3 ≤ i) && decide (i < 32) && p.tvec.getLsbD i)) ∧ u.status.ie = p.ie ∧ u.status.im = p.im ∧
      (∀ a, (∀ x ∈ p.program, x.1 ≠ a) ∨ 4194304 ≤ a → cget u.spad a = cget c.spad a) ∧
      (∀ b, b ∈ u.sched ↔ ∃ x ∈ p.program, x.1 < 4194304 ∧ x.1 / 65536 = b) ∧
      ((p.program.map Prod.fst).Nodup → ∀ x ∈ p.program, x.1 < 4194304 → cget u.spad x.1 = x.2))

/-- R6, R350, R351, R356: what a read of 64 bits of BAR0 answers: the fields of `MBX_CTL` and of a queue's configuration as they stand, RESET and reserved fields as zero, and zero
wherever nothing is listed. A queue's notify register answers a value that the spec does not give (DESIGN CHOICE, log 91). -/
def registerReads : Prop :=
  ∀ (s : State) (fn q : Nat), s.boot.powered = true → s.boot.failed = none → s.host.up = true → fn < 128 →
    let f := s.fnAt fn; let k := s.queueAt fn q; let config := fun (i : Nat) => s.readBar0 fn (0x8000 + 32 * q + 8 * i)
    s.readBar0 fn 0x2000 = some f.mbx ∧
    (q < f.qn → config 0 = some k.ring ∧ config 1 = some k.stat ∧ config 3 = some 0 ∧
      (k.ln < 32 → ∃ v, config 2 = some v ∧ ∀ i < 64, v.getLsbD i =
        (if i < 5 then k.ln.testBit i else if i = 8 ∨ i = 9 then k.pri.getLsbD (i - 8) else if i = 16 then k.en else false))) ∧
    (∀ off, off % 8 ≠ 0 ∨ 8 * f.qn ≤ off ∧ off < 0x2000 ∨ 0x2000 < off ∧ off < 0x8000 ∨ 0x8000 + 32 * f.qn ≤ off → s.readBar0 fn off = some 0)

/-- R350, R351, R354, R356, R357, R441: host writes of the registers of a function. A notify moves the fetch limit forward only and within the ring; RING, STAT and LN change only
while DISABLED; EN and RESET move the queue between its states, RESET once its work has ended; QN stays within its limits; what is not listed is ignored. Where the spec leaves the
registers' corners open, logs 58 and 59 say what the model does. -/
def hostRegisters : Prop :=
  ∀ (s : State) (fn q : Nat), s.host.up = true → fn < 128 →
    let f := s.fnAt fn; let k := s.queueAt fn q
    let idle := (∀ p ∈ k.pkts, p.started = false) ∧ ∀ j ∈ s.modul.jobs, ¬ (j.fn = fn ∧ j.queue = q)
    let config := fun (i : Nat) (v : Word) (k' : Queue) => ∃ t, exec (.registerWrite fn (0x8000 + 32 * q + 8 * i) v) s = .next t ∧ queueBecomes s fn q k' t
    (q < f.qn →
      (∀ w : Word, let n := w.setWidth 32; let d := (n - k.ridx).toNat; let c := (k.flimit - k.ridx).toNat
        let k' := if c ≤ d ∧ d ≤ 2 ^ k.ln then { k with flimit := n } else k
        (∃ t, exec (.notify fn q w) s = .next t ∧ queueBecomes s fn q k' t) ∧
        (q < 1024 → ∃ t, exec (.registerWrite fn (8 * q) w) s = .next t ∧ queueBecomes s fn q k' t)) ∧
      (f.disabled = false → ∃ t, exec (.queueEnable fn q) s = .next t ∧ queueBecomes s fn q (enabled k) t) ∧
      (∃ t, exec (.queuePause fn q) s = .next t ∧ queueBecomes s fn q (cleared k) t) ∧
      (idle → k.stat.toNat % 16 = 0 → ∃ t, exec (.queueReset fn q) s = .next t ∧ t.queueAt fn q = resetOf k ∧ onlyHost s t ∧
        t.hostD fn k.stat.toNat = 0 ∧ t.hostD fn (k.stat.toNat + 8) = 0) ∧
      (¬ idle → ∃ t, exec (.queueReset fn q) s = .next t ∧ queueBecomes s fn q { k with resetting := true } t) ∧
      (∀ v, config 0 v (if k.state = .disabled then { k with ring := v } else k) ∧ config 1 v (if k.state = .disabled then { k with stat := v } else k)) ∧
      (∀ v, v.getLsbD 17 = false → f.disabled = false → let ln := v.toNat % 32
        let k' := { k with pri := BitVec.ofNat 2 (v.toNat / 2 ^ 8), ln := if k.state = .disabled ∧ 4 ≤ ln ∧ ln ≤ 16 then ln else k.ln }
        config 2 v (if v.getLsbD 16 then enabled k' else cleared k')) ∧
      (∀ v, v.getLsbD 17 = true → let ln := v.toNat % 32
        let k' := { k with pri := BitVec.ofNat 2 (v.toNat / 2 ^ 8), ln := if k.state = .disabled ∧ 4 ≤ ln ∧ ln ≤ 16 then ln else k.ln }
        (idle → ∃ t, exec (.registerWrite fn (0x8000 + 32 * q + 16) v) s = .next t ∧ t.queueAt fn q = resetOf k') ∧
        (¬ idle → config 2 v { k' with resetting := true }))) ∧
    (f.qn ≤ q → (∀ w, exec (.notify fn q w) s = .next s) ∧ exec (.queueEnable fn q) s = .next s ∧ exec (.queuePause fn q) s = .next s ∧
      exec (.queueReset fn q) s = .next s) ∧
    (∀ v, ∃ t m, exec (.mbxCtl fn v) s = .next t ∧ exec (.registerWrite fn 0x2000 v) s = .next t ∧ mailboxAfter f.mbx v m ∧ t.fnAt fn = { f with mbx := m } ∧
      (∀ g, g ≠ fn → t.fnAt g = s.fnAt g) ∧ { t with host := s.host } = s) ∧
    (∀ off v, off % 8 ≠ 0 ∨ 8 * f.qn ≤ off ∧ off < 0x2000 ∨ 0x2000 < off ∧ off < 0x8000 ∨ 0x8000 + 32 * f.qn ≤ off ∨ 0x8000 ≤ off ∧ off % 32 = 24 →
      exec (.registerWrite fn off v) s = .next s) ∧
    (∀ n, let others := ((s.host.functions.filter (fun g => g.fn ≠ fn)).map (fun g => g.qn)).sum
      (n ≤ 256 → others + n ≤ 1024 → ∃ t, exec (.setQn fn n) s = .next t ∧ t.fnAt fn = { f with qn := n } ∧ { t with host := s.host } = s) ∧
      (256 < n ∨ 1024 < others + n → exec (.setQn fn n) s = .next s)) ∧
    (∃ t, exec (.functionEnable fn) s = .next t ∧ t.fnAt fn = { f with disabled := false } ∧ { t with host := s.host } = s) ∧
    (∀ v : FnSettings, ∃ t, exec (.functionSettings fn v) s = .next t ∧ t.fnAt fn = { f with settings := v } ∧
      (v.scheduler = none → { t with host := s.host } = s) ∧ (∀ p, v.scheduler = some p → schedulerInstalled s p t) ∧
      t.host.quantum = (match v.quantum with
        | some n => if 180000 ≤ n ∧ n ≤ 180000000 then n else s.host.quantum
        | none => s.host.quantum))

/-- A queue that may be fetched from stands in a slot, RUNNING, and is neither resetting nor of a disabled function (R357, R368). -/
def isSlotted (s : State) (fn q : Nat) : Prop :=
  s.host.up = true ∧ (fn, q) ∈ s.host.slots ∧ (s.queueAt fn q).state = .running ∧ (s.queueAt fn q).resetting = false ∧ (s.fnAt fn).disabled = false
/-- A packet that has started, with its queue last in turn. -/
def startedAs (s : State) (fn q : Nat) (p p' : QPacket) (t : State) : Prop :=
  (t.queueAt fn q).pkts = (s.queueAt fn q).pkts.map (fun x => if x.idx = p.idx then { p' with started := true } else x) ∧
  t.host.slots.getLast? = some (fn, q) ∧ t.modul = s.modul ∧ t.host.mem = s.host.mem ∧ t.host.posted = s.host.posted

/-- A RUNNING queue's packet fails with a status at its start (R357, R360): its signal's error field is set while it is zero and the signal loses 1, the queue
enters ERROR, and neither it nor one that has not started is left. -/
def failsWith (s : State) (fn q : Nat) (p : QPacket) (c : Nat) (t : State) : Prop :=
  let k := s.queueAt fn q; let k' := t.queueAt fn q; let sig := (p.dw 1).toNat
  onlyHost s t ∧ k'.state = .error ∧ k'.ecode.toNat = c ∧ k'.epkt = BitVec.ofNat 32 p.idx ∧ (∀ x ∈ k'.pkts, x.started = true ∧ x.idx ≠ p.idx) ∧
  (sig ≠ 0 → sig % 16 = 0 → k.stat.toNat % 16 = 0 → k.stat.toNat ≠ sig → s.host.subs = [] → (∀ x ∈ k.pkts, x.started = true ∨ x.idx = p.idx) →
    t.hostD fn sig = s.signalValue fn sig - 1 ∧
    ((∀ r ∈ s.host.signals, r.fn = fn → r.iova = sig → r.err = 0) → s.hostD fn (sig + 8) = 0 → t.hostD fn (sig + 8) = BitVec.ofNat 64 c))

/-- R353–R355, R359, R360, R364, R366, R368: packets. One is fetched when its V is current, and advances the read index and the status record; it starts when every
earlier one has started, after their completion with BAR, and its queue ranks highest; a FEED appends its records in order, a SIGNAL hands its subtraction on, a
BARRIER_AND ends when its signals read zero, a COPY moves 4 KiB chunks, with packets for units of other dies, and, from the device to the host, completes only when its own writes
have been sent; a packet that could not be read or is malformed fails; a completion subtracts 1 and hands on its vector behind that; a subtraction writes value − amount. What the words leave open of a
packet that cannot be processed, of the current job and of the slots follows logs 59, 61, 62 and 63, and how a COPY reaches other dies log 11. -/
def Obligations.PacketsAndSignals : Prop :=
  (∀ (s : State) (fn q : Nat), isSlotted s fn q → let k := s.queueAt fn q; let slot := k.ring.toNat + 64 * (k.ridx.toNat % 2 ^ k.ln)
    k.flimit ≠ k.ridx → s.hostBad fn slot 64 = false →
    let now := (s.hostD fn slot).getLsbD 0 = decide (k.ridx.toNat / 2 ^ k.ln % 2 = 0)
    (now → ∃ t p, exec (.packetFetch fn q) s = .next t ∧ (t.queueAt fn q).pkts = k.pkts ++ [p] ∧ p.idx = k.ridx.toNat ∧ p.started = false ∧ p.done = 0 ∧ p.bad = false ∧
      p.dws = (List.range 8).map (fun i => s.hostD fn (slot + 8 * i)) ∧ (t.queueAt fn q).ridx = k.ridx + 1 ∧
      (∃ w, t.host.posted = s.host.posted ++ [w] ∧ w.fn = fn ∧ w.bytes.map Prod.fst = (List.range 16).map (fun i => k.stat.toNat + i)) ∧
      (k.stat.toNat % 16 = 0 → t.hostD fn k.stat.toNat = (k.ridx + 1).setWidth 64 ∧ t.hostD fn (k.stat.toNat + 8) = k.epkt ++ k.ecode)) ∧
    (¬ now → exec (.packetRefetch fn q) s = .next s)) ∧
  (∀ (s : State) (fn q : Nat), isSlotted s fn q → let k := s.queueAt fn q; let slot := k.ring.toNat + 64 * (k.ridx.toNat % 2 ^ k.ln)
    k.flimit ≠ k.ridx → s.hostBad fn slot 64 = true → ∃ t p, exec (.packetFetch fn q) s = .next t ∧ (t.queueAt fn q).pkts = k.pkts ++ [p] ∧ p.bad = true ∧ p.started = false ∧
      (t.queueAt fn q).ridx = k.ridx + 1) ∧
  (∀ (s : State) (fn q idx : Nat) (p : QPacket), s.mayStart fn q idx = some p → (∀ x ∈ (s.queueAt fn q).pkts, x.idx = p.idx → x = p) →
    (p.bad = true ∨ p.malformed = true) → let c := if p.bad then 14 else 1
    let fails := fun (i : Instr) => ∃ t, exec i s = .next t ∧ failsWith s fn q p c t
    (p.type = 0 → fails (.launch fn q idx)) ∧ (p.type = 1 → fails (.feed fn q idx)) ∧ (p.type = 2 → fails (.signal fn q idx)) ∧
    (p.type = 3 → fails (.barrierAnd fn q idx)) ∧ (p.type = 4 → fails (.copy fn q idx)) ∧ (4 < p.type → fails (.packetComplete fn q idx))) ∧
  (∀ (s : State) (fn q idx : Nat) (p : QPacket), s.mayStart fn q idx = some p →
    isSlotted s fn q ∧ p.idx = idx ∧ (∃ before after, (s.queueAt fn q).pkts = before ++ p :: after ∧ (∀ x ∈ before, x.started = true) ∧ p.started = false) ∧
    ((p.dw 0).getLsbD 4 = true → ∀ x, (s.queueAt fn q).pkts.head? = some x → x.idx = p.idx) ∧
    (∀ f ∈ s.host.slots, s.startable f ≠ none → (s.queueAt f.1 f.2).pri.toNat ≤ (s.queueAt fn q).pri.toNat)) ∧
  (∀ (s : State) (fn q idx : Nat) (p : QPacket), s.mayStart fn q idx = some p → p.early = none → (∀ x ∈ (s.queueAt fn q).pkts, x.idx = p.idx → x = p) →
    (p.type = 3 → ∃ t, exec (.barrierAnd fn q idx) s = .next t ∧ startedAs s fn q p p t) ∧
    (p.type = 2 → ∃ t, exec (.signal fn q idx) s = .next t ∧ startedAs s fn q p p t ∧
      t.host.subs = s.host.subs ++ [{ fn := fn, iova := (p.dw 2).toNat, amount := p.dw 3, ctx := none }]) ∧
    (∀ j, s.currentJob fn q = some j →
      (p.type = 1 → (p.dw 2).toNat % 16 < j.queues.length → ∃ t, exec (.feed fn q idx) s = .next t ∧ startedAs s fn q p { p with job := some j.ctx } t) ∧
      (p.type = 4 → s.copyCovered j p = true → ∃ t, exec (.copy fn q idx) s = .next t ∧ startedAs s fn q p { p with job := some j.ctx } t) ∧
      (p.type = 4 → s.copyCovered j p = false → ∃ t, exec (.copy fn q idx) s = .next t ∧ failsWith s fn q p 11 t)) ∧
    (s.currentJob fn q = none → (p.type = 1 → ∃ t, exec (.feed fn q idx) s = .next t ∧ failsWith s fn q p 13 t) ∧
      (p.type = 4 → ∃ t, exec (.copy fn q idx) s = .next t ∧ failsWith s fn q p 13 t))) ∧
  (∀ (s : State) (fn q idx : Nat) (p : QPacket) (j : Job), s.mayStart fn q idx = none → s.running fn q idx = some p → p.job = some j.ctx → s.jobOf j.ctx = some j →
    j.over = false → j.killed = false → (∀ x ∈ (s.queueAt fn q).pkts, x.idx = p.idx → x = p) →
    let n := (p.dw 2).toNat % 16; let at_ := (p.dw 3).toNat + 16 * p.done
    (∀ w, p.type = 1 → p.done < p.count → j.queues[n]? = some w → w.recs.length < w.cap → s.hostBad fn at_ 16 = false →
      ∃ t j', exec (.feed fn q idx) s = .next t ∧ t.jobOf j.ctx = some j' ∧ j'.queues[n]? = some { w with recs := w.recs ++ [BitVec.ofNat 128 (s.hostNat fn at_ 16)] } ∧
        (t.queueAt fn q).pkts = (s.queueAt fn q).pkts.map (fun x => if x.idx = p.idx then { p with done := p.done + 1 } else x)) ∧
    (p.type = 4 → p.done < (p.dw 5).toNat → p.hbmOpen = [] → p.hbmQueue = [] →
      let n := min 4096 ((p.dw 5).toNat - p.done); let h := (p.dw 3).toNat + p.done; let va := (p.dw 4).toNat + p.done
      let at_ := ((j.cores.head?.map (fun id => id.die)).getD 0); let die := s.dieAt at_; let far := fun (i : Nat) => s.farAt at_ j.ctx (va + i)
      let moved := fun (t : State) => (t.queueAt fn q).pkts = (s.queueAt fn q).pkts.map (fun x => if x.idx = p.idx then { p with done := p.done + n, hbmUnits := [] } else x)
      let sent := fun (t : State) (u : FarUnit) (body : PktBody) => ∃ k x, k ∈ (t.dieAt at_).unacked ∧ k.uid = s.modul.nextUid ∧ k.body = body ∧ k.dst = s.dieNumber u.1 ∧ k.cls = 0 ∧
        k.from_.pkt = some (fn, q, idx) ∧ x ∈ (t.queueAt fn q).pkts ∧ x.idx = idx ∧ x.hbmOpen = [k.uid]
      ((p.dw 2).getLsbD 0 = true → h + n ≤ 2 ^ 64 →
        ((∀ i < n, ∀ u, far i = some u → assoc p.hbmUnits u.2.1 ≠ none) → ∃ t, exec (.copy fn q idx) s = .next t ∧ moved t ∧ onlyHost s t ∧ t.host.mem = s.host.mem ∧
          let byte := fun (i : Nat) => match far i with
            | none => hbmRead s.modul die j.ctx (va + i)
            | some u => let v := (assoc p.hbmUnits u.2.1).getD (0, false); (BitVec.ofNat 8 (v.1.toNat / 256 ^ ((va + i) % 64)), v.2)
          (∃ w, t.host.posted = s.host.posted ++ [w] ∧ w.fn = fn ∧ w.ctx = some j.ctx ∧ w.pkt = some (fn, q, p.idx) ∧ ∀ i < n, (h + i) ∈ w.bad ↔ (byte i).2 = true) ∧
          ∀ i < n, t.hostByte fn (h + i) = (byte i).1) ∧
        (∀ u, (∃ i < n, far i = some u) → (∀ i < n, ∀ v, far i = some v → v = u ∨ assoc p.hbmUnits v.2.1 ≠ none) → assoc p.hbmUnits u.2.1 = none →
          die.pairRoom (s.dieNumber u.1) 0 = true → ∃ t, exec (.copy fn q idx) s = .next t ∧ sent t u (.hbmRead u.2.1 u.2.2))) ∧
      ((p.dw 2).getLsbD 0 = false → let bad := fun (a : Nat) => s.hostBad fn (h + (a - va)) 1
        ((∀ i < n, far i = none) → ∃ t, exec (.copy fn q idx) s = .next t ∧ moved t ∧ t.host.mem = s.host.mem ∧ t.host.posted = s.host.posted ∧
          t.modul = hbmWrite s.modul die j.ctx ((List.range n).map (fun i => (va + i, s.hostByte fn (h + i)))) bad) ∧
        (∀ u, (∀ i < n, far i = some u) → die.pairRoom (s.dieNumber u.1) 0 = true → ∃ t, exec (.copy fn q idx) s = .next t ∧
          sent t u (.hbmWrite u.2.1 u.2.2 ((List.range n).map (fun i => (64 * u.2.1 + (va + i) % 64, s.hostByte fn (h + i)))) ((List.range n).any (fun i => bad (va + i)))))))) ∧
  (∀ (s : State) (fn q idx : Nat) (p : QPacket), s.running fn q idx = some p →
    (p.type = 1 ∧ p.count ≤ p.done ∨ p.type = 2 ∨ p.type = 3 ∧ (∀ i, 2 ≤ i → i ≤ 6 → p.dw i = 0 ∨ s.signalValue fn (p.dw i).toNat = 0) ∨
      p.type = 4 ∧ (p.dw 5).toNat ≤ p.done ∧ p.hbmOpen = [] ∧ p.hbmQueue = [] ∧ ((p.dw 2).getLsbD 0 = true → ∀ w ∈ s.host.posted, w.pkt ≠ some (fn, q, p.idx))) →
      ∃ t, exec (.packetComplete fn q idx) s = .next t ∧ (t.queueAt fn q).pkts = (s.queueAt fn q).pkts.filter (fun x => x.idx ≠ idx) ∧ t.host.msix = s.host.msix ∧
        ((p.dw 0).getLsbD 5 = true → ∃ w, t.host.posted.getLast? = some w ∧ w.fn = fn ∧ w.bytes = [] ∧ w.vec = some ((p.dw 0).toNat / 2 ^ 16 % 2 ^ 11) ∧ w.pkt = some (fn, q, p.idx)) ∧
        onlyHost s t ∧ (p.dw 1 = 0 → (p.dw 0).getLsbD 5 = false → s.host.subs = [] → t.host.posted.length = s.host.posted.length) ∧
        (p.dw 1 ≠ 0 → (p.dw 1).toNat % 16 = 0 → s.host.subs = [] → t.hostD fn (p.dw 1).toNat = s.signalValue fn (p.dw 1).toNat - 1)) ∧
  (∀ (s : State) (fn q idx : Nat) (p : QPacket) (w : PostedWrite), s.mayStart fn q idx = none → s.running fn q idx = some p → p.type = 4 → (p.dw 2).getLsbD 0 = true →
    w ∈ s.host.posted → w.pkt = some (fn, q, p.idx) → ∀ t, exec (.packetComplete fn q idx) s ≠ .next t) ∧
  (∀ (s : State) (b : Subtraction) (rest : List Subtraction), s.host.subs = b :: rest → b.iova % 16 = 0 → b.iova ≠ 0 →
    ∃ t, exec .signalSubtract s = .next t ∧ t.host.subs = rest ∧ t.hostD b.fn b.iova = s.signalValue b.fn b.iova - b.amount ∧ onlyHost s t ∧
      ∀ r ∈ t.host.signals, r.fn = b.fn → r.iova = b.iova → r.value = s.signalValue b.fn b.iova - b.amount)

/-- What a launched job is told (R361, R363). -/
def launchedJob (fn q : Nat) (p : QPacket) (d : Desc) (ctx : Nat) (j : Job) : Prop :=
  j.ctx = ctx ∧ j.fjob.toNat = d.fjob % 2 ^ 32 ∧ j.fn = fn ∧ j.queue = q ∧ j.pkt = p.idx ∧ j.cores = d.cores ∧ j.grant = d.spad * 65536 ∧ j.acc = d.acc ∧
  j.signals = d.signals ∧ j.ended = [] ∧ j.killed = false ∧ j.report = none ∧ (j.skw = true ↔ d.fl / 2 % 2 = 1) ∧
  j.queues = (List.range d.nWq).map (fun i => { cap := 2 ^ (d.wql.getD i 0 + 4), recs := [] })
/-- R363, R441: a core of rank r in a job of n cores starts at ENTRY in U mode, its registers the rank, the number of cores, the grant and the arguments, its soft registers at
reset and its S-only registers and its cycle count kept, with the sections of the image in a scratchpad that otherwise reads zero and its buffers declared (R70). -/
def startedCore (d : Desc) (im : ImageAt) (ctx pb r n : Nat) (c u : Core) : Prop :=
  u.run = .running ∧ u.pc = BitVec.ofNat 32 d.entry ∧ u.cid.toNat = ctx ∧ u.spbase = pb ∧ u.grant = d.spad * 65536 ∧
  u.status = { c.status with mode := false, td := false, cv := true } ∧
  u.cr = { c.cr with fpctl := 0, fpstat := 0, fpen := 0, cpol := 0xC0C0, tflog := 0, bkey := 0, bseq := 0, epc := 0 } ∧
  (∀ i : Fin 64, u.regs[i].toNat = if i.val = 1 then r % 2 ^ 64 else if i.val = 2 then n % 2 ^ 64 else if i.val = 3 ∨ i.val = 62 then d.spad * 65536 % 2 ^ 64
    else if 4 ≤ i.val ∧ i.val ≤ 8 then d.args.getD (i.val - 4) 0 % 2 ^ 64 else 0) ∧
  (∀ a < d.spad * 65536, (∀ x ∈ imageSections im, a < x.1 ∨ x.1 + x.2.1 ≤ a) → cget u.spad (pb + a) = 0) ∧
  ((imageSections im).Pairwise (fun x y => x.1 + x.2.1 ≤ y.1 ∨ y.1 + y.2.1 ≤ x.1) →
    ∀ x ∈ imageSections im, ∀ i < x.2.1, cget u.spad (pb + x.1 + i) = BitVec.ofNat 8 (im (x.2.2 + i) 1)) ∧
  (∀ i < d.spad * 1024, cget u.poison (pb / 64 + i) = 0) ∧ u.bufs = (imageBuffers im).reverse ∧ u.flags = Vector.replicate 64 0 ∧ u.windows = (Core.reset c.id).windows ∧
  u.streams = (Core.reset c.id).streams ∧ u.vec = (Core.reset c.id).vec ∧ u.cycStart = c.cycStart

/-- R361: the limits of a descriptor's own fields. -/
def limitsHold (d : Desc) : Prop :=
  d.image % 64 = 0 ∧ 1 ≤ d.imgLen ∧ d.imgLen ≤ 0x400000 ∧ d.entry % 8 = 0 ∧ d.entry < d.spad * 65536 ∧ 1 ≤ d.clmask ∧ d.clmask < 2 ^ 48 ∧ 1 ≤ d.coreMask ∧ d.coreMask ≤ 0xF ∧
  1 ≤ d.spad ∧ d.spad ≤ 64 ∧ d.acc ≤ 12 ∧ d.skb ≤ 64 ∧ d.rng % 16 = 0 ∧ 1 ≤ d.nHbm ∧ d.nHbm ≤ 8192 ∧ d.nHost ≤ 16 ∧ d.nGrt ≤ 64 ∧ d.nSig ≤ 64 ∧ d.nWq ≤ 16 ∧ d.fl < 4 ∧
  d.zero57 = 0 ∧ d.grt % 8 = 0 ∧ d.sig % 8 = 0 ∧ d.zero7c = 0 ∧ ∀ i < 16, let v := d.wql.getD i 0; if i < d.nWq then 2 ≤ v ∧ v ≤ 12 else v = 0
/-- R361: those of its lists; `high` gathers their reserved fields. -/
def listsHold (d : Desc) : Prop :=
  d.high = 0 ∧ (∀ r ∈ d.hbm, r.va % 0x200000 = 0 ∧ r.len % 0x200000 = 0) ∧ ∀ r ∈ d.host, r.1 % 4096 = 0 ∧ r.2.1 % 4096 = 0
/-- R439: an image that is not malformed. -/
def imageHolds (im : ImageAt) (bytes : List Byte) (grant : Nat) : Prop :=
  let len := bytes.length
  let table := fun (place n size : Nat) => im place 4 % 16 = 0 ∧ (n = 0 ∨ im place 4 + n * size ≤ len)
  let sec := fun (i k : Nat) => im (im 0x18 4 + 16 * i + 4 * k) 4
  let buf := fun (i off n : Nat) => im (im 0x1C 4 + 16 * i + off) n
  let sk := fun (i off n : Nat) => im (im 0x20 4 + 16 * i + off) n
  64 ≤ len ∧ im 0 8 = 0x31474D494E41534D ∧ im 8 4 = 1 ∧ im 0xC 4 = len ∧ 1 ≤ im 0x10 2 ∧ im 0x10 2 ≤ 64 ∧ im 0x12 2 ≤ 256 ∧ im 0x14 2 ≤ 64 ∧ im 0x2C 20 = 0 ∧
  table 0x18 (im 0x10 2) 16 ∧ table 0x1C (im 0x12 2) 16 ∧ table 0x20 (im 0x14 2) 16 ∧ table 0x24 (im 0x16 2) 64 ∧
  crc32 (bytes.take 0x28 ++ [0, 0, 0, 0] ++ bytes.drop 0x2C) = BitVec.ofNat 32 (im 0x28 4) ∧
  (∀ i < im 0x10 2, sec i 3 = 0 ∧ sec i 0 % 8 = 0 ∧ sec i 2 % 8 = 0 ∧ (sec i 1 = 0 ∨ sec i 2 + sec i 1 ≤ len) ∧ sec i 0 + sec i 1 ≤ grant) ∧
  (∀ i < im 0x10 2, ∀ j < i, ∀ a, ¬ (sec i 0 ≤ a ∧ a < sec i 0 + sec i 1 ∧ sec j 0 ≤ a ∧ a < sec j 0 + sec j 1)) ∧
  (∀ i < im 0x12 2, buf i 2 2 = 0 ∧ buf i 12 4 = 0 ∧ 1 ≤ buf i 1 1 ∧ buf i 1 1 ≤ 8 ∧ buf i 4 4 % 64 = 0 ∧ buf i 8 4 % 64 = 0 ∧ 1 ≤ buf i 8 4 ∧ buf i 8 4 ≤ 0x400000 ∧
    buf i 4 4 + buf i 1 1 * buf i 8 4 ≤ grant) ∧
  (∀ i < im 0x12 2, ∀ j < i, buf i 0 1 ≠ buf j 0 1 ∧ ∀ a, ¬ (buf i 4 4 ≤ a ∧ a < buf i 4 4 + buf i 1 1 * buf i 8 4 ∧ buf j 4 4 ≤ a ∧ a < buf j 4 4 + buf j 1 1 * buf j 8 4)) ∧
  ∀ i < im 0x14 2, sk i 8 8 = 0 ∧ sk i 0 4 % 16 = 0 ∧ sk i 0 4 + sk i 4 4 ≤ len ∧ sk i 4 4 = 16 + 16 * skCount (imageSketch im i) ∧ skBad (imageSketch im i) = false

/-- The checks of a LAUNCH in their order (R362), each with the code that a failure reports, or none where the launch waits. -/
def launchChecks (s : State) (fn : Nat) (p : QPacket) : List (Prop × Option Nat) :=
  let d := s.descOf fn p; let im := s.imageOf fn d; let at_ := (p.dw 2).toNat; let grant := d.spad * 65536
  let good := imageHolds im (s.hostBytes fn d.image d.imgLen) grant
  let named := maskClusters d.clmask
  [(¬ (at_ % 64 = 0 ∧ ∀ i < 5, p.dw (3 + i) = 0), some 1),
   (s.hostBad fn at_ 128 = true, some 14),
   (¬ limitsHold d, some 1),
   (s.hostBad fn d.rng (16 * (d.nHbm + d.nHost)) = true ∨ d.nGrt ≠ 0 ∧ s.hostBad fn d.grt (24 * d.nGrt) = true ∨ d.nSig ≠ 0 ∧ s.hostBad fn d.sig (8 * d.nSig) = true, some 14),
   (¬ listsHold d, some 1),
   (∀ c < 128, ∃ j ∈ s.modul.jobs, j.ctx = c, some 2),
   ((∃ k ∈ named ++ d.grants.flatMap (fun g => maskClusters g.1), s.ncl k.1 ≤ k.2) ∨ d.fl % 2 = 1 ∧ s.modul.caps.zmat = false, some 3),
   (∃ id ∈ d.cores, (∃ j ∈ s.modul.jobs, id ∈ j.cores) ∧ (s.coreAt id).cr.tvec = 0, none),
   (∃ id ∈ d.cores, s.places id grant = [], some 5),
   (∃ j ∈ s.modul.jobs, j.pal &&& BitVec.ofNat 32 d.pal ≠ 0 ∧ ∃ a ∈ d.cores, ∃ b ∈ j.cores, a.die = b.die ∧ a.clu = b.clu ∧ a.core ≠ b.core, none),
   (s.hostBad fn d.image d.imgLen = true, some 14),
   (good ∧ d.skb < im 0x14 2 ∨ ∃ k ∈ named, 128 < s.blocksAsked d [] k, some 8),
   (∃ k ∈ named, 128 < s.blocksAsked d s.modul.jobs k, none),
   ((∀ c < 128, (∀ j ∈ s.modul.jobs, j.ctx ≠ c) → (∃ r ∈ d.hbm, r.enc = true ∧ r.len ≠ 0) ∧ ∃ k ∈ d.dies, cget (s.dieAt k).keys c = 0) ∨
      (∃ r ∈ d.hbm, 2 ^ 48 < r.va + r.len ∨ r.at_ = true ∧ ¬ (r.rd = true ∧ r.wr = true)) ∨ rangesOverlap (d.hbm.map (fun r => (r.va, r.va + r.len))) = true ∨
      (∃ r ∈ d.host, ∃ q, d.host.head? = some q ∧ (r.1 / 2 ^ 48 ≠ q.1 / 2 ^ 48 ∨ r.2.1 ≠ 0 ∧ (r.1 + r.2.1 - 1) / 2 ^ 48 ≠ r.1 / 2 ^ 48)) ∨
      (∃ k ∈ d.dies, (s.dieAt k).freeEntries.length < d.extents.length) ∨ (s.allocate d.extents s.mappedPages (s.modul.free + 1)).isNone = true, some 9),
   (¬ good, some 10)]

/-- R361, R362, R442: a LAUNCH fails with the code of the first check that it breaks, and creates nothing, or waits while what it asks for is in use; one that breaks none
is admitted. The descriptor's fields stand at their offsets. -/
def launchAnswers : Prop :=
  ∀ (s : State) (fn q idx : Nat) (p : QPacket), (s.queueAt fn q).nextUp = some p → p.idx = idx → p.type = 0 → p.early = none →
    let d := s.descOf fn p; let f := fun (off n : Nat) => s.hostNat fn ((p.dw 2).toNat + off) n; let checks : List (Prop × Option Nat) := launchChecks s fn p
    (d.image, d.imgLen, d.entry, d.clmask, d.coreMask, d.spad, d.acc, d.skb, d.pal) = (f 0 8, f 8 4, f 0xC 4, f 0x10 8, f 0x18 1, f 0x19 1, f 0x1A 1, f 0x1B 1, f 0x1C 4) ∧
    (d.rng, d.nHbm, d.nHost, d.nGrt, d.nSig, d.nWq, d.fl, d.zero57, d.grt, d.sig, d.fjob, d.zero7c) =
      (f 0x48 8, f 0x50 2, f 0x52 1, f 0x53 1, f 0x54 1, f 0x55 1, f 0x56 1, f 0x57 1, f 0x58 8, f 0x60 8, f 0x78 4, f 0x7C 4) ∧
    (∀ i < 5, d.args[i]? = some (f (0x20 + 8 * i) 8)) ∧ (∀ i < 16, d.wql[i]? = some (f (0x68 + i) 1)) ∧
    (∀ (i : Nat) (c : Prop × Option Nat), checks[i]? = some c → (∀ j < i, ∀ (b : Prop × Option Nat), checks[j]? = some b → ¬ b.1) → c.1 → match c.2 with
      | some code => s.mayStart fn q idx = some p → (∀ x ∈ (s.queueAt fn q).pkts, x.idx = p.idx → x = p) →
          ∃ t, exec (.launch fn q idx) s = .next t ∧ failsWith s fn q p code t
      | none => ∀ t, exec (.launch fn q idx) s ≠ .next t) ∧
    ((∀ c ∈ checks, ¬ c.1) → ∃ ctx es pl, s.admission fn p = .begin ctx es pl)

/-- What a cluster keeps for a new context (R189, R194, R253, R255, R291, R387): palette and tile grants, flag maps, the entries of the grant list that name the cluster, and the
image's sketches, written and bound by their order. -/
def clusterHolds (s : State) (d : Desc) (im : ImageAt) (ctx : Nat) (k : Nat × Nat) (x : CtxCluster) : Prop :=
  let mine := fun (c : Nat) => (⟨k.1, k.2, c⟩ : CoreId) ∈ d.cores
  x.ctx = ctx ∧ x.palGrant = BitVec.ofNat 32 d.pal ∧ x.partition = d.skb ∧ x.slotOwner = [] ∧ x.cancelled = false ∧
  (∀ n c, (n, c) ∈ x.tileOwner ↔ mine c ∧ 12 * c ≤ n ∧ n < 12 * c + d.acc) ∧
  (∀ c : Fin 4, let g := x.cores[c]; (g.launched = true ↔ mine c.val) ∧ (mine c.val → (g.first = true ↔ s.jobsOn ⟨k.1, k.2, c.val⟩ ≠ []) ∧
    ∀ f : BitVec 6, flagEntry g.fmap f = (true, true, f))) ∧
  (∀ j : Fin 64, x.grants[j] = match d.grants[j.val]? with
    | some g => if g.1 / 2 ^ (12 * k.1 + k.2) % 2 = 1 then g.2 else 0
    | none => 0) ∧
  ∀ i, assoc x.bindings i = (if i < im 0x14 2 then some i else none) ∧ (x.block i).image = (if i < im 0x14 2 then some (imageSketch im i) else none)

/-- R70, R79, R363, R383, R441: an admitted LAUNCH creates its job, locks its leases with their entries and zeroes what they map unencrypted, loads the clusters' tables and sketches, zeroes the
slots of the grant and the tiles of the cores it starts, and starts every core that no other job holds, at a placement outside the scheduler's code. A core that another job holds stays as it
is; a save area of generation 0 holds the context's start (DEDUCED, log 55), and the flags there read zero at its first load (DEDUCED, log 95). -/
def launchEffects : Prop :=
  ∀ (s : State) (fn q idx : Nat) (p : QPacket), s.mayStart fn q idx = some p → p.type = 0 → (∀ x ∈ (s.queueAt fn q).pkts, x.idx = p.idx → x = p) →
    ∀ ctx es pl, p.early = none → s.admission fn p = .begin ctx es pl → let d := s.descOf fn p; let im := s.imageOf fn d
      ∃ t j, exec (.launch fn q idx) s = .next t ∧ t.modul.jobs = s.modul.jobs ++ [j] ∧ launchedJob fn q p d ctx j ∧ ctx < 128 ∧ (∀ x ∈ s.modul.jobs, x.ctx ≠ ctx) ∧
        (t.queueAt fn q).pkts = (s.queueAt fn q).pkts.map (fun x => if x.idx = p.idx then { p with started := true } else x) ∧
        (∀ a ∈ d.signals, a ≠ 0 → ∃ r ∈ t.host.signals, r.fn = fn ∧ r.iova = a) ∧
        (∀ k ∈ d.dies, ∃ l ∈ (t.dieAt k).leases, l.ctx = ctx ∧ l.locked = true ∧ l.ranges = d.host) ∧
        (∀ k ∈ d.dies, ∀ e ∈ es, ∃ n, cget (t.dieAt k).map0 n = e.word0 ctx ∧ (cget (t.dieAt k).map1 n).toNat = e.pab % 2 ^ 64) ∧
        (∀ e ∈ es, e.range.enc = false → ∀ a, e.pab * 2 ^ 21 ≤ a → a < e.pab * 2 ^ 21 + 2 ^ (21 + e.sz) → cget t.modul.hbm a = 0 ∧ cget t.modul.hbmPoison (a / 64) = 0) ∧
        (∀ k ∈ maskClusters d.clmask, ∃ x ∈ (t.clusterAt k.1 k.2).ctxs, clusterHolds s d im ctx k x) ∧
        (∀ k ∈ maskClusters d.clmask, (∃ id ∈ d.cores, id.die = k.1 ∧ id.clu = k.2 ∧ s.jobsOn id = []) →
          (∀ n < 32, d.pal / 2 ^ n % 2 = 1 → (t.clusterAt k.1 k.2).slot n = {}) ∧
          ∀ id ∈ d.cores, id.die = k.1 → id.clu = k.2 → s.jobsOn id = [] → ∀ n, 12 * id.core ≤ n → n < 12 * id.core + d.acc → (t.clusterAt k.1 k.2).tile n = {}) ∧
        (∀ id ∈ d.cores, ∃ pb, assoc pl id = some pb ∧ pb % 65536 = 0 ∧ pb + d.spad * 65536 ≤ 4194304 ∧
          ∀ b, b ∈ (s.coreAt id).sched ∧ b < 64 ∨ (s.coreAt id).cr.tvec ≠ 0 ∧ b = (s.coreAt id).cr.tvec.toNat / 65536 → pb + d.spad * 65536 ≤ 65536 * b ∨ 65536 * (b + 1) ≤ pb) ∧
        (∀ id ∈ d.cores, s.jobsOn id = [] → startedCore d im ctx ((assoc pl id).getD 0) (d.cores.idxOf id) d.cores.length (s.coreAt id) (t.coreAt id)) ∧
        (∀ id ∈ d.cores, s.jobsOn id ≠ [] → t.coreAt id = s.coreAt id ∧ assoc j.gens id = some 0 ∧
          ∃ a h m, assoc j.saves id = some a ∧ a.ctx = ctx ∧ a.core = id ∧ a.gen = 0 ∧ a.verifies j.saveKey ctx id 0 = true ∧ a.soft.pc = BitVec.ofNat 32 d.entry ∧
            a.soft.regs = d.startRegs (d.cores.idxOf id) d.cores.length ∧ a.soft.cpol = 0xC0C0 ∧ a.hard = some h ∧
            h.bufs = (imageBuffers im).reverse ∧ h.tasks = [] ∧ h.image = some (m, []) ∧ (∀ b, (∀ x ∈ imageSections im, b < x.1 ∨ x.1 + x.2.1 ≤ b) → cget m b = 0) ∧
            ((imageSections im).Pairwise (fun x y => x.1 + x.2.1 ≤ y.1 ∨ y.1 + y.2.1 ≤ x.1) →
              ∀ x ∈ imageSections im, ∀ i < x.2.1, cget m (x.1 + i) = BitVec.ofNat 8 (im (x.2.2 + i) 1))) ∧
        ∀ id, id ∉ d.cores → t.coreAt id = s.coreAt id

/-- R79, R342, R357, R360, R365: the end-of-job fence, once the job and everything of it has ended, its host writes have been sent and its FEEDs have completed, completes the LAUNCH, releases the leases, clears
the key slot that no lease names any more, and returns the context. What the cores handed on for other contexts stays, and so does a packet that waits to be sent again, which then belongs to no context
(DEDUCED, logs 57 and 61). -/
def jobEnds : Prop :=
  ∀ (s : State) (j : Job), s.jobOf j.ctx = some j → (j.killed = true ∨ ∀ id ∈ j.cores, id ∈ j.ended) → s.ctxTasks j.ctx = false → s.ctxPackets j.ctx = false → s.ctxFed j.ctx = false →
    (∀ b ∈ s.host.subs, b.ctx ≠ some j.ctx) → (∀ w ∈ s.host.posted, w.ctx ≠ some j.ctx) → (j.killed = true ∨ s.ctxCopies j.ctx = false) →
    let names := fun (u : State) => ∃ d < s.dies, ∃ e ∈ (u.dieAt d).map0, e.2.getLsbD 63 = true ∧ e.2.getLsbD 59 = true ∧ e.2.toNat / 2 ^ 45 % 2 ^ 7 = j.ctx
    ∃ t, exec (.endOfJobFence j.ctx) s = .next t ∧ t.modul.jobs = s.modul.jobs.filter (fun x => x.ctx ≠ j.ctx) ∧
      (∀ x ∈ (t.queueAt j.fn j.queue).pkts, ¬ (x.idx = j.pkt ∧ x.type = 0)) ∧
      (∀ d < s.dies, (∀ l ∈ (t.dieAt d).leases, l.ctx ≠ j.ctx) ∧ ∀ n, ¬ ((cget (t.dieAt d).map0 n).getLsbD 63 = true ∧ (cget (t.dieAt d).map0 n).toNat / 2 ^ 52 % 2 ^ 7 = j.ctx)) ∧
      (∀ d < s.dies, ∀ x ∈ (s.dieAt d).unacked, (if x.from_.ctx = j.ctx then { x with from_ := { x.from_ with ctx := 128 } } else x) ∈ (t.dieAt d).unacked) ∧
      (∀ k ∈ j.clusters, ∀ x ∈ (t.clusterAt k.1 k.2).ctxs, x.ctx ≠ j.ctx) ∧
      (names s → ¬ names t → ∀ d < s.dies, cget (t.dieAt d).keys j.ctx = 0) ∧
      (∀ id ∈ j.cores, (t.coreAt id).holds j.ctx = false ∧ ∀ e ∈ (s.coreAt id).effects, e.ctx ≠ j.ctx → e ∈ (t.coreAt id).effects) ∧
      ∀ id, id ∉ j.cores → t.coreAt id = s.coreAt id

/-- R361–R363, R365, R441, R442: the statements above on the checks of a LAUNCH, on what it creates, and on the end of its job, together. -/
def Obligations.LaunchAndJobEnd : Prop := launchAnswers ∧ launchEffects ∧ jobEnds

/-- An aperture access at these offsets reaches memory (R351, R352): the function launched the context that CTX names, and every byte hits with the permission. -/
def reaches (s : State) (fn c : Nat) (wr : Bool) (offs : List Nat) : Prop :=
  let m := (s.fnAt fn).mbx.toNat
  c = m % 2 ^ 7 ∧ (∃ j, s.jobOf c = some j ∧ j.fn = fn) ∧
  ∀ o ∈ offs, o < 2 ^ 26 ∧ ∃ h, hbmLookup (s.leaseDie c) c (m / 2 ^ 26 % 2 ^ 22 * 2 ^ 26 + o) = some h ∧ (if wr then h.wr = true else h.rd = true)
/-- Where an aperture offset lies in device memory (R351). -/
def apertureAt (s : State) (fn o : Nat) : Nat := (s.fnAt fn).mbx.toNat / 2 ^ 26 % 2 ^ 22 * 2 ^ 26 + o

/-- R85, R351, R352, R368: a mailbox write that hits is performed and one that misses is discarded whole and sets ERR; a mailbox read answers its bytes or Unsupported Request; a
host read that fails comes back marked, a timeout is reported and its late completion discarded; at the end of a quantum the slots take up to 32 pending
queues, those of higher priority first, and among equals those longest out of a slot; the host port sends one posted write or interrupt message at a time, none before an earlier one of its class from its die (R336, R338), nor of its packet (R360). That classes are ordered die by
die is the model's reading of R339 (log 10); the range of a quantum is that of log 62, the die whose map the aperture uses that of log 63, and a mailbox access is performed at once (log 11). -/
def mailboxAndMapper : Prop :=
  (∀ (s : State) (fn : Nat), s.host.up = true → fn < 128 →
    (∀ off, exec (.mailboxWrite fn off []) s = .next s) ∧
    (∀ off bytes, bytes ≠ [] → let offs := bytes.map (fun b => off + b.1)
      (∀ c, reaches s fn c true offs → exec (.mailboxWrite fn off bytes) s =
        .next { s with modul := hbmWrite s.modul (s.leaseDie c) c (bytes.map (fun b => (apertureAt s fn (off + b.1), b.2))) (fun _ => false) }) ∧
      ((∀ c, ¬ reaches s fn c true offs) → ∃ t, exec (.mailboxWrite fn off bytes) s = .next t ∧ t.fnAt fn = { s.fnAt fn with mbx := (s.fnAt fn).mbx ||| 0x100 } ∧
        { t with host := s.host } = s)) ∧
    (∀ off len, let offs := (List.range len).map (fun i => off + i)
      (∀ c, reaches s fn c false offs → exec (.mailboxRead fn off len) s = .next { s with host := { s.host with mailboxOut := s.host.mailboxOut ++
        [some (offs.map (fun o => (hbmRead s.modul (s.leaseDie c) c (apertureAt s fn o)).1),
               offs.any (fun o => (hbmRead s.modul (s.leaseDie c) c (apertureAt s fn o)).2))] } }) ∧
      ((∀ c, ¬ reaches s fn c false offs) → exec (.mailboxRead fn off len) s = .next { s with host := { s.host with mailboxOut := s.host.mailboxOut ++ [none] } })) ∧
    (∀ iova len, 0 < len → iova + len ≤ 2 ^ 64 → let marked := fun (t : State) => (∀ i < len, t.hostBad fn (iova + i) 1 = true) ∧
        { t with host := s.host } = s ∧ t.host.mem = s.host.mem
      (∀ e, ∃ t, exec (.hostReadErrorCompletion fn iova len e) s = .next t ∧ marked t ∧ t.host.aer = s.host.aer) ∧
      (∃ t, exec (.completionTimeout fn iova len) s = .next t ∧ marked t ∧ t.host.aer = s.host.aer ++ [.completionTimeout] ∧ (fn, iova, len) ∈ t.host.timedOut) ∧
      ((fn, iova, len) ∈ s.host.timedOut → exec (.unexpectedCompletion fn iova len) s =
        .next { s with host := { s.host with timedOut := s.host.timedOut.erase (fn, iova, len) } }))) ∧
  (∀ s : State, s.host.up = true → s.host.quantumStart + s.host.quantum ≤ s.sched.now →
    let pri := fun (f : Nat × Nat) => (s.queueAt f.1 f.2).pri.toNat
    ∃ t, exec .quantumExpiry s = .next t ∧ { t with host := s.host } = s ∧ t.host.quantumStart = s.sched.now ∧ t.host.slots.length = min 32 s.pendingQueues.length ∧
      (∀ f ∈ t.host.slots, f ∈ s.pendingQueues) ∧
      (∀ f ∈ s.pendingQueues, let k := s.queueAt f.1 f.2; k.state = .running ∨ ∃ p ∈ k.pkts, p.started = true) ∧
      ∀ f ∈ s.pendingQueues, f ∉ t.host.slots → ∀ g ∈ t.host.slots, pri f < pri g ∨ pri f = pri g ∧ s.host.lastIn g ≤ s.host.lastIn f) ∧
  (∀ s : State, s.boot.powered = true → s.boot.failed = none → s.sched.turn = .host → s.host.up = true → s.host.posted ≠ [] →
    ∃ u t w, step s = .next u ∧ { u with sched := s.sched } = t ∧ w ∈ s.host.posted ∧
      (∀ x ∈ s.host.posted.takeWhile (fun x => x.uid ≠ w.uid), ¬ (x.cls = w.cls ∧ x.die = w.die) ∧ (x.pkt ≠ none → x.pkt ≠ w.pkt)) ∧
      t.host.msix = s.host.msix ++ (w.vec.map (fun v => (w.fn, v))).toList ∧
      t.host.posted = s.host.posted.filter (fun x => x.uid ≠ w.uid) ∧ t.host.mem = csetList s.host.mem (w.bytes.map (fun p => (hostKey w.fn p.1, p.2))) ∧
      (w.core = none → { t with host := s.host } = s) ∧ ∀ id, w.core = some id → ∀ e ∈ (t.coreAt id).effects, e.uid ≠ w.uid)

/-- The module after its running state is lost (R22, R399, R404, R405): the fuses, the bring-up record, what bring-up found and the host's memory stay. -/
def wentDark (s t : State) : Prop :=
  t.boot.powered = false ∧ t.modul.jobs = [] ∧ t.boot.fuses = s.boot.fuses ∧ t.boot.half0 = s.boot.half0 ∧ t.boot.half1 = s.boot.half1 ∧ t.boot.shape = s.boot.shape ∧
  t.modul.caps = s.modul.caps ∧ t.modul.torus = s.modul.torus ∧ t.host.mem = s.host.mem ∧ t.host.functions = [] ∧ t.host.up = false ∧ t.modul.hbm = [] ∧
  t.boot.trained = s.boot.trained ∧ t.boot.onCycles = s.boot.onCycles + s.sched.now ∧
  (∀ id, t.coreAt id = Core.reset id) ∧ t.sched.events = s.sched.events
/-- R401: what a start records for a unit: a stored PASS or FENCED with an equal hash stands; otherwise what trying it under its methods came to. -/
def recordedAs (old : List RecordEntry) (hash : BitVec 128) (step unit : Nat) (tried : UnitResult) (e : RecordEntry) : Prop :=
  let kept := fun (o : RecordEntry) => (o.out = 1 ∨ o.out = 3) ∧ o.hash = hash
  (∀ o, old.find? (fun x => x.step = step && x.unit = unit) = some o → kept o → e = o) ∧
  ((∀ o, old.find? (fun x => x.step = step && x.unit = unit) = some o → ¬ kept o) →
    e.step = step ∧ e.unit = unit ∧ e.hash = hash ∧
    match tried with
    | .pass0 => e.meth = 0 ∧ e.fails = 0 ∧ e.out = 1
    | .pass1 => e.meth = 1 ∧ e.fails = 1 ∧ e.out = 1
    | .fenced => e.out = 3 ∧ e.fails = (if step = 1 ∨ step = 4 then 1 else 2))

/-- A copy of an image passes the boot ROM's checks (R397): its key, its signature, its security version. -/
def verified (r : Nat) (c : ImageCopy) : Prop :=
  (Config.shake256 c.key).setWidth 256 = Config.keyDigest ∧ Config.mldsaVerify c.key c.bytes (stringBytes "Zalit image") c.signature = true ∧ r ≤ Config.imageVersion c.bytes
/-- Image n of what flash holds has a copy that runs: the first that verifies. -/
def runs (b : Bringup) (r n : Nat) (c : ImageCopy) : Prop :=
  ∃ p, b.images[n]? = some p ∧ (verified r p.1 ∧ c = p.1 ∨ ¬ verified r p.1 ∧ verified r p.2 ∧ c = p.2)
/-- What a failed start leaves: power, the cause, and everything else as it was (R397, R398, R409). -/
def startFails (s : State) (f : BootFailure) (t : State) : Prop :=
  t.boot.powered = true ∧ t.boot.failed = some f ∧ t.modul = s.modul ∧ t.boot.half0 = s.boot.half0 ∧ t.boot.half1 = s.boot.half1 ∧ t.boot.fuses = s.boot.fuses
/-- R397–R399, R401, R402, R409: a start. Of each image the first copy that verifies runs; an image with none, a failed step 1 or a failed write of the record stops the start with
that cause. The record's other half takes this start's entries with the next generation; the torus is the stored one where step 4's stored result stands, else what cable discovery found; G is halved for each cluster that passed under method 1. -/
def powerComes : Prop :=
  ∀ (s : State) (b : Bringup), s.boot.powered = false → let r := s.boot.fuses[0]
    (∀ n < 7, (∀ c, ¬ runs b r n c) → (∀ m < n, ∃ c, runs b r m c) → ∃ t, exec (.powerOn b) s = .next t ∧ startFails s (.image n) t ∧ t.boot.images = s.boot.images ∧
      ∀ fn off, t.readBar0 fn off = if fn = 0 then some 0 else none) ∧
    ((∀ n < 7, ∃ c, runs b r n c) → let es := bringupEntries b ((measuresOf b r).headD 0) s.boot.stored; let n := variantDies b.variant
      let images := fun (t : State) => ∀ n < 7, ∀ c, runs b r n c → t.boot.images[n]? = some (Config.shake256 c.bytes) ∧ r ≤ t.boot.version ∧ t.boot.version ≤ Config.imageVersion c.bytes
      ((∃ i < 7, resultOf es 1 i = .fenced) → ∃ t, exec (.powerOn b) s = .next t ∧ startFails s .step1 t ∧ images t ∧ ∀ fn off, t.readBar0 fn off = none) ∧
      ((∀ i < 7, resultOf es 1 i ≠ .fenced) → b.recordOk = true → ∃ t, exec (.powerOn b) s = .next t ∧ t.boot.powered = true ∧ t.boot.failed = none ∧ images t ∧
        t.boot.starts = s.boot.starts + 1 ∧ t.boot.fuses = s.boot.fuses ∧ t.boot.counter = r ∧ t.boot.stored = es ∧ t.boot.generation = s.boot.generation + 1 ∧
        (s.boot.half0.valid = true → s.boot.inForce = some s.boot.half0 → t.boot.half0 = s.boot.half0) ∧
        t.boot.shape = (t.modul.torus, t.modul.origin) ∧
        (∀ e, es.find? (fun x => x.step = 4 && x.unit = 0) = some e → t.boot.shape =
          if e.out = 3 then ((1, 1, 1), (0, 0, 0)) else if e ∈ s.boot.stored then s.boot.shape else (b.shape.getD (1, 1, 1), b.origin)) ∧
        t.modul.caps.dies.toNat = n ∧ t.modul.caps.var = b.variant ∧ t.modul.jobs = s.modul.jobs ∧
        (∀ d < 4, (t.modul.caps.ncl.toList.getD d 0).toNat = if d < n then ((List.range 12).filter (fun c => resultOf es 6 (4096 * d + c) ≠ .fenced)).length else 0) ∧
        (∀ d < n, (t.dieAt d).dt = max 256 (min 65535 b.threshold) ∧
          (t.dieAt d).gustG = (fun g => max 1 (g / 2))^[((List.range 12).filter (fun c => resultOf es 6 (4096 * d + c) = .pass1)).length] (max 1 (min 12 (b.platform.gustG.getD 4)))) ∧
        (resultOf es 5 0 = .fenced ↔ t.host.up = false)) ∧
      ((∀ i < 7, resultOf es 1 i ≠ .fenced) → b.recordOk = false → ∃ t, exec (.powerOn b) s = .next t ∧ t.boot.failed = some .record ∧ t.boot.stored = s.boot.stored ∧
        ∀ fn off, t.readBar0 fn off = none))
/-- R95, R201: an uncorrectable error in a scratchpad, a slot or a tile marks its unit and nothing of another. That an error comes about in a turn of its own is the model's (log 65). -/
def memoryErrors : Prop :=
  ∀ (s : State) (u : Upset) (rest : List Upset), s.boot.powered = true → s.boot.failed = none → s.sched.turn = .cells → s.sched.upsets = u :: rest →
    ∃ t, step s = .next t ∧ t.sched.upsets = rest ∧ SameBytes s t ∧ match u with
      | .spad id n => id ∈ s.coreIds → n < 65536 → ∀ j m, cget (t.coreAt j).poison m = if j = id ∧ m = n then 1 else cget (s.coreAt j).poison m
      | .slot d c n i => n < 32 → i < 2048 → c < s.ncl d → ∀ m j, cget ((t.clusterAt d c).slot m).errors j = if m = n ∧ j = i then 1 else cget ((s.clusterAt d c).slot m).errors j
      | .tile d c n i => n < 48 → i < 4096 → c < s.ncl d → ∀ m j, cget ((t.clusterAt d c).tile m).poison j = if m = n ∧ j = i then 1 else cget ((s.clusterAt d c).tile m).poison j

/-- R22, R89, R91, R399, R401, R404, R405, R409: power. A start takes each unit's stored result or tries it; after a failed one a request of the host gets Unsupported Request; a loss of power,
a reset or 115 °C ends everything that runs; hold withholds tokens and counts its entries and exits; the scrubber counts what it finds, marks what it cannot correct and reports its
address; without power nothing runs. What the words leave open follows logs 64, 65, 87 and 94. -/
def powerAndBringup : Prop :=
  powerComes ∧ memoryErrors ∧
  (∀ (old : List RecordEntry) (h : BitVec 128) (step unit : Nat) (r : UnitResult), recordedAs old h step unit r (decideUnit old h step unit r)) ∧
  (∀ s : State, s.boot.powered = true →
    (∃ t, exec .powerLoss s = .next t ∧ wentDark s t) ∧ (∃ t, exec .moduleReset s = .next t ∧ wentDark s t) ∧
    ∀ d < s.dies, ∃ t, exec (.thermalShutdown d) s = .next t ∧ wentDark s t) ∧
  (∀ s : State, s.boot.powered = false → s.sched.events = [] → step s = .fault .unpowered) ∧
  (∀ (s : State) (e : Instr) (rest : List Instr), s.boot.powered = true → s.boot.failed ≠ none → s.sched.events = e :: rest → hostRequest e = true →
    ∃ t, step s = .next t ∧ t.host = { s.host with unsupported := s.host.unsupported + 1 } ∧ t.modul = s.modul ∧ t.boot = s.boot ∧ t.sched.events = rest) ∧
  (∀ (s : State) (n : Nat), s.boot.failed = some (.image n) → s.sideband.bootImage = some n) ∧
  (∀ (s : State) (d : Nat), d < s.dies → let k := s.dieAt d; let g := k.gustG
    let level := fun (t : State) (l n : Nat) => (t.dieAt d).thermal = l ∧ (t.dieAt d).holdCount = k.holdCount + 1 ∧ (t.dieAt d).gustG = g ∧
      (t.dieAt d).gustFree.length = n - k.gustHeld ∧ ∀ id, t.coreAt id = s.coreAt id
    (k.thermal = 0 → ∃ t, exec (.thermalHold d) s = .next t ∧ level t 1 (g - g / 2)) ∧
    (k.thermal < 2 → ∃ t, exec (.thermalSingleToken d) s = .next t ∧ level t 2 1) ∧
    (k.thermal = 1 → ∃ t, exec (.exitFromHold d) s = .next t ∧ level t 0 g) ∧
    (k.thermal = 2 → ∃ t, exec (.exitFromHold d) s = .next t ∧ level t 1 (g - g / 2))) ∧
  (∀ (s : State) (unit : Nat), let d := unit / 2 ^ 32
    unit % 2 ^ 32 / 32768 < s.pagesOf d → let i := s.stackOf d unit; let k := s.dieAt d
    exec (.patrolScrub unit .clean) s = .next s ∧
    (∃ t, exec (.patrolScrub unit .corrected) s = .next t ∧ ((t.dieAt d).corrected[i]).toNat = min (k.corrected[i].toNat + 1) (2 ^ 32 - 1) ∧ t.modul = s.modul ∧ SameBytes s t) ∧
    (∃ t, exec (.patrolScrub unit .uncorrectable) s = .next t ∧ ((t.dieAt d).uncorrected[i]).toNat = min (k.uncorrected[i].toNat + 1) (2 ^ 32 - 1) ∧
      t.modul.reports = s.modul.reports ++ [.uncorrectable (64 * unit)] ∧ cget t.modul.hbmPoison unit = 1 ∧ (∀ u, u ≠ unit → cget t.modul.hbmPoison u = cget s.modul.hbmPoison u) ∧
      t.host.aer = s.host.aer ++ [.uncorrectableInternal] ∧ SameBytes s t))

/-- R86, R397, R407, R408: a wrapped key whose tag holds is loaded on every die, unless a locked lease names its slot; a wrap whose tag fails, or whose two keys are equal, changes nothing; fuses are blown
up to the running images' version and never back; a report holds its fields at their offsets, the counter and the measurements being those of this start, under a signature of 3,309 bytes.
How the services answer is the model's (DESIGN CHOICE, log 71), and so are the width of k in the wrap's messages (log 104) and that an update blows every die's counter and the identity comes from
die 0's secret (log 105). -/
def keysAndAttestation : Prop :=
  (∀ (s : State) (ct : List Byte) (ctx : Nat) (w : BitVec 512) (tag : BitVec 128),
    let k := Config.mlkemDecaps s.boot.starts ct
    let pair := Config.kmac256 k (numBytes 1 ctx) 512 (stringBytes "Zalit key") ^^^ w
    let good := (Config.kmac256 k (numBytes 1 ctx ++ numBytes 64 w.toNat) 128 (stringBytes "Zalit key tag")).setWidth 128 = tag ∧
      pair.setWidth 256 ≠ (pair >>> 256).setWidth 256
    (good → ctx < 128 → s.slotNamed ctx = false → ∃ t, exec (.keyDelivery ct ctx w tag) s = .next t ∧ SameBytes s t ∧ t.boot = s.boot ∧
      ∀ d < s.dies, ∀ n, cget (t.dieAt d).keys n = if n = ctx then pair else cget (s.dieAt d).keys n) ∧
    (¬ good ∨ s.slotNamed ctx = true → exec (.keyDelivery ct ctx w tag) s = .next s)) ∧
  (∀ (s : State) (v : Nat),
    (v ≤ s.boot.version → v ≤ 64 → ∃ f, exec (.antiRollbackUpdate v) s = .next { s with boot := { s.boot with fuses := f } } ∧
      ∀ i : Fin 4, f[i] = if i.val < s.dies then max s.boot.fuses[i] v else s.boot.fuses[i]) ∧
    (s.boot.version < v ∨ 64 < v → exec (.antiRollbackUpdate v) s = .next s)) ∧
  (∀ (s : State) (nonce : BitVec 256), ∃ r, exec (.attestationRequest nonce) s = .next { s with boot := { s.boot with report := r } } ∧
    let field := fun (off n : Nat) => (r.drop off).take n
    r.length = 0xA20 + 3309 ∧ field 0 8 = numBytes 8 1 ∧ field 8 32 = numBytes 32 nonce.toNat ∧ field 0x28 8 = numBytes 8 (s.capsWord.toNat % 2 ^ 63) ∧
    field 0x30 4 = numBytes 4 s.boot.counter ∧ field 0x34 4 = numBytes 4 s.boot.version ∧
    (∀ i < 7, field (0x38 + 64 * i) 64 = numBytes 64 (s.boot.images.getD i 0).toNat) ∧ field 0x238 8 = numBytes 8 s.boot.generation ∧
    (∀ h, s.boot.inForce = some h → field 0x1F8 64 = numBytes 64 (Config.shake256 h.bytes).toNat) ∧ field 0x240 1184 = fixedBytes 1184 (Config.mlkemPublic s.boot.starts) ∧
    field 0x6E0 832 = List.replicate 832 0 ∧
    r.drop 0xA20 = fixedBytes 3309 (Config.mldsaSign identitySeed (r.take 0xA20) (stringBytes "Zalit attest")))

/-- R6, R85, R336, R338, R350–R352, R354, R356, R357, R368, R441: the statements above on this, together. -/
def Obligations.HostRegistersMailboxAndMapper : Prop := hostRegisters ∧ registerReads ∧ mailboxAndMapper

/-- R22, R86, R89, R91, R95, R201, R281, R397–R399, R401, R402, R404, R405, R407–R409: the statements above on this, together. -/
def Obligations.PowerKeysAndAttestation : Prop := powerAndBringup ∧ keysAndAttestation

/-! ## The whole machine -/

/-- R20, R94, R288, R350, R357, R372, R373, R402: after reset no job exists and nothing runs: the control registers read their reset values, `CR_CAPS` reads what a healthy ZL-4X reads, windows are
unmapped with an allowance of 64, no function has a queue, memory lists nothing and all of it is in canonical form, and the model's invariants hold. That the module is a healthy
ZL-4X is the model's choice (DESIGN CHOICE, log 5), as are the values that the spec does not give (DESIGN CHOICE, logs 7 to 10). -/
def Obligations.ResetState : Prop :=
  let s := State.reset
  s.boot.failed = none ∧ s.memWf = true ∧ s.boot.ordered = true ∧ s.placed ∧ s.modul.hbm = [] ∧ s.host.mem = [] ∧ s.modul.jobs = [] ∧ s.capsWord = 0x418084C0CCCCFF00 ∧
  (∀ fn, (s.fnAt fn).qn = 0 ∧ (s.fnAt fn).mbx = 0 ∧ ∀ q, (s.queueAt fn q).state = .disabled) ∧
  ∀ id, let c := s.coreAt id
    c.run = .none ∧ c.status.cv = false ∧ c.status.mode = false ∧ c.cr.cpol = 0xC0C0 ∧ c.cr.fpctl = 0 ∧ c.cr.fpstat = 0 ∧ c.cr.fpen = 0 ∧ c.cr.tvec = 0 ∧
    c.bufs = [] ∧ c.builder = none ∧ c.inbox = [] ∧ c.spad = [] ∧
    ∀ i : Fin 16, c.windows[i].map = none ∧ c.windows[i].alw = 64 ∧ c.windows[i].out = 0 ∧ c.windows[i].den = false

/-- R52, R58–R61: words that the spec writes out, and the instructions they stand for; reserved bits, majors with no row, and a vector word on a control core stand for none. -/
def Obligations.KnownWords : Prop :=
  decodeControl 0x0000C01000000003 = some (.li ⟨4, 3⟩) ∧
  decodeControl 0x0000401451000000 = some (.add ⟨5, 5, 4⟩) ∧
  decodeControl 0x008080104FFFFFFF = some (.addi ⟨4, 4, -1⟩) ∧
  decodeControl 0x000601100FFFFFFE = some (.bne ⟨4, 0, -2⟩) ∧
  decodeControl 0x00048030A28B0000 = some (.fma ⟨12, 10, 10, 11, 0, 0⟩) ∧
  decodeControl 0x0008011C95C00100 = some (.st ⟨7, 9, 5, 3, false, 0x100⟩) ∧
  decodeControl 0x000F400C00400300 = some (.mmaBf16 ⟨3, 0, 1, 0, 0⟩) ∧
  decodeControl 0x000E00014010C700 = some (.cpBox ⟨0, 20, 0, false, true, 0, 3, 7⟩) ∧
  decodeControl 0x0013410060000008 = some (.crw ⟨0, 6, 8⟩) ∧
  decodeVector 0x0020802218409100 = some (.vfadd ⟨8, 33, 33, 0, 9, 1, false, 0, false, 0⟩) ∧
  decodeControl 0x0020802218409100 = none ∧ decodeControl 1 = none ∧ decodeControl 0x0002400000000000 = none

/-- R48, R60, R61, R163, R220: a step runs the decoded instruction. A running core with nothing to take before it executes the word that its PC names; a word that decodes to nothing faults with `ILLEGAL_OP`, and a
fetch that its checks refuse takes their fault; a vector engine with nothing to land and no hold issues its next word; the step then moves only the schedule. -/
def Obligations.StepRunsTheDecoded : Prop :=
  ∀ (s : State), s.boot.powered = true → s.boot.failed = none →
    let after := fun (o : Host.Outcome State Fault Refusal) => match o with
      | .next t => ∃ u, step s = .next u ∧ { u with sched := t.sched } = t ∧ u.sched.events = t.sched.events ∧ u.sched.tick = t.sched.tick + 1 ∧ t.sched.now < u.sched.now
      | o => step s = o
    (s.sched.turn = .core → s.core.run = .running → s.core.await = none → s.core.stall = none → s.core.sketch = none → s.core.skIssue = none → s.core.saving = false →
      (s.core.dueFault = none ∨ s.core.status.td = true) → (s.core.status.td = true ∨ s.core.status.ie = false ∨
        (s.core.status.im.getLsbD 0 = false ∨ s.core.status.ipp = false) ∧ (s.core.status.im.getLsbD 1 = false ∨ s.core.status.ipc = false) ∧
        (s.core.status.im.getLsbD 2 = false ∨ s.core.inbox = [])) →
      (∀ w i, fetch s = .ok w → decodeControl w = some i → after (exec i s)) ∧
      (∀ w, fetch s = .ok w → decodeControl w = none → after (.next (s.takeFault { cause := .illegalOp }))) ∧
      (∀ f, fetch s = .fault f → after (.next (s.takeFault f))) ∧
      (∀ w, fetch s = .stall w → after (.next (s.stalled w)))) ∧
    (∀ r w i, s.sched.turn = .vector → s.core.vec.run = some r → r.body[r.next]? = some w → r.held = false → (∀ f ∈ r.flights, r.issueAt r.next < f.landAt) →
      decodeVector w = some i → after (exec i s))

/-- R47, R52, R58, R59: decoding an encoded instruction gives it back, with every operand and every gap; a word that decodes stands for one well-formed instruction, and is its encoding. -/
def Obligations.DecodeOfEncode : Prop :=
  (∀ (gap : BitVec 10) (i : Instr) (w : Word), i.wf = true → encode gap i = some w → decode w = some i) ∧
  (∀ (w : Word) (i : Instr), decode w = some i → i.wf = true ∧ encode (gapOf w) i = some w)

/-- R22, R397, R399: from every state in which it holds, a step keeps the anti-rollback order; the fuses never unblow, and the capabilities, the module's place and the bring-up record change only in a new start. -/
def Obligations.FusesAndFindings : Prop :=
  KeptByStep (fun s => s.boot.ordered = true) ∧
  ∀ s t, step s = .next t → (∀ i : Fin 4, s.boot.fuses[i] ≤ t.boot.fuses[i]) ∧ s.boot.starts ≤ t.boot.starts ∧
    (t.boot.starts = s.boot.starts → t.modul.caps = s.modul.caps ∧ t.modul.torus = s.modul.torus ∧ t.modul.origin = s.modul.origin ∧
      t.modul.physical = s.modul.physical ∧ t.boot.half0 = s.boot.half0 ∧ t.boot.half1 = s.boot.half1)

/-- Every byte store keeps its canonical form in every step: scratchpads, palette slots with their side stores, accumulator tiles, what saves and checkpoints hold of them, HBM and host
memory, and the marks of each. The form is the model's own: equal memories are equal data. -/
def Obligations.MemoryStaysCanonical : Prop := KeptByStep (fun s => s.memWf = true)

/-- R12: the acting core stays in its own cluster and on its own die in every step. How the model holds a module's parts is its own. -/
def Obligations.CoreStaysPlaced : Prop := KeptByStep State.placed

/-- R441 (with R374, R377): no instruction in U mode changes a core's `CR_TVEC`, `CR_SCR` or `CR_CYCCMP`, nor IM of its `CR_STATUS`. IE, PIE and PM change in two ways only, neither of them a write of the code: the
instruction's own trap enters the handler, which keeps IE in PIE and clears it (R377); and a RETRY at job level restores a checkpoint, whose cores go on with IE as PIE holds it (R391; how a core goes on is
DEDUCED, log 88). -/
def Obligations.UserModeKeepsPrivilegedRegisters : Prop :=
  ∀ (i : Instr) (s t : State) (id : CoreId), s.core.status.mode = false → opcodeOf i ≠ none → exec i s = .next t →
    let old := (s.coreAt id).status
    let new := (t.coreAt id).status
    ((t.coreAt id).cr.tvec = (s.coreAt id).cr.tvec ∧ (t.coreAt id).cr.scr = (s.coreAt id).cr.scr ∧ (t.coreAt id).cr.cyccmp = (s.coreAt id).cr.cyccmp ∧ new.im = old.im) ∧
    ((new.ie = old.ie ∧ new.pie = old.pie ∧ new.pm = old.pm) ∨
     (id = s.core.id ∧ (t.coreAt id).pc = s.core.cr.tvec.setWidth 32 ∧ new.mode = true ∧ new.td = true ∧ new.pm = false ∧ new.pie = old.ie ∧ new.ie = false) ∨
     (new.ie = old.pie ∧ new.pie = old.pie ∧ new.pm = old.pm ∧ new.mode = false ∧ ∃ j ∈ s.modul.jobs, j.checkpoints.any (fun p => p.1 == id) = true))

/-- R55, R137: what the states that the instructions' statements name leave alone, said register by register and byte by byte: s0 reads zero and is never written; of the other registers
only the destination changes; every byte of memory and everything outside the core is as before. -/
def Obligations.WritesLeaveTheRest : Prop :=
  ∀ (s : State) (d : Reg) (v w : Word) (f : BitVec 7) (pc : BitVec 32),
    let only := fun (t : State) => (∀ r, r ≠ d → t.rd r = s.rd r) ∧ t.rd 0 = 0 ∧ (d ≠ 0 → t.rd d = v) ∧ SameBytes s t ∧ SameOutside s t ∧
      t.core.status = s.core.status ∧ t.core.bufs = s.core.bufs ∧ t.core.streams = s.core.streams ∧ t.core.windows = s.core.windows ∧ t.core.flags = s.core.flags ∧
      t.core.vec = s.core.vec ∧ t.core.inbox = s.core.inbox ∧ t.core.effects = s.core.effects
    (only (s.afterWrite d v) ∧ (s.afterWrite d v).core.cr = s.core.cr ∧ (s.afterWrite d v).core.pc = s.core.pc + 8) ∧
    (only (s.afterFlags d v f) ∧ (s.afterFlags d v f).core.cr = { s.core.cr with fpstat := s.core.cr.fpstat ||| f } ∧ (s.afterFlags d v f).core.pc = s.core.pc + 8) ∧
    (only (s.afterJump d v pc) ∧ (s.afterJump d v pc).core.cr = s.core.cr ∧ (s.afterJump d v pc).core.pc = pc) ∧
    ((∀ r, s.afterNext.rd r = s.rd r) ∧ SameBytes s s.afterNext ∧ SameOutside s s.afterNext ∧ s.afterNext.core.cr = s.core.cr) ∧
    (∀ r, r ≠ d → r ≠ d + 1 → (s.afterPair d v w).rd r = s.rd r) ∧ SameBytes s (s.afterPair d v w) ∧ SameOutside s (s.afterPair d v w)
end

