-- ==== Sys2Proof/Laws/FixedBase.lean ====
section
/-! SUPPORT. The part of a state that only bring-up, power, fuses and reports change, and what it means that an outcome, a check
or a fold keeps it. -/

namespace Sys2Proof.Machine
/-- What no step changes but those of bring-up, power, fuses and reports: the boot state, the capabilities and the module's
place in its system (R22, R397, R399). -/
structure Fixed where
  boot : Boot
  caps : Caps
  torus : Nat × Nat × Nat
  origin : Nat × Nat × Nat
  physical : List (List Nat)
/-- That part of a state. -/
def State.fixed (s : State) : Fixed := ⟨s.boot, s.modul.caps, s.modul.torus, s.modul.origin, s.modul.physical⟩
/-- An outcome that is a next state has that part. -/
structure KeepsOut (x : Fixed) (o : Out) : Prop where
  h : ∀ t, o = .next t → t.fixed = x
/-- Every value a check can come to has a property. -/
structure ResAll {α : Type} (P : α → Prop) (o : Res α) : Prop where
  h : ∀ t, o = .ok t → P t
@[simp] theorem keepsOut_next (x t) : KeepsOut x (.next t) ↔ t.fixed = x := ⟨fun h => h.1 t rfl, fun h => ⟨fun _ e => by cases e; exact h⟩⟩
@[simp] theorem keepsOut_absent (x e) : KeepsOut x (absent e) := ⟨fun _ e => by simp [absent] at e⟩
@[simp] theorem keepsOut_refused (x e) : KeepsOut x (.refused e) := ⟨fun _ e => by simp at e⟩
@[simp] theorem keepsOut_fault (x e) : KeepsOut x (.fault e) := ⟨fun _ e => by simp at e⟩
@[simp] theorem resAll_ok {α} (P : α → Prop) (t) : ResAll P (.ok t) ↔ P t := ⟨fun h => h.1 t rfl, fun h => ⟨fun _ e => by cases e; exact h⟩⟩
@[simp] theorem resAll_fault {α} (P : α → Prop) (e) : ResAll P (.fault e) := ⟨fun _ e => by simp at e⟩
@[simp] theorem resAll_stall {α} (P : α → Prop) (e) : ResAll P (.stall e) := ⟨fun _ e => by simp at e⟩
theorem resAll_bind {α β} (P : β → Prop) (r : Res α) (f : α → Res β) (h : ∀ a, ResAll P (f a)) : ResAll P (r.bind f) := by
  cases r with
  | ok a => exact h a
  | fault f => simp [Res.bind]
  | stall w => simp [Res.bind]
theorem resAll_bind2 {α β} (Q : α → Prop) (P : β → Prop) (r : Res α) (f : α → Res β) (hq : ResAll Q r) (h : ∀ a, Q a → ResAll P (f a)) : ResAll P (r.bind f) := by
  cases r with
  | ok a => exact h a (hq.1 a rfl)
  | fault f => simp [Res.bind]
  | stall w => simp [Res.bind]
@[simp] theorem fixed_mk (c p k pk d pd m h s sc) (hm : m.caps = s.modul.caps ∧ m.torus = s.modul.torus ∧ m.origin = s.modul.origin ∧ m.physical = s.modul.physical) :
    (State.mk c p k pk d pd m h (State.boot s) sc).fixed = s.fixed := by
  obtain ⟨h1, h2, h3, h4⟩ := hm
  simp only [State.fixed, h1, h2, h3, h4]
theorem foldl_fixed {α} (l : List α) (g : State → α → State) (h : ∀ s a, (g s a).fixed = s.fixed) (s : State) : (l.foldl g s).fixed = s.fixed := by
  induction l generalizing s with
  | nil => rfl
  | cons a l ih => rw [List.foldl_cons, ih, h]
@[simp] theorem hbmWriteUnit_caps (m k u ws bad) : (hbmWriteUnit m k u ws bad).caps = m.caps ∧ (hbmWriteUnit m k u ws bad).torus = m.torus ∧ (hbmWriteUnit m k u ws bad).origin = m.origin ∧ (hbmWriteUnit m k u ws bad).physical = m.physical := by
  unfold hbmWriteUnit; dsimp only; (repeat' split) <;> simp
theorem foldl_modul {α} (l : List α) (g : Modul → α → Modul) (h : ∀ s a, (g s a).caps = s.caps ∧ (g s a).torus = s.torus ∧ (g s a).origin = s.origin ∧ (g s a).physical = s.physical) (m : Modul) :
  (l.foldl g m).caps = m.caps ∧ (l.foldl g m).torus = m.torus ∧ (l.foldl g m).origin = m.origin ∧ (l.foldl g m).physical = m.physical := by
  induction l generalizing m with
  | nil => simp
  | cons a l ih => rw [List.foldl_cons]; have := ih (g m a); have h2 := h m a; simp_all
@[simp] theorem hbmWrite_caps (m d c ws bad) : (hbmWrite m d c ws bad).caps = m.caps ∧ (hbmWrite m d c ws bad).torus = m.torus ∧ (hbmWrite m d c ws bad).origin = m.origin ∧ (hbmWrite m d c ws bad).physical = m.physical := by
  unfold hbmWrite; exact foldl_modul _ _ (fun s a => by simp) m
@[simp] theorem zeroFill_caps (m es) : (zeroFill m es).caps = m.caps ∧ (zeroFill m es).torus = m.torus ∧ (zeroFill m es).origin = m.origin ∧ (zeroFill m es).physical = m.physical := by
  unfold zeroFill; exact foldl_modul _ _ (fun s a => by dsimp only; split <;> simp) m
/-- The state that the end of an atomic carries has that part. -/
def AtomEnd.keeps (x : Fixed) : AtomEnd → Prop
  | .done t => t.fixed = x
  | .waits t => t.fixed = x
/-- The same for a post. -/
def Posted.keeps (x : Fixed) : Posted → Prop
  | .admitted t => t.fixed = x
  | .full => True
/-- The same for a vector word. -/
def VRes.keeps (x : Fixed) : VRes → Prop
  | .done u _ _ => u.fixed = x
  | .hold u => u.fixed = x
  | .fault _ => True
@[simp] theorem atomEnd_done (x t) : AtomEnd.keeps x (.done t) = (t.fixed = x) := rfl
@[simp] theorem atomEnd_waits (x t) : AtomEnd.keeps x (.waits t) = (t.fixed = x) := rfl
@[simp] theorem posted_admitted (x t) : Posted.keeps x (.admitted t) = (t.fixed = x) := rfl
@[simp] theorem posted_full (x) : Posted.keeps x .full = True := rfl
@[simp] theorem vres_done (x u d f) : VRes.keeps x (.done u d f) = (u.fixed = x) := rfl
@[simp] theorem vres_hold (x u) : VRes.keeps x (.hold u) = (u.fixed = x) := rfl
@[simp] theorem vres_fault (x f) : VRes.keeps x (.fault f) = True := rfl

end Sys2Proof.Machine
end

