-- ==== Sys2Proof/Laws/FixedShared.lean ====
section
/-! SUPPORT. Frame lemmas: the shared operations keep the boot state, the capabilities and the place in the system. -/

namespace Sys2Proof.Machine

/-! ## Lens -/

@[simp] theorem updCore_fixed (s) (a1) (a2) : (State.updCore s a1 a2).fixed = s.fixed := by
  unfold State.updCore; (repeat' (first | split | (apply resAll_bind; intro _))) <;> simp
@[simp] theorem updCluster_fixed (s) (a1) (a2) (a3) : (State.updCluster s a1 a2 a3).fixed = s.fixed := by
  unfold State.updCluster; (repeat' (first | split | (apply resAll_bind; intro _))) <;> simp
@[simp] theorem updDie_fixed (s) (a1) (a2) : (State.updDie s a1 a2).fixed = s.fixed := by
  unfold State.updDie; (repeat' (first | split | (apply resAll_bind; intro _))) <;> simp
@[simp] theorem actAs_fixed (s) (a1) : (State.actAs s a1).fixed = s.fixed := by
  unfold State.actAs; split <;> simp
@[simp] theorem updJob_fixed (s) (a1) (a2) : (State.updJob s a1 a2).fixed = s.fixed := by
  unfold State.updJob; simp
@[simp] theorem updFn_fixed (s) (a1) (a2) : (State.updFn s a1 a2).fixed = s.fixed := by
  unfold State.updFn; split <;> simp
@[simp] theorem updQueue_fixed (s) (a1) (a2) (a3) : (State.updQueue s a1 a2 a3).fixed = s.fixed := by
  unfold State.updQueue; simp
@[simp] theorem freshen_fixed (s) : (State.freshen s).fixed = s.fixed := by
  unfold State.freshen; simp
@[simp] theorem wr_fixed (s) (a1) (a2) : (State.wr s a1 a2).fixed = s.fixed := by
  unfold State.wr; simp
@[simp] theorem advance_fixed (s) : (State.advance s).fixed = s.fixed := by
  unfold State.advance; simp
@[simp] theorem goto_fixed (s) (a1) : (State.goto s a1).fixed = s.fixed := by
  unfold State.goto; simp
@[simp] theorem sticky_fixed (s) (a1) : (State.sticky s a1).fixed = s.fixed := by
  unfold State.sticky; simp

/-! ## Memory -/

@[simp] theorem toPort_fixed (s) (a1) : (State.toPort s a1).fixed = s.fixed := rfl
@[simp] theorem seesAll_fixed (s) : (State.seesAll s).fixed = s.fixed := rfl
@[simp] theorem hostWrite_fixed (s) (a1) (a2) : (State.hostWrite s a1 a2).fixed = s.fixed := by
  unfold State.hostWrite; simp
@[simp] theorem hostTaskWrite_fixed (s) (a1) (a2) (a3) (a4) (a5) : (State.hostTaskWrite s a1 a2 a3 a4 a5).fixed = s.fixed := by
  unfold State.hostTaskWrite; dsimp only; (repeat' split) <;> simp
@[simp] theorem ownLoad_fixed (s) (a1) (a2) : (State.ownLoad s a1 a2).1.fixed = s.fixed := by
  unfold State.ownLoad; dsimp only; (repeat' split) <;> simp
@[simp] theorem hostReadDone_fixed (s) (a1) (a2) (a3) : (State.hostReadDone s a1 a2 a3).fixed = s.fixed := by
  unfold State.hostReadDone; simp
@[simp] theorem hostWriteD_fixed (s) (a1) (a2) (a3) : (State.hostWriteD s a1 a2 a3).fixed = s.fixed := by
  unfold State.hostWriteD; simp

/-! ## Tasks -/

@[simp] theorem updCtx_fixed (s) (a1) (a2) (a3) (a4) : (State.updCtx s a1 a2 a3 a4).fixed = s.fixed := by
  unfold State.updCtx; simp
@[simp] theorem orSticky_fixed (s) (a1) (a2) (a3) : (State.orSticky s a1 a2 a3).fixed = s.fixed := by
  unfold State.orSticky; split <;> simp
@[simp] theorem updFlag_fixed (s) (a1) (a2) (a3) (a4) : (State.updFlag s a1 a2 a3 a4).fixed = s.fixed := by
  unfold State.updFlag; dsimp only; (repeat' split) <;> simp
@[simp] theorem raiseFlag_fixed (s) (a1) (a2) (a3) : (State.raiseFlag s a1 a2 a3).fixed = s.fixed := by
  unfold State.raiseFlag; simp
@[simp] theorem prune_fixed (s) (a1) (a2) : (State.prune s a1 a2).fixed = s.fixed := by
  unfold State.prune; simp
@[simp] theorem updSave_fixed (s) (a1) (a2) (a3) : (State.updSave s a1 a2 a3).fixed = s.fixed := by
  unfold State.updSave; simp
@[simp] theorem logTask_fixed (s) (a1) (a2) (a3) (a4) : (State.logTask s a1 a2 a3 a4).fixed = s.fixed := by
  unfold State.logTask; split <;> simp
@[simp] theorem endTask_fixed (s) (a1) (a2) (a3) (a4) : (State.endTask s a1 a2 a3 a4).fixed = s.fixed := by
  unfold State.endTask; dsimp only; (repeat' split) <;> simp
@[simp] theorem completeTask_fixed (s) (a1) (a2) (a3) : (State.completeTask s a1 a2 a3).fixed = s.fixed := by
  unfold State.completeTask; (repeat' split) <;> simp
@[simp] theorem retire_fixed (s) (a1) (a2) (a3) : (State.retire s a1 a2 a3).fixed = s.fixed := by
  unfold State.retire; simp
@[simp] theorem dropPosts_fixed (s) (a1) (a2) : (State.dropPosts s a1 a2).fixed = s.fixed := by
  unfold State.dropPosts; simp
@[simp] theorem stopTask_fixed (s) (a1) (a2) (a3) : (State.stopTask s a1 a2 a3).fixed = s.fixed := by
  unfold State.stopTask; (repeat' split) <;> simp
@[simp] theorem stopTasks_fixed (s) (a1) (a2) (a3) : (State.stopTasks s a1 a2 a3).fixed = s.fixed := by
  unfold State.stopTasks; simp [foldl_fixed]
@[simp] theorem stopCoreTasks_fixed (s) (a1) (a2) : (State.stopCoreTasks s a1 a2).fixed = s.fixed := by
  unfold State.stopCoreTasks; simp

/-! ## Router -/

@[simp] theorem setSpilled_fixed (s) (a1) (a2) (a3) : (State.setSpilled s a1 a2 a3).fixed = s.fixed := by
  unfold State.setSpilled; simp
@[simp] theorem remoteWrite_fixed (s) (a1) (a2) (a3) (a4) (a5) : (State.remoteWrite s a1 a2 a3 a4 a5).fixed = s.fixed := by
  unfold State.remoteWrite; split <;> simp
@[simp] theorem remoteAtomic_fixed (s) (a1) (a2) (a3) (a4) (a5) : (State.remoteAtomic s a1 a2 a3 a4 a5).1.fixed = s.fixed := by
  unfold State.remoteAtomic; dsimp only; split <;> simp
@[simp] theorem hbmAtomic_fixed (s) (a1) (a2) (a3) (a4) : (State.hbmAtomic s a1 a2 a3 a4).1.fixed = s.fixed := by
  unfold State.hbmAtomic; dsimp only; split <;> simp
@[simp] theorem takeMsg_fixed (s) (a1) (a2) (a3) : (State.takeMsg s a1 a2 a3).1.fixed = s.fixed := by
  unfold State.takeMsg; dsimp only; split <;> simp
@[simp] theorem noteRetry_fixed (s) (a1) : (State.noteRetry s a1).fixed = s.fixed := by
  unfold State.noteRetry; split <;> simp
@[simp] theorem queueMsg_fixed (s) (a1) (a2) (a3) (a4) : (State.queueMsg s a1 a2 a3 a4).1.fixed = s.fixed := by
  unfold State.queueMsg; (repeat' (first | dsimp only | (rw [foldl_fixed _ _ (fun _ _ => by simp)]) | split)) <;> (first | (with_reducible rfl) | (simp; done) | (simp [foldl_fixed]; done) | (have h9 := congrArg (fun p => State.fixed p.1) ‹_ = (_, _)›; simp at h9; simp [h9]; done) | (simp_all; done))
@[simp] theorem hbmAccess_fixed (s) (a1) (a2) : (State.hbmAccess s a1 a2).1.fixed = s.fixed := by
  unfold State.hbmAccess; split <;> simp
@[simp] theorem cancelFrom_fixed (s) (a1) (a2) : (State.cancelFrom s a1 a2).fixed = s.fixed := by
  unfold State.cancelFrom; exact foldl_fixed _ _ (fun _ _ => by dsimp only; split <;> simp) _
@[simp] theorem deliver_fixed (s) (a1) (a2) : (State.deliver s a1 a2).1.fixed = s.fixed := by
  unfold State.deliver; dsimp only; (repeat' split) <;> simp
@[simp] theorem answer_fixed (s) (a1) (a2) (a3) : (State.answer s a1 a2 a3).fixed = s.fixed := by
  unfold State.answer; simp
@[simp] theorem inject_fixed (s) (a1) (a2) : (State.inject s a1 a2).fixed = s.fixed := by
  unfold State.inject; simp
@[simp] theorem handOn_fixed (s) (a1) (a2) (a3) (a4) : (State.handOn s a1 a2 a3 a4).1.fixed = s.fixed := by
  unfold State.handOn; dsimp only; (repeat' split) <;> (first | (simp; done) | (have h9 := congrArg (fun p => State.fixed p.1) ‹_ = (_, _)›; simp at h9; simp [h9]))

/-! ## Contexts -/

@[simp] theorem putSave_fixed (s) (a1) (a2) (a3) : (State.putSave s a1 a2 a3).fixed = s.fixed := by
  unfold State.putSave; simp
@[simp] theorem saveSoft_fixed (s) : (State.saveSoft s).fixed = s.fixed := by
  unfold State.saveSoft; simp
@[simp] theorem saveHard_fixed (s) (a1) : (State.saveHard s a1).fixed = s.fixed := by
  unfold State.saveHard; simp
@[simp] theorem recount_fixed (s) : (State.recount s).fixed = s.fixed := by
  unfold State.recount; simp
@[simp] theorem loadCtx_fixed (s) (a1) (a2) : (State.loadCtx s a1 a2).fixed = s.fixed := by
  unfold State.loadCtx; simp
@[simp] theorem resumeCtx_fixed (s) (a1) : (State.resumeCtx s a1).fixed = s.fixed := by
  unfold State.resumeCtx; simp

/-! ## Ops -/

@[simp] theorem trapReturn_fixed (s) : (State.trapReturn s).fixed = s.fixed := by
  unfold State.trapReturn; simp
@[simp] theorem serveSignal_fixed (s) (a1) (a2) : (State.serveSignal s a1 a2).fixed = s.fixed := by
  unfold State.serveSignal; split <;> simp
@[simp] theorem signalError_fixed (s) (a1) (a2) (a3) (a4) : (State.signalError s a1 a2 a3 a4).fixed = s.fixed := by
  unfold State.signalError; dsimp only; split <;> simp
@[simp] theorem subtract_fixed (s) (a1) (a2) (a3) : (State.subtract s a1 a2 a3).fixed = s.fixed := by
  unfold State.subtract; simp
@[simp] theorem drainSubs_fixed (s) : (State.drainSubs s).fixed = s.fixed := by
  unfold State.drainSubs; simp [foldl_fixed]
@[simp] theorem writeStatus_fixed (s) (a1) (a2) : (State.writeStatus s a1 a2).fixed = s.fixed := by
  unfold State.writeStatus; simp
@[simp] theorem behind_fixed (s) (a1) (a2) : (State.behind s a1 a2).fixed = s.fixed := by
  unfold State.behind; simp
@[simp] theorem signalPacket_fixed (s) (a1) (a2) (a3) (a4) (a5) : (State.signalPacket s a1 a2 a3 a4 a5).fixed = s.fixed := by
  unfold State.signalPacket; dsimp only; (repeat' split) <;> simp
@[simp] theorem releaseSignals_fixed (s) : (State.releaseSignals s).fixed = s.fixed := by
  unfold State.releaseSignals; simp
@[simp] theorem dropPacket_fixed (s) (a1) (a2) (a3) : (State.dropPacket s a1 a2 a3).fixed = s.fixed := by
  unfold State.dropPacket; simp
@[simp] theorem queueError_fixed (s) (a1) (a2) (a3) (a4) (a5) : (State.queueError s a1 a2 a3 a4 a5).fixed = s.fixed := by
  unfold State.queueError; dsimp only; (repeat' split) <;> simp_all [foldl_fixed]
@[simp] theorem failPacket_fixed (s) (a1) (a2) (a3) (a4) (a5) : (State.failPacket s a1 a2 a3 a4 a5).fixed = s.fixed := by
  unfold State.failPacket; simp
@[simp] theorem dropSaved_fixed (s) (a1) (a2) : (State.dropSaved s a1 a2).fixed = s.fixed := by
  unfold State.dropSaved; simp
@[simp] theorem cancelOn_fixed (s) (a1) (a2) (a3) : (State.cancelOn s a1 a2 a3).fixed = s.fixed := by
  unfold State.cancelOn; simp [foldl_fixed]
@[simp] theorem flushCancels_fixed (s) (a1) : (State.flushCancels s a1).fixed = s.fixed := by
  unfold State.flushCancels; exact foldl_fixed _ _ (fun _ _ => by split <;> simp) _
@[simp] theorem sendCancels_fixed (s) (a1) : (State.sendCancels s a1).fixed = s.fixed := by
  unfold State.sendCancels; exact foldl_fixed _ _ (fun _ _ => foldl_fixed _ _ (fun _ _ => by simp) _) _
@[simp] theorem endProgram_fixed (s) (a1) (a2) : (State.endProgram s a1 a2).fixed = s.fixed := by
  unfold State.endProgram; dsimp only; split <;> simp
@[simp] theorem reportJob_fixed (s) (a1) (a2) : (State.reportJob s a1 a2).fixed = s.fixed := by
  unfold State.reportJob; simp
@[simp] theorem killCore_fixed (s) (a1) (a2) (a3) (a4) : (State.killCore s a1 a2 a3 a4).fixed = s.fixed := by
  unfold State.killCore; simp
@[simp] theorem killJob_fixed (s) (a1) (a2) : (State.killJob s a1 a2).fixed = s.fixed := by
  unfold State.killJob; dsimp only; (repeat' split) <;> simp_all [foldl_fixed]
@[simp] theorem tenantError_fixed (s) (a1) (a2) : (State.tenantError s a1 a2).fixed = s.fixed := by
  unfold State.tenantError; dsimp only; (repeat' split) <;> simp
@[simp] theorem killTenant_fixed (s) (a1) (a2) : (State.killTenant s a1 a2).fixed = s.fixed := by
  unfold State.killTenant; dsimp only
  exact (foldl_fixed _ _ (fun _ _ => by simp) _).trans (foldl_fixed _ _ (fun _ _ => by simp) _)
@[simp] theorem offerTenant_fixed (s) (a1) (a2) : (State.offerTenant s a1 a2).fixed = s.fixed := by
  unfold State.offerTenant; split <;> simp
@[simp] theorem takeOff_fixed (s) (a1) (a2) : (State.takeOff s a1 a2).fixed = s.fixed := by
  unfold State.takeOff; simp
@[simp] theorem putBack_fixed (s) (a1) (a2) (a3) : (State.putBack s a1 a2 a3).fixed = s.fixed := by
  unfold State.putBack; dsimp only; split <;> simp
@[simp] theorem goOn_fixed (s) (a1) (a2) (a3) : (State.goOn s a1 a2 a3).fixed = s.fixed := by
  unfold State.goOn; simp
@[simp] theorem restoreJob_fixed (s) (a1) : (State.restoreJob s a1).fixed = s.fixed := by
  unfold State.restoreJob; simp [foldl_fixed]
@[simp] theorem offerJob_fixed (s) (a1) (a2) (a3) (a4) : (State.offerJob s a1 a2 a3 a4).fixed = s.fixed := by
  unfold State.offerJob; (repeat' (first | dsimp only | (rw [foldl_fixed _ _ (fun _ _ => by simp)]) | (apply ends_fixed) | (apply endsAfter_fixed) | (apply endsPost_fixed) | (apply endsAtom_fixed) | (refine vissue_fixed _ _ _ _ ?_ (fun _ => ?_)) | (refine resAll_bind2 (Posted.keeps s.fixed) _ _ _ (by simp; done) (fun _ _ => ?_)) | (refine resAll_bind2 (fun t => State.fixed t = s.fixed) _ _ _ (by simp; done) (fun _ _ => ?_)) | (apply resAll_bind; intro _) | split)) <;> (first | (with_reducible rfl) | (simp; done) | (simp [State.fixed]; done) | (simp [*]; done) | (have h9 := congrArg (fun p => State.fixed p.1) ‹_ = (_, _)›; simp at h9; simp [h9]; done) | (have h9 := congrArg (fun p => State.fixed p.1) ‹_ = (_, _)›; simp at h9; simp [← h9]; done) | (simp_all; done))
@[simp] theorem offerJobHere_fixed (s) (a1) : (State.offerJobHere s a1).fixed = s.fixed := by
  unfold State.offerJobHere; split <;> simp
@[simp] theorem killHere_fixed (s) (a1) : (State.killHere s a1).fixed = s.fixed := by
  unfold State.killHere; split <;> simp
@[simp] theorem takeFault_fixed (s) (a1) : (State.takeFault s a1).fixed = s.fixed := by
  unfold State.takeFault; dsimp only; (repeat' split) <;> simp
@[simp] theorem next_fixed (s) : KeepsOut s.fixed (next s) := by
  unfold next; simp
@[simp] theorem settled_fixed (s) : (State.settled s).fixed = s.fixed := by
  unfold State.settled; simp
@[simp] theorem stalled_fixed (s) (a1) : (State.stalled s a1).fixed = s.fixed := by
  unfold State.stalled; simp
@[simp] theorem stalledOn_fixed (s) (a1) (a2) : (State.stalledOn s a1 a2).fixed = s.fixed := by
  unfold State.stalledOn; simp
theorem ends_fixed (x : Fixed) (s) (r) (hs : s.fixed = x) (h : ResAll (fun t => t.fixed = x) r) : KeepsOut x (ends s r) := by
  unfold ends
  cases r with
  | ok a => have := h.1 a rfl; simpa using this
  | fault f => simp [hs]
  | stall w => simp [hs]
@[simp] theorem wrote_fixed (s) (a1) (a2) : KeepsOut s.fixed (wrote s a1 a2) := by
  unfold wrote; simp
@[simp] theorem wroteSticky_fixed (s) (a1) (a2) (a3) : KeepsOut s.fixed (wroteSticky s a1 a2 a3) := by
  unfold wroteSticky; simp
@[simp] theorem passed_fixed (s) : KeepsOut s.fixed (passed s) := by
  unfold passed; simp

/-! ## TaskFaults -/

@[simp] theorem offEngine_fixed (s) (a1) (a2) (a3) : (State.offEngine s a1 a2 a3).fixed = s.fixed := by
  unfold State.offEngine; simp
@[simp] theorem escalate_fixed (s) (a1) (a2) (a3) : (State.escalate s a1 a2 a3).fixed = s.fixed := by
  unfold State.escalate; dsimp only; split <;> simp
@[simp] theorem taskFault_fixed (s) (a1) (a2) (a3) (a4) (a5) : (State.taskFault s a1 a2 a3 a4 a5).fixed = s.fixed := by
  unfold State.taskFault; split <;> simp

end Sys2Proof.Machine
end

