-- ==== Sys2Proof/Laws/FixedCluster.lean ====
section
/-! SUPPORT. Frame lemmas: control-register, memory, synchronization and posting instructions and the cluster's engines keep the boot state, the capabilities and the place in the system. -/

namespace Sys2Proof.Machine

/-! ## Operands -/

@[simp] theorem wrPair_fixed (s) (a1) (a2) (a3) : (State.wrPair s a1 a2 a3).fixed = s.fixed := by
  unfold State.wrPair; simp

/-! ## ControlRegs -/

@[simp] theorem setMap_fixed (s) (a1) (a2) : (State.setMap s a1 a2).fixed = s.fixed := by
  unfold State.setMap; simp
@[simp] theorem crPut_fixed (s) (a1) (a2) (a3) : (State.crPut s a1 a2 a3).fixed = s.fixed := by
  unfold State.crPut; dsimp only; (repeat' split) <;> simp
@[simp] theorem execCrr_fixed (a0) (s) : KeepsOut s.fixed (execCrr a0 s) := by
  unfold execCrr; exact ends_fixed _ _ _ rfl (resAll_bind _ _ _ fun _ => by simp)
@[simp] theorem crUpdate_fixed (s) (a1) (a2) : ResAll (fun t => t.fixed = s.fixed) (crUpdate s a1 a2) := by
  unfold crUpdate; (repeat' (first | split | (apply resAll_bind; intro _))) <;> simp
@[simp] theorem execCrw_fixed (a0) (s) : KeepsOut s.fixed (execCrw a0 s) := by
  unfold execCrw; exact ends_fixed _ _ _ rfl (resAll_bind _ _ _ fun _ => by simp)
@[simp] theorem execCrs_fixed (a0) (s) : KeepsOut s.fixed (execCrs a0 s) := by
  unfold execCrs; exact ends_fixed _ _ _ rfl (resAll_bind _ _ _ fun _ => by simp)
@[simp] theorem execCrc_fixed (a0) (s) : KeepsOut s.fixed (execCrc a0 s) := by
  unfold execCrc; exact ends_fixed _ _ _ rfl (resAll_bind _ _ _ fun _ => by simp)
@[simp] theorem execCrFpstatWrite_fixed (a0) (a1) (s) : KeepsOut s.fixed (execCrFpstatWrite a0 a1 s) := by
  unfold execCrFpstatWrite; simp
@[simp] theorem execCrCpolWrite_fixed (a0) (s) : KeepsOut s.fixed (execCrCpolWrite a0 s) := by
  unfold execCrCpolWrite; simp
@[simp] theorem execCrTflogWrite_fixed (a0) (s) : KeepsOut s.fixed (execCrTflogWrite a0 s) := by
  unfold execCrTflogWrite; simp
@[simp] theorem execCrStatusWrite_fixed (a0) (s) : KeepsOut s.fixed (execCrStatusWrite a0 s) := by
  unfold execCrStatusWrite; simp
@[simp] theorem execCrCyccmpWrite_fixed (a0) (s) : KeepsOut s.fixed (execCrCyccmpWrite a0 s) := by
  unfold execCrCyccmpWrite; simp
@[simp] theorem execCrFmapWrite_fixed (a0) (a1) (s) : KeepsOut s.fixed (execCrFmapWrite a0 a1 s) := by
  unfold execCrFmapWrite; split <;> simp

/-! ## LoadStore -/

@[simp] theorem windowSend_fixed (s) (a1) (a2) (a3) (a4) : (windowSend s a1 a2 a3 a4).1.fixed = s.fixed := by
  unfold windowSend; dsimp only; (repeat' split) <;> (first | (simp; done) | (have h9 := congrArg (fun p => State.fixed p.1) ‹_ = (_, _)›; simp at h9; simp [h9]))
@[simp] theorem windowStore_fixed (s) (a1) (a2) (a3) (a4) (a5) (a6) : ResAll (fun t => t.fixed = s.fixed) (windowStore s a1 a2 a3 a4 a5 a6) := by
  unfold windowStore; (try dsimp only) <;> ((repeat' (first | (apply ends_fixed) | (apply endsAfter_fixed) | (apply endsPost_fixed) | (apply endsAtom_fixed) | (apply vissue_fixed; intro _) | (apply resAll_bind; intro _) | split)) <;> (first | (with_reducible rfl) | (simp; done) | (simp [State.fixed]; done) | (simp [*]; done) | (have h9 := congrArg (fun p => State.fixed p.1) ‹_ = (_, _)›; simp at h9; simp [h9]; done) | (have h9 := congrArg (fun p => State.fixed p.1) ‹_ = (_, _)›; simp at h9; simp [← h9]; done) | (simp_all; done)))
@[simp] theorem taskWindowWrite_fixed (s) (a1) (a2) (a3) (a4) (a5) (a6) : (State.taskWindowWrite s a1 a2 a3 a4 a5 a6).fixed = s.fixed := by
  unfold State.taskWindowWrite; dsimp only; (repeat' split) <;> (first | (simp; done) | (have h9 := congrArg (fun p => State.fixed p.1) ‹_ = (_, _)›; simp at h9; simp [h9]))
@[simp] theorem execLd_fixed (a0) (s) : KeepsOut s.fixed (execLd a0 s) := by
  unfold execLd; refine ends_fixed _ _ _ rfl ?_; (repeat' (first | split | (apply resAll_bind; intro _))) <;> simp
@[simp] theorem execSt_fixed (a0) (s) : KeepsOut s.fixed (execSt a0 s) := by
  unfold execSt; (repeat' (first | dsimp only | (apply ends_fixed) | (apply endsAfter_fixed) | (apply endsPost_fixed) | (apply endsAtom_fixed) | (refine vissue_fixed _ _ _ _ ?_ (fun _ => ?_)) | (refine resAll_bind2 (Posted.keeps s.fixed) _ _ _ (by simp; done) (fun _ _ => ?_)) | (refine resAll_bind2 (fun t => State.fixed t = s.fixed) _ _ _ (by simp; done) (fun _ _ => ?_)) | (apply resAll_bind; intro _) | split)) <;> (first | (with_reducible rfl) | (simp; done) | (simp [State.fixed]; done) | (simp [*]; done) | (have h9 := congrArg (fun p => State.fixed p.1) ‹_ = (_, _)›; simp at h9; simp [h9]; done) | (have h9 := congrArg (fun p => State.fixed p.1) ‹_ = (_, _)›; simp at h9; simp [← h9]; done) | (simp_all; done))
@[simp] theorem takeOld_fixed (s) (a1) (a2) (a3) (a4) (a5) : (State.takeOld s a1 a2 a3 a4 a5).fixed = s.fixed := by
  unfold State.takeOld; split <;> simp
@[simp] theorem awaiting_fixed (s) (a1) (a2) (a3) (a4) : (awaiting s a1 a2 a3 a4).fixed = s.fixed := by
  unfold awaiting; simp
theorem endsAtom_fixed (x : Fixed) (s) (r) (hs : s.fixed = x) (h : ResAll (AtomEnd.keeps x) r) : KeepsOut x (endsAtom s r) := by
  unfold endsAtom
  cases r with
  | ok a => have := h.1 a rfl; cases a <;> simpa using this
  | fault f => simp [hs]
  | stall w => simp [hs]
@[simp] theorem atomPlain_fixed (s o c q) : ResAll (AtomEnd.keeps s.fixed) (atomPlain s o c q) := by
  unfold atomPlain; (try dsimp only) <;> ((repeat' (first | (apply ends_fixed) | (apply endsAfter_fixed) | (apply endsPost_fixed) | (apply endsAtom_fixed) | (apply vissue_fixed; intro _) | (apply resAll_bind; intro _) | split)) <;> (first | (with_reducible rfl) | (simp; done) | (simp [State.fixed]; done) | (simp [*]; done) | (have h9 := congrArg (fun p => State.fixed p.1) ‹_ = (_, _)›; simp at h9; simp [h9]; done) | (have h9 := congrArg (fun p => State.fixed p.1) ‹_ = (_, _)›; simp at h9; simp [← h9]; done) | (simp_all; done)))
@[simp] theorem atomHbm_fixed (s o c q) : ResAll (AtomEnd.keeps s.fixed) (atomHbm s o c q) := by
  unfold atomHbm; (try dsimp only) <;> ((repeat' (first | (apply ends_fixed) | (apply endsAfter_fixed) | (apply endsPost_fixed) | (apply endsAtom_fixed) | (apply vissue_fixed; intro _) | (apply resAll_bind; intro _) | split)) <;> (first | (with_reducible rfl) | (simp; done) | (simp [State.fixed]; done) | (simp [*]; done) | (have h9 := congrArg (fun p => State.fixed p.1) ‹_ = (_, _)›; simp at h9; simp [h9]; done) | (have h9 := congrArg (fun p => State.fixed p.1) ‹_ = (_, _)›; simp at h9; simp [← h9]; done) | (simp_all; done)))
@[simp] theorem execAtomAdd_fixed (a0) (s) : KeepsOut s.fixed (execAtomAdd a0 s) := by
  unfold execAtomAdd; exact endsAtom_fixed _ _ _ rfl (by simp)
@[simp] theorem execAtomAnd_fixed (a0) (s) : KeepsOut s.fixed (execAtomAnd a0 s) := by
  unfold execAtomAnd; exact endsAtom_fixed _ _ _ rfl (by simp)
@[simp] theorem execAtomOr_fixed (a0) (s) : KeepsOut s.fixed (execAtomOr a0 s) := by
  unfold execAtomOr; exact endsAtom_fixed _ _ _ rfl (by simp)
@[simp] theorem execAtomXor_fixed (a0) (s) : KeepsOut s.fixed (execAtomXor a0 s) := by
  unfold execAtomXor; exact endsAtom_fixed _ _ _ rfl (by simp)
@[simp] theorem execAtomMin_fixed (a0) (s) : KeepsOut s.fixed (execAtomMin a0 s) := by
  unfold execAtomMin; exact endsAtom_fixed _ _ _ rfl (by simp)
@[simp] theorem execAtomMax_fixed (a0) (s) : KeepsOut s.fixed (execAtomMax a0 s) := by
  unfold execAtomMax; exact endsAtom_fixed _ _ _ rfl (by simp)
@[simp] theorem execAtomMinn_fixed (a0) (s) : KeepsOut s.fixed (execAtomMinn a0 s) := by
  unfold execAtomMinn; exact endsAtom_fixed _ _ _ rfl (by simp)
@[simp] theorem execAtomMaxn_fixed (a0) (s) : KeepsOut s.fixed (execAtomMaxn a0 s) := by
  unfold execAtomMaxn; exact endsAtom_fixed _ _ _ rfl (by simp)
@[simp] theorem execAtomSwap_fixed (a0) (s) : KeepsOut s.fixed (execAtomSwap a0 s) := by
  unfold execAtomSwap; exact endsAtom_fixed _ _ _ rfl (by simp)
@[simp] theorem execAtomCas_fixed (a0) (s) : KeepsOut s.fixed (execAtomCas a0 s) := by
  unfold execAtomCas; exact endsAtom_fixed _ _ _ rfl (by simp)
@[simp] theorem execAtomIncb_fixed (a0) (s) : KeepsOut s.fixed (execAtomIncb a0 s) := by
  unfold execAtomIncb; exact endsAtom_fixed _ _ _ rfl (by simp)
@[simp] theorem execAtomAddHbm_fixed (a0) (s) : KeepsOut s.fixed (execAtomAddHbm a0 s) := by
  unfold execAtomAddHbm; exact endsAtom_fixed _ _ _ rfl (by simp)
@[simp] theorem execAtomAndHbm_fixed (a0) (s) : KeepsOut s.fixed (execAtomAndHbm a0 s) := by
  unfold execAtomAndHbm; exact endsAtom_fixed _ _ _ rfl (by simp)
@[simp] theorem execAtomOrHbm_fixed (a0) (s) : KeepsOut s.fixed (execAtomOrHbm a0 s) := by
  unfold execAtomOrHbm; exact endsAtom_fixed _ _ _ rfl (by simp)
@[simp] theorem execAtomXorHbm_fixed (a0) (s) : KeepsOut s.fixed (execAtomXorHbm a0 s) := by
  unfold execAtomXorHbm; exact endsAtom_fixed _ _ _ rfl (by simp)
@[simp] theorem execAtomMinHbm_fixed (a0) (s) : KeepsOut s.fixed (execAtomMinHbm a0 s) := by
  unfold execAtomMinHbm; exact endsAtom_fixed _ _ _ rfl (by simp)
@[simp] theorem execAtomMaxHbm_fixed (a0) (s) : KeepsOut s.fixed (execAtomMaxHbm a0 s) := by
  unfold execAtomMaxHbm; exact endsAtom_fixed _ _ _ rfl (by simp)
@[simp] theorem execAtomMinnHbm_fixed (a0) (s) : KeepsOut s.fixed (execAtomMinnHbm a0 s) := by
  unfold execAtomMinnHbm; exact endsAtom_fixed _ _ _ rfl (by simp)
@[simp] theorem execAtomMaxnHbm_fixed (a0) (s) : KeepsOut s.fixed (execAtomMaxnHbm a0 s) := by
  unfold execAtomMaxnHbm; exact endsAtom_fixed _ _ _ rfl (by simp)
@[simp] theorem execAtomSwapHbm_fixed (a0) (s) : KeepsOut s.fixed (execAtomSwapHbm a0 s) := by
  unfold execAtomSwapHbm; exact endsAtom_fixed _ _ _ rfl (by simp)
@[simp] theorem execAtomCasHbm_fixed (a0) (s) : KeepsOut s.fixed (execAtomCasHbm a0 s) := by
  unfold execAtomCasHbm; exact endsAtom_fixed _ _ _ rfl (by simp)
@[simp] theorem execAtomIncbHbm_fixed (a0) (s) : KeepsOut s.fixed (execAtomIncbHbm a0 s) := by
  unfold execAtomIncbHbm; exact endsAtom_fixed _ _ _ rfl (by simp)
@[simp] theorem execClaim_fixed (a0) (s) : KeepsOut s.fixed (execClaim a0 s) := by
  unfold execClaim; exact endsAtom_fixed _ _ _ rfl (by simp)
@[simp] theorem execClaimHbm_fixed (a0) (s) : KeepsOut s.fixed (execClaimHbm a0 s) := by
  unfold execClaimHbm; exact endsAtom_fixed _ _ _ rfl (by simp)

/-! ## FarMemory -/

@[simp] theorem sendFar_fixed (s) (a1) (a2) (a3) (a4) (a5) : (State.sendFar s a1 a2 a3 a4 a5).fixed = s.fixed := by
  unfold State.sendFar; simp
theorem fetchFar_fixed (s) (a1) (a2) (a3) (a4) : ∀ t, State.fetchFar s a1 a2 a3 a4 = some t → t.fixed = s.fixed := by
  unfold State.fetchFar; split <;> simp
theorem fetchAll_fixed (s) (a1) (a2) (a3) (a4) : ∀ t, State.fetchAll s a1 a2 a3 a4 = some t → t.fixed = s.fixed := by
  unfold State.fetchAll; dsimp only; (repeat' split) <;> simp [foldl_fixed]
@[simp] theorem flushTask_fixed (s) (a1) (a2) (a3) : (State.flushTask s a1 a2 a3).fixed = s.fixed := by
  have h : ∀ (l : List (Nat × PktBody)) (x : State × List (Nat × PktBody)), (l.foldl (fun (x : State × List (Nat × PktBody)) p =>
      if (x.1.dieAt a1).pairRoom (x.1.dieNumber p.1) a3.cls then (x.1.sendFar a1 a2 a3 p.1 p.2, x.2) else (x.1, x.2 ++ [p])) x).1.fixed = x.1.fixed := by
    intro l
    induction l with
    | nil => intro x; rfl
    | cons p l ih => intro x; rw [List.foldl_cons, ih]; split <;> simp
  unfold State.flushTask; simp [h]
@[simp] theorem flushFar_fixed (s) (a1) : (State.flushFar s a1).fixed = s.fixed := by
  unfold State.flushFar; exact foldl_fixed _ _ (fun _ _ => foldl_fixed _ _ (fun _ _ => by simp) _) _
@[simp] theorem writeFar_fixed (s) (a1) (a2) (a3) (a4) (a5) : (State.writeFar s a1 a2 a3 a4 a5).fixed = s.fixed := by
  unfold State.writeFar; dsimp only; split <;> simp
@[simp] theorem memWrite_fixed (s) (a1) (a2) (a3) (a4) (a5) (a6) (a7) : (State.memWrite s a1 a2 a3 a4 a5 a6 a7).fixed = s.fixed := by
  unfold State.memWrite; split <;> simp
@[simp] theorem endWork_fixed (s) (a1) (a2) (a3) (a4) (a5) : (State.endWork s a1 a2 a3 a4 a5).fixed = s.fixed := by
  unfold State.endWork; (repeat' split) <;> simp
theorem afterWork_fixed (s) (a1) (a2) (a3) (a4) : ∀ t, State.afterWork s a1 a2 a3 a4 = some t → t.fixed = s.fixed := by
  unfold State.afterWork; (repeat' split) <;> simp

/-! ## CopyEngine -/

@[simp] theorem copyHostDone_fixed (s) (a1) (a2) (a3) : (State.copyHostDone s a1 a2 a3).fixed = s.fixed := by
  unfold State.copyHostDone; simp [foldl_fixed]
@[simp] theorem copyAt_fixed (s) (a1) (a2) (a3) (a4) (a5) (a6) : (State.copyAt s a1 a2 a3 a4 a5 a6).fixed = s.fixed := by
  unfold State.copyAt; simp
@[simp] theorem copyStop_fixed (s) (a1) (a2) (a3) : (State.copyStop s a1 a2 a3).fixed = s.fixed := by
  unfold State.copyStop; (repeat' (first | split | (apply resAll_bind; intro _))) <;> simp
theorem chunkHere_fixed (s) (a1) (a2) (a3) (a4) : ∀ t, State.chunkHere s a1 a2 a3 a4 = some t → t.fixed = s.fixed := by
  unfold State.chunkHere; dsimp only; (repeat' split) <;> (first | simp | exact fetchFar_fixed _ _ _ _ _)
@[simp] theorem overlapHere_fixed (s) (a1) (a2) (a3) : (State.overlapHere s a1 a2 a3).fixed = s.fixed := by
  unfold State.overlapHere; simp
@[simp] theorem takeHeld_fixed (s) (a1) (a2) (a3) (a4) : (State.takeHeld s a1 a2 a3 a4).1.fixed = s.fixed := by
  unfold State.takeHeld; simp
@[simp] theorem sendPackets_fixed (s) (a1) (a2) (a3) (a4) (a5) (a6) : (State.sendPackets s a1 a2 a3 a4 a5 a6).1.fixed = s.fixed := by
  induction a6 generalizing s a5 with
  | nil => rfl
  | cons p r ih => unfold State.sendPackets; split <;> simp [ih]
@[simp] theorem giveBack_fixed (s a1 a2 a3) : (State.giveBack s a1 a2 a3).fixed = s.fixed := by
  unfold State.giveBack; split <;> simp
@[simp] theorem chunkSource_fixed (s a1 a2 a3 a4 a5) : (State.chunkSource s a1 a2 a3 a4 a5).1.fixed = s.fixed := by
  unfold State.chunkSource; dsimp only; (repeat' split) <;> simp
theorem chunkAfter_fixed (s a1 a2 a3 a4 a5 a6 a7 a8 a9 a10) : ∀ t, State.chunkAfter s a1 a2 a3 a4 a5 a6 a7 a8 a9 a10 = some t → t.fixed = s.fixed := by
  intro t h
  unfold State.chunkAfter at h
  dsimp only at h
  split at h
  · obtain ⟨f, -, rfl⟩ := Option.map_eq_some_iff.1 h
    simp
  · split at h
    · cases h; simp
    · split at h
      · cases h
      · cases h; simp
theorem chunkRemote_fixed (s) (a1) (a2) (a3) (a4) : ∀ t, State.chunkRemote s a1 a2 a3 a4 = some t → t.fixed = s.fixed := by
  intro t h
  unfold State.chunkRemote at h
  dsimp only at h
  split at h
  · cases h
  · split at h
    · exact fetchFar_fixed _ _ _ _ _ _ h
    · exact (chunkAfter_fixed _ _ _ _ _ _ _ _ _ _ _ _ h).trans ((sendPackets_fixed ..).trans (chunkSource_fixed ..))
@[simp] theorem execCopyChunk_fixed (a0) (s) : KeepsOut s.fixed (execCopyChunk a0 s) := by
  unfold execCopyChunk
  dsimp only
  split
  · simp
  · rename_i t _
    split
    · simp
    · split
      · simp
      · split
        · rename_i u h
          rw [keepsOut_next]
          split at h
          · exact chunkRemote_fixed _ _ _ _ _ _ h
          · exact chunkHere_fixed _ _ _ _ _ _ h
        · simp
@[simp] theorem enterTask_fixed (s p l d) : ResAll (Posted.keeps s.fixed) (State.enterTask s p l d) := by
  unfold State.enterTask; dsimp only; (repeat' split) <;> simp
@[simp] theorem enterTaskHere_fixed (s l d) : ResAll (Posted.keeps s.fixed) (State.enterTaskHere s l d) := by
  unfold State.enterTaskHere; split <;> simp
@[simp] theorem seesAll_enterTaskHere_fixed (s : State) (l d) : ResAll (Posted.keeps s.fixed) (s.seesAll.enterTaskHere l d) :=
  enterTaskHere_fixed s.seesAll l d

/-! ## Atelier -/

theorem endsPost_fixed (x : Fixed) (s nb sd) (r) (hs : s.fixed = x) (h : ResAll (Posted.keeps x) r) : KeepsOut x (endsPost s nb sd r) := by
  unfold endsPost
  apply ends_fixed _ _ _ hs
  apply resAll_bind2 _ _ _ _ h
  intro a ha
  cases a with
  | admitted t => cases nb <;> simpa using ha
  | full => cases nb <;> simp [hs]

/-! ## Posting -/

@[simp] theorem postCopy_fixed (s) (a1) (a2) (a3) : KeepsOut s.fixed (postCopy s a1 a2 a3) := by
  unfold postCopy; refine endsPost_fixed _ _ _ _ _ rfl ?_; (repeat' (first | split | (apply resAll_bind; intro _))) <;> simp
@[simp] theorem postShape_fixed (s) (a1) (a2) : KeepsOut s.fixed (postShape s a1 a2) := by
  unfold postShape; refine endsPost_fixed _ _ _ _ _ rfl ?_; (repeat' (first | split | (apply resAll_bind; intro _))) <;> simp
@[simp] theorem postAcc_fixed (s) (a1) (a2) : KeepsOut s.fixed (postAcc s a1 a2) := by
  unfold postAcc; refine endsPost_fixed _ _ _ _ _ rfl ?_; (repeat' (first | split | (apply resAll_bind; intro _))) <;> simp
@[simp] theorem postMma_fixed (s) (a1) (a2) : KeepsOut s.fixed (postMma s a1 a2) := by
  unfold postMma; refine endsPost_fixed _ _ _ _ _ rfl ?_; (repeat' (first | split | (apply resAll_bind; intro _))) <;> simp
@[simp] theorem execCpBox_fixed (a0) (s) : KeepsOut s.fixed (execCpBox a0 s) := by
  unfold execCpBox; simp
@[simp] theorem execCpFill_fixed (a0) (s) : KeepsOut s.fixed (execCpFill a0 s) := by
  unfold execCpFill; simp
@[simp] theorem execCpGather_fixed (a0) (s) : KeepsOut s.fixed (execCpGather a0 s) := by
  unfold execCpGather; simp
@[simp] theorem execCpScatter_fixed (a0) (s) : KeepsOut s.fixed (execCpScatter a0 s) := by
  unfold execCpScatter; simp
@[simp] theorem execShLoad_fixed (a0) (s) : KeepsOut s.fixed (execShLoad a0 s) := by
  unfold execShLoad; simp
@[simp] theorem execShUnload_fixed (a0) (s) : KeepsOut s.fixed (execShUnload a0 s) := by
  unfold execShUnload; simp
@[simp] theorem execMmaBf16_fixed (a0) (s) : KeepsOut s.fixed (execMmaBf16 a0 s) := by
  unfold execMmaBf16; simp
@[simp] theorem execMmaF16_fixed (a0) (s) : KeepsOut s.fixed (execMmaF16 a0 s) := by
  unfold execMmaF16; simp
@[simp] theorem execMmaE4m3_fixed (a0) (s) : KeepsOut s.fixed (execMmaE4m3 a0 s) := by
  unfold execMmaE4m3; simp
@[simp] theorem execMmaE5m2_fixed (a0) (s) : KeepsOut s.fixed (execMmaE5m2 a0 s) := by
  unfold execMmaE5m2; simp
@[simp] theorem execMmaI8_fixed (a0) (s) : KeepsOut s.fixed (execMmaI8 a0 s) := by
  unfold execMmaI8; simp
@[simp] theorem execMmaMx4_fixed (a0) (s) : KeepsOut s.fixed (execMmaMx4 a0 s) := by
  unfold execMmaMx4; simp
@[simp] theorem execMmaF32_fixed (a0) (s) : KeepsOut s.fixed (execMmaF32 a0 s) := by
  unfold execMmaF32; simp
@[simp] theorem execMmaF64_fixed (a0) (s) : KeepsOut s.fixed (execMmaF64 a0 s) := by
  unfold execMmaF64; simp
@[simp] theorem execMmaZ64_fixed (a0) (s) : KeepsOut s.fixed (execMmaZ64 a0 s) := by
  unfold execMmaZ64; simp
@[simp] theorem execAccZero_fixed (a0) (s) : KeepsOut s.fixed (execAccZero a0 s) := by
  unfold execAccZero; simp
@[simp] theorem execAccLoad_fixed (a0) (s) : KeepsOut s.fixed (execAccLoad a0 s) := by
  unfold execAccLoad; simp
@[simp] theorem execAccDrain_fixed (a0) (s) : KeepsOut s.fixed (execAccDrain a0 s) := by
  unfold execAccDrain; simp
@[simp] theorem execAccChk_fixed (a0) (s) : KeepsOut s.fixed (execAccChk a0 s) := by
  unfold execAccChk; simp
@[simp] theorem execAccGive_fixed (a0) (s) : KeepsOut s.fixed (execAccGive a0 s) := by
  unfold execAccGive; refine ends_fixed _ _ _ rfl ?_; (repeat' (first | split | (apply resAll_bind; intro _))) <;> simp

/-! ## Shaper -/

@[simp] theorem shLoad_fixed (s) (a1) (a2) (a3) (a4) : (State.shLoad s a1 a2 a3 a4).fixed = s.fixed := by
  unfold State.shLoad; split <;> simp
@[simp] theorem shUnload_fixed (s) (a1) (a2) (a3) (a4) : (State.shUnload s a1 a2 a3 a4).fixed = s.fixed := by
  unfold State.shUnload; dsimp only; (repeat' split) <;> simp
@[simp] theorem runShaper_fixed (s) (a1) (a2) (a3) : (State.runShaper s a1 a2 a3).fixed = s.fixed := by
  unfold State.runShaper; (repeat' (first | split | (apply resAll_bind; intro _))) <;> simp

/-! ## Matrix -/

@[simp] theorem runMatrix_fixed (s) (a1) (a2) (a3) (a4) : (State.runMatrix s a1 a2 a3 a4).fixed = s.fixed := by
  unfold State.runMatrix; dsimp only; split <;> simp

/-! ## Accumulator -/

@[simp] theorem drainParts_fixed (s) (a1) (a2) (a3) (a4) (a5) (a6) (a7) (a8) : (State.drainParts s a1 a2 a3 a4 a5 a6 a7 a8).1.fixed = s.fixed := by
  induction a6 generalizing s a7 a8 with
  | nil => rfl
  | cons p r ih => unfold State.drainParts; dsimp only; split <;> simp [ih]
@[simp] theorem endWith_fixed (s) (a1) (a2) (a3) (a4) (a5) : (State.endWith s a1 a2 a3 a4 a5).fixed = s.fixed := by
  unfold State.endWith; simp
@[simp] theorem runAcc_fixed (s) (a1) (a2) (a3) (a4) (a5) : (State.runAcc s a1 a2 a3 a4 a5).fixed = s.fixed := by
  unfold State.runAcc; dsimp only; (repeat' split) <;> simp

/-! ## Buffers -/

@[simp] theorem bufTransition_fixed (s) (a1) (a2) : KeepsOut s.fixed (bufTransition s a1 a2) := by
  unfold bufTransition; refine ends_fixed _ _ _ rfl ?_; (repeat' (first | split | (apply resAll_bind; intro _))) <;> simp
@[simp] theorem execBufDecl_fixed (a0) (s) : KeepsOut s.fixed (execBufDecl a0 s) := by
  unfold execBufDecl; refine ends_fixed _ _ _ rfl ?_; (repeat' (first | split | (apply resAll_bind; intro _))) <;> simp
@[simp] theorem execBufFree_fixed (a0) (s) : KeepsOut s.fixed (execBufFree a0 s) := by
  unfold execBufFree; refine ends_fixed _ _ _ rfl ?_; (repeat' (first | split | (apply resAll_bind; intro _))) <;> simp
@[simp] theorem execBufState_fixed (a0) (s) : KeepsOut s.fixed (execBufState a0 s) := by
  unfold execBufState; exact ends_fixed _ _ _ rfl (resAll_bind _ _ _ fun _ => by simp)
@[simp] theorem execBufFill_fixed (a0) (s) : KeepsOut s.fixed (execBufFill a0 s) := by
  unfold execBufFill; simp
@[simp] theorem execBufFull_fixed (a0) (s) : KeepsOut s.fixed (execBufFull a0 s) := by
  unfold execBufFull; simp
@[simp] theorem execBufDrain_fixed (a0) (s) : KeepsOut s.fixed (execBufDrain a0 s) := by
  unfold execBufDrain; simp
@[simp] theorem execBufEmpty_fixed (a0) (s) : KeepsOut s.fixed (execBufEmpty a0 s) := by
  unfold execBufEmpty; simp
@[simp] theorem execBufVer_fixed (a0) (s) : KeepsOut s.fixed (execBufVer a0 s) := by
  unfold execBufVer; refine ends_fixed _ _ _ rfl ?_; (repeat' (first | split | (apply resAll_bind; intro _))) <;> simp

/-! ## ControlFlow -/

@[simp] theorem branched_fixed (s) (a1) (a2) : KeepsOut s.fixed (branched s a1 a2) := by
  unfold branched; split <;> simp
@[simp] theorem execBeq_fixed (a0) (s) : KeepsOut s.fixed (execBeq a0 s) := by
  unfold execBeq; simp
@[simp] theorem execBne_fixed (a0) (s) : KeepsOut s.fixed (execBne a0 s) := by
  unfold execBne; simp
@[simp] theorem execBlt_fixed (a0) (s) : KeepsOut s.fixed (execBlt a0 s) := by
  unfold execBlt; simp
@[simp] theorem execBge_fixed (a0) (s) : KeepsOut s.fixed (execBge a0 s) := by
  unfold execBge; simp
@[simp] theorem execBltn_fixed (a0) (s) : KeepsOut s.fixed (execBltn a0 s) := by
  unfold execBltn; simp
@[simp] theorem execBgen_fixed (a0) (s) : KeepsOut s.fixed (execBgen a0 s) := by
  unfold execBgen; simp
@[simp] theorem execJal_fixed (a0) (s) : KeepsOut s.fixed (execJal a0 s) := by
  unfold execJal; simp
@[simp] theorem execJalr_fixed (a0) (s) : KeepsOut s.fixed (execJalr a0 s) := by
  unfold execJalr; refine ends_fixed _ _ _ rfl ?_; (repeat' (first | split | (apply resAll_bind; intro _))) <;> simp
@[simp] theorem execLoop_fixed (a0) (s) : KeepsOut s.fixed (execLoop a0 s) := by
  have := branched_fixed (s.wr a0.a (s.rd a0.a + 1)) ((s.rd a0.a + 1).ult (s.rd a0.b)) a0.disp
  rw [wr_fixed] at this
  exact this

/-! ## Fences -/

theorem endsAfter_fixed (x : Fixed) (s checks rel mask scope) (r) (hs : s.fixed = x) (h : ResAll (fun t => t.fixed = x) r) : KeepsOut x (endsAfter s checks rel mask scope r) := by
  unfold endsAfter
  cases checks with
  | ok a => dsimp only; split
            · simp [hs]
            · exact ends_fixed _ _ _ hs h
  | fault f => simp [hs]
  | stall w => simp [hs]
@[simp] theorem execFenceC_fixed (a0) (s) : KeepsOut s.fixed (execFenceC a0 s) := by
  unfold execFenceC
  dsimp only
  refine (?_ : KeepsOut _ (passed _))
  simp [passed]
@[simp] theorem execFenceG_fixed (a0) (s) : KeepsOut s.fixed (execFenceG a0 s) := by
  unfold execFenceG; (try dsimp only) <;> ((repeat' (first | (apply ends_fixed) | (apply endsAfter_fixed) | (apply endsPost_fixed) | (apply endsAtom_fixed) | (apply vissue_fixed; intro _) | (apply resAll_bind; intro _) | split)) <;> (first | (with_reducible rfl) | (simp; done) | (simp [State.fixed]; done) | (simp [*]; done) | (have h9 := congrArg (fun p => State.fixed p.1) ‹_ = (_, _)›; simp at h9; simp [h9]; done) | (have h9 := congrArg (fun p => State.fixed p.1) ‹_ = (_, _)›; simp at h9; simp [← h9]; done) | (simp_all; done)))

/-! ## Sync -/

@[simp] theorem execQPush_fixed (a0) (s) : KeepsOut s.fixed (execQPush a0 s) := by
  unfold execQPush; refine ends_fixed _ _ _ rfl ?_; (repeat' (first | split | (apply resAll_bind; intro _))) <;> simp
@[simp] theorem execQPop_fixed (a0) (s) : KeepsOut s.fixed (execQPop a0 s) := by
  unfold execQPop; refine ends_fixed _ _ _ rfl ?_; (repeat' (first | split | (apply resAll_bind; intro _))) <;> simp
@[simp] theorem execQBind_fixed (a0) (s) : KeepsOut s.fixed (execQBind a0 s) := by
  unfold execQBind; refine ends_fixed _ _ _ rfl ?_; (repeat' (first | split | (apply resAll_bind; intro _))) <;> simp
@[simp] theorem execQCount_fixed (a0) (s) : KeepsOut s.fixed (execQCount a0 s) := by
  unfold execQCount; exact ends_fixed _ _ _ rfl (resAll_bind _ _ _ fun _ => by simp)
@[simp] theorem directSend_fixed (s) (a1) (a2) (a3) : (directSend s a1 a2 a3).1.fixed = s.fixed := by
  unfold directSend; dsimp only; (repeat' split) <;> (first | (simp; done) | (have h9 := congrArg (fun p => State.fixed p.1) ‹_ = (_, _)›; simp at h9; simp [h9]))
@[simp] theorem execMsgSend_fixed (a0) (s) : KeepsOut s.fixed (execMsgSend a0 s) := by
  unfold execMsgSend; (try dsimp only) <;> ((repeat' (first | (apply ends_fixed) | (apply endsAfter_fixed) | (apply endsPost_fixed) | (apply endsAtom_fixed) | (apply vissue_fixed; intro _) | (apply resAll_bind; intro _) | split)) <;> (first | (with_reducible rfl) | (simp; done) | (simp [State.fixed]; done) | (simp [*]; done) | (have h9 := congrArg (fun p => State.fixed p.1) ‹_ = (_, _)›; simp at h9; simp [h9]; done) | (have h9 := congrArg (fun p => State.fixed p.1) ‹_ = (_, _)›; simp at h9; simp [← h9]; done) | (simp_all; done)))
@[simp] theorem execMsgRecv_fixed (a0) (s) : KeepsOut s.fixed (execMsgRecv a0 s) := by
  unfold execMsgRecv; refine ends_fixed _ _ _ rfl ?_; (repeat' (first | split | (apply resAll_bind; intro _))) <;> simp
@[simp] theorem execMsgPoll_fixed (a0) (s) : KeepsOut s.fixed (execMsgPoll a0 s) := by
  unfold execMsgPoll; exact ends_fixed _ _ _ rfl (resAll_bind _ _ _ fun _ => by simp)
@[simp] theorem flagUpdate_fixed (a0) (s) (a2) : KeepsOut s.fixed (flagUpdate a0 s a2) := by
  unfold flagUpdate; (try dsimp only) <;> ((repeat' (first | (apply ends_fixed) | (apply endsAfter_fixed) | (apply endsPost_fixed) | (apply endsAtom_fixed) | (apply vissue_fixed; intro _) | (apply resAll_bind; intro _) | split)) <;> (first | (with_reducible rfl) | (simp; done) | (simp [State.fixed]; done) | (simp [*]; done) | (have h9 := congrArg (fun p => State.fixed p.1) ‹_ = (_, _)›; simp at h9; simp [h9]; done) | (have h9 := congrArg (fun p => State.fixed p.1) ‹_ = (_, _)›; simp at h9; simp [← h9]; done) | (simp_all; done)))
@[simp] theorem execFlagAdd_fixed (a0) (s) : KeepsOut s.fixed (execFlagAdd a0 s) := by
  unfold execFlagAdd; simp
@[simp] theorem execFlagSet_fixed (a0) (s) : KeepsOut s.fixed (execFlagSet a0 s) := by
  unfold execFlagSet; simp
@[simp] theorem observed_fixed (s) (a1) : (State.observed s a1).fixed = s.fixed := by
  unfold State.observed; simp
@[simp] theorem execFlagWait_fixed (a0) (s) : KeepsOut s.fixed (execFlagWait a0 s) := by
  unfold execFlagWait; refine ends_fixed _ _ _ rfl ?_; (repeat' (first | split | (apply resAll_bind; intro _))) <;> simp
@[simp] theorem execFlagRd_fixed (a0) (s) : KeepsOut s.fixed (execFlagRd a0 s) := by
  unfold execFlagRd; refine ends_fixed _ _ _ rfl ?_; (repeat' (first | split | (apply resAll_bind; intro _))) <;> simp
@[simp] theorem setBarrier_fixed (s) (a1) (a2) : (State.setBarrier s a1 a2).fixed = s.fixed := by
  unfold State.setBarrier; simp
@[simp] theorem execBarArrive_fixed (a0) (s) : KeepsOut s.fixed (execBarArrive a0 s) := by
  unfold execBarArrive; (try dsimp only) <;> ((repeat' (first | (apply ends_fixed) | (apply endsAfter_fixed) | (apply endsPost_fixed) | (apply endsAtom_fixed) | (apply vissue_fixed; intro _) | (apply resAll_bind; intro _) | split)) <;> (first | (with_reducible rfl) | (simp; done) | (simp [State.fixed]; done) | (simp [*]; done) | (have h9 := congrArg (fun p => State.fixed p.1) ‹_ = (_, _)›; simp at h9; simp [h9]; done) | (have h9 := congrArg (fun p => State.fixed p.1) ‹_ = (_, _)›; simp at h9; simp [← h9]; done) | (simp_all; done)))
@[simp] theorem execBarWait_fixed (a0) (s) : KeepsOut s.fixed (execBarWait a0 s) := by
  unfold execBarWait; refine ends_fixed _ _ _ rfl ?_; (repeat' (first | split | (apply resAll_bind; intro _))) <;> simp
@[simp] theorem syncWait_fixed (s) (a1) (a2) : KeepsOut s.fixed (syncWait s a1 a2) := by
  unfold syncWait; dsimp only; split <;> simp
@[simp] theorem execBarSync_fixed (a0) (s) : KeepsOut s.fixed (execBarSync a0 s) := by
  unfold execBarSync
  dsimp only
  split
  · simp
  · simp
  · split
    · simp
    · split
      · simp
      · split
        · simp
        · simp
        · split
          · simp
          · have := syncWait_fixed ((s.setBarrier a0.n (((s.barrier a0.n).arrive s.core.id.core).setPart s.core.id.core { ((s.barrier a0.n).arrive s.core.id.core).part s.core.id.core with sip := true, saved := (s.barrier a0.n).token s.core.id.core })).settled) a0 ((s.barrier a0.n).token s.core.id.core)
            simpa using this
@[simp] theorem execBarInit_fixed (a0) (s) : KeepsOut s.fixed (execBarInit a0 s) := by
  unfold execBarInit; exact ends_fixed _ _ _ rfl (resAll_bind _ _ _ fun _ => by simp)

/-! ## TaskBuilder -/

@[simp] theorem setBuilder_fixed (s) (a1) : (State.setBuilder s a1).fixed = s.fixed := by
  unfold State.setBuilder; simp
@[simp] theorem execTbNew_fixed (a0) (s) : KeepsOut s.fixed (execTbNew a0 s) := by
  unfold execTbNew; refine ends_fixed _ _ _ rfl ?_; (repeat' (first | split | (apply resAll_bind; intro _))) <;> simp
@[simp] theorem execTbReg_fixed (a0) (s) : KeepsOut s.fixed (execTbReg a0 s) := by
  unfold execTbReg; refine ends_fixed _ _ _ rfl ?_; (repeat' (first | split | (apply resAll_bind; intro _))) <;> simp
@[simp] theorem execTbArg_fixed (a0) (s) : KeepsOut s.fixed (execTbArg a0 s) := by
  unfold execTbArg; refine ends_fixed _ _ _ rfl ?_; (repeat' (first | split | (apply resAll_bind; intro _))) <;> simp
@[simp] theorem execTbFlag_fixed (a0) (s) : KeepsOut s.fixed (execTbFlag a0 s) := by
  unfold execTbFlag; refine ends_fixed _ _ _ rfl ?_; (repeat' (first | split | (apply resAll_bind; intro _))) <;> simp
@[simp] theorem execTbTag_fixed (a0) (s) : KeepsOut s.fixed (execTbTag a0 s) := by
  unfold execTbTag; refine ends_fixed _ _ _ rfl ?_; (repeat' (first | split | (apply resAll_bind; intro _))) <;> simp
@[simp] theorem execTbPost_fixed (a0) (s) : KeepsOut s.fixed (execTbPost a0 s) := by
  unfold execTbPost; refine endsPost_fixed _ _ _ _ _ rfl ?_; (repeat' (first | split | (apply resAll_bind; intro _))) <;> simp
@[simp] theorem execTbCancel_fixed (a0) (s) : KeepsOut s.fixed (execTbCancel a0 s) := by
  unfold execTbCancel; (repeat' (first | dsimp only | (apply ends_fixed) | (apply endsAfter_fixed) | (apply endsPost_fixed) | (apply endsAtom_fixed) | (refine vissue_fixed _ _ _ _ ?_ (fun _ => ?_)) | (refine resAll_bind2 (Posted.keeps s.fixed) _ _ _ (by simp; done) (fun _ _ => ?_)) | (refine resAll_bind2 (fun t => State.fixed t = s.fixed) _ _ _ (by simp; done) (fun _ _ => ?_)) | (apply resAll_bind; intro _) | split)) <;> (first | (with_reducible rfl) | (simp; done) | (simp [State.fixed]; done) | (simp [*]; done) | (have h9 := congrArg (fun p => State.fixed p.1) ‹_ = (_, _)›; simp at h9; simp [h9]; done) | (have h9 := congrArg (fun p => State.fixed p.1) ‹_ = (_, _)›; simp at h9; simp [← h9]; done) | (simp_all; done) | (simp [foldl_fixed]; done) | (rw [foldl_fixed _ _ (fun _ _ => by simp)]; simp; done))
@[simp] theorem execTwait_fixed (a0) (s) : KeepsOut s.fixed (execTwait a0 s) := by
  unfold execTwait; dsimp only; (repeat' split) <;> (first | (simp; done) | simpa using wrote_fixed (s.observed true) _ _)
@[simp] theorem execTqState_fixed (a0) (s) : KeepsOut s.fixed (execTqState a0 s) := by
  unfold execTqState; exact ends_fixed _ _ _ rfl (resAll_bind _ _ _ fun _ => by simp)
@[simp] theorem execTqFree_fixed (a0) (s) : KeepsOut s.fixed (execTqFree a0 s) := by
  unfold execTqFree; exact ends_fixed _ _ _ rfl (resAll_bind _ _ _ fun _ => by simp)

/-! ## Windows -/

@[simp] theorem execWinMap_fixed (a0) (s) : KeepsOut s.fixed (execWinMap a0 s) := by
  unfold execWinMap; refine ends_fixed _ _ _ rfl ?_; (repeat' (first | split | (apply resAll_bind; intro _))) <;> simp
@[simp] theorem execWinUnmap_fixed (a0) (s) : KeepsOut s.fixed (execWinUnmap a0 s) := by
  unfold execWinUnmap; refine ends_fixed _ _ _ rfl ?_; (repeat' (first | split | (apply resAll_bind; intro _))) <;> simp
@[simp] theorem execWinAllow_fixed (a0) (s) : KeepsOut s.fixed (execWinAllow a0 s) := by
  unfold execWinAllow; refine ends_fixed _ _ _ rfl ?_; (repeat' (first | split | (apply resAll_bind; intro _))) <;> simp
@[simp] theorem execWinStat_fixed (a0) (s) : KeepsOut s.fixed (execWinStat a0 s) := by
  unfold execWinStat; refine ends_fixed _ _ _ rfl ?_; (repeat' (first | split | (apply resAll_bind; intro _))) <;> simp
@[simp] theorem execRpost_fixed (a0) (s) : KeepsOut s.fixed (execRpost a0 s) := by
  unfold execRpost; refine endsPost_fixed _ _ _ _ _ rfl ?_; (repeat' (first | split | (apply resAll_bind; intro _))) <;> simp
@[simp] theorem execRflag_fixed (a0) (s) : KeepsOut s.fixed (execRflag a0 s) := by
  unfold execRflag; (try dsimp only) <;> ((repeat' (first | (apply ends_fixed) | (apply endsAfter_fixed) | (apply endsPost_fixed) | (apply endsAtom_fixed) | (apply vissue_fixed; intro _) | (apply resAll_bind; intro _) | split)) <;> (first | (with_reducible rfl) | (simp; done) | (simp [State.fixed]; done) | (simp [*]; done) | (have h9 := congrArg (fun p => State.fixed p.1) ‹_ = (_, _)›; simp at h9; simp [h9]; done) | (have h9 := congrArg (fun p => State.fixed p.1) ‹_ = (_, _)›; simp at h9; simp [← h9]; done) | (simp_all; done)))

/-! ## Delivery -/

@[simp] theorem consumeSaved_fixed (s) (a1) (a2) (a3) : (State.consumeSaved s a1 a2 a3).fixed = s.fixed := by
  unfold State.consumeSaved; split <;> simp
@[simp] theorem deliverPost_fixed (s) (a1) (a2) (a3) (a4) : (State.deliverPost s a1 a2 a3 a4).1.fixed = s.fixed := by
  unfold State.deliverPost
  split
  · rfl
  · dsimp only; split <;> try simp
    split <;> try simp
    rename_i hq
    have := (enterTask_fixed _ _ _ _).1 _ hq
    simpa using this
@[simp] theorem deliverAny_fixed (s) (a1) (a2) : (State.deliverAny s a1 a2).1.fixed = s.fixed := by
  unfold State.deliverAny; (repeat' (first | dsimp only | split)) <;> (first | (simp; done) | (have h9 := congrArg (fun p => State.fixed p.1) ‹_ = (_, _)›; simp at h9; simp [h9]; done) | (simp_all; done))
@[simp] theorem handOnPost_fixed (s) (a1) (a2) (a3) (a4) : (State.handOnPost s a1 a2 a3 a4).1.fixed = s.fixed := by
  unfold State.handOnPost; dsimp only; (repeat' split) <;> (first | (simp; done) | (have h9 := congrArg (fun p => State.fixed p.1) ‹_ = (_, _)›; simp at h9; simp [h9]))

/-! ## Palette -/

@[simp] theorem setOwner_fixed (s) (a1) (a2) : (State.setOwner s a1 a2).fixed = s.fixed := by
  unfold State.setOwner; simp
@[simp] theorem execPalClaim_fixed (a0) (s) : KeepsOut s.fixed (execPalClaim a0 s) := by
  unfold execPalClaim; refine ends_fixed _ _ _ rfl ?_; (repeat' (first | split | (apply resAll_bind; intro _))) <;> simp
@[simp] theorem execPalRel_fixed (a0) (s) : KeepsOut s.fixed (execPalRel a0 s) := by
  unfold execPalRel; refine ends_fixed _ _ _ rfl ?_; (repeat' (first | split | (apply resAll_bind; intro _))) <;> simp
@[simp] theorem execPalOwn_fixed (a0) (s) : KeepsOut s.fixed (execPalOwn a0 s) := by
  unfold execPalOwn; exact ends_fixed _ _ _ rfl (resAll_bind _ _ _ fun _ => by simp)
@[simp] theorem execLeaseSet_fixed (a0) (s) : KeepsOut s.fixed (execLeaseSet a0 s) := by
  unfold execLeaseSet; refine ends_fixed _ _ _ rfl ?_; (repeat' (first | split | (apply resAll_bind; intro _))) <;> simp
@[simp] theorem execLeaseGet_fixed (a0) (s) : KeepsOut s.fixed (execLeaseGet a0 s) := by
  unfold execLeaseGet; exact ends_fixed _ _ _ rfl (resAll_bind _ _ _ fun _ => by simp)

end Sys2Proof.Machine
end

