-- ==== Sys2Proof/Laws/FixedModule.lean ====
section
/-! SUPPORT. Frame lemmas: the vector engine's rules, the fabric, the host queues and the module keep the boot state, the capabilities and the place in the system. -/

namespace Sys2Proof.Machine

/-! ## VectorEngine -/

@[simp] theorem setVec_fixed (s) (a1) : (State.setVec s a1).fixed = s.fixed := by
  unfold State.setVec; simp
@[simp] theorem setRun_fixed (s) (a1) : (State.setRun s a1).fixed = s.fixed := by
  unfold State.setRun; simp
@[simp] theorem execVectorResultLand_fixed (s) : KeepsOut s.fixed (execVectorResultLand s) := by
  unfold execVectorResultLand; dsimp only; (repeat' split) <;> simp
@[simp] theorem execHoldRelease_fixed (s) : KeepsOut s.fixed (execHoldRelease s) := by
  unfold execHoldRelease; (repeat' (first | split | (apply resAll_bind; intro _))) <;> simp
@[simp] theorem execKernelIterationBoundary_fixed (s) : KeepsOut s.fixed (execKernelIterationBoundary s) := by
  unfold execKernelIterationBoundary; dsimp only; (repeat' split) <;> simp
@[simp] theorem vecFault_fixed (s) (a1) (a2) : (State.vecFault s a1 a2).fixed = s.fixed := by
  unfold State.vecFault; simp
theorem vissue_fixed (x : Fixed) (s tm act) (hs : s.fixed = x) (h : ∀ r, VRes.keeps x (act r)) : KeepsOut x (vissue s tm act) := by
  unfold vissue
  dsimp only
  split
  · simp [hs]
  · rename_i r _
    have := h r
    split
    · simp [hs]
    · cases hr : act r <;> simp_all
@[simp] theorem vtile_fixed (s) (a1) (a2) (a3) (a4) (a5) (a6) : KeepsOut s.fixed (vtile s a1 a2 a3 a4 a5 a6) := by
  unfold vtile; dsimp only; refine vissue_fixed _ _ _ _ rfl (fun _ => ?_); (repeat' split) <;> simp
@[simp] theorem execNop_fixed (s) : KeepsOut s.fixed (execNop s) := by
  unfold execNop; (repeat' (first | dsimp only | (apply ends_fixed) | (apply endsAfter_fixed) | (apply endsPost_fixed) | (apply endsAtom_fixed) | (refine vissue_fixed _ _ _ _ ?_ (fun _ => ?_)) | (refine resAll_bind2 (Posted.keeps s.fixed) _ _ _ (by simp; done) (fun _ _ => ?_)) | (refine resAll_bind2 (fun t => State.fixed t = s.fixed) _ _ _ (by simp; done) (fun _ _ => ?_)) | (apply resAll_bind; intro _) | split)) <;> (first | (with_reducible rfl) | (simp; done) | (simp [State.fixed]; done) | (simp [*]; done) | (have h9 := congrArg (fun p => State.fixed p.1) ‹_ = (_, _)›; simp at h9; simp [h9]; done) | (have h9 := congrArg (fun p => State.fixed p.1) ‹_ = (_, _)›; simp at h9; simp [← h9]; done) | (simp_all; done))
@[simp] theorem vecFresh_fixed (s) (a1) (a2) : (State.vecFresh s a1 a2).fixed = s.fixed := by
  unfold State.vecFresh; simp
@[simp] theorem vecResume_fixed (s) (a1) (a2) (a3) (a4) (a5) (a6) (a7) : (State.vecResume s a1 a2 a3 a4 a5 a6 a7).fixed = s.fixed := by
  unfold State.vecResume; simp
@[simp] theorem vecStart_fixed (s) (a1) : (State.vecStart s a1).fixed = s.fixed := by
  unfold State.vecStart; dsimp only; (repeat' split) <;> simp

/-! ## Engines -/

@[simp] theorem toEngine_fixed (s) (a1) (a2) (a3) (a4) : (State.toEngine s a1 a2 a3 a4).fixed = s.fixed := by
  unfold State.toEngine; simp
@[simp] theorem updCanvas_fixed (s) (a1) (a2) (a3) : (State.updCanvas s a1 a2 a3).fixed = s.fixed := by
  unfold State.updCanvas; simp
@[simp] theorem execCanvasLeaseGrant_fixed (s) : KeepsOut s.fixed (execCanvasLeaseGrant s) := by
  unfold execCanvasLeaseGrant; dsimp only; split <;> simp
@[simp] theorem execLeaseEnd_fixed (s) : KeepsOut s.fixed (execLeaseEnd s) := by
  unfold execLeaseEnd; dsimp only; (repeat' split) <;> simp
@[simp] theorem execCanvasCold_fixed (s) : KeepsOut s.fixed (execCanvasCold s) := by
  unfold execCanvasCold; split <;> simp
@[simp] theorem execGustTokenTake_fixed (s) : KeepsOut s.fixed (execGustTokenTake s) := by
  unfold execGustTokenTake; dsimp only; split <;> simp
@[simp] theorem execRampWindowEnd_fixed (s) : KeepsOut s.fixed (execRampWindowEnd s) := by
  unfold execRampWindowEnd; dsimp only; split <;> simp
@[simp] theorem execGustTokenAdvance_fixed (s) : KeepsOut s.fixed (execGustTokenAdvance s) := by
  unfold execGustTokenAdvance; dsimp only; split <;> simp
theorem dispatchVector_fixed (s) : ∀ t, State.dispatchVector s = some t → t.fixed = s.fixed := by
  unfold State.dispatchVector; split <;> simp
theorem dispatchCopy_fixed (s) (a1) : ∀ t, State.dispatchCopy s a1 = some t → t.fixed = s.fixed := by
  unfold State.dispatchCopy; dsimp only; (repeat' split) <;> simp
theorem dispatchShaper_fixed (s) : ∀ t, State.dispatchShaper s = some t → t.fixed = s.fixed := by
  unfold State.dispatchShaper; split <;> simp
theorem dispatchCanvas_fixed (s) : ∀ t, State.dispatchCanvas s = some t → t.fixed = s.fixed := by
  unfold State.dispatchCanvas; dsimp only; (repeat' split) <;> simp
theorem dispatchFabric_fixed (s) : ∀ t, State.dispatchFabric s = some t → t.fixed = s.fixed := by
  unfold State.dispatchFabric; dsimp only; (repeat' split) <;> (first | (simp; done) | (have h9 := congrArg (fun p => State.fixed p.1) ‹_ = (_, _)›; simp at h9; simp [h9]))
@[simp] theorem execTaskDispatch_fixed (a0) (s) : KeepsOut s.fixed (execTaskDispatch a0 s) := by
  unfold execTaskDispatch
  dsimp only
  split
  · rename_i t h
    rw [keepsOut_next]
    split at h
    · split at h
      · exact dispatchVector_fixed s t h
      · simp at h
    · exact dispatchCopy_fixed s _ t h
    · exact dispatchShaper_fixed s t h
    · exact dispatchCanvas_fixed s t h
    · exact dispatchFabric_fixed s t h
  · simp
theorem completeVector_fixed (s) : ∀ t, State.completeVector s = some t → t.fixed = s.fixed := by
  unfold State.completeVector; split <;> simp
theorem completeCopy_fixed (s) (a1) : ∀ t, State.completeCopy s a1 = some t → t.fixed = s.fixed := by
  unfold State.completeCopy; dsimp only; (repeat' split) <;> (first | (simp; done) | exact afterWork_fixed _ _ _ _ _)
theorem whenRead_fixed (s) (a1) (a2) (a3) (f : State → State) (h : (f s).fixed = s.fixed) : ∀ t, State.whenRead s a1 a2 a3 f = some t → t.fixed = s.fixed := by
  unfold State.whenRead
  split
  · split <;> simp [h]
  · exact fetchAll_fixed _ _ _ _ _
@[simp] theorem boundary_fixed (s) (a1) (a2) : (State.boundary s a1 a2).fixed = s.fixed := by
  unfold State.boundary; dsimp only; (repeat' split) <;> simp
@[simp] theorem runCanvas_fixed (s) (a1) (a2) (a3) : (State.runCanvas s a1 a2 a3).fixed = s.fixed := by
  unfold State.runCanvas; split <;> simp
theorem completeShaper_fixed (s) : ∀ t, State.completeShaper s = some t → t.fixed = s.fixed := by
  intro t h
  obtain ⟨k, -, hk⟩ := Option.bind_eq_some_iff.1 h
  exact whenRead_fixed _ _ _ _ _ (by simp) _ hk
theorem completeCanvas_fixed (s) : ∀ t, State.completeCanvas s = some t → t.fixed = s.fixed := by
  intro t h
  obtain ⟨k, -, hk⟩ := Option.bind_eq_some_iff.1 h
  split at hk
  · obtain ⟨u, hu, rfl⟩ := Option.map_eq_some_iff.1 hk
    rw [boundary_fixed]; exact afterWork_fixed _ _ _ _ _ _ hu
  · split at hk
    · cases hk
    · exact whenRead_fixed _ _ _ _ _ (by simp) _ hk
theorem completeFabric_fixed (s) : ∀ t, State.completeFabric s = some t → t.fixed = s.fixed := by
  unfold State.completeFabric; simp
@[simp] theorem execTaskComplete_fixed (a0) (s) : KeepsOut s.fixed (execTaskComplete a0 s) := by
  unfold execTaskComplete
  dsimp only
  split
  · rename_i t h
    rw [keepsOut_next]
    split at h
    · split at h
      · exact completeVector_fixed s t h
      · simp at h
    · exact completeCopy_fixed s _ t h
    · exact completeShaper_fixed s t h
    · exact completeCanvas_fixed s t h
    · exact completeFabric_fixed s t h
  · simp
  · simp
@[simp] theorem execStalledInstructionResume_fixed (s) : KeepsOut s.fixed (execStalledInstructionResume s) := by
  unfold execStalledInstructionResume; dsimp only; (repeat' split) <;> simp

/-! ## Fabric -/

@[simp] theorem takePacket_fixed (s) (a1) (a2) : (State.takePacket s a1 a2).fixed = s.fixed := by
  unfold State.takePacket; simp
@[simp] theorem deliverEvent_fixed (a0) (a1) (a2) (s) : KeepsOut s.fixed (deliverEvent a0 a1 a2 s) := by
  unfold deliverEvent; (repeat' (first | split | (apply resAll_bind; intro _))) <;> simp
@[simp] theorem execWrite_fixed (a0) (s) : KeepsOut s.fixed (execWrite a0 s) := by
  unfold execWrite; simp
@[simp] theorem execAtomic_fixed (a0) (s) : KeepsOut s.fixed (execAtomic a0 s) := by
  unfold execAtomic; simp
@[simp] theorem execFlag_fixed (a0) (s) : KeepsOut s.fixed (execFlag a0 s) := by
  unfold execFlag; simp
@[simp] theorem execMsg_fixed (a0) (s) : KeepsOut s.fixed (execMsg a0 s) := by
  unfold execMsg; simp
@[simp] theorem execPost_fixed (a0) (s) : KeepsOut s.fixed (execPost a0 s) := by
  unfold execPost; simp
@[simp] theorem execCancel_fixed (a0) (s) : KeepsOut s.fixed (execCancel a0 s) := by
  unfold execCancel; simp
@[simp] theorem execHbm_fixed (a0) (s) : KeepsOut s.fixed (execHbm a0 s) := by
  unfold execHbm; simp
@[simp] theorem forget_fixed (s) (a1) (a2) : (State.forget s a1 a2).fixed = s.fixed := by
  unfold State.forget; simp
theorem asCore_fixed (s : State) (id) (f : State → State) (h : ∀ t, (f t).fixed = t.fixed) : (s.asCore id f).fixed = s.fixed := by
  unfold State.asCore; rw [actAs_fixed, h, actAs_fixed]
@[simp] theorem replyTo_fixed (s) (a1) (a2) : (State.replyTo s a1 a2).fixed = s.fixed := by
  unfold State.replyTo
  split
  · rfl
  · exact asCore_fixed _ _ _ (fun t => by simp)
@[simp] theorem denyTo_fixed (s) (a1) (a2) : (State.denyTo s a1 a2).fixed = s.fixed := by
  unfold State.denyTo
  split
  · rfl
  · exact asCore_fixed _ _ _ (fun t => by simp)
@[simp] theorem farDone_fixed (s) (a1) (a2) : (State.farDone s a1 a2).fixed = s.fixed := by
  unfold State.farDone; split <;> simp
@[simp] theorem accepted_fixed (s) (a1) (a2) : (State.accepted s a1 a2).fixed = s.fixed := by
  unfold State.accepted; simp
@[simp] theorem setDen_fixed (s) (a1) : (State.setDen s a1).fixed = s.fixed := by
  unfold State.setDen; split <;> simp
@[simp] theorem denied_fixed (s) (a1) (a2) (a3) : (State.denied s a1 a2 a3).fixed = s.fixed := by
  unfold State.denied; dsimp only; (repeat' split) <;> simp
@[simp] theorem retriedAt_fixed (s) (a1) (a2) : (State.retriedAt s a1 a2).fixed = s.fixed := by
  unfold State.retriedAt; split <;> simp
@[simp] theorem consumed_fixed (s) (a1) (a2) : (State.consumed s a1 a2).fixed = s.fixed := by
  unfold State.consumed; simp
@[simp] theorem execAck_fixed (a0) (s) : KeepsOut s.fixed (execAck a0 s) := by
  unfold execAck; split <;> simp
@[simp] theorem execDeny_fixed (a0) (s) : KeepsOut s.fixed (execDeny a0 s) := by
  unfold execDeny; split <;> simp
@[simp] theorem execReply_fixed (a0) (s) : KeepsOut s.fixed (execReply a0 s) := by
  unfold execReply; split <;> simp
@[simp] theorem execRetry_fixed (a0) (s) : KeepsOut s.fixed (execRetry a0 s) := by
  unfold execRetry; split <;> simp
@[simp] theorem execPacketResend_fixed (a0) (s) : KeepsOut s.fixed (execPacketResend a0 s) := by
  unfold execPacketResend; split <;> simp
@[simp] theorem execRetriedPacketResend_fixed (a0) (s) : KeepsOut s.fixed (execRetriedPacketResend a0 s) := by
  unfold execRetriedPacketResend; dsimp only; (repeat' split) <;> (first | (simp; done) | (have h9 := congrArg (fun p => State.fixed p.1) ‹_ = (_, _)›; simp at h9; simp [h9]))

/-! ## Sketches -/

@[simp] theorem setBlock_fixed (s) (a1) (a2) (a3) : (State.setBlock s a1 a2 a3).fixed = s.fixed := by
  unfold State.setBlock; simp
@[simp] theorem makeResident_fixed (s) (a1) (a2) (a3) : (State.makeResident s a1 a2 a3).fixed = s.fixed := by
  unfold State.makeResident; dsimp only; (repeat' split) <;> simp
@[simp] theorem execSketchReload_fixed (a0) (s) : KeepsOut s.fixed (execSketchReload a0 s) := by
  unfold execSketchReload; dsimp only; split <;> simp
@[simp] theorem sksDone_fixed (s) (a1) : (State.sksDone s a1).fixed = s.fixed := by
  unfold State.sksDone; dsimp only; split <;> simp
@[simp] theorem sksCommit_fixed (s) (a1) : KeepsOut s.fixed (sksCommit s a1) := by
  unfold sksCommit; dsimp only; (repeat' split) <;> simp
@[simp] theorem skStands_fixed (s) (a1) (a2) : (State.skStands s a1 a2).fixed = s.fixed := by
  unfold State.skStands; simp
@[simp] theorem sksRun_fixed (s) (a1) (a2) (a3) (a4) : KeepsOut s.fixed (sksRun s a1 a2 a3 a4) := by
  have h : (if skLoads a3 then s.seesAll else s).fixed = s.fixed := by split <;> simp
  unfold sksRun; dsimp only; generalize (if skLoads a3 then s.seesAll else s) = u at h ⊢; rw [← h]; split <;> simp
@[simp] theorem execSks_fixed (a0) (s) : KeepsOut s.fixed (execSks a0 s) := by
  unfold execSks; (repeat' (first | dsimp only | split)) <;> simp
@[simp] theorem execSkBind_fixed (a0) (s) : KeepsOut s.fixed (execSkBind a0 s) := by
  unfold execSkBind; refine ends_fixed _ _ _ rfl ?_; (repeat' (first | split | (apply resAll_bind; intro _))) <;> simp
@[simp] theorem execSkUnbind_fixed (a0) (s) : KeepsOut s.fixed (execSkUnbind a0 s) := by
  unfold execSkUnbind; exact ends_fixed _ _ _ rfl (resAll_bind _ _ _ fun _ => by simp)
@[simp] theorem execSkWrite_fixed (a0) (s) : KeepsOut s.fixed (execSkWrite a0 s) := by
  unfold execSkWrite; (try dsimp only) <;> ((repeat' (first | (apply ends_fixed) | (apply endsAfter_fixed) | (apply endsPost_fixed) | (apply endsAtom_fixed) | (apply vissue_fixed; intro _) | (apply resAll_bind; intro _) | split)) <;> (first | (with_reducible rfl) | (simp; done) | (simp [State.fixed]; done) | (simp [*]; done) | (have h9 := congrArg (fun p => State.fixed p.1) ‹_ = (_, _)›; simp at h9; simp [h9]; done) | (have h9 := congrArg (fun p => State.fixed p.1) ‹_ = (_, _)›; simp at h9; simp [← h9]; done) | (simp_all; done)))
@[simp] theorem execSkInval_fixed (a0) (s) : KeepsOut s.fixed (execSkInval a0 s) := by
  unfold execSkInval; refine ends_fixed _ _ _ rfl ?_; (repeat' (first | split | (apply resAll_bind; intro _))) <;> simp

/-! ## Launch -/

@[simp] theorem createJob_fixed (s) (a1) (a2) (a3) (a4) (a5) (a6) (a7) : (State.createJob s a1 a2 a3 a4 a5 a6 a7).fixed = s.fixed := by
  unfold State.createJob; simp [foldl_fixed]

/-! ## HostQueues -/

@[simp] theorem resetDone_fixed (s) (a1) (a2) : (State.resetDone s a1 a2).fixed = s.fixed := by
  unfold State.resetDone; simp
@[simp] theorem reset_fixed (s) (a1) (a2) : (State.reset_ s a1 a2).fixed = s.fixed := by
  unfold State.reset_; split <;> simp
@[simp] theorem writeConfig_fixed (s) (a1) (a2) (a3) (a4) : (State.writeConfig s a1 a2 a3 a4).fixed = s.fixed := by
  unfold State.writeConfig; dsimp only; (repeat' split) <;> simp
@[simp] theorem writeBar0_fixed (s) (a1) (a2) (a3) : (State.writeBar0 s a1 a2 a3).fixed = s.fixed := by
  unfold State.writeBar0; (repeat' (first | split | (apply resAll_bind; intro _))) <;> simp
@[simp] theorem execNotify_fixed (a0) (a1) (a2) (s) : KeepsOut s.fixed (execNotify a0 a1 a2 s) := by
  unfold execNotify; (repeat' (first | split | (apply resAll_bind; intro _))) <;> simp
@[simp] theorem execMbxCtl_fixed (a0) (a1) (s) : KeepsOut s.fixed (execMbxCtl a0 a1 s) := by
  unfold execMbxCtl; split <;> simp
@[simp] theorem execQueueEnable_fixed (a0) (a1) (s) : KeepsOut s.fixed (execQueueEnable a0 a1 s) := by
  unfold execQueueEnable; (repeat' (first | split | (apply resAll_bind; intro _))) <;> simp
@[simp] theorem execQueuePause_fixed (a0) (a1) (s) : KeepsOut s.fixed (execQueuePause a0 a1 s) := by
  unfold execQueuePause; (repeat' (first | split | (apply resAll_bind; intro _))) <;> simp
@[simp] theorem execQueueReset_fixed (a0) (a1) (s) : KeepsOut s.fixed (execQueueReset a0 a1 s) := by
  unfold execQueueReset; (repeat' (first | split | (apply resAll_bind; intro _))) <;> simp
@[simp] theorem execRegisterWrite_fixed (a0) (a1) (a2) (s) : KeepsOut s.fixed (execRegisterWrite a0 a1 a2 s) := by
  unfold execRegisterWrite; split <;> simp
@[simp] theorem execSetQn_fixed (a0) (a1) (s) : KeepsOut s.fixed (execSetQn a0 a1 s) := by
  unfold execSetQn; dsimp only; split <;> simp
@[simp] theorem execPacketFetch_fixed (a0) (a1) (s) : KeepsOut s.fixed (execPacketFetch a0 a1 s) := by
  unfold execPacketFetch; dsimp only; (repeat' split) <;> simp_all [foldl_fixed]
@[simp] theorem execPacketRefetch_fixed (a0) (a1) (s) : KeepsOut s.fixed (execPacketRefetch a0 a1 s) := by
  unfold execPacketRefetch; split <;> simp
@[simp] theorem startPkt_fixed (s) (a1) (a2) (a3) (a4) : (State.startPkt s a1 a2 a3 a4).fixed = s.fixed := by
  unfold State.startPkt; simp
@[simp] theorem failStart_fixed (s) (a1) (a2) (a3) (a4) : (State.failStart s a1 a2 a3 a4).fixed = s.fixed := by
  unfold State.failStart; simp
@[simp] theorem launchReadDone_fixed (s) (a1) (a2) : (State.launchReadDone s a1 a2).fixed = s.fixed := by
  unfold State.launchReadDone
  split
  · rfl
  · exact foldl_fixed _ _ (fun _ _ => by split <;> simp) _
@[simp] theorem execLaunch_fixed (a0) (a1) (a2) (s) : KeepsOut s.fixed (execLaunch a0 a1 a2 s) := by
  unfold execLaunch; dsimp only; (repeat' split) <;> simp
@[simp] theorem startFeed_fixed (s) (a1) (a2) (a3) : (State.startFeed s a1 a2 a3).fixed = s.fixed := by
  unfold State.startFeed; (repeat' (first | split | (apply resAll_bind; intro _))) <;> simp
theorem feedOne_fixed (s) (a1) (a2) (a3) : ∀ t, State.feedOne s a1 a2 a3 = some t → t.fixed = s.fixed := by
  unfold State.feedOne; dsimp only; (repeat' split) <;> simp
@[simp] theorem execFeed_fixed (a0) (a1) (a2) (s) : KeepsOut s.fixed (execFeed a0 a1 a2 s) := by
  unfold execFeed
  split
  · simp
  · split
    · rename_i t h
      rw [keepsOut_next]
      obtain ⟨p, -, hp⟩ := Option.bind_eq_some_iff.1 h
      exact feedOne_fixed _ _ _ _ _ hp
    · simp
@[simp] theorem execSignal_fixed (a0) (a1) (a2) (s) : KeepsOut s.fixed (execSignal a0 a1 a2 s) := by
  unfold execSignal; dsimp only; (repeat' split) <;> simp
@[simp] theorem execBarrierAnd_fixed (a0) (a1) (a2) (s) : KeepsOut s.fixed (execBarrierAnd a0 a1 a2 s) := by
  unfold execBarrierAnd; (repeat' (first | split | (apply resAll_bind; intro _))) <;> simp
@[simp] theorem startCopy_fixed (s) (a1) (a2) (a3) : (State.startCopy s a1 a2 a3).fixed = s.fixed := by
  unfold State.startCopy; (repeat' (first | split | (apply resAll_bind; intro _))) <;> simp
theorem modul_fixed (s : State) (m : Modul) (h : m.caps = s.modul.caps ∧ m.torus = s.modul.torus ∧ m.origin = s.modul.origin ∧ m.physical = s.modul.physical) : State.fixed { s with modul := m } = s.fixed := by
  obtain ⟨h1, h2, h3, h4⟩ := h
  simp only [State.fixed, h1, h2, h3, h4]
@[simp] theorem sendCopy_fixed (s) (a1) (a2) (a3) (a4) (a5) : (State.sendCopy s a1 a2 a3 a4 a5).fixed = s.fixed := by
  unfold State.sendCopy; simp
@[simp] theorem sendCopies_fixed (s) (a1) (a2) (a3) (a4) (a5) : (State.sendCopies s a1 a2 a3 a4 a5).1.fixed = s.fixed := by
  have h : ∀ (l : List (Nat × PktBody)) (x : State × List (Nat × PktBody)), (l.foldl (fun x b =>
      if (x.1.dieAt a4.copyCore.die).pairRoom (x.1.dieNumber b.1) copyClass then (x.1.sendCopy a1 a2 a3 a4 b, x.2) else (x.1, x.2 ++ [b])) x).1.fixed = x.1.fixed := by
    intro l
    induction l with
    | nil => exact fun _ => rfl
    | cons b l ih => intro x; rw [List.foldl_cons, ih]; split <;> simp
  exact h a5 (s, [])
@[simp] theorem copyMoved_fixed (s) (a1) (a2) (a3) (a4) (a5) (a6) : (State.copyMoved s a1 a2 a3 a4 a5 a6).fixed = s.fixed := by
  unfold State.copyMoved; simp
theorem copyRead_fixed (s : State) (m : Modul) (a1) (a2) (a3) (h : m.caps = s.modul.caps ∧ m.torus = s.modul.torus ∧ m.origin = s.modul.origin ∧ m.physical = s.modul.physical) :
    ({ s with modul := m }.hostReadDone a1 a2 a3).fixed = s.fixed := (hostReadDone_fixed _ _ _ _).trans (modul_fixed s m h)
theorem copyChunkOf_fixed (s) (a1) (a2) (a3) : ∀ t, State.copyChunkOf s a1 a2 a3 = some t → t.fixed = s.fixed := by
  intro t h
  unfold State.copyChunkOf at h
  dsimp only at h
  split at h
  · cases h
  · split at h
    · cases h; simp
    · repeat' split at h
      all_goals first
        | cases h; done
        | (cases h; simp; done)
        | (cases h; rw [copyMoved_fixed]; exact copyRead_fixed _ _ _ _ _ (hbmWrite_caps ..))
@[simp] theorem execCopy_fixed (a0) (a1) (a2) (s) : KeepsOut s.fixed (execCopy a0 a1 a2 s) := by
  unfold execCopy
  split
  · simp
  · split
    · rename_i t h
      rw [keepsOut_next]
      obtain ⟨p, -, hp⟩ := Option.bind_eq_some_iff.1 h
      exact copyChunkOf_fixed _ _ _ _ _ hp
    · simp
@[simp] theorem execPacketComplete_fixed (a0) (a1) (a2) (s) : KeepsOut s.fixed (execPacketComplete a0 a1 a2 s) := by
  unfold execPacketComplete; (repeat' (first | split | (apply resAll_bind; intro _))) <;> simp
@[simp] theorem execSignalSubtract_fixed (s) : KeepsOut s.fixed (execSignalSubtract s) := by
  unfold execSignalSubtract; split <;> simp
@[simp] theorem releaseLeases_fixed (s) (a1) : (State.releaseLeases s a1).fixed = s.fixed := by
  unfold State.releaseLeases; dsimp only; split <;> simp [foldl_fixed]
@[simp] theorem removeJob_fixed (s) (a1) : (State.removeJob s a1).fixed = s.fixed := by
  unfold State.removeJob; simp [foldl_fixed]
@[simp] theorem failServed_fixed (s) (a1) : (State.failServed s a1).fixed = s.fixed := by
  unfold State.failServed; simp [foldl_fixed]
@[simp] theorem execEndOfJobFence_fixed (a0) (s) : KeepsOut s.fixed (execEndOfJobFence a0 s) := by
  unfold execEndOfJobFence; dsimp only; (repeat' split) <;> simp
@[simp] theorem refill_fixed (s) : (State.refill s).fixed = s.fixed := by
  unfold State.refill; simp
theorem replaceSlot_fixed (s) : ∀ t, State.replaceSlot s = some t → t.fixed = s.fixed := by
  intro t h
  unfold State.replaceSlot at h
  split at h
  · cases h
  · split at h
    · cases h; simp
    · obtain ⟨g, -, rfl⟩ := Option.map_eq_some_iff.1 h
      simp
@[simp] theorem execQuantumExpiry_fixed (s) : KeepsOut s.fixed (execQuantumExpiry s) := by
  unfold execQuantumExpiry
  split
  · simp
  · split
    · simp
    · split
      · rename_i t h
        rw [keepsOut_next]
        exact replaceSlot_fixed _ _ h
      · simp

/-! ## HostPort -/

@[simp] theorem execMailboxWrite_fixed (a0) (a1) (a2) (s) : KeepsOut s.fixed (execMailboxWrite a0 a1 a2 s) := by
  unfold execMailboxWrite; dsimp only; (repeat' split) <;> simp
@[simp] theorem execMailboxRead_fixed (a0) (a1) (a2) (s) : KeepsOut s.fixed (execMailboxRead a0 a1 a2 s) := by
  unfold execMailboxRead; split <;> simp
@[simp] theorem markHostRead_fixed (s) (a1) (a2) (a3) : (State.markHostRead s a1 a2 a3).fixed = s.fixed := by
  unfold State.markHostRead; split <;> simp
@[simp] theorem execHostReadErrorCompletion_fixed (a0) (a1) (a2) (a3) (s) : KeepsOut s.fixed (execHostReadErrorCompletion a0 a1 a2 a3 s) := by
  unfold execHostReadErrorCompletion; split <;> simp
@[simp] theorem execCompletionTimeout_fixed (a0) (a1) (a2) (s) : KeepsOut s.fixed (execCompletionTimeout a0 a1 a2 s) := by
  unfold execCompletionTimeout; split <;> simp
@[simp] theorem execUnexpectedCompletion_fixed (a0) (a1) (a2) (s) : KeepsOut s.fixed (execUnexpectedCompletion a0 a1 a2 s) := by
  unfold execUnexpectedCompletion; split <;> simp
@[simp] theorem execFunctionEnable_fixed (a0) (s) : KeepsOut s.fixed (execFunctionEnable a0 s) := by
  unfold execFunctionEnable; simp
@[simp] theorem sendPosted_fixed (s) (a1) : (State.sendPosted s a1).fixed = s.fixed := by
  unfold State.sendPosted; dsimp only; split <;> simp
@[simp] theorem sendHost_fixed (s) : (State.sendHost s).fixed = s.fixed := by
  unfold State.sendHost; dsimp only; (repeat' split) <;> simp
@[simp] theorem installOn_fixed (s) (a1) : (State.installOn s a1).fixed = s.fixed := by
  unfold State.installOn; simp [foldl_fixed]
@[simp] theorem execFunctionSettings_fixed (a0) (a1) (s) : KeepsOut s.fixed (execFunctionSettings a0 a1 s) := by
  unfold execFunctionSettings; dsimp only; (repeat' split) <;> simp

/-! ## Routing -/

@[simp] theorem linkDown_fixed (s) (a1) (a2) : (State.linkDown s a1 a2).fixed = s.fixed := by
  unfold State.linkDown; dsimp only; (repeat' split) <;> simp_all [foldl_fixed]
@[simp] theorem linkLost_fixed (s) (a1) (a2) : (State.linkLost s a1 a2).fixed = s.fixed := by
  unfold State.linkLost; dsimp only
  exact (modul_fixed _ _ ⟨rfl, rfl, rfl, rfl⟩).trans (linkDown_fixed _ _ _)
@[simp] theorem execLaneFailure_fixed (a0) (a1) (a2) (s) : KeepsOut s.fixed (execLaneFailure a0 a1 a2 s) := by
  unfold execLaneFailure; dsimp only; (repeat' split) <;> simp
@[simp] theorem execRemap_fixed (a0) (a1) (a2) (a3) (s) : KeepsOut s.fixed (execRemap a0 a1 a2 a3 s) := by
  unfold execRemap; dsimp only; split <;> simp
@[simp] theorem execAckremap_fixed (a0) (a1) (a2) (a3) (s) : KeepsOut s.fixed (execAckremap a0 a1 a2 a3 s) := by
  unfold execAckremap; dsimp only; split <;> simp
@[simp] theorem execFlitReplay_fixed (a0) (a1) (a2) (s) : KeepsOut s.fixed (execFlitReplay a0 a1 a2 s) := by
  unfold execFlitReplay; dsimp only; split <;> simp
@[simp] theorem arrive_fixed (s) (a1) (a2) : (State.arrive s a1 a2).fixed = s.fixed := by
  unfold State.arrive; dsimp only; split <;> simp
@[simp] theorem arriveFlow_fixed (s) (a1) (a2) : (State.arriveFlow s a1 a2).fixed = s.fixed := by
  unfold State.arriveFlow; split <;> simp
@[simp] theorem execPacketHop_fixed (a0) (a1) (a2) (s) : KeepsOut s.fixed (execPacketHop a0 a1 a2 s) := by
  unfold execPacketHop; dsimp only; (repeat' split) <;> simp
@[simp] theorem execDetectorThreshold_fixed (a0) (a1) (a2) (s) : KeepsOut s.fixed (execDetectorThreshold a0 a1 a2 s) := by
  unfold execDetectorThreshold; (repeat' (first | split | (apply resAll_bind; intro _))) <;> simp
@[simp] theorem execZephyrTokenArrival_fixed (a0) (a1) (s) : KeepsOut s.fixed (execZephyrTokenArrival a0 a1 s) := by
  unfold execZephyrTokenArrival; dsimp only; (repeat' split) <;> simp
@[simp] theorem passToken_fixed (s) (a1) : (State.passToken s a1).fixed = s.fixed := by
  unfold State.passToken; dsimp only; split <;> simp
@[simp] theorem execTokenPass_fixed (a0) (s) : KeepsOut s.fixed (execTokenPass a0 s) := by
  unfold execTokenPass; dsimp only; split <;> simp
@[simp] theorem execLeeDelivery_fixed (a0) (a1) (s) : KeepsOut s.fixed (execLeeDelivery a0 a1 s) := by
  unfold execLeeDelivery; (repeat' (first | split | (apply resAll_bind; intro _))) <;> simp
@[simp] theorem execLeeAcknowledgement_fixed (a0) (s) : KeepsOut s.fixed (execLeeAcknowledgement a0 s) := by
  unfold execLeeAcknowledgement; dsimp only; split <;> simp
@[simp] theorem execTokenRegeneration_fixed (s) : KeepsOut s.fixed (execTokenRegeneration s) := by
  unfold execTokenRegeneration; dsimp only; split <;> simp
@[simp] theorem execLeeRouteReplacement_fixed (s) : KeepsOut s.fixed (execLeeRouteReplacement s) := by
  unfold execLeeRouteReplacement; (repeat' (first | dsimp only | (apply ends_fixed) | (apply endsAfter_fixed) | (apply endsPost_fixed) | (apply endsAtom_fixed) | (refine vissue_fixed _ _ _ _ ?_ (fun _ => ?_)) | (refine resAll_bind2 (Posted.keeps s.fixed) _ _ _ (by simp; done) (fun _ _ => ?_)) | (refine resAll_bind2 (fun t => State.fixed t = s.fixed) _ _ _ (by simp; done) (fun _ _ => ?_)) | (apply resAll_bind; intro _) | split)) <;> (first | (with_reducible rfl) | (simp; done) | (simp [State.fixed]; done) | (simp [*]; done) | (have h9 := congrArg (fun p => State.fixed p.1) ‹_ = (_, _)›; simp at h9; simp [h9]; done) | (have h9 := congrArg (fun p => State.fixed p.1) ‹_ = (_, _)›; simp at h9; simp [← h9]; done) | (simp_all; done) | (simp [foldl_fixed]; done) | (rw [foldl_fixed _ _ (fun _ _ => by simp)]; simp; done))

/-! ## Power -/

@[simp] theorem startLinks_fixed (s) (a1) : (State.startLinks s a1).fixed = s.fixed := by
  unfold State.startLinks; simp [foldl_fixed]
@[simp] theorem thermalTo_fixed (s) (a1) (a2) : (State.thermalTo s a1 a2).fixed = s.fixed := by
  unfold State.thermalTo; simp
@[simp] theorem execThermalHold_fixed (a0) (s) : KeepsOut s.fixed (execThermalHold a0 s) := by
  unfold execThermalHold; split <;> simp
@[simp] theorem execThermalSingleToken_fixed (a0) (s) : KeepsOut s.fixed (execThermalSingleToken a0 s) := by
  unfold execThermalSingleToken; split <;> simp
@[simp] theorem execExitFromHold_fixed (a0) (s) : KeepsOut s.fixed (execExitFromHold a0 s) := by
  unfold execExitFromHold; split <;> simp
@[simp] theorem spoilFirmware_fixed (s) (a1) : (State.spoilFirmware s a1).fixed = s.fixed := by
  unfold State.spoilFirmware; dsimp only; (repeat' split) <;> simp_all [foldl_fixed]
@[simp] theorem execPatrolScrub_fixed (a0) (a1) (s) : KeepsOut s.fixed (execPatrolScrub a0 a1 s) := by
  unfold execPatrolScrub; dsimp only; (repeat' split) <;> simp
@[simp] theorem upset_fixed (s) (a1) : (State.upset s a1).fixed = s.fixed := by
  unfold State.upset; dsimp only; (repeat' split) <;> simp
@[simp] theorem nextUpset_fixed (s) : (State.nextUpset s).fixed = s.fixed := by
  unfold State.nextUpset; split <;> simp
@[simp] theorem execKeyDelivery_fixed (a0) (a1) (a2) (a3) (s) : KeepsOut s.fixed (execKeyDelivery a0 a1 a2 a3 s) := by
  unfold execKeyDelivery; (repeat' (first | dsimp only | (apply ends_fixed) | (apply endsAfter_fixed) | (apply endsPost_fixed) | (apply endsAtom_fixed) | (refine vissue_fixed _ _ _ _ ?_ (fun _ => ?_)) | (refine resAll_bind2 (Posted.keeps s.fixed) _ _ _ (by simp; done) (fun _ _ => ?_)) | (refine resAll_bind2 (fun t => State.fixed t = s.fixed) _ _ _ (by simp; done) (fun _ _ => ?_)) | (apply resAll_bind; intro _) | split)) <;> (first | (with_reducible rfl) | (simp; done) | (simp [State.fixed]; done) | (simp [*]; done) | (have h9 := congrArg (fun p => State.fixed p.1) ‹_ = (_, _)›; simp at h9; simp [h9]; done) | (have h9 := congrArg (fun p => State.fixed p.1) ‹_ = (_, _)›; simp at h9; simp [← h9]; done) | (simp_all; done) | (simp [foldl_fixed]; done) | (rw [foldl_fixed _ _ (fun _ _ => by simp)]; simp; done))

end Sys2Proof.Machine
end

