-- ==== Sys2Proof/Laws/FixedCore.lean ====
section
/-! SUPPORT. Frame lemmas: scalar, trap and vector instructions keep the boot state, the capabilities and the place in the system. -/

namespace Sys2Proof.Machine

/-! ## Queues -/

@[simp] theorem execWqPop_fixed (a0) (s) : KeepsOut s.fixed (execWqPop a0 s) := by
  unfold execWqPop; refine ends_fixed _ _ _ rfl ?_; (repeat' (first | split | (apply resAll_bind; intro _))) <;> simp
@[simp] theorem execWqCount_fixed (a0) (s) : KeepsOut s.fixed (execWqCount a0 s) := by
  unfold execWqCount; refine ends_fixed _ _ _ rfl ?_; (repeat' (first | split | (apply resAll_bind; intro _))) <;> simp
@[simp] theorem execSigSub_fixed (a0) (s) : KeepsOut s.fixed (execSigSub a0 s) := by
  unfold execSigSub; (try dsimp only) <;> ((repeat' (first | (apply ends_fixed) | (apply endsAfter_fixed) | (apply endsPost_fixed) | (apply endsAtom_fixed) | (apply vissue_fixed; intro _) | (apply resAll_bind; intro _) | split)) <;> (first | (with_reducible rfl) | (simp; done) | (simp [State.fixed]; done) | (simp [*]; done) | (have h9 := congrArg (fun p => State.fixed p.1) ‹_ = (_, _)›; simp at h9; simp [h9]; done) | (have h9 := congrArg (fun p => State.fixed p.1) ‹_ = (_, _)›; simp at h9; simp [← h9]; done) | (simp_all; done)))
@[simp] theorem execSigRead_fixed (a0) (s) : KeepsOut s.fixed (execSigRead a0 s) := by
  unfold execSigRead; refine ends_fixed _ _ _ rfl ?_; (repeat' (first | split | (apply resAll_bind; intro _))) <;> simp

/-! ## Scalar -/

@[simp] theorem execAdd_fixed (a0) (s) : KeepsOut s.fixed (execAdd a0 s) := by
  unfold execAdd; simp
@[simp] theorem execSub_fixed (a0) (s) : KeepsOut s.fixed (execSub a0 s) := by
  unfold execSub; simp
@[simp] theorem execMul_fixed (a0) (s) : KeepsOut s.fixed (execMul a0 s) := by
  unfold execMul; simp
@[simp] theorem execMulh_fixed (a0) (s) : KeepsOut s.fixed (execMulh a0 s) := by
  unfold execMulh; simp
@[simp] theorem execMulhn_fixed (a0) (s) : KeepsOut s.fixed (execMulhn a0 s) := by
  unfold execMulhn; simp
@[simp] theorem execAnd_fixed (a0) (s) : KeepsOut s.fixed (execAnd a0 s) := by
  unfold execAnd; simp
@[simp] theorem execOr_fixed (a0) (s) : KeepsOut s.fixed (execOr a0 s) := by
  unfold execOr; simp
@[simp] theorem execXor_fixed (a0) (s) : KeepsOut s.fixed (execXor a0 s) := by
  unfold execXor; simp
@[simp] theorem execAndn_fixed (a0) (s) : KeepsOut s.fixed (execAndn a0 s) := by
  unfold execAndn; simp
@[simp] theorem execShl_fixed (a0) (s) : KeepsOut s.fixed (execShl a0 s) := by
  unfold execShl; simp
@[simp] theorem execShr_fixed (a0) (s) : KeepsOut s.fixed (execShr a0 s) := by
  unfold execShr; simp
@[simp] theorem execSra_fixed (a0) (s) : KeepsOut s.fixed (execSra a0 s) := by
  unfold execSra; simp
@[simp] theorem execRol_fixed (a0) (s) : KeepsOut s.fixed (execRol a0 s) := by
  unfold execRol; simp
@[simp] theorem execRor_fixed (a0) (s) : KeepsOut s.fixed (execRor a0 s) := by
  unfold execRor; simp
@[simp] theorem execMin_fixed (a0) (s) : KeepsOut s.fixed (execMin a0 s) := by
  unfold execMin; simp
@[simp] theorem execMax_fixed (a0) (s) : KeepsOut s.fixed (execMax a0 s) := by
  unfold execMax; simp
@[simp] theorem execMinn_fixed (a0) (s) : KeepsOut s.fixed (execMinn a0 s) := by
  unfold execMinn; simp
@[simp] theorem execMaxn_fixed (a0) (s) : KeepsOut s.fixed (execMaxn a0 s) := by
  unfold execMaxn; simp
@[simp] theorem execDiv_fixed (a0) (s) : KeepsOut s.fixed (execDiv a0 s) := by
  unfold execDiv; simp
@[simp] theorem execDivn_fixed (a0) (s) : KeepsOut s.fixed (execDivn a0 s) := by
  unfold execDivn; simp
@[simp] theorem execRem_fixed (a0) (s) : KeepsOut s.fixed (execRem a0 s) := by
  unfold execRem; simp
@[simp] theorem execRemn_fixed (a0) (s) : KeepsOut s.fixed (execRemn a0 s) := by
  unfold execRemn; simp
@[simp] theorem execAddo_fixed (a0) (s) : KeepsOut s.fixed (execAddo a0 s) := by
  unfold execAddo; simp
@[simp] theorem execSubo_fixed (a0) (s) : KeepsOut s.fixed (execSubo a0 s) := by
  unfold execSubo; simp
@[simp] theorem execAddi_fixed (a0) (s) : KeepsOut s.fixed (execAddi a0 s) := by
  unfold execAddi; simp
@[simp] theorem execAndi_fixed (a0) (s) : KeepsOut s.fixed (execAndi a0 s) := by
  unfold execAndi; simp
@[simp] theorem execOri_fixed (a0) (s) : KeepsOut s.fixed (execOri a0 s) := by
  unfold execOri; simp
@[simp] theorem execXori_fixed (a0) (s) : KeepsOut s.fixed (execXori a0 s) := by
  unfold execXori; simp
@[simp] theorem execMuli_fixed (a0) (s) : KeepsOut s.fixed (execMuli a0 s) := by
  unfold execMuli; simp
@[simp] theorem execSeqi_fixed (a0) (s) : KeepsOut s.fixed (execSeqi a0 s) := by
  unfold execSeqi; simp
@[simp] theorem execSlti_fixed (a0) (s) : KeepsOut s.fixed (execSlti a0 s) := by
  unfold execSlti; simp
@[simp] theorem execSltni_fixed (a0) (s) : KeepsOut s.fixed (execSltni a0 s) := by
  unfold execSltni; simp
@[simp] theorem execShli_fixed (a0) (s) : KeepsOut s.fixed (execShli a0 s) := by
  unfold execShli; simp
@[simp] theorem execShri_fixed (a0) (s) : KeepsOut s.fixed (execShri a0 s) := by
  unfold execShri; simp
@[simp] theorem execSrai_fixed (a0) (s) : KeepsOut s.fixed (execSrai a0 s) := by
  unfold execSrai; simp
@[simp] theorem execSeq_fixed (a0) (s) : KeepsOut s.fixed (execSeq a0 s) := by
  unfold execSeq; simp
@[simp] theorem execSne_fixed (a0) (s) : KeepsOut s.fixed (execSne a0 s) := by
  unfold execSne; simp
@[simp] theorem execSlt_fixed (a0) (s) : KeepsOut s.fixed (execSlt a0 s) := by
  unfold execSlt; simp
@[simp] theorem execSltn_fixed (a0) (s) : KeepsOut s.fixed (execSltn a0 s) := by
  unfold execSltn; simp
@[simp] theorem execSle_fixed (a0) (s) : KeepsOut s.fixed (execSle a0 s) := by
  unfold execSle; simp
@[simp] theorem execSlen_fixed (a0) (s) : KeepsOut s.fixed (execSlen a0 s) := by
  unfold execSlen; simp
@[simp] theorem execLi_fixed (a0) (s) : KeepsOut s.fixed (execLi a0 s) := by
  unfold execLi; simp
@[simp] theorem execLih_fixed (a0) (s) : KeepsOut s.fixed (execLih a0 s) := by
  unfold execLih; simp
@[simp] theorem execLpc_fixed (a0) (s) : KeepsOut s.fixed (execLpc a0 s) := by
  unfold execLpc; simp
@[simp] theorem execExt_fixed (a0) (s) : KeepsOut s.fixed (execExt a0 s) := by
  unfold execExt; simp
@[simp] theorem execExtn_fixed (a0) (s) : KeepsOut s.fixed (execExtn a0 s) := by
  unfold execExtn; simp
@[simp] theorem execIns_fixed (a0) (s) : KeepsOut s.fixed (execIns a0 s) := by
  unfold execIns; simp
@[simp] theorem execClz_fixed (a0) (s) : KeepsOut s.fixed (execClz a0 s) := by
  unfold execClz; simp
@[simp] theorem execCtz_fixed (a0) (s) : KeepsOut s.fixed (execCtz a0 s) := by
  unfold execCtz; simp
@[simp] theorem execPopc_fixed (a0) (s) : KeepsOut s.fixed (execPopc a0 s) := by
  unfold execPopc; simp
@[simp] theorem execBswap_fixed (a0) (s) : KeepsOut s.fixed (execBswap a0 s) := by
  unfold execBswap; simp
@[simp] theorem execSel_fixed (a0) (s) : KeepsOut s.fixed (execSel a0 s) := by
  unfold execSel; simp
@[simp] theorem execLea_fixed (a0) (s) : KeepsOut s.fixed (execLea a0 s) := by
  unfold execLea; simp

/-! ## ScalarFloat -/

@[simp] theorem wroteCode_fixed (s) (a1) (a2) : KeepsOut s.fixed (wroteCode s a1 a2) := by
  unfold wroteCode; simp
@[simp] theorem execFaddF64_fixed (a0) (s) : KeepsOut s.fixed (execFaddF64 a0 s) := by
  unfold execFaddF64; simp
@[simp] theorem execFsubF64_fixed (a0) (s) : KeepsOut s.fixed (execFsubF64 a0 s) := by
  unfold execFsubF64; simp
@[simp] theorem execFmulF64_fixed (a0) (s) : KeepsOut s.fixed (execFmulF64 a0 s) := by
  unfold execFmulF64; simp
@[simp] theorem execFdivF64_fixed (a0) (s) : KeepsOut s.fixed (execFdivF64 a0 s) := by
  unfold execFdivF64; simp
@[simp] theorem execFsqrtF64_fixed (a0) (s) : KeepsOut s.fixed (execFsqrtF64 a0 s) := by
  unfold execFsqrtF64; simp
@[simp] theorem execFminF64_fixed (a0) (s) : KeepsOut s.fixed (execFminF64 a0 s) := by
  unfold execFminF64; simp
@[simp] theorem execFmaxF64_fixed (a0) (s) : KeepsOut s.fixed (execFmaxF64 a0 s) := by
  unfold execFmaxF64; simp
@[simp] theorem execFabsF64_fixed (a0) (s) : KeepsOut s.fixed (execFabsF64 a0 s) := by
  unfold execFabsF64; simp
@[simp] theorem execFnegF64_fixed (a0) (s) : KeepsOut s.fixed (execFnegF64 a0 s) := by
  unfold execFnegF64; simp
@[simp] theorem execFsgnF64_fixed (a0) (s) : KeepsOut s.fixed (execFsgnF64 a0 s) := by
  unfold execFsgnF64; simp
@[simp] theorem execFaddF32_fixed (a0) (s) : KeepsOut s.fixed (execFaddF32 a0 s) := by
  unfold execFaddF32; simp
@[simp] theorem execFsubF32_fixed (a0) (s) : KeepsOut s.fixed (execFsubF32 a0 s) := by
  unfold execFsubF32; simp
@[simp] theorem execFmulF32_fixed (a0) (s) : KeepsOut s.fixed (execFmulF32 a0 s) := by
  unfold execFmulF32; simp
@[simp] theorem execFdivF32_fixed (a0) (s) : KeepsOut s.fixed (execFdivF32 a0 s) := by
  unfold execFdivF32; simp
@[simp] theorem execFsqrtF32_fixed (a0) (s) : KeepsOut s.fixed (execFsqrtF32 a0 s) := by
  unfold execFsqrtF32; simp
@[simp] theorem execFminF32_fixed (a0) (s) : KeepsOut s.fixed (execFminF32 a0 s) := by
  unfold execFminF32; simp
@[simp] theorem execFmaxF32_fixed (a0) (s) : KeepsOut s.fixed (execFmaxF32 a0 s) := by
  unfold execFmaxF32; simp
@[simp] theorem execFabsF32_fixed (a0) (s) : KeepsOut s.fixed (execFabsF32 a0 s) := by
  unfold execFabsF32; simp
@[simp] theorem execFnegF32_fixed (a0) (s) : KeepsOut s.fixed (execFnegF32 a0 s) := by
  unfold execFnegF32; simp
@[simp] theorem execFsgnF32_fixed (a0) (s) : KeepsOut s.fixed (execFsgnF32 a0 s) := by
  unfold execFsgnF32; simp
@[simp] theorem execFma_fixed (a0) (s) : KeepsOut s.fixed (execFma a0 s) := by
  unfold execFma; simp
@[simp] theorem execFms_fixed (a0) (s) : KeepsOut s.fixed (execFms a0 s) := by
  unfold execFms; simp
@[simp] theorem execFnma_fixed (a0) (s) : KeepsOut s.fixed (execFnma a0 s) := by
  unfold execFnma; simp
@[simp] theorem execFnms_fixed (a0) (s) : KeepsOut s.fixed (execFnms a0 s) := by
  unfold execFnms; simp
@[simp] theorem execFcvt_fixed (a0) (s) : KeepsOut s.fixed (execFcvt a0 s) := by
  unfold execFcvt; simp
@[simp] theorem execFcvti_fixed (a0) (s) : KeepsOut s.fixed (execFcvti a0 s) := by
  unfold execFcvti; simp
@[simp] theorem execIcvtf_fixed (a0) (s) : KeepsOut s.fixed (execIcvtf a0 s) := by
  unfold execIcvtf; simp
@[simp] theorem execFeq_fixed (a0) (s) : KeepsOut s.fixed (execFeq a0 s) := by
  unfold execFeq; simp
@[simp] theorem execFlt_fixed (a0) (s) : KeepsOut s.fixed (execFlt a0 s) := by
  unfold execFlt; simp
@[simp] theorem execFle_fixed (a0) (s) : KeepsOut s.fixed (execFle a0 s) := by
  unfold execFle; simp
@[simp] theorem execFclass_fixed (a0) (s) : KeepsOut s.fixed (execFclass a0 s) := by
  unfold execFclass; simp

/-! ## Traps -/

@[simp] theorem trapfTest_fixed (s) : ResAll (fun t => t.fixed = s.fixed) (trapfTest s) := by
  unfold trapfTest; (repeat' (first | split | (apply resAll_bind; intro _))) <;> simp
@[simp] theorem execTrapf_fixed (s) : KeepsOut s.fixed (execTrapf s) := by
  unfold execTrapf; exact ends_fixed _ _ _ rfl (resAll_bind _ _ _ fun _ => by simp)
@[simp] theorem execTrapfAll_fixed (s) : KeepsOut s.fixed (execTrapfAll s) := by
  unfold execTrapfAll; refine ends_fixed _ _ _ rfl ?_; (repeat' (first | split | (apply resAll_bind; intro _))) <;> simp
@[simp] theorem exitProgram_fixed (s) : (State.exitProgram s).fixed = s.fixed := by
  unfold State.exitProgram; split <;> simp
@[simp] theorem execTrap_fixed (a0) (s) : KeepsOut s.fixed (execTrap a0 s) := by
  unfold execTrap; dsimp only; (repeat' split) <;> simp
@[simp] theorem execEret_fixed (s) : KeepsOut s.fixed (execEret s) := by
  unfold execEret; split <;> simp
@[simp] theorem execCtxSaveSoft_fixed (a0) (s) : KeepsOut s.fixed (execCtxSaveSoft a0 s) := by
  unfold execCtxSaveSoft; refine ends_fixed _ _ _ rfl ?_; (repeat' (first | split | (apply resAll_bind; intro _))) <;> simp
@[simp] theorem saveWaits_fixed (s : State) : s.saveWaits.fixed = s.fixed := by
  unfold State.saveWaits; simp
@[simp] theorem execCtxSaveHard_fixed (a0) (s) : KeepsOut s.fixed (execCtxSaveHard a0 s) := by
  unfold execCtxSaveHard
  split
  · simp
  · refine ends_fixed _ _ _ rfl (resAll_bind _ _ _ (fun _ => resAll_bind _ _ _ (fun _ => ?_)))
    simp
@[simp] theorem markCorrupt_fixed (s) (a1) : (State.markCorrupt s a1).fixed = s.fixed := by
  unfold State.markCorrupt; simp
@[simp] theorem execCtxLoad_fixed (a0) (s) : KeepsOut s.fixed (execCtxLoad a0 s) := by
  unfold execCtxLoad; refine ends_fixed _ _ _ rfl ?_; (repeat' (first | split | (apply resAll_bind; intro _))) <;> simp
@[simp] theorem resumeHere_fixed (s) : (State.resumeHere s).fixed = s.fixed := by
  unfold State.resumeHere; simp
@[simp] theorem execResume_fixed (s) : KeepsOut s.fixed (execResume s) := by
  unfold execResume; refine ends_fixed _ _ _ rfl ?_; (repeat' (first | split | (apply resAll_bind; intro _))) <;> simp
@[simp] theorem execYield_fixed (s) : KeepsOut s.fixed (execYield s) := by
  unfold execYield; (try dsimp only) <;> ((repeat' (first | (apply ends_fixed) | (apply endsAfter_fixed) | (apply endsPost_fixed) | (apply endsAtom_fixed) | (apply vissue_fixed; intro _) | (apply resAll_bind; intro _) | split)) <;> (first | (with_reducible rfl) | (simp; done) | (simp [State.fixed]; done) | (simp [*]; done) | (have h9 := congrArg (fun p => State.fixed p.1) ‹_ = (_, _)›; simp at h9; simp [h9]; done) | (have h9 := congrArg (fun p => State.fixed p.1) ‹_ = (_, _)›; simp at h9; simp [← h9]; done) | (simp_all; done)))
@[simp] theorem execPreemptRequest_fixed (s) : KeepsOut s.fixed (execPreemptRequest s) := by
  unfold execPreemptRequest; simp
@[simp] theorem execCycleCompareMatch_fixed (s) : KeepsOut s.fixed (execCycleCompareMatch s) := by
  unfold execCycleCompareMatch; dsimp only; split <;> simp
@[simp] theorem execInterruptTaken_fixed (s) : KeepsOut s.fixed (execInterruptTaken s) := by
  unfold execInterruptTaken; dsimp only; (repeat' split) <;> simp
@[simp] theorem execEscalatedTaskFault_fixed (s) : KeepsOut s.fixed (execEscalatedTaskFault s) := by
  unfold execEscalatedTaskFault; dsimp only; (repeat' split) <;> simp
@[simp] theorem execSaveTimeout_fixed (a0) (s) : KeepsOut s.fixed (execSaveTimeout a0 s) := by
  unfold execSaveTimeout; dsimp only; split <;> simp

/-! ## Vector -/

@[simp] theorem vint_fixed (s) (a1) (a2) (a3) : KeepsOut s.fixed (vint s a1 a2 a3) := by
  unfold vint; simp
@[simp] theorem execVadd_fixed (a0) (s) : KeepsOut s.fixed (execVadd a0 s) := by
  unfold execVadd; simp
@[simp] theorem execVsub_fixed (a0) (s) : KeepsOut s.fixed (execVsub a0 s) := by
  unfold execVsub; simp
@[simp] theorem execVmul_fixed (a0) (s) : KeepsOut s.fixed (execVmul a0 s) := by
  unfold execVmul; simp
@[simp] theorem execVmulh_fixed (a0) (s) : KeepsOut s.fixed (execVmulh a0 s) := by
  unfold execVmulh; simp
@[simp] theorem execVmin_fixed (a0) (s) : KeepsOut s.fixed (execVmin a0 s) := by
  unfold execVmin; simp
@[simp] theorem execVmax_fixed (a0) (s) : KeepsOut s.fixed (execVmax a0 s) := by
  unfold execVmax; simp
@[simp] theorem execVabs_fixed (a0) (s) : KeepsOut s.fixed (execVabs a0 s) := by
  unfold execVabs; simp
@[simp] theorem execVneg_fixed (a0) (s) : KeepsOut s.fixed (execVneg a0 s) := by
  unfold execVneg; simp
@[simp] theorem execVadds_fixed (a0) (s) : KeepsOut s.fixed (execVadds a0 s) := by
  unfold execVadds; simp
@[simp] theorem execVsubs_fixed (a0) (s) : KeepsOut s.fixed (execVsubs a0 s) := by
  unfold execVsubs; simp
@[simp] theorem vbits_fixed (s) (a1) (a2) (a3) : KeepsOut s.fixed (vbits s a1 a2 a3) := by
  unfold vbits; simp
@[simp] theorem execVand_fixed (a0) (s) : KeepsOut s.fixed (execVand a0 s) := by
  unfold execVand; simp
@[simp] theorem execVor_fixed (a0) (s) : KeepsOut s.fixed (execVor a0 s) := by
  unfold execVor; simp
@[simp] theorem execVxor_fixed (a0) (s) : KeepsOut s.fixed (execVxor a0 s) := by
  unfold execVxor; simp
@[simp] theorem execVnot_fixed (a0) (s) : KeepsOut s.fixed (execVnot a0 s) := by
  unfold execVnot; simp
@[simp] theorem execVshl_fixed (a0) (s) : KeepsOut s.fixed (execVshl a0 s) := by
  unfold execVshl; simp
@[simp] theorem execVshr_fixed (a0) (s) : KeepsOut s.fixed (execVshr a0 s) := by
  unfold execVshr; simp
@[simp] theorem execVsra_fixed (a0) (s) : KeepsOut s.fixed (execVsra a0 s) := by
  unfold execVsra; simp
@[simp] theorem execVmov_fixed (a0) (s) : KeepsOut s.fixed (execVmov a0 s) := by
  unfold execVmov; simp
@[simp] theorem execVsel_fixed (a0) (s) : KeepsOut s.fixed (execVsel a0 s) := by
  unfold execVsel; dsimp only; refine vissue_fixed _ _ _ _ rfl (fun _ => ?_); (repeat' split) <;> simp
@[simp] theorem vfloat_fixed (s) (a1) (a2) (a3) (a4) : KeepsOut s.fixed (vfloat s a1 a2 a3 a4) := by
  unfold vfloat; simp
@[simp] theorem execVfadd_fixed (a0) (s) : KeepsOut s.fixed (execVfadd a0 s) := by
  unfold execVfadd; simp
@[simp] theorem execVfsub_fixed (a0) (s) : KeepsOut s.fixed (execVfsub a0 s) := by
  unfold execVfsub; simp
@[simp] theorem execVfmul_fixed (a0) (s) : KeepsOut s.fixed (execVfmul a0 s) := by
  unfold execVfmul; simp
@[simp] theorem execVfma_fixed (a0) (s) : KeepsOut s.fixed (execVfma a0 s) := by
  unfold execVfma; simp
@[simp] theorem execVfms_fixed (a0) (s) : KeepsOut s.fixed (execVfms a0 s) := by
  unfold execVfms; simp
@[simp] theorem execVfnma_fixed (a0) (s) : KeepsOut s.fixed (execVfnma a0 s) := by
  unfold execVfnma; simp
@[simp] theorem execVfmin_fixed (a0) (s) : KeepsOut s.fixed (execVfmin a0 s) := by
  unfold execVfmin; simp
@[simp] theorem execVfmax_fixed (a0) (s) : KeepsOut s.fixed (execVfmax a0 s) := by
  unfold execVfmax; simp
@[simp] theorem execVfabs_fixed (a0) (s) : KeepsOut s.fixed (execVfabs a0 s) := by
  unfold execVfabs; simp
@[simp] theorem execVfneg_fixed (a0) (s) : KeepsOut s.fixed (execVfneg a0 s) := by
  unfold execVfneg; simp
@[simp] theorem execVdiv_fixed (a0) (s) : KeepsOut s.fixed (execVdiv a0 s) := by
  unfold execVdiv; simp
@[simp] theorem execVsqrt_fixed (a0) (s) : KeepsOut s.fixed (execVsqrt a0 s) := by
  unfold execVsqrt; simp
@[simp] theorem execVrcp_fixed (a0) (s) : KeepsOut s.fixed (execVrcp a0 s) := by
  unfold execVrcp; simp
@[simp] theorem execVrsq_fixed (a0) (s) : KeepsOut s.fixed (execVrsq a0 s) := by
  unfold execVrsq; simp
@[simp] theorem execVexp2_fixed (a0) (s) : KeepsOut s.fixed (execVexp2 a0 s) := by
  unfold execVexp2; simp
@[simp] theorem execVlog2_fixed (a0) (s) : KeepsOut s.fixed (execVlog2 a0 s) := by
  unfold execVlog2; simp
@[simp] theorem vcompare_fixed (s) (a1) (a2) (a3) : KeepsOut s.fixed (vcompare s a1 a2 a3) := by
  unfold vcompare; dsimp only; refine vissue_fixed _ _ _ _ rfl (fun _ => ?_); (repeat' split) <;> simp
@[simp] theorem execVcmp_fixed (a0) (s) : KeepsOut s.fixed (execVcmp a0 s) := by
  unfold execVcmp; simp
@[simp] theorem execVfcmp_fixed (a0) (s) : KeepsOut s.fixed (execVfcmp a0 s) := by
  unfold execVfcmp; simp
@[simp] theorem execVclass_fixed (a0) (s) : KeepsOut s.fixed (execVclass a0 s) := by
  unfold execVclass; simp
@[simp] theorem vpred_fixed (s) (a1) (a2) (a3) : KeepsOut s.fixed (vpred s a1 a2 a3) := by
  unfold vpred; dsimp only; refine vissue_fixed _ _ _ _ rfl (fun _ => ?_); (repeat' split) <;> simp
@[simp] theorem execKand_fixed (a0) (s) : KeepsOut s.fixed (execKand a0 s) := by
  unfold execKand; simp
@[simp] theorem execKor_fixed (a0) (s) : KeepsOut s.fixed (execKor a0 s) := by
  unfold execKor; simp
@[simp] theorem execKxor_fixed (a0) (s) : KeepsOut s.fixed (execKxor a0 s) := by
  unfold execKxor; simp
@[simp] theorem execKnot_fixed (a0) (s) : KeepsOut s.fixed (execKnot a0 s) := by
  unfold execKnot; simp
@[simp] theorem execKmov_fixed (a0) (s) : KeepsOut s.fixed (execKmov a0 s) := by
  unfold execKmov; simp
@[simp] theorem execKpop_fixed (a0) (s) : KeepsOut s.fixed (execKpop a0 s) := by
  unfold execKpop; (repeat' (first | dsimp only | (apply ends_fixed) | (apply endsAfter_fixed) | (apply endsPost_fixed) | (apply endsAtom_fixed) | (refine vissue_fixed _ _ _ _ ?_ (fun _ => ?_)) | (refine resAll_bind2 (Posted.keeps s.fixed) _ _ _ (by simp; done) (fun _ _ => ?_)) | (refine resAll_bind2 (fun t => State.fixed t = s.fixed) _ _ _ (by simp; done) (fun _ _ => ?_)) | (apply resAll_bind; intro _) | split)) <;> (first | (with_reducible rfl) | (simp; done) | (simp [State.fixed]; done) | (simp [*]; done) | (have h9 := congrArg (fun p => State.fixed p.1) ‹_ = (_, _)›; simp at h9; simp [h9]; done) | (have h9 := congrArg (fun p => State.fixed p.1) ‹_ = (_, _)›; simp at h9; simp [← h9]; done) | (simp_all; done))
@[simp] theorem execKfirst_fixed (a0) (s) : KeepsOut s.fixed (execKfirst a0 s) := by
  unfold execKfirst; (repeat' (first | dsimp only | (apply ends_fixed) | (apply endsAfter_fixed) | (apply endsPost_fixed) | (apply endsAtom_fixed) | (refine vissue_fixed _ _ _ _ ?_ (fun _ => ?_)) | (refine resAll_bind2 (Posted.keeps s.fixed) _ _ _ (by simp; done) (fun _ _ => ?_)) | (refine resAll_bind2 (fun t => State.fixed t = s.fixed) _ _ _ (by simp; done) (fun _ _ => ?_)) | (apply resAll_bind; intro _) | split)) <;> (first | (with_reducible rfl) | (simp; done) | (simp [State.fixed]; done) | (simp [*]; done) | (have h9 := congrArg (fun p => State.fixed p.1) ‹_ = (_, _)›; simp at h9; simp [h9]; done) | (have h9 := congrArg (fun p => State.fixed p.1) ‹_ = (_, _)›; simp at h9; simp [← h9]; done) | (simp_all; done))

/-! ## VectorMove -/

@[simp] theorem execVcvt_fixed (a0) (s) : KeepsOut s.fixed (execVcvt a0 s) := by
  unfold execVcvt; simp
@[simp] theorem vrowOp_fixed (s) (a1) (a2) (a3) : KeepsOut s.fixed (vrowOp s a1 a2 a3) := by
  unfold vrowOp; dsimp only; refine vissue_fixed _ _ _ _ rfl (fun _ => ?_); (repeat' split) <;> simp
@[simp] theorem execVqmx_fixed (a0) (s) : KeepsOut s.fixed (execVqmx a0 s) := by
  unfold execVqmx; simp
@[simp] theorem execVdqmx_fixed (a0) (s) : KeepsOut s.fixed (execVdqmx a0 s) := by
  unfold execVdqmx; simp
@[simp] theorem vlanes_fixed (s) (a1) (a2) (a3) : KeepsOut s.fixed (vlanes s a1 a2 a3) := by
  unfold vlanes; dsimp only; refine vissue_fixed _ _ _ _ rfl (fun _ => ?_); (repeat' split) <;> simp
@[simp] theorem execVrotR_fixed (a0) (s) : KeepsOut s.fixed (execVrotR a0 s) := by
  unfold execVrotR; simp
@[simp] theorem execVrotC_fixed (a0) (s) : KeepsOut s.fixed (execVrotC a0 s) := by
  unfold execVrotC; simp
@[simp] theorem execVbcR_fixed (a0) (s) : KeepsOut s.fixed (execVbcR a0 s) := by
  unfold execVbcR; simp
@[simp] theorem execVbcC_fixed (a0) (s) : KeepsOut s.fixed (execVbcC a0 s) := by
  unfold execVbcC; simp
@[simp] theorem vreduce_fixed (s) (a1) (a2) (a3) (a4) (a5) : KeepsOut s.fixed (vreduce s a1 a2 a3 a4 a5) := by
  unfold vreduce; simp
@[simp] theorem execVredR_fixed (a0) (s) : KeepsOut s.fixed (execVredR a0 s) := by
  unfold execVredR; simp
@[simp] theorem execVredC_fixed (a0) (s) : KeepsOut s.fixed (execVredC a0 s) := by
  unfold execVredC; simp
@[simp] theorem execVhad32_fixed (a0) (s) : KeepsOut s.fixed (execVhad32 a0 s) := by
  unfold execVhad32; simp

/-! ## VectorBreeze -/

@[simp] theorem execVrand_fixed (a0) (s) : KeepsOut s.fixed (execVrand a0 s) := by
  unfold execVrand; simp
@[simp] theorem execVsplat_fixed (a0) (s) : KeepsOut s.fixed (execVsplat a0 s) := by
  unfold execVsplat; simp
@[simp] theorem execVsplatPop_fixed (a0) (s) : KeepsOut s.fixed (execVsplatPop a0 s) := by
  unfold execVsplatPop; dsimp only; refine vissue_fixed _ _ _ _ rfl (fun _ => ?_); (repeat' split) <;> simp
@[simp] theorem execVsplatPush_fixed (a0) (s) : KeepsOut s.fixed (execVsplatPush a0 s) := by
  unfold execVsplatPush; dsimp only; refine vissue_fixed _ _ _ _ rfl (fun _ => ?_); (repeat' split) <;> simp
@[simp] theorem execSksv_fixed (a0) (s) : KeepsOut s.fixed (execSksv a0 s) := by
  unfold execSksv
  dsimp only
  split
  · exact vissue_fixed _ _ _ _ rfl (fun _ => rfl)
  · refine vissue_fixed _ _ _ _ rfl (fun _ => ?_)
    generalize groups 32 = g
    (repeat' split) <;> simp

/-! ## VectorMem -/

@[simp] theorem vload_fixed (s) (a1) (a2) (a3) (a4) : KeepsOut s.fixed (vload s a1 a2 a3 a4) := by
  unfold vload; dsimp only; refine vissue_fixed _ _ _ _ rfl (fun _ => ?_); (repeat' split) <;> simp
@[simp] theorem vsend_fixed (s t n m k ws) : VRes.keeps s.fixed (vsend s t n m k ws) := by
  induction ws generalizing s k with
  | nil => simp [vsend]
  | cons w ws ih =>
    unfold vsend
    split
    · simp
    · have := ih (s.taskWindowWrite s.core.id t n m w false) (k + 1)
      rwa [taskWindowWrite_fixed] at this
@[simp] theorem vstore_fixed (s) (a1) (a2) (a3) (a4) (a5) : KeepsOut s.fixed (vstore s a1 a2 a3 a4 a5) := by
  unfold vstore
  dsimp only
  refine vissue_fixed _ _ _ _ rfl (fun _ => ?_)
  split
  · exact rfl
  · split
    · exact trivial
    · exact rfl
    · split
      · split
        · exact rfl
        · exact vsend_fixed ..
      · exact rfl
@[simp] theorem execVld_fixed (a0) (s) : KeepsOut s.fixed (execVld a0 s) := by
  unfold execVld; simp
@[simp] theorem execVst_fixed (a0) (s) : KeepsOut s.fixed (execVst a0 s) := by
  unfold execVst; simp
@[simp] theorem execVgather_fixed (a0) (s) : KeepsOut s.fixed (execVgather a0 s) := by
  unfold execVgather; simp
@[simp] theorem execVscatter_fixed (a0) (s) : KeepsOut s.fixed (execVscatter a0 s) := by
  unfold execVscatter; simp

end Sys2Proof.Machine
end

