-- ==== Sys2Proof/Laws/Fixed.lean ====
section
/-! SUPPORT. Which events change the boot state or the capabilities, and what every instruction and every step keep of them. -/

namespace Sys2Proof.Machine

/-- The events of power, fuses and reports. -/
def movesBoot (i : Instr) : Bool := match i with
  | .antiRollbackUpdate _ => true
  | .attestationRequest _ => true
  | .moduleReset => true
  | .powerLoss => true
  | .powerOn _ => true
  | .thermalShutdown _ => true
  | _ => false

/-- Every other instruction and event keeps them. -/
theorem exec_fixed (i : Instr) (s : State) (h : movesBoot i = false) : KeepsOut s.fixed (exec i s) :=
  match i with
  | .nop => execNop_fixed s
  | .add o => execAdd_fixed o s
  | .sub o => execSub_fixed o s
  | .mul o => execMul_fixed o s
  | .mulh o => execMulh_fixed o s
  | .mulhn o => execMulhn_fixed o s
  | .div o => execDiv_fixed o s
  | .divn o => execDivn_fixed o s
  | .rem o => execRem_fixed o s
  | .remn o => execRemn_fixed o s
  | .and o => execAnd_fixed o s
  | .or o => execOr_fixed o s
  | .xor o => execXor_fixed o s
  | .andn o => execAndn_fixed o s
  | .shl o => execShl_fixed o s
  | .shr o => execShr_fixed o s
  | .sra o => execSra_fixed o s
  | .rol o => execRol_fixed o s
  | .ror o => execRor_fixed o s
  | .min o => execMin_fixed o s
  | .max o => execMax_fixed o s
  | .minn o => execMinn_fixed o s
  | .maxn o => execMaxn_fixed o s
  | .addo o => execAddo_fixed o s
  | .subo o => execSubo_fixed o s
  | .addi o => execAddi_fixed o s
  | .andi o => execAndi_fixed o s
  | .ori o => execOri_fixed o s
  | .xori o => execXori_fixed o s
  | .shli o => execShli_fixed o s
  | .shri o => execShri_fixed o s
  | .srai o => execSrai_fixed o s
  | .muli o => execMuli_fixed o s
  | .li o => execLi_fixed o s
  | .lih o => execLih_fixed o s
  | .lpc o => execLpc_fixed o s
  | .ext o => execExt_fixed o s
  | .extn o => execExtn_fixed o s
  | .ins o => execIns_fixed o s
  | .clz o => execClz_fixed o s
  | .ctz o => execCtz_fixed o s
  | .popc o => execPopc_fixed o s
  | .bswap o => execBswap_fixed o s
  | .seq o => execSeq_fixed o s
  | .sne o => execSne_fixed o s
  | .slt o => execSlt_fixed o s
  | .sltn o => execSltn_fixed o s
  | .sle o => execSle_fixed o s
  | .slen o => execSlen_fixed o s
  | .sel o => execSel_fixed o s
  | .seqi o => execSeqi_fixed o s
  | .slti o => execSlti_fixed o s
  | .sltni o => execSltni_fixed o s
  | .lea o => execLea_fixed o s
  | .faddF64 o => execFaddF64_fixed o s
  | .fsubF64 o => execFsubF64_fixed o s
  | .fmulF64 o => execFmulF64_fixed o s
  | .fdivF64 o => execFdivF64_fixed o s
  | .fsqrtF64 o => execFsqrtF64_fixed o s
  | .fminF64 o => execFminF64_fixed o s
  | .fmaxF64 o => execFmaxF64_fixed o s
  | .fabsF64 o => execFabsF64_fixed o s
  | .fnegF64 o => execFnegF64_fixed o s
  | .fsgnF64 o => execFsgnF64_fixed o s
  | .faddF32 o => execFaddF32_fixed o s
  | .fsubF32 o => execFsubF32_fixed o s
  | .fmulF32 o => execFmulF32_fixed o s
  | .fdivF32 o => execFdivF32_fixed o s
  | .fsqrtF32 o => execFsqrtF32_fixed o s
  | .fminF32 o => execFminF32_fixed o s
  | .fmaxF32 o => execFmaxF32_fixed o s
  | .fabsF32 o => execFabsF32_fixed o s
  | .fnegF32 o => execFnegF32_fixed o s
  | .fsgnF32 o => execFsgnF32_fixed o s
  | .fma o => execFma_fixed o s
  | .fms o => execFms_fixed o s
  | .fnma o => execFnma_fixed o s
  | .fnms o => execFnms_fixed o s
  | .fcvt o => execFcvt_fixed o s
  | .fcvti o => execFcvti_fixed o s
  | .icvtf o => execIcvtf_fixed o s
  | .feq o => execFeq_fixed o s
  | .flt o => execFlt_fixed o s
  | .fle o => execFle_fixed o s
  | .fclass o => execFclass_fixed o s
  | .beq o => execBeq_fixed o s
  | .bne o => execBne_fixed o s
  | .blt o => execBlt_fixed o s
  | .bge o => execBge_fixed o s
  | .bltn o => execBltn_fixed o s
  | .bgen o => execBgen_fixed o s
  | .jal o => execJal_fixed o s
  | .jalr o => execJalr_fixed o s
  | .loop o => execLoop_fixed o s
  | .ld o => execLd_fixed o s
  | .st o => execSt_fixed o s
  | .atomAdd o => execAtomAdd_fixed o s
  | .atomAnd o => execAtomAnd_fixed o s
  | .atomOr o => execAtomOr_fixed o s
  | .atomXor o => execAtomXor_fixed o s
  | .atomMin o => execAtomMin_fixed o s
  | .atomMax o => execAtomMax_fixed o s
  | .atomMinn o => execAtomMinn_fixed o s
  | .atomMaxn o => execAtomMaxn_fixed o s
  | .atomSwap o => execAtomSwap_fixed o s
  | .atomCas o => execAtomCas_fixed o s
  | .atomIncb o => execAtomIncb_fixed o s
  | .atomAddHbm o => execAtomAddHbm_fixed o s
  | .atomAndHbm o => execAtomAndHbm_fixed o s
  | .atomOrHbm o => execAtomOrHbm_fixed o s
  | .atomXorHbm o => execAtomXorHbm_fixed o s
  | .atomMinHbm o => execAtomMinHbm_fixed o s
  | .atomMaxHbm o => execAtomMaxHbm_fixed o s
  | .atomMinnHbm o => execAtomMinnHbm_fixed o s
  | .atomMaxnHbm o => execAtomMaxnHbm_fixed o s
  | .atomSwapHbm o => execAtomSwapHbm_fixed o s
  | .atomCasHbm o => execAtomCasHbm_fixed o s
  | .atomIncbHbm o => execAtomIncbHbm_fixed o s
  | .claim o => execClaim_fixed o s
  | .claimHbm o => execClaimHbm_fixed o s
  | .qPush o => execQPush_fixed o s
  | .qPop o => execQPop_fixed o s
  | .qBind o => execQBind_fixed o s
  | .qCount o => execQCount_fixed o s
  | .flagAdd o => execFlagAdd_fixed o s
  | .flagWait o => execFlagWait_fixed o s
  | .flagRd o => execFlagRd_fixed o s
  | .flagSet o => execFlagSet_fixed o s
  | .barArrive o => execBarArrive_fixed o s
  | .barWait o => execBarWait_fixed o s
  | .barSync o => execBarSync_fixed o s
  | .barInit o => execBarInit_fixed o s
  | .msgSend o => execMsgSend_fixed o s
  | .msgRecv o => execMsgRecv_fixed o s
  | .msgPoll o => execMsgPoll_fixed o s
  | .bufDecl o => execBufDecl_fixed o s
  | .bufFree o => execBufFree_fixed o s
  | .bufState o => execBufState_fixed o s
  | .bufFill o => execBufFill_fixed o s
  | .bufFull o => execBufFull_fixed o s
  | .bufDrain o => execBufDrain_fixed o s
  | .bufEmpty o => execBufEmpty_fixed o s
  | .bufVer o => execBufVer_fixed o s
  | .tbNew o => execTbNew_fixed o s
  | .tbReg o => execTbReg_fixed o s
  | .tbArg o => execTbArg_fixed o s
  | .tbFlag o => execTbFlag_fixed o s
  | .tbTag o => execTbTag_fixed o s
  | .tbPost o => execTbPost_fixed o s
  | .tbCancel o => execTbCancel_fixed o s
  | .twait o => execTwait_fixed o s
  | .tqState o => execTqState_fixed o s
  | .tqFree o => execTqFree_fixed o s
  | .cpBox o => execCpBox_fixed o s
  | .cpFill o => execCpFill_fixed o s
  | .cpGather o => execCpGather_fixed o s
  | .cpScatter o => execCpScatter_fixed o s
  | .shLoad o => execShLoad_fixed o s
  | .shUnload o => execShUnload_fixed o s
  | .palClaim o => execPalClaim_fixed o s
  | .palRel o => execPalRel_fixed o s
  | .palOwn o => execPalOwn_fixed o s
  | .mmaBf16 o => execMmaBf16_fixed o s
  | .mmaF16 o => execMmaF16_fixed o s
  | .mmaE4m3 o => execMmaE4m3_fixed o s
  | .mmaE5m2 o => execMmaE5m2_fixed o s
  | .mmaI8 o => execMmaI8_fixed o s
  | .mmaMx4 o => execMmaMx4_fixed o s
  | .mmaF32 o => execMmaF32_fixed o s
  | .mmaF64 o => execMmaF64_fixed o s
  | .mmaZ64 o => execMmaZ64_fixed o s
  | .accZero o => execAccZero_fixed o s
  | .accLoad o => execAccLoad_fixed o s
  | .accDrain o => execAccDrain_fixed o s
  | .accChk o => execAccChk_fixed o s
  | .accGive o => execAccGive_fixed o s
  | .leaseSet o => execLeaseSet_fixed o s
  | .leaseGet o => execLeaseGet_fixed o s
  | .winMap o => execWinMap_fixed o s
  | .winUnmap o => execWinUnmap_fixed o s
  | .winAllow o => execWinAllow_fixed o s
  | .winStat o => execWinStat_fixed o s
  | .rpost o => execRpost_fixed o s
  | .rflag o => execRflag_fixed o s
  | .fenceC o => execFenceC_fixed o s
  | .fenceG o => execFenceG_fixed o s
  | .wqPop o => execWqPop_fixed o s
  | .wqCount o => execWqCount_fixed o s
  | .sigSub o => execSigSub_fixed o s
  | .sigRead o => execSigRead_fixed o s
  | .trapf => execTrapf_fixed s
  | .trapfAll => execTrapfAll_fixed s
  | .trap o => execTrap_fixed o s
  | .eret => execEret_fixed s
  | .crr o => execCrr_fixed o s
  | .crw o => execCrw_fixed o s
  | .crs o => execCrs_fixed o s
  | .crc o => execCrc_fixed o s
  | .ctxSaveSoft o => execCtxSaveSoft_fixed o s
  | .ctxSaveHard o => execCtxSaveHard_fixed o s
  | .ctxLoad o => execCtxLoad_fixed o s
  | .resume => execResume_fixed s
  | .yield => execYield_fixed s
  | .skBind o => execSkBind_fixed o s
  | .skUnbind o => execSkUnbind_fixed o s
  | .skWrite o => execSkWrite_fixed o s
  | .skInval o => execSkInval_fixed o s
  | .sks o => execSks_fixed o s
  | .vadd o => execVadd_fixed o s
  | .vsub o => execVsub_fixed o s
  | .vmul o => execVmul_fixed o s
  | .vmulh o => execVmulh_fixed o s
  | .vmin o => execVmin_fixed o s
  | .vmax o => execVmax_fixed o s
  | .vabs o => execVabs_fixed o s
  | .vneg o => execVneg_fixed o s
  | .vadds o => execVadds_fixed o s
  | .vsubs o => execVsubs_fixed o s
  | .vand o => execVand_fixed o s
  | .vor o => execVor_fixed o s
  | .vxor o => execVxor_fixed o s
  | .vnot o => execVnot_fixed o s
  | .vshl o => execVshl_fixed o s
  | .vshr o => execVshr_fixed o s
  | .vsra o => execVsra_fixed o s
  | .vmov o => execVmov_fixed o s
  | .vsel o => execVsel_fixed o s
  | .vfadd o => execVfadd_fixed o s
  | .vfsub o => execVfsub_fixed o s
  | .vfmul o => execVfmul_fixed o s
  | .vfma o => execVfma_fixed o s
  | .vfms o => execVfms_fixed o s
  | .vfnma o => execVfnma_fixed o s
  | .vfmin o => execVfmin_fixed o s
  | .vfmax o => execVfmax_fixed o s
  | .vfabs o => execVfabs_fixed o s
  | .vfneg o => execVfneg_fixed o s
  | .vdiv o => execVdiv_fixed o s
  | .vsqrt o => execVsqrt_fixed o s
  | .vrcp o => execVrcp_fixed o s
  | .vrsq o => execVrsq_fixed o s
  | .vexp2 o => execVexp2_fixed o s
  | .vlog2 o => execVlog2_fixed o s
  | .vcmp o => execVcmp_fixed o s
  | .vfcmp o => execVfcmp_fixed o s
  | .vclass o => execVclass_fixed o s
  | .kand o => execKand_fixed o s
  | .kor o => execKor_fixed o s
  | .kxor o => execKxor_fixed o s
  | .knot o => execKnot_fixed o s
  | .kmov o => execKmov_fixed o s
  | .kpop o => execKpop_fixed o s
  | .kfirst o => execKfirst_fixed o s
  | .vcvt o => execVcvt_fixed o s
  | .vqmx o => execVqmx_fixed o s
  | .vdqmx o => execVdqmx_fixed o s
  | .vrotR o => execVrotR_fixed o s
  | .vrotC o => execVrotC_fixed o s
  | .vbcR o => execVbcR_fixed o s
  | .vbcC o => execVbcC_fixed o s
  | .vredR o => execVredR_fixed o s
  | .vredC o => execVredC_fixed o s
  | .vhad32 o => execVhad32_fixed o s
  | .vld o => execVld_fixed o s
  | .vst o => execVst_fixed o s
  | .vgather o => execVgather_fixed o s
  | .vscatter o => execVscatter_fixed o s
  | .vrand o => execVrand_fixed o s
  | .vsplat o => execVsplat_fixed o s
  | .vsplatPop o => execVsplatPop_fixed o s
  | .vsplatPush o => execVsplatPush_fixed o s
  | .sksv o => execSksv_fixed o s
  | .crFpstatWrite v taskFlags => execCrFpstatWrite_fixed v taskFlags s
  | .crCpolWrite v => execCrCpolWrite_fixed v s
  | .crTflogWrite v => execCrTflogWrite_fixed v s
  | .crStatusWrite v => execCrStatusWrite_fixed v s
  | .crCyccmpWrite v => execCrCyccmpWrite_fixed v s
  | .crFmapWrite n v => execCrFmapWrite_fixed n v s
  | .sketchReload block => execSketchReload_fixed block s
  | .vectorResultLand => execVectorResultLand_fixed s
  | .kernelIterationBoundary => execKernelIterationBoundary_fixed s
  | .holdRelease => execHoldRelease_fixed s
  | .stalledInstructionResume => execStalledInstructionResume_fixed s
  | .taskDispatch e => execTaskDispatch_fixed e s
  | .copyChunk n => execCopyChunk_fixed n s
  | .taskComplete e => execTaskComplete_fixed e s
  | .canvasLeaseGrant => execCanvasLeaseGrant_fixed s
  | .leaseEnd => execLeaseEnd_fixed s
  | .canvasCold => execCanvasCold_fixed s
  | .gustTokenTake => execGustTokenTake_fixed s
  | .rampWindowEnd => execRampWindowEnd_fixed s
  | .gustTokenAdvance => execGustTokenAdvance_fixed s
  | .preemptRequest => execPreemptRequest_fixed s
  | .cycleCompareMatch => execCycleCompareMatch_fixed s
  | .interruptTaken => execInterruptTaken_fixed s
  | .escalatedTaskFault => execEscalatedTaskFault_fixed s
  | .saveTimeout d => execSaveTimeout_fixed d s
  | .write p => execWrite_fixed p s
  | .atomic p => execAtomic_fixed p s
  | .flag p => execFlag_fixed p s
  | .msg p => execMsg_fixed p s
  | .post p => execPost_fixed p s
  | .cancel p => execCancel_fixed p s
  | .hbm p => execHbm_fixed p s
  | .ack r => execAck_fixed r s
  | .deny r => execDeny_fixed r s
  | .reply r => execReply_fixed r s
  | .retry r => execRetry_fixed r s
  | .packetResend uid => execPacketResend_fixed uid s
  | .retriedPacketResend uid => execRetriedPacketResend_fixed uid s
  | .packetHop die p resp => execPacketHop_fixed die p resp s
  | .flitReplay die p flit => execFlitReplay_fixed die p flit s
  | .laneFailure die p lane => execLaneFailure_fixed die p lane s
  | .remap die p lane flit => execRemap_fixed die p lane flit s
  | .ackremap die p lane flit => execAckremap_fixed die p lane flit s
  | .detectorThreshold die p resp => execDetectorThreshold_fixed die p resp s
  | .zephyrTokenArrival die gen => execZephyrTokenArrival_fixed die gen s
  | .tokenPass die => execTokenPass_fixed die s
  | .leeDelivery die f => execLeeDelivery_fixed die f s
  | .leeAcknowledgement die => execLeeAcknowledgement_fixed die s
  | .tokenRegeneration => execTokenRegeneration_fixed s
  | .notify fn q w => execNotify_fixed fn q w s
  | .mbxCtl fn v => execMbxCtl_fixed fn v s
  | .mailboxWrite fn off bytes => execMailboxWrite_fixed fn off bytes s
  | .mailboxRead fn off len => execMailboxRead_fixed fn off len s
  | .queueEnable fn q => execQueueEnable_fixed fn q s
  | .queuePause fn q => execQueuePause_fixed fn q s
  | .queueReset fn q => execQueueReset_fixed fn q s
  | .registerWrite fn off v => execRegisterWrite_fixed fn off v s
  | .packetFetch fn q => execPacketFetch_fixed fn q s
  | .packetRefetch fn q => execPacketRefetch_fixed fn q s
  | .launch fn q idx => execLaunch_fixed fn q idx s
  | .feed fn q idx => execFeed_fixed fn q idx s
  | .signal fn q idx => execSignal_fixed fn q idx s
  | .barrierAnd fn q idx => execBarrierAnd_fixed fn q idx s
  | .copy fn q idx => execCopy_fixed fn q idx s
  | .packetComplete fn q idx => execPacketComplete_fixed fn q idx s
  | .signalSubtract => execSignalSubtract_fixed s
  | .endOfJobFence ctx => execEndOfJobFence_fixed ctx s
  | .quantumExpiry => execQuantumExpiry_fixed s
  | .hostReadErrorCompletion fn iova len e => execHostReadErrorCompletion_fixed fn iova len e s
  | .completionTimeout fn iova len => execCompletionTimeout_fixed fn iova len s
  | .setQn fn n => execSetQn_fixed fn n s
  | .keyDelivery ct ctx w tag => execKeyDelivery_fixed ct ctx w tag s
  | .attestationRequest _ => by cases h
  | .antiRollbackUpdate _ => by cases h
  | .moduleReset => by cases h
  | .powerOn _ => by cases h
  | .thermalHold die => execThermalHold_fixed die s
  | .thermalSingleToken die => execThermalSingleToken_fixed die s
  | .thermalShutdown _ => by cases h
  | .patrolScrub unit found => execPatrolScrub_fixed unit found s
  | .exitFromHold die => execExitFromHold_fixed die s
  | .powerLoss => by cases h
  | .leeRouteReplacement => execLeeRouteReplacement_fixed s
  | .functionEnable fn => execFunctionEnable_fixed fn s
  | .functionSettings fn cfg => execFunctionSettings_fixed fn cfg s
  | .unexpectedCompletion fn iova len => execUnexpectedCompletion_fixed fn iova len s

end Sys2Proof.Machine
end

