-- ==== Sys2Proof/Laws/BootSteps.lean ====
section
/-! SUPPORT. How instructions and events move the boot state and the capabilities, and how a step's move follows from those of
`exec`. -/

namespace Sys2Proof.Machine

/-- How the fixed part may move at once: the fuses stay or are blown up to the running version and the number of fuses, and
only a new start changes capabilities, place and record. -/
structure BootMove (x y : Fixed) : Prop where
  fuses : y.boot.fuses = x.boot.fuses ∧ (y.boot.version = x.boot.version ∨ x.boot.rollback ≤ y.boot.version) ∨
    y.boot.version = x.boot.version ∧ ∀ i : Fin 4, y.boot.fuses[i] = x.boot.fuses[i] ∨
      x.boot.fuses[i] < y.boot.fuses[i] ∧ y.boot.fuses[i] ≤ x.boot.version ∧ y.boot.fuses[i] ≤ 64
  starts : x.boot.starts ≤ y.boot.starts
  found : y.boot.starts = x.boot.starts → y.caps = x.caps ∧ y.torus = x.torus ∧ y.origin = x.origin ∧ y.physical = x.physical ∧
    y.boot.half0 = x.boot.half0 ∧ y.boot.half1 = x.boot.half1

theorem BootMove.refl (x : Fixed) : BootMove x x := ⟨.inl ⟨rfl, .inl rfl⟩, le_refl _, fun _ => ⟨rfl, rfl, rfl, rfl, rfl, rfl⟩⟩
theorem BootMove.of_eq {x y : Fixed} (h : y = x) : BootMove x y := h ▸ BootMove.refl y

theorem startLinks_fixed' (s : State) (es : List RecordEntry) : (s.startLinks es).boot = s.boot :=
  congrArg Fixed.boot (startLinks_fixed s es)
theorem started_boot (s : State) (b : Bringup) (es : List RecordEntry) (lanes : List (Nat × List Nat)) (sh) : (s.started b es lanes sh).boot = s.boot := by
  unfold State.started
  dsimp only
  rw [startLinks_fixed']
  exact congrArg Fixed.boot (foldl_fixed _ _ (fun _ _ => by simp) _)
theorem recorded_keeps (b : Boot) (es : List RecordEntry) (lanes : List (Nat × List Nat)) (sh) :
    (b.recorded es lanes sh).fuses = b.fuses ∧ (b.recorded es lanes sh).starts = b.starts ∧ (b.recorded es lanes sh).version = b.version := by
  unfold Boot.recorded Boot.writeRecord; dsimp only; split <;> exact ⟨rfl, rfl, rfl⟩
theorem dark_move (s : State) : BootMove s.fixed s.dark.fixed :=
  ⟨.inl ⟨rfl, .inl rfl⟩, le_refl _, fun _ => ⟨rfl, rfl, rfl, rfl, rfl, rfl⟩⟩

/-- A copy that runs has a security version no lower than the fuses. -/
theorem pickCopy_version {r : Nat} {p : ImageCopy × ImageCopy} {c : ImageCopy} (h : pickCopy r p = some c) : r ≤ versionIn c := by
  have key : ∀ x : ImageCopy, copyVerifies x r = true → r ≤ versionIn x := fun x hx => by simpa using (Bool.and_eq_true_iff.1 hx).2
  unfold pickCopy at h
  split at h
  · cases h; exact key _ ‹_›
  · split at h
    · cases h; exact key _ ‹_›
    · cases h
theorem foldl_min_le {r : Nat} : ∀ (l : List Nat) (v : Nat), r ≤ v → (∀ x ∈ l, r ≤ x) → r ≤ l.foldl min v
  | [], _, hv, _ => hv
  | a :: l, v, hv, h => foldl_min_le l (min v a) (le_min hv (h a (by simp))) (fun x hx => h x (by simp [hx]))
/-- When every image runs, the version of the running images is no lower than the fuses (R397). -/
theorem versionOf_ge {b : Bringup} {r : Nat} (h : failedImage b r = none) : r ≤ versionOf b r := by
  have all : ∀ x ∈ (runningImages b r).map versionIn, r ≤ x := by
    intro x hx
    obtain ⟨c, hc, rfl⟩ := List.mem_map.1 hx
    obtain ⟨n, -, hn⟩ := List.mem_filterMap.1 hc
    obtain ⟨p, -, hp⟩ := Option.bind_eq_some_iff.1 hn
    exact pickCopy_version hp
  have some0 : ∃ c, runningImage b r 0 = some c := by
    have := List.find?_eq_none.1 h 0 (by decide)
    exact Option.ne_none_iff_exists'.1 (by simpa using this)
  obtain ⟨c, hc⟩ := some0
  have hm : versionIn c ∈ (runningImages b r).map versionIn :=
    List.mem_map.2 ⟨c, List.mem_filterMap.2 ⟨0, by decide, hc⟩, rfl⟩
  unfold versionOf
  revert all hm
  cases (runningImages b r).map versionIn with
  | nil => intro _ hm; cases hm
  | cons v rest => intro all _; exact foldl_min_le rest v (all v (by simp)) (fun x hx => all x (by simp [hx]))
/-- A start leaves the fuses, counts itself, and runs no version below them. -/
theorem on_move (t : Boot) (b : Bringup) (f : Option BootFailure) :
    (t.on b f).fuses = t.fuses ∧ (t.on b f).starts = t.starts + 1 ∧ ((t.on b f).version = t.version ∨ t.rollback ≤ (t.on b f).version) := by
  refine ⟨rfl, rfl, ?_⟩
  unfold Boot.on
  dsimp only
  split
  · exact .inl rfl
  · exact .inr (versionOf_ge (Option.not_isSome_iff_eq_none.1 ‹_›))
theorem recorded_move (t : Boot) (b : Bringup) (f : Option BootFailure) (es : List RecordEntry) (lanes : List (Nat × List Nat)) (sh) :
    let x := (t.on b f).recorded es lanes sh
    x.fuses = t.fuses ∧ x.starts = t.starts + 1 ∧ (x.version = t.version ∨ t.rollback ≤ x.version) := by
  obtain ⟨h1, h2, h3⟩ := recorded_keeps (t.on b f) es lanes sh
  obtain ⟨k1, k2, k3⟩ := on_move t b f
  exact ⟨h1.trans k1, h2.trans k2, h3 ▸ k3⟩
/-- A machine whose boot counts one more start, keeps the fuses and runs no version below them has moved as it may. -/
theorem BootMove.of_start {s u : State} (h1 : u.boot.fuses = s.boot.fuses) (h2 : u.boot.starts = s.boot.starts + 1)
    (h3 : u.boot.version = s.boot.version ∨ s.boot.rollback ≤ u.boot.version) : BootMove s.fixed u.fixed :=
  ⟨.inl ⟨h1, h3⟩, Nat.le_of_lt (h2 ▸ Nat.lt_succ_self _), fun e => absurd (h2.symm.trans e) (Nat.succ_ne_self _)⟩
theorem execPowerOn_move (b : Bringup) (s t : State) (h : execPowerOn b s = .next t) : BootMove s.fixed t.fixed := by
  have plain : ∀ (u : State) (f : Option BootFailure), u.boot = s.boot.on b f → BootMove s.fixed u.fixed := fun u f e =>
    have k := on_move s.boot b f
    .of_start (e ▸ k.1) (e ▸ k.2.1) (e ▸ k.2.2)
  unfold execPowerOn at h
  dsimp only at h
  split at h
  · simp [absent] at h
  · split at h
    · cases h; exact plain _ _ rfl
    · split at h
      · cases h; exact plain _ _ rfl
      · split at h <;> cases h
        · have k := recorded_move s.boot b none (bringupEntries b ((measuresOf b s.boot.rollback).headD 0) s.boot.stored)
            (allLanes s.boot.trained s.boot.stored (bringupEntries b ((measuresOf b s.boot.rollback).headD 0) s.boot.stored)
              (variantDies b.variant) s.modul.free) (shapeResult b s.boot.shape s.boot.stored (bringupEntries b ((measuresOf b s.boot.rollback).headD 0) s.boot.stored))
          dsimp only at k
          refine .of_start ?_ ?_ ?_ <;> simp only [started_boot]
          · exact k.1
          · exact k.2.1
          · exact k.2.2
        · exact plain _ _ (started_boot _ _ _ _ _)
/-- A counter stays, or rises to the value. -/
theorem blown_cases (l : Vector Nat 4) (n v : Nat) (i : Fin 4) : (blown l n v)[i] = l[i] ∨ l[i] < (blown l n v)[i] ∧ (blown l n v)[i] = v := by
  have e : (blown l n v)[i] = if i.val < n then max l[i] v else l[i] := by simp [blown]
  rw [e]
  split <;> omega
theorem execAntiRollbackUpdate_move (v : Nat) (s t : State) (h : execAntiRollbackUpdate v s = .next t) : BootMove s.fixed t.fixed := by
  unfold execAntiRollbackUpdate at h
  split at h
  · rename_i hv
    cases h
    refine ⟨.inr ⟨rfl, fun i => ?_⟩, le_refl _, fun _ => ⟨rfl, rfl, rfl, rfl, rfl, rfl⟩⟩
    obtain h | ⟨h1, h2⟩ := blown_cases s.boot.fuses s.dies v i
    · exact .inl h
    · exact .inr ⟨h1, h2.le.trans hv.1, h2.le.trans hv.2⟩
  · cases h; exact BootMove.refl _

theorem movesBoot_cases (i : Instr) (h : movesBoot i = true) : (∃ b, i = .powerOn b) ∨ i = .powerLoss ∨ i = .moduleReset ∨
    (∃ d, i = .thermalShutdown d) ∨ (∃ v, i = .antiRollbackUpdate v) ∨ (∃ n, i = .attestationRequest n) := by
  cases i <;> first
    | exact absurd h Bool.false_ne_true
    | simp

/-- What any instruction or event does to the fixed part. -/
theorem exec_move (i : Instr) (s t : State) (h : exec i s = .next t) : BootMove s.fixed t.fixed := by
  by_cases hi : movesBoot i = true
  · obtain ⟨b, rfl⟩ | rfl | rfl | ⟨d, rfl⟩ | ⟨v, rfl⟩ | ⟨n, rfl⟩ := movesBoot_cases i hi
    · exact execPowerOn_move _ _ _ h
    · change execPowerLoss s = _ at h
      unfold execPowerLoss at h
      split at h
      · cases h; exact dark_move s
      · simp [absent] at h
    · change execModuleReset s = _ at h
      unfold execModuleReset at h
      split at h
      · cases h; exact dark_move s
      · simp [absent] at h
    · change execThermalShutdown d s = _ at h
      unfold execThermalShutdown at h
      split at h
      · cases h; exact dark_move s
      · simp [absent] at h
    · exact execAntiRollbackUpdate_move _ _ _ h
    · change execAttestationRequest n s = _ at h
      unfold execAttestationRequest at h
      cases h
      exact ⟨.inl ⟨rfl, .inl rfl⟩, le_refl _, fun _ => ⟨rfl, rfl, rfl, rfl, rfl, rfl⟩⟩
  · exact .of_eq ((exec_fixed i s (Bool.eq_false_iff.2 hi)).1 t h)

/-- A request that no firmware serves leaves the fixed part. -/
theorem unserved_fixed (s : State) (i : Instr) (t : State) (h : s.unserved i = some t) : t.fixed = s.fixed := by
  unfold State.unserved at h
  split at h
  · cases h; simp
  · split at h
    · split at h <;> cases h; rfl
    · cases h

/-- What every instruction and event does to the fixed part, every step does. -/
theorem step_rel (R : Fixed → Fixed → Prop) (refl : ∀ x, R x x) (h : ∀ i s t, exec i s = .next t → R s.fixed t.fixed)
    (s t : State) (hs : step s = .next t) : R s.fixed t.fixed := by
  have core : ∀ s t, coreTurn s = .next t → R s.fixed t.fixed := by
    intro s t hs
    unfold coreTurn runTurn at hs
    dsimp only at hs
    repeat' split at hs
    all_goals first
      | exact h _ _ _ hs
      | exact ((sksCommit_fixed s _).1 t hs) ▸ refl _
      | (cases hs; first | exact refl _ | (simp only [takeFault_fixed, stalled_fixed]; exact refl _))
  have vector : ∀ s t, vectorTurn s = .next t → R s.fixed t.fixed := by
    intro s t hs
    unfold vectorTurn at hs
    repeat' split at hs
    all_goals first
      | exact h _ _ _ hs
      | (cases hs; exact refl _)
  have at_ : ∀ (s : State) i (u t : State), State.fixed u = s.fixed → exec i u = .next t → R s.fixed t.fixed := fun (s : State) i (u t : State) e hu => e ▸ h i u t hu
  have agenda : ∀ s t, agendaTurn s = .next t → R s.fixed t.fixed := by
    intro s t hs
    unfold agendaTurn at hs
    dsimp only at hs
    repeat' split at hs
    · exact h _ _ _ hs
    · cases hs; exact refl _
    · exact h _ _ _ hs
    · exact at_ s _ _ _ (by rfl) hs
  have dark : ∀ s t, darkMove s = .next t → R s.fixed t.fixed := by
    intro s t hs
    unfold darkMove at hs
    split at hs
    · exact at_ s _ _ _ (by rfl) hs
    · simp at hs
  have failed : ∀ s t, failedMove s = .next t → R s.fixed t.fixed := by
    intro s t hs
    unfold failedMove at hs
    dsimp only at hs
    repeat' split at hs
    · cases hs; exact refl _
    · cases hs
      rename_i u hu
      exact (unserved_fixed _ _ _ hu) ▸ refl _
    · exact at_ s _ _ _ (by rfl) hs
  have go : ∀ s t, move s = .next t → R s.fixed t.fixed := by
    intro s t hs
    unfold move at hs
    split at hs
    · exact core _ _ hs
    · exact vector _ _ hs
    · exact agenda _ _ hs
    · cases hs; simp only [nextUpset_fixed]; exact refl _
    · cases hs; simp only [sendHost_fixed]; exact refl _
    · split at hs
      · cases hs; simp only [actAs_fixed]; exact refl _
      · cases hs; exact refl _
  unfold step at hs
  dsimp only at hs
  split at hs
  · rename_i u hu
    cases hs
    have : R s.fixed u.fixed := by
      repeat' split at hu
      · exact dark _ _ hu
      · exact failed _ _ hu
      · exact go _ _ hu
    exact this
  · cases hs
  · cases hs

end Sys2Proof.Machine
end

