-- ==== Sys2Proof/Laws/Cells.lean ====
section
/-! SUPPORT. The laws of sparse storage: what a read after a write gives, and that every operation keeps the canonical form. -/

namespace Sys2Proof.Machine

variable {w : Nat}

/-! ## The canonical form as keys strictly rising and no value zero -/

/-- The canonical form as a property of the list of keys and of every entry. -/
theorem cwf_iff (c : Cells w) : cwf c = true ↔ c.Pairwise (fun p q => p.1 < q.1) ∧ ∀ p ∈ c, p.2 ≠ 0 := by
  induction c with
  | nil => simp [cwf]
  | cons p c ih =>
    cases c with
    | nil => simp [cwf]
    | cons q r =>
      simp only [cwf, Bool.and_eq_true, decide_eq_true_eq, bne_iff_ne, ih, List.pairwise_cons, List.mem_cons, forall_eq_or_imp]
      constructor
      · rintro ⟨⟨hp, hpq⟩, ⟨hq, hr⟩, hz, hzs⟩
        exact ⟨⟨⟨hpq, fun a ha => hpq.trans (hq a ha)⟩, hq, hr⟩, hp, hz, hzs⟩
      · rintro ⟨⟨⟨hpq, -⟩, hq, hr⟩, hp, hz, hzs⟩
        exact ⟨⟨hp, hpq⟩, ⟨hq, hr⟩, hz, hzs⟩

theorem centries_bounds (a : Nat) (vs : List (BitVec w)) : ∀ p ∈ centries a vs, a ≤ p.1 ∧ p.1 < a + vs.length ∧ p.2 ≠ 0 := by
  induction vs generalizing a with
  | nil => simp [centries]
  | cons v vs ih =>
    intro p hp
    unfold centries at hp
    split at hp
    · obtain ⟨h1, h2, h3⟩ := ih (a + 1) p hp
      exact ⟨by omega, by simp only [List.length_cons]; omega, h3⟩
    · rename_i hv
      rcases List.mem_cons.1 hp with rfl | hp
      · simp only [List.length_cons]; exact ⟨le_refl _, by omega, hv⟩
      · obtain ⟨h1, h2, h3⟩ := ih (a + 1) p hp
        exact ⟨by omega, by simp only [List.length_cons]; omega, h3⟩

theorem centries_pairwise (a : Nat) (vs : List (BitVec w)) : (centries a vs).Pairwise (fun p q => p.1 < q.1) := by
  induction vs generalizing a with
  | nil => simp [centries]
  | cons v vs ih =>
    unfold centries
    split
    · exact ih (a + 1)
    · refine List.pairwise_cons.2 ⟨fun p hp => ?_, ih (a + 1)⟩
      have := centries_bounds (a + 1) vs p hp
      dsimp only; omega

/-- A write of a run keeps the canonical form. -/
theorem csetRun_wf (c : Cells w) (a : Nat) (vs : List (BitVec w)) (h : cwf c = true) : cwf (csetRun c a vs) = true := by
  obtain ⟨hp, hz⟩ := (cwf_iff c).1 h
  refine (cwf_iff _).2 ⟨?_, ?_⟩
  · unfold csetRun
    refine List.pairwise_append.2 ⟨hp.filter _, List.pairwise_append.2 ⟨centries_pairwise a vs, hp.filter _, ?_⟩, ?_⟩
    · intro p hp q hq
      have := centries_bounds a vs p hp
      have := of_decide_eq_true (List.mem_filter.1 hq).2
      omega
    · intro p hp q hq
      have h1 := of_decide_eq_true (List.mem_filter.1 hp).2
      rcases List.mem_append.1 hq with hq | hq
      · have := centries_bounds a vs q hq; omega
      · have := of_decide_eq_true (List.mem_filter.1 hq).2; omega
  · intro p hp
    unfold csetRun at hp
    rcases List.mem_append.1 hp with hp | hp
    · exact hz p (List.mem_filter.1 hp).1
    · rcases List.mem_append.1 hp with hp | hp
      · exact (centries_bounds a vs p hp).2.2
      · exact hz p (List.mem_filter.1 hp).1
theorem csetRange_wf (c : Cells w) (a n : Nat) (f : Nat → BitVec w) (h : cwf c = true) : cwf (csetRange c a n f) = true :=
  csetRun_wf c a _ h
theorem cset_wf (c : Cells w) (k : Nat) (v : BitVec w) (h : cwf c = true) : cwf (cset c k v) = true := csetRun_wf c k _ h
theorem csetList_wf (c : Cells w) (l : List (Nat × BitVec w)) (h : cwf c = true) : cwf (csetList c l) = true := by
  unfold csetList
  generalize runsOf l = rs
  induction rs generalizing c with
  | nil => exact h
  | cons r rs ih => exact ih _ (csetRun_wf c r.1 r.2 h)
theorem cput_wf (c : Cells w) (a n : Nat) (part : Cells w) (h : cwf c = true) : cwf (cput c a n part) = true :=
  csetRange_wf c a n _ h
theorem ctake_wf (c : Cells w) (a n : Nat) (h : cwf c = true) : cwf (ctake c a n) = true := by
  obtain ⟨hp, hz⟩ := (cwf_iff c).1 h
  refine (cwf_iff _).2 ⟨?_, ?_⟩
  · unfold ctake
    refine List.pairwise_map.2 ((List.pairwise_filter (p := _)).2 (hp.imp (fun {p q} hpq h1 h2 => ?_)))
    simp only [Bool.and_eq_true, decide_eq_true_eq] at h1 h2
    omega
  · intro p hp
    obtain ⟨q, hq, rfl⟩ := List.mem_map.1 hp
    exact hz q (List.mem_filter.1 hq).1
theorem writeLE_wf (m : List Host.Cell) (a n v : Nat) (h : Memory.wf m = true) : Memory.wf (writeLE m a n v) = true :=
  csetRange_wf m a n _ h

/-! ## Reading after writing -/

theorem cget_filter_of (c : Cells w) (f : Nat × BitVec w → Bool) (k : Nat) (h : ∀ p ∈ c, p.1 = k → f p = true) :
    cget (c.filter f) k = cget c k := by
  induction c with
  | nil => rfl
  | cons p c ih =>
    have ih := ih (fun q hq => h q (List.mem_cons_of_mem _ hq))
    rw [List.filter_cons]
    by_cases hk : p.1 = k
    · rw [if_pos (h p List.mem_cons_self hk)]
      simp [cget, hk]
    · split <;> simp [cget, hk, ih]
theorem cget_filter_none (c : Cells w) (f : Nat × BitVec w → Bool) (k : Nat) (h : ∀ p ∈ c, p.1 = k → f p = false) :
    cget (c.filter f) k = 0 := by
  induction c with
  | nil => rfl
  | cons p c ih =>
    have ih := ih (fun q hq => h q (List.mem_cons_of_mem _ hq))
    rw [List.filter_cons]
    by_cases hk : p.1 = k
    · simp [h p List.mem_cons_self hk, ih]
    · split <;> simp [cget, hk, ih]
theorem cget_append_of_none (c d : Cells w) (k : Nat) (h : ∀ p ∈ c, p.1 ≠ k) : cget (c ++ d) k = cget d k := by
  induction c with
  | nil => rfl
  | cons p c ih =>
    have hp := h p List.mem_cons_self
    simp [cget, hp, ih (fun q hq => h q (List.mem_cons_of_mem _ hq))]
theorem cget_none (c : Cells w) (k : Nat) (h : ∀ p ∈ c, p.1 ≠ k) : cget c k = 0 := by
  have := cget_append_of_none c [] k h
  simpa [cget] using this
theorem cget_append (c d : Cells w) (k : Nat) (h : ∀ p ∈ d, p.1 ≠ k) : cget (c ++ d) k = cget c k := by
  induction c with
  | nil => exact cget_none d k h
  | cons p c ih => simp [cget, ih]
theorem cget_centries (a : Nat) (vs : List (BitVec w)) (i : Nat) : cget (centries a vs) (a + i) = vs.getD i 0 := by
  induction vs generalizing a i with
  | nil => simp [centries, cget]
  | cons v vs ih =>
    have below : cget (centries (a + 1) vs) a = 0 := cget_none _ _ (fun p hp => by have := centries_bounds (a + 1) vs p hp; omega)
    unfold centries
    cases i with
    | zero =>
      split
      · rename_i hv; simp [below, hv]
      · simp [cget]
    | succ i =>
      have := ih (a + 1) i
      rw [show a + 1 + i = a + (i + 1) by omega] at this
      split
      · simpa using this
      · simpa [cget] using this

/-- A run reads back what was written. -/
theorem cget_csetRun_in (c : Cells w) (a : Nat) (vs : List (BitVec w)) (i : Nat) (hi : i < vs.length) :
    cget (csetRun c a vs) (a + i) = vs.getD i 0 := by
  unfold csetRun
  rw [cget_append_of_none, cget_append, cget_centries]
  · intro p hp
    have := of_decide_eq_true (List.mem_filter.1 hp).2
    omega
  · intro p hp
    have := of_decide_eq_true (List.mem_filter.1 hp).2
    omega
/-- A write leaves every other key as it was. -/
theorem cget_csetRun_out (c : Cells w) (a : Nat) (vs : List (BitVec w)) (k : Nat) (h : k < a ∨ a + vs.length ≤ k) :
    cget (csetRun c a vs) k = cget c k := by
  unfold csetRun
  rcases h with h | h
  · rw [cget_append, cget_filter_of]
    · intro p _ hp; simp [hp, h]
    · intro p hp
      rcases List.mem_append.1 hp with hp | hp
      · have := centries_bounds a vs p hp; omega
      · have := of_decide_eq_true (List.mem_filter.1 hp).2; omega
  · rw [cget_append_of_none, cget_append_of_none, cget_filter_of]
    · intro p _ hp; simp [hp, h]
    · intro p hp
      have := centries_bounds a vs p hp; omega
    · intro p hp
      have := of_decide_eq_true (List.mem_filter.1 hp).2; omega
theorem cget_csetRange_in (c : Cells w) (a n : Nat) (f : Nat → BitVec w) (k : Nat) (h : a ≤ k ∧ k < a + n) :
    cget (csetRange c a n f) k = f k := by
  have := cget_csetRun_in c a ((List.range n).map (fun i => f (a + i))) (k - a) (by simp; omega)
  rw [show a + (k - a) = k by omega] at this
  unfold csetRange
  rw [this, List.getD_eq_getElem?_getD, List.getElem?_map, List.getElem?_range (by omega)]
  simp [show a + (k - a) = k by omega]
theorem cget_csetRange_out (c : Cells w) (a n : Nat) (f : Nat → BitVec w) (k : Nat) (h : k < a ∨ a + n ≤ k) :
    cget (csetRange c a n f) k = cget c k :=
  cget_csetRun_out c a _ k (by simpa using h)
theorem cget_cset (c : Cells w) (k j : Nat) (v : BitVec w) : cget (cset c k v) j = if j = k then v else cget c j := by
  by_cases h : j = k
  · subst h
    have := cget_csetRun_in c j [v] 0 (by simp)
    simpa [cset] using this
  · rw [if_neg h]
    exact cget_csetRun_out c k [v] j (by simp; omega)
theorem cget_writeLE_out (m : List Host.Cell) (a n v k : Nat) (h : k < a ∨ a + n ≤ k) : cget (writeLE m a n v) k = cget m k :=
  cget_csetRange_out m a n _ k h
theorem cget_writeLE_in (m : List Host.Cell) (a n v k : Nat) (h : a ≤ k ∧ k < a + n) :
    cget (writeLE m a n v) k = BitVec.ofNat 8 (v / 256 ^ (k - a)) := cget_csetRange_in m a n _ k h

/-- n bytes read as a number below 256^n. -/
theorem readLE_lt (m : List Host.Cell) (a n : Nat) : readLE m a n < 256 ^ n := by
  induction n generalizing a with
  | zero => simp [readLE]
  | succ n ih =>
    have h1 := ih (a + 1)
    have h2 := (cget m a).isLt
    simp only [readLE, pow_succ]
    omega
/-- A read of n bytes depends on those bytes alone. -/
theorem readLE_congr (m m' : List Host.Cell) (a n : Nat) (h : ∀ k, a ≤ k → k < a + n → cget m k = cget m' k) : readLE m a n = readLE m' a n := by
  induction n generalizing a with
  | zero => rfl
  | succ n ih =>
    simp only [readLE]
    rw [h a (le_refl _) (by omega), ih (a + 1) (fun k h1 h2 => h k (by omega) (by omega))]
/-- Stored bytes read back (R4). -/
theorem readLE_writeLE (m : List Host.Cell) (a n v : Nat) : readLE (writeLE m a n v) a n = v % 256 ^ n := by
  have key : ∀ n j, ∀ m' : List Host.Cell, (∀ k, a + j ≤ k → k < a + j + n → cget m' k = BitVec.ofNat 8 (v / 256 ^ (k - a))) →
      readLE m' (a + j) n = v / 256 ^ j % 256 ^ n := by
    intro n
    induction n with
    | zero => intro j m' _; simp [readLE, Nat.mod_one]
    | succ n ih =>
      intro j m' h
      simp only [readLE]
      rw [h (a + j) (le_refl _) (by omega), show a + j + 1 = a + (j + 1) by omega,
        ih (j + 1) m' (fun k h1 h2 => h k (by omega) (by omega))]
      rw [BitVec.toNat_ofNat, show a + j - a = j by omega, pow_succ 256 j, ← Nat.div_div_eq_div_mul, pow_succ 256 n,
        mul_comm (256 ^ n) 256, Nat.mod_mul]
  have := key n 0 (writeLE m a n v) (fun k h1 h2 => cget_writeLE_in m a n v k (by omega))
  simpa using this

end Sys2Proof.Machine
end

