-- ==== Sys2Proof/Laws/State.lean ====
section
/-! SUPPORT. One lemma per field per update of the acting core: what each leaves alone, and what it sets. -/

namespace Sys2Proof.Machine

/-! ## `wr` -/

@[simp] theorem State.wr_parked (s : State) (d : Reg) (v : Word) : (s.wr d v).parked = s.parked := rfl
@[simp] theorem State.wr_cluster (s : State) (d : Reg) (v : Word) : (s.wr d v).cluster = s.cluster := rfl
@[simp] theorem State.wr_parkedClusters (s : State) (d : Reg) (v : Word) : (s.wr d v).parkedClusters = s.parkedClusters := rfl
@[simp] theorem State.wr_die (s : State) (d : Reg) (v : Word) : (s.wr d v).die = s.die := rfl
@[simp] theorem State.wr_parkedDies (s : State) (d : Reg) (v : Word) : (s.wr d v).parkedDies = s.parkedDies := rfl
@[simp] theorem State.wr_modul (s : State) (d : Reg) (v : Word) : (s.wr d v).modul = s.modul := rfl
@[simp] theorem State.wr_host (s : State) (d : Reg) (v : Word) : (s.wr d v).host = s.host := rfl
@[simp] theorem State.wr_boot (s : State) (d : Reg) (v : Word) : (s.wr d v).boot = s.boot := rfl
@[simp] theorem State.wr_sched (s : State) (d : Reg) (v : Word) : (s.wr d v).sched = s.sched := rfl
@[simp] theorem State.wr_core_id (s : State) (d : Reg) (v : Word) : (s.wr d v).core.id = s.core.id := by unfold State.wr Core.wr; split <;> rfl
@[simp] theorem State.wr_core_pc (s : State) (d : Reg) (v : Word) : (s.wr d v).core.pc = s.core.pc := by unfold State.wr Core.wr; split <;> rfl
@[simp] theorem State.wr_core_run (s : State) (d : Reg) (v : Word) : (s.wr d v).core.run = s.core.run := by unfold State.wr Core.wr; split <;> rfl
@[simp] theorem State.wr_core_stall (s : State) (d : Reg) (v : Word) : (s.wr d v).core.stall = s.core.stall := by unfold State.wr Core.wr; split <;> rfl
@[simp] theorem State.wr_core_issued (s : State) (d : Reg) (v : Word) : (s.wr d v).core.issued = s.core.issued := by unfold State.wr Core.wr; split <;> rfl
@[simp] theorem State.wr_core_await (s : State) (d : Reg) (v : Word) : (s.wr d v).core.await = s.core.await := by unfold State.wr Core.wr; split <;> rfl
@[simp] theorem State.wr_core_sketch (s : State) (d : Reg) (v : Word) : (s.wr d v).core.sketch = s.core.sketch := by unfold State.wr Core.wr; split <;> rfl
@[simp] theorem State.wr_core_status (s : State) (d : Reg) (v : Word) : (s.wr d v).core.status = s.core.status := by unfold State.wr Core.wr; split <;> rfl
@[simp] theorem State.wr_core_cr (s : State) (d : Reg) (v : Word) : (s.wr d v).core.cr = s.core.cr := by unfold State.wr Core.wr; split <;> rfl
@[simp] theorem State.wr_core_cid (s : State) (d : Reg) (v : Word) : (s.wr d v).core.cid = s.core.cid := by unfold State.wr Core.wr; split <;> rfl
@[simp] theorem State.wr_core_spbase (s : State) (d : Reg) (v : Word) : (s.wr d v).core.spbase = s.core.spbase := by unfold State.wr Core.wr; split <;> rfl
@[simp] theorem State.wr_core_grant (s : State) (d : Reg) (v : Word) : (s.wr d v).core.grant = s.core.grant := by unfold State.wr Core.wr; split <;> rfl
@[simp] theorem State.wr_core_cycStart (s : State) (d : Reg) (v : Word) : (s.wr d v).core.cycStart = s.core.cycStart := by unfold State.wr Core.wr; split <;> rfl
@[simp] theorem State.wr_core_cmpArmed (s : State) (d : Reg) (v : Word) : (s.wr d v).core.cmpArmed = s.core.cmpArmed := by unfold State.wr Core.wr; split <;> rfl
@[simp] theorem State.wr_core_escalated (s : State) (d : Reg) (v : Word) : (s.wr d v).core.escalated = s.core.escalated := by unfold State.wr Core.wr; split <;> rfl
@[simp] theorem State.wr_core_spad (s : State) (d : Reg) (v : Word) : (s.wr d v).core.spad = s.core.spad := by unfold State.wr Core.wr; split <;> rfl
@[simp] theorem State.wr_core_poison (s : State) (d : Reg) (v : Word) : (s.wr d v).core.poison = s.core.poison := by unfold State.wr Core.wr; split <;> rfl
@[simp] theorem State.wr_core_bufs (s : State) (d : Reg) (v : Word) : (s.wr d v).core.bufs = s.core.bufs := by unfold State.wr Core.wr; split <;> rfl
@[simp] theorem State.wr_core_builder (s : State) (d : Reg) (v : Word) : (s.wr d v).core.builder = s.core.builder := by unfold State.wr Core.wr; split <;> rfl
@[simp] theorem State.wr_core_streams (s : State) (d : Reg) (v : Word) : (s.wr d v).core.streams = s.core.streams := by unfold State.wr Core.wr; split <;> rfl
@[simp] theorem State.wr_core_inbox (s : State) (d : Reg) (v : Word) : (s.wr d v).core.inbox = s.core.inbox := by unfold State.wr Core.wr; split <;> rfl
@[simp] theorem State.wr_core_msgsOut (s : State) (d : Reg) (v : Word) : (s.wr d v).core.msgsOut = s.core.msgsOut := by unfold State.wr Core.wr; split <;> rfl
@[simp] theorem State.wr_core_windows (s : State) (d : Reg) (v : Word) : (s.wr d v).core.windows = s.core.windows := by unfold State.wr Core.wr; split <;> rfl
@[simp] theorem State.wr_core_directOut (s : State) (d : Reg) (v : Word) : (s.wr d v).core.directOut = s.core.directOut := by unfold State.wr Core.wr; split <;> rfl
@[simp] theorem State.wr_core_directDen (s : State) (d : Reg) (v : Word) : (s.wr d v).core.directDen = s.core.directDen := by unfold State.wr Core.wr; split <;> rfl
@[simp] theorem State.wr_core_effects (s : State) (d : Reg) (v : Word) : (s.wr d v).core.effects = s.core.effects := by unfold State.wr Core.wr; split <;> rfl
@[simp] theorem State.wr_core_fences (s : State) (d : Reg) (v : Word) : (s.wr d v).core.fences = s.core.fences := by unfold State.wr Core.wr; split <;> rfl
@[simp] theorem State.wr_core_flags (s : State) (d : Reg) (v : Word) : (s.wr d v).core.flags = s.core.flags := by unfold State.wr Core.wr; split <;> rfl
@[simp] theorem State.wr_core_aside (s : State) (d : Reg) (v : Word) : (s.wr d v).core.aside = s.core.aside := by unfold State.wr Core.wr; split <;> rfl
@[simp] theorem State.wr_core_saving (s : State) (d : Reg) (v : Word) : (s.wr d v).core.saving = s.core.saving := by unfold State.wr Core.wr; split <;> rfl
@[simp] theorem State.wr_core_savingAt (s : State) (d : Reg) (v : Word) : (s.wr d v).core.savingAt = s.core.savingAt := by unfold State.wr Core.wr; split <;> rfl
@[simp] theorem State.wr_core_restored (s : State) (d : Reg) (v : Word) : (s.wr d v).core.restored = s.core.restored := by unfold State.wr Core.wr; split <;> rfl
@[simp] theorem State.wr_core_sched (s : State) (d : Reg) (v : Word) : (s.wr d v).core.sched = s.core.sched := by unfold State.wr Core.wr; split <;> rfl
@[simp] theorem State.wr_core_early (s : State) (d : Reg) (v : Word) : (s.wr d v).core.early = s.core.early := by unfold State.wr Core.wr; split <;> rfl
@[simp] theorem State.wr_core_stale (s : State) (d : Reg) (v : Word) : (s.wr d v).core.stale = s.core.stale := by unfold State.wr Core.wr; split <;> rfl
@[simp] theorem State.wr_core_vec (s : State) (d : Reg) (v : Word) : (s.wr d v).core.vec = s.core.vec := by unfold State.wr Core.wr; split <;> rfl

/-! ## `advance` -/

@[simp] theorem State.advance_parked (s : State) : (s.advance).parked = s.parked := rfl
@[simp] theorem State.advance_cluster (s : State) : (s.advance).cluster = s.cluster := rfl
@[simp] theorem State.advance_parkedClusters (s : State) : (s.advance).parkedClusters = s.parkedClusters := rfl
@[simp] theorem State.advance_die (s : State) : (s.advance).die = s.die := rfl
@[simp] theorem State.advance_parkedDies (s : State) : (s.advance).parkedDies = s.parkedDies := rfl
@[simp] theorem State.advance_modul (s : State) : (s.advance).modul = s.modul := rfl
@[simp] theorem State.advance_host (s : State) : (s.advance).host = s.host := rfl
@[simp] theorem State.advance_boot (s : State) : (s.advance).boot = s.boot := rfl
@[simp] theorem State.advance_sched (s : State) : (s.advance).sched = s.sched := rfl
@[simp] theorem State.advance_core_id (s : State) : (s.advance).core.id = s.core.id := rfl
@[simp] theorem State.advance_core_regs (s : State) : (s.advance).core.regs = s.core.regs := rfl
@[simp] theorem State.advance_core_run (s : State) : (s.advance).core.run = s.core.run := rfl
@[simp] theorem State.advance_core_stall (s : State) : (s.advance).core.stall = s.core.stall := rfl
@[simp] theorem State.advance_core_issued (s : State) : (s.advance).core.issued = s.core.issued := rfl
@[simp] theorem State.advance_core_await (s : State) : (s.advance).core.await = s.core.await := rfl
@[simp] theorem State.advance_core_sketch (s : State) : (s.advance).core.sketch = s.core.sketch := rfl
@[simp] theorem State.advance_core_status (s : State) : (s.advance).core.status = s.core.status := rfl
@[simp] theorem State.advance_core_cr (s : State) : (s.advance).core.cr = s.core.cr := rfl
@[simp] theorem State.advance_core_cid (s : State) : (s.advance).core.cid = s.core.cid := rfl
@[simp] theorem State.advance_core_spbase (s : State) : (s.advance).core.spbase = s.core.spbase := rfl
@[simp] theorem State.advance_core_grant (s : State) : (s.advance).core.grant = s.core.grant := rfl
@[simp] theorem State.advance_core_cycStart (s : State) : (s.advance).core.cycStart = s.core.cycStart := rfl
@[simp] theorem State.advance_core_cmpArmed (s : State) : (s.advance).core.cmpArmed = s.core.cmpArmed := rfl
@[simp] theorem State.advance_core_escalated (s : State) : (s.advance).core.escalated = s.core.escalated := rfl
@[simp] theorem State.advance_core_spad (s : State) : (s.advance).core.spad = s.core.spad := rfl
@[simp] theorem State.advance_core_poison (s : State) : (s.advance).core.poison = s.core.poison := rfl
@[simp] theorem State.advance_core_bufs (s : State) : (s.advance).core.bufs = s.core.bufs := rfl
@[simp] theorem State.advance_core_builder (s : State) : (s.advance).core.builder = s.core.builder := rfl
@[simp] theorem State.advance_core_streams (s : State) : (s.advance).core.streams = s.core.streams := rfl
@[simp] theorem State.advance_core_inbox (s : State) : (s.advance).core.inbox = s.core.inbox := rfl
@[simp] theorem State.advance_core_msgsOut (s : State) : (s.advance).core.msgsOut = s.core.msgsOut := rfl
@[simp] theorem State.advance_core_windows (s : State) : (s.advance).core.windows = s.core.windows := rfl
@[simp] theorem State.advance_core_directOut (s : State) : (s.advance).core.directOut = s.core.directOut := rfl
@[simp] theorem State.advance_core_directDen (s : State) : (s.advance).core.directDen = s.core.directDen := rfl
@[simp] theorem State.advance_core_effects (s : State) : (s.advance).core.effects = s.core.effects := rfl
@[simp] theorem State.advance_core_fences (s : State) : (s.advance).core.fences = s.core.fences := rfl
@[simp] theorem State.advance_core_flags (s : State) : (s.advance).core.flags = s.core.flags := rfl
@[simp] theorem State.advance_core_aside (s : State) : (s.advance).core.aside = s.core.aside := rfl
@[simp] theorem State.advance_core_saving (s : State) : (s.advance).core.saving = s.core.saving := rfl
@[simp] theorem State.advance_core_savingAt (s : State) : (s.advance).core.savingAt = s.core.savingAt := rfl
@[simp] theorem State.advance_core_restored (s : State) : (s.advance).core.restored = s.core.restored := rfl
@[simp] theorem State.advance_core_sched (s : State) : (s.advance).core.sched = s.core.sched := rfl
@[simp] theorem State.advance_core_early (s : State) : (s.advance).core.early = s.core.early := rfl
@[simp] theorem State.advance_core_stale (s : State) : (s.advance).core.stale = s.core.stale := rfl
@[simp] theorem State.advance_core_vec (s : State) : (s.advance).core.vec = s.core.vec := rfl

/-! ## `goto` -/

@[simp] theorem State.goto_parked (s : State) (p : BitVec 32) : (s.goto p).parked = s.parked := rfl
@[simp] theorem State.goto_cluster (s : State) (p : BitVec 32) : (s.goto p).cluster = s.cluster := rfl
@[simp] theorem State.goto_parkedClusters (s : State) (p : BitVec 32) : (s.goto p).parkedClusters = s.parkedClusters := rfl
@[simp] theorem State.goto_die (s : State) (p : BitVec 32) : (s.goto p).die = s.die := rfl
@[simp] theorem State.goto_parkedDies (s : State) (p : BitVec 32) : (s.goto p).parkedDies = s.parkedDies := rfl
@[simp] theorem State.goto_modul (s : State) (p : BitVec 32) : (s.goto p).modul = s.modul := rfl
@[simp] theorem State.goto_host (s : State) (p : BitVec 32) : (s.goto p).host = s.host := rfl
@[simp] theorem State.goto_boot (s : State) (p : BitVec 32) : (s.goto p).boot = s.boot := rfl
@[simp] theorem State.goto_sched (s : State) (p : BitVec 32) : (s.goto p).sched = s.sched := rfl
@[simp] theorem State.goto_core_id (s : State) (p : BitVec 32) : (s.goto p).core.id = s.core.id := rfl
@[simp] theorem State.goto_core_regs (s : State) (p : BitVec 32) : (s.goto p).core.regs = s.core.regs := rfl
@[simp] theorem State.goto_core_run (s : State) (p : BitVec 32) : (s.goto p).core.run = s.core.run := rfl
@[simp] theorem State.goto_core_stall (s : State) (p : BitVec 32) : (s.goto p).core.stall = s.core.stall := rfl
@[simp] theorem State.goto_core_issued (s : State) (p : BitVec 32) : (s.goto p).core.issued = s.core.issued := rfl
@[simp] theorem State.goto_core_await (s : State) (p : BitVec 32) : (s.goto p).core.await = s.core.await := rfl
@[simp] theorem State.goto_core_sketch (s : State) (p : BitVec 32) : (s.goto p).core.sketch = s.core.sketch := rfl
@[simp] theorem State.goto_core_status (s : State) (p : BitVec 32) : (s.goto p).core.status = s.core.status := rfl
@[simp] theorem State.goto_core_cr (s : State) (p : BitVec 32) : (s.goto p).core.cr = s.core.cr := rfl
@[simp] theorem State.goto_core_cid (s : State) (p : BitVec 32) : (s.goto p).core.cid = s.core.cid := rfl
@[simp] theorem State.goto_core_spbase (s : State) (p : BitVec 32) : (s.goto p).core.spbase = s.core.spbase := rfl
@[simp] theorem State.goto_core_grant (s : State) (p : BitVec 32) : (s.goto p).core.grant = s.core.grant := rfl
@[simp] theorem State.goto_core_cycStart (s : State) (p : BitVec 32) : (s.goto p).core.cycStart = s.core.cycStart := rfl
@[simp] theorem State.goto_core_cmpArmed (s : State) (p : BitVec 32) : (s.goto p).core.cmpArmed = s.core.cmpArmed := rfl
@[simp] theorem State.goto_core_escalated (s : State) (p : BitVec 32) : (s.goto p).core.escalated = s.core.escalated := rfl
@[simp] theorem State.goto_core_spad (s : State) (p : BitVec 32) : (s.goto p).core.spad = s.core.spad := rfl
@[simp] theorem State.goto_core_poison (s : State) (p : BitVec 32) : (s.goto p).core.poison = s.core.poison := rfl
@[simp] theorem State.goto_core_bufs (s : State) (p : BitVec 32) : (s.goto p).core.bufs = s.core.bufs := rfl
@[simp] theorem State.goto_core_builder (s : State) (p : BitVec 32) : (s.goto p).core.builder = s.core.builder := rfl
@[simp] theorem State.goto_core_streams (s : State) (p : BitVec 32) : (s.goto p).core.streams = s.core.streams := rfl
@[simp] theorem State.goto_core_inbox (s : State) (p : BitVec 32) : (s.goto p).core.inbox = s.core.inbox := rfl
@[simp] theorem State.goto_core_msgsOut (s : State) (p : BitVec 32) : (s.goto p).core.msgsOut = s.core.msgsOut := rfl
@[simp] theorem State.goto_core_windows (s : State) (p : BitVec 32) : (s.goto p).core.windows = s.core.windows := rfl
@[simp] theorem State.goto_core_directOut (s : State) (p : BitVec 32) : (s.goto p).core.directOut = s.core.directOut := rfl
@[simp] theorem State.goto_core_directDen (s : State) (p : BitVec 32) : (s.goto p).core.directDen = s.core.directDen := rfl
@[simp] theorem State.goto_core_effects (s : State) (p : BitVec 32) : (s.goto p).core.effects = s.core.effects := rfl
@[simp] theorem State.goto_core_fences (s : State) (p : BitVec 32) : (s.goto p).core.fences = s.core.fences := rfl
@[simp] theorem State.goto_core_flags (s : State) (p : BitVec 32) : (s.goto p).core.flags = s.core.flags := rfl
@[simp] theorem State.goto_core_aside (s : State) (p : BitVec 32) : (s.goto p).core.aside = s.core.aside := rfl
@[simp] theorem State.goto_core_saving (s : State) (p : BitVec 32) : (s.goto p).core.saving = s.core.saving := rfl
@[simp] theorem State.goto_core_savingAt (s : State) (p : BitVec 32) : (s.goto p).core.savingAt = s.core.savingAt := rfl
@[simp] theorem State.goto_core_restored (s : State) (p : BitVec 32) : (s.goto p).core.restored = s.core.restored := rfl
@[simp] theorem State.goto_core_sched (s : State) (p : BitVec 32) : (s.goto p).core.sched = s.core.sched := rfl
@[simp] theorem State.goto_core_early (s : State) (p : BitVec 32) : (s.goto p).core.early = s.core.early := rfl
@[simp] theorem State.goto_core_stale (s : State) (p : BitVec 32) : (s.goto p).core.stale = s.core.stale := rfl
@[simp] theorem State.goto_core_vec (s : State) (p : BitVec 32) : (s.goto p).core.vec = s.core.vec := rfl

/-! ## `sticky` -/

@[simp] theorem State.sticky_parked (s : State) (f : Sticky) : (s.sticky f).parked = s.parked := rfl
@[simp] theorem State.sticky_cluster (s : State) (f : Sticky) : (s.sticky f).cluster = s.cluster := rfl
@[simp] theorem State.sticky_parkedClusters (s : State) (f : Sticky) : (s.sticky f).parkedClusters = s.parkedClusters := rfl
@[simp] theorem State.sticky_die (s : State) (f : Sticky) : (s.sticky f).die = s.die := rfl
@[simp] theorem State.sticky_parkedDies (s : State) (f : Sticky) : (s.sticky f).parkedDies = s.parkedDies := rfl
@[simp] theorem State.sticky_modul (s : State) (f : Sticky) : (s.sticky f).modul = s.modul := rfl
@[simp] theorem State.sticky_host (s : State) (f : Sticky) : (s.sticky f).host = s.host := rfl
@[simp] theorem State.sticky_boot (s : State) (f : Sticky) : (s.sticky f).boot = s.boot := rfl
@[simp] theorem State.sticky_sched (s : State) (f : Sticky) : (s.sticky f).sched = s.sched := rfl
@[simp] theorem State.sticky_core_id (s : State) (f : Sticky) : (s.sticky f).core.id = s.core.id := rfl
@[simp] theorem State.sticky_core_regs (s : State) (f : Sticky) : (s.sticky f).core.regs = s.core.regs := rfl
@[simp] theorem State.sticky_core_pc (s : State) (f : Sticky) : (s.sticky f).core.pc = s.core.pc := rfl
@[simp] theorem State.sticky_core_run (s : State) (f : Sticky) : (s.sticky f).core.run = s.core.run := rfl
@[simp] theorem State.sticky_core_stall (s : State) (f : Sticky) : (s.sticky f).core.stall = s.core.stall := rfl
@[simp] theorem State.sticky_core_issued (s : State) (f : Sticky) : (s.sticky f).core.issued = s.core.issued := rfl
@[simp] theorem State.sticky_core_await (s : State) (f : Sticky) : (s.sticky f).core.await = s.core.await := rfl
@[simp] theorem State.sticky_core_sketch (s : State) (f : Sticky) : (s.sticky f).core.sketch = s.core.sketch := rfl
@[simp] theorem State.sticky_core_status (s : State) (f : Sticky) : (s.sticky f).core.status = s.core.status := rfl
@[simp] theorem State.sticky_core_cid (s : State) (f : Sticky) : (s.sticky f).core.cid = s.core.cid := rfl
@[simp] theorem State.sticky_core_spbase (s : State) (f : Sticky) : (s.sticky f).core.spbase = s.core.spbase := rfl
@[simp] theorem State.sticky_core_grant (s : State) (f : Sticky) : (s.sticky f).core.grant = s.core.grant := rfl
@[simp] theorem State.sticky_core_cycStart (s : State) (f : Sticky) : (s.sticky f).core.cycStart = s.core.cycStart := rfl
@[simp] theorem State.sticky_core_cmpArmed (s : State) (f : Sticky) : (s.sticky f).core.cmpArmed = s.core.cmpArmed := rfl
@[simp] theorem State.sticky_core_escalated (s : State) (f : Sticky) : (s.sticky f).core.escalated = s.core.escalated := rfl
@[simp] theorem State.sticky_core_spad (s : State) (f : Sticky) : (s.sticky f).core.spad = s.core.spad := rfl
@[simp] theorem State.sticky_core_poison (s : State) (f : Sticky) : (s.sticky f).core.poison = s.core.poison := rfl
@[simp] theorem State.sticky_core_bufs (s : State) (f : Sticky) : (s.sticky f).core.bufs = s.core.bufs := rfl
@[simp] theorem State.sticky_core_builder (s : State) (f : Sticky) : (s.sticky f).core.builder = s.core.builder := rfl
@[simp] theorem State.sticky_core_streams (s : State) (f : Sticky) : (s.sticky f).core.streams = s.core.streams := rfl
@[simp] theorem State.sticky_core_inbox (s : State) (f : Sticky) : (s.sticky f).core.inbox = s.core.inbox := rfl
@[simp] theorem State.sticky_core_msgsOut (s : State) (f : Sticky) : (s.sticky f).core.msgsOut = s.core.msgsOut := rfl
@[simp] theorem State.sticky_core_windows (s : State) (f : Sticky) : (s.sticky f).core.windows = s.core.windows := rfl
@[simp] theorem State.sticky_core_directOut (s : State) (f : Sticky) : (s.sticky f).core.directOut = s.core.directOut := rfl
@[simp] theorem State.sticky_core_directDen (s : State) (f : Sticky) : (s.sticky f).core.directDen = s.core.directDen := rfl
@[simp] theorem State.sticky_core_effects (s : State) (f : Sticky) : (s.sticky f).core.effects = s.core.effects := rfl
@[simp] theorem State.sticky_core_fences (s : State) (f : Sticky) : (s.sticky f).core.fences = s.core.fences := rfl
@[simp] theorem State.sticky_core_flags (s : State) (f : Sticky) : (s.sticky f).core.flags = s.core.flags := rfl
@[simp] theorem State.sticky_core_aside (s : State) (f : Sticky) : (s.sticky f).core.aside = s.core.aside := rfl
@[simp] theorem State.sticky_core_saving (s : State) (f : Sticky) : (s.sticky f).core.saving = s.core.saving := rfl
@[simp] theorem State.sticky_core_savingAt (s : State) (f : Sticky) : (s.sticky f).core.savingAt = s.core.savingAt := rfl
@[simp] theorem State.sticky_core_restored (s : State) (f : Sticky) : (s.sticky f).core.restored = s.core.restored := rfl
@[simp] theorem State.sticky_core_sched (s : State) (f : Sticky) : (s.sticky f).core.sched = s.core.sched := rfl
@[simp] theorem State.sticky_core_early (s : State) (f : Sticky) : (s.sticky f).core.early = s.core.early := rfl
@[simp] theorem State.sticky_core_stale (s : State) (f : Sticky) : (s.sticky f).core.stale = s.core.stale := rfl
@[simp] theorem State.sticky_core_vec (s : State) (f : Sticky) : (s.sticky f).core.vec = s.core.vec := rfl

/-! ## `settled` -/

@[simp] theorem State.settled_parked (s : State) : (s.settled).parked = s.parked := rfl
@[simp] theorem State.settled_cluster (s : State) : (s.settled).cluster = s.cluster := rfl
@[simp] theorem State.settled_parkedClusters (s : State) : (s.settled).parkedClusters = s.parkedClusters := rfl
@[simp] theorem State.settled_die (s : State) : (s.settled).die = s.die := rfl
@[simp] theorem State.settled_parkedDies (s : State) : (s.settled).parkedDies = s.parkedDies := rfl
@[simp] theorem State.settled_modul (s : State) : (s.settled).modul = s.modul := rfl
@[simp] theorem State.settled_host (s : State) : (s.settled).host = s.host := rfl
@[simp] theorem State.settled_boot (s : State) : (s.settled).boot = s.boot := rfl
@[simp] theorem State.settled_sched (s : State) : (s.settled).sched = s.sched := rfl
@[simp] theorem State.settled_core_id (s : State) : (s.settled).core.id = s.core.id := rfl
@[simp] theorem State.settled_core_regs (s : State) : (s.settled).core.regs = s.core.regs := rfl
@[simp] theorem State.settled_core_pc (s : State) : (s.settled).core.pc = s.core.pc := rfl
@[simp] theorem State.settled_core_run (s : State) : (s.settled).core.run = s.core.run := rfl
@[simp] theorem State.settled_core_await (s : State) : (s.settled).core.await = s.core.await := rfl
@[simp] theorem State.settled_core_sketch (s : State) : (s.settled).core.sketch = s.core.sketch := rfl
@[simp] theorem State.settled_core_status (s : State) : (s.settled).core.status = s.core.status := rfl
@[simp] theorem State.settled_core_cr (s : State) : (s.settled).core.cr = s.core.cr := rfl
@[simp] theorem State.settled_core_cid (s : State) : (s.settled).core.cid = s.core.cid := rfl
@[simp] theorem State.settled_core_spbase (s : State) : (s.settled).core.spbase = s.core.spbase := rfl
@[simp] theorem State.settled_core_grant (s : State) : (s.settled).core.grant = s.core.grant := rfl
@[simp] theorem State.settled_core_cycStart (s : State) : (s.settled).core.cycStart = s.core.cycStart := rfl
@[simp] theorem State.settled_core_cmpArmed (s : State) : (s.settled).core.cmpArmed = s.core.cmpArmed := rfl
@[simp] theorem State.settled_core_escalated (s : State) : (s.settled).core.escalated = s.core.escalated := rfl
@[simp] theorem State.settled_core_spad (s : State) : (s.settled).core.spad = s.core.spad := rfl
@[simp] theorem State.settled_core_poison (s : State) : (s.settled).core.poison = s.core.poison := rfl
@[simp] theorem State.settled_core_bufs (s : State) : (s.settled).core.bufs = s.core.bufs := rfl
@[simp] theorem State.settled_core_builder (s : State) : (s.settled).core.builder = s.core.builder := rfl
@[simp] theorem State.settled_core_streams (s : State) : (s.settled).core.streams = s.core.streams := rfl
@[simp] theorem State.settled_core_inbox (s : State) : (s.settled).core.inbox = s.core.inbox := rfl
@[simp] theorem State.settled_core_msgsOut (s : State) : (s.settled).core.msgsOut = s.core.msgsOut := rfl
@[simp] theorem State.settled_core_windows (s : State) : (s.settled).core.windows = s.core.windows := rfl
@[simp] theorem State.settled_core_directOut (s : State) : (s.settled).core.directOut = s.core.directOut := rfl
@[simp] theorem State.settled_core_directDen (s : State) : (s.settled).core.directDen = s.core.directDen := rfl
@[simp] theorem State.settled_core_effects (s : State) : (s.settled).core.effects = s.core.effects := rfl
@[simp] theorem State.settled_core_fences (s : State) : (s.settled).core.fences = s.core.fences := rfl
@[simp] theorem State.settled_core_flags (s : State) : (s.settled).core.flags = s.core.flags := rfl
@[simp] theorem State.settled_core_aside (s : State) : (s.settled).core.aside = s.core.aside := rfl
@[simp] theorem State.settled_core_saving (s : State) : (s.settled).core.saving = s.core.saving := rfl
@[simp] theorem State.settled_core_savingAt (s : State) : (s.settled).core.savingAt = s.core.savingAt := rfl
@[simp] theorem State.settled_core_restored (s : State) : (s.settled).core.restored = s.core.restored := rfl
@[simp] theorem State.settled_core_sched (s : State) : (s.settled).core.sched = s.core.sched := rfl
@[simp] theorem State.settled_core_early (s : State) : (s.settled).core.early = s.core.early := rfl
@[simp] theorem State.settled_core_stale (s : State) : (s.settled).core.stale = s.core.stale := rfl
@[simp] theorem State.settled_core_vec (s : State) : (s.settled).core.vec = s.core.vec := rfl

/-! ## `stalled` -/

@[simp] theorem State.stalled_parked (s : State) (w : Wait) : (s.stalled w).parked = s.parked := rfl
@[simp] theorem State.stalled_cluster (s : State) (w : Wait) : (s.stalled w).cluster = s.cluster := rfl
@[simp] theorem State.stalled_parkedClusters (s : State) (w : Wait) : (s.stalled w).parkedClusters = s.parkedClusters := rfl
@[simp] theorem State.stalled_die (s : State) (w : Wait) : (s.stalled w).die = s.die := rfl
@[simp] theorem State.stalled_parkedDies (s : State) (w : Wait) : (s.stalled w).parkedDies = s.parkedDies := rfl
@[simp] theorem State.stalled_modul (s : State) (w : Wait) : (s.stalled w).modul = s.modul := rfl
@[simp] theorem State.stalled_host (s : State) (w : Wait) : (s.stalled w).host = s.host := rfl
@[simp] theorem State.stalled_boot (s : State) (w : Wait) : (s.stalled w).boot = s.boot := rfl
@[simp] theorem State.stalled_sched (s : State) (w : Wait) : (s.stalled w).sched = s.sched := rfl
@[simp] theorem State.stalled_core_id (s : State) (w : Wait) : (s.stalled w).core.id = s.core.id := rfl
@[simp] theorem State.stalled_core_regs (s : State) (w : Wait) : (s.stalled w).core.regs = s.core.regs := rfl
@[simp] theorem State.stalled_core_pc (s : State) (w : Wait) : (s.stalled w).core.pc = s.core.pc := rfl
@[simp] theorem State.stalled_core_run (s : State) (w : Wait) : (s.stalled w).core.run = s.core.run := rfl
@[simp] theorem State.stalled_core_issued (s : State) (w : Wait) : (s.stalled w).core.issued = s.core.issued := rfl
@[simp] theorem State.stalled_core_await (s : State) (w : Wait) : (s.stalled w).core.await = s.core.await := rfl
@[simp] theorem State.stalled_core_sketch (s : State) (w : Wait) : (s.stalled w).core.sketch = s.core.sketch := rfl
@[simp] theorem State.stalled_core_status (s : State) (w : Wait) : (s.stalled w).core.status = s.core.status := rfl
@[simp] theorem State.stalled_core_cr (s : State) (w : Wait) : (s.stalled w).core.cr = s.core.cr := rfl
@[simp] theorem State.stalled_core_cid (s : State) (w : Wait) : (s.stalled w).core.cid = s.core.cid := rfl
@[simp] theorem State.stalled_core_spbase (s : State) (w : Wait) : (s.stalled w).core.spbase = s.core.spbase := rfl
@[simp] theorem State.stalled_core_grant (s : State) (w : Wait) : (s.stalled w).core.grant = s.core.grant := rfl
@[simp] theorem State.stalled_core_cycStart (s : State) (w : Wait) : (s.stalled w).core.cycStart = s.core.cycStart := rfl
@[simp] theorem State.stalled_core_cmpArmed (s : State) (w : Wait) : (s.stalled w).core.cmpArmed = s.core.cmpArmed := rfl
@[simp] theorem State.stalled_core_escalated (s : State) (w : Wait) : (s.stalled w).core.escalated = s.core.escalated := rfl
@[simp] theorem State.stalled_core_spad (s : State) (w : Wait) : (s.stalled w).core.spad = s.core.spad := rfl
@[simp] theorem State.stalled_core_poison (s : State) (w : Wait) : (s.stalled w).core.poison = s.core.poison := rfl
@[simp] theorem State.stalled_core_bufs (s : State) (w : Wait) : (s.stalled w).core.bufs = s.core.bufs := rfl
@[simp] theorem State.stalled_core_builder (s : State) (w : Wait) : (s.stalled w).core.builder = s.core.builder := rfl
@[simp] theorem State.stalled_core_streams (s : State) (w : Wait) : (s.stalled w).core.streams = s.core.streams := rfl
@[simp] theorem State.stalled_core_inbox (s : State) (w : Wait) : (s.stalled w).core.inbox = s.core.inbox := rfl
@[simp] theorem State.stalled_core_msgsOut (s : State) (w : Wait) : (s.stalled w).core.msgsOut = s.core.msgsOut := rfl
@[simp] theorem State.stalled_core_windows (s : State) (w : Wait) : (s.stalled w).core.windows = s.core.windows := rfl
@[simp] theorem State.stalled_core_directOut (s : State) (w : Wait) : (s.stalled w).core.directOut = s.core.directOut := rfl
@[simp] theorem State.stalled_core_directDen (s : State) (w : Wait) : (s.stalled w).core.directDen = s.core.directDen := rfl
@[simp] theorem State.stalled_core_effects (s : State) (w : Wait) : (s.stalled w).core.effects = s.core.effects := rfl
@[simp] theorem State.stalled_core_fences (s : State) (w : Wait) : (s.stalled w).core.fences = s.core.fences := rfl
@[simp] theorem State.stalled_core_flags (s : State) (w : Wait) : (s.stalled w).core.flags = s.core.flags := rfl
@[simp] theorem State.stalled_core_aside (s : State) (w : Wait) : (s.stalled w).core.aside = s.core.aside := rfl
@[simp] theorem State.stalled_core_saving (s : State) (w : Wait) : (s.stalled w).core.saving = s.core.saving := rfl
@[simp] theorem State.stalled_core_savingAt (s : State) (w : Wait) : (s.stalled w).core.savingAt = s.core.savingAt := rfl
@[simp] theorem State.stalled_core_restored (s : State) (w : Wait) : (s.stalled w).core.restored = s.core.restored := rfl
@[simp] theorem State.stalled_core_sched (s : State) (w : Wait) : (s.stalled w).core.sched = s.core.sched := rfl
@[simp] theorem State.stalled_core_early (s : State) (w : Wait) : (s.stalled w).core.early = s.core.early := rfl
@[simp] theorem State.stalled_core_stale (s : State) (w : Wait) : (s.stalled w).core.stale = s.core.stale := rfl
@[simp] theorem State.stalled_core_vec (s : State) (w : Wait) : (s.stalled w).core.vec = s.core.vec := rfl

/-! ## `stalledOn` -/

@[simp] theorem State.stalledOn_parked (s : State) (w : Wait) (i : Issued) : (s.stalledOn w i).parked = s.parked := rfl
@[simp] theorem State.stalledOn_cluster (s : State) (w : Wait) (i : Issued) : (s.stalledOn w i).cluster = s.cluster := rfl
@[simp] theorem State.stalledOn_parkedClusters (s : State) (w : Wait) (i : Issued) : (s.stalledOn w i).parkedClusters = s.parkedClusters := rfl
@[simp] theorem State.stalledOn_die (s : State) (w : Wait) (i : Issued) : (s.stalledOn w i).die = s.die := rfl
@[simp] theorem State.stalledOn_parkedDies (s : State) (w : Wait) (i : Issued) : (s.stalledOn w i).parkedDies = s.parkedDies := rfl
@[simp] theorem State.stalledOn_modul (s : State) (w : Wait) (i : Issued) : (s.stalledOn w i).modul = s.modul := rfl
@[simp] theorem State.stalledOn_host (s : State) (w : Wait) (i : Issued) : (s.stalledOn w i).host = s.host := rfl
@[simp] theorem State.stalledOn_boot (s : State) (w : Wait) (i : Issued) : (s.stalledOn w i).boot = s.boot := rfl
@[simp] theorem State.stalledOn_sched (s : State) (w : Wait) (i : Issued) : (s.stalledOn w i).sched = s.sched := rfl
@[simp] theorem State.stalledOn_core_id (s : State) (w : Wait) (i : Issued) : (s.stalledOn w i).core.id = s.core.id := rfl
@[simp] theorem State.stalledOn_core_regs (s : State) (w : Wait) (i : Issued) : (s.stalledOn w i).core.regs = s.core.regs := rfl
@[simp] theorem State.stalledOn_core_pc (s : State) (w : Wait) (i : Issued) : (s.stalledOn w i).core.pc = s.core.pc := rfl
@[simp] theorem State.stalledOn_core_run (s : State) (w : Wait) (i : Issued) : (s.stalledOn w i).core.run = s.core.run := rfl
@[simp] theorem State.stalledOn_core_await (s : State) (w : Wait) (i : Issued) : (s.stalledOn w i).core.await = s.core.await := rfl
@[simp] theorem State.stalledOn_core_sketch (s : State) (w : Wait) (i : Issued) : (s.stalledOn w i).core.sketch = s.core.sketch := rfl
@[simp] theorem State.stalledOn_core_status (s : State) (w : Wait) (i : Issued) : (s.stalledOn w i).core.status = s.core.status := rfl
@[simp] theorem State.stalledOn_core_cr (s : State) (w : Wait) (i : Issued) : (s.stalledOn w i).core.cr = s.core.cr := rfl
@[simp] theorem State.stalledOn_core_cid (s : State) (w : Wait) (i : Issued) : (s.stalledOn w i).core.cid = s.core.cid := rfl
@[simp] theorem State.stalledOn_core_spbase (s : State) (w : Wait) (i : Issued) : (s.stalledOn w i).core.spbase = s.core.spbase := rfl
@[simp] theorem State.stalledOn_core_grant (s : State) (w : Wait) (i : Issued) : (s.stalledOn w i).core.grant = s.core.grant := rfl
@[simp] theorem State.stalledOn_core_cycStart (s : State) (w : Wait) (i : Issued) : (s.stalledOn w i).core.cycStart = s.core.cycStart := rfl
@[simp] theorem State.stalledOn_core_cmpArmed (s : State) (w : Wait) (i : Issued) : (s.stalledOn w i).core.cmpArmed = s.core.cmpArmed := rfl
@[simp] theorem State.stalledOn_core_escalated (s : State) (w : Wait) (i : Issued) : (s.stalledOn w i).core.escalated = s.core.escalated := rfl
@[simp] theorem State.stalledOn_core_spad (s : State) (w : Wait) (i : Issued) : (s.stalledOn w i).core.spad = s.core.spad := rfl
@[simp] theorem State.stalledOn_core_poison (s : State) (w : Wait) (i : Issued) : (s.stalledOn w i).core.poison = s.core.poison := rfl
@[simp] theorem State.stalledOn_core_bufs (s : State) (w : Wait) (i : Issued) : (s.stalledOn w i).core.bufs = s.core.bufs := rfl
@[simp] theorem State.stalledOn_core_builder (s : State) (w : Wait) (i : Issued) : (s.stalledOn w i).core.builder = s.core.builder := rfl
@[simp] theorem State.stalledOn_core_streams (s : State) (w : Wait) (i : Issued) : (s.stalledOn w i).core.streams = s.core.streams := rfl
@[simp] theorem State.stalledOn_core_inbox (s : State) (w : Wait) (i : Issued) : (s.stalledOn w i).core.inbox = s.core.inbox := rfl
@[simp] theorem State.stalledOn_core_msgsOut (s : State) (w : Wait) (i : Issued) : (s.stalledOn w i).core.msgsOut = s.core.msgsOut := rfl
@[simp] theorem State.stalledOn_core_windows (s : State) (w : Wait) (i : Issued) : (s.stalledOn w i).core.windows = s.core.windows := rfl
@[simp] theorem State.stalledOn_core_directOut (s : State) (w : Wait) (i : Issued) : (s.stalledOn w i).core.directOut = s.core.directOut := rfl
@[simp] theorem State.stalledOn_core_directDen (s : State) (w : Wait) (i : Issued) : (s.stalledOn w i).core.directDen = s.core.directDen := rfl
@[simp] theorem State.stalledOn_core_effects (s : State) (w : Wait) (i : Issued) : (s.stalledOn w i).core.effects = s.core.effects := rfl
@[simp] theorem State.stalledOn_core_fences (s : State) (w : Wait) (i : Issued) : (s.stalledOn w i).core.fences = s.core.fences := rfl
@[simp] theorem State.stalledOn_core_flags (s : State) (w : Wait) (i : Issued) : (s.stalledOn w i).core.flags = s.core.flags := rfl
@[simp] theorem State.stalledOn_core_aside (s : State) (w : Wait) (i : Issued) : (s.stalledOn w i).core.aside = s.core.aside := rfl
@[simp] theorem State.stalledOn_core_saving (s : State) (w : Wait) (i : Issued) : (s.stalledOn w i).core.saving = s.core.saving := rfl
@[simp] theorem State.stalledOn_core_savingAt (s : State) (w : Wait) (i : Issued) : (s.stalledOn w i).core.savingAt = s.core.savingAt := rfl
@[simp] theorem State.stalledOn_core_restored (s : State) (w : Wait) (i : Issued) : (s.stalledOn w i).core.restored = s.core.restored := rfl
@[simp] theorem State.stalledOn_core_sched (s : State) (w : Wait) (i : Issued) : (s.stalledOn w i).core.sched = s.core.sched := rfl
@[simp] theorem State.stalledOn_core_early (s : State) (w : Wait) (i : Issued) : (s.stalledOn w i).core.early = s.core.early := rfl
@[simp] theorem State.stalledOn_core_stale (s : State) (w : Wait) (i : Issued) : (s.stalledOn w i).core.stale = s.core.stale := rfl
@[simp] theorem State.stalledOn_core_vec (s : State) (w : Wait) (i : Issued) : (s.stalledOn w i).core.vec = s.core.vec := rfl

/-! ## `wrPair` -/

@[simp] theorem State.wrPair_parked (s : State) (d : Reg) (v w : Word) : (s.wrPair d v w).parked = s.parked := by simp [State.wrPair]
@[simp] theorem State.wrPair_cluster (s : State) (d : Reg) (v w : Word) : (s.wrPair d v w).cluster = s.cluster := by simp [State.wrPair]
@[simp] theorem State.wrPair_parkedClusters (s : State) (d : Reg) (v w : Word) : (s.wrPair d v w).parkedClusters = s.parkedClusters := by simp [State.wrPair]
@[simp] theorem State.wrPair_die (s : State) (d : Reg) (v w : Word) : (s.wrPair d v w).die = s.die := by simp [State.wrPair]
@[simp] theorem State.wrPair_parkedDies (s : State) (d : Reg) (v w : Word) : (s.wrPair d v w).parkedDies = s.parkedDies := by simp [State.wrPair]
@[simp] theorem State.wrPair_modul (s : State) (d : Reg) (v w : Word) : (s.wrPair d v w).modul = s.modul := by simp [State.wrPair]
@[simp] theorem State.wrPair_host (s : State) (d : Reg) (v w : Word) : (s.wrPair d v w).host = s.host := by simp [State.wrPair]
@[simp] theorem State.wrPair_boot (s : State) (d : Reg) (v w : Word) : (s.wrPair d v w).boot = s.boot := by simp [State.wrPair]
@[simp] theorem State.wrPair_sched (s : State) (d : Reg) (v w : Word) : (s.wrPair d v w).sched = s.sched := by simp [State.wrPair]
@[simp] theorem State.wrPair_core_id (s : State) (d : Reg) (v w : Word) : (s.wrPair d v w).core.id = s.core.id := by simp [State.wrPair]
@[simp] theorem State.wrPair_core_pc (s : State) (d : Reg) (v w : Word) : (s.wrPair d v w).core.pc = s.core.pc := by simp [State.wrPair]
@[simp] theorem State.wrPair_core_run (s : State) (d : Reg) (v w : Word) : (s.wrPair d v w).core.run = s.core.run := by simp [State.wrPair]
@[simp] theorem State.wrPair_core_stall (s : State) (d : Reg) (v w : Word) : (s.wrPair d v w).core.stall = s.core.stall := by simp [State.wrPair]
@[simp] theorem State.wrPair_core_issued (s : State) (d : Reg) (v w : Word) : (s.wrPair d v w).core.issued = s.core.issued := by simp [State.wrPair]
@[simp] theorem State.wrPair_core_await (s : State) (d : Reg) (v w : Word) : (s.wrPair d v w).core.await = s.core.await := by simp [State.wrPair]
@[simp] theorem State.wrPair_core_sketch (s : State) (d : Reg) (v w : Word) : (s.wrPair d v w).core.sketch = s.core.sketch := by simp [State.wrPair]
@[simp] theorem State.wrPair_core_status (s : State) (d : Reg) (v w : Word) : (s.wrPair d v w).core.status = s.core.status := by simp [State.wrPair]
@[simp] theorem State.wrPair_core_cr (s : State) (d : Reg) (v w : Word) : (s.wrPair d v w).core.cr = s.core.cr := by simp [State.wrPair]
@[simp] theorem State.wrPair_core_cid (s : State) (d : Reg) (v w : Word) : (s.wrPair d v w).core.cid = s.core.cid := by simp [State.wrPair]
@[simp] theorem State.wrPair_core_spbase (s : State) (d : Reg) (v w : Word) : (s.wrPair d v w).core.spbase = s.core.spbase := by simp [State.wrPair]
@[simp] theorem State.wrPair_core_grant (s : State) (d : Reg) (v w : Word) : (s.wrPair d v w).core.grant = s.core.grant := by simp [State.wrPair]
@[simp] theorem State.wrPair_core_cycStart (s : State) (d : Reg) (v w : Word) : (s.wrPair d v w).core.cycStart = s.core.cycStart := by simp [State.wrPair]
@[simp] theorem State.wrPair_core_cmpArmed (s : State) (d : Reg) (v w : Word) : (s.wrPair d v w).core.cmpArmed = s.core.cmpArmed := by simp [State.wrPair]
@[simp] theorem State.wrPair_core_escalated (s : State) (d : Reg) (v w : Word) : (s.wrPair d v w).core.escalated = s.core.escalated := by simp [State.wrPair]
@[simp] theorem State.wrPair_core_spad (s : State) (d : Reg) (v w : Word) : (s.wrPair d v w).core.spad = s.core.spad := by simp [State.wrPair]
@[simp] theorem State.wrPair_core_poison (s : State) (d : Reg) (v w : Word) : (s.wrPair d v w).core.poison = s.core.poison := by simp [State.wrPair]
@[simp] theorem State.wrPair_core_bufs (s : State) (d : Reg) (v w : Word) : (s.wrPair d v w).core.bufs = s.core.bufs := by simp [State.wrPair]
@[simp] theorem State.wrPair_core_builder (s : State) (d : Reg) (v w : Word) : (s.wrPair d v w).core.builder = s.core.builder := by simp [State.wrPair]
@[simp] theorem State.wrPair_core_streams (s : State) (d : Reg) (v w : Word) : (s.wrPair d v w).core.streams = s.core.streams := by simp [State.wrPair]
@[simp] theorem State.wrPair_core_inbox (s : State) (d : Reg) (v w : Word) : (s.wrPair d v w).core.inbox = s.core.inbox := by simp [State.wrPair]
@[simp] theorem State.wrPair_core_msgsOut (s : State) (d : Reg) (v w : Word) : (s.wrPair d v w).core.msgsOut = s.core.msgsOut := by simp [State.wrPair]
@[simp] theorem State.wrPair_core_windows (s : State) (d : Reg) (v w : Word) : (s.wrPair d v w).core.windows = s.core.windows := by simp [State.wrPair]
@[simp] theorem State.wrPair_core_directOut (s : State) (d : Reg) (v w : Word) : (s.wrPair d v w).core.directOut = s.core.directOut := by simp [State.wrPair]
@[simp] theorem State.wrPair_core_directDen (s : State) (d : Reg) (v w : Word) : (s.wrPair d v w).core.directDen = s.core.directDen := by simp [State.wrPair]
@[simp] theorem State.wrPair_core_effects (s : State) (d : Reg) (v w : Word) : (s.wrPair d v w).core.effects = s.core.effects := by simp [State.wrPair]
@[simp] theorem State.wrPair_core_fences (s : State) (d : Reg) (v w : Word) : (s.wrPair d v w).core.fences = s.core.fences := by simp [State.wrPair]
@[simp] theorem State.wrPair_core_flags (s : State) (d : Reg) (v w : Word) : (s.wrPair d v w).core.flags = s.core.flags := by simp [State.wrPair]
@[simp] theorem State.wrPair_core_aside (s : State) (d : Reg) (v w : Word) : (s.wrPair d v w).core.aside = s.core.aside := by simp [State.wrPair]
@[simp] theorem State.wrPair_core_saving (s : State) (d : Reg) (v w : Word) : (s.wrPair d v w).core.saving = s.core.saving := by simp [State.wrPair]
@[simp] theorem State.wrPair_core_savingAt (s : State) (d : Reg) (v w : Word) : (s.wrPair d v w).core.savingAt = s.core.savingAt := by simp [State.wrPair]
@[simp] theorem State.wrPair_core_restored (s : State) (d : Reg) (v w : Word) : (s.wrPair d v w).core.restored = s.core.restored := by simp [State.wrPair]
@[simp] theorem State.wrPair_core_sched (s : State) (d : Reg) (v w : Word) : (s.wrPair d v w).core.sched = s.core.sched := by simp [State.wrPair]
@[simp] theorem State.wrPair_core_early (s : State) (d : Reg) (v w : Word) : (s.wrPair d v w).core.early = s.core.early := by simp [State.wrPair]
@[simp] theorem State.wrPair_core_stale (s : State) (d : Reg) (v w : Word) : (s.wrPair d v w).core.stale = s.core.stale := by simp [State.wrPair]
@[simp] theorem State.wrPair_core_vec (s : State) (d : Reg) (v w : Word) : (s.wrPair d v w).core.vec = s.core.vec := by simp [State.wrPair]

/-! ## `freshen` -/

@[simp] theorem State.freshen_parked (s : State) : (s.freshen).parked = s.parked := rfl
@[simp] theorem State.freshen_cluster (s : State) : (s.freshen).cluster = s.cluster := rfl
@[simp] theorem State.freshen_parkedClusters (s : State) : (s.freshen).parkedClusters = s.parkedClusters := rfl
@[simp] theorem State.freshen_die (s : State) : (s.freshen).die = s.die := rfl
@[simp] theorem State.freshen_parkedDies (s : State) : (s.freshen).parkedDies = s.parkedDies := rfl
@[simp] theorem State.freshen_host (s : State) : (s.freshen).host = s.host := rfl
@[simp] theorem State.freshen_boot (s : State) : (s.freshen).boot = s.boot := rfl
@[simp] theorem State.freshen_sched (s : State) : (s.freshen).sched = s.sched := rfl
@[simp] theorem State.freshen_core (s : State) : s.freshen.core = s.core := rfl

/-! ## `afterNext` -/

@[simp] theorem State.afterNext_parked (s : State) : (s.afterNext).parked = s.parked := rfl
@[simp] theorem State.afterNext_cluster (s : State) : (s.afterNext).cluster = s.cluster := rfl
@[simp] theorem State.afterNext_parkedClusters (s : State) : (s.afterNext).parkedClusters = s.parkedClusters := rfl
@[simp] theorem State.afterNext_die (s : State) : (s.afterNext).die = s.die := rfl
@[simp] theorem State.afterNext_parkedDies (s : State) : (s.afterNext).parkedDies = s.parkedDies := rfl
@[simp] theorem State.afterNext_modul (s : State) : (s.afterNext).modul = s.modul := rfl
@[simp] theorem State.afterNext_host (s : State) : (s.afterNext).host = s.host := rfl
@[simp] theorem State.afterNext_boot (s : State) : (s.afterNext).boot = s.boot := rfl
@[simp] theorem State.afterNext_sched (s : State) : (s.afterNext).sched = s.sched := rfl
@[simp] theorem State.afterNext_core_id (s : State) : (s.afterNext).core.id = s.core.id := rfl
@[simp] theorem State.afterNext_core_regs (s : State) : (s.afterNext).core.regs = s.core.regs := rfl
@[simp] theorem State.afterNext_core_run (s : State) : (s.afterNext).core.run = s.core.run := rfl
@[simp] theorem State.afterNext_core_await (s : State) : (s.afterNext).core.await = s.core.await := rfl
@[simp] theorem State.afterNext_core_sketch (s : State) : (s.afterNext).core.sketch = s.core.sketch := rfl
@[simp] theorem State.afterNext_core_status (s : State) : (s.afterNext).core.status = s.core.status := rfl
@[simp] theorem State.afterNext_core_cr (s : State) : (s.afterNext).core.cr = s.core.cr := rfl
@[simp] theorem State.afterNext_core_cid (s : State) : (s.afterNext).core.cid = s.core.cid := rfl
@[simp] theorem State.afterNext_core_spbase (s : State) : (s.afterNext).core.spbase = s.core.spbase := rfl
@[simp] theorem State.afterNext_core_grant (s : State) : (s.afterNext).core.grant = s.core.grant := rfl
@[simp] theorem State.afterNext_core_cycStart (s : State) : (s.afterNext).core.cycStart = s.core.cycStart := rfl
@[simp] theorem State.afterNext_core_cmpArmed (s : State) : (s.afterNext).core.cmpArmed = s.core.cmpArmed := rfl
@[simp] theorem State.afterNext_core_escalated (s : State) : (s.afterNext).core.escalated = s.core.escalated := rfl
@[simp] theorem State.afterNext_core_spad (s : State) : (s.afterNext).core.spad = s.core.spad := rfl
@[simp] theorem State.afterNext_core_poison (s : State) : (s.afterNext).core.poison = s.core.poison := rfl
@[simp] theorem State.afterNext_core_bufs (s : State) : (s.afterNext).core.bufs = s.core.bufs := rfl
@[simp] theorem State.afterNext_core_builder (s : State) : (s.afterNext).core.builder = s.core.builder := rfl
@[simp] theorem State.afterNext_core_streams (s : State) : (s.afterNext).core.streams = s.core.streams := rfl
@[simp] theorem State.afterNext_core_inbox (s : State) : (s.afterNext).core.inbox = s.core.inbox := rfl
@[simp] theorem State.afterNext_core_msgsOut (s : State) : (s.afterNext).core.msgsOut = s.core.msgsOut := rfl
@[simp] theorem State.afterNext_core_windows (s : State) : (s.afterNext).core.windows = s.core.windows := rfl
@[simp] theorem State.afterNext_core_directOut (s : State) : (s.afterNext).core.directOut = s.core.directOut := rfl
@[simp] theorem State.afterNext_core_directDen (s : State) : (s.afterNext).core.directDen = s.core.directDen := rfl
@[simp] theorem State.afterNext_core_effects (s : State) : (s.afterNext).core.effects = s.core.effects := rfl
@[simp] theorem State.afterNext_core_fences (s : State) : (s.afterNext).core.fences = s.core.fences := rfl
@[simp] theorem State.afterNext_core_flags (s : State) : (s.afterNext).core.flags = s.core.flags := rfl
@[simp] theorem State.afterNext_core_aside (s : State) : (s.afterNext).core.aside = s.core.aside := rfl
@[simp] theorem State.afterNext_core_saving (s : State) : (s.afterNext).core.saving = s.core.saving := rfl
@[simp] theorem State.afterNext_core_savingAt (s : State) : (s.afterNext).core.savingAt = s.core.savingAt := rfl
@[simp] theorem State.afterNext_core_restored (s : State) : (s.afterNext).core.restored = s.core.restored := rfl
@[simp] theorem State.afterNext_core_sched (s : State) : (s.afterNext).core.sched = s.core.sched := rfl
@[simp] theorem State.afterNext_core_early (s : State) : (s.afterNext).core.early = s.core.early := rfl
@[simp] theorem State.afterNext_core_stale (s : State) : (s.afterNext).core.stale = s.core.stale := rfl
@[simp] theorem State.afterNext_core_vec (s : State) : (s.afterNext).core.vec = s.core.vec := rfl

/-! ## `afterWrite` -/

@[simp] theorem State.afterWrite_parked (s : State) (d : Reg) (v : Word) : (s.afterWrite d v).parked = s.parked := rfl
@[simp] theorem State.afterWrite_cluster (s : State) (d : Reg) (v : Word) : (s.afterWrite d v).cluster = s.cluster := rfl
@[simp] theorem State.afterWrite_parkedClusters (s : State) (d : Reg) (v : Word) : (s.afterWrite d v).parkedClusters = s.parkedClusters := rfl
@[simp] theorem State.afterWrite_die (s : State) (d : Reg) (v : Word) : (s.afterWrite d v).die = s.die := rfl
@[simp] theorem State.afterWrite_parkedDies (s : State) (d : Reg) (v : Word) : (s.afterWrite d v).parkedDies = s.parkedDies := rfl
@[simp] theorem State.afterWrite_modul (s : State) (d : Reg) (v : Word) : (s.afterWrite d v).modul = s.modul := rfl
@[simp] theorem State.afterWrite_host (s : State) (d : Reg) (v : Word) : (s.afterWrite d v).host = s.host := rfl
@[simp] theorem State.afterWrite_boot (s : State) (d : Reg) (v : Word) : (s.afterWrite d v).boot = s.boot := rfl
@[simp] theorem State.afterWrite_sched (s : State) (d : Reg) (v : Word) : (s.afterWrite d v).sched = s.sched := rfl
@[simp] theorem State.afterWrite_core_id (s : State) (d : Reg) (v : Word) : (s.afterWrite d v).core.id = s.core.id := rfl
@[simp] theorem State.afterWrite_core_run (s : State) (d : Reg) (v : Word) : (s.afterWrite d v).core.run = s.core.run := rfl
@[simp] theorem State.afterWrite_core_await (s : State) (d : Reg) (v : Word) : (s.afterWrite d v).core.await = s.core.await := rfl
@[simp] theorem State.afterWrite_core_sketch (s : State) (d : Reg) (v : Word) : (s.afterWrite d v).core.sketch = s.core.sketch := rfl
@[simp] theorem State.afterWrite_core_status (s : State) (d : Reg) (v : Word) : (s.afterWrite d v).core.status = s.core.status := rfl
@[simp] theorem State.afterWrite_core_cr (s : State) (d : Reg) (v : Word) : (s.afterWrite d v).core.cr = s.core.cr := rfl
@[simp] theorem State.afterWrite_core_cid (s : State) (d : Reg) (v : Word) : (s.afterWrite d v).core.cid = s.core.cid := rfl
@[simp] theorem State.afterWrite_core_spbase (s : State) (d : Reg) (v : Word) : (s.afterWrite d v).core.spbase = s.core.spbase := rfl
@[simp] theorem State.afterWrite_core_grant (s : State) (d : Reg) (v : Word) : (s.afterWrite d v).core.grant = s.core.grant := rfl
@[simp] theorem State.afterWrite_core_cycStart (s : State) (d : Reg) (v : Word) : (s.afterWrite d v).core.cycStart = s.core.cycStart := rfl
@[simp] theorem State.afterWrite_core_cmpArmed (s : State) (d : Reg) (v : Word) : (s.afterWrite d v).core.cmpArmed = s.core.cmpArmed := rfl
@[simp] theorem State.afterWrite_core_escalated (s : State) (d : Reg) (v : Word) : (s.afterWrite d v).core.escalated = s.core.escalated := rfl
@[simp] theorem State.afterWrite_core_spad (s : State) (d : Reg) (v : Word) : (s.afterWrite d v).core.spad = s.core.spad := rfl
@[simp] theorem State.afterWrite_core_poison (s : State) (d : Reg) (v : Word) : (s.afterWrite d v).core.poison = s.core.poison := rfl
@[simp] theorem State.afterWrite_core_bufs (s : State) (d : Reg) (v : Word) : (s.afterWrite d v).core.bufs = s.core.bufs := rfl
@[simp] theorem State.afterWrite_core_builder (s : State) (d : Reg) (v : Word) : (s.afterWrite d v).core.builder = s.core.builder := rfl
@[simp] theorem State.afterWrite_core_streams (s : State) (d : Reg) (v : Word) : (s.afterWrite d v).core.streams = s.core.streams := rfl
@[simp] theorem State.afterWrite_core_inbox (s : State) (d : Reg) (v : Word) : (s.afterWrite d v).core.inbox = s.core.inbox := rfl
@[simp] theorem State.afterWrite_core_msgsOut (s : State) (d : Reg) (v : Word) : (s.afterWrite d v).core.msgsOut = s.core.msgsOut := rfl
@[simp] theorem State.afterWrite_core_windows (s : State) (d : Reg) (v : Word) : (s.afterWrite d v).core.windows = s.core.windows := rfl
@[simp] theorem State.afterWrite_core_directOut (s : State) (d : Reg) (v : Word) : (s.afterWrite d v).core.directOut = s.core.directOut := rfl
@[simp] theorem State.afterWrite_core_directDen (s : State) (d : Reg) (v : Word) : (s.afterWrite d v).core.directDen = s.core.directDen := rfl
@[simp] theorem State.afterWrite_core_effects (s : State) (d : Reg) (v : Word) : (s.afterWrite d v).core.effects = s.core.effects := rfl
@[simp] theorem State.afterWrite_core_fences (s : State) (d : Reg) (v : Word) : (s.afterWrite d v).core.fences = s.core.fences := rfl
@[simp] theorem State.afterWrite_core_flags (s : State) (d : Reg) (v : Word) : (s.afterWrite d v).core.flags = s.core.flags := rfl
@[simp] theorem State.afterWrite_core_aside (s : State) (d : Reg) (v : Word) : (s.afterWrite d v).core.aside = s.core.aside := rfl
@[simp] theorem State.afterWrite_core_saving (s : State) (d : Reg) (v : Word) : (s.afterWrite d v).core.saving = s.core.saving := rfl
@[simp] theorem State.afterWrite_core_savingAt (s : State) (d : Reg) (v : Word) : (s.afterWrite d v).core.savingAt = s.core.savingAt := rfl
@[simp] theorem State.afterWrite_core_restored (s : State) (d : Reg) (v : Word) : (s.afterWrite d v).core.restored = s.core.restored := rfl
@[simp] theorem State.afterWrite_core_sched (s : State) (d : Reg) (v : Word) : (s.afterWrite d v).core.sched = s.core.sched := rfl
@[simp] theorem State.afterWrite_core_early (s : State) (d : Reg) (v : Word) : (s.afterWrite d v).core.early = s.core.early := rfl
@[simp] theorem State.afterWrite_core_stale (s : State) (d : Reg) (v : Word) : (s.afterWrite d v).core.stale = s.core.stale := rfl
@[simp] theorem State.afterWrite_core_vec (s : State) (d : Reg) (v : Word) : (s.afterWrite d v).core.vec = s.core.vec := rfl

/-! ## `afterFlags` -/

@[simp] theorem State.afterFlags_parked (s : State) (d : Reg) (v : Word) (f : BitVec 7) : (s.afterFlags d v f).parked = s.parked := rfl
@[simp] theorem State.afterFlags_cluster (s : State) (d : Reg) (v : Word) (f : BitVec 7) : (s.afterFlags d v f).cluster = s.cluster := rfl
@[simp] theorem State.afterFlags_parkedClusters (s : State) (d : Reg) (v : Word) (f : BitVec 7) : (s.afterFlags d v f).parkedClusters = s.parkedClusters := rfl
@[simp] theorem State.afterFlags_die (s : State) (d : Reg) (v : Word) (f : BitVec 7) : (s.afterFlags d v f).die = s.die := rfl
@[simp] theorem State.afterFlags_parkedDies (s : State) (d : Reg) (v : Word) (f : BitVec 7) : (s.afterFlags d v f).parkedDies = s.parkedDies := rfl
@[simp] theorem State.afterFlags_modul (s : State) (d : Reg) (v : Word) (f : BitVec 7) : (s.afterFlags d v f).modul = s.modul := rfl
@[simp] theorem State.afterFlags_host (s : State) (d : Reg) (v : Word) (f : BitVec 7) : (s.afterFlags d v f).host = s.host := rfl
@[simp] theorem State.afterFlags_boot (s : State) (d : Reg) (v : Word) (f : BitVec 7) : (s.afterFlags d v f).boot = s.boot := rfl
@[simp] theorem State.afterFlags_sched (s : State) (d : Reg) (v : Word) (f : BitVec 7) : (s.afterFlags d v f).sched = s.sched := rfl
@[simp] theorem State.afterFlags_core_id (s : State) (d : Reg) (v : Word) (f : BitVec 7) : (s.afterFlags d v f).core.id = s.core.id := rfl
@[simp] theorem State.afterFlags_core_run (s : State) (d : Reg) (v : Word) (f : BitVec 7) : (s.afterFlags d v f).core.run = s.core.run := rfl
@[simp] theorem State.afterFlags_core_await (s : State) (d : Reg) (v : Word) (f : BitVec 7) : (s.afterFlags d v f).core.await = s.core.await := rfl
@[simp] theorem State.afterFlags_core_sketch (s : State) (d : Reg) (v : Word) (f : BitVec 7) : (s.afterFlags d v f).core.sketch = s.core.sketch := rfl
@[simp] theorem State.afterFlags_core_status (s : State) (d : Reg) (v : Word) (f : BitVec 7) : (s.afterFlags d v f).core.status = s.core.status := rfl
@[simp] theorem State.afterFlags_core_cid (s : State) (d : Reg) (v : Word) (f : BitVec 7) : (s.afterFlags d v f).core.cid = s.core.cid := rfl
@[simp] theorem State.afterFlags_core_spbase (s : State) (d : Reg) (v : Word) (f : BitVec 7) : (s.afterFlags d v f).core.spbase = s.core.spbase := rfl
@[simp] theorem State.afterFlags_core_grant (s : State) (d : Reg) (v : Word) (f : BitVec 7) : (s.afterFlags d v f).core.grant = s.core.grant := rfl
@[simp] theorem State.afterFlags_core_cycStart (s : State) (d : Reg) (v : Word) (f : BitVec 7) : (s.afterFlags d v f).core.cycStart = s.core.cycStart := rfl
@[simp] theorem State.afterFlags_core_cmpArmed (s : State) (d : Reg) (v : Word) (f : BitVec 7) : (s.afterFlags d v f).core.cmpArmed = s.core.cmpArmed := rfl
@[simp] theorem State.afterFlags_core_escalated (s : State) (d : Reg) (v : Word) (f : BitVec 7) : (s.afterFlags d v f).core.escalated = s.core.escalated := rfl
@[simp] theorem State.afterFlags_core_spad (s : State) (d : Reg) (v : Word) (f : BitVec 7) : (s.afterFlags d v f).core.spad = s.core.spad := rfl
@[simp] theorem State.afterFlags_core_poison (s : State) (d : Reg) (v : Word) (f : BitVec 7) : (s.afterFlags d v f).core.poison = s.core.poison := rfl
@[simp] theorem State.afterFlags_core_bufs (s : State) (d : Reg) (v : Word) (f : BitVec 7) : (s.afterFlags d v f).core.bufs = s.core.bufs := rfl
@[simp] theorem State.afterFlags_core_builder (s : State) (d : Reg) (v : Word) (f : BitVec 7) : (s.afterFlags d v f).core.builder = s.core.builder := rfl
@[simp] theorem State.afterFlags_core_streams (s : State) (d : Reg) (v : Word) (f : BitVec 7) : (s.afterFlags d v f).core.streams = s.core.streams := rfl
@[simp] theorem State.afterFlags_core_inbox (s : State) (d : Reg) (v : Word) (f : BitVec 7) : (s.afterFlags d v f).core.inbox = s.core.inbox := rfl
@[simp] theorem State.afterFlags_core_msgsOut (s : State) (d : Reg) (v : Word) (f : BitVec 7) : (s.afterFlags d v f).core.msgsOut = s.core.msgsOut := rfl
@[simp] theorem State.afterFlags_core_windows (s : State) (d : Reg) (v : Word) (f : BitVec 7) : (s.afterFlags d v f).core.windows = s.core.windows := rfl
@[simp] theorem State.afterFlags_core_directOut (s : State) (d : Reg) (v : Word) (f : BitVec 7) : (s.afterFlags d v f).core.directOut = s.core.directOut := rfl
@[simp] theorem State.afterFlags_core_directDen (s : State) (d : Reg) (v : Word) (f : BitVec 7) : (s.afterFlags d v f).core.directDen = s.core.directDen := rfl
@[simp] theorem State.afterFlags_core_effects (s : State) (d : Reg) (v : Word) (f : BitVec 7) : (s.afterFlags d v f).core.effects = s.core.effects := rfl
@[simp] theorem State.afterFlags_core_fences (s : State) (d : Reg) (v : Word) (f : BitVec 7) : (s.afterFlags d v f).core.fences = s.core.fences := rfl
@[simp] theorem State.afterFlags_core_flags (s : State) (d : Reg) (v : Word) (f : BitVec 7) : (s.afterFlags d v f).core.flags = s.core.flags := rfl
@[simp] theorem State.afterFlags_core_aside (s : State) (d : Reg) (v : Word) (f : BitVec 7) : (s.afterFlags d v f).core.aside = s.core.aside := rfl
@[simp] theorem State.afterFlags_core_saving (s : State) (d : Reg) (v : Word) (f : BitVec 7) : (s.afterFlags d v f).core.saving = s.core.saving := rfl
@[simp] theorem State.afterFlags_core_savingAt (s : State) (d : Reg) (v : Word) (f : BitVec 7) : (s.afterFlags d v f).core.savingAt = s.core.savingAt := rfl
@[simp] theorem State.afterFlags_core_restored (s : State) (d : Reg) (v : Word) (f : BitVec 7) : (s.afterFlags d v f).core.restored = s.core.restored := rfl
@[simp] theorem State.afterFlags_core_sched (s : State) (d : Reg) (v : Word) (f : BitVec 7) : (s.afterFlags d v f).core.sched = s.core.sched := rfl
@[simp] theorem State.afterFlags_core_early (s : State) (d : Reg) (v : Word) (f : BitVec 7) : (s.afterFlags d v f).core.early = s.core.early := rfl
@[simp] theorem State.afterFlags_core_stale (s : State) (d : Reg) (v : Word) (f : BitVec 7) : (s.afterFlags d v f).core.stale = s.core.stale := rfl
@[simp] theorem State.afterFlags_core_vec (s : State) (d : Reg) (v : Word) (f : BitVec 7) : (s.afterFlags d v f).core.vec = s.core.vec := rfl

/-! ## What they set -/

@[simp] theorem State.advance_core_pc (s : State) : s.advance.core.pc = s.core.pc + 8 := rfl
@[simp] theorem State.goto_core_pc (s : State) (p : BitVec 32) : (s.goto p).core.pc = p := rfl
@[simp] theorem State.settled_core_stall (s : State) : s.settled.core.stall = none := rfl
@[simp] theorem State.settled_core_issued (s : State) : s.settled.core.issued = none := rfl
@[simp] theorem State.stalled_core_stall (s : State) (w : Wait) : (s.stalled w).core.stall = some w := rfl
@[simp] theorem State.sticky_fpstat (s : State) (f : Sticky) : (s.sticky f).core.cr.fpstat = s.core.cr.fpstat ||| f := rfl
theorem State.wr_core_regs (s : State) (d : Reg) (v : Word) : (s.wr d v).core.regs = s.core.regsWith d v := by
  unfold State.wr Core.wr Core.regsWith; split <;> rfl
/-- Writing s0 does nothing (R55, R137). -/
@[simp] theorem State.wr_zero (s : State) (v : Word) : s.wr 0 v = s := rfl
/-- s0 reads zero (R55, R137). -/
@[simp] theorem State.rd_zero (s : State) : s.rd 0 = 0 := rfl
/-- A register reads what was written to it, unless it is s0. -/
theorem State.rd_wr_same (s : State) (d : Reg) (v : Word) (h : d ≠ 0) : (s.wr d v).rd d = v := by
  unfold State.rd Core.rd State.wr Core.wr; rw [if_neg h, if_neg h]; simp
/-- A write leaves the other registers alone. -/
theorem State.rd_wr_other (s : State) (d r : Reg) (v : Word) (h : r ≠ d) : (s.wr d v).rd r = s.rd r := by
  have hn : d.toNat ≠ r.toNat := fun e => h (BitVec.eq_of_toNat_eq e).symm
  unfold State.rd Core.rd State.wr Core.wr; split
  · rfl
  · split
    · rfl
    · exact Vector.getElem_set_ne d.isLt r.isLt hn

end Sys2Proof.Machine
end

