-- ==== Sys2Proof/Laws/Ends.lean ====
section
/-! SUPPORT. How an instruction ends, said once: the shared endings of Ops.lean and Fences.lean against the states of Safety.lean. -/

namespace Sys2Proof.Machine

theorem State.wr_advance (s : State) (d : Reg) (v : Word) : ((s.wr d v).advance).settled = s.afterWrite d v := by
  unfold State.wr Core.wr State.afterWrite Core.regsWith; split <;> rfl
theorem State.wr_sticky_advance (s : State) (d : Reg) (v : Word) (f : Sticky) :
    (((s.wr d v).sticky f).advance).settled = s.afterFlags d v f := by
  unfold State.wr Core.wr State.afterFlags Core.regsWith; split <;> rfl
theorem State.wr_goto (s : State) (d : Reg) (v : Word) (p : BitVec 32) : ((s.wr d v).goto p).settled = s.afterJump d v p := by
  unfold State.wr Core.wr State.afterJump Core.regsWith; split <;> rfl
theorem State.advance_settled (s : State) : s.advance.settled = s.afterNext := rfl

/-- `wrote` writes one register and goes on. -/
theorem wrote_eq (s : State) (d : Reg) (v : Word) : wrote s d v = .next (s.afterWrite d v) := by rw [wrote, State.wr_advance]
/-- `wroteSticky` also ORs sticky bits in. -/
theorem wroteSticky_eq (s : State) (d : Reg) (v : Word) (f : Sticky) : wroteSticky s d v f = .next (s.afterFlags d v f) := by
  rw [wroteSticky, State.wr_sticky_advance]
/-- `passed` goes on. -/
theorem passed_eq (s : State) : passed s = .next s.afterNext := rfl
/-- `afterWrite` of two values that agree. -/
theorem next_afterWrite {s : State} {d : Reg} {v w : Word} (h : v = w) : (Host.Outcome.next (s.afterWrite d v) : Out) = .next (s.afterWrite d w) := by
  rw [h]

/-! ## Checks -/

@[simp] theorem faultIf_true (c : Cause) : faultIf true c = .fault { cause := c } := rfl
@[simp] theorem faultIf_false (c : Cause) : faultIf false c = .ok () := rfl
@[simp] theorem faultAt_true (c : Cause) (a : Word) : faultAt true c a = .fault { cause := c, addr := some a } := rfl
@[simp] theorem faultAt_false (c : Cause) (a : Word) : faultAt false c a = .ok () := rfl
@[simp] theorem stallIf_true (w : Wait) : stallIf true w = .stall w := rfl
@[simp] theorem stallIf_false (w : Wait) : stallIf false w = .ok () := rfl
@[simp] theorem Res.ok_bind {α β : Type} (a : α) (f : α → Res β) : (Res.ok a).bind f = f a := rfl
@[simp] theorem Res.fault_bind {α β : Type} (x : FaultInfo) (f : α → Res β) : (Res.fault x : Res α).bind f = .fault x := rfl
@[simp] theorem Res.stall_bind {α β : Type} (w : Wait) (f : α → Res β) : (Res.stall w : Res α).bind f = .stall w := rfl
/-- With a context loaded the check of R438 passes. -/
theorem needCtx_ok {s : State} (h : s.core.status.cv = true) : needCtx s = .ok () := by unfold needCtx; rw [h]; rfl
/-- Without one it is PRIV. -/
theorem needCtx_none {s : State} (h : s.core.status.cv = false) : needCtx s = .fault { cause := .priv } := by unfold needCtx; rw [h]; rfl
/-- In S mode the privilege check passes. -/
theorem needS_ok {s : State} (h : s.core.status.mode = true) : needS s = .ok () := by unfold needS Core.sMode; rw [h]; rfl
/-- In U mode it is PRIV. -/
theorem needS_user {s : State} (h : s.core.status.mode = false) : needS s = .fault { cause := .priv } := by unfold needS Core.sMode; rw [h]; rfl

@[simp] theorem ends_ok (s t : State) : ends s (.ok t) = .next t.settled := rfl
@[simp] theorem ends_fault (s : State) (f : FaultInfo) : ends s (.fault f) = .next (s.takeFault f) := rfl
@[simp] theorem ends_stall (s : State) (w : Wait) : ends s (.stall w) = .next (s.stalled w) := rfl
/-- `ends` always answers a next state. -/
theorem ends_next (s : State) (r : Res State) : ∃ t, ends s r = .next t := by cases r <;> exact ⟨_, rfl⟩
/-- With no release wait, or none outstanding, `endsAfter` is `ends`. -/
theorem endsAfter_ends {s : State} {rel : Bool} {mask : BitVec 16} {scope : Nat} {r : Res State}
    (h : (rel && outstanding s (fenceSet s mask scope)) = false) : endsAfter s (.ok ()) rel mask scope r = ends s r := by
  unfold endsAfter; simp [h]

end Sys2Proof.Machine
end

