-- ==== Sys2Proof/Laws/Lens.lean ====
section
/-! SUPPORT. What the reads and updates of cores and clusters do, and what taking an exception does. -/

namespace Sys2Proof.Machine

/-- An update of the acting core is an update of `State.core`. -/
theorem updCore_self (s : State) (f : Core → Core) : s.updCore s.core.id f = { s with core := f s.core } := by
  unfold State.updCore; simp
/-- The acting core is read from `State.core`. -/
theorem coreAt_self (s : State) : s.coreAt s.core.id = s.core := by
  unfold State.coreAt; simp
/-- An update of a cluster leaves the acting core. -/
theorem updCluster_core (s : State) (d c : Nat) (f : Cluster → Cluster) : (s.updCluster d c f).core = s.core := by
  unfold State.updCluster
  split <;> try rfl
  split <;> rfl
/-- An update of a cluster changes the clusters alone. -/
theorem updCluster_frame (s : State) (d c : Nat) (f : Cluster → Cluster) :
    { s.updCluster d c f with core := s.core, cluster := s.cluster, parkedClusters := s.parkedClusters } = s := by
  unfold State.updCluster
  split
  · rfl
  · split <;> rfl
/-- A cluster reads as what its update left. -/
theorem clusterAt_updCluster (s : State) (d c : Nat) (f : Cluster → Cluster) (hf : ∀ k, (f k).die = k.die ∧ (f k).clu = k.clu) :
    (s.updCluster d c f).clusterAt d c = f (s.clusterAt d c) := by
  unfold State.updCluster State.clusterAt
  by_cases h : s.cluster.die = d ∧ s.cluster.clu = c
  · simp only [if_pos h]; simp [hf, h]
  · simp only [if_neg h]
    by_cases h2 : s.parkedClusters.any (fun k => k.die = d && k.clu = c) = true
    · rw [if_pos h2]
      simp only [if_neg h]
      generalize s.parkedClusters = l at *
      induction l with
      | nil => simp at h2
      | cons a l ih =>
        simp only [mapWhere, List.map_cons, List.find?_cons]
        by_cases ha : (decide (a.die = d) && decide (a.clu = c)) = true
        · simp only [ha, hf, ↓reduceIte, Option.getD_some]
        · simp only [List.any_cons, ha] at h2
          simp only [ha]
          simpa [mapWhere, ha] using ih (by simpa [ha] using h2)
    · rw [if_neg h2]
      simp only [if_neg h]
      have : s.parkedClusters.find? (fun k => decide (k.die = d) && decide (k.clu = c)) = none := by simpa using h2
      simp only [this, List.find?_cons]
      simp [hf, Cluster.reset]

/-! ## Taking an exception (R377, R381) -/

/-- Under a RETRY policy with counts left, outside a handler and with a handler installed, a fault enters the handler. -/
theorem takeFault_retry (s : State) (f : FaultInfo) (htd : s.core.status.td = false) (hp : s.core.cr.corePolicy = 1) (hv : s.core.cr.tvec ≠ 0)
    (hn : s.core.cr.coreCount ≠ 0) :
    let c := Core.spend { s.core with stall := none, issued := none }
    s.takeFault f = { s with core := c.trapEntry s.core.pc (causeWord false false 0 f.idx f.tcode f.cause) (f.addr.getD s.core.at_) f.info } := by
  intro c
  unfold State.takeFault
  simp only [htd, hp, if_neg hv, if_neg hn]
  rfl
/-- Under an ignoring policy, outside a handler, a fault passes the instruction over. -/
theorem takeFault_pass (s : State) (f : FaultInfo) (htd : s.core.status.td = false) (hp : s.core.cr.corePolicy = 0) :
    s.takeFault f = s.afterNext := by
  unfold State.takeFault
  simp only [htd, hp]
  rfl
/-- In a handler a fault goes to the job level. -/
theorem takeFault_handler (s : State) (f : FaultInfo) (htd : s.core.status.td = true) :
    s.takeFault f = State.offerJobHere { s with core := { s.core with stall := none, issued := none } } f.cause := by
  unfold State.takeFault
  simp only [htd, ↓reduceIte]
/-- Taking an exception saves the mode and the interrupt enable, and leaves the registers. -/
theorem trapEntry_saves (c : Core) (epc : BitVec 32) (cause addr info : Word) :
    let k := c.trapEntry epc cause addr info
    k.status.pm = c.status.mode ∧ k.status.pie = c.status.ie ∧ k.status.ie = false ∧ k.status.td = true ∧ k.status.mode = true ∧
    k.cr.epc = epc.setWidth 64 ∧ k.cr.cause = cause ∧ k.cr.faddr = addr ∧ k.cr.finfo = info ∧ k.pc = c.cr.tvec.setWidth 32 ∧
    k.regs = c.regs ∧ k.spad = c.spad ∧ k.bufs = c.bufs ∧ k.streams = c.streams ∧ k.flags = c.flags := by
  refine ⟨rfl, rfl, rfl, rfl, rfl, rfl, rfl, rfl, rfl, rfl, rfl, rfl, rfl, rfl, rfl⟩

end Sys2Proof.Machine
end

