-- ==== Sys2Proof/Laws/Memory.lean ====
section
/-! SUPPORT. Every memory operation keeps the canonical form of the stores it writes, and the stores after reset have it. -/

namespace Sys2Proof.Machine

theorem memWf_iff (s : State) : s.memWf = true ↔ s.core.memWf = true ∧ (∀ c ∈ s.parked, c.memWf = true) ∧ s.cluster.memWf = true ∧
    (∀ k ∈ s.parkedClusters, k.memWf = true) ∧ (∀ j ∈ s.modul.jobs, j.memWf = true) ∧ cwf s.modul.hbm = true ∧
    cwf s.modul.hbmKey = true ∧ cwf s.modul.hbmPoison = true ∧ cwf s.host.mem = true ∧ cwf s.host.readPoison = true ∧ cwf s.host.epMarks = true := by
  simp [State.memWf, and_assoc]

/-- A fold of operations that each keep a property keeps it. -/
theorem foldl_keeps {α β : Type} (p : β → Prop) (f : β → α → β) (h : ∀ b a, p b → p (f b a)) : ∀ (l : List α) (b : β), p b → p (l.foldl f b)
  | [], _, hb => hb
  | a :: l, b, hb => foldl_keeps p f h l (f b a) (h b a hb)

theorem marksAfter_wf (marks : Cells 1) (ws : List (Nat × Byte)) (bad : Nat → Bool) (h : cwf marks = true) : cwf (marksAfter marks ws bad) = true := by
  refine foldl_keeps (fun m => cwf m = true) _ (fun m u hm => ?_) _ _ h
  split
  · exact cset_wf _ _ _ hm
  · split
    · exact cset_wf _ _ _ hm
    · exact hm

theorem taskWrite_wf (c : Core) (ws : List (Nat × Byte)) (bad : Nat → Bool) (h : cwf c.spad = true ∧ cwf c.poison = true) :
    cwf (c.taskWrite ws bad).spad = true ∧ cwf (c.taskWrite ws bad).poison = true :=
  ⟨csetList_wf _ _ h.1, marksAfter_wf _ _ _ h.2⟩

/-- The three stores of HBM: bytes, keys, marks. -/
def Modul.hbmWf (m : Modul) : Prop := cwf m.hbm = true ∧ cwf m.hbmKey = true ∧ cwf m.hbmPoison = true

theorem hbmWriteUnit_wf (m : Modul) (key u : Nat) (ws : List (Nat × Byte)) (bad : Bool) (h : m.hbmWf) : (hbmWriteUnit m key u ws bad).hbmWf := by
  unfold hbmWriteUnit
  dsimp only
  split
  · exact h
  · split
    · exact ⟨csetList_wf _ _ h.1, h.2.1, cset_wf _ _ _ h.2.2⟩
    · exact ⟨csetList_wf _ _ (csetRange_wf _ _ _ _ h.1), cset_wf _ _ _ h.2.1, cset_wf _ _ _ h.2.2⟩

theorem hbmWrite_wf (m : Modul) (d : Die) (ctx : Nat) (ws : List (Nat × Byte)) (bad : Nat → Bool) (h : m.hbmWf) : (hbmWrite m d ctx ws bad).hbmWf :=
  foldl_keeps _ _ (fun _ _ hm => hbmWriteUnit_wf _ _ _ _ _ hm) _ _ h

/-- A posted write leaves host memory; the port sends it later. -/
theorem hostWrite_mem (s : State) (fn : Nat) (ws : List (Nat × Byte)) : (s.hostWrite fn ws).host.mem = s.host.mem := rfl
theorem send_wf (h : HostPort) (w : PostedWrite) (hm : cwf h.mem = true ∧ cwf h.epMarks = true) :
    cwf (h.send w).mem = true ∧ cwf (h.send w).epMarks = true := ⟨csetList_wf _ _ hm.1, marksAfter_wf _ _ _ hm.2⟩
theorem packetWrite_wf (c : Core) (own : Bool) (ws : List (Nat × Byte)) (bad : Nat → Bool) (h : cwf c.spad = true ∧ cwf c.poison = true) :
    cwf (c.packetWrite own ws bad).spad = true ∧ cwf (c.packetWrite own ws bad).poison = true := ⟨csetList_wf _ _ h.1, marksAfter_wf _ _ _ h.2⟩
theorem hostReadDone_wf (s : State) (fn iova n : Nat) (h : cwf s.host.readPoison = true) : cwf (s.hostReadDone fn iova n).host.readPoison = true := by
  have := csetRange_wf s.host.readPoison (hostKey fn iova / 64) ((hostKey fn iova + n - 1) / 64 - hostKey fn iova / 64 + 1) (fun _ => 0) h
  exact this

/-- A posted write changes the port's queue and the counter of uids alone. -/
theorem hostWrite_frame (s : State) (fn : Nat) (ws : List (Nat × Byte)) :
    { s.hostWrite fn ws with host := s.host, modul := s.modul } = s := rfl

theorem reset_memWf : State.reset.memWf = true := by
  decide +kernel

end Sys2Proof.Machine
end

