-- ==== Sys2Proof/Laws/Operands.lean ====
section
/-! SUPPORT. What an instruction's operand bits hold: every field of every operand form is read back from where it was put (R47, R52, R53, R55–R57). -/

namespace Sys2Proof

/-- A field read from a word is the value whose bits stand there. -/
theorem field_eq {n l s : Nat} {x : BitVec n} {v : BitVec l} (h : ∀ j, j < l → x.getLsbD (s + j) = v.getLsbD j) : x.extractLsb' s l = v := by
  apply BitVec.eq_of_getLsbD_eq
  intro j hj
  simp [BitVec.getLsbD_extractLsb', hj, h j hj]

theorem OpRRR.unpack_pack (o : OpRRR) : OpRRR.unpack (o.pack) = o := by
  obtain ⟨xd, xa, xb⟩ := o
  have h (k : Nat) : (OpRRR.pack ⟨xd, xa, xb⟩).getLsbD k = @BitVec.getLsbD (6+6+6+22) (xd ++ xa ++ xb ++ 0#22) k := rfl
  simp only [BitVec.getLsbD_append] at h
  simp only [OpRRR.unpack, OpRRR.mk.injEq]
  refine ⟨?_, ?_, ?_⟩
  · refine field_eq fun j hj => ?_
    simp (disch := omega) only [h, if_pos, if_neg, Nat.sub_sub]; try simp
  · refine field_eq fun j hj => ?_
    simp (disch := omega) only [h, if_pos, if_neg, Nat.sub_sub]; try simp
  · refine field_eq fun j hj => ?_
    simp (disch := omega) only [h, if_pos, if_neg, Nat.sub_sub]; try simp

theorem OpRRI.unpack_pack (o : OpRRI) : OpRRI.unpack (o.pack) = o := by
  obtain ⟨xd, xa, ximm⟩ := o
  have h (k : Nat) : (OpRRI.pack ⟨xd, xa, ximm⟩).getLsbD k = @BitVec.getLsbD (6+6+28) (xd ++ xa ++ ximm) k := rfl
  simp only [BitVec.getLsbD_append] at h
  simp only [OpRRI.unpack, OpRRI.mk.injEq]
  refine ⟨?_, ?_, ?_⟩
  · refine field_eq fun j hj => ?_
    simp (disch := omega) only [h, if_pos, if_neg, Nat.sub_sub]; try simp
  · refine field_eq fun j hj => ?_
    simp (disch := omega) only [h, if_pos, if_neg, Nat.sub_sub]; try simp
  · refine field_eq fun j hj => ?_
    simp (disch := omega) only [h, if_pos, if_neg, Nat.sub_sub]; try simp

theorem OpShift.unpack_pack (o : OpShift) : OpShift.unpack (o.pack) = o := by
  obtain ⟨xd, xa, xsh⟩ := o
  have h (k : Nat) : (OpShift.pack ⟨xd, xa, xsh⟩).getLsbD k = @BitVec.getLsbD (6+6+22+6) (xd ++ xa ++ 0#22 ++ xsh) k := rfl
  simp only [BitVec.getLsbD_append] at h
  simp only [OpShift.unpack, OpShift.mk.injEq]
  refine ⟨?_, ?_, ?_⟩
  · refine field_eq fun j hj => ?_
    simp (disch := omega) only [h, if_pos, if_neg, Nat.sub_sub]; try simp
  · refine field_eq fun j hj => ?_
    simp (disch := omega) only [h, if_pos, if_neg, Nat.sub_sub]; try simp
  · refine field_eq fun j hj => ?_
    simp (disch := omega) only [h, if_pos, if_neg, Nat.sub_sub]; try simp

theorem OpRI.unpack_pack (o : OpRI) : OpRI.unpack (o.pack) = o := by
  obtain ⟨xd, ximm⟩ := o
  have h (k : Nat) : (OpRI.pack ⟨xd, ximm⟩).getLsbD k = @BitVec.getLsbD (6+34) (xd ++ ximm) k := rfl
  simp only [BitVec.getLsbD_append] at h
  simp only [OpRI.unpack, OpRI.mk.injEq]
  refine ⟨?_, ?_⟩
  · refine field_eq fun j hj => ?_
    simp (disch := omega) only [h, if_pos, if_neg, Nat.sub_sub]; try simp
  · refine field_eq fun j hj => ?_
    simp (disch := omega) only [h, if_pos, if_neg, Nat.sub_sub]; try simp

theorem OpLih.unpack_pack (o : OpLih) : OpLih.unpack (o.pack) = o := by
  obtain ⟨xd, ximm⟩ := o
  have h (k : Nat) : (OpLih.pack ⟨xd, ximm⟩).getLsbD k = @BitVec.getLsbD (6+4+30) (xd ++ 0#4 ++ ximm) k := rfl
  simp only [BitVec.getLsbD_append] at h
  simp only [OpLih.unpack, OpLih.mk.injEq]
  refine ⟨?_, ?_⟩
  · refine field_eq fun j hj => ?_
    simp (disch := omega) only [h, if_pos, if_neg, Nat.sub_sub]; try simp
  · refine field_eq fun j hj => ?_
    simp (disch := omega) only [h, if_pos, if_neg, Nat.sub_sub]; try simp

theorem OpBits.unpack_pack (o : OpBits) : OpBits.unpack (o.pack) = o := by
  obtain ⟨xd, xa, xpos, xlenM1⟩ := o
  have h (k : Nat) : (OpBits.pack ⟨xd, xa, xpos, xlenM1⟩).getLsbD k = @BitVec.getLsbD (6+6+16+6+6) (xd ++ xa ++ 0#16 ++ xlenM1 ++ xpos) k := rfl
  simp only [BitVec.getLsbD_append] at h
  simp only [OpBits.unpack, OpBits.mk.injEq]
  refine ⟨?_, ?_, ?_, ?_⟩
  · refine field_eq fun j hj => ?_
    simp (disch := omega) only [h, if_pos, if_neg, Nat.sub_sub]; try simp
  · refine field_eq fun j hj => ?_
    simp (disch := omega) only [h, if_pos, if_neg, Nat.sub_sub]; try simp
  · refine field_eq fun j hj => ?_
    simp (disch := omega) only [h, if_pos, if_neg, Nat.sub_sub]; try simp
  · refine field_eq fun j hj => ?_
    simp (disch := omega) only [h, if_pos, if_neg, Nat.sub_sub]; try simp

theorem OpRR.unpack_pack (o : OpRR) : OpRR.unpack (o.pack) = o := by
  obtain ⟨xd, xa⟩ := o
  have h (k : Nat) : (OpRR.pack ⟨xd, xa⟩).getLsbD k = @BitVec.getLsbD (6+6+28) (xd ++ xa ++ 0#28) k := rfl
  simp only [BitVec.getLsbD_append] at h
  simp only [OpRR.unpack, OpRR.mk.injEq]
  refine ⟨?_, ?_⟩
  · refine field_eq fun j hj => ?_
    simp (disch := omega) only [h, if_pos, if_neg, Nat.sub_sub]; try simp
  · refine field_eq fun j hj => ?_
    simp (disch := omega) only [h, if_pos, if_neg, Nat.sub_sub]; try simp

theorem OpD.unpack_pack (o : OpD) : OpD.unpack (o.pack) = o := by
  obtain ⟨xd⟩ := o
  have h (k : Nat) : (OpD.pack ⟨xd⟩).getLsbD k = @BitVec.getLsbD (6+34) (xd ++ 0#34) k := rfl
  simp only [BitVec.getLsbD_append] at h
  simp only [OpD.unpack, OpD.mk.injEq]
  · refine field_eq fun j hj => ?_
    simp (disch := omega) only [h, if_pos, if_neg, Nat.sub_sub]; try simp

theorem OpA.unpack_pack (o : OpA) : OpA.unpack (o.pack) = o := by
  obtain ⟨xa⟩ := o
  have h (k : Nat) : (OpA.pack ⟨xa⟩).getLsbD k = @BitVec.getLsbD (6+6+28) (0#6 ++ xa ++ 0#28) k := rfl
  simp only [BitVec.getLsbD_append] at h
  simp only [OpA.unpack, OpA.mk.injEq]
  · refine field_eq fun j hj => ?_
    simp (disch := omega) only [h, if_pos, if_neg, Nat.sub_sub]; try simp

theorem OpSel.unpack_pack (o : OpSel) : OpSel.unpack (o.pack) = o := by
  obtain ⟨xd, xa, xb, xc⟩ := o
  have h (k : Nat) : (OpSel.pack ⟨xd, xa, xb, xc⟩).getLsbD k = @BitVec.getLsbD (6+6+6+16+6) (xd ++ xa ++ xb ++ 0#16 ++ xc) k := rfl
  simp only [BitVec.getLsbD_append] at h
  simp only [OpSel.unpack, OpSel.mk.injEq]
  refine ⟨?_, ?_, ?_, ?_⟩
  · refine field_eq fun j hj => ?_
    simp (disch := omega) only [h, if_pos, if_neg, Nat.sub_sub]; try simp
  · refine field_eq fun j hj => ?_
    simp (disch := omega) only [h, if_pos, if_neg, Nat.sub_sub]; try simp
  · refine field_eq fun j hj => ?_
    simp (disch := omega) only [h, if_pos, if_neg, Nat.sub_sub]; try simp
  · refine field_eq fun j hj => ?_
    simp (disch := omega) only [h, if_pos, if_neg, Nat.sub_sub]; try simp

theorem OpLea.unpack_pack (o : OpLea) : OpLea.unpack (o.pack) = o := by
  obtain ⟨xd, xa, xb, xsh, xoff⟩ := o
  have h (k : Nat) : (OpLea.pack ⟨xd, xa, xb, xsh, xoff⟩).getLsbD k = @BitVec.getLsbD (6+6+6+4+18) (xd ++ xa ++ xb ++ xsh ++ xoff) k := rfl
  simp only [BitVec.getLsbD_append] at h
  simp only [OpLea.unpack, OpLea.mk.injEq]
  refine ⟨?_, ?_, ?_, ?_, ?_⟩
  · refine field_eq fun j hj => ?_
    simp (disch := omega) only [h, if_pos, if_neg, Nat.sub_sub]; try simp
  · refine field_eq fun j hj => ?_
    simp (disch := omega) only [h, if_pos, if_neg, Nat.sub_sub]; try simp
  · refine field_eq fun j hj => ?_
    simp (disch := omega) only [h, if_pos, if_neg, Nat.sub_sub]; try simp
  · refine field_eq fun j hj => ?_
    simp (disch := omega) only [h, if_pos, if_neg, Nat.sub_sub]; try simp
  · refine field_eq fun j hj => ?_
    simp (disch := omega) only [h, if_pos, if_neg, Nat.sub_sub]; try simp

theorem OpF3.unpack_pack (o : OpF3) : OpF3.unpack (o.pack) = o := by
  obtain ⟨xd, xa, xb, xrm⟩ := o
  have h (k : Nat) : (OpF3.pack ⟨xd, xa, xb, xrm⟩).getLsbD k = @BitVec.getLsbD (6+6+6+1+3+18) (xd ++ xa ++ xb ++ 0#1 ++ xrm ++ 0#18) k := rfl
  simp only [BitVec.getLsbD_append] at h
  simp only [OpF3.unpack, OpF3.mk.injEq]
  refine ⟨?_, ?_, ?_, ?_⟩
  · refine field_eq fun j hj => ?_
    simp (disch := omega) only [h, if_pos, if_neg, Nat.sub_sub]; try simp
  · refine field_eq fun j hj => ?_
    simp (disch := omega) only [h, if_pos, if_neg, Nat.sub_sub]; try simp
  · refine field_eq fun j hj => ?_
    simp (disch := omega) only [h, if_pos, if_neg, Nat.sub_sub]; try simp
  · refine field_eq fun j hj => ?_
    simp (disch := omega) only [h, if_pos, if_neg, Nat.sub_sub]; try simp

theorem OpF2.unpack_pack (o : OpF2) : OpF2.unpack (o.pack) = o := by
  obtain ⟨xd, xa, xrm⟩ := o
  have h (k : Nat) : (OpF2.pack ⟨xd, xa, xrm⟩).getLsbD k = @BitVec.getLsbD (6+6+7+3+18) (xd ++ xa ++ 0#7 ++ xrm ++ 0#18) k := rfl
  simp only [BitVec.getLsbD_append] at h
  simp only [OpF2.unpack, OpF2.mk.injEq]
  refine ⟨?_, ?_, ?_⟩
  · refine field_eq fun j hj => ?_
    simp (disch := omega) only [h, if_pos, if_neg, Nat.sub_sub]; try simp
  · refine field_eq fun j hj => ?_
    simp (disch := omega) only [h, if_pos, if_neg, Nat.sub_sub]; try simp
  · refine field_eq fun j hj => ?_
    simp (disch := omega) only [h, if_pos, if_neg, Nat.sub_sub]; try simp

theorem OpFma.unpack_pack (o : OpFma) : OpFma.unpack (o.pack) = o := by
  obtain ⟨xd, xa, xb, xc, xty, xrm⟩ := o
  have h (k : Nat) : (OpFma.pack ⟨xd, xa, xb, xc, xty, xrm⟩).getLsbD k = @BitVec.getLsbD (6+6+6+6+4+4+1+3+4) (xd ++ xa ++ xb ++ xc ++ 0#4 ++ xty ++ 0#1 ++ xrm ++ 0#4) k := rfl
  simp only [BitVec.getLsbD_append] at h
  simp only [OpFma.unpack, OpFma.mk.injEq]
  refine ⟨?_, ?_, ?_, ?_, ?_, ?_⟩
  · refine field_eq fun j hj => ?_
    simp (disch := omega) only [h, if_pos, if_neg, Nat.sub_sub]; try simp
  · refine field_eq fun j hj => ?_
    simp (disch := omega) only [h, if_pos, if_neg, Nat.sub_sub]; try simp
  · refine field_eq fun j hj => ?_
    simp (disch := omega) only [h, if_pos, if_neg, Nat.sub_sub]; try simp
  · refine field_eq fun j hj => ?_
    simp (disch := omega) only [h, if_pos, if_neg, Nat.sub_sub]; try simp
  · refine field_eq fun j hj => ?_
    simp (disch := omega) only [h, if_pos, if_neg, Nat.sub_sub]; try simp
  · refine field_eq fun j hj => ?_
    simp (disch := omega) only [h, if_pos, if_neg, Nat.sub_sub]; try simp

theorem OpCvt.unpack_pack (o : OpCvt) : OpCvt.unpack (o.pack) = o := by
  obtain ⟨xd, xa, xsat, xrm, xdst, xsrc⟩ := o
  have h (k : Nat) : (OpCvt.pack ⟨xd, xa, xsat, xrm, xdst, xsrc⟩).getLsbD k = @BitVec.getLsbD (6+6+6+1+3+10+4+4) (xd ++ xa ++ 0#6 ++ BitVec.ofBool xsat ++ xrm ++ 0#10 ++ xsrc ++ xdst) k := rfl
  simp only [BitVec.getLsbD_append] at h
  simp only [OpCvt.unpack, OpCvt.mk.injEq]
  refine ⟨?_, ?_, ?_, ?_, ?_, ?_⟩
  · refine field_eq fun j hj => ?_
    simp (disch := omega) only [h, if_pos, if_neg, Nat.sub_sub]; try simp
  · refine field_eq fun j hj => ?_
    simp (disch := omega) only [h, if_pos, if_neg, Nat.sub_sub]; try simp
  · rw [h]; simp
  · refine field_eq fun j hj => ?_
    simp (disch := omega) only [h, if_pos, if_neg, Nat.sub_sub]; try simp
  · refine field_eq fun j hj => ?_
    simp (disch := omega) only [h, if_pos, if_neg, Nat.sub_sub]; try simp
  · refine field_eq fun j hj => ?_
    simp (disch := omega) only [h, if_pos, if_neg, Nat.sub_sub]; try simp

theorem OpFCmp.unpack_pack (o : OpFCmp) : OpFCmp.unpack (o.pack) = o := by
  obtain ⟨xd, xa, xb, xty⟩ := o
  have h (k : Nat) : (OpFCmp.pack ⟨xd, xa, xb, xty⟩).getLsbD k = @BitVec.getLsbD (6+6+6+4+18) (xd ++ xa ++ xb ++ xty ++ 0#18) k := rfl
  simp only [BitVec.getLsbD_append] at h
  simp only [OpFCmp.unpack, OpFCmp.mk.injEq]
  refine ⟨?_, ?_, ?_, ?_⟩
  · refine field_eq fun j hj => ?_
    simp (disch := omega) only [h, if_pos, if_neg, Nat.sub_sub]; try simp
  · refine field_eq fun j hj => ?_
    simp (disch := omega) only [h, if_pos, if_neg, Nat.sub_sub]; try simp
  · refine field_eq fun j hj => ?_
    simp (disch := omega) only [h, if_pos, if_neg, Nat.sub_sub]; try simp
  · refine field_eq fun j hj => ?_
    simp (disch := omega) only [h, if_pos, if_neg, Nat.sub_sub]; try simp

theorem OpFCls.unpack_pack (o : OpFCls) : OpFCls.unpack (o.pack) = o := by
  obtain ⟨xd, xa, xty⟩ := o
  have h (k : Nat) : (OpFCls.pack ⟨xd, xa, xty⟩).getLsbD k = @BitVec.getLsbD (6+6+6+4+18) (xd ++ xa ++ 0#6 ++ xty ++ 0#18) k := rfl
  simp only [BitVec.getLsbD_append] at h
  simp only [OpFCls.unpack, OpFCls.mk.injEq]
  refine ⟨?_, ?_, ?_⟩
  · refine field_eq fun j hj => ?_
    simp (disch := omega) only [h, if_pos, if_neg, Nat.sub_sub]; try simp
  · refine field_eq fun j hj => ?_
    simp (disch := omega) only [h, if_pos, if_neg, Nat.sub_sub]; try simp
  · refine field_eq fun j hj => ?_
    simp (disch := omega) only [h, if_pos, if_neg, Nat.sub_sub]; try simp

theorem OpBr.unpack_pack (o : OpBr) : OpBr.unpack (o.pack) = o := by
  obtain ⟨xa, xb, xdisp⟩ := o
  have h (k : Nat) : (OpBr.pack ⟨xa, xb, xdisp⟩).getLsbD k = @BitVec.getLsbD (6+6+28) (xa ++ xb ++ xdisp) k := rfl
  simp only [BitVec.getLsbD_append] at h
  simp only [OpBr.unpack, OpBr.mk.injEq]
  refine ⟨?_, ?_, ?_⟩
  · refine field_eq fun j hj => ?_
    simp (disch := omega) only [h, if_pos, if_neg, Nat.sub_sub]; try simp
  · refine field_eq fun j hj => ?_
    simp (disch := omega) only [h, if_pos, if_neg, Nat.sub_sub]; try simp
  · refine field_eq fun j hj => ?_
    simp (disch := omega) only [h, if_pos, if_neg, Nat.sub_sub]; try simp

theorem OpJalr.unpack_pack (o : OpJalr) : OpJalr.unpack (o.pack) = o := by
  obtain ⟨xd, xa, xoff⟩ := o
  have h (k : Nat) : (OpJalr.pack ⟨xd, xa, xoff⟩).getLsbD k = @BitVec.getLsbD (6+6+10+18) (xd ++ xa ++ 0#10 ++ xoff) k := rfl
  simp only [BitVec.getLsbD_append] at h
  simp only [OpJalr.unpack, OpJalr.mk.injEq]
  refine ⟨?_, ?_, ?_⟩
  · refine field_eq fun j hj => ?_
    simp (disch := omega) only [h, if_pos, if_neg, Nat.sub_sub]; try simp
  · refine field_eq fun j hj => ?_
    simp (disch := omega) only [h, if_pos, if_neg, Nat.sub_sub]; try simp
  · refine field_eq fun j hj => ?_
    simp (disch := omega) only [h, if_pos, if_neg, Nat.sub_sub]; try simp

theorem OpMem.unpack_pack (o : OpMem) : OpMem.unpack (o.pack) = o := by
  obtain ⟨xd, xa, xcls, xsize, xsx, xoff⟩ := o
  have h (k : Nat) : (OpMem.pack ⟨xd, xa, xcls, xsize, xsx, xoff⟩).getLsbD k = @BitVec.getLsbD (6+6+4+2+1+21) (xd ++ xa ++ xcls ++ xsize ++ BitVec.ofBool xsx ++ xoff) k := rfl
  simp only [BitVec.getLsbD_append] at h
  simp only [OpMem.unpack, OpMem.mk.injEq]
  refine ⟨?_, ?_, ?_, ?_, ?_, ?_⟩
  · refine field_eq fun j hj => ?_
    simp (disch := omega) only [h, if_pos, if_neg, Nat.sub_sub]; try simp
  · refine field_eq fun j hj => ?_
    simp (disch := omega) only [h, if_pos, if_neg, Nat.sub_sub]; try simp
  · refine field_eq fun j hj => ?_
    simp (disch := omega) only [h, if_pos, if_neg, Nat.sub_sub]; try simp
  · refine field_eq fun j hj => ?_
    simp (disch := omega) only [h, if_pos, if_neg, Nat.sub_sub]; try simp
  · rw [h]; simp
  · refine field_eq fun j hj => ?_
    simp (disch := omega) only [h, if_pos, if_neg, Nat.sub_sub]; try simp

theorem OpQA.unpack_pack (o : OpQA) : OpQA.unpack (o.pack) = o := by
  obtain ⟨xq, xa⟩ := o
  have h (k : Nat) : (OpQA.pack ⟨xq, xa⟩).getLsbD k = @BitVec.getLsbD (6+6+25+3) (0#6 ++ xa ++ 0#25 ++ xq) k := rfl
  simp only [BitVec.getLsbD_append] at h
  simp only [OpQA.unpack, OpQA.mk.injEq]
  refine ⟨?_, ?_⟩
  · refine field_eq fun j hj => ?_
    simp (disch := omega) only [h, if_pos, if_neg, Nat.sub_sub]; try simp
  · refine field_eq fun j hj => ?_
    simp (disch := omega) only [h, if_pos, if_neg, Nat.sub_sub]; try simp

theorem OpQD.unpack_pack (o : OpQD) : OpQD.unpack (o.pack) = o := by
  obtain ⟨xd, xq⟩ := o
  have h (k : Nat) : (OpQD.pack ⟨xd, xq⟩).getLsbD k = @BitVec.getLsbD (6+31+3) (xd ++ 0#31 ++ xq) k := rfl
  simp only [BitVec.getLsbD_append] at h
  simp only [OpQD.unpack, OpQD.mk.injEq]
  refine ⟨?_, ?_⟩
  · refine field_eq fun j hj => ?_
    simp (disch := omega) only [h, if_pos, if_neg, Nat.sub_sub]; try simp
  · refine field_eq fun j hj => ?_
    simp (disch := omega) only [h, if_pos, if_neg, Nat.sub_sub]; try simp

theorem OpQBind.unpack_pack (o : OpQBind) : OpQBind.unpack (o.pack) = o := by
  obtain ⟨xq, xm⟩ := o
  have h (k : Nat) : (OpQBind.pack ⟨xq, xm⟩).getLsbD k = @BitVec.getLsbD (36+1+3) (0#36 ++ BitVec.ofBool xm ++ xq) k := rfl
  simp only [BitVec.getLsbD_append] at h
  simp only [OpQBind.unpack, OpQBind.mk.injEq]
  refine ⟨?_, ?_⟩
  · refine field_eq fun j hj => ?_
    simp (disch := omega) only [h, if_pos, if_neg, Nat.sub_sub]; try simp
  · rw [h]; simp

theorem OpFlagAdd.unpack_pack (o : OpFlagAdd) : OpFlagAdd.unpack (o.pack) = o := by
  obtain ⟨xa, xcls, xf, xcore, xt, xrel⟩ := o
  have h (k : Nat) : (OpFlagAdd.pack ⟨xa, xcls, xf, xcore, xt, xrel⟩).getLsbD k = @BitVec.getLsbD (6+6+6+4+8+1+1+2+6) (0#6 ++ xa ++ 0#6 ++ xcls ++ 0#8 ++ BitVec.ofBool xrel ++ BitVec.ofBool xt ++ xcore ++ xf) k := rfl
  simp only [BitVec.getLsbD_append] at h
  simp only [OpFlagAdd.unpack, OpFlagAdd.mk.injEq]
  refine ⟨?_, ?_, ?_, ?_, ?_, ?_⟩
  · refine field_eq fun j hj => ?_
    simp (disch := omega) only [h, if_pos, if_neg, Nat.sub_sub]; try simp
  · refine field_eq fun j hj => ?_
    simp (disch := omega) only [h, if_pos, if_neg, Nat.sub_sub]; try simp
  · refine field_eq fun j hj => ?_
    simp (disch := omega) only [h, if_pos, if_neg, Nat.sub_sub]; try simp
  · refine field_eq fun j hj => ?_
    simp (disch := omega) only [h, if_pos, if_neg, Nat.sub_sub]; try simp
  · rw [h]; simp
  · rw [h]; simp

theorem OpFlagWait.unpack_pack (o : OpFlagWait) : OpFlagWait.unpack (o.pack) = o := by
  obtain ⟨xd, xb, xf, xacq⟩ := o
  have h (k : Nat) : (OpFlagWait.pack ⟨xd, xb, xf, xacq⟩).getLsbD k = @BitVec.getLsbD (6+6+6+11+1+4+6) (xd ++ 0#6 ++ xb ++ 0#11 ++ BitVec.ofBool xacq ++ 0#4 ++ xf) k := rfl
  simp only [BitVec.getLsbD_append] at h
  simp only [OpFlagWait.unpack, OpFlagWait.mk.injEq]
  refine ⟨?_, ?_, ?_, ?_⟩
  · refine field_eq fun j hj => ?_
    simp (disch := omega) only [h, if_pos, if_neg, Nat.sub_sub]; try simp
  · refine field_eq fun j hj => ?_
    simp (disch := omega) only [h, if_pos, if_neg, Nat.sub_sub]; try simp
  · refine field_eq fun j hj => ?_
    simp (disch := omega) only [h, if_pos, if_neg, Nat.sub_sub]; try simp
  · rw [h]; simp

theorem OpFlagRd.unpack_pack (o : OpFlagRd) : OpFlagRd.unpack (o.pack) = o := by
  obtain ⟨xd, xf⟩ := o
  have h (k : Nat) : (OpFlagRd.pack ⟨xd, xf⟩).getLsbD k = @BitVec.getLsbD (6+28+6) (xd ++ 0#28 ++ xf) k := rfl
  simp only [BitVec.getLsbD_append] at h
  simp only [OpFlagRd.unpack, OpFlagRd.mk.injEq]
  refine ⟨?_, ?_⟩
  · refine field_eq fun j hj => ?_
    simp (disch := omega) only [h, if_pos, if_neg, Nat.sub_sub]; try simp
  · refine field_eq fun j hj => ?_
    simp (disch := omega) only [h, if_pos, if_neg, Nat.sub_sub]; try simp

theorem OpBarArrive.unpack_pack (o : OpBarArrive) : OpBarArrive.unpack (o.pack) = o := by
  obtain ⟨xd, xcls, xn, xrel⟩ := o
  have h (k : Nat) : (OpBarArrive.pack ⟨xd, xcls, xn, xrel⟩).getLsbD k = @BitVec.getLsbD (6+12+4+8+1+5+4) (xd ++ 0#12 ++ xcls ++ 0#8 ++ BitVec.ofBool xrel ++ 0#5 ++ xn) k := rfl
  simp only [BitVec.getLsbD_append] at h
  simp only [OpBarArrive.unpack, OpBarArrive.mk.injEq]
  refine ⟨?_, ?_, ?_, ?_⟩
  · refine field_eq fun j hj => ?_
    simp (disch := omega) only [h, if_pos, if_neg, Nat.sub_sub]; try simp
  · refine field_eq fun j hj => ?_
    simp (disch := omega) only [h, if_pos, if_neg, Nat.sub_sub]; try simp
  · refine field_eq fun j hj => ?_
    simp (disch := omega) only [h, if_pos, if_neg, Nat.sub_sub]; try simp
  · rw [h]; simp

theorem OpBarWait.unpack_pack (o : OpBarWait) : OpBarWait.unpack (o.pack) = o := by
  obtain ⟨xa, xn, xacq⟩ := o
  have h (k : Nat) : (OpBarWait.pack ⟨xa, xn, xacq⟩).getLsbD k = @BitVec.getLsbD (6+6+17+1+6+4) (0#6 ++ xa ++ 0#17 ++ BitVec.ofBool xacq ++ 0#6 ++ xn) k := rfl
  simp only [BitVec.getLsbD_append] at h
  simp only [OpBarWait.unpack, OpBarWait.mk.injEq]
  refine ⟨?_, ?_, ?_⟩
  · refine field_eq fun j hj => ?_
    simp (disch := omega) only [h, if_pos, if_neg, Nat.sub_sub]; try simp
  · refine field_eq fun j hj => ?_
    simp (disch := omega) only [h, if_pos, if_neg, Nat.sub_sub]; try simp
  · rw [h]; simp

theorem OpBarSync.unpack_pack (o : OpBarSync) : OpBarSync.unpack (o.pack) = o := by
  obtain ⟨xd, xcls, xn, xrel, xacq⟩ := o
  have h (k : Nat) : (OpBarSync.pack ⟨xd, xcls, xn, xrel, xacq⟩).getLsbD k = @BitVec.getLsbD (6+12+4+7+1+1+5+4) (xd ++ 0#12 ++ xcls ++ 0#7 ++ BitVec.ofBool xacq ++ BitVec.ofBool xrel ++ 0#5 ++ xn) k := rfl
  simp only [BitVec.getLsbD_append] at h
  simp only [OpBarSync.unpack, OpBarSync.mk.injEq]
  refine ⟨?_, ?_, ?_, ?_, ?_⟩
  · refine field_eq fun j hj => ?_
    simp (disch := omega) only [h, if_pos, if_neg, Nat.sub_sub]; try simp
  · refine field_eq fun j hj => ?_
    simp (disch := omega) only [h, if_pos, if_neg, Nat.sub_sub]; try simp
  · refine field_eq fun j hj => ?_
    simp (disch := omega) only [h, if_pos, if_neg, Nat.sub_sub]; try simp
  · rw [h]; simp
  · rw [h]; simp

theorem OpBarInit.unpack_pack (o : OpBarInit) : OpBarInit.unpack (o.pack) = o := by
  obtain ⟨xn, xcnt⟩ := o
  have h (k : Nat) : (OpBarInit.pack ⟨xn, xcnt⟩).getLsbD k = @BitVec.getLsbD (33+3+4) (0#33 ++ xcnt ++ xn) k := rfl
  simp only [BitVec.getLsbD_append] at h
  simp only [OpBarInit.unpack, OpBarInit.mk.injEq]
  refine ⟨?_, ?_⟩
  · refine field_eq fun j hj => ?_
    simp (disch := omega) only [h, if_pos, if_neg, Nat.sub_sub]; try simp
  · refine field_eq fun j hj => ?_
    simp (disch := omega) only [h, if_pos, if_neg, Nat.sub_sub]; try simp

theorem OpMsgSend.unpack_pack (o : OpMsgSend) : OpMsgSend.unpack (o.pack) = o := by
  obtain ⟨xa, xb, xcls⟩ := o
  have h (k : Nat) : (OpMsgSend.pack ⟨xa, xb, xcls⟩).getLsbD k = @BitVec.getLsbD (6+6+6+4+18) (0#6 ++ xa ++ xb ++ xcls ++ 0#18) k := rfl
  simp only [BitVec.getLsbD_append] at h
  simp only [OpMsgSend.unpack, OpMsgSend.mk.injEq]
  refine ⟨?_, ?_, ?_⟩
  · refine field_eq fun j hj => ?_
    simp (disch := omega) only [h, if_pos, if_neg, Nat.sub_sub]; try simp
  · refine field_eq fun j hj => ?_
    simp (disch := omega) only [h, if_pos, if_neg, Nat.sub_sub]; try simp
  · refine field_eq fun j hj => ?_
    simp (disch := omega) only [h, if_pos, if_neg, Nat.sub_sub]; try simp

theorem OpBufDecl.unpack_pack (o : OpBufDecl) : OpBufDecl.unpack (o.pack) = o := by
  obtain ⟨xa, xb, xvM1, xn⟩ := o
  have h (k : Nat) : (OpBufDecl.pack ⟨xa, xb, xvM1, xn⟩).getLsbD k = @BitVec.getLsbD (6+6+6+1+3+10+8) (0#6 ++ xa ++ xb ++ 0#1 ++ xvM1 ++ 0#10 ++ xn) k := rfl
  simp only [BitVec.getLsbD_append] at h
  simp only [OpBufDecl.unpack, OpBufDecl.mk.injEq]
  refine ⟨?_, ?_, ?_, ?_⟩
  · refine field_eq fun j hj => ?_
    simp (disch := omega) only [h, if_pos, if_neg, Nat.sub_sub]; try simp
  · refine field_eq fun j hj => ?_
    simp (disch := omega) only [h, if_pos, if_neg, Nat.sub_sub]; try simp
  · refine field_eq fun j hj => ?_
    simp (disch := omega) only [h, if_pos, if_neg, Nat.sub_sub]; try simp
  · refine field_eq fun j hj => ?_
    simp (disch := omega) only [h, if_pos, if_neg, Nat.sub_sub]; try simp

theorem OpBuf.unpack_pack (o : OpBuf) : OpBuf.unpack (o.pack) = o := by
  obtain ⟨xn⟩ := o
  have h (k : Nat) : (OpBuf.pack ⟨xn⟩).getLsbD k = @BitVec.getLsbD (32+8) (0#32 ++ xn) k := rfl
  simp only [BitVec.getLsbD_append] at h
  simp only [OpBuf.unpack, OpBuf.mk.injEq]
  · refine field_eq fun j hj => ?_
    simp (disch := omega) only [h, if_pos, if_neg, Nat.sub_sub]; try simp

theorem OpBufD.unpack_pack (o : OpBufD) : OpBufD.unpack (o.pack) = o := by
  obtain ⟨xd, xn⟩ := o
  have h (k : Nat) : (OpBufD.pack ⟨xd, xn⟩).getLsbD k = @BitVec.getLsbD (6+26+8) (xd ++ 0#26 ++ xn) k := rfl
  simp only [BitVec.getLsbD_append] at h
  simp only [OpBufD.unpack, OpBufD.mk.injEq]
  refine ⟨?_, ?_⟩
  · refine field_eq fun j hj => ?_
    simp (disch := omega) only [h, if_pos, if_neg, Nat.sub_sub]; try simp
  · refine field_eq fun j hj => ?_
    simp (disch := omega) only [h, if_pos, if_neg, Nat.sub_sub]; try simp

theorem OpTbIdx.unpack_pack (o : OpTbIdx) : OpTbIdx.unpack (o.pack) = o := by
  obtain ⟨xa, xi⟩ := o
  have h (k : Nat) : (OpTbIdx.pack ⟨xa, xi⟩).getLsbD k = @BitVec.getLsbD (6+6+25+3) (0#6 ++ xa ++ 0#25 ++ xi) k := rfl
  simp only [BitVec.getLsbD_append] at h
  simp only [OpTbIdx.unpack, OpTbIdx.mk.injEq]
  refine ⟨?_, ?_⟩
  · refine field_eq fun j hj => ?_
    simp (disch := omega) only [h, if_pos, if_neg, Nat.sub_sub]; try simp
  · refine field_eq fun j hj => ?_
    simp (disch := omega) only [h, if_pos, if_neg, Nat.sub_sub]; try simp

theorem OpTbFlag.unpack_pack (o : OpTbFlag) : OpTbFlag.unpack (o.pack) = o := by
  obtain ⟨xf, xfe⟩ := o
  have h (k : Nat) : (OpTbFlag.pack ⟨xf, xfe⟩).getLsbD k = @BitVec.getLsbD (33+1+6) (0#33 ++ BitVec.ofBool xfe ++ xf) k := rfl
  simp only [BitVec.getLsbD_append] at h
  simp only [OpTbFlag.unpack, OpTbFlag.mk.injEq]
  refine ⟨?_, ?_⟩
  · refine field_eq fun j hj => ?_
    simp (disch := omega) only [h, if_pos, if_neg, Nat.sub_sub]; try simp
  · rw [h]; simp

theorem OpTbPost.unpack_pack (o : OpTbPost) : OpTbPost.unpack (o.pack) = o := by
  obtain ⟨xd, xnb⟩ := o
  have h (k : Nat) : (OpTbPost.pack ⟨xd, xnb⟩).getLsbD k = @BitVec.getLsbD (6+12+1+21) (xd ++ 0#12 ++ BitVec.ofBool xnb ++ 0#21) k := rfl
  simp only [BitVec.getLsbD_append] at h
  simp only [OpTbPost.unpack, OpTbPost.mk.injEq]
  refine ⟨?_, ?_⟩
  · refine field_eq fun j hj => ?_
    simp (disch := omega) only [h, if_pos, if_neg, Nat.sub_sub]; try simp
  · rw [h]; simp

theorem OpCmd.unpack_pack (o : OpCmd) : OpCmd.unpack (o.pack) = o := by
  obtain ⟨xd, xa, xb, xnb, xfe, xpri, xcls, xflg⟩ := o
  have h (k : Nat) : (OpCmd.pack ⟨xd, xa, xb, xnb, xfe, xpri, xcls, xflg⟩).getLsbD k = @BitVec.getLsbD (6+6+6+1+1+2+4+6+8) (xd ++ xa ++ xb ++ BitVec.ofBool xnb ++ BitVec.ofBool xfe ++ xpri ++ xcls ++ xflg ++ 0#8) k := rfl
  simp only [BitVec.getLsbD_append] at h
  simp only [OpCmd.unpack, OpCmd.mk.injEq]
  refine ⟨?_, ?_, ?_, ?_, ?_, ?_, ?_, ?_⟩
  · refine field_eq fun j hj => ?_
    simp (disch := omega) only [h, if_pos, if_neg, Nat.sub_sub]; try simp
  · refine field_eq fun j hj => ?_
    simp (disch := omega) only [h, if_pos, if_neg, Nat.sub_sub]; try simp
  · refine field_eq fun j hj => ?_
    simp (disch := omega) only [h, if_pos, if_neg, Nat.sub_sub]; try simp
  · rw [h]; simp
  · rw [h]; simp
  · refine field_eq fun j hj => ?_
    simp (disch := omega) only [h, if_pos, if_neg, Nat.sub_sub]; try simp
  · refine field_eq fun j hj => ?_
    simp (disch := omega) only [h, if_pos, if_neg, Nat.sub_sub]; try simp
  · refine field_eq fun j hj => ?_
    simp (disch := omega) only [h, if_pos, if_neg, Nat.sub_sub]; try simp

theorem OpPalClaim.unpack_pack (o : OpPalClaim) : OpPalClaim.unpack (o.pack) = o := by
  obtain ⟨xd, xa, xnb⟩ := o
  have h (k : Nat) : (OpPalClaim.pack ⟨xd, xa, xnb⟩).getLsbD k = @BitVec.getLsbD (6+6+6+1+21) (xd ++ xa ++ 0#6 ++ BitVec.ofBool xnb ++ 0#21) k := rfl
  simp only [BitVec.getLsbD_append] at h
  simp only [OpPalClaim.unpack, OpPalClaim.mk.injEq]
  refine ⟨?_, ?_, ?_⟩
  · refine field_eq fun j hj => ?_
    simp (disch := omega) only [h, if_pos, if_neg, Nat.sub_sub]; try simp
  · refine field_eq fun j hj => ?_
    simp (disch := omega) only [h, if_pos, if_neg, Nat.sub_sub]; try simp
  · rw [h]; simp

theorem OpAccGive.unpack_pack (o : OpAccGive) : OpAccGive.unpack (o.pack) = o := by
  obtain ⟨xn, xcore⟩ := o
  have h (k : Nat) : (OpAccGive.pack ⟨xn, xcore⟩).getLsbD k = @BitVec.getLsbD (32+2+6) (0#32 ++ xcore ++ xn) k := rfl
  simp only [BitVec.getLsbD_append] at h
  simp only [OpAccGive.unpack, OpAccGive.mk.injEq]
  refine ⟨?_, ?_⟩
  · refine field_eq fun j hj => ?_
    simp (disch := omega) only [h, if_pos, if_neg, Nat.sub_sub]; try simp
  · refine field_eq fun j hj => ?_
    simp (disch := omega) only [h, if_pos, if_neg, Nat.sub_sub]; try simp

theorem OpLeaseSet.unpack_pack (o : OpLeaseSet) : OpLeaseSet.unpack (o.pack) = o := by
  obtain ⟨xa, xt⟩ := o
  have h (k : Nat) : (OpLeaseSet.pack ⟨xa, xt⟩).getLsbD k = @BitVec.getLsbD (6+6+25+3) (0#6 ++ xa ++ 0#25 ++ xt) k := rfl
  simp only [BitVec.getLsbD_append] at h
  simp only [OpLeaseSet.unpack, OpLeaseSet.mk.injEq]
  refine ⟨?_, ?_⟩
  · refine field_eq fun j hj => ?_
    simp (disch := omega) only [h, if_pos, if_neg, Nat.sub_sub]; try simp
  · refine field_eq fun j hj => ?_
    simp (disch := omega) only [h, if_pos, if_neg, Nat.sub_sub]; try simp

theorem OpWinMap.unpack_pack (o : OpWinMap) : OpWinMap.unpack (o.pack) = o := by
  obtain ⟨xa, xb, xn, xraise⟩ := o
  have h (k : Nat) : (OpWinMap.pack ⟨xa, xb, xn, xraise⟩).getLsbD k = @BitVec.getLsbD (6+6+6+17+1+4) (0#6 ++ xa ++ xb ++ 0#17 ++ BitVec.ofBool xraise ++ xn) k := rfl
  simp only [BitVec.getLsbD_append] at h
  simp only [OpWinMap.unpack, OpWinMap.mk.injEq]
  refine ⟨?_, ?_, ?_, ?_⟩
  · refine field_eq fun j hj => ?_
    simp (disch := omega) only [h, if_pos, if_neg, Nat.sub_sub]; try simp
  · refine field_eq fun j hj => ?_
    simp (disch := omega) only [h, if_pos, if_neg, Nat.sub_sub]; try simp
  · refine field_eq fun j hj => ?_
    simp (disch := omega) only [h, if_pos, if_neg, Nat.sub_sub]; try simp
  · rw [h]; simp

theorem OpWin.unpack_pack (o : OpWin) : OpWin.unpack (o.pack) = o := by
  obtain ⟨xn⟩ := o
  have h (k : Nat) : (OpWin.pack ⟨xn⟩).getLsbD k = @BitVec.getLsbD (36+4) (0#36 ++ xn) k := rfl
  simp only [BitVec.getLsbD_append] at h
  simp only [OpWin.unpack, OpWin.mk.injEq]
  · refine field_eq fun j hj => ?_
    simp (disch := omega) only [h, if_pos, if_neg, Nat.sub_sub]; try simp

theorem OpWinA.unpack_pack (o : OpWinA) : OpWinA.unpack (o.pack) = o := by
  obtain ⟨xa, xn⟩ := o
  have h (k : Nat) : (OpWinA.pack ⟨xa, xn⟩).getLsbD k = @BitVec.getLsbD (6+6+24+4) (0#6 ++ xa ++ 0#24 ++ xn) k := rfl
  simp only [BitVec.getLsbD_append] at h
  simp only [OpWinA.unpack, OpWinA.mk.injEq]
  refine ⟨?_, ?_⟩
  · refine field_eq fun j hj => ?_
    simp (disch := omega) only [h, if_pos, if_neg, Nat.sub_sub]; try simp
  · refine field_eq fun j hj => ?_
    simp (disch := omega) only [h, if_pos, if_neg, Nat.sub_sub]; try simp

theorem OpWinStat.unpack_pack (o : OpWinStat) : OpWinStat.unpack (o.pack) = o := by
  obtain ⟨xd, xn, xclr, xdirect⟩ := o
  have h (k : Nat) : (OpWinStat.pack ⟨xd, xn, xclr, xdirect⟩).getLsbD k = @BitVec.getLsbD (6+28+1+1+4) (xd ++ 0#28 ++ BitVec.ofBool xdirect ++ BitVec.ofBool xclr ++ xn) k := rfl
  simp only [BitVec.getLsbD_append] at h
  simp only [OpWinStat.unpack, OpWinStat.mk.injEq]
  refine ⟨?_, ?_, ?_, ?_⟩
  · refine field_eq fun j hj => ?_
    simp (disch := omega) only [h, if_pos, if_neg, Nat.sub_sub]; try simp
  · refine field_eq fun j hj => ?_
    simp (disch := omega) only [h, if_pos, if_neg, Nat.sub_sub]; try simp
  · rw [h]; simp
  · rw [h]; simp

theorem OpRflag.unpack_pack (o : OpRflag) : OpRflag.unpack (o.pack) = o := by
  obtain ⟨xa, xb, xcls, xf, xrel⟩ := o
  have h (k : Nat) : (OpRflag.pack ⟨xa, xb, xcls, xf, xrel⟩).getLsbD k = @BitVec.getLsbD (6+6+6+4+8+1+3+6) (0#6 ++ xa ++ xb ++ xcls ++ 0#8 ++ BitVec.ofBool xrel ++ 0#3 ++ xf) k := rfl
  simp only [BitVec.getLsbD_append] at h
  simp only [OpRflag.unpack, OpRflag.mk.injEq]
  refine ⟨?_, ?_, ?_, ?_, ?_⟩
  · refine field_eq fun j hj => ?_
    simp (disch := omega) only [h, if_pos, if_neg, Nat.sub_sub]; try simp
  · refine field_eq fun j hj => ?_
    simp (disch := omega) only [h, if_pos, if_neg, Nat.sub_sub]; try simp
  · refine field_eq fun j hj => ?_
    simp (disch := omega) only [h, if_pos, if_neg, Nat.sub_sub]; try simp
  · refine field_eq fun j hj => ?_
    simp (disch := omega) only [h, if_pos, if_neg, Nat.sub_sub]; try simp
  · rw [h]; simp

theorem OpFenceC.unpack_pack (o : OpFenceC) : OpFenceC.unpack (o.pack) = o := by
  obtain ⟨xmask⟩ := o
  have h (k : Nat) : (OpFenceC.pack ⟨xmask⟩).getLsbD k = @BitVec.getLsbD (24+16) (0#24 ++ xmask) k := rfl
  simp only [BitVec.getLsbD_append] at h
  simp only [OpFenceC.unpack, OpFenceC.mk.injEq]
  · refine field_eq fun j hj => ?_
    simp (disch := omega) only [h, if_pos, if_neg, Nat.sub_sub]; try simp

theorem OpFenceG.unpack_pack (o : OpFenceG) : OpFenceG.unpack (o.pack) = o := by
  obtain ⟨xmask, xscope⟩ := o
  have h (k : Nat) : (OpFenceG.pack ⟨xmask, xscope⟩).getLsbD k = @BitVec.getLsbD (19+3+2+16) (0#19 ++ xscope ++ 0#2 ++ xmask) k := rfl
  simp only [BitVec.getLsbD_append] at h
  simp only [OpFenceG.unpack, OpFenceG.mk.injEq]
  refine ⟨?_, ?_⟩
  · refine field_eq fun j hj => ?_
    simp (disch := omega) only [h, if_pos, if_neg, Nat.sub_sub]; try simp
  · refine field_eq fun j hj => ?_
    simp (disch := omega) only [h, if_pos, if_neg, Nat.sub_sub]; try simp

theorem OpWqPop.unpack_pack (o : OpWqPop) : OpWqPop.unpack (o.pack) = o := by
  obtain ⟨xd, xb, xnb, xn⟩ := o
  have h (k : Nat) : (OpWqPop.pack ⟨xd, xb, xnb, xn⟩).getLsbD k = @BitVec.getLsbD (6+6+6+1+17+4) (xd ++ 0#6 ++ xb ++ BitVec.ofBool xnb ++ 0#17 ++ xn) k := rfl
  simp only [BitVec.getLsbD_append] at h
  simp only [OpWqPop.unpack, OpWqPop.mk.injEq]
  refine ⟨?_, ?_, ?_, ?_⟩
  · refine field_eq fun j hj => ?_
    simp (disch := omega) only [h, if_pos, if_neg, Nat.sub_sub]; try simp
  · refine field_eq fun j hj => ?_
    simp (disch := omega) only [h, if_pos, if_neg, Nat.sub_sub]; try simp
  · rw [h]; simp
  · refine field_eq fun j hj => ?_
    simp (disch := omega) only [h, if_pos, if_neg, Nat.sub_sub]; try simp

theorem OpWqCount.unpack_pack (o : OpWqCount) : OpWqCount.unpack (o.pack) = o := by
  obtain ⟨xd, xn⟩ := o
  have h (k : Nat) : (OpWqCount.pack ⟨xd, xn⟩).getLsbD k = @BitVec.getLsbD (6+30+4) (xd ++ 0#30 ++ xn) k := rfl
  simp only [BitVec.getLsbD_append] at h
  simp only [OpWqCount.unpack, OpWqCount.mk.injEq]
  refine ⟨?_, ?_⟩
  · refine field_eq fun j hj => ?_
    simp (disch := omega) only [h, if_pos, if_neg, Nat.sub_sub]; try simp
  · refine field_eq fun j hj => ?_
    simp (disch := omega) only [h, if_pos, if_neg, Nat.sub_sub]; try simp

theorem OpSigSub.unpack_pack (o : OpSigSub) : OpSigSub.unpack (o.pack) = o := by
  obtain ⟨xa, xj, xcls, xrel⟩ := o
  have h (k : Nat) : (OpSigSub.pack ⟨xa, xj, xcls, xrel⟩).getLsbD k = @BitVec.getLsbD (6+6+17+1+4+6) (0#6 ++ xa ++ 0#17 ++ BitVec.ofBool xrel ++ xcls ++ xj) k := rfl
  simp only [BitVec.getLsbD_append] at h
  simp only [OpSigSub.unpack, OpSigSub.mk.injEq]
  refine ⟨?_, ?_, ?_, ?_⟩
  · refine field_eq fun j hj => ?_
    simp (disch := omega) only [h, if_pos, if_neg, Nat.sub_sub]; try simp
  · refine field_eq fun j hj => ?_
    simp (disch := omega) only [h, if_pos, if_neg, Nat.sub_sub]; try simp
  · refine field_eq fun j hj => ?_
    simp (disch := omega) only [h, if_pos, if_neg, Nat.sub_sub]; try simp
  · rw [h]; simp

theorem OpSigRead.unpack_pack (o : OpSigRead) : OpSigRead.unpack (o.pack) = o := by
  obtain ⟨xd, xj⟩ := o
  have h (k : Nat) : (OpSigRead.pack ⟨xd, xj⟩).getLsbD k = @BitVec.getLsbD (6+28+6) (xd ++ 0#28 ++ xj) k := rfl
  simp only [BitVec.getLsbD_append] at h
  simp only [OpSigRead.unpack, OpSigRead.mk.injEq]
  refine ⟨?_, ?_⟩
  · refine field_eq fun j hj => ?_
    simp (disch := omega) only [h, if_pos, if_neg, Nat.sub_sub]; try simp
  · refine field_eq fun j hj => ?_
    simp (disch := omega) only [h, if_pos, if_neg, Nat.sub_sub]; try simp

theorem OpTrap.unpack_pack (o : OpTrap) : OpTrap.unpack (o.pack) = o := by
  obtain ⟨xa, xcode⟩ := o
  have h (k : Nat) : (OpTrap.pack ⟨xa, xcode⟩).getLsbD k = @BitVec.getLsbD (6+6+20+8) (0#6 ++ xa ++ 0#20 ++ xcode) k := rfl
  simp only [BitVec.getLsbD_append] at h
  simp only [OpTrap.unpack, OpTrap.mk.injEq]
  refine ⟨?_, ?_⟩
  · refine field_eq fun j hj => ?_
    simp (disch := omega) only [h, if_pos, if_neg, Nat.sub_sub]; try simp
  · refine field_eq fun j hj => ?_
    simp (disch := omega) only [h, if_pos, if_neg, Nat.sub_sub]; try simp

theorem OpCrr.unpack_pack (o : OpCrr) : OpCrr.unpack (o.pack) = o := by
  obtain ⟨xd, xn⟩ := o
  have h (k : Nat) : (OpCrr.pack ⟨xd, xn⟩).getLsbD k = @BitVec.getLsbD (6+27+7) (xd ++ 0#27 ++ xn) k := rfl
  simp only [BitVec.getLsbD_append] at h
  simp only [OpCrr.unpack, OpCrr.mk.injEq]
  refine ⟨?_, ?_⟩
  · refine field_eq fun j hj => ?_
    simp (disch := omega) only [h, if_pos, if_neg, Nat.sub_sub]; try simp
  · refine field_eq fun j hj => ?_
    simp (disch := omega) only [h, if_pos, if_neg, Nat.sub_sub]; try simp

theorem OpCr.unpack_pack (o : OpCr) : OpCr.unpack (o.pack) = o := by
  obtain ⟨xd, xa, xn⟩ := o
  have h (k : Nat) : (OpCr.pack ⟨xd, xa, xn⟩).getLsbD k = @BitVec.getLsbD (6+6+21+7) (xd ++ xa ++ 0#21 ++ xn) k := rfl
  simp only [BitVec.getLsbD_append] at h
  simp only [OpCr.unpack, OpCr.mk.injEq]
  refine ⟨?_, ?_, ?_⟩
  · refine field_eq fun j hj => ?_
    simp (disch := omega) only [h, if_pos, if_neg, Nat.sub_sub]; try simp
  · refine field_eq fun j hj => ?_
    simp (disch := omega) only [h, if_pos, if_neg, Nat.sub_sub]; try simp
  · refine field_eq fun j hj => ?_
    simp (disch := omega) only [h, if_pos, if_neg, Nat.sub_sub]; try simp

theorem OpSaveHard.unpack_pack (o : OpSaveHard) : OpSaveHard.unpack (o.pack) = o := by
  obtain ⟨xd, xsp⟩ := o
  have h (k : Nat) : (OpSaveHard.pack ⟨xd, xsp⟩).getLsbD k = @BitVec.getLsbD (6+32+1+1) (xd ++ 0#32 ++ BitVec.ofBool xsp ++ 1#1) k := rfl
  simp only [BitVec.getLsbD_append] at h
  simp only [OpSaveHard.unpack, OpSaveHard.mk.injEq]
  refine ⟨?_, ?_⟩
  · refine field_eq fun j hj => ?_
    simp (disch := omega) only [h, if_pos, if_neg, Nat.sub_sub]; try simp
  · rw [h]; simp

theorem OpSkBind.unpack_pack (o : OpSkBind) : OpSkBind.unpack (o.pack) = o := by
  obtain ⟨xn, xj⟩ := o
  have h (k : Nat) : (OpSkBind.pack ⟨xn, xj⟩).getLsbD k = @BitVec.getLsbD (28+6+6) (0#28 ++ xj ++ xn) k := rfl
  simp only [BitVec.getLsbD_append] at h
  simp only [OpSkBind.unpack, OpSkBind.mk.injEq]
  refine ⟨?_, ?_⟩
  · refine field_eq fun j hj => ?_
    simp (disch := omega) only [h, if_pos, if_neg, Nat.sub_sub]; try simp
  · refine field_eq fun j hj => ?_
    simp (disch := omega) only [h, if_pos, if_neg, Nat.sub_sub]; try simp

theorem OpSkN.unpack_pack (o : OpSkN) : OpSkN.unpack (o.pack) = o := by
  obtain ⟨xn⟩ := o
  have h (k : Nat) : (OpSkN.pack ⟨xn⟩).getLsbD k = @BitVec.getLsbD (34+6) (0#34 ++ xn) k := rfl
  simp only [BitVec.getLsbD_append] at h
  simp only [OpSkN.unpack, OpSkN.mk.injEq]
  · refine field_eq fun j hj => ?_
    simp (disch := omega) only [h, if_pos, if_neg, Nat.sub_sub]; try simp

theorem OpSkWrite.unpack_pack (o : OpSkWrite) : OpSkWrite.unpack (o.pack) = o := by
  obtain ⟨xa, xj⟩ := o
  have h (k : Nat) : (OpSkWrite.pack ⟨xa, xj⟩).getLsbD k = @BitVec.getLsbD (6+6+22+6) (0#6 ++ xa ++ 0#22 ++ xj) k := rfl
  simp only [BitVec.getLsbD_append] at h
  simp only [OpSkWrite.unpack, OpSkWrite.mk.injEq]
  refine ⟨?_, ?_⟩
  · refine field_eq fun j hj => ?_
    simp (disch := omega) only [h, if_pos, if_neg, Nat.sub_sub]; try simp
  · refine field_eq fun j hj => ?_
    simp (disch := omega) only [h, if_pos, if_neg, Nat.sub_sub]; try simp

theorem OpSkInval.unpack_pack (o : OpSkInval) : OpSkInval.unpack (o.pack) = o := by
  obtain ⟨xa, xm⟩ := o
  have h (k : Nat) : (OpSkInval.pack ⟨xa, xm⟩).getLsbD k = @BitVec.getLsbD (6+6+27+1) (0#6 ++ xa ++ 0#27 ++ BitVec.ofBool xm) k := rfl
  simp only [BitVec.getLsbD_append] at h
  simp only [OpSkInval.unpack, OpSkInval.mk.injEq]
  refine ⟨?_, ?_⟩
  · refine field_eq fun j hj => ?_
    simp (disch := omega) only [h, if_pos, if_neg, Nat.sub_sub]; try simp
  · rw [h]; simp

theorem OpV.unpack_pack (o : OpV) : OpV.unpack (o.pack) = o := by
  obtain ⟨xd, xa, xb, xc, xk, xty, xz, xrm, xsat, xspec⟩ := o
  have h (k : Nat) : (OpV.pack ⟨xd, xa, xb, xc, xk, xty, xz, xrm, xsat, xspec⟩).getLsbD k = @BitVec.getLsbD (6+6+6+6+4+4+1+3+1+3) (xd ++ xa ++ xb ++ xc ++ xk ++ xty ++ BitVec.ofBool xz ++ xrm ++ BitVec.ofBool xsat ++ xspec) k := rfl
  simp only [BitVec.getLsbD_append] at h
  simp only [OpV.unpack, OpV.mk.injEq]
  refine ⟨?_, ?_, ?_, ?_, ?_, ?_, ?_, ?_, ?_, ?_⟩
  · refine field_eq fun j hj => ?_
    simp (disch := omega) only [h, if_pos, if_neg, Nat.sub_sub]; try simp
  · refine field_eq fun j hj => ?_
    simp (disch := omega) only [h, if_pos, if_neg, Nat.sub_sub]; try simp
  · refine field_eq fun j hj => ?_
    simp (disch := omega) only [h, if_pos, if_neg, Nat.sub_sub]; try simp
  · refine field_eq fun j hj => ?_
    simp (disch := omega) only [h, if_pos, if_neg, Nat.sub_sub]; try simp
  · refine field_eq fun j hj => ?_
    simp (disch := omega) only [h, if_pos, if_neg, Nat.sub_sub]; try simp
  · refine field_eq fun j hj => ?_
    simp (disch := omega) only [h, if_pos, if_neg, Nat.sub_sub]; try simp
  · rw [h]; simp
  · refine field_eq fun j hj => ?_
    simp (disch := omega) only [h, if_pos, if_neg, Nat.sub_sub]; try simp
  · rw [h]; simp
  · refine field_eq fun j hj => ?_
    simp (disch := omega) only [h, if_pos, if_neg, Nat.sub_sub]; try simp

theorem OpVM.unpack_pack (o : OpVM) : OpVM.unpack (o.pack) = o := by
  obtain ⟨xd, xa, xk, xsize, xpitch, xoff⟩ := o
  have h (k : Nat) : (OpVM.pack ⟨xd, xa, xk, xsize, xpitch, xoff⟩).getLsbD k = @BitVec.getLsbD (6+6+4+2+1+21) (xd ++ xa ++ xk ++ xsize ++ BitVec.ofBool xpitch ++ xoff) k := rfl
  simp only [BitVec.getLsbD_append] at h
  simp only [OpVM.unpack, OpVM.mk.injEq]
  refine ⟨?_, ?_, ?_, ?_, ?_, ?_⟩
  · refine field_eq fun j hj => ?_
    simp (disch := omega) only [h, if_pos, if_neg, Nat.sub_sub]; try simp
  · refine field_eq fun j hj => ?_
    simp (disch := omega) only [h, if_pos, if_neg, Nat.sub_sub]; try simp
  · refine field_eq fun j hj => ?_
    simp (disch := omega) only [h, if_pos, if_neg, Nat.sub_sub]; try simp
  · refine field_eq fun j hj => ?_
    simp (disch := omega) only [h, if_pos, if_neg, Nat.sub_sub]; try simp
  · rw [h]; simp
  · refine field_eq fun j hj => ?_
    simp (disch := omega) only [h, if_pos, if_neg, Nat.sub_sub]; try simp

theorem OpMma.unpack_pack (o : OpMma) (ty : BitVec 4) : OpMma.unpack (o.pack ty) = o := by
  obtain ⟨xd, xa, xb, xpri, xspec⟩ := o
  have h (k : Nat) : (OpMma.pack ⟨xd, xa, xb, xpri, xspec⟩ ty).getLsbD k = @BitVec.getLsbD (6+6+6+8+2+4+5+3) (xd ++ xa ++ xb ++ 0#8 ++ xpri ++ ty ++ 0#5 ++ xspec) k := rfl
  simp only [BitVec.getLsbD_append] at h
  simp only [OpMma.unpack, OpMma.mk.injEq]
  refine ⟨?_, ?_, ?_, ?_, ?_⟩
  · refine field_eq fun j hj => ?_
    simp (disch := omega) only [h, if_pos, if_neg, Nat.sub_sub]; try simp
  · refine field_eq fun j hj => ?_
    simp (disch := omega) only [h, if_pos, if_neg, Nat.sub_sub]; try simp
  · refine field_eq fun j hj => ?_
    simp (disch := omega) only [h, if_pos, if_neg, Nat.sub_sub]; try simp
  · refine field_eq fun j hj => ?_
    simp (disch := omega) only [h, if_pos, if_neg, Nat.sub_sub]; try simp
  · refine field_eq fun j hj => ?_
    simp (disch := omega) only [h, if_pos, if_neg, Nat.sub_sub]; try simp

theorem OpSks.unpack_pack (o : OpSks) : OpSks.unpack o.n (o.pack) = o := by
  obtain ⟨xn, xd, xa, xb, ximm⟩ := o
  have h (k : Nat) : (OpSks.pack ⟨xn, xd, xa, xb, ximm⟩).getLsbD k = @BitVec.getLsbD (6+6+6+22) (xd ++ xa ++ xb ++ ximm) k := rfl
  simp only [BitVec.getLsbD_append] at h
  simp only [OpSks.unpack, OpSks.mk.injEq]
  simp only [true_and]
  refine ⟨?_, ?_, ?_, ?_⟩
  · refine field_eq fun j hj => ?_
    simp (disch := omega) only [h, if_pos, if_neg, Nat.sub_sub]; try simp
  · refine field_eq fun j hj => ?_
    simp (disch := omega) only [h, if_pos, if_neg, Nat.sub_sub]; try simp
  · refine field_eq fun j hj => ?_
    simp (disch := omega) only [h, if_pos, if_neg, Nat.sub_sub]; try simp
  · refine field_eq fun j hj => ?_
    simp (disch := omega) only [h, if_pos, if_neg, Nat.sub_sub]; try simp

theorem OpSksv.unpack_pack (o : OpSksv) : OpSksv.unpack o.n o.pack = o := by
  simp [OpSksv.unpack, OpSksv.pack, OpV.unpack_pack]

end Sys2Proof
end

