-- ==== Sys2Proof/Laws/PerInstr.lean ====
section
/-! SUPPORT. Family RoundTrip: the decoder's reading of a well-formed instruction's major, minor and operand bits is that instruction (R47, R52, R58, R59); an event has no word. -/

namespace Sys2Proof.Laws.RoundTrip

/-- What the decoder reads from the instruction's opcode and operand bits is the instruction. -/
def Statement (i : Instr) : Prop :=
  ∀ major minor x, i.wf = true → opcodeOf i = some (major, minor, x) → candidate major.toNat minor.toNat x = some i

theorem of_word {i : Instr} {major : BitVec 8} {minor : BitVec 6} {x : BitVec 40} (h : opcodeOf i = some (major, minor, x))
    (hc : candidate major.toNat minor.toNat x = some i) : Statement i := by
  intro a b c _ h'
  rw [h] at h'
  cases h'
  exact hc

theorem of_none {i : Instr} (h : opcodeOf i = none) : Statement i := by
  intro a b c _ h'
  rw [h] at h'
  cases h'

theorem nop : Statement .nop := of_word rfl rfl
theorem add (o : OpRRR) : Statement (.add o) := of_word rfl (congrArg (fun o => some (Instr.add o)) o.unpack_pack)
theorem sub (o : OpRRR) : Statement (.sub o) := of_word rfl (congrArg (fun o => some (Instr.sub o)) o.unpack_pack)
theorem mul (o : OpRRR) : Statement (.mul o) := of_word rfl (congrArg (fun o => some (Instr.mul o)) o.unpack_pack)
theorem mulh (o : OpRRR) : Statement (.mulh o) := of_word rfl (congrArg (fun o => some (Instr.mulh o)) o.unpack_pack)
theorem mulhn (o : OpRRR) : Statement (.mulhn o) := of_word rfl (congrArg (fun o => some (Instr.mulhn o)) o.unpack_pack)
theorem div (o : OpRRR) : Statement (.div o) := of_word rfl (congrArg (fun o => some (Instr.div o)) o.unpack_pack)
theorem divn (o : OpRRR) : Statement (.divn o) := of_word rfl (congrArg (fun o => some (Instr.divn o)) o.unpack_pack)
theorem rem (o : OpRRR) : Statement (.rem o) := of_word rfl (congrArg (fun o => some (Instr.rem o)) o.unpack_pack)
theorem remn (o : OpRRR) : Statement (.remn o) := of_word rfl (congrArg (fun o => some (Instr.remn o)) o.unpack_pack)
theorem and (o : OpRRR) : Statement (.and o) := of_word rfl (congrArg (fun o => some (Instr.and o)) o.unpack_pack)
theorem or (o : OpRRR) : Statement (.or o) := of_word rfl (congrArg (fun o => some (Instr.or o)) o.unpack_pack)
theorem xor (o : OpRRR) : Statement (.xor o) := of_word rfl (congrArg (fun o => some (Instr.xor o)) o.unpack_pack)
theorem andn (o : OpRRR) : Statement (.andn o) := of_word rfl (congrArg (fun o => some (Instr.andn o)) o.unpack_pack)
theorem shl (o : OpRRR) : Statement (.shl o) := of_word rfl (congrArg (fun o => some (Instr.shl o)) o.unpack_pack)
theorem shr (o : OpRRR) : Statement (.shr o) := of_word rfl (congrArg (fun o => some (Instr.shr o)) o.unpack_pack)
theorem sra (o : OpRRR) : Statement (.sra o) := of_word rfl (congrArg (fun o => some (Instr.sra o)) o.unpack_pack)
theorem rol (o : OpRRR) : Statement (.rol o) := of_word rfl (congrArg (fun o => some (Instr.rol o)) o.unpack_pack)
theorem ror (o : OpRRR) : Statement (.ror o) := of_word rfl (congrArg (fun o => some (Instr.ror o)) o.unpack_pack)
theorem min (o : OpRRR) : Statement (.min o) := of_word rfl (congrArg (fun o => some (Instr.min o)) o.unpack_pack)
theorem max (o : OpRRR) : Statement (.max o) := of_word rfl (congrArg (fun o => some (Instr.max o)) o.unpack_pack)
theorem minn (o : OpRRR) : Statement (.minn o) := of_word rfl (congrArg (fun o => some (Instr.minn o)) o.unpack_pack)
theorem maxn (o : OpRRR) : Statement (.maxn o) := of_word rfl (congrArg (fun o => some (Instr.maxn o)) o.unpack_pack)
theorem addo (o : OpRRR) : Statement (.addo o) := of_word rfl (congrArg (fun o => some (Instr.addo o)) o.unpack_pack)
theorem subo (o : OpRRR) : Statement (.subo o) := of_word rfl (congrArg (fun o => some (Instr.subo o)) o.unpack_pack)
theorem addi (o : OpRRI) : Statement (.addi o) := of_word rfl (congrArg (fun o => some (Instr.addi o)) o.unpack_pack)
theorem andi (o : OpRRI) : Statement (.andi o) := of_word rfl (congrArg (fun o => some (Instr.andi o)) o.unpack_pack)
theorem ori (o : OpRRI) : Statement (.ori o) := of_word rfl (congrArg (fun o => some (Instr.ori o)) o.unpack_pack)
theorem xori (o : OpRRI) : Statement (.xori o) := of_word rfl (congrArg (fun o => some (Instr.xori o)) o.unpack_pack)
theorem shli (o : OpShift) : Statement (.shli o) := of_word rfl (congrArg (fun o => some (Instr.shli o)) o.unpack_pack)
theorem shri (o : OpShift) : Statement (.shri o) := of_word rfl (congrArg (fun o => some (Instr.shri o)) o.unpack_pack)
theorem srai (o : OpShift) : Statement (.srai o) := of_word rfl (congrArg (fun o => some (Instr.srai o)) o.unpack_pack)
theorem muli (o : OpRRI) : Statement (.muli o) := of_word rfl (congrArg (fun o => some (Instr.muli o)) o.unpack_pack)
theorem li (o : OpRI) : Statement (.li o) := of_word rfl (congrArg (fun o => some (Instr.li o)) o.unpack_pack)
theorem lih (o : OpLih) : Statement (.lih o) := of_word rfl (congrArg (fun o => some (Instr.lih o)) o.unpack_pack)
theorem lpc (o : OpRI) : Statement (.lpc o) := of_word rfl (congrArg (fun o => some (Instr.lpc o)) o.unpack_pack)
theorem ext (o : OpBits) : Statement (.ext o) := of_word rfl (congrArg (fun o => some (Instr.ext o)) o.unpack_pack)
theorem extn (o : OpBits) : Statement (.extn o) := of_word rfl (congrArg (fun o => some (Instr.extn o)) o.unpack_pack)
theorem ins (o : OpBits) : Statement (.ins o) := of_word rfl (congrArg (fun o => some (Instr.ins o)) o.unpack_pack)
theorem clz (o : OpRR) : Statement (.clz o) := of_word rfl (congrArg (fun o => some (Instr.clz o)) o.unpack_pack)
theorem ctz (o : OpRR) : Statement (.ctz o) := of_word rfl (congrArg (fun o => some (Instr.ctz o)) o.unpack_pack)
theorem popc (o : OpRR) : Statement (.popc o) := of_word rfl (congrArg (fun o => some (Instr.popc o)) o.unpack_pack)
theorem bswap (o : OpRR) : Statement (.bswap o) := of_word rfl (congrArg (fun o => some (Instr.bswap o)) o.unpack_pack)
theorem seq (o : OpRRR) : Statement (.seq o) := of_word rfl (congrArg (fun o => some (Instr.seq o)) o.unpack_pack)
theorem sne (o : OpRRR) : Statement (.sne o) := of_word rfl (congrArg (fun o => some (Instr.sne o)) o.unpack_pack)
theorem slt (o : OpRRR) : Statement (.slt o) := of_word rfl (congrArg (fun o => some (Instr.slt o)) o.unpack_pack)
theorem sltn (o : OpRRR) : Statement (.sltn o) := of_word rfl (congrArg (fun o => some (Instr.sltn o)) o.unpack_pack)
theorem sle (o : OpRRR) : Statement (.sle o) := of_word rfl (congrArg (fun o => some (Instr.sle o)) o.unpack_pack)
theorem slen (o : OpRRR) : Statement (.slen o) := of_word rfl (congrArg (fun o => some (Instr.slen o)) o.unpack_pack)
theorem sel (o : OpSel) : Statement (.sel o) := of_word rfl (congrArg (fun o => some (Instr.sel o)) o.unpack_pack)
theorem seqi (o : OpRRI) : Statement (.seqi o) := of_word rfl (congrArg (fun o => some (Instr.seqi o)) o.unpack_pack)
theorem slti (o : OpRRI) : Statement (.slti o) := of_word rfl (congrArg (fun o => some (Instr.slti o)) o.unpack_pack)
theorem sltni (o : OpRRI) : Statement (.sltni o) := of_word rfl (congrArg (fun o => some (Instr.sltni o)) o.unpack_pack)
theorem lea (o : OpLea) : Statement (.lea o) := of_word rfl (congrArg (fun o => some (Instr.lea o)) o.unpack_pack)
theorem faddF64 (o : OpF3) : Statement (.faddF64 o) := of_word rfl (congrArg (fun o => some (Instr.faddF64 o)) o.unpack_pack)
theorem fsubF64 (o : OpF3) : Statement (.fsubF64 o) := of_word rfl (congrArg (fun o => some (Instr.fsubF64 o)) o.unpack_pack)
theorem fmulF64 (o : OpF3) : Statement (.fmulF64 o) := of_word rfl (congrArg (fun o => some (Instr.fmulF64 o)) o.unpack_pack)
theorem fdivF64 (o : OpF3) : Statement (.fdivF64 o) := of_word rfl (congrArg (fun o => some (Instr.fdivF64 o)) o.unpack_pack)
theorem fsqrtF64 (o : OpF2) : Statement (.fsqrtF64 o) := of_word rfl (congrArg (fun o => some (Instr.fsqrtF64 o)) o.unpack_pack)
theorem fminF64 (o : OpRRR) : Statement (.fminF64 o) := of_word rfl (congrArg (fun o => some (Instr.fminF64 o)) o.unpack_pack)
theorem fmaxF64 (o : OpRRR) : Statement (.fmaxF64 o) := of_word rfl (congrArg (fun o => some (Instr.fmaxF64 o)) o.unpack_pack)
theorem fabsF64 (o : OpRR) : Statement (.fabsF64 o) := of_word rfl (congrArg (fun o => some (Instr.fabsF64 o)) o.unpack_pack)
theorem fnegF64 (o : OpRR) : Statement (.fnegF64 o) := of_word rfl (congrArg (fun o => some (Instr.fnegF64 o)) o.unpack_pack)
theorem fsgnF64 (o : OpRRR) : Statement (.fsgnF64 o) := of_word rfl (congrArg (fun o => some (Instr.fsgnF64 o)) o.unpack_pack)
theorem faddF32 (o : OpF3) : Statement (.faddF32 o) := of_word rfl (congrArg (fun o => some (Instr.faddF32 o)) o.unpack_pack)
theorem fsubF32 (o : OpF3) : Statement (.fsubF32 o) := of_word rfl (congrArg (fun o => some (Instr.fsubF32 o)) o.unpack_pack)
theorem fmulF32 (o : OpF3) : Statement (.fmulF32 o) := of_word rfl (congrArg (fun o => some (Instr.fmulF32 o)) o.unpack_pack)
theorem fdivF32 (o : OpF3) : Statement (.fdivF32 o) := of_word rfl (congrArg (fun o => some (Instr.fdivF32 o)) o.unpack_pack)
theorem fsqrtF32 (o : OpF2) : Statement (.fsqrtF32 o) := of_word rfl (congrArg (fun o => some (Instr.fsqrtF32 o)) o.unpack_pack)
theorem fminF32 (o : OpRRR) : Statement (.fminF32 o) := of_word rfl (congrArg (fun o => some (Instr.fminF32 o)) o.unpack_pack)
theorem fmaxF32 (o : OpRRR) : Statement (.fmaxF32 o) := of_word rfl (congrArg (fun o => some (Instr.fmaxF32 o)) o.unpack_pack)
theorem fabsF32 (o : OpRR) : Statement (.fabsF32 o) := of_word rfl (congrArg (fun o => some (Instr.fabsF32 o)) o.unpack_pack)
theorem fnegF32 (o : OpRR) : Statement (.fnegF32 o) := of_word rfl (congrArg (fun o => some (Instr.fnegF32 o)) o.unpack_pack)
theorem fsgnF32 (o : OpRRR) : Statement (.fsgnF32 o) := of_word rfl (congrArg (fun o => some (Instr.fsgnF32 o)) o.unpack_pack)
theorem fma (o : OpFma) : Statement (.fma o) := of_word rfl (congrArg (fun o => some (Instr.fma o)) o.unpack_pack)
theorem fms (o : OpFma) : Statement (.fms o) := of_word rfl (congrArg (fun o => some (Instr.fms o)) o.unpack_pack)
theorem fnma (o : OpFma) : Statement (.fnma o) := of_word rfl (congrArg (fun o => some (Instr.fnma o)) o.unpack_pack)
theorem fnms (o : OpFma) : Statement (.fnms o) := of_word rfl (congrArg (fun o => some (Instr.fnms o)) o.unpack_pack)
theorem fcvt (o : OpCvt) : Statement (.fcvt o) := of_word rfl (congrArg (fun o => some (Instr.fcvt o)) o.unpack_pack)
theorem fcvti (o : OpCvt) : Statement (.fcvti o) := of_word rfl (congrArg (fun o => some (Instr.fcvti o)) o.unpack_pack)
theorem icvtf (o : OpCvt) : Statement (.icvtf o) := of_word rfl (congrArg (fun o => some (Instr.icvtf o)) o.unpack_pack)
theorem feq (o : OpFCmp) : Statement (.feq o) := of_word rfl (congrArg (fun o => some (Instr.feq o)) o.unpack_pack)
theorem flt (o : OpFCmp) : Statement (.flt o) := of_word rfl (congrArg (fun o => some (Instr.flt o)) o.unpack_pack)
theorem fle (o : OpFCmp) : Statement (.fle o) := of_word rfl (congrArg (fun o => some (Instr.fle o)) o.unpack_pack)
theorem fclass (o : OpFCls) : Statement (.fclass o) := of_word rfl (congrArg (fun o => some (Instr.fclass o)) o.unpack_pack)
theorem beq (o : OpBr) : Statement (.beq o) := of_word rfl (congrArg (fun o => some (Instr.beq o)) o.unpack_pack)
theorem bne (o : OpBr) : Statement (.bne o) := of_word rfl (congrArg (fun o => some (Instr.bne o)) o.unpack_pack)
theorem blt (o : OpBr) : Statement (.blt o) := of_word rfl (congrArg (fun o => some (Instr.blt o)) o.unpack_pack)
theorem bge (o : OpBr) : Statement (.bge o) := of_word rfl (congrArg (fun o => some (Instr.bge o)) o.unpack_pack)
theorem bltn (o : OpBr) : Statement (.bltn o) := of_word rfl (congrArg (fun o => some (Instr.bltn o)) o.unpack_pack)
theorem bgen (o : OpBr) : Statement (.bgen o) := of_word rfl (congrArg (fun o => some (Instr.bgen o)) o.unpack_pack)
theorem jal (o : OpRI) : Statement (.jal o) := of_word rfl (congrArg (fun o => some (Instr.jal o)) o.unpack_pack)
theorem jalr (o : OpJalr) : Statement (.jalr o) := of_word rfl (congrArg (fun o => some (Instr.jalr o)) o.unpack_pack)
theorem loop (o : OpBr) : Statement (.loop o) := of_word rfl (congrArg (fun o => some (Instr.loop o)) o.unpack_pack)
theorem ld (o : OpMem) : Statement (.ld o) := of_word rfl (congrArg (fun o => some (Instr.ld o)) o.unpack_pack)
theorem st (o : OpMem) : Statement (.st o) := of_word rfl (congrArg (fun o => some (Instr.st o)) o.unpack_pack)
theorem atomAdd (o : OpMem) : Statement (.atomAdd o) := of_word rfl (congrArg (fun o => some (Instr.atomAdd o)) o.unpack_pack)
theorem atomAnd (o : OpMem) : Statement (.atomAnd o) := of_word rfl (congrArg (fun o => some (Instr.atomAnd o)) o.unpack_pack)
theorem atomOr (o : OpMem) : Statement (.atomOr o) := of_word rfl (congrArg (fun o => some (Instr.atomOr o)) o.unpack_pack)
theorem atomXor (o : OpMem) : Statement (.atomXor o) := of_word rfl (congrArg (fun o => some (Instr.atomXor o)) o.unpack_pack)
theorem atomMin (o : OpMem) : Statement (.atomMin o) := of_word rfl (congrArg (fun o => some (Instr.atomMin o)) o.unpack_pack)
theorem atomMax (o : OpMem) : Statement (.atomMax o) := of_word rfl (congrArg (fun o => some (Instr.atomMax o)) o.unpack_pack)
theorem atomMinn (o : OpMem) : Statement (.atomMinn o) := of_word rfl (congrArg (fun o => some (Instr.atomMinn o)) o.unpack_pack)
theorem atomMaxn (o : OpMem) : Statement (.atomMaxn o) := of_word rfl (congrArg (fun o => some (Instr.atomMaxn o)) o.unpack_pack)
theorem atomSwap (o : OpMem) : Statement (.atomSwap o) := of_word rfl (congrArg (fun o => some (Instr.atomSwap o)) o.unpack_pack)
theorem atomCas (o : OpMem) : Statement (.atomCas o) := of_word rfl (congrArg (fun o => some (Instr.atomCas o)) o.unpack_pack)
theorem atomIncb (o : OpMem) : Statement (.atomIncb o) := of_word rfl (congrArg (fun o => some (Instr.atomIncb o)) o.unpack_pack)
theorem atomAddHbm (o : OpMem) : Statement (.atomAddHbm o) := of_word rfl (congrArg (fun o => some (Instr.atomAddHbm o)) o.unpack_pack)
theorem atomAndHbm (o : OpMem) : Statement (.atomAndHbm o) := of_word rfl (congrArg (fun o => some (Instr.atomAndHbm o)) o.unpack_pack)
theorem atomOrHbm (o : OpMem) : Statement (.atomOrHbm o) := of_word rfl (congrArg (fun o => some (Instr.atomOrHbm o)) o.unpack_pack)
theorem atomXorHbm (o : OpMem) : Statement (.atomXorHbm o) := of_word rfl (congrArg (fun o => some (Instr.atomXorHbm o)) o.unpack_pack)
theorem atomMinHbm (o : OpMem) : Statement (.atomMinHbm o) := of_word rfl (congrArg (fun o => some (Instr.atomMinHbm o)) o.unpack_pack)
theorem atomMaxHbm (o : OpMem) : Statement (.atomMaxHbm o) := of_word rfl (congrArg (fun o => some (Instr.atomMaxHbm o)) o.unpack_pack)
theorem atomMinnHbm (o : OpMem) : Statement (.atomMinnHbm o) := of_word rfl (congrArg (fun o => some (Instr.atomMinnHbm o)) o.unpack_pack)
theorem atomMaxnHbm (o : OpMem) : Statement (.atomMaxnHbm o) := of_word rfl (congrArg (fun o => some (Instr.atomMaxnHbm o)) o.unpack_pack)
theorem atomSwapHbm (o : OpMem) : Statement (.atomSwapHbm o) := of_word rfl (congrArg (fun o => some (Instr.atomSwapHbm o)) o.unpack_pack)
theorem atomCasHbm (o : OpMem) : Statement (.atomCasHbm o) := of_word rfl (congrArg (fun o => some (Instr.atomCasHbm o)) o.unpack_pack)
theorem atomIncbHbm (o : OpMem) : Statement (.atomIncbHbm o) := of_word rfl (congrArg (fun o => some (Instr.atomIncbHbm o)) o.unpack_pack)
theorem claim (o : OpMem) : Statement (.claim o) := of_word rfl (congrArg (fun o => some (Instr.claim o)) o.unpack_pack)
theorem claimHbm (o : OpMem) : Statement (.claimHbm o) := of_word rfl (congrArg (fun o => some (Instr.claimHbm o)) o.unpack_pack)
theorem qPush (o : OpQA) : Statement (.qPush o) := of_word rfl (congrArg (fun o => some (Instr.qPush o)) o.unpack_pack)
theorem qPop (o : OpQD) : Statement (.qPop o) := of_word rfl (congrArg (fun o => some (Instr.qPop o)) o.unpack_pack)
theorem qBind (o : OpQBind) : Statement (.qBind o) := of_word rfl (congrArg (fun o => some (Instr.qBind o)) o.unpack_pack)
theorem qCount (o : OpQD) : Statement (.qCount o) := of_word rfl (congrArg (fun o => some (Instr.qCount o)) o.unpack_pack)
theorem flagAdd (o : OpFlagAdd) : Statement (.flagAdd o) := of_word rfl (congrArg (fun o => some (Instr.flagAdd o)) o.unpack_pack)
theorem flagWait (o : OpFlagWait) : Statement (.flagWait o) := of_word rfl (congrArg (fun o => some (Instr.flagWait o)) o.unpack_pack)
theorem flagRd (o : OpFlagRd) : Statement (.flagRd o) := of_word rfl (congrArg (fun o => some (Instr.flagRd o)) o.unpack_pack)
theorem flagSet (o : OpFlagAdd) : Statement (.flagSet o) := of_word rfl (congrArg (fun o => some (Instr.flagSet o)) o.unpack_pack)
theorem barArrive (o : OpBarArrive) : Statement (.barArrive o) := of_word rfl (congrArg (fun o => some (Instr.barArrive o)) o.unpack_pack)
theorem barWait (o : OpBarWait) : Statement (.barWait o) := of_word rfl (congrArg (fun o => some (Instr.barWait o)) o.unpack_pack)
theorem barSync (o : OpBarSync) : Statement (.barSync o) := of_word rfl (congrArg (fun o => some (Instr.barSync o)) o.unpack_pack)
theorem barInit (o : OpBarInit) : Statement (.barInit o) := of_word rfl (congrArg (fun o => some (Instr.barInit o)) o.unpack_pack)
theorem msgSend (o : OpMsgSend) : Statement (.msgSend o) := of_word rfl (congrArg (fun o => some (Instr.msgSend o)) o.unpack_pack)
theorem msgRecv (o : OpD) : Statement (.msgRecv o) := of_word rfl (congrArg (fun o => some (Instr.msgRecv o)) o.unpack_pack)
theorem msgPoll (o : OpD) : Statement (.msgPoll o) := of_word rfl (congrArg (fun o => some (Instr.msgPoll o)) o.unpack_pack)
theorem bufDecl (o : OpBufDecl) : Statement (.bufDecl o) := of_word rfl (congrArg (fun o => some (Instr.bufDecl o)) o.unpack_pack)
theorem bufFree (o : OpBuf) : Statement (.bufFree o) := of_word rfl (congrArg (fun o => some (Instr.bufFree o)) o.unpack_pack)
theorem bufState (o : OpBufD) : Statement (.bufState o) := of_word rfl (congrArg (fun o => some (Instr.bufState o)) o.unpack_pack)
theorem bufFill (o : OpBuf) : Statement (.bufFill o) := of_word rfl (congrArg (fun o => some (Instr.bufFill o)) o.unpack_pack)
theorem bufFull (o : OpBuf) : Statement (.bufFull o) := of_word rfl (congrArg (fun o => some (Instr.bufFull o)) o.unpack_pack)
theorem bufDrain (o : OpBuf) : Statement (.bufDrain o) := of_word rfl (congrArg (fun o => some (Instr.bufDrain o)) o.unpack_pack)
theorem bufEmpty (o : OpBuf) : Statement (.bufEmpty o) := of_word rfl (congrArg (fun o => some (Instr.bufEmpty o)) o.unpack_pack)
theorem bufVer (o : OpBufD) : Statement (.bufVer o) := of_word rfl (congrArg (fun o => some (Instr.bufVer o)) o.unpack_pack)
theorem tbNew (o : OpA) : Statement (.tbNew o) := of_word rfl (congrArg (fun o => some (Instr.tbNew o)) o.unpack_pack)
theorem tbReg (o : OpTbIdx) : Statement (.tbReg o) := of_word rfl (congrArg (fun o => some (Instr.tbReg o)) o.unpack_pack)
theorem tbArg (o : OpTbIdx) : Statement (.tbArg o) := of_word rfl (congrArg (fun o => some (Instr.tbArg o)) o.unpack_pack)
theorem tbFlag (o : OpTbFlag) : Statement (.tbFlag o) := of_word rfl (congrArg (fun o => some (Instr.tbFlag o)) o.unpack_pack)
theorem tbTag (o : OpA) : Statement (.tbTag o) := of_word rfl (congrArg (fun o => some (Instr.tbTag o)) o.unpack_pack)
theorem tbPost (o : OpTbPost) : Statement (.tbPost o) := of_word rfl (congrArg (fun o => some (Instr.tbPost o)) o.unpack_pack)
theorem tbCancel (o : OpRRR) : Statement (.tbCancel o) := of_word rfl (congrArg (fun o => some (Instr.tbCancel o)) o.unpack_pack)
theorem twait (o : OpRRR) : Statement (.twait o) := of_word rfl (congrArg (fun o => some (Instr.twait o)) o.unpack_pack)
theorem tqState (o : OpRRR) : Statement (.tqState o) := of_word rfl (congrArg (fun o => some (Instr.tqState o)) o.unpack_pack)
theorem tqFree (o : OpD) : Statement (.tqFree o) := of_word rfl (congrArg (fun o => some (Instr.tqFree o)) o.unpack_pack)
theorem cpBox (o : OpCmd) : Statement (.cpBox o) := of_word rfl (congrArg (fun o => some (Instr.cpBox o)) o.unpack_pack)
theorem cpFill (o : OpCmd) : Statement (.cpFill o) := of_word rfl (congrArg (fun o => some (Instr.cpFill o)) o.unpack_pack)
theorem cpGather (o : OpCmd) : Statement (.cpGather o) := of_word rfl (congrArg (fun o => some (Instr.cpGather o)) o.unpack_pack)
theorem cpScatter (o : OpCmd) : Statement (.cpScatter o) := of_word rfl (congrArg (fun o => some (Instr.cpScatter o)) o.unpack_pack)
theorem shLoad (o : OpCmd) : Statement (.shLoad o) := of_word rfl (congrArg (fun o => some (Instr.shLoad o)) o.unpack_pack)
theorem shUnload (o : OpCmd) : Statement (.shUnload o) := of_word rfl (congrArg (fun o => some (Instr.shUnload o)) o.unpack_pack)
theorem palClaim (o : OpPalClaim) : Statement (.palClaim o) := of_word rfl (congrArg (fun o => some (Instr.palClaim o)) o.unpack_pack)
theorem palRel (o : OpA) : Statement (.palRel o) := of_word rfl (congrArg (fun o => some (Instr.palRel o)) o.unpack_pack)
theorem palOwn (o : OpD) : Statement (.palOwn o) := of_word rfl (congrArg (fun o => some (Instr.palOwn o)) o.unpack_pack)
theorem mmaBf16 (o : OpMma) : Statement (.mmaBf16 o) := of_word rfl (congrArg (fun o => some (Instr.mmaBf16 o)) (o.unpack_pack 3))
theorem mmaF16 (o : OpMma) : Statement (.mmaF16 o) := of_word rfl (congrArg (fun o => some (Instr.mmaF16 o)) (o.unpack_pack 2))
theorem mmaE4m3 (o : OpMma) : Statement (.mmaE4m3 o) := of_word rfl (congrArg (fun o => some (Instr.mmaE4m3 o)) (o.unpack_pack 4))
theorem mmaE5m2 (o : OpMma) : Statement (.mmaE5m2 o) := of_word rfl (congrArg (fun o => some (Instr.mmaE5m2 o)) (o.unpack_pack 5))
theorem mmaI8 (o : OpMma) : Statement (.mmaI8 o) := of_word rfl (congrArg (fun o => some (Instr.mmaI8 o)) (o.unpack_pack 14))
theorem mmaMx4 (o : OpMma) : Statement (.mmaMx4 o) := of_word rfl (congrArg (fun o => some (Instr.mmaMx4 o)) (o.unpack_pack 6))
theorem mmaF32 (o : OpMma) : Statement (.mmaF32 o) := of_word rfl (congrArg (fun o => some (Instr.mmaF32 o)) (o.unpack_pack 1))
theorem mmaF64 (o : OpMma) : Statement (.mmaF64 o) := of_word rfl (congrArg (fun o => some (Instr.mmaF64 o)) (o.unpack_pack 0))
theorem mmaZ64 (o : OpMma) : Statement (.mmaZ64 o) := of_word rfl (congrArg (fun o => some (Instr.mmaZ64 o)) (o.unpack_pack 7))
theorem accZero (o : OpCmd) : Statement (.accZero o) := of_word rfl (congrArg (fun o => some (Instr.accZero o)) o.unpack_pack)
theorem accLoad (o : OpCmd) : Statement (.accLoad o) := of_word rfl (congrArg (fun o => some (Instr.accLoad o)) o.unpack_pack)
theorem accDrain (o : OpCmd) : Statement (.accDrain o) := of_word rfl (congrArg (fun o => some (Instr.accDrain o)) o.unpack_pack)
theorem accChk (o : OpCmd) : Statement (.accChk o) := of_word rfl (congrArg (fun o => some (Instr.accChk o)) o.unpack_pack)
theorem accGive (o : OpAccGive) : Statement (.accGive o) := of_word rfl (congrArg (fun o => some (Instr.accGive o)) o.unpack_pack)
theorem leaseSet (o : OpLeaseSet) : Statement (.leaseSet o) := of_word rfl (congrArg (fun o => some (Instr.leaseSet o)) o.unpack_pack)
theorem leaseGet (o : OpD) : Statement (.leaseGet o) := of_word rfl (congrArg (fun o => some (Instr.leaseGet o)) o.unpack_pack)
theorem winMap (o : OpWinMap) : Statement (.winMap o) := of_word rfl (congrArg (fun o => some (Instr.winMap o)) o.unpack_pack)
theorem winUnmap (o : OpWin) : Statement (.winUnmap o) := of_word rfl (congrArg (fun o => some (Instr.winUnmap o)) o.unpack_pack)
theorem winAllow (o : OpWinA) : Statement (.winAllow o) := of_word rfl (congrArg (fun o => some (Instr.winAllow o)) o.unpack_pack)
theorem winStat (o : OpWinStat) : Statement (.winStat o) := of_word rfl (congrArg (fun o => some (Instr.winStat o)) o.unpack_pack)
theorem rpost (o : OpCmd) : Statement (.rpost o) := of_word rfl (congrArg (fun o => some (Instr.rpost o)) o.unpack_pack)
theorem rflag (o : OpRflag) : Statement (.rflag o) := of_word rfl (congrArg (fun o => some (Instr.rflag o)) o.unpack_pack)
theorem fenceC (o : OpFenceC) : Statement (.fenceC o) := of_word rfl (congrArg (fun o => some (Instr.fenceC o)) o.unpack_pack)
theorem fenceG (o : OpFenceG) : Statement (.fenceG o) := of_word rfl (congrArg (fun o => some (Instr.fenceG o)) o.unpack_pack)
theorem wqPop (o : OpWqPop) : Statement (.wqPop o) := of_word rfl (congrArg (fun o => some (Instr.wqPop o)) o.unpack_pack)
theorem wqCount (o : OpWqCount) : Statement (.wqCount o) := of_word rfl (congrArg (fun o => some (Instr.wqCount o)) o.unpack_pack)
theorem sigSub (o : OpSigSub) : Statement (.sigSub o) := of_word rfl (congrArg (fun o => some (Instr.sigSub o)) o.unpack_pack)
theorem sigRead (o : OpSigRead) : Statement (.sigRead o) := of_word rfl (congrArg (fun o => some (Instr.sigRead o)) o.unpack_pack)
theorem trapf : Statement .trapf := of_word rfl rfl
theorem trapfAll : Statement .trapfAll := of_word rfl rfl
theorem trap (o : OpTrap) : Statement (.trap o) := of_word rfl (congrArg (fun o => some (Instr.trap o)) o.unpack_pack)
theorem eret : Statement .eret := of_word rfl rfl
theorem crr (o : OpCrr) : Statement (.crr o) := of_word rfl (congrArg (fun o => some (Instr.crr o)) o.unpack_pack)
theorem crw (o : OpCr) : Statement (.crw o) := of_word rfl (congrArg (fun o => some (Instr.crw o)) o.unpack_pack)
theorem crs (o : OpCr) : Statement (.crs o) := of_word rfl (congrArg (fun o => some (Instr.crs o)) o.unpack_pack)
theorem crc (o : OpCr) : Statement (.crc o) := of_word rfl (congrArg (fun o => some (Instr.crc o)) o.unpack_pack)
theorem ctxSaveSoft (o : OpD) : Statement (.ctxSaveSoft o) := by
  refine of_word rfl ?_
  have h0 : o.pack.getLsbD 0 = false := by
    change @BitVec.getLsbD (6 + 34) (_ ++ 0#34) 0 = false
    rw [BitVec.getLsbD_append]; rfl
  show (if o.pack.getLsbD 0 = true then _ else some (Instr.ctxSaveSoft (OpD.unpack o.pack))) = _
  rw [h0, if_neg Bool.false_ne_true, o.unpack_pack]
theorem ctxSaveHard (o : OpSaveHard) : Statement (.ctxSaveHard o) := by
  refine of_word rfl ?_
  have h0 : o.pack.getLsbD 0 = true := by
    change @BitVec.getLsbD (39 + 1) (_ ++ 1#1) 0 = true
    rw [BitVec.getLsbD_append]; rfl
  show (if o.pack.getLsbD 0 = true then some (Instr.ctxSaveHard (OpSaveHard.unpack o.pack)) else _) = _
  rw [if_pos h0, o.unpack_pack]
theorem ctxLoad (o : OpRR) : Statement (.ctxLoad o) := of_word rfl (congrArg (fun o => some (Instr.ctxLoad o)) o.unpack_pack)
theorem resume : Statement .resume := of_word rfl rfl
theorem yield : Statement .yield := of_word rfl rfl
theorem skBind (o : OpSkBind) : Statement (.skBind o) := of_word rfl (congrArg (fun o => some (Instr.skBind o)) o.unpack_pack)
theorem skUnbind (o : OpSkN) : Statement (.skUnbind o) := of_word rfl (congrArg (fun o => some (Instr.skUnbind o)) o.unpack_pack)
theorem skWrite (o : OpSkWrite) : Statement (.skWrite o) := of_word rfl (congrArg (fun o => some (Instr.skWrite o)) o.unpack_pack)
theorem skInval (o : OpSkInval) : Statement (.skInval o) := of_word rfl (congrArg (fun o => some (Instr.skInval o)) o.unpack_pack)
theorem sks (o : OpSks) : Statement (.sks o) := by
  refine of_word rfl ?_
  show some (Instr.sks (OpSks.unpack (BitVec.ofNat 6 o.n.toNat) o.pack)) = _
  rw [BitVec.ofNat_toNat, BitVec.setWidth_eq, o.unpack_pack]
theorem vadd (o : OpV) : Statement (.vadd o) := of_word rfl (congrArg (fun o => some (Instr.vadd o)) o.unpack_pack)
theorem vsub (o : OpV) : Statement (.vsub o) := of_word rfl (congrArg (fun o => some (Instr.vsub o)) o.unpack_pack)
theorem vmul (o : OpV) : Statement (.vmul o) := of_word rfl (congrArg (fun o => some (Instr.vmul o)) o.unpack_pack)
theorem vmulh (o : OpV) : Statement (.vmulh o) := of_word rfl (congrArg (fun o => some (Instr.vmulh o)) o.unpack_pack)
theorem vmin (o : OpV) : Statement (.vmin o) := of_word rfl (congrArg (fun o => some (Instr.vmin o)) o.unpack_pack)
theorem vmax (o : OpV) : Statement (.vmax o) := of_word rfl (congrArg (fun o => some (Instr.vmax o)) o.unpack_pack)
theorem vabs (o : OpV) : Statement (.vabs o) := of_word rfl (congrArg (fun o => some (Instr.vabs o)) o.unpack_pack)
theorem vneg (o : OpV) : Statement (.vneg o) := of_word rfl (congrArg (fun o => some (Instr.vneg o)) o.unpack_pack)
theorem vadds (o : OpV) : Statement (.vadds o) := of_word rfl (congrArg (fun o => some (Instr.vadds o)) o.unpack_pack)
theorem vsubs (o : OpV) : Statement (.vsubs o) := of_word rfl (congrArg (fun o => some (Instr.vsubs o)) o.unpack_pack)
theorem vand (o : OpV) : Statement (.vand o) := of_word rfl (congrArg (fun o => some (Instr.vand o)) o.unpack_pack)
theorem vor (o : OpV) : Statement (.vor o) := of_word rfl (congrArg (fun o => some (Instr.vor o)) o.unpack_pack)
theorem vxor (o : OpV) : Statement (.vxor o) := of_word rfl (congrArg (fun o => some (Instr.vxor o)) o.unpack_pack)
theorem vnot (o : OpV) : Statement (.vnot o) := of_word rfl (congrArg (fun o => some (Instr.vnot o)) o.unpack_pack)
theorem vshl (o : OpV) : Statement (.vshl o) := of_word rfl (congrArg (fun o => some (Instr.vshl o)) o.unpack_pack)
theorem vshr (o : OpV) : Statement (.vshr o) := of_word rfl (congrArg (fun o => some (Instr.vshr o)) o.unpack_pack)
theorem vsra (o : OpV) : Statement (.vsra o) := of_word rfl (congrArg (fun o => some (Instr.vsra o)) o.unpack_pack)
theorem vmov (o : OpV) : Statement (.vmov o) := of_word rfl (congrArg (fun o => some (Instr.vmov o)) o.unpack_pack)
theorem vsel (o : OpV) : Statement (.vsel o) := of_word rfl (congrArg (fun o => some (Instr.vsel o)) o.unpack_pack)
theorem vfadd (o : OpV) : Statement (.vfadd o) := of_word rfl (congrArg (fun o => some (Instr.vfadd o)) o.unpack_pack)
theorem vfsub (o : OpV) : Statement (.vfsub o) := of_word rfl (congrArg (fun o => some (Instr.vfsub o)) o.unpack_pack)
theorem vfmul (o : OpV) : Statement (.vfmul o) := of_word rfl (congrArg (fun o => some (Instr.vfmul o)) o.unpack_pack)
theorem vfma (o : OpV) : Statement (.vfma o) := of_word rfl (congrArg (fun o => some (Instr.vfma o)) o.unpack_pack)
theorem vfms (o : OpV) : Statement (.vfms o) := of_word rfl (congrArg (fun o => some (Instr.vfms o)) o.unpack_pack)
theorem vfnma (o : OpV) : Statement (.vfnma o) := of_word rfl (congrArg (fun o => some (Instr.vfnma o)) o.unpack_pack)
theorem vfmin (o : OpV) : Statement (.vfmin o) := of_word rfl (congrArg (fun o => some (Instr.vfmin o)) o.unpack_pack)
theorem vfmax (o : OpV) : Statement (.vfmax o) := of_word rfl (congrArg (fun o => some (Instr.vfmax o)) o.unpack_pack)
theorem vfabs (o : OpV) : Statement (.vfabs o) := of_word rfl (congrArg (fun o => some (Instr.vfabs o)) o.unpack_pack)
theorem vfneg (o : OpV) : Statement (.vfneg o) := of_word rfl (congrArg (fun o => some (Instr.vfneg o)) o.unpack_pack)
theorem vdiv (o : OpV) : Statement (.vdiv o) := of_word rfl (congrArg (fun o => some (Instr.vdiv o)) o.unpack_pack)
theorem vsqrt (o : OpV) : Statement (.vsqrt o) := of_word rfl (congrArg (fun o => some (Instr.vsqrt o)) o.unpack_pack)
theorem vrcp (o : OpV) : Statement (.vrcp o) := of_word rfl (congrArg (fun o => some (Instr.vrcp o)) o.unpack_pack)
theorem vrsq (o : OpV) : Statement (.vrsq o) := of_word rfl (congrArg (fun o => some (Instr.vrsq o)) o.unpack_pack)
theorem vexp2 (o : OpV) : Statement (.vexp2 o) := of_word rfl (congrArg (fun o => some (Instr.vexp2 o)) o.unpack_pack)
theorem vlog2 (o : OpV) : Statement (.vlog2 o) := of_word rfl (congrArg (fun o => some (Instr.vlog2 o)) o.unpack_pack)
theorem vcmp (o : OpV) : Statement (.vcmp o) := of_word rfl (congrArg (fun o => some (Instr.vcmp o)) o.unpack_pack)
theorem vfcmp (o : OpV) : Statement (.vfcmp o) := of_word rfl (congrArg (fun o => some (Instr.vfcmp o)) o.unpack_pack)
theorem vclass (o : OpV) : Statement (.vclass o) := of_word rfl (congrArg (fun o => some (Instr.vclass o)) o.unpack_pack)
theorem kand (o : OpV) : Statement (.kand o) := of_word rfl (congrArg (fun o => some (Instr.kand o)) o.unpack_pack)
theorem kor (o : OpV) : Statement (.kor o) := of_word rfl (congrArg (fun o => some (Instr.kor o)) o.unpack_pack)
theorem kxor (o : OpV) : Statement (.kxor o) := of_word rfl (congrArg (fun o => some (Instr.kxor o)) o.unpack_pack)
theorem knot (o : OpV) : Statement (.knot o) := of_word rfl (congrArg (fun o => some (Instr.knot o)) o.unpack_pack)
theorem kmov (o : OpV) : Statement (.kmov o) := of_word rfl (congrArg (fun o => some (Instr.kmov o)) o.unpack_pack)
theorem kpop (o : OpV) : Statement (.kpop o) := of_word rfl (congrArg (fun o => some (Instr.kpop o)) o.unpack_pack)
theorem kfirst (o : OpV) : Statement (.kfirst o) := of_word rfl (congrArg (fun o => some (Instr.kfirst o)) o.unpack_pack)
theorem vcvt (o : OpV) : Statement (.vcvt o) := of_word rfl (congrArg (fun o => some (Instr.vcvt o)) o.unpack_pack)
theorem vqmx (o : OpV) : Statement (.vqmx o) := of_word rfl (congrArg (fun o => some (Instr.vqmx o)) o.unpack_pack)
theorem vdqmx (o : OpV) : Statement (.vdqmx o) := of_word rfl (congrArg (fun o => some (Instr.vdqmx o)) o.unpack_pack)
theorem vrotR (o : OpV) : Statement (.vrotR o) := of_word rfl (congrArg (fun o => some (Instr.vrotR o)) o.unpack_pack)
theorem vrotC (o : OpV) : Statement (.vrotC o) := of_word rfl (congrArg (fun o => some (Instr.vrotC o)) o.unpack_pack)
theorem vbcR (o : OpV) : Statement (.vbcR o) := of_word rfl (congrArg (fun o => some (Instr.vbcR o)) o.unpack_pack)
theorem vbcC (o : OpV) : Statement (.vbcC o) := of_word rfl (congrArg (fun o => some (Instr.vbcC o)) o.unpack_pack)
theorem vredR (o : OpV) : Statement (.vredR o) := of_word rfl (congrArg (fun o => some (Instr.vredR o)) o.unpack_pack)
theorem vredC (o : OpV) : Statement (.vredC o) := of_word rfl (congrArg (fun o => some (Instr.vredC o)) o.unpack_pack)
theorem vhad32 (o : OpV) : Statement (.vhad32 o) := of_word rfl (congrArg (fun o => some (Instr.vhad32 o)) o.unpack_pack)
theorem vld (o : OpVM) : Statement (.vld o) := of_word rfl (congrArg (fun o => some (Instr.vld o)) o.unpack_pack)
theorem vst (o : OpVM) : Statement (.vst o) := of_word rfl (congrArg (fun o => some (Instr.vst o)) o.unpack_pack)
theorem vgather (o : OpVM) : Statement (.vgather o) := of_word rfl (congrArg (fun o => some (Instr.vgather o)) o.unpack_pack)
theorem vscatter (o : OpVM) : Statement (.vscatter o) := of_word rfl (congrArg (fun o => some (Instr.vscatter o)) o.unpack_pack)
theorem vrand (o : OpV) : Statement (.vrand o) := of_word rfl (congrArg (fun o => some (Instr.vrand o)) o.unpack_pack)
theorem vsplat (o : OpV) : Statement (.vsplat o) := by
  intro a b c hw h
  cases h
  have hs : o.pack.extractLsb' 0 3 = o.spec := congrArg OpV.spec o.unpack_pack
  have h0 : o.spec = 0 := by simpa using (Bool.and_eq_true_iff.mp hw).1
  show (if o.pack.extractLsb' 0 3 = 1 then _ else if o.pack.extractLsb' 0 3 = 2 then _ else _) = _
  rw [hs, h0, o.unpack_pack]
  rfl
theorem vsplatPop (o : OpV) : Statement (.vsplatPop o) := by
  intro a b c hw h
  cases h
  have hs : o.pack.extractLsb' 0 3 = o.spec := congrArg OpV.spec o.unpack_pack
  have h0 : o.spec = 1 := by simpa using (Bool.and_eq_true_iff.mp hw).1
  show (if o.pack.extractLsb' 0 3 = 1 then _ else if o.pack.extractLsb' 0 3 = 2 then _ else _) = _
  rw [hs, h0, o.unpack_pack]
  rfl
theorem vsplatPush (o : OpV) : Statement (.vsplatPush o) := by
  intro a b c hw h
  cases h
  have hs : o.pack.extractLsb' 0 3 = o.spec := congrArg OpV.spec o.unpack_pack
  have h0 : o.spec = 2 := by simpa using (Bool.and_eq_true_iff.mp hw).1
  show (if o.pack.extractLsb' 0 3 = 1 then _ else if o.pack.extractLsb' 0 3 = 2 then _ else _) = _
  rw [hs, h0, o.unpack_pack]
  rfl
theorem sksv (o : OpSksv) : Statement (.sksv o) := by
  refine of_word rfl ?_
  show some (Instr.sksv (OpSksv.unpack (BitVec.ofNat 6 o.n.toNat) o.pack)) = _
  rw [BitVec.ofNat_toNat, BitVec.setWidth_eq, o.unpack_pack]
theorem crFpstatWrite (v : Word) (taskFlags : BitVec 7) : Statement (.crFpstatWrite v taskFlags) := of_none rfl
theorem crCpolWrite (v : Word) : Statement (.crCpolWrite v) := of_none rfl
theorem crTflogWrite (v : Word) : Statement (.crTflogWrite v) := of_none rfl
theorem crStatusWrite (v : Word) : Statement (.crStatusWrite v) := of_none rfl
theorem crCyccmpWrite (v : Word) : Statement (.crCyccmpWrite v) := of_none rfl
theorem crFmapWrite (n : BitVec 3) (v : Word) : Statement (.crFmapWrite n v) := of_none rfl
theorem sketchReload (block : Nat) : Statement (.sketchReload block) := of_none rfl
theorem vectorResultLand : Statement .vectorResultLand := of_none rfl
theorem kernelIterationBoundary : Statement .kernelIterationBoundary := of_none rfl
theorem holdRelease : Statement .holdRelease := of_none rfl
theorem stalledInstructionResume : Statement .stalledInstructionResume := of_none rfl
theorem taskDispatch (e : Engine) : Statement (.taskDispatch e) := of_none rfl
theorem copyChunk (n : Nat) : Statement (.copyChunk n) := of_none rfl
theorem taskComplete (e : Engine) : Statement (.taskComplete e) := of_none rfl
theorem canvasLeaseGrant : Statement .canvasLeaseGrant := of_none rfl
theorem leaseEnd : Statement .leaseEnd := of_none rfl
theorem canvasCold : Statement .canvasCold := of_none rfl
theorem gustTokenTake : Statement .gustTokenTake := of_none rfl
theorem rampWindowEnd : Statement .rampWindowEnd := of_none rfl
theorem gustTokenAdvance : Statement .gustTokenAdvance := of_none rfl
theorem preemptRequest : Statement .preemptRequest := of_none rfl
theorem cycleCompareMatch : Statement .cycleCompareMatch := of_none rfl
theorem interruptTaken : Statement .interruptTaken := of_none rfl
theorem escalatedTaskFault : Statement .escalatedTaskFault := of_none rfl
theorem saveTimeout (d : Reg) : Statement (.saveTimeout d) := of_none rfl
theorem write (p : Packet) : Statement (.write p) := of_none rfl
theorem atomic (p : Packet) : Statement (.atomic p) := of_none rfl
theorem flag (p : Packet) : Statement (.flag p) := of_none rfl
theorem msg (p : Packet) : Statement (.msg p) := of_none rfl
theorem post (p : Packet) : Statement (.post p) := of_none rfl
theorem cancel (p : Packet) : Statement (.cancel p) := of_none rfl
theorem hbm (p : Packet) : Statement (.hbm p) := of_none rfl
theorem ack (r : Response) : Statement (.ack r) := of_none rfl
theorem deny (r : Response) : Statement (.deny r) := of_none rfl
theorem reply (r : Response) : Statement (.reply r) := of_none rfl
theorem retry (r : Response) : Statement (.retry r) := of_none rfl
theorem packetResend (uid : Nat) : Statement (.packetResend uid) := of_none rfl
theorem retriedPacketResend (uid : Nat) : Statement (.retriedPacketResend uid) := of_none rfl
theorem packetHop (die : Nat) (p : Port) (resp : Bool) : Statement (.packetHop die p resp) := of_none rfl
theorem flitReplay (die : Nat) (p : LinkDir) (flit : Nat) : Statement (.flitReplay die p flit) := of_none rfl
theorem laneFailure (die : Nat) (p : LinkDir) (lane : Nat) : Statement (.laneFailure die p lane) := of_none rfl
theorem remap (die : Nat) (p : LinkDir) (lane : Nat) (flit : Nat) : Statement (.remap die p lane flit) := of_none rfl
theorem ackremap (die : Nat) (p : LinkDir) (lane : Nat) (flit : Nat) : Statement (.ackremap die p lane flit) := of_none rfl
theorem detectorThreshold (die : Nat) (p : Port) (resp : Bool) : Statement (.detectorThreshold die p resp) := of_none rfl
theorem zephyrTokenArrival (die : Nat) (gen : BitVec 16) : Statement (.zephyrTokenArrival die gen) := of_none rfl
theorem tokenPass (die : Nat) : Statement (.tokenPass die) := of_none rfl
theorem leeDelivery (die : Nat) (f : Flow) : Statement (.leeDelivery die f) := of_none rfl
theorem leeAcknowledgement (die : Nat) : Statement (.leeAcknowledgement die) := of_none rfl
theorem tokenRegeneration : Statement .tokenRegeneration := of_none rfl
theorem notify (fn : Nat) (q : Nat) (w : Word) : Statement (.notify fn q w) := of_none rfl
theorem mbxCtl (fn : Nat) (v : Word) : Statement (.mbxCtl fn v) := of_none rfl
theorem mailboxWrite (fn : Nat) (off : Nat) (bytes : List (Nat × Byte)) : Statement (.mailboxWrite fn off bytes) := of_none rfl
theorem mailboxRead (fn : Nat) (off : Nat) (len : Nat) : Statement (.mailboxRead fn off len) := of_none rfl
theorem queueEnable (fn : Nat) (q : Nat) : Statement (.queueEnable fn q) := of_none rfl
theorem queuePause (fn : Nat) (q : Nat) : Statement (.queuePause fn q) := of_none rfl
theorem queueReset (fn : Nat) (q : Nat) : Statement (.queueReset fn q) := of_none rfl
theorem registerWrite (fn : Nat) (off : Nat) (v : Word) : Statement (.registerWrite fn off v) := of_none rfl
theorem packetFetch (fn : Nat) (q : Nat) : Statement (.packetFetch fn q) := of_none rfl
theorem packetRefetch (fn : Nat) (q : Nat) : Statement (.packetRefetch fn q) := of_none rfl
theorem launch (fn : Nat) (q : Nat) (idx : Nat) : Statement (.launch fn q idx) := of_none rfl
theorem feed (fn : Nat) (q : Nat) (idx : Nat) : Statement (.feed fn q idx) := of_none rfl
theorem signal (fn : Nat) (q : Nat) (idx : Nat) : Statement (.signal fn q idx) := of_none rfl
theorem barrierAnd (fn : Nat) (q : Nat) (idx : Nat) : Statement (.barrierAnd fn q idx) := of_none rfl
theorem copy (fn : Nat) (q : Nat) (idx : Nat) : Statement (.copy fn q idx) := of_none rfl
theorem packetComplete (fn : Nat) (q : Nat) (idx : Nat) : Statement (.packetComplete fn q idx) := of_none rfl
theorem signalSubtract : Statement .signalSubtract := of_none rfl
theorem endOfJobFence (ctx : Nat) : Statement (.endOfJobFence ctx) := of_none rfl
theorem quantumExpiry : Statement .quantumExpiry := of_none rfl
theorem hostReadErrorCompletion (fn : Nat) (iova : Nat) (len : Nat) (e : HostReadError) : Statement (.hostReadErrorCompletion fn iova len e) := of_none rfl
theorem completionTimeout (fn : Nat) (iova : Nat) (len : Nat) : Statement (.completionTimeout fn iova len) := of_none rfl
theorem setQn (fn : Nat) (n : Nat) : Statement (.setQn fn n) := of_none rfl
theorem keyDelivery (ct : List Byte) (ctx : Nat) (w : BitVec 512) (tag : BitVec 128) : Statement (.keyDelivery ct ctx w tag) := of_none rfl
theorem attestationRequest (nonce : BitVec 256) : Statement (.attestationRequest nonce) := of_none rfl
theorem antiRollbackUpdate (value : Nat) : Statement (.antiRollbackUpdate value) := of_none rfl
theorem moduleReset : Statement .moduleReset := of_none rfl
theorem powerOn (b : Bringup) : Statement (.powerOn b) := of_none rfl
theorem thermalHold (die : Nat) : Statement (.thermalHold die) := of_none rfl
theorem thermalSingleToken (die : Nat) : Statement (.thermalSingleToken die) := of_none rfl
theorem thermalShutdown (die : Nat) : Statement (.thermalShutdown die) := of_none rfl
theorem patrolScrub (unit : Nat) (found : Scrub) : Statement (.patrolScrub unit found) := of_none rfl
theorem exitFromHold (die : Nat) : Statement (.exitFromHold die) := of_none rfl
theorem powerLoss : Statement .powerLoss := of_none rfl
theorem leeRouteReplacement : Statement .leeRouteReplacement := of_none rfl
theorem functionEnable (fn : Nat) : Statement (.functionEnable fn) := of_none rfl
theorem functionSettings (fn : Nat) (s : FnSettings) : Statement (.functionSettings fn s) := of_none rfl
theorem unexpectedCompletion (fn : Nat) (iova : Nat) (len : Nat) : Statement (.unexpectedCompletion fn iova len) := of_none rfl

end Sys2Proof.Laws.RoundTrip
end

