-- ==== Sys2Proof/Laws/Posting.lean ====
section
/-! SUPPORT. What entering a task answers (R298, R311–R314, R319): the task stands in the cluster, or there is no room. -/

namespace Sys2Proof.Machine

/-- Without a cancelled context, a task enters exactly when the cluster has room for it. -/
theorem enterTask_eq (s : State) (l : Label) (d : Draft) (hc : ∀ x, (s.clusterAt s.core.id.die s.core.id.clu).ctxAt s.core.cid.toNat = some x → x.cancelled = false) :
   s.enterTask s.poster l d = if (s.clusterAt s.core.id.die s.core.id.clu).hasRoom false s.core.id.core ((d.regions.filter (fun r => !r.null)).length) then
      .ok (.admitted ((s.updCluster s.core.id.die s.core.id.clu (fun k => { k with tasks := k.tasks ++ [s.newTask s.poster (s.clusterAt s.core.id.die s.core.id.clu) l d], nextTask := k.nextTask + 1 })).updCore s.core.id (fun c =>
      let c1 := if c.holds s.core.cid.toNat then { c with bufs := d.consumed.foldl (fun b h => bufConsume b h.1 h.2) c.bufs } else c
      c1.takeKey d.op))) else .ok .full := by
  unfold State.enterTask
  have h1 : (((s.clusterAt s.core.id.die s.core.id.clu).ctxAt s.core.cid.toNat).any (fun x => x.cancelled)) = false := by
    cases h : (s.clusterAt s.core.id.die s.core.id.clu).ctxAt s.core.cid.toNat with
    | none => rfl
    | some x => simp [hc x h]
  show (if ((s.clusterAt s.core.id.die s.core.id.clu).ctxAt s.core.cid.toNat).any (fun x => x.cancelled) = true then _ else _) = _
  rw [if_neg (by rw [h1]; exact Bool.false_ne_true)]
  show (if (!(s.clusterAt s.core.id.die s.core.id.clu).hasRoom false s.core.id.core _) = true then _ else _) = _
  by_cases h : (s.clusterAt s.core.id.die s.core.id.clu).hasRoom false s.core.id.core ((d.regions.filter (fun r => !r.null)).length) = true
  · rw [if_pos h, if_neg (by simp [h])]; rfl
  · rw [if_neg h, if_pos (by simpa using h)]

end Sys2Proof.Machine
end

