-- ==== Sys2Proof/Laws/Saves.lean ====
section
/-! SUPPORT. What tagging a save leaves as it was, and that a tagged save verifies (R394, R395). -/

namespace Sys2Proof.Machine
/-- Tagging changes the tags alone. -/
theorem retag_fields (a : SaveArea) (key : BitVec 256) : (a.retag key).hard = a.hard ∧ (a.retag key).part = a.part ∧ (a.retag key).ctx = a.ctx ∧
    (a.retag key).core = a.core ∧ (a.retag key).gen = a.gen ∧ (a.retag key).soft = a.soft ∧ (a.retag key).corrupt = a.corrupt := by
  rw [SaveArea.retag]
  exact ⟨rfl, rfl, rfl, rfl, rfl, rfl, rfl⟩
/-- The pages do not hold the tags. -/
theorem retag_pages (a : SaveArea) (key : BitVec 256) : (a.retag key).pages = a.pages := by
  obtain ⟨hh, hp, hc, hi, hg, hs, -⟩ := retag_fields a key
  have h : (a.retag key).sections = a.sections := by rw [SaveArea.sections, SaveArea.sections, hh, hp]
  have hr : (a.retag key).recordPage = a.recordPage := by rw [SaveArea.recordPage, SaveArea.recordPage, h, hh, hc, hi, hg, hs]
  rw [SaveArea.pages, SaveArea.pages, h, hr]
/-- A save verifies under its own context, core and generation as it was tagged. -/
theorem retag_verifies (a : SaveArea) (key : BitVec 256) : a.corrupt = false → (a.retag key).verifies key a.ctx a.core a.gen = true := by
  intro hc
  obtain ⟨-, -, -, -, hg, -, hcor⟩ := retag_fields a key
  have ht : (a.retag key).tags = a.tagsFor key a.ctx a.core a.gen := by rw [SaveArea.retag]
  have hp : (a.retag key).tagsFor key a.ctx a.core a.gen = a.tagsFor key a.ctx a.core a.gen := by rw [SaveArea.tagsFor, SaveArea.tagsFor, retag_pages]
  rw [SaveArea.verifies, hp, ht, hg, hcor, hc]
  simp

end Sys2Proof.Machine
end

