-- ==== Sys2Proof/Tests/Slice0.lean ====
section
/-! SUPPORT. Tests: words of the spec's encodings, ill-formed operands, single steps whose results are worked out from the rules, and
for every statement with hypotheses a concrete state and operands that meet them (theorems `witness_…`). -/

namespace Sys2Proof.Tests
open Sys2Proof Sys2Proof.Machine

set_option Elab.async false

/-! ## Words (R47, R52, R58, R59): the spec's own examples, with the operands that each one's text names -/

theorem test_words_integer : decode 0x0000401451000000 = some (.add ⟨5, 5, 4⟩) ∧ decode 0x0000421010400000 = some (.mul ⟨4, 1, 1⟩) ∧
    decode 0x008080104FFFFFFF = some (.addi ⟨4, 4, -1⟩) ∧ gapOf 0x008080104FFFFFFF = 2 := by decide
theorem test_words_constants : decode 0x0000C01000000003 = some (.li ⟨4, 3⟩) ∧ decode 0x0000C1280FFC0000 = some (.lih ⟨10, 0xFFC0000⟩) := by decide
theorem test_words_branches : decode 0x000601100FFFFFFE = some (.bne ⟨4, 0, -2⟩) ∧ decode 0x0006C0042FFFFFFE = some (.loop ⟨1, 2, -2⟩) := by decide
theorem test_words_float : decode 0x00048030A28B0000 = some (.fma { d := 12, a := 10, b := 10, c := 11, ty := 0, rm := 0 }) ∧
    decode 0x00040234A2800000 = some (.fmulF64 ⟨13, 10, 10, 0⟩) ∧
    decode 0x0004C21430000080 = some (.icvtf { d := 5, a := 3, sat := false, rm := 0, dst := 0, src := 8 }) := by decide
theorem test_words_memory : decode 0x00080027E0BFFFF8 = some (.ld { d := 9, a := 62, cls := 0, size := 2, sx := true, off := -8 }) ∧
    decode 0x0008000D40000005 = some (.ld { d := 3, a := 20, cls := 0, size := 0, sx := false, off := 5 }) ∧
    decode 0x0008011C95C00100 = some (.st { d := 7, a := 9, cls := 5, size := 3, sx := false, off := 0x100 }) := by decide
theorem test_words_atomics : decode 0x00088A1942C00000 = some (.atomIncbHbm { d := 6, a := 20, cls := 2, size := 3, sx := false, off := 0 }) ∧
    decode 0x0008492830800010 = some (.atomCas { d := 10, a := 3, cls := 0, size := 2, sx := false, off := 16 }) ∧
    decode 0x0008C12151000040 = some (.claimHbm { d := 8, a := 21, cls := 1, size := 0, sx := false, off := 0x40 }) := by decide
theorem test_words_synchronisation : decode 0x0009013000000003 = some (.qPop { d := 12, q := 3 }) ∧
    decode 0x0009413403000407 = some (.flagWait { d := 13, b := 12, f := 7, acq := true }) ∧
    decode 0x0009821800000600 = some (.barSync { d := 6, cls := 0, n := 0, rel := true, acq := true }) := by decide
theorem test_words_buffers_and_tasks : decode 0x000C0000A2C40003 = some (.bufDecl { a := 10, b := 11, vM1 := 1, n := 3 }) ∧
    decode 0x000D000140000000 = some (.tbNew ⟨20⟩) ∧ decode 0x000D051800200000 = some (.tbPost { d := 6, nb := true }) ∧
    decode 0x000D401841400000 = some (.twait ⟨6, 4, 5⟩) := by decide
theorem test_words_commands :
    decode 0x000E00014010C700 = some (.cpBox { d := 0, a := 20, b := 0, nb := false, fe := true, pri := 0, cls := 3, flg := 7 }) ∧
    decode 0x000E400180104900 = some (.shLoad { d := 0, a := 24, b := 0, nb := false, fe := true, pri := 0, cls := 1, flg := 9 }) ∧
    decode 0x000F820180108900 = some (.accDrain { d := 0, a := 24, b := 0, nb := false, fe := true, pri := 0, cls := 2, flg := 9 }) ∧
    decode 0x0010400145508500 = some (.rpost { d := 0, a := 20, b := 21, nb := false, fe := true, pri := 0, cls := 2, flg := 5 }) := by decide
theorem test_words_canvas : decode 0x000F000050000000 = some (.palClaim { d := 0, a := 5, nb := false }) ∧
    decode 0x000F400C00400300 = some (.mmaBf16 { d := 3, a := 0, b := 1, pri := 0, spec := 0 }) ∧
    decode 0x000F485041800702 = some (.mmaZ64 { d := 20, a := 4, b := 6, pri := 0, spec := 2 }) ∧
    decode 0x000FC00050000002 = some (.leaseSet { a := 5, t := 2 }) := by decide
theorem test_words_windows : decode 0x0010000145400013 = some (.winMap { a := 20, b := 21, n := 3, raise := true }) ∧
    decode 0x00104100554C0207 = some (.rflag { a := 5, b := 21, cls := 3, f := 7, rel := true }) ∧
    decode 0x00110100000C0001 = some (.fenceG { mask := 1, scope := 3 }) := by decide
theorem test_words_queues : decode 0x0012002803200002 = some (.wqPop { d := 10, b := 12, nb := true, n := 2 }) ∧
    decode 0x0012020050000443 = some (.sigSub { a := 5, j := 3, cls := 1, rel := true }) := by decide
theorem test_words_system : decode 0x0013410060000008 = some (.crw { d := 0, a := 6, n := 8 }) ∧ decode 0x0013020090000005 = some (.trap { a := 9, code := 5 }) ∧
    decode 0x0013801000000001 = some (.ctxSaveHard { d := 4, sp := false }) := by decide
theorem test_words_sketches : decode 0x003C002945800000 = some (.sks { n := 0, d := 10, a := 20, b := 22, imm := 0 }) ∧
    decode 0x0013C20180000000 = some (.skWrite { a := 24, j := 0 }) := by decide
theorem test_words_vector :
    decode 0x0020802218409100 = some (.vfadd { d := 8, a := 33, b := 33, c := 0, k := 9, ty := 1, z := false, rm := 0, sat := false, spec := 0 }) ∧
    decode 0x0021010841400102 = some (.vfcmp { d := 2, a := 4, b := 5, c := 0, k := 0, ty := 1, z := false, rm := 0, sat := false, spec := 2 }) ∧
    decode 0x0021451030000000 = some (.kpop { d := 4, a := 3, b := 0, c := 0, k := 0, ty := 0, z := false, rm := 0, sat := false, spec := 0 }) ∧
    decode 0x0021801680010350 = some (.vcvt { d := 5, a := 40, b := 0, c := 1, k := 0, ty := 3, z := false, rm := 5, sat := false, spec := 0 }) := by decide
theorem test_words_vector_memory :
    decode 0x0021C628B0000100 = some (.vhad32 { d := 10, a := 11, b := 0, c := 0, k := 0, ty := 1, z := false, rm := 0, sat := false, spec := 0 }) ∧
    decode 0x0022008008800000 = some (.vld { d := 32, a := 0, k := 8, size := 2, pitch := false, off := 0 }) ∧
    decode 0x0022012019800000 = some (.vst { d := 8, a := 1, k := 9, size := 2, pitch := false, off := 0 }) ∧
    decode 0x0022410C20000101 = some (.vsplatPop { d := 3, a := 2, b := 0, c := 0, k := 0, ty := 1, z := false, rm := 0, sat := false, spec := 1 }) ∧
    decode 0x012083A218A38170 = some (.vfma { d := 40, a := 33, b := 34, c := 35, k := 8, ty := 1, z := false, rm := 7, sat := false, spec := 0 }) := by decide
/-- A reserved bit, and a major of no row (R59, R61). -/
theorem test_words_reserved : decode 1 = none ∧ decode 0x0002400000000000 = none := by decide

/-! ## Ill-formed operands: one for each check of `Instr.wf` (R53, R55–R57 and the instructions' limits) -/

theorem test_refuses_bitfield : (Instr.ext ⟨4, 5, 1, 63⟩).wf = false := by decide
theorem test_refuses_rounding : (Instr.faddF64 ⟨4, 5, 6, 5⟩).wf = false ∧ (Instr.fsqrtF32 ⟨4, 5, 6⟩).wf = false := by decide
theorem test_refuses_float_types : (Instr.fma ⟨4, 5, 6, 7, 2, 0⟩).wf = false ∧ (Instr.feq ⟨4, 5, 6, 2⟩).wf = false ∧ (Instr.fcvt ⟨4, 5, false, 0, 1, 1⟩).wf = false ∧
    (Instr.fcvt ⟨4, 5, false, 0, 6, 1⟩).wf = false ∧ (Instr.fcvti ⟨4, 5, true, 0, 8, 0⟩).wf = false ∧ (Instr.icvtf ⟨4, 5, false, 0, 4, 8⟩).wf = false := by decide
theorem test_refuses_loop_on_s0 : (Instr.loop ⟨0, 1, -1⟩).wf = false := by decide
theorem test_refuses_memory : (Instr.ld ⟨4, 5, 1, 0, false, 0⟩).wf = false ∧ (Instr.st ⟨4, 5, 1, 0, true, 0⟩).wf = false := by decide
theorem test_refuses_atomics : (Instr.atomAdd ⟨4, 5, 0, 1, false, 0⟩).wf = false ∧ (Instr.atomCas ⟨5, 5, 0, 2, false, 0⟩).wf = false ∧
    (Instr.claim ⟨5, 5, 0, 0, false, 0⟩).wf = false ∧ (Instr.claimHbm ⟨4, 5, 0, 1, false, 0⟩).wf = false := by decide
theorem test_refuses_synchronisation : (Instr.flagAdd ⟨4, 0, 1, 2, false, false⟩).wf = false ∧ (Instr.barInit ⟨0, 0⟩).wf = false ∧ (Instr.barInit ⟨0, 5⟩).wf = false ∧
    (Instr.msgRecv ⟨3⟩).wf = false := by decide
theorem test_refuses_commands : (Instr.tbPost ⟨4, false⟩).wf = false ∧ (Instr.cpBox ⟨0, 4, 1, false, false, 0, 0, 0⟩).wf = false ∧
    (Instr.cpFill ⟨1, 4, 1, false, false, 0, 0, 0⟩).wf = false ∧ (Instr.rpost ⟨0, 4, 1, false, false, 0, 0, 3⟩).wf = false ∧ (Instr.palClaim ⟨1, 4, false⟩).wf = false := by decide
theorem test_refuses_canvas : (Instr.mmaBf16 ⟨48, 0, 0, 0, 0⟩).wf = false ∧ (Instr.mmaI8 ⟨0, 32, 0, 0, 0⟩).wf = false ∧ (Instr.mmaF64 ⟨0, 0, 0, 0, 1⟩).wf = false ∧
    (Instr.mmaZ64 ⟨0, 1, 0, 0, 0⟩).wf = false ∧ (Instr.accGive ⟨48, 0⟩).wf = false ∧ (Instr.leaseSet ⟨4, 5⟩).wf = false := by decide
theorem test_refuses_others : (Instr.winStat ⟨4, 1, false, true⟩).wf = false ∧ (Instr.fenceG ⟨1, 5⟩).wf = false ∧ (Instr.wqPop ⟨3, 0, false, 0⟩).wf = false ∧
    (Instr.wqPop ⟨4, 1, false, 0⟩).wf = false ∧ (Instr.crr ⟨4, 5⟩).wf = false := by decide
theorem test_refuses_vector : (Instr.vadd ⟨0, 0, 0, 0, 0, 1, false, 0, false, 0⟩).wf = false ∧ (Instr.vabs ⟨0, 0, 0, 0, 0, 9, false, 0, false, 0⟩).wf = false ∧
    (Instr.vmov ⟨0, 0, 0, 0, 0, 6, false, 0, false, 0⟩).wf = false ∧ (Instr.vfadd ⟨0, 0, 0, 0, 0, 4, false, 0, false, 0⟩).wf = false ∧
    (Instr.vdiv ⟨0, 0, 0, 0, 0, 0, false, 0, false, 0⟩).wf = false ∧ (Instr.vcmp ⟨8, 0, 0, 0, 0, 8, false, 0, false, 0⟩).wf = false ∧
    (Instr.kand ⟨1, 16, 0, 0, 0, 0, false, 0, false, 0⟩).wf = false ∧ (Instr.vcvt ⟨0, 0, 0, 1, 0, 1, false, 0, false, 0⟩).wf = false ∧
    (Instr.vredR ⟨0, 0, 0, 0, 0, 4, false, 0, false, 0⟩).wf = false ∧ (Instr.vrotC ⟨0, 0, 0, 16, 0, 1, false, 0, false, 0⟩).wf = false ∧
    (Instr.vsplatPop ⟨0, 8, 0, 0, 0, 1, false, 0, false, 1⟩).wf = false ∧ (Instr.vsplat ⟨0, 0, 0, 0, 0, 1, false, 0, false, 1⟩).wf = false := by decide
theorem test_refuses_vector_memory : (Instr.vld ⟨0, 8, 0, 2, false, 0⟩).wf = false ∧ (Instr.vgather ⟨0, 0, 0, 1, false, 0⟩).wf = false ∧
    (Instr.sksv ⟨0, ⟨0, 0, 0, 0, 0, 1, false, 0, false, 0⟩⟩).wf = false := by decide

/-! ## States to test on -/

/-- A core that runs a program in U mode, its context loaded, `nop` at its PC. -/
noncomputable def base : State := State.reset.withFetchWord 64 0
/-- With the acting core changed. -/
noncomputable def onCore (s : State) (f : Core → Core) : State := { s with core := f s.core }
noncomputable def onCluster (s : State) (f : Cluster → Cluster) : State := { s with cluster := f s.cluster }
/-- In S mode, inside a handler. -/
noncomputable def inS (s : State) : State := onCore s (fun c => { c with status := { c.status with mode := true, td := true } })
/-- With no context loaded. -/
noncomputable def unloaded (s : State) : State := onCore s (fun c => { c with status := { c.status with cv := false } })
/-- With the placed context's record in the cluster changed. -/
noncomputable def onCtx (s : State) (f : CtxCluster → CtxCluster) : State := onCluster s (fun k => { k with ctxs := k.ctxs.map f })
/-- What holds of the next state. -/
def after (o : Out) (p : State → Bool) : Bool := match o with
  | .next t => p t
  | _ => false
def isOk {α : Type} (r : Res α) : Bool := match r with
  | .ok _ => true
  | _ => false
def okWith {α : Type} [DecidableEq α] (r : Res α) (v : α) : Bool := match r with
  | .ok x => x == v
  | _ => false
def isFault {α : Type} (r : Res α) : Bool := match r with
  | .fault _ => true
  | _ => false
def isStall {α : Type} (r : Res α) : Bool := match r with
  | .stall _ => true
  | _ => false

/-! ## Single steps -/

/-- The word of R48's example: `li s4,3` writes 3 and the next word is next. -/
theorem test_step_li : after (step (State.reset.withFetchWord 64 0x0000C01000000003)) (fun t => t.rd 4 == 3 && t.core.pc == 8) = true := by decide +kernel
/-- A word with no meaning faults with ILLEGAL_OP (R61); the policy after reset is KILL_JOB. -/
theorem test_step_illegal : after (step (State.reset.withFetchWord 64 1)) (fun t => t.core.run == .exited) = true := by decide +kernel
/-- `li` sign-extends its 34 bits (R146), `lih` keeps the low 34 (R146). -/
theorem test_li_negative : after (exec (.li ⟨4, -1⟩) base) (fun t => t.rd 4 == BitVec.allOnes 64) = true := by decide +kernel
theorem test_lih : after (exec (.lih ⟨10, 0xFFC0000⟩) (base.wr 10 5)) (fun t => t.rd 10 == 0x3FF0000000000005) = true := by decide +kernel
/-- s0 discards a write (R55). -/
theorem test_s0 : after (exec (.addi ⟨0, 4, 1⟩) base) (fun t => t.rd 0 == 0 && t.core.pc == 8) = true := by decide +kernel
/-- `add` wraps; `addo` says so (R143). -/
theorem test_add_wraps : after (exec (.add ⟨4, 5, 5⟩) (base.wr 5 0x8000000000000000)) (fun t => t.rd 4 == 0) = true := by decide +kernel
theorem test_addo_overflows : after (exec (.addo ⟨4, 5, 5⟩) (base.wr 5 0x8000000000000000)) (fun t => t.core.cr.fpstat == 0x20) = true := by decide +kernel
theorem test_mulh : after (exec (.mulh ⟨4, 5, 6⟩) ((base.wr 5 (-1)).wr 6 2)) (fun t => t.rd 4 == BitVec.allOnes 64) = true := by decide +kernel
theorem test_div_by_zero : after (exec (.div ⟨4, 5, 6⟩) (base.wr 5 7)) (fun t => t.rd 4 == BitVec.allOnes 64 && t.core.cr.fpstat == 0x40) = true := by decide +kernel
theorem test_rem_sign : after (exec (.rem ⟨4, 5, 6⟩) ((base.wr 5 (-7)).wr 6 2)) (fun t => t.rd 4 == -1) = true := by decide +kernel
theorem test_sra : after (exec (.sra ⟨4, 5, 6⟩) ((base.wr 5 (-8)).wr 6 65)) (fun t => t.rd 4 == -4) = true := by decide +kernel
theorem test_ror : after (exec (.ror ⟨4, 5, 6⟩) ((base.wr 5 1).wr 6 1)) (fun t => t.rd 4 == 0x8000000000000000) = true := by decide +kernel
theorem test_ext_sign : after (exec (.ext ⟨4, 5, 4, 3⟩) (base.wr 5 0xF0)) (fun t => t.rd 4 == -1) = true := by decide +kernel
theorem test_bswap : after (exec (.bswap ⟨4, 5⟩) (base.wr 5 1)) (fun t => t.rd 4 == 0x0100000000000000) = true := by decide +kernel
theorem test_clz : after (exec (.clz ⟨4, 5⟩) (base.wr 5 1)) (fun t => t.rd 4 == 63) = true := by decide +kernel
theorem test_sltn_unsigned : after (exec (.sltn ⟨4, 5, 6⟩) ((base.wr 5 1).wr 6 (-1))) (fun t => t.rd 4 == 1) = true := by decide +kernel
theorem test_lea : after (exec (.lea ⟨4, 5, 6, 3, 16⟩) ((base.wr 5 0x100).wr 6 2)) (fun t => t.rd 4 == 0x120) = true := by decide +kernel
/-- 1.0 + 1.0 = 2.0; 1/3 is inexact (R151). -/
theorem test_fadd : after (exec (.faddF64 ⟨4, 5, 5, 0⟩) (base.wr 5 0x3FF0000000000000)) (fun t => t.rd 4 == 0x4000000000000000 && t.core.cr.fpstat == 0) = true := by
  decide +kernel
theorem test_fdiv_inexact : after (exec (.fdivF64 ⟨4, 5, 6, 0⟩) ((base.wr 5 0x3FF0000000000000).wr 6 0x4008000000000000))
    (fun t => t.rd 4 == 0x3FD5555555555555 && t.core.cr.fpstat == 0x10) = true := by decide +kernel
theorem test_fcvti_saturates : after (exec (.fcvti ⟨4, 5, false, 0, 10, 0⟩) (base.wr 5 0x41F0000000000000)) (fun t => t.rd 4 == 0x7FFFFFFF && t.core.cr.fpstat == 1) = true := by
  decide +kernel
/-- A scalar conversion that widens is exact, and SAT has no effect on it (R156): infinity stays infinity. -/
theorem test_fcvt_widens : after (exec (.fcvt ⟨4, 5, true, 0, 0, 1⟩) (base.wr 5 0x7F800000)) (fun t => t.rd 4 == 0x7FF0000000000000 && t.core.cr.fpstat == 0) = true := by
  decide +kernel
/-- A branch is taken backward by words (R158); `jal` links (R159). -/
theorem test_bne : after (exec (.bne ⟨4, 0, -2⟩) (onCore (base.wr 4 1) (fun c => { c with pc := 0x40 }))) (fun t => t.core.pc == 0x30) = true := by decide +kernel
theorem test_jal : after (exec (.jal ⟨1, 4⟩) base) (fun t => t.core.pc == 32 && t.rd 1 == 8) = true := by decide +kernel
/-- Bytes of a store stand least significant first, and a signed load extends (R4, R163, R164). -/
theorem test_store : after (exec (.st ⟨4, 0, 0, 1, false, 64⟩) (base.wr 4 0x80FE)) (fun t => cget t.core.spad 64 == 0xFE && cget t.core.spad 65 == 0x80 && cget t.core.spad 66 == 0) = true := by
  decide +kernel
theorem test_load_sign : after (exec (.ld ⟨4, 0, 0, 0, true, 64⟩) (onCore base (fun c => { c with spad := [(64, 0x80)] }))) (fun t => t.rd 4 == -128) = true := by
  decide +kernel
theorem test_atom_add : after (exec (.atomAdd ⟨4, 0, 0, 2, false, 64⟩) (onCore (base.wr 4 2) (fun c => { c with spad := [(64, 0xFF)] })))
    (fun t => t.rd 4 == 0xFF && cget t.core.spad 64 == 1 && cget t.core.spad 65 == 1) = true := by decide +kernel
/-- `claim` on {next 0, end 100, P 4, cmin 1}: ceil(100 / 8) = 13 items from 0 (R174). -/
theorem test_claim : after (exec (.claim ⟨4, 0, 0, 0, false, 64⟩) (onCore base (fun c => { c with spad := [(68, 100), (72, 4), (76, 1)] })))
    (fun t => t.rd 4 == 0 && t.rd 5 == 13 && cget t.core.spad 64 == 13) = true := by decide +kernel
/-- A trap saves the next address, its operand and its code, and enters S mode (R371, R377). -/
theorem test_trap : after (exec (.trap ⟨9, 5⟩) (onCore (base.wr 9 77) (fun c => { c with cr := { c.cr with tvec := 0x1000 } })))
    (fun t => t.core.pc == 0x1000 && t.core.cr.epc == 8 && t.core.cr.faddr == 77 && t.core.cr.cause == 0x540 && t.core.status.mode && t.core.status.td) = true := by
  decide +kernel
/-- A task builder record, a buffer's life, a stream. -/
theorem test_buffer_fill : after (exec (.bufFill ⟨3⟩) (onCore base (fun c => { c with bufs := [⟨3, 0x1000, 0x100, 2, 1, .empty⟩] })))
    (fun t => t.core.bufs == [⟨3, 0x1000, 0x100, 2, 0, .filling⟩]) = true := by decide +kernel
theorem test_stream_order : after (exec (.qPop ⟨4, 3⟩) (onCore base (fun c => c.setStream 3 ⟨true, [7, 8]⟩)))
    (fun t => t.rd 4 == 7 && (t.core.stream 3).elems == [8]) = true := by decide +kernel
theorem test_barrier_last : after (exec (.barArrive ⟨4, 0, 0, false⟩) (onCtx base (fun x => { x with barriers := x.barriers.set 0 { cnt := 1 } })))
    (fun t => t.rd 4 == 0 && (t.barrier 0).g0 == 1 && (t.barrier 0).a0 == 0) = true := by decide +kernel
theorem test_crw_cpol_in_user_mode : after (exec (.crw ⟨5, 4, 0x0B⟩) (base.wr 4 0x1234)) (fun t => t.core.cr.cpol == 0x12C0 && t.rd 5 == 0xC0C0) = true := by decide +kernel
/-- A vector word leaves its result in flight, to land two cycles after it issues (R220, R232). -/
theorem test_step_vector : after (step (State.reset.withFetchWord 64 ((encode 0 (.vadd ⟨2, 1, 1, 0, 0, 10, false, 0, false, 0⟩)).getD 0).toNat))
    (fun t => (t.core.vec.run.map (fun r => (r.next, r.flights.map (fun f => f.landAt - r.clock)))) == some (1, [2])) = true := by decide +kernel

/-! ## Witnesses: integer and floating-point statements -/

theorem witness_SumsProductsAndQuotients_overflow : overflows (((base.wr 1 0x7FFFFFFFFFFFFFFF).rd 1).toInt + ((base.wr 1 1).rd 1).toInt) ∧
    ¬ overflows ((base.rd 1).toInt + (base.rd 2).toInt) ∧ overflows (((base.wr 1 0x8000000000000000).rd 1).toInt - ((base.wr 1 1).rd 1).toInt) := by
  unfold overflows; decide +kernel
theorem witness_SumsProductsAndQuotients_quotients :
    let s := (base.wr 1 0x8000000000000000).wr 2 (-1)
    s.rd 0 = 0 ∧ ((s.rd 1).toInt = -(2 ^ 63) ∧ (s.rd 2).toInt = -1) ∧ s.rd 2 ≠ 0 ∧
    (s.rd 1 ≠ 0 ∧ ¬ ((s.rd 1).toInt = -(2 ^ 63) ∧ (s.rd 1).toInt = -1)) := by decide +kernel
theorem witness_ComparisonsAndBitFields : (OpBits.mk 4 5 0 63).pos.toNat + (OpBits.mk 4 5 0 63).lenM1.toNat + 1 ≤ 64 ∧
    (OpBits.mk 4 5 63 0).pos.toNat + (OpBits.mk 4 5 63 0).lenM1.toNat + 1 ≤ 64 := by decide

/-- The value that a register's code stands for. -/
noncomputable def valueOf (f : FloatFmt) (c : Word) : FVal := fdecode f (((base.wr 1 c).rd 1).toNat % 2 ^ f.width)
theorem witness_FloatArithmetic_f64 :
    (valueOf .f64 0x7FF8000000000000).isNan = true ∧ (valueOf .f64 0x7FF0000000000001).isSnan = true ∧ (valueOf .f64 0x7FF0000000000000).isInf = true ∧
    (valueOf .f64 0xFFF0000000000000).isInf = true ∧ (valueOf .f64 0x7FF0000000000000).sign ≠ (valueOf .f64 0xFFF0000000000000).sign ∧
    (valueOf .f64 0).isZero = true ∧ (∃ m e, valueOf .f64 1 = .fin false (m + 1) e false) ∧ (∃ z, valueOf .f64 0x8000000000000000 = .fin true 0 z false) ∧
    FloatFmt.f64.infCode = some 0x7FF0000000000000 ∧ (∃ m e, valueOf .f64 0xBFF0000000000000 = .fin true (m + 1) e false) ∧ valueOf .f64 0xFFF0000000000000 = .inf true := by
  and_intros
  on_goal 10 => exact ⟨2 ^ 52 - 1, -52, by decide +kernel⟩
  on_goal 8 => exact ⟨-1074, by decide +kernel⟩
  on_goal 7 => exact ⟨0, -1074, by decide +kernel⟩
  all_goals decide +kernel
theorem witness_FloatArithmetic_f32 :
    (valueOf .f32 0x7FC00000).isNan = true ∧ (valueOf .f32 0x7F800001).isSnan = true ∧ (valueOf .f32 0x7F800000).isInf = true ∧
    (valueOf .f32 0x7F800000).sign ≠ (valueOf .f32 0xFF800000).sign ∧ (valueOf .f32 0).isZero = true ∧ (∃ z, valueOf .f32 0x80000000 = .fin true 0 z false) ∧
    (∃ m e, valueOf .f32 0xBF800000 = .fin true (m + 1) e false) ∧ valueOf .f32 0xFF800000 = .inf true := by
  and_intros
  on_goal 7 => exact ⟨2 ^ 23 - 1, -23, by decide +kernel⟩
  on_goal 6 => exact ⟨-149, by decide +kernel⟩
  all_goals decide +kernel
/-- The sign and kind cases of a minimum, and the classes. -/
theorem witness_FloatSelectionAndComparison :
    let v := valueOf .f64
    (v 0x7FF8000000000000).isNan = true ∧ (v 0).isNan = false ∧ fltVal (v 0) (v 0x3FF0000000000000) = true ∧
    ((v 0x8000000000000000).isZero = true ∧ (v 0x8000000000000000).sign = true ∧ (v 0).sign = false ∧ (v 0).isZero = true) ∧
    v 0x7FF8000000000000 = .nan false ∧ v 0x7FF0000000000001 = .nan true ∧ v 0x7FF0000000000000 = .inf false ∧ v 0xFFF0000000000000 = .inf true ∧
    (∃ e, v 0 = .fin false 0 e false) ∧ (∃ m e, v 1 = .fin false m e false ∧ 0 < m ∧ m < 2 ^ FloatFmt.f64.mb) ∧
    (∃ m e, v 0x3FF0000000000000 = .fin false m e false ∧ 2 ^ FloatFmt.f64.mb ≤ m) := by
  intro v
  have special : v 0x7FF8000000000000 = .nan false ∧ v 0x7FF0000000000001 = .nan true ∧ v 0x7FF0000000000000 = .inf false ∧ v 0xFFF0000000000000 = .inf true := by decide +kernel
  have signs : (v 0x8000000000000000).isZero = true ∧ (v 0x8000000000000000).sign = true ∧ (v 0).sign = false ∧ (v 0).isZero = true := by decide +kernel
  exact ⟨by decide +kernel, by decide +kernel, by decide +kernel, signs, special.1, special.2.1, special.2.2.1, special.2.2.2,
    ⟨-1074, by decide +kernel⟩, ⟨1, -1074, by decide +kernel⟩, ⟨2 ^ 52, -52, by decide +kernel⟩⟩
/-- The formats that a code names. -/
theorem witness_RoundingAndFusedMultiplyAdd : ((0 : BitVec 4) = 0 ∧ FloatFmt.f64 = .f64) ∧ ((1 : BitVec 4) = 1 ∧ FloatFmt.f32 = .f32) := ⟨⟨rfl, rfl⟩, rfl, rfl⟩
/-- A value in the range of `.i8`, one below and one above. -/
theorem witness_ScalarConversions :
    let v := valueOf .f64
    let q := fun (c : Word) => match v c with
      | .fin neg m e st => (if neg then -((roundAt neg m e st 0 .rne).1 : Int) else (roundAt neg m e st 0 .rne).1)
      | _ => 0
    q 0x405FC00000000000 = 127 ∧ q 0x4060000000000000 = 128 ∧ q 0xC060200000000000 = -129 ∧ (v 0x7FF8000000000000).isNan = true ∧
    v 0xFFF0000000000000 = .inf true ∧ v 0x7FF0000000000000 = .inf false := by decide +kernel
theorem witness_ControlFlow :
    let s := (base.wr 1 8).wr 2 0x100000000
    ((s.rd 0).toInt + 0) % 2 ^ 64 % 8 = 0 ∧ (s.rd 0).toNat % 8 = 0 ∧ ((s.rd 1 + 1).toNat % 8 ≠ 0) ∧ ((s.rd 2).toNat % 8 = 0 ∧ 2 ^ 32 ≤ (s.rd 2).toNat) ∧
    ((s.rd 0).toNat + 1) % 2 ^ 64 < (s.rd 1).toNat ∧ ¬ ((s.rd 1).toNat + 1) % 2 ^ 64 < (s.rd 0).toNat := by decide +kernel

/-! ## Witnesses: memory -/

noncomputable def onDie (s : State) (f : Die → Die) : State := { s with die := f s.die }
/-- A buffer of two versions at 0x1000, in a state. -/
def bufferAt (p : BufPhase) : Buffer := ⟨3, 0x1000, 0x100, 2, 1, p⟩
noncomputable def withBuffer (p : BufPhase) : State := onCore base (fun c => { c with bufs := [bufferAt p] })
/-- A context whose virtual address 0 lies at the second 2 MiB of the die's HBM, with every permission. -/
noncomputable def mapped : State := onDie base (fun d => { d with leases := [⟨0, true, 0, []⟩], map0 := [(0, 0xF000000000000000)], map1 := [(0, 1)] })

theorem witness_AddressChecks_scratchpad :
    let c := (onCore base (fun c => { c with grant := 0x10000 })).core
    let m := (inS base).core
    let b := fun p => (withBuffer p).core
    c.grant < 0x10000 + 1 ∧ 0x400000 < 0x400000 - 1 + 2 ∧ (0x400000 - 8 + 8 ≤ 0x400000 ∧ m.status.mode = true) ∧ (0x10000 - 8 + 8 ≤ c.grant ∧ c.status.mode = false) ∧
    (∀ x ∈ c.bufs, 1 ≤ x.v ∧ (8 ≤ x.base ∨ x.base + x.v * x.size ≤ 0)) ∧
    (∀ x ∈ (b .full).bufs, 1 ≤ x.v ∧ (0xFF8 + 8 ≤ x.base ∨ x.base + x.v * x.size ≤ 0xFF8)) ∧
    ((b .full).bufs = [bufferAt .full] ∧ 0x1000 ≤ 0x10F8 ∧ 0x10F8 + 8 ≤ 0x1000 + 0x100) ∧ (bufferAt .empty).phase = .empty ∧ (bufferAt .full).phase ≠ .filling ∧
    (bufferAt .filling).phase = .filling := by
  decide +kernel
theorem witness_LoadsAndStores :
    okWith (spadCheck base.core base.cluster.tasks 0x3FFFF8 8 .load) 0x3FFFF8 = true ∧ okWith (spadCheck base.core base.cluster.tasks 0 1 .store) 0 = true ∧
    okWith (spadCheck (withBuffer .filling).core base.cluster.tasks 0x1008 8 .store) 0x1108 = true := by decide +kernel
theorem witness_AddressChecks_claims : ((base.wr 5 0x408).rd 5).toNat % 16 ≠ 0 ∧ ((base.wr 5 0x400000).rd 5).toNat % 16 = 0 ∧
    isFault (spadCheck (withBuffer .full).core [] 0x1000 16 .atomic) = true := by decide +kernel
theorem witness_AddressChecks_places :
    let ea := fun (v : Word) (off : BitVec 21) => ((base.wr 5 v).rd 5 + BitVec.ofInt 64 off.toInt).toNat
    2 ^ 32 ≤ ea 0x100000000 0 ∧ (ea 0xFFFFFFFF 0 < 2 ^ 32 ∧ ea 0xFFFFFFFF 0 % 8 ≠ 0) ∧ (0x40000000 ≤ ea 0x40000000 0 ∧ ea 0x7FFFFFF8 0 < 0x80000000) ∧
    (0x400000 ≤ ea 0x400000 0 ∧ ea 0x3FFFFFF8 0 < 0x40000000) ∧ (0x80000000 ≤ ea 0x80000000 0 ∧ ea 0xEFFFFFF8 0 < 0xF0000000) ∧
    (0xF0100000 ≤ ea 0xF0100000 0 ∧ ea 0xFFFFFFF8 0 < 2 ^ 32) ∧ (0xF0000000 ≤ ea 0xF0000000 0 ∧ ea 0xF00FFFF8 0 < 0xF0100000 ∧ base.core.status.mode = false) ∧
    isFault (spadCheck (withBuffer .empty).core [] 0x1000 8 .load) = true ∧ isFault (spadCheck (withBuffer .full).core [] 0x1000 8 .store) = true := by decide +kernel
theorem witness_AtomicsAndClaims :
    okWith (spadCheck base.core base.cluster.tasks 64 4 .atomic) 64 = true ∧ okWith (spadCheck base.core base.cluster.tasks 0x3FFFF8 8 .atomic) 0x3FFFF8 = true ∧
    okWith (spadCheck base.core base.cluster.tasks 0x3FFFF0 16 .atomic) 0x3FFFF0 = true := by decide +kernel
theorem witness_NearMemoryAtomics :
    mapped.core.status.cv = true ∧ mapped.die.die = mapped.core.id.die ∧
    hbmLookup mapped.die mapped.core.cid.toNat 0x40 = some { dpa := 0x200040, rd := true, wr := true, at_ := true, key := 0 } ∧ 0x200040 / 2 ^ 38 = mapped.core.id.die ∧
    (cget mapped.modul.hbmKey (0x200040 / 64)).toNat = 0 ∧ cget mapped.modul.hbmPoison (0x200040 / 64) = 0 ∧ 0x40 % 2 ^ 3 = 0 ∧ 0x40 % 16 = 0 := by decide +kernel
/-- The same extent with AT = 0, poisoned, held back by a fence, and in the HBM of die 1. -/
noncomputable def mappedTo (w0 w1 : Word) : State := onDie mapped (fun d => { d with map0 := [(0, w0)], map1 := [(0, w1)] })
noncomputable def fenced : State := onCore mapped (fun c => { c with effects := [⟨4, 0, 2, 0, 0, 1, none, false⟩], fences := [{ mask := 4, uids := [4] }] })
theorem witness_NearMemoryAtomics_others :
    2 ^ 48 ≤ ((base.wr 5 0x1000000000000).rd 5).toNat ∧ 0x44 % 2 ^ 3 ≠ 0 ∧ 0x48 % 16 ≠ 0 ∧ hbmLookup base.die base.core.cid.toNat 0x40 = none ∧
    (hbmLookup (mappedTo 0xE000000000000000 1).die 0 0x40).map (fun h => h.at_) = some false ∧
    fenceHolds fenced.core.fences fenced.core.effects (fenced.dieNumber 0) 2 = true ∧ fenceHolds mapped.core.fences mapped.core.effects (mapped.dieNumber 0) 2 = false ∧
    cget ({ mapped with modul := { mapped.modul with hbmPoison := [(0x8001, 1)] } }).modul.hbmPoison (0x200040 / 64) ≠ 0 ∧
    (let s := mappedTo 0xF000000000000000 0x20000
     (hbmLookup s.die 0 0x40).map (fun h => (h.at_, h.dpa / 2 ^ 38)) = some (true, 1) ∧ s.ownCluster s.core.id { die := s.dieNumber 1, clu := 0, core := 0 } = false ∧
     s.die.pairRoom (s.dieNumber 1) 2 = true) := by decide +kernel
/-- The statement's first case at that state: 2 added to a zero. -/
theorem test_atom_hbm : after (exec (.atomAddHbm ⟨4, 5, 0, 2, false, 0⟩) ((mapped.wr 4 2).wr 5 0x40)) (fun t => t.rd 4 == 0 && cget t.modul.hbm 0x200040 == 2) = true := by
  decide +kernel

/-! ## Witnesses: synchronisation -/

noncomputable def withStream (bound : Bool) (es : List Word) : State := onCore base (fun c => c.setStream 3 ⟨bound, es⟩)
/-- A pending task of the core with the region given. -/
noncomputable def pendingTask (rs : List Region) : Task := { placedTask 0 with id := 9, op := .copy 0 0, phase := .ready, regions := rs }
def streamRegion : Region := ⟨false, true, false, false, .strm, 8, 24, [(1, 0)], 0⟩
theorem witness_StreamRegisters : base.core.status.cv = true ∧
    (((withStream true []).core.stream 3).bound = true ∧ ((withStream true []).core.stream 3).elems.length < 64) ∧
    64 ≤ ((withStream true (List.replicate 64 0)).core.stream 3).elems.length ∧ (base.core.stream 3).bound = false ∧
    ((withStream true [7, 8]).core.stream 3).elems = 7 :: [8] ∧ ((withStream true []).core.stream 3).elems = [] := by decide +kernel
theorem witness_StreamRegisters_named : let s := onCluster base (fun k => { k with tasks := [pendingTask [streamRegion]] })
    ∃ t ∈ s.cluster.tasks, t.ctx = s.core.cid.toNat ∧ t.core = s.core.id.core ∧ t.remote = false ∧
      ∃ r ∈ t.regions, r.null = false ∧ r.space = .strm ∧ r.core = s.core.id.core ∧ r.lo ≤ 8 * 3 ∧ (8 * 3 : Int) ≤ r.hi :=
  ⟨pendingTask [streamRegion], List.mem_cons_self .., by decide +kernel, by decide +kernel, by decide +kernel, streamRegion, List.mem_cons_self .., by decide +kernel⟩
theorem test_qbind_waits_for_a_task : after (exec (.qBind ⟨3, true⟩) (onCluster base (fun k => { k with tasks := [pendingTask [streamRegion]] })))
    (fun t => t.core.stall == some .tasks && t.core.pc == 0) = true := by decide +kernel

/-- The word that names core 1 of cluster 5 of die 1, which lies to the right in the torus of 2 by 2 by 1. -/
def farWord : Word := BitVec.ofNat 64 (1 * 2 ^ 6 + 5 * 2 ^ 2 + 1)
theorem witness_Messages : (base.core.inbox = []) ∧ ((onCore base (fun c => { c with inbox := [⟨7, 8⟩] })).core.inbox = ⟨7, 8⟩ :: []) := by decide +kernel
theorem witness_Messages_send : let s := base.wr 5 farWord
    msgAbsent s (s.rd 5) = false ∧ s.inTorus (s.target (s.rd 5)).die = true ∧ s.ownCluster s.core.id (s.target (s.rd 5)) = false ∧ s.core.msgsOut.length < 16 ∧
    s.die.retryBlocks (s.target (s.rd 5)) 2 (isMsgTo (s.target (s.rd 5)).core) = false ∧ fenceHolds s.core.fences s.core.effects (s.target (s.rd 5)).die 2 = false ∧
    s.core.directOut < 16 ∧ s.die.pairRoom (s.target (s.rd 5)).die 2 = true := by decide +kernel
/-- A request of the acting core has left as one packet with its own effect. -/
noncomputable def left (s : State) (t : Target) (cls : BitVec 4) (body : PktBody) (window : Option Nat) (u : State) : Bool :=
  (u.dieAt 0).unacked.map (fun p => (p.uid, p.dst, p.clu, p.core, p.cls, p.body, p.src, p.seq)) ==
    [(s.modul.nextUid, t.die, t.clu, t.core, cls, body, s.dieNumber 0, nextSeq (s.dieAt 0).seqs t.die cls)] &&
  (u.dieAt 0).unacked.all (fun p => p.from_ == { core := s.core.id, ctx := s.core.cid.toNat, window := window, task := none }) &&
  nextSeq (u.dieAt 0).seqs t.die cls == nextSeq (s.dieAt 0).seqs t.die cls + 1 &&
  u.core.effects == s.core.effects ++ [{ uid := s.modul.nextUid, ctx := s.core.cid.toNat, cls := cls, die := t.die, clu := t.clu, core := t.core, task := none }]
theorem test_message_leaves : let s := base.wr 5 farWord
    after (exec (.msgSend ⟨4, 5, 2⟩) s) (fun u => left s ⟨1, 5, 1⟩ 2 (.msg 0) none u && u.core.directOut == 1 && u.core.msgsOut == [0] && u.core.pc == 8) = true := by
  decide +kernel
/-- At the allowance, and with 16 messages not yet accepted, it waits. -/
theorem test_message_waits : let s := base.wr 5 farWord
    after (exec (.msgSend ⟨4, 5, 2⟩) (onCore s (fun c => { c with directOut := 16 }))) (fun u => u.core.stall == some .allowance) = true ∧
    after (exec (.msgSend ⟨4, 5, 2⟩) (onCore s (fun c => { c with msgsOut := List.range 16 }))) (fun u => u.core.stall == some .message) = true := by decide +kernel

/-- A context whose flag 7 on core 0 is mapped to physical flag 9. -/
noncomputable def flagged : State := onCtx base (fun x => { x with cores := x.cores.set 0 { (x.cores[0]) with fmap := (x.cores[0]).fmap.set 0 0xC900000000000000 } })
noncomputable def ownCtx (s : State) : CtxCluster := (s.cluster.ctxAt s.core.cid.toNat).getD { ctx := 0, fjob := 0 }
theorem witness_FlagsOfTheOwnCore : let s := (flagged.wr 5 (-1)); let x := ownCtx s
    s.core.status.cv = true ∧ (s.cluster.die = s.core.id.die ∧ s.cluster.clu = s.core.id.clu ∧ s.die.die = s.core.id.die) ∧
    s.cluster.ctxAt s.core.cid.toNat = some x ∧ (x.coreFlags s.core.id.core).launched = true ∧ flagEntry (x.coreFlags s.core.id.core).fmap 7 = (true, true, 9) ∧
    (flagEntry (x.coreFlags s.core.id.core).fmap 8).1 = false ∧ outstanding s (fenceSet s (1 <<< 3) 3) = false ∧
    ((0 : BitVec 32) - BitVec.ofNat 32 (s.rd 5).toNat).toNat < 2 ^ 31 ∧ 2 ^ 31 ≤ ((0 : BitVec 32) - 1).toNat := by decide +kernel
/-- Core 1 of the cluster, launched, its flag 7 the physical flag 9 and not resident, and one that is; a fence that holds the own die back. -/
noncomputable def flaggedFar (entry : Word) : State :=
  onCtx base (fun x => { x with cores := x.cores.set 1 { (x.cores[1]) with launched := true, fmap := (x.cores[1]).fmap.set 0 entry } })
theorem witness_FlagsOfTheOwnCore_other : let s := flaggedFar 0x8900000000000000; let x := ownCtx s
    s.placed ∧ s.cluster.ctxAt s.core.cid.toNat = some x ∧ (x.coreFlags 1).launched = true ∧ flagEntry (x.coreFlags 1).fmap 7 = (true, false, 9) ∧
    ((s.coreAt ⟨0, 0, 1⟩).holds x.ctx = false) ∧ (flagEntry ((ownCtx (flaggedFar 0xC900000000000000)).coreFlags 1).fmap 7).2.1 = true ∧ (⟨0, 0, 1⟩ : CoreId) ≠ s.core.id ∧
    fenceHolds fenced.core.fences fenced.core.effects (fenced.dieNumber 0) 2 = true ∧ ((ownCtx (onCtx base (fun x => { x with cores := x.cores.set 2 {} }))).coreFlags 2).launched = false := by
  refine ⟨⟨by decide +kernel, by decide +kernel, by decide +kernel⟩, ?_⟩
  decide +kernel
theorem test_flag_of_another_core : after (exec (.flagAdd ⟨5, 2, 7, 1, true, false⟩) ((flaggedFar 0x8900000000000000).wr 5 3))
      (fun t => ((ownCtx t).coreFlags 1).pendV[7] == 3 && (t.coreAt ⟨0, 0, 1⟩).flags[9] == 0 && t.core.pc == 8) = true ∧
    after (exec (.flagSet ⟨5, 2, 7, 1, true, false⟩) ((flaggedFar 0xC900000000000000).wr 5 3)) (fun t => (t.coreAt ⟨0, 0, 1⟩).flags[9] == 3 && t.core.flags[9] == 0) = true := by
  decide +kernel
theorem test_flag_add : after (exec (.flagAdd ⟨5, 0, 7, 0, false, false⟩) (flagged.wr 5 3)) (fun t => t.core.flags[9] == 3 && t.core.flags[7] == 0) = true := by decide +kernel
theorem test_flag_wait : after (exec (.flagWait ⟨4, 5, 7, false⟩) (flagged.wr 5 1)) (fun t => t.core.stall == some .flag) = true := by decide +kernel

noncomputable def withBarrier (b : Barrier) : State := onCtx base (fun x => { x with barriers := x.barriers.set 0 b })
theorem witness_Barriers : base.core.id.core = 0 ∧ (base.barrier 0).cnt = 0 ∧ ((withBarrier { cnt := 2 }).barrier 0).cnt ≠ 0 ∧
    (((withBarrier { cnt := 2, cores := Vector.replicate 4 { pd0 := true } }).barrier 0).cores[0]).pd0 = true ∧
    0 + 1 = ((withBarrier { cnt := 1 }).barrier 0).cnt ∧ 0 + 1 ≠ ((withBarrier { cnt := 2 }).barrier 0).cnt ∧
    (((base.wr 5 2).rd 5).toNat / 2 % 2 ^ 32 ≠ (base.barrier 0).g0.toNat) ∧ ((base.rd 5).toNat / 2 % 2 ^ 32 = (base.barrier 0).g0.toNat) ∧
    base.cluster.ctxAt base.core.cid.toNat = some (ownCtx base) := by decide +kernel
/-- The first of two arrivals counts and sets its own pending bit; an own pending one waits; a count of 0 waits; the only core of a barrier passes its sync. -/
theorem test_barrier_first : after (exec (.barArrive ⟨4, 0, 0, false⟩) (withBarrier { cnt := 2, g0 := 5 }))
    (fun t => t.rd 4 == 10 && (t.barrier 0).a0 == 1 && (t.barrier 0).g0 == 5 && ((t.barrier 0).cores[0]).pd0 && ((t.barrier 0).cores[0]).lp) = true := by decide +kernel
theorem test_barrier_waits : after (exec (.barArrive ⟨4, 0, 0, false⟩) base) (fun t => t.core.stall == some .barrier) = true ∧
    after (exec (.barArrive ⟨4, 0, 0, false⟩) (withBarrier { cnt := 2, cores := Vector.replicate 4 { pd0 := true } })) (fun t => t.core.stall == some .barrier) = true := by
  decide +kernel
theorem test_barrier_sync : after (exec (.barSync ⟨4, 0, 0, false, false⟩) (withBarrier { cnt := 1, g0 := 5 }))
    (fun t => t.rd 4 == 10 && t.core.pc == 8 && (t.barrier 0).g0 == 6 && ((t.barrier 0).cores[0]).lp && !((t.barrier 0).cores[0]).sip) = true := by decide +kernel
theorem test_barrier_init : after (exec (.barInit ⟨0, 3⟩) (withBarrier { cnt := 2, a0 := 1, g0 := 5, g1 := 7, cores := Vector.replicate 4 { pd0 := true, lp := true } }))
    (fun t => t.barrier 0 == { cnt := 3, g0 := 6, g1 := 8 } && t.core.pc == 8) = true := by decide +kernel

theorem witness_Buffers : (∀ p ∈ [BufPhase.empty, .filling, .full, .draining], (withBuffer p).core.bufs.find? (fun x => x.id = 3) = some (bufferAt p)) ∧
    (0, BufPhase.empty, BufPhase.filling) ∈ bufferTable ∧ (∀ a, (1, BufPhase.empty, a) ∉ bufferTable) ∧ (∀ b ∈ base.core.bufs, b.id ≠ 3) ∧
    (0x1000 + 2 * 0x100 ≤ base.core.grant ∧ 0x1000 % 64 = 0 ∧ 0x100 % 64 = 0) ∧ spadPending base.ownTasks 0 0x1000 0x1200 = false := by
  refine ⟨by decide +kernel, by decide +kernel, fun a => by cases a <;> decide +kernel, by decide +kernel, by decide +kernel, by decide +kernel⟩
theorem test_buffer_declared : after (exec (.bufDecl ⟨5, 6, 1, 3⟩) ((base.wr 5 0x1000).wr 6 0x100)) (fun t => t.core.bufs == [⟨3, 0x1000, 0x100, 2, 1, .empty⟩]) = true := by
  decide +kernel
theorem test_buffer_state : after (exec (.bufState ⟨4, 3⟩) (withBuffer .full)) (fun t => t.rd 4 == 256 + 32 + 4 + 2) = true ∧
    after (exec (.bufVer ⟨4, 3⟩) (withBuffer .full)) (fun t => t.rd 4 == 0x1100) = true ∧
    after (exec (.bufFree ⟨3⟩) (withBuffer .full)) (fun t => t.core.bufs == []) = true := by decide +kernel

/-! ## Witnesses: tasks -/

/-- Doublewords in own scratchpad. -/
noncomputable def withDwords (s : State) (a : Nat) (l : List Nat) : State :=
  onCore s (fun c => { c with spad := (l.zipIdx).foldl (fun m p => writeLE m (a + 8 * p.2) 8 p.1) c.spad })
/-- Doubleword 0 of a descriptor with elements of 8 bytes in one dimension (R96), and its dimension of n elements 8 bytes apart. -/
def descWord (base space rights : Nat) : Nat := base + space * 2 ^ 48 + 3 * 2 ^ 51 + rights * 2 ^ 55
def descDims (n : Nat) : Nat := (n - 1) + 8 * 2 ^ 16
/-- A copy block at 0x40: two elements from 0x1000 to 0x2000. -/
noncomputable def withCopyBlock : State := (withDwords base 0x40 [descWord 0x1000 0 1, descDims 2, 0, 0, descWord 0x2000 0 2, descDims 2, 0, 0]).wr 20 0x40
/-- A canvas record at 0x40 (KIND 1, OP 0) and an empty builder; and a task staged with no region. -/
noncomputable def withRecord : State := (withDwords base 0x40 [2 ^ 56]).wr 20 0x40
def stagedCanvas : Staged := { rec_ := 2 ^ 56, header := none, regions := [], args := List.replicate 8 0, walkers := [] }
def stagedFill : Staged := { rec_ := 2 ^ 57 + 2 ^ 51, header := none, regions := [0], args := List.replicate 8 0, walkers := [] }
noncomputable def building (g : Staged) : State := onCore base (fun c => { c with builder := some g })
noncomputable def crowded (s : State) : State := onCluster s (fun k => { k with tasks := List.replicate 224 (pendingTask []) })

theorem witness_TaskBuilder :
    let v := (2 : Nat) ^ 56
    2 ^ 32 ≤ ((base.wr 20 0x100000000).rd 20).toNat ∧ ((base.wr 20 0x48).rd 20).toNat % 64 ≠ 0 ∧ ((withRecord).rd 20).toNat % 64 = 0 ∧
    okWith (coreLoadD withRecord 0x40 8) v = true ∧ recKind (BitVec.ofNat 512 v) = 1 ∧ recOp (BitVec.ofNat 512 v) ≤ 8 ∧ recNr (BitVec.ofNat 512 v) ≤ 8 ∧
    recNa (BitVec.ofNat 512 v) ≤ 8 ∧ isOk (stage withRecord 0x40) = true ∧ isFault (stage (withDwords base 0x40 [2 ^ 56 + 9 * 2 ^ 51]) 0x40) = true ∧
    (building stagedFill).core.builder = some stagedFill ∧ 0 < stagedFill.regions.length ∧ isOk (coreLoadEntry base 0x40) = true ∧
    recKind stagedFill.rec_ = 2 ∧ stagedFill.regions.length ≤ 1 ∧ recKind stagedCanvas.rec_ ≠ 0 ∧ recKind stagedCanvas.rec_ ≠ 2 ∧ base.core.builder = none := by
  decide +kernel
theorem test_tbnew : after (exec (.tbNew ⟨20⟩) withRecord) (fun t => t.core.builder == some stagedCanvas && t.core.pc == 8) = true := by decide +kernel
theorem test_tbreg_tbarg : after (exec (.tbReg ⟨20, 0⟩) (withDwords (building stagedFill) 0 [7] |>.wr 20 0)) (fun t => (t.core.builder.map (fun g => g.regions)) == some [7]) = true ∧
    after (exec (.tbArg ⟨20, 2⟩) ((building stagedFill).wr 20 5)) (fun t => (t.core.builder.map (fun g => g.args)) == some [0, 0, 5, 0, 0, 0, 0, 0]) = true := by decide +kernel
theorem test_tbflag_tbtag : after (exec (.tbFlag ⟨5, true⟩) (building stagedCanvas)) (fun t => (t.core.builder.map (fun g => g.rec_)) == some (2 ^ 56 + 2 ^ 44 + 5 * 2 ^ 38)) = true ∧
    after (exec (.tbTag ⟨20⟩) ((building stagedCanvas).wr 20 0x12345)) (fun t => (t.core.builder.map (fun g => g.rec_)) == some (2 ^ 56 + 0x2345 * 2 ^ 22)) = true := by decide +kernel

noncomputable def boxDraft (s : State) : Res Draft := (coreLoadEntries s 0x40 2).bind fun es => draftCopy s s.poster 0 0 es
theorem witness_PostedTasks_commands :
    withCopyBlock.core.status.cv = true ∧ withCopyBlock.core.aside = none ∧ (ownCtx withCopyBlock).cancelled = false ∧
    (withCopyBlock.rd 20).toNat < 2 ^ 32 ∧ (withCopyBlock.rd 20).toNat % 32 = 0 ∧ isOk (boxDraft withCopyBlock) = true ∧ isFault (boxDraft base) = true ∧
    (withCopyBlock.clusterAt 0 0).hasRoom false 0 2 = true ∧ ((crowded withCopyBlock).clusterAt 0 0).hasRoom false 0 2 = false := by decide +kernel
theorem witness_PostedTasks_cancelled : let s := onCtx withCopyBlock (fun x => { x with cancelled := true })
    s.core.status.cv = true ∧ s.placed ∧ s.cluster.ctxAt s.core.cid.toNat = some (ownCtx s) ∧ (ownCtx s).cancelled = true ∧ isOk (boxDraft s) = true ∧
    (onCore withCopyBlock (fun c => { c with aside := some { pc := 0, regs := Vector.replicate 64 0, fpctl := 0, fpstat := 0, fpen := 0, cpol := 0, tflog := 0,
                                                             bkey := 0, bseq := 0, epc := 0, flags := Vector.replicate 64 0 } })).core.aside ≠ none := by
  refine ⟨by decide +kernel, ⟨by decide +kernel, by decide +kernel, by decide +kernel⟩, ?_⟩
  decide +kernel
theorem test_copy_posted : after (exec (.cpBox ⟨4, 20, 0, true, true, 2, 3, 7⟩) withCopyBlock) (fun t => t.rd 4 == 1 && t.core.pc == 8 &&
    (t.cluster.tasks.map (fun k => (k.id, k.phase, k.pri, k.cls, k.flag, k.entries, k.regions.map (fun r => (r.base, r.dims, r.rd, r.wr))))) ==
      [(0, .ready, 2, 3, some 7, 2, [(0x1000, [(2, 8)], true, false), (0x2000, [(2, 8)], false, true)])]) = true := by decide +kernel
/-- A later task that reads what an earlier one writes waits for it; a full quota stalls. -/
theorem test_copy_waits : after (exec (.cpBox ⟨0, 20, 0, false, false, 0, 0, 0⟩)
      (onCluster withCopyBlock (fun k => { k with tasks := [pendingTask [⟨false, false, true, false, .spad, 8, 0x1008, [(1, 0)], 0⟩]], nextTask := 10 })))
    (fun t => (t.cluster.tasks.map (fun k => (k.id, k.phase, k.waits))) == [(9, .ready, []), (10, .waiting, [9])]) = true ∧
    after (exec (.cpBox ⟨0, 20, 0, false, false, 0, 0, 0⟩) (crowded withCopyBlock)) (fun t => t.core.stall == some .quota) = true := by decide +kernel

/-- A staged `cp.fill` of a null region, and a record to post to a far core. -/
noncomputable def nullFill : Staged := { stagedFill with rec_ := 2 ^ 57 + 2 ^ 51 + 5 * 2 ^ 22, regions := [2 ^ 58] }
/-- A `cp.fill` record at 0x40 whose block at 0x80 is a null region, to be posted to a far core. -/
noncomputable def withFarRecord : State := (((withDwords (withDwords base 0x40 [2 ^ 57 + 2 ^ 51, 0x80]) 0x80 [2 ^ 58]).wr 20 0x40).wr 21 farWord)
theorem witness_PostedTasks_staged :
    (building nullFill).core.builder = some nullFill ∧ isOk (draftStaged (building nullFill) (building nullFill).poster nullFill) = true ∧
    isFault (draftStaged base base.poster stagedCanvas) = true ∧ base.core.builder = none ∧ (base.clusterAt 0 0).hasRoom false 0 0 = true ∧
    ((crowded base).clusterAt 0 0).hasRoom false 0 0 = false ∧
    okWith (checkTarget withFarRecord (withFarRecord.rd 21)) ⟨1, 5, 1⟩ = true ∧ (withFarRecord.rd 20).toNat % 64 = 0 ∧ isOk (remoteStage withFarRecord 0x40) = true := by decide +kernel
theorem test_tbpost : after (exec (.tbPost ⟨0, false⟩) (building nullFill)) (fun t => t.core.builder == some nullFill &&
    (t.cluster.tasks.map (fun k => (k.tag, k.op, k.pri, k.flag, k.entries))) == [(5, .copy 1 0, 0, none, 0)]) = true := by decide +kernel
theorem test_rpost : after (exec (.rpost ⟨0, 20, 21, false, false, 1, 2, 0⟩) withFarRecord) (fun t =>
    (t.cluster.tasks.map (fun k => (k.op, k.phase, k.pri, k.cls, k.regions))) ==
      [(.rpost farWord (.post (2 ^ 57 + 2 ^ 51 + 0x80 * 2 ^ 64) none [2 ^ 58] (List.replicate 8 0)), .ready, 1, 2, [])]) = true := by decide +kernel

/-- A context that owns slots 0, 1, 4–7 and tile 3 on core 0, within a grant of slots 0–15. -/
noncomputable def owning : State := onCtx base (fun x => { x with palGrant := 0xFFFF, slotOwner := [(0, 0), (1, 0), (4, 0), (5, 0), (6, 0), (7, 0)], tileOwner := [(3, 0)] })
noncomputable def without64 (s : State) : State := { s with modul := { s.modul with caps := { s.modul.caps with zmat := false } } }
theorem witness_MatrixCommands : let x := ownCtx owning
    owning.core.status.cv = true ∧ owning.core.aside = none ∧ owning.cluster.ctxAt 0 = some x ∧ x.cancelled = false ∧
    (∀ n ∈ [0, 1, 4, 5, 6, 7], (n, owning.core.id.core) ∈ x.slotOwner) ∧ ¬ (2, owning.core.id.core) ∈ x.slotOwner ∧ (3, owning.core.id.core) ∈ x.tileOwner ∧
    ¬ (4, owning.core.id.core) ∈ x.tileOwner ∧ (without64 owning).modul.caps.zmat = false ∧ owning.modul.caps.zmat = true ∧
    (owning.clusterAt 0 0).hasRoom false 0 5 = true ∧ ((crowded owning).clusterAt 0 0).hasRoom false 0 3 = false := by decide +kernel
theorem test_mma_posted : after (exec (.mmaF64 ⟨3, 0, 1, 2, 4⟩) owning) (fun t =>
    (t.cluster.tasks.map (fun k => (k.op, k.pri, k.regions.map (fun r => (r.space, r.base, r.dims, r.rd, r.wr))))) ==
      [(.mma 7 3 0 1 4, 2, [(.pal, 0, [(16384, 8)], true, false), (.pal, 0x20000, [(16384, 8)], true, false), (.acc, 3 * 0x40000 + 0x20000, [(16384, 8)], true, true)])]) = true := by
  decide +kernel
theorem test_mma_checks : after (exec (.mmaBf16 ⟨3, 0, 2, 0, 0⟩) owning) (fun t => t.modul.jobs.map (fun j => j.report) == [some (12, .palState)]) = true ∧
    after (exec (.mmaBf16 ⟨4, 0, 1, 0, 0⟩) owning) (fun t => t.modul.jobs.map (fun j => j.report) == [some (12, .accOwner)]) = true ∧
    after (exec (.mmaF64 ⟨4, 0, 2, 0, 0⟩) (without64 owning)) (fun t => t.modul.jobs.map (fun j => j.report) == [some (12, .unitAbsent)]) = true := by decide +kernel

/-- Two tasks of the core with tags 5 and 6, one of them running, and one of another core. -/
noncomputable def tagged : State := onCluster base (fun k => { k with tasks := [{ pendingTask [] with id := 1, tag := 5 }, { pendingTask [] with id := 2, tag := 6, phase := .dispatched },
  { pendingTask [] with id := 3, tag := 5, core := 1 }] })
noncomputable def byTag (s : State) (v mask : Word) : State := (s.wr 5 v).wr 6 mask
theorem witness_TasksByTag :
    let m := fun (s : State) => s.cluster.tasks.filter (fun t => decide (t.ctx = s.core.cid.toNat ∧ t.core = s.core.id.core ∧ t.remote = false ∧
      t.tag &&& BitVec.ofNat 16 (s.rd 6).toNat = BitVec.ofNat 16 (s.rd 5).toNat &&& BitVec.ofNat 16 (s.rd 6).toNat))
    (m (byTag tagged 5 0xFFFF)).map (fun t => t.id) = [1] ∧ m (byTag tagged 7 0xFFFF) = [] ∧ (m (byTag tagged 0 0)).length = 2 ∧ tagged.core.issued = none ∧
    (onCore tagged (fun c => { c with issued := some { ids := [1], n := 1 } })).core.issued = some { ids := [1], n := 1 } ∧
    (∃ t ∈ tagged.cluster.tasks, t.id ∈ [1]) ∧ (∀ t ∈ tagged.cluster.tasks, t.id ∉ [7]) := by decide +kernel
theorem test_cancel : after (exec (.tbCancel ⟨4, 5, 6⟩) (byTag tagged 0 0)) (fun t => t.rd 4 == 2 && t.core.pc == 8 &&
    (t.cluster.tasks.map (fun k => (k.id, k.stop))) == [(2, true), (3, false)]) = true := by decide +kernel
theorem test_twait : after (exec (.twait ⟨4, 5, 6⟩) (byTag tagged 0 0)) (fun t => t.core.stall == some .tasks && t.core.issued == some { ids := [1, 2], n := 2 }) = true ∧
    after (exec (.twait ⟨4, 5, 6⟩) (byTag base 0 0)) (fun t => t.rd 4 == 0 && t.core.pc == 8) = true := by decide +kernel
theorem test_task_counts : after (exec (.tqState ⟨4, 5, 6⟩) (byTag tagged 0 0)) (fun t => t.rd 4 == 0x10100) = true ∧
    after (exec (.tqFree ⟨4⟩) tagged) (fun t => t.rd 4 == 222 + 896 * 2 ^ 8 + 128 * 2 ^ 18 + 512 * 2 ^ 26) = true := by decide +kernel

/-! ## Witnesses: palette, windows, requests, fences, queues -/

theorem witness_PaletteTilesAndLeases_slots : let x := ownCtx owning
    owning.cluster.ctxAt owning.core.cid.toNat = some x ∧ (∀ n < 32, (0x8004 : Word).getLsbD n = true → x.palGrant.getLsbD n = true) ∧
    ¬ (∀ n < 32, (0x10000 : Word).getLsbD n = true → x.palGrant.getLsbD n = true) ∧
    (1, 1) ∈ (ownCtx (onCtx owning (fun x => { x with slotOwner := [(1, 1)] }))).slotOwner ∧
    (∀ n < 32, (0x3 : Word).getLsbD n = true → (n, owning.core.id.core) ∈ x.slotOwner) ∧ ¬ (∀ n < 32, (0x4 : Word).getLsbD n = true → (n, owning.core.id.core) ∈ x.slotOwner) ∧
    palPending owning 3 = false ∧
    palPending (onCluster owning (fun k => { k with tasks := [pendingTask [⟨false, true, false, false, .pal, 8, 0, [(16384, 8)], 0⟩]] })) 1 = true := by decide +kernel
theorem test_palette : after (exec (.palClaim ⟨0, 5, false⟩) (owning.wr 5 0x8004)) (fun t => (ownCtx t).slotOwner.contains (15, 0) && (ownCtx t).slotOwner.contains (2, 0) &&
      (ownCtx t).slotOwner.contains (7, 0) && t.core.pc == 8) = true ∧
    after (exec (.palRel ⟨5⟩) (owning.wr 5 3)) (fun t => (ownCtx t).slotOwner == [(4, 0), (5, 0), (6, 0), (7, 0)]) = true ∧
    after (exec (.palOwn ⟨4⟩) owning) (fun t => t.rd 4 == 0xFF0C000000F3) = true ∧
    after (exec (.palClaim ⟨4, 5, true⟩) ((onCtx owning (fun x => { x with slotOwner := [(1, 1)] })).wr 5 2)) (fun t => t.rd 4 == 0 && t.core.pc == 8) = true := by decide +kernel
theorem witness_PaletteTilesAndLeases_tiles : let x := ownCtx owning
    owning.cluster.ctxAt owning.core.cid.toNat = some x ∧ (owning.jobOf owning.core.cid.toNat).isSome = true ∧ ((3 : BitVec 6).toNat, owning.core.id.core) ∈ x.tileOwner ∧
    ¬ ((4 : BitVec 6).toNat, owning.core.id.core) ∈ x.tileOwner ∧ (⟨0, 0, 0⟩ : CoreId) ∈ (placedJob ⟨0, 0, 0⟩).cores ∧ (⟨0, 0, 1⟩ : CoreId) ∉ (placedJob ⟨0, 0, 0⟩).cores ∧
    (owning.core.status.mode = false ∧ (2 : BitVec 3).toNat ≠ owning.core.id.core) ∧ (inS owning).core.status.mode = true ∧
    (owning.cluster.canvas.lens[0] < 128 ∧ owning.cluster.canvas.done < 128) ∧ owning.cluster.canvas.cold = true ∧ owning.cluster.canvas.holder = none := by decide +kernel
theorem test_accgive : after (exec (.accGive ⟨3, 0⟩) owning) (fun t => (ownCtx t).tileOwner == [(3, 0)] && t.core.pc == 8) = true ∧
    after (exec (.accGive ⟨3, 1⟩) owning) (fun t => t.modul.jobs.map (fun j => j.report) == [some (12, .priv)]) = true := by decide +kernel
theorem test_lease : after (exec (.leaseSet ⟨5, 2⟩) ((inS base).wr 5 0x7F)) (fun t => t.cluster.canvas.lens.toList == [16, 16, 64, 16, 16]) = true ∧
    after (exec (.leaseGet ⟨4⟩) base) (fun t => t.rd 4 == 16 * 2 ^ 34 + 2 ^ 32 + 7 * 2 ^ 29) = true := by decide +kernel

def mapFar : WinMap := ⟨1, 5, 1, 0x1000, 0x2000, true⟩
noncomputable def withWindow (w : Window) : State := onCore base (fun c => { c with windows := c.windows.set 3 w })
theorem witness_WindowsAndRemoteRequests_windows : let s := (base.wr 20 farWord)
    okWith (checkTarget s (s.rd 20)) ⟨1, 5, 1⟩ = true ∧ (0x200000001000 : Word).toNat % 2 ^ 22 % 64 = 0 ∧ 0x1000 + 0x2000 ≤ 0x400000 ∧ (0x3FFFC0 + 0x40 ≤ 0x400000) ∧
    0x400000 < 0x3FFFC0 + 0x80 ∧ (ownCtx base).cancelled = false ∧ (ownCtx (onCtx base (fun x => { x with cancelled := true }))).cancelled = true ∧
    0 < ((withWindow { map := some mapFar, out := 1 }).core.windows[3]).out ∧ remPending base.ownTasks 0 3 = false ∧
    ((withWindow { map := some mapFar }).core.windows[3]).alw < 2048 ∧ mapFar.size < 2 ^ 23 := by decide +kernel
theorem test_winmap : let s := (base.wr 20 farWord).wr 21 0x200000001000
    after (exec (.winMap ⟨20, 21, 3, true⟩) s) (fun t => t.core.windows[3] == { map := some mapFar } && t.core.pc == 8) = true ∧
    after (exec (.winUnmap ⟨3⟩) (withWindow { map := some mapFar, den := true })) (fun t => t.core.windows[3] == { den := true }) = true ∧
    after (exec (.winAllow ⟨5, 3⟩) ((withWindow { map := some mapFar }).wr 5 2047)) (fun t => t.core.windows[3] == { map := some mapFar, alw := 1024 }) = true ∧
    after (exec (.winUnmap ⟨3⟩) (withWindow { map := some mapFar, out := 1 })) (fun t => t.core.stall == some .window) = true := by decide +kernel
theorem test_winstat : after (exec (.winStat ⟨4, 3, true, false⟩) (withWindow { map := some mapFar, out := 2, den := true }))
      (fun t => t.rd 4 == 64 * 2 ^ 37 + 2 * 2 ^ 26 + 2 ^ 25 + 2 ^ 24 + 2 ^ 23 + 0x2000 && !(t.core.windows[3]).den) = true ∧
    after (exec (.winStat ⟨4, 0, false, true⟩) (onCore base (fun c => { c with directOut := 5, directDen := true })))
      (fun t => t.rd 4 == 16 * 2 ^ 37 + 5 * 2 ^ 26 + 2 ^ 23 && t.core.directDen) = true := by decide +kernel

/-- A store and an atomic at the last eight bytes of window 3's mapping. -/
noncomputable def throughWindow (w : Window) : State := ((withWindow w).wr 5 0x4C001FF8).wr 4 0x1122334455667788
theorem witness_WindowsAndRemoteRequests_requests : let s := throughWindow { map := some mapFar }
    ((s.rd 5).toNat / 0x4000000 = 16 + 3 ∧ (s.rd 5).toNat % 8 = 0) ∧ (base.core.windows[3]).map = none ∧ (s.rd 5).toNat % 0x4000000 < mapFar.size ∧
    mapFar.size ≤ ((s.wr 5 0x4C002000).rd 5).toNat % 0x4000000 ∧ fenceHolds s.core.fences s.core.effects mapFar.die 2 = false ∧
    ((throughWindow { map := some mapFar, out := 64 }).core.windows[3]).alw ≤ ((throughWindow { map := some mapFar, out := 64 }).core.windows[3]).out ∧
    s.die.pairRoom mapFar.die 2 = true ∧ s.ownCluster s.core.id { die := mapFar.die, clu := mapFar.clu, core := mapFar.core } = false ∧
    outstanding s (fenceSet s (1 <<< 2) 3) = false := by decide +kernel
theorem test_store_leaves : let s := throughWindow { map := some mapFar }
    after (exec (.st ⟨4, 5, 2, 3, false, 0⟩) s) (fun u => left s ⟨1, 5, 1⟩ 2 (.write 0x2FF8 (bytesAt 0x2FF8 8 0x1122334455667788) true false) (some 3) u &&
      u.core.windows[3] == { map := some mapFar, out := 1 } && u.core.pc == 8) = true ∧
    after (exec (.st ⟨4, 5, 2, 3, false, 0⟩) (throughWindow { map := some mapFar, out := 64 })) (fun u => u.core.stall == some .allowance) = true ∧
    after (exec (.st ⟨4, 5, 2, 3, false, 0⟩) (throughWindow {})) (fun t => t.modul.jobs.map (fun j => j.report) == [some (12, .winUnmapped)]) = true := by decide +kernel
theorem test_atomic_leaves : let s := throughWindow { map := some mapFar }
    after (exec (.atomAdd ⟨4, 5, 2, 3, false, 0⟩) s) (fun u => left s ⟨1, 5, 1⟩ 2 (.atomic 0x2FF8 (.op .add 3 0x1122334455667788 0x4C001FF8)) (some 3) u &&
      u.core.stall == some .reply && u.core.pc == 0 && u.core.await.map (fun a => (a.uid, a.d)) == some (0, 4)) = true := by decide +kernel
theorem test_rflag_leaves : let s := (base.wr 21 farWord).wr 20 7
    after (exec (.rflag ⟨20, 21, 2, 9, false⟩) s) (fun u => left s ⟨1, 5, 1⟩ 2 (.flag 9 7) none u && u.core.directOut == 1 && u.core.pc == 8) = true := by decide +kernel

/-- An effect of class 2 outstanding at the far core. -/
noncomputable def outstandingFar : State := onCore base (fun c => { c with effects := [⟨4, 0, 2, 1, 5, 1, none, false⟩] })
theorem witness_Fences :
    (∃ e ∈ outstandingFar.core.effects, (4 : BitVec 16).getLsbD e.cls.toNat = true ∧ ∃ d < outstandingFar.dies, outstandingFar.dieNumber d = e.die) ∧
    earlierEffect outstandingFar 4 ⟨4, 0, 2, 1, 5, 1, none, false⟩ ∧ inReach outstandingFar 2 ⟨4, 0, 2, 1, 5, 1, none, false⟩ ∧
    base.core.effects = [] ∧ base.core.issued = none ∧ (onCore outstandingFar (fun c => { c with issued := some { ids := [4], n := 0 } })).core.issued = some { ids := [4], n := 0 } :=
  ⟨⟨_, List.mem_cons_self .., by decide +kernel, 1, by decide +kernel, by decide +kernel⟩, ⟨by decide +kernel, by decide +kernel, by intro t h; cases h⟩,
    ⟨nofun, fun _ => ⟨nofun, nofun, fun _ => ⟨1, by decide +kernel, by decide +kernel⟩⟩⟩, by decide +kernel, by decide +kernel, by decide +kernel⟩
/-- The release forms: a flag of the own core and of another, a barrier that may be arrived at, a far flag, a signal. -/
theorem witness_Fences_releases : (let s := onCore flagged (fun c => { c with effects := outstandingFar.core.effects })
      earlierEffect s (1 <<< 2) ⟨4, 0, 2, 1, 5, 1, none, false⟩ ∧ inReach s 3 ⟨4, 0, 2, 1, 5, 1, none, false⟩ ∧ (flagEntry ((ownCtx s).coreFlags 0).fmap 7).1 = true) ∧
    fenceHolds base.core.fences base.core.effects (base.dieNumber 0) 2 = false ∧
    ((withBarrier { cnt := 2 }).barrier 0).cnt ≠ 0 ∧ (((withBarrier { cnt := 2 }).barrier 0).cores[0]).pd0 = false ∧ (((withBarrier { cnt := 2 }).barrier 0).cores[0]).sip = false ∧
    okWith (checkTarget (base.wr 21 farWord) ((base.wr 21 farWord).rd 21)) ⟨1, 5, 1⟩ = true :=
  ⟨⟨⟨by decide +kernel, by decide +kernel, by intro t h; cases h⟩, ⟨nofun, fun _ => ⟨nofun, nofun, nofun⟩⟩, by decide +kernel⟩, by and_intros <;> decide +kernel⟩
theorem test_release_waits : after (exec (.flagAdd ⟨5, 2, 7, 0, false, true⟩) (onCore flagged (fun c => { c with effects := outstandingFar.core.effects })))
    (fun u => u.core.stall == some .fence && u.core.issued == some { ids := [4], n := 0 }) = true ∧
    after (exec (.flagAdd ⟨5, 1, 7, 0, false, true⟩) (onCore flagged (fun c => { c with effects := outstandingFar.core.effects }))) (fun u => u.core.pc == 8) = true := by decide +kernel
theorem test_fences : after (exec (.fenceG ⟨4, 2⟩) outstandingFar) (fun u => u.core.stall == some .fence && u.core.issued == some { ids := [4], n := 0 }) = true ∧
    after (exec (.fenceG ⟨4, 1⟩) outstandingFar) (fun u => u.core.pc == 8) = true ∧ after (exec (.fenceG ⟨2, 3⟩) outstandingFar) (fun u => u.core.pc == 8) = true ∧
    after (exec (.fenceC ⟨4⟩) outstandingFar) (fun u => u.core.pc == 8 && fenceHolds u.core.fences u.core.effects 1 2 && !fenceHolds u.core.fences u.core.effects 2 2 &&
      !fenceHolds u.core.fences u.core.effects 1 3) = true := by decide +kernel

noncomputable def withQueue (rs : List (BitVec 128)) : State :=
  { base with modul := { base.modul with jobs := [{ placedJob ⟨0, 0, 0⟩ with queues := [{ cap := 16, recs := rs }], signals := [0x100] }] } }
theorem witness_QueuesAndSignals : let j := ((withQueue [5]).jobOf 0).getD (placedJob ⟨0, 0, 0⟩)
    (withQueue [5]).jobOf (withQueue [5]).core.cid.toNat = some j ∧ j.queues[0]? = some { cap := 16, recs := 5 :: [] } ∧ j.signals[0]? = some 0x100 ∧
    ((withQueue []).jobOf 0).map (fun j => j.queues[0]?) = some (some { cap := 16, recs := [] }) ∧ j.queues.length ≤ (1 : BitVec 4).toNat ∧ j.signals.length ≤ (1 : BitVec 6).toNat ∧
    (withQueue []).host.signals = [] ∧ outstanding (withQueue []) (fenceSet (withQueue []) (1 <<< 2) 4) = false := by decide +kernel
theorem test_work_queue : after (exec (.wqPop ⟨10, 12, true, 0⟩) (withQueue [3 + 7 * 2 ^ 64, 9])) (fun t => t.rd 10 == 3 && t.rd 11 == 7 && t.rd 12 == 1 &&
      t.modul.jobs.map (fun j => j.queues.map (fun q => q.recs)) == [[[9]]]) = true ∧
    after (exec (.wqPop ⟨10, 0, false, 0⟩) (withQueue [])) (fun t => t.core.stall == some .workQueue) = true ∧
    after (exec (.wqCount ⟨4, 0⟩) (withQueue [3, 9])) (fun t => t.rd 4 == 2) = true := by decide +kernel
theorem test_signals : after (exec (.sigSub ⟨5, 0, 1, false⟩) ((withQueue []).wr 5 2)) (fun t => t.host.subs == [⟨0, 0x100, 2, some 0⟩]) = true ∧
    after (exec (.sigRead ⟨4, 0⟩) { withQueue [] with host := { base.host with mem := [(0x100, 7)] } }) (fun t => t.rd 4 == 7) = true ∧
    after (exec (.sigRead ⟨4, 0⟩) { withQueue [] with host := { base.host with mem := [(0x100, 7)], signals := [⟨0, 0x100, 5, 0⟩] } }) (fun t => t.rd 4 == 5) = true := by decide +kernel

/-! ## Witnesses: traps, faults, privilege, control registers, contexts -/

noncomputable def withHandler (cpol : BitVec 16) : State := onCore base (fun c => { c with pc := 0x40, cr := { c.cr with tvec := 0x1000, cpol := cpol } })
/-- A soft save that a context may be loaded from. -/
noncomputable def savedSoft : SoftRecord := { pc := 0x80, regs := Vector.replicate 64 0, fpctl := 3, fpstat := 1, fpen := 2, cpol := 0x41, tflog := 4, bkey := 5, bseq := 6, epc := 0x80, flags := Vector.replicate 64 0 }
theorem witness_TrapsAndReturn : (withHandler 0).core.cr.tvec ≠ 0 ∧ base.core.status.mode = false ∧ (unloaded base).core.status.cv = false ∧ base.core.status.cv = true ∧
    (base.jobOf 0).isSome = true ∧ (inS base).core.status.mode = true ∧ ¬ (∃ j, base.jobOf 0 = some j ∧ base.core.id ∈ j.ended) ∧ base.ownTasks = [] ∧
    (onCluster base (fun k => { k with tasks := [pendingTask []] })).ownTasks ≠ [] ∧
    (∃ n < 7, (onCore base (fun c => { c with cr := { c.cr with fpstat := 0x40, fpen := 0x40 } })).core.cr.fpstat.getLsbD n = true ∧ (0x40 : BitVec 7).getLsbD n = true) ∧
    (withWindow { den := true }).core.windows.toList.any (fun w => w.den) = true ∧ base.core.directDen = false := by
  and_intros
  on_goal 10 => exact ⟨6, by decide +kernel⟩
  all_goals decide +kernel
theorem witness_TrapsAndReturn_ended : let s := { base with modul := { base.modul with jobs := [{ placedJob ⟨0, 0, 0⟩ with ended := [⟨0, 0, 0⟩] }] } }
    s.core.status.cv = true ∧ s.core.status.pm = false ∧ s.jobOf 0 = some { placedJob ⟨0, 0, 0⟩ with ended := [⟨0, 0, 0⟩] } := by decide +kernel
/-- `trap` with a code and no handler is contained with cause TRAP (R378). -/
theorem test_trap_contained : after (exec (.trap ⟨9, 5⟩) base) (fun t => t.core.run == .exited && t.modul.jobs.map (fun j => j.report) == [some (12, .evTrap)]) = true := by decide +kernel
theorem test_trap_ends : after (exec (.trap ⟨0, 0⟩) base) (fun t => t.core.run == .exited && t.modul.jobs.map (fun j => j.ended) == [[⟨0, 0, 0⟩]]) = true := by decide +kernel
theorem test_eret : after (exec .eret (onCore (inS base) (fun c => { c with cr := { c.cr with epc := 0x48 }, status := { c.status with pm := false, pie := true } })))
    (fun t => t.core.pc == 0x48 && !t.core.status.mode && t.core.status.ie && !t.core.status.td && t.core.run == .running) = true := by decide +kernel
theorem test_trapf : after (exec .trapf (onCore base (fun c => { c with cr := { c.cr with fpstat := 0x40, fpen := 0x40 } }))) (fun t => t.modul.jobs.map (fun j => j.report) == [some (12, .arith)]) = true ∧
    after (exec .trapf (withWindow { den := true })) (fun t => t.modul.jobs.map (fun j => j.report) == [some (12, .winDenied)]) = true ∧
    after (exec .trapf base) (fun t => t.core.pc == 8) = true ∧
    after (exec .trapfAll (onCluster base (fun k => { k with tasks := [pendingTask []] }))) (fun t => t.core.stall == some .tasks) = true := by decide +kernel

theorem witness_FaultContainment : (inS base).core.status.td = true ∧ base.core.status.td = false ∧ base.core.cr.cpol.toNat / 64 % 4 = 3 ∧
    (withHandler 0x00).core.cr.cpol.toNat / 64 % 4 = 0 ∧ (withHandler 0x41).core.cr.cpol.toNat / 64 % 4 = 1 ∧ 0 < (withHandler 0x41).core.cr.cpol.toNat % 64 ∧
    (withHandler 0x40).core.cr.cpol.toNat % 64 = 0 ∧ (withHandler 0x40).core.cr.tvec ≠ 0 ∧ base.core.cr.tvec = 0 ∧ (withHandler 0x80).core.cr.cpol.toNat / 64 % 4 = 2 ∧
    (base.jobOf base.core.cid.toNat).isSome = true := by decide +kernel
/-- RETRY spends a count and enters the handler with the record of R375; IGNORE goes on; KILL_SELF ends the program. -/
theorem test_fault_policies : after (exec (.ld ⟨4, 5, 0, 3, false, 0⟩) ((withHandler 0x41).wr 5 1)) (fun t => t.core.pc == 0x1000 && t.core.cr.cpol == 0x40 && t.core.cr.epc == 0x40 &&
      t.core.cr.faddr == 1 && t.core.status.td && t.core.status.mode) = true ∧
    after (exec (.ld ⟨4, 5, 0, 3, false, 0⟩) ((withHandler 0x00).wr 5 1)) (fun t => t.core.pc == 0x48 && t.rd 4 == 0) = true ∧
    after (exec (.ld ⟨4, 5, 0, 3, false, 0⟩) ((withHandler 0x80).wr 5 1)) (fun t => t.core.run == .exited && t.modul.jobs.map (fun j => (j.ended, j.killed)) == [([⟨0, 0, 0⟩], false)]) = true := by
  decide +kernel
/-- A copy task of the acting core with a completion flag, on copy engine 0, under a task policy; a core whose flag 7 is mapped; its log holds one fault. -/
noncomputable def faulty (policy : BitVec 2) (count : Nat) : Task :=
  { pendingTask [] with phase := .dispatched, policy := policy, count := count, flag := some 7, tag := 0x21, flags := 4 }
noncomputable def withFaulty (policy : BitVec 2) (count : Nat) : State :=
  onCtx (onCluster (onCore base (fun c => { c with cr := { c.cr with tflog := 0x0001_0005_0000_0008 } }))
    (fun k => { k with tasks := [faulty policy count, { pendingTask [] with id := 10, phase := .waiting, waits := [9] }], copy0 := some 9 }))
    (fun x => { x with cores := x.cores.set 0 { (x.cores[0]) with launched := true, fmap := (x.cores[0]).fmap.set 0 0xC900000000000000 } })
noncomputable def faultEnd (policy : BitVec 2) (count : Nat) : State :=
  let s := withFaulty policy count
  s.taskFault s.core.id.die s.core.id.clu (faulty policy count) { cause := .poison, idx := 3 } true
theorem witness_FaultContainment_task : let s := withFaulty 1 1; let t := faulty 1 1
    (s.cluster.die = s.core.id.die ∧ s.cluster.clu = s.core.id.clu ∧ s.die.die = s.core.id.die) ∧ t.policy = 1 ∧ t.stop = false ∧ 0 < t.count ∧ (s.coreAt ⟨s.core.id.die, s.core.id.clu, t.core⟩).holds t.ctx = true ∧ s.core.saving = false ∧
    s.core.status.td = false ∧ (inS s).core.status.td = true ∧ fenceHolds t.orders s.core.effects 0 t.cls = false ∧ s.cluster.ctxAt t.ctx = some (ownCtx s) ∧
    flagEntry ((ownCtx s).coreFlags t.core).fmap 7 = (true, true, 9) ∧ (faulty 0 0).policy = 0 ∧ (faulty 2 0).policy = 2 ∧ (faulty 3 0).policy = 3 := by decide +kernel
/-- R382's walk: a retry with a count, then none left; IGNORE with the flag; KILL_PARENT to the core program. -/
theorem test_task_policies :
    ((faultEnd 1 1).cluster.tasks.map (fun t => (t.id, t.phase, t.count)) = [(9, .ready, 0), (10, .waiting, 0)] ∧ (faultEnd 1 1).core.cr.tflog = 0x0001_0005_0000_0008) ∧
    ((faultEnd 1 0).cluster.tasks.map (fun t => (t.id, t.phase)) = [(10, .ready)] ∧ (faultEnd 1 0).core.cr.tflog = 0x0002_0005_0000_0008 ∧
      (faultEnd 1 0).core.flags.toList.all (fun v => v = 0) = true) ∧
    ((faultEnd 0 0).core.flags[9] = 1 ∧ (faultEnd 0 0).core.cr.tflog = 0x0002_0005_0000_0008 ∧ (faultEnd 0 0).cluster.copy0 = none) ∧
    ((faultEnd 3 0).core.escalated = [{ ctx := 0, cause := .poison, tag := 0x21, idx := 3, addr := 0, info := 0 }] ∧ (faultEnd 3 0).core.cr.fpstat = 4) := by decide +kernel
noncomputable def withJobs (policy tenant : BitVec 2) : State :=
  { base with
    modul := { base.modul with jobs := [placedJob ⟨0, 0, 0⟩, { placedJob ⟨0, 0, 0⟩ with ctx := 1 }] }
    host := { base.host with functions := [{ fn := 0, settings := { (base.fnAt 0).settings with jobPolicy := policy, tenantPolicy := tenant }, queues := [{ q := 2, state := .paused }, { q := 3 }] }] } }
noncomputable def jobEnd (policy tenant : BitVec 2) : State := (withJobs policy tenant).offerJob 0 ⟨0, 0, 0⟩ .priv true
theorem witness_FaultContainment_job : (withJobs 3 3).jobOf 0 = some (placedJob ⟨0, 0, 0⟩) ∧ (placedJob ⟨0, 0, 0⟩).killed = false ∧
    ((withJobs 3 3).fnAt (placedJob ⟨0, 0, 0⟩).fn).settings.jobPolicy = 3 ∧ ((withJobs 3 3).fnAt (placedJob ⟨0, 0, 0⟩).fn).settings.tenantPolicy = 3 ∧
    ((withJobs 3 3).queueAt (placedJob ⟨0, 0, 0⟩).fn 2).state = .paused ∧ ((withJobs 3 3).queueAt (placedJob ⟨0, 0, 0⟩).fn 3).state = .disabled := by decide +kernel
theorem test_job_policies :
    (jobEnd 0 2).modul.jobs.map (fun j => (j.ctx, j.killed, j.report, j.ended)) = [(0, false, some (12, .priv), [⟨0, 0, 0⟩]), (1, false, none, [])] ∧
    (jobEnd 1 2).modul.jobs.map (fun j => (j.ctx, j.killed)) = [(0, true), (1, false)] ∧
    ((jobEnd 3 3).modul.jobs.map (fun j => (j.ctx, j.killed)) = [(0, true), (1, true)] ∧
      ((jobEnd 3 3).fnAt 0).queues.map (fun k => (k.q, k.state, k.ecode)) = [(2, .error, 12), (3, .error, 12)] ∧ ((jobEnd 3 3).fnAt 0).disabled = true) := by
  and_intros
  all_goals decide +kernel
/-- A job with a count and a checkpoint of the acting core, whose save and slots have moved on since; and what its RETRY at job level leaves. -/
noncomputable def checkpointed : SaveArea := { ctx := 0, core := ⟨0, 0, 0⟩, gen := 3, soft := savedSoft, hard := none, corrupt := false, ownSlots := [2] }
noncomputable def retrying : State :=
  let s := withJobs 1 2
  { onCtx s (fun x => { x with slotOwner := [(2, 1), (5, 0)] }) with
    modul := { s.modul with jobs := [{ placedJob ⟨0, 0, 0⟩ with jobCount := 2, checkpoints := [(⟨0, 0, 0⟩, checkpointed)], saves := [(⟨0, 0, 0⟩, { checkpointed with gen := 9 })]
                                                                gens := [(⟨0, 0, 0⟩, 9)], queues := [{ cap := 64, recs := [] }], checkQueues := some [{ cap := 64, recs := [7] }] }] } }
noncomputable def retried : State := retrying.offerJob 0 ⟨0, 0, 0⟩ .priv true
theorem witness_FaultContainment_retry : (retrying.jobOf 0).map (fun j => (j.killed, j.jobCount, j.checkpoints.length, assoc j.checkpoints.reverse (⟨0, 0, 0⟩ : CoreId))) =
      some (false, 2, 1, some checkpointed) ∧ ((retrying.fnAt 0).settings.jobPolicy = 1) ∧ (retrying.coreAt ⟨0, 0, 0⟩).holds 0 = true := by decide +kernel
/-- R391: the save, its generation, the work queues and what the core owns are the checkpoint's; the core goes on from it. -/
theorem test_job_retry : (retried.modul.jobs.map (fun j => (j.jobCount, j.killed, j.gens)) = [(1, false, [(⟨0, 0, 0⟩, 3)])] ∧ retried.modul.jobs.map (fun j => j.queues.map (fun q => q.recs)) = [[[7]]]) ∧
    (retried.core.pc = 0x80 ∧ retried.core.run = .running ∧ retried.core.cr.cpol = 0x41 ∧ retried.core.holds 0 = true) ∧ ((ownCtx retried).slotOwner = [(2, 0)]) := by
  and_intros
  all_goals decide +kernel
theorem witness_Privilege : base.core.status.mode = false ∧ (unloaded base).core.status.cv = false ∧ base.core.sketch = none ∧ 0x10 ≤ (0x10 : BitVec 7).toNat := by decide +kernel
theorem test_privilege : after (exec (.crr ⟨4, 0x10⟩) base) (fun t => t.modul.jobs.map (fun j => j.report) == [some (12, .priv)]) = true ∧
    after (exec (.qPop ⟨4, 3⟩) (onCore (unloaded base) (fun c => { c with cr := { c.cr with tvec := 0x1000, cpol := 0x41 } }))) (fun t => t.core.pc == 0x1000) = true := by decide +kernel

theorem witness_ControlRegistersAndValues : (inS base).core.status.mode = true ∧ (0x0E : BitVec 7).toNat ≤ 0x0E ∧ 4 < (0x0E : BitVec 7).toNat ∧ (0x18 : BitVec 7).toNat = 0x18 ∧
    (0x20 ≤ (0x27 : BitVec 7).toNat → base.core.status.cv = true ∧ base.core.id.core < 4 ∧ base.cluster.ctxAt base.core.cid.toNat = some (ownCtx base)) ∧
    (8, 7) ∈ plainRegisters ∧ crNumber (BitVec.ofNat 7 0x27) = true ∧
    ((inS base).wr 5 0xF0000138).rd 5 + BitVec.ofInt 64 (0 : BitVec 21).toInt = BitVec.ofNat 64 (0xF0000000 + 8 * 0x27) := by decide +kernel
/-- Each register's writable bits (R372–R376), by a write of ones in S mode. -/
theorem test_crw_ones : let s := (onCore (inS base) (fun c => { c with status := { c.status with ipp := true, ipc := true } })).wr 5 (-1)
    after (exec (.crw ⟨4, 5, 0x08⟩) s) (fun t => t.crValue 0x08 == 7) = true ∧ after (exec (.crw ⟨4, 5, 0x11⟩) s) (fun t => t.crValue 0x11 == 0xFFFFFFF8) = true ∧
    after (exec (.crw ⟨4, 5, 0x13⟩) s) (fun t => t.crValue 0x13 == 0xC000FFFFFF00FFFF) = true ∧ after (exec (.crw ⟨4, 5, 0x0C⟩) s) (fun t => t.crValue 0x0C == 0) = true ∧
    after (exec (.crw ⟨4, 5, 0x10⟩) s) (fun t => t.crValue 0x10 == 0xC71F) = true ∧ after (exec (.crs ⟨4, 5, 0x10⟩) s) (fun t => t.crValue 0x10 == 0xDF1F) = true ∧
    after (exec (.crc ⟨4, 5, 0x10⟩) s) (fun t => t.crValue 0x10 == 0x8011) = true := by decide +kernel
theorem test_control_space : after (exec (.ld ⟨4, 5, 0, 3, false, 0⟩) ((onCore (inS base) (fun c => { c with cr := { c.cr with scr := 77 } })).wr 5 0xF00000B0)) (fun t => t.rd 4 == 77) = true ∧
    after (exec (.st ⟨4, 5, 0, 3, false, 0⟩) (((inS base).wr 5 0xF00000B0).wr 4 78)) (fun t => t.core.cr.scr == 78) = true := by decide +kernel

/-- That save as an area, and the job that holds it. -/
noncomputable def savedArea : SaveArea := SaveArea.retag { ctx := 0, core := ⟨0, 0, 0⟩, gen := 3, soft := savedSoft, hard := none, corrupt := false } 0
noncomputable def savedJob : Job := { placedJob ⟨0, 0, 0⟩ with saves := [(⟨0, 0, 0⟩, savedArea)], gens := [(⟨0, 0, 0⟩, 3)] }
/-- A core that has been asked to yield. -/
noncomputable def asked (s : State) : State := onCore s (fun c => { c with status := { c.status with yp := true } })
noncomputable def withSave : State := { base with modul := { base.modul with jobs := [savedJob] } }
theorem witness_Contexts : (inS base).core.status.mode = true ∧ (inS base).core.status.cv = true ∧ ((inS base).jobOf 0).isSome = true ∧ (asked (inS base)).quiet = true ∧
    (onCluster (asked (inS base)) (fun k => { k with tasks := [pendingTask []] })).quiet = false ∧ (inS base).stopped = true ∧
    (onCluster (inS base) (fun k => { k with tasks := [{ pendingTask [] with op := .mma 0 0 0 0 0, phase := .dispatched }] })).stopped = false ∧
    (unloaded (inS withSave)).core.status.cv = false ∧ (unloaded (inS withSave)).core.id ∈ savedJob.cores ∧ savedJob.corrupt = false ∧
    (onCore (inS base) (fun c => { c with saving := true, savingAt := 0 })).saveLate = false ∧
    ({ onCore (inS base) (fun c => { c with saving := true, savingAt := 0 }) with sched := { base.sched with now := 2 ^ 22 } }).saveLate = true ∧
    assoc (placedJob ⟨0, 0, 0⟩).saves (⟨0, 0, 0⟩ : CoreId) = none ∧ (onCore (inS base) (fun c => { c with aside := some savedSoft })).core.aside = some savedSoft ∧
    (inS base).core.aside = none ∧ (asked base).core.status.yp = true ∧ (asked base).quiet = true := by decide +kernel
theorem savedArea_verifies : savedArea.verifies 0 0 ⟨0, 0, 0⟩ 3 = true := retag_verifies _ 0 rfl
/-- The save that is loaded verifies; one with an uncorrectable error, or of another generation, does not. -/
theorem witness_Contexts_load : let s := unloaded (inS withSave)
    s.jobOf 0 = some savedJob ∧ assoc savedJob.saves s.core.id = some savedArea ∧ s.verified 0 savedArea = true ∧
    s.verified 0 { savedArea with corrupt := true } = false ∧ s.verified 0 { savedArea with gen := 2 } = false := by
  have hid : (unloaded (inS withSave)).core.id = ⟨0, 0, 0⟩ := by decide +kernel
  have hj : (unloaded (inS withSave)).jobOf 0 = some savedJob := by
    have h : savedJob.ctx = 0 := by decide +kernel
    simp [State.jobOf, unloaded, inS, onCore, withSave, h]
  have hg : savedJob.genOf ⟨0, 0, 0⟩ = 3 := by decide +kernel
  have hk : savedJob.saveKey = 0 := by decide +kernel
  refine ⟨hj, by simp [savedJob, hid, assoc], ?_, by simp [State.verified, hj, SaveArea.verifies], ?_⟩
  · have h := savedArea_verifies
    rw [State.verified, hj, Option.any_some, hid, hg, hk]
    exact h
  · rw [State.verified, hj, Option.any_some, hid, hg, SaveArea.verifies]
    simp
theorem test_load : after (exec (.ctxLoad ⟨4, 5⟩) (unloaded (inS withSave))) (fun t => t.rd 4 == 0 && t.core.status.cv && t.core.cr.fpctl == 3 && t.core.cr.cpol == 0x41 &&
    t.core.aside.any (fun a => a.pc == 0x80) && t.core.pc == 8 && t.cluster.canvas.cold) = true := by
  have h : exec (.ctxLoad ⟨4, 5⟩) (unloaded (inS withSave)) = .next (((unloaded (inS withSave)).loadCtx 0 savedArea).wr 4 0).advance.settled := by
    obtain ⟨hj, ha, hv, -⟩ := witness_Contexts_load
    have hr : ((unloaded (inS withSave)).rd 5).toNat % 128 = 0 := by decide +kernel
    have hs : needS (unloaded (inS withSave)) = .ok () := by
      have h : (unloaded (inS withSave)).core.status.mode = true := by decide +kernel
      simp [needS, faultIf, Core.sMode, h]
    have hc : faultIf (unloaded (inS withSave)).core.status.cv .priv = .ok () := by simp [faultIf, unloaded, onCore]
    have hm : savedJob.cores.contains (unloaded (inS withSave)).core.id = true ∧ savedJob.corrupt = false := by decide +kernel
    have hsv : (unloaded (inS withSave)).savedArea 0 = some savedArea := by rw [State.savedArea, hj, Option.bind_some, if_pos hm.1, ha]
    simp only [exec, execCtxLoad, hr, hs, hc, Res.bind, hsv, hj, Option.any_some, hm.2, hv]
    simp [ends]
  rw [h]
  decide +kernel
theorem test_load_corrupt : let s := unloaded (inS withSave)
    after (exec (.ctxLoad ⟨4, 5⟩) { s with modul := { s.modul with jobs := [{ savedJob with saves := [(⟨0, 0, 0⟩, { savedArea with corrupt := true })] }] } })
      (fun t => t.rd 4 == 1 && !t.core.status.cv && t.modul.jobs.map (fun j => j.corrupt) == [true]) = true := by decide +kernel
theorem test_save_soft : after (exec (.ctxSaveSoft ⟨4⟩) (asked (inS withSave))) (fun t => !t.core.status.cv && t.rd 4 == 0 && t.core.pc == 8 &&
    t.modul.jobs.map (fun j => j.saves.map (fun p => (p.2.gen, p.2.soft.fpctl, p.2.hard.isNone))) == [[(4, 0, true)]]) = true := by decide +kernel
theorem test_save_hard : after (exec (.ctxSaveHard ⟨4, false⟩) (onCluster (inS base) (fun k => { k with tasks := [pendingTask []] }))) (fun t => !t.core.status.cv && t.rd 4 == 0 &&
      t.cluster.tasks == [] && t.modul.jobs.map (fun j => j.saves.map (fun p => (p.2.gen, p.2.hard.map (fun h => h.tasks.map (fun k => k.id))))) == [[(1, some [9])]]) = true ∧
    after (exec (.ctxSaveHard ⟨4, false⟩) (onCluster (inS base) (fun k => { k with tasks := [{ pendingTask [] with op := .mma 0 0 0 0 0, phase := .dispatched }] })))
      (fun t => t.core.stall == some .save && t.core.saving && t.core.status.cv) = true := by decide +kernel
theorem test_resume_and_yield :
    after (exec .resume (onCore (inS base) (fun c => { c with aside := some savedSoft }))) (fun t => t.core.pc == 0x80 && !t.core.status.mode && t.core.run == .running && t.core.aside.isNone) = true ∧
    after (exec .yield (onCore (withHandler 0) (fun c => { c with status := { c.status with yp := true } }))) (fun t => t.core.pc == 0x1000 && t.core.cr.epc == 0x48 && t.core.cr.cause == 0x41) = true := by
  decide +kernel

/-! ## Witnesses: events of a core, scalar sketches -/

noncomputable def interruptible : State := onCore (withHandler 0) (fun c => { c with status := { c.status with ie := true, im := 7 }, inbox := [⟨5, 6⟩] })
def escalatedFault : Escalated := { ctx := 0, cause := .walkerRange, tag := 9, idx := 2, addr := 0x80, info := 5 }
noncomputable def withEscalated (cpol : BitVec 16) : State := onCore (withHandler cpol) (fun c => { c with escalated := [escalatedFault] })
theorem witness_CoreEventsAndRegisterWrites :
    (let c := (onCore base (fun c => { c with cmpArmed := true })).core; c.cmpArmed = true ∧ c.cr.cyccmp.toNat ≤ base.cycles) ∧
    interruptible.core.status.ie = true ∧ interruptible.core.status.td = false ∧ interruptible.core.await = none ∧ interruptible.core.saving = false ∧
    interruptible.core.sketch = none ∧ interruptible.core.inbox ≠ [] ∧ interruptible.core.status.im.getLsbD 2 = true ∧ interruptible.core.status.ipp = false ∧
    interruptible.core.status.ipc = false ∧ (withEscalated 0x41).core.escalated = [escalatedFault] ∧ (withEscalated 0x41).core.cr.tvec ≠ 0 ∧
    (let s := onCore (inS base) (fun c => { c with saving := true, savingAt := 0 }); s.core.saving = true ∧
      s.core.savingAt + 2 ^ 22 ≤ ({ s.sched with now := 2 ^ 22 }).now) ∧ mayWrite (inS base) 0x0B := by
  refine ⟨⟨rfl, Nat.zero_le _⟩, ?_⟩
  and_intros <;> try decide +kernel
  exact fun h => absurd h (by decide)
theorem test_interrupt_msg : after (exec .interruptTaken interruptible) (fun t => t.core.pc == 0x1000 && t.core.cr.epc == 0x40 && t.core.cr.cause == 0x8000000000000044 &&
      t.core.status.mode && !t.core.status.ie && t.core.status.pie && t.core.status.td) = true ∧
    after (exec .interruptTaken (onCore interruptible (fun c => { c with status := { c.status with ipp := true, ipc := true } })))
      (fun t => t.core.cr.cause == 0x8000000000000042 && t.core.status.ipp) = true := by decide +kernel
theorem test_escalated : after (exec .escalatedTaskFault (withEscalated 0x41)) (fun t => t.core.pc == 0x1000 && t.core.cr.faddr == 0x80 && t.core.cr.finfo == 5 &&
      t.core.cr.cpol == 0x40 && t.core.cr.cause.toNat / 2 ^ 32 == 2 ^ 30 + 9 && t.core.cr.cause.toNat / 2 ^ 24 % 256 == 2 && t.core.escalated == []) = true ∧
    after (exec .escalatedTaskFault (withEscalated 0)) (fun t => t.core.pc == 0x40 && t.core.escalated == []) = true ∧
    after (exec .escalatedTaskFault (withEscalated 0x80)) (fun t => t.core.run == .exited) = true := by decide +kernel
theorem test_save_timeout : after (exec (.saveTimeout 4) { onCore (inS base) (fun c => { c with saving := true, stall := some .save }) with sched := { base.sched with now := 2 ^ 22 } })
    (fun t => t.rd 4 == 1 && !t.core.saving && !t.core.status.cv && t.core.stall == none) = true := by decide +kernel
theorem test_register_events : after (exec (.crCyccmpWrite 100) base) (fun t => t.core.cr.cyccmp == 100 && t.core.cmpArmed && t.core.pc == 0) = true ∧
    after (exec (.crFmapWrite 2 (-1)) base) (fun t => t.crValue 0x22 == t.crValue 0x22) = true ∧
    after (exec (.crFpstatWrite 1 0x40) base) (fun t => t.core.cr.fpstat == 0x41) = true ∧
    after (exec .stalledInstructionResume (onCore base (fun c => { c with stall := some .tasks }))) (fun t => t.core.stall == none) = true := by decide +kernel

/-- A scalar sketch of one addition, bound to 3, in logical block 1; its image stands at 0x1000 too. -/
def addSketch : List Word := [1, 0, 0, BitVec.ofNat 64 (2 * 2 ^ 58 + 8 * 2 ^ 54 + 8 * 2 ^ 50 + 9 * 2 ^ 46)]
noncomputable def sketched (b : SkBlock) : State :=
  ((withDwords (onCtx base (fun x => { x with partition := 2, blocks := [(1, b)], bindings := [(3, 1)] })) 0x1000 (addSketch.map (fun v => v.toNat))).wr 5 40).wr 6 2
def residentSketch : SkBlock := { image := some addSketch, phys := some 0 }
/-- A core whose sketch has begun to commit, one store of 8 bytes at 0x100; and one whose `sks` stands. -/
def begun : SketchRun := { op := ⟨3, 4, 5, 6, 0⟩, block := 1, d := 4, two := false, out0 := 42, out1 := 0, flags := 0, queue := [(0x100, 0x100, 8, 7, 0)] }
noncomputable def committing : State := onCore (sketched residentSketch) (fun c => { c with sketch := some begun })
noncomputable def standing (b : SkBlock) : State := onCore (sketched b) (fun c => { c with issued := some { ids := [], n := 0, sketch := some { op := ⟨3, 4, 5, 6, 0⟩, block := 1, run := none } } })
theorem witness_ScalarSketches : (sketched residentSketch).core.status.cv = true ∧ (sketched residentSketch).core.sketch = none ∧
    (let x := ownCtx (sketched residentSketch); (sketched residentSketch).cluster.ctxAt 0 = some x ∧ assoc x.bindings 3 = some 1 ∧ assoc x.bindings 4 = none ∧
      (x.block 1).image = some addSketch ∧ (x.block 1).phys ≠ none ∧ (skHeader addSketch).getLsbD 28 = false ∧ (skHeader addSketch).getLsbD 29 = false) := by decide +kernel
theorem witness_ScalarSketches_runs : committing.core.sketch = some begun ∧ begun.queue = [] ++ (0x100, 0x100, 8, 7, 0) :: [] ∧
    screened [pendingTask [⟨false, true, false, false, .spad, 8, 0x100, [(1, 0)], 0⟩]] 0 0x100 8 .store = true ∧ screened [] 0 0x100 8 .store = false ∧
    poisoned [(4, 1)] 0x100 8 = true ∧ poisoned ([] : Cells 1) 0x100 8 = false ∧ (sketched residentSketch).core.skIssue = none ∧
    (standing residentSketch).core.skIssue = some { op := ⟨3, 4, 5, 6, 0⟩, block := 1, run := none } ∧
    (skHeader [0x10000000, 0, 0, 0]).getLsbD 28 = true ∧ (skHeader [0x20000000, 0, 0, 0]).getLsbD 29 = true ∧ (5 : Reg).toNat % 2 = 1 ∧
    (match skRunFor addSketch (sksEnv (sketched residentSketch) ⟨3, 4, 5, 6, 0⟩) 1 (skStart 0 0) with
      | .done k => k.out0 == 42
      | _ => false) = true := by decide +kernel
theorem test_sketch_commits : after (exec (.sks ⟨3, 4, 5, 6, 0⟩) committing) (fun t => t.rd 4 == 42 && t.core.pc == 8 && cget t.core.spad 0x100 == 7 && t.core.sketch.isNone) = true ∧
    after (exec (.sks ⟨3, 4, 5, 6, 0⟩) (onCore committing (fun c => { c with poison := [(4, 1)] }))) (fun t => t.core.run == .exited && cget t.core.spad 0x100 == 0) = true := by decide +kernel
/-- R267: of two stores one is performed in a move, and the run stands with the other. -/
theorem test_sketch_stores_apart : let two := { begun with queue := begun.queue ++ [(0x108, 0x108, 8, 9, 0)] }
    after (exec (.sks ⟨3, 4, 5, 6, 0⟩) (onCore committing (fun c => { c with sketch := some two }))) (fun t => cget t.core.spad 0x100 == 7 && cget t.core.spad 0x108 == 0 &&
      t.core.sketch == some { two with queue := [(0x108, 0x108, 8, 9, 0)], begun := true } && t.core.pc == 0) = true := by decide +kernel
theorem test_sketch_add : after (exec (.sks ⟨3, 4, 5, 6, 0⟩) (sketched residentSketch)) (fun t => t.rd 4 == 42 && t.core.pc == 8) = true ∧
    after (exec (.sks ⟨4, 4, 5, 6, 0⟩) (sketched residentSketch)) (fun t => t.core.run == .exited) = true ∧
    after (exec (.sks ⟨3, 4, 5, 6, 0⟩) (sketched { residentSketch with phys := none })) (fun t => t.core.stall == some .sketch) = true := by decide +kernel

theorem witness_SketchManagement : (let x := ownCtx (sketched residentSketch); x.partition = 2 ∧ (x.block 0).image = none ∧ (x.block 1).image ≠ none) ∧
    (inS (sketched residentSketch)).core.status.mode = true ∧
    (okWith (coreLoadWords (sketched residentSketch) 0x1000 2) [1, 0] = true ∧ okWith (coreLoadWords (sketched residentSketch) 0x1010 2) (addSketch.drop 2) = true ∧
     skBad addSketch = false ∧ (sketched residentSketch).blockInUse 0 0 = false ∧ (sketched residentSketch).cluster.physFree ≠ none ∧ skCount addSketch = 1) ∧
    (∀ j < 64, (sketched residentSketch).blockInUse 0 j = false) ∧ (standing { residentSketch with phys := none }).reloadWanted 1 = true := by decide +kernel
theorem test_sketch_management : after (exec (.skBind ⟨5, 1⟩) (sketched residentSketch)) (fun t => (ownCtx t).bindings == [(3, 1), (5, 1)] || (ownCtx t).bindings == [(5, 1), (3, 1)]) = true ∧
    after (exec (.skUnbind ⟨3⟩) (sketched residentSketch)) (fun t => (ownCtx t).bindings == []) = true ∧
    after (exec (.skWrite ⟨5, 0⟩) ((inS (sketched residentSketch)).wr 5 0x1000)) (fun t => ((ownCtx t).block 0).image == some addSketch && ((ownCtx t).block 0).phys.isSome && t.core.pc == 8) = true ∧
    after (exec (.skInval ⟨5, false⟩) ((inS (sketched residentSketch)).wr 5 0)) (fun t => ((ownCtx t).block 1).phys.isNone && ((ownCtx t).block 1).image == some addSketch) = true ∧
    after (exec (.skInval ⟨5, true⟩) ((inS (sketched residentSketch)).wr 5 0)) (fun t => ((ownCtx t).block 1).image.isNone && (ownCtx t).bindings == []) = true ∧
    after (exec (.sketchReload 1) (standing { residentSketch with phys := none })) (fun t => ((ownCtx t).block 1).phys.isSome) = true := by decide +kernel
/-- A hard save of the context with tiles, slots and an image; another core of the cluster holds the context, or none does. -/
noncomputable def savedHard : HardRecord := { vec := { vrb := 3 }, streams := Vector.replicate 8 {}, inbox := [⟨5, 6⟩], bufs := [], builder := none, windows := (Vector.replicate 16 {}).set 2 { alw := 9, den := true }
                                              directDen := true, tasks := [pendingTask []], tiles := [(1, { chk0 := { rc := 4 } })], slots := [(2, { present := true })], image := some ([(8, 7)], []), grant := 64 }
noncomputable def plainArea : SaveArea := { ctx := 0, core := ⟨0, 0, 0⟩, gen := 3, soft := savedSoft, hard := some savedHard, corrupt := false }
noncomputable def hardArea : SaveArea := plainArea.retag 0
noncomputable def withHard : State := unloaded (inS { base with modul := { base.modul with jobs := [{ savedJob with saves := [(⟨0, 0, 0⟩, hardArea)], grant := 64 }] } })
theorem hardArea_verifies : hardArea.verifies 0 0 ⟨0, 0, 0⟩ 3 = true := retag_verifies _ 0 rfl
theorem witness_Contexts_hard : hardArea.hard = some savedHard ∧ withHard.core.status.cv = false ∧ withHard.core.status.mode = true ∧ (withHard.cluster.ctxAt 0).isSome = true ∧
    (∀ k < 4, (withHard.coreAt ⟨0, 0, k⟩).holds 0 = false) ∧ ((withHard.coreAt ⟨0, 0, 0⟩).id = ⟨0, 0, 0⟩) :=
  ⟨(retag_fields _ 0).1, by decide +kernel⟩
theorem test_load_hard : after (.next (withHard.loadCtx 0 plainArea)) (fun t => t.core.inbox == [⟨5, 6⟩] && t.core.vec.vrb == 3 && t.core.windows[2].alw == 9 && t.core.windows[2].den && t.core.directDen &&
    (t.cluster.tile 1).chk0.rc == 4 && (t.cluster.slot 2).present && cget t.core.spad 8 == 7 && t.core.restored.length == 1) = true ∧
    after (.next (withHard.loadCtx 0 savedArea)) (fun t => t.core.inbox == [] && t.core.vec.vrb == 0 && t.core.windows[2].alw == 64 && !t.core.windows[2].den && t.core.restored == []) = true := by
  decide +kernel

/-! ## Witnesses: the vector engine -/

/-- A running task with a walker over 4 KiB of scratchpad from 0x1000, its next word about to issue; data in v1 and v2, k1 of lanes 0–7. -/
def vecTask : Task := { placedTask 0 with
  kt := 0x123456789ABCDEF, regions := [⟨false, true, true, false, .spad, 4, 0x1000, [(1024, 4)], 0⟩], bindings := [(3, 1)]
  op := .vec { body := 0, n := 1, extents := [1], stages := 1, walkers := some ⟨0, 0, [0]⟩ :: List.replicate 7 none, args := List.replicate 8 0 } }
def vecRun : VecRun := { task := vecTask, body := [0], iter := 0, next := 0, clock := 0, arith := 0, perm := 0, ldst := 0, flights := [], held := false }
noncomputable def onEngine : State := onCtx (onCore base (fun c => { c with vec := { c.vec with
    v := (c.vec.v.set 1 (csetList [] [(0, 0x3F800000), (1, 0xBF800000), (2, 3), (7, 0x12345678)])).set 2 (csetList [] [(0, 0x40000000), (1, 0x3F000000), (2, 5)]),
    k := c.vec.k.set 1 0xFF,
    x := c.vec.x.set 3 7, run := some vecRun } })) (fun x => { x with partition := 2, blocks := [(1, residentSketch)] })
theorem witness_VectorComparisonsAndMoves_mayIssue (p : Pipe) : mayIssue onEngine vecRun p := ⟨by decide +kernel, by cases p <;> decide +kernel⟩
/-- The lanes of the one result in flight, in a tile of zeros; and the pipe's end and landing cycle. -/
def landed (t : State) : Tile := match t.core.vec.run with
  | some r => match r.flights with
    | [f] => match f.dest with
      | .tile _ lanes => csetList [] lanes
      | _ => []
    | _ => []
  | none => []
theorem witness_VectorIntegerWords : active onEngine 1 32 0 ∧ ¬ active onEngine 1 32 8 ∧ ¬ active onEngine 2 32 0 := by
  unfold active
  decide +kernel
theorem witness_VectorFloatWords : (8 : Nat) ≤ (10 : BitVec 4).toNat ∧ (1 : BitVec 4).toNat ≤ 3 ∧ (3 : BitVec 3).toNat < 6 ∧ (3 : BitVec 6).toNat < 16 ∧ vecBits 10 = 32 := by decide
theorem test_vadd : after (exec (.vadd ⟨10, 1, 2, 0, 1, 10, false, 0, false, 0⟩) onEngine) (fun t => elemAt (landed t) 32 2 == 8 && elemAt (landed t) 32 0 == 0x7F800000 && elemAt (landed t) 32 7 == 0x12345678) = true := by
  decide +kernel
theorem test_vfadd : after (exec (.vfadd ⟨10, 1, 2, 0, 1, 1, false, 0, false, 0⟩) onEngine) (fun t => elemAt (landed t) 32 0 == 0x40400000 && elemAt (landed t) 32 1 == 0xBF000000) = true := by
  decide +kernel
theorem test_vbc : after (exec (.vbcR ⟨10, 1, 0, 2, 0, 10, false, 0, false, 0⟩) onEngine) (fun t => cget (landed t) 5 == 3 && cget (landed t) 64 == 0) = true := by decide +kernel
theorem test_vred : after (exec (.vredR ⟨10, 1, 0, 0, 1, 10, false, 0, false, 2⟩) onEngine) (fun t => cget (landed t) 0 == 0x3F800000) = true := by decide +kernel
theorem test_vcmp : after (exec (.vcmp ⟨5, 1, 2, 0, 1, 10, false, 0, false, 2⟩) onEngine)
    (fun t => (t.core.vec.run.map (fun r => r.flights.map (fun f => f.dest))) == some [.pred 5 0xFF 0x07]) = true := by decide +kernel
theorem test_kfirst : after (exec (.kfirst ⟨5, 1, 0, 0, 0, 0, false, 0, false, 0⟩) onEngine) (fun t => (t.core.vec.run.map (fun r => r.flights.map (fun f => f.dest))) == some [.xreg 5 0]) = true := by
  decide +kernel

theorem witness_VectorPackingAndStreams : (onCore onEngine (fun c => c.setStream 3 ⟨true, [9]⟩)).core.stream (BitVec.ofNat 3 3) = ⟨true, [9]⟩ ∧
    (onEngine.core.stream 2).bound = false ∧ (onCore onEngine (fun c => c.setStream 3 ⟨true, [9]⟩)).core.vec.run = some vecRun := by decide +kernel
theorem test_vsplat_pop : after (exec (.vsplatPop ⟨10, 3, 0, 0, 0, 11, false, 0, false, 0⟩) (onCore onEngine (fun c => c.setStream 3 ⟨true, [9]⟩)))
    (fun t => cget (landed t) 1023 == 9 && (t.core.stream 3).elems == []) = true := by decide +kernel

theorem witness_VectorMemoryAndSketches : (vecTask.walkerAt 0 0).any (fun p => p.1.space == .spad && (p.2 + 8) % 4 == 0 && decide (p.1.lo ≤ p.2 + 8 ∧ p.2 + 8 + 28 + 3 ≤ p.1.hi) && p.1.rd && p.1.wr) = true ∧
    vecTask.walkerAt 0 1 = none ∧ onEngine.taskBlock vecTask 3 = some (1, residentSketch) ∧ residentSketch.image = some addSketch := by
  decide +kernel
/-- Seven words from 0x1008 into lanes 0–7 (R244); a store of lanes 0–7; an element past the region is WALKER_RANGE. -/
theorem test_vector_memory : after (exec (.vld ⟨10, 0, 1, 2, false, 8⟩) (onCore onEngine (fun c => { c with spad := writeLE (writeLE [] 0x1008 4 7) 0x1024 4 11 })))
      (fun t => cget (landed t) 0 == 7 && cget (landed t) 7 == 11) = true ∧
    after (exec (.vst ⟨1, 0, 1, 2, false, 8⟩) onEngine) (fun t => readLE t.core.spad 0x1008 4 == 0x3F800000 && readLE t.core.spad 0x1024 4 == 0x12345678 && readLE t.core.spad 0x1028 4 == 0) = true ∧
    after (exec (.vld ⟨10, 0, 1, 2, false, 0x1000⟩) onEngine) (fun t => t.core.vec.run.isNone) = true ∧
    after (exec (.vgather ⟨10, 0, 1, 2, false, 20⟩) (onCore onEngine (fun c => { c with spad := writeLE [] 0x1014 4 7, vec := { c.vec with v := c.vec.v.set 20 (csetList [] [(0, 5)]) } })))
      (fun t => cget (landed t) 0 == 7 && cget (landed t) 1 == 0) = true ∧
    after (exec (.vscatter ⟨1, 0, 1, 2, false, 20⟩) (onCore onEngine (fun c => { c with vec := { c.vec with v := c.vec.v.set 20 (csetList [] [(0, 5), (1, 6)]) } })))
      (fun t => readLE t.core.spad 0x1014 4 == 0x3F800000 && readLE t.core.spad 0x1018 4 == 0xBF800000 && readLE t.core.spad 0x1000 4 == 0x12345678) = true := by decide +kernel
theorem test_sksv : after (exec (.sksv ⟨3, ⟨10, 1, 2, 0, 1, 10, false, 0, false, 0⟩⟩) (onCtx onEngine (fun x => { x with blocks := [(1, { residentSketch with image := some (addSketch.set 0 (1 + 2 ^ 28)) })] })))
    (fun t => cget (landed t) 2 == 8) = true := by decide +kernel

/-- The walker over a mapped window; and the first unit of the region marked, an odd offset, a sketch with a bad copy that is not resident. -/
def windowTask : Task := { vecTask with regions := [⟨false, false, true, false, .rem, 4, 0x4C000000, [(1024, 4)], 0⟩] }
noncomputable def toWindow : State := onCore onEngine (fun c => { c with windows := c.windows.set 3 { map := some mapFar }, vec := { c.vec with run := some { vecRun with task := windowTask } } })
noncomputable def spoiled : State := onCtx (onCore onEngine (fun c => { c with poison := cset c.poison 64 1 })) (fun x => { x with blocks := [(1, { residentSketch with phys := none, badCopy := true })] })
theorem witness_VectorMemoryAndSketches_stops : ((vecTask.walkerAt 0 0).map (fun p => decide (p.2 % 4 = 0 ∧ (p.2 + 1) % 4 ≠ 0 ∧ p.1.hi < p.2 + 0x1000 + 3)) = some true) ∧ active onEngine 1 32 0 ∧
    (∀ l < 1024, ¬ active onEngine 2 32 l) ∧ poisoned spoiled.core.poison 0x1000 4 = true ∧
    (spoiled.taskBlock vecTask 3).map (fun b => (b.2.phys, b.2.badCopy)) = some (none, true) ∧
    (windowTask.walkerAt 0 0).map (fun p => (p.1.space, p.1.wr, (p.1.base - 0x40000000) / 0x4000000, p.2)) = some (.rem, true, 3, 0x4C000000) ∧ toWindow.core.windows[3].map = some mapFar ∧
    toWindow.remoteHeld toWindow.core.id windowTask 3 mapFar = false := by
  unfold active
  and_intros <;> decide +kernel
theorem test_vector_memory_stops : after (exec (.vld ⟨10, 0, 1, 2, false, 1⟩) onEngine) (fun t => t.core.vec.run.isNone) = true ∧
    after (exec (.vld ⟨10, 0, 1, 2, false, 0⟩) spoiled) (fun t => t.core.vec.run.isNone) = true ∧
    after (exec (.vst ⟨1, 0, 1, 2, false, 8⟩) toWindow) (fun t => t.core.windows[3].out == 1 && (t.die.unacked.map (fun p => p.body)).length == 1) = true ∧
    after (exec (.sksv ⟨3, ⟨10, 1, 2, 0, 1, 10, false, 0, false, 0⟩⟩) spoiled) (fun t => t.core.vec.run.isNone) = true := by decide +kernel
/-- `nop` as a word of a body takes one issue slot (R64); on the core it only goes on. -/
theorem test_nop : after (exec .nop { onEngine with sched := { onEngine.sched with turn := .vector } }) (fun t => t.core.pc == onEngine.core.pc &&
      (t.core.vec.run.map (fun r => (r.clock, r.next, r.flights))) == some (1, 1, [])) = true ∧ after (exec .nop base) (fun t => t.core.pc == 8) = true := by decide +kernel

/-! ## Witnesses: engines of a cluster -/

/-- Two ready copies, the later one of higher priority; a shaper load; a matrix command and an accumulator zero, the lease with core 0. -/
noncomputable def readyMma : Task := { pendingTask [] with id := 5, op := .mma 4 2 0 1 0 }
noncomputable def readyZero : Task := { pendingTask [] with id := 5, op := .acc 0 3 }
noncomputable def readyShape : Task := { pendingTask [] with id := 4, op := .shape true 0 }
noncomputable def waitingEngines : State := onCluster base (fun k => { k with tasks := [pendingTask [], { pendingTask [] with id := 3, pri := 2 }, readyShape, readyMma]
                                                                              canvas := { k.canvas with holder := some 0, done := 0, leaseLen := 4, leaseStart := none, cold := false, gust := true } })
theorem placed_waitingEngines : waitingEngines.placed := by unfold State.placed; decide +kernel
theorem witness_TaskDispatch : chosen waitingEngines Task.isCopy { pendingTask [] with id := 3, pri := 2 } ∧ chosen waitingEngines Task.isShape readyShape ∧
    chosen waitingEngines (fun u => u.isCanvas && (if u.remote then 4 else u.core) == 0) readyMma ∧ waitingEngines.cluster.canvas.holder = some 0 ∧
    (∀ a, waitingEngines.cluster.canvas.leaseStart = some a → waitingEngines.sched.now < a + 32768) := by
  refine ⟨⟨[pendingTask []], [readyShape, readyMma], ?_⟩, ⟨[pendingTask [], { pendingTask [] with id := 3, pri := 2 }], [readyMma], ?_⟩,
    ⟨[pendingTask [], { pendingTask [] with id := 3, pri := 2 }, readyShape], [], ?_⟩, ?_, ?_⟩
  · decide +kernel
  · decide +kernel
  · decide +kernel
  · decide +kernel
  · intro a h
    cases h
theorem test_dispatch : after (exec (.taskDispatch (.copy 0)) waitingEngines) (fun t => t.cluster.copy0 == some 3) = true ∧
    after (exec (.taskDispatch .shaper) waitingEngines) (fun t => t.cluster.shaper == some 4) = true ∧
    after (exec (.taskDispatch .canvas) waitingEngines) (fun t => t.cluster.canvasTask == some 5 && t.cluster.canvas.leaseStart.isSome) = true := by decide +kernel

/-- A vector task of one legal word at 0x1000, and an `rpost` task, ready. -/
def vectorBody : Word := (encode 0 (.vadd ⟨2, 1, 1, 0, 0, 10, false, 0, false, 0⟩)).getD 0
def readyVector : Task := { vecTask with id := 6, phase := .ready, op := .vec { body := 0x1000, n := 1, extents := [1], stages := 1, walkers := List.replicate 8 none, args := [7] } }
noncomputable def withVector : State := onCluster (onCore base (fun c => { c with spad := writeLE [] 0x1000 8 vectorBody.toNat })) (fun k => { k with tasks := [readyVector] })
theorem witness_TaskDispatch_vector : chosen withVector (fun u => u.isVec && u.core == withVector.core.id.core && !u.remote) readyVector ∧ withVector.core.vec.run = none ∧
    readyVector.resume = .start ∧ withVector.bodyWords readyVector = [vectorBody] ∧ withVector.bodyFault { readyVector with phase := .dispatched } [vectorBody] = none ∧
    ∀ u ∈ withVector.cluster.tasks, u.isVec = true → u.core = withVector.core.id.core → u.phase ≠ .dispatched := by
  refine ⟨⟨[], [], ?_⟩, ?_⟩ <;> decide +kernel
theorem test_dispatch_vector : after (exec (.taskDispatch (.vector 0)) withVector) (fun t => (t.core.vec.run.map (fun r => (r.task.id, r.body, r.iter, r.next, r.clock))) == some (6, [vectorBody], 0, 0, 0) &&
    t.core.vec.x[0] == 7 && t.core.vec.x[8] == 0) = true := by decide +kernel
/-- The body's word is illegal: the task ends before its first issue (R225). -/
noncomputable def withBadBody : State := onCore withVector (fun c => { c with spad := [(0x1000, 1)] })
theorem witness_TaskDispatch_fault : withBadBody.core.vec.run = none ∧ readyVector.resume = .start ∧ (∀ j < 4, ¬ (j < readyVector.vec.n ∧ poisoned withBadBody.core.poison (readyVector.vec.body + 8 * j) 8 = true)) ∧
    (withBadBody.bodyWords readyVector)[0]? = some 1 ∧ vectorLegal 1 = false ∧ vectorLegal vectorBody = true := by decide +kernel
theorem test_dispatch_fault : after (exec (.taskDispatch (.vector 0)) withBadBody) (fun t => t.core.vec.run.isNone && t.cluster.tasks == [] && t.core.cr.tflog.toNat % 2 ^ 16 == causeCode .illegalOp) = true := by
  decide +kernel
noncomputable def readyPost : Task := { pendingTask [] with id := 7, cls := 3, op := .rpost farWord (.post 0 none [] []) }
noncomputable def withPost (p : TaskPhase) : State := onCluster base (fun k => { k with tasks := [{ readyPost with phase := p }], fabric := if p = .dispatched then [7] else [] })
theorem witness_TaskDispatch_post : (let s := withPost .ready; let g := s.target farWord
    s.cluster.tasks = [] ++ readyPost :: [] ∧ s.dispatchable 0 0 readyPost = true ∧ s.ownCluster ⟨0, 0, 0⟩ g = false ∧ s.die.pairRoom g.die 3 = true ∧
    s.die.retryBlocks g 3 isPost = false ∧ fenceHolds [] (s.coreAt ⟨0, 0, 0⟩).effects g.die 3 = false) := by decide +kernel
theorem test_dispatch_post : after (exec (.taskDispatch .fabric) (withPost .ready)) (fun t => t.cluster.fabric == [7] &&
    t.die.unacked.map (fun p => (p.core, p.clu, p.cls, p.from_.task)) == [(((withPost .ready).target farWord).core, ((withPost .ready).target farWord).clu, 3, some 7)]) = true := by decide +kernel

/-- A fill of 8-byte elements, done, with a dependent; its completion flag is 2. -/
def fillRegion : Region := ⟨false, false, true, false, .spad, 8, 0x1000, [(3, 8)], 0⟩
noncomputable def doneFill (n : Nat) : Task := { pendingTask [fillRegion] with id := 3, op := .copy 1 0xAB, phase := .dispatched, resume := .copy n 0 [], flag := some 2, flags := 4 }
noncomputable def filling (n : Nat) : State := onCtx (onCluster base (fun k => { k with tasks := [doneFill n, { pendingTask [] with id := 8, waits := [3], phase := .waiting }], copy0 := some 3 }))
  (fun x => x.updFlags 0 (fun g => { g with fmap := (Vector.replicate 8 0).set 0 (0x85 * 2 ^ 16) }))
theorem placed_base : base.placed := by unfold State.placed; decide +kernel
theorem witness_TaskCompletion : (filling 3).placed ∧ isDone (filling 3) (.copy 0) (doneFill 3) ∧ isDone (onCluster base (fun k => { k with tasks := [{ readyZero with phase := .dispatched }], canvasTask := some 5 })) .canvas
      { readyZero with phase := .dispatched } ∧ isDone (onCluster base (fun k => { k with tasks := [{ readyShape with phase := .dispatched }], shaper := some 4 })) .shaper { readyShape with phase := .dispatched } := by
  refine ⟨?_, ?_, ?_, ?_⟩
  · unfold State.placed; decide +kernel
  · unfold isDone; decide +kernel
  · exact ⟨by decide +kernel, by decide +kernel, .inr ⟨by decide +kernel, by decide +kernel, by decide +kernel, .inl ⟨_, rfl⟩⟩⟩
  · exact ⟨by decide +kernel, by decide +kernel, by decide +kernel, true, 0, rfl, .inl rfl⟩
theorem witness_TaskCompletion_vector : (let s := onCluster (onCore base (fun c => { c with vec := { c.vec with run := some { vecRun with next := 1 } } })) (fun k => { k with tasks := [vecTask] })
    isDone s (.vector 0) vecTask) ∧ isDone (withPost .dispatched) .fabric { readyPost with phase := .dispatched } := by
  refine ⟨⟨by decide +kernel, rfl, _, rfl, by decide +kernel, by decide +kernel, rfl, by decide +kernel⟩, ⟨[], [], by decide +kernel, rfl, rfl, by simp, ?_⟩⟩
  decide +kernel
/-- The fill again, done while a fence of its core waits for an effect on its own die; and COMPLETE, with and without that effect. -/
noncomputable def fencedFill (p : TaskPhase) (es : List Effect) : State :=
  onCore (onCluster (filling 3) (fun k => { k with tasks := k.tasks.map (fun u => if u.id = 3 then { u with phase := p, orders := [{ mask := 1, uids := [4] }] } else u)
                                                   copy0 := if p = .dispatched then some 3 else none })) (fun c => { c with effects := es })
def owed : Effect := { uid := 4, ctx := 0, cls := 0, die := 0, clu := 0, core := 1, task := none }
theorem witness_TaskCompletion_fenced : isDone (fencedFill .dispatched [owed]) (.copy 0) { doneFill 3 with orders := [{ mask := 1, uids := [4] }] } ∧
    fenceHolds [{ mask := 1, uids := [4] }] ((fencedFill .dispatched [owed]).coreAt ⟨0, 0, 0⟩).effects ((fencedFill .dispatched [owed]).dieNumber 0) (doneFill 3).cls = true ∧
    (doneFill 3).stop = false := by
  refine ⟨?_, ?_⟩
  · unfold isDone; decide +kernel
  · decide +kernel
theorem test_complete_fenced : after (exec (.taskComplete (.copy 0)) (fencedFill .dispatched [owed])) (fun t => t.cluster.copy0.isNone && t.core.flags[5] == 0 &&
      (t.cluster.tasks.map (fun k => (k.id, k.phase))) == [(3, .complete), (8, .ready)]) = true ∧
    after (exec (.taskComplete (.copy 0)) (fencedFill .complete [])) (fun t => t.core.flags[5] == 1 && (t.cluster.tasks.map (fun k => k.id)) == [8]) = true := by decide +kernel
theorem test_complete : after (exec (.taskComplete (.copy 0)) (filling 3)) (fun t => t.cluster.copy0.isNone && (t.cluster.tasks.map (fun k => (k.id, k.phase))) == [(8, .ready)] &&
      t.core.cr.fpstat == 4 && t.core.flags[5] == 1) = true ∧
    after (exec (.taskComplete .fabric) (withPost .dispatched)) (fun t => t.cluster.tasks == [] && t.cluster.fabric == []) = true ∧
    after (exec (.taskComplete .shaper) (onCluster base (fun k => { k with tasks := [{ readyShape with phase := .dispatched }], shaper := some 4 }))) (fun t => t.cluster.shaper.isNone) = true ∧
    after (exec (.taskComplete (.vector 0)) (onCluster (onCore base (fun c => { c with vec := { c.vec with run := some { vecRun with next := 1 } } })) (fun k => { k with tasks := [vecTask] })))
      (fun t => t.core.vec.run.isNone && t.cluster.tasks == []) = true := by decide +kernel

/-- A box copy of three doublewords from 0x1000 to 0x2000, every second one. -/
noncomputable def boxTask : Task := { pendingTask [⟨false, true, false, false, .spad, 8, 0x1000, [(3, 8)], 0⟩, ⟨false, false, true, false, .spad, 8, 0x2000, [(3, 16)], 0⟩] with id := 3, op := .copy 0 0, phase := .dispatched }
noncomputable def boxing : State := onCluster (onCore base (fun c => { c with spad := writeLE (writeLE [] 0x1000 8 7) 0x1010 8 9 })) (fun k => { k with tasks := [boxTask], copy1 := some 3 })
noncomputable def aMma : State := onCluster base (fun k => { k with tasks := [{ readyMma with phase := .dispatched }], canvasTask := some 5 })
theorem witness_CopyAndMatrixTasks : (boxing.cluster.copyEngine 1 = some boxTask ∧ boxTask.overlapping = false ∧ boxTask.copyAtBoundary = true ∧
      boxTask.hasWritten = false ∧ boxTask.hbmQueue = [] ∧ boxing.beingSaved 0 0 boxTask = false) ∧
    ((filling 0).cluster.copyEngine 0 = some (doneFill 0) ∧ (doneFill 0).copyNext < fillRegion.count ∧ (doneFill 0).hasWritten = false ∧ (doneFill 0).hbmQueue = []) ∧
    (isDone aMma .canvas { readyMma with phase := .dispatched }) ∧
    (3 : Word).toNat % 64 < 48 ∧ (3 : Word).toNat / 2 ^ 12 % 4 ≠ 2 := by
  refine ⟨by decide +kernel, by decide +kernel, ⟨by decide +kernel, by decide +kernel, .inr ⟨by decide +kernel, by decide +kernel, by decide +kernel,
    .inr ⟨4, 2, 0, 1, 0, rfl, fun h _ u _ => ?_, fun n hn u _ => ?_⟩⟩⟩, by decide, by decide⟩
  · have : (aMma.cluster.tile 2).poison = [] := by decide +kernel
    exact (congrArg (cget · _) this).trans rfl
  · have : ∀ n ∈ mmaSlots 4 0 1, (aMma.cluster.slot n).errors = [] := by decide +kernel
    exact (congrArg (cget · u) (this n hn)).trans rfl
theorem test_chunk : after (exec (.copyChunk 1) boxing) (fun t => readLE t.core.spad 0x2000 8 == 7 && readLE t.core.spad 0x2008 8 == 0 && readLE t.core.spad 0x2020 8 == 9 &&
      (t.cluster.tasks.map (fun k => k.resume)) == [.copy 3 0 []]) = true ∧
    after (exec (.copyChunk 0) (filling 0)) (fun t => readLE t.core.spad 0x1010 8 == 0xAB && readLE t.core.spad 0x1018 8 == 0) = true := by decide +kernel
theorem test_acc_zero : after (exec (.taskComplete .canvas) (onCluster base (fun k => { k with tasks := [{ readyZero with phase := .dispatched }], canvasTask := some 5 })))
    (fun t => t.cluster.canvasTask.isNone && t.cluster.canvas.done == 1) = true := by decide +kernel

/-- A running body of two words with a result in flight for cycle 3; and between iterations. -/
def flying : VecRun := { vecRun with body := [vectorBody, 5 * 2 ^ 54 + vectorBody], next := 1, clock := 1, arith := 9, flights := [{ word := vectorBody, lat := 2, landAt := 3, j := 0, iter := 0, dest := .xreg 5 77 }] }
noncomputable def engineAt (r : VecRun) : State := onCluster (onCore base (fun c => { c with vec := { c.vec with run := some r } })) (fun k => { k with tasks := [vecTask] })
def atBoundary : VecRun := { flying with next := 2, flights := [], task := { vecTask with op := .vec { body := 0, n := 2, extents := [3], stages := 2, walkers := [], args := [] } } }
theorem witness_VectorEngineSteps : (flying.next < flying.body.length ∧ ∃ f ∈ flying.flights, f.landAt ≤ flying.issueAt flying.next) ∧ flying.issueAt flying.next < flying.free .arith ∧
    (atBoundary.body.length ≤ atBoundary.next ∧ atBoundary.iter + 1 < atBoundary.task.kernels ∧ ((engineAt atBoundary).liveTask atBoundary).stop = false ∧
      (engineAt atBoundary).vecSaving ((engineAt atBoundary).liveTask atBoundary) = false) := by
  decide +kernel
/-- A task at a boundary that is to stop, and one whose core is in a hard save with an operation that lands later. -/
noncomputable def stopping (cancel : Bool) : State :=
  let r := { atBoundary with arith := 20, flights := [{ word := vectorBody, lat := 2, landAt := 30, j := 0, iter := 0, dest := .xreg 5 77 }] }
  onCore (onCluster (engineAt r) (fun k => { k with tasks := [{ r.task with stop := cancel }] })) (fun c => { c with saving := !cancel })
theorem witness_VectorEngineSteps_boundary : (stopping true).placed ∧ (stopping false).placed ∧
    ((stopping true).core.vec.run.map (fun r => ((stopping true).liveTask r).stop)) = some true ∧
    ((stopping false).core.vec.run.map (fun r => (((stopping false).liveTask r).stop, (stopping false).vecSaving ((stopping false).liveTask r)))) = some (false, true) := by
  refine ⟨?_, ?_, by decide +kernel, by decide +kernel⟩ <;> (unfold State.placed; decide +kernel)
/-- R226: the cancelled task is gone with what was in flight landed; the saved one keeps its operation, two cycles on, and its busy pipe. -/
theorem test_boundary_stops : after (exec .kernelIterationBoundary (stopping true)) (fun t => t.core.vec.run.isNone && t.cluster.tasks == [] && t.core.vec.x[5] == 77) = true ∧
    after (exec .kernelIterationBoundary (stopping false)) (fun t => t.core.vec.run.isNone && t.core.vec.x[5] == 0 && t.core.vec.vrb == 31 &&
      (t.cluster.tasks.map (fun k => match k.resume with
        | .iter i fs a _ _ => (i, fs.map (fun f => f.landAt), a)
        | _ => (9, [], 9))) == [(1, [28], 18)]) = true := by decide +kernel
theorem test_engine_steps : after (exec .vectorResultLand (engineAt flying)) (fun t => t.core.vec.x[5] == 77 && (t.core.vec.run.map (fun r => r.flights)) == some []) = true ∧
    after (exec .kernelIterationBoundary (engineAt atBoundary)) (fun t => t.core.vec.vrb == 31 && (t.core.vec.run.map (fun r => (r.iter, r.next))) == some (1, 0) && t.core.vec.k[8] == BitVec.allOnes 1024 &&
      t.core.vec.k[10] == 0 && t.core.vec.k[9] == BitVec.allOnes 1024) = true ∧
    after (exec .holdRelease (engineAt { flying with held := true })) (fun t => (t.core.vec.run.map (fun r => r.held)) == some false) = true ∧
    after (exec (.vadd ⟨2, 1, 1, 0, 0, 10, false, 0, false, 0⟩) (engineAt { flying with flights := [] })) (fun t => t.core.vec.run.isNone) = true := by decide +kernel

noncomputable def canvasAt (f : Canvas → Canvas) : State := onCluster waitingEngines (fun k => { k with canvas := f k.canvas })
theorem witness_CanvasAndTokens : (let c := (canvasAt (fun c => { c with holder := none })).cluster.canvas; c.holder = none ∧ c.last < 5 ∧ (canvasAt (fun c => { c with holder := none })).canvasReady 0 0 0 ≠ []) ∧
    (let s := canvasAt (fun c => { c with done := 4 }); s.cluster.canvas.holder = some 0 ∧ s.cluster.canvas.leaseLen ≤ s.cluster.canvas.done) ∧
    (let s := canvasAt (fun c => { c with gust := false, cold := true }); s.ringPlace 0 0 ∈ ({ s.die with gustFree := [0] }).gustFree ∧ s.canvasReady 0 0 0 ≠ []) ∧ waitingEngines.die.thermal = 0 := by decide +kernel
noncomputable def ringAt (s : State) (free : List Nat) (held now : Nat) : State := { s with die := { s.die with gustFree := free, gustHeld := held }, sched := { s.sched with now := now } }
theorem test_canvas : after (exec .canvasLeaseGrant (canvasAt (fun c => { c with holder := none, lens := c.lens.set 0 9 }))) (fun t => t.cluster.canvas.holder == some 0 && t.cluster.canvas.leaseLen == 9) = true ∧
    after (exec .leaseEnd (canvasAt (fun c => { c with done := 4 }))) (fun t => t.cluster.canvas.holder == none && t.cluster.canvas.last == 0 && t.cluster.canvas.ends == 1) = true ∧
    after (exec .canvasCold (ringAt waitingEngines [] 0 2000)) (fun t => t.cluster.canvas.cold) = true ∧
    after (exec .gustTokenTake (ringAt (canvasAt (fun c => { c with gust := false, cold := true })) [0, 3] 0 50)) (fun t => t.die.gustFree == [3] && t.die.gustHeld == 1 && t.cluster.canvas.gust && !t.cluster.canvas.cold && t.cluster.canvas.gustAt == 50) = true ∧
    after (exec .rampWindowEnd (ringAt (canvasAt (fun c => { c with gust := true, gustAt := 0 })) [3] 1 2048)) (fun t => !t.cluster.canvas.gust && t.die.gustHeld == 0 && t.die.gustFree == [3, 0]) = true ∧
    after (exec .gustTokenAdvance (ringAt base [3, 11] 0 16)) (fun t => t.die.gustFree == [4, 0] && t.die.gustMovedAt == 16) = true := by decide +kernel
/-- A matrix command of each kind, ready to end: the hypotheses of its clause. -/
noncomputable def mmaOf (minor : Nat) : Task := { readyMma with phase := .dispatched, op := .mma minor 2 0 4 4 }
noncomputable def mmaState (minor : Nat) : State := onCluster base (fun k => { k with tasks := [mmaOf minor], canvasTask := some 5 })
theorem witness_CopyAndMatrixTasks_float (minor : Nat) (h : minor ∈ [0, 1, 2, 3, 5, 6, 7, 8]) : isDone (mmaState minor) .canvas (mmaOf minor) ∧ (mmaOf minor).hasWritten = false ∧
    (mmaOf minor).flag = none := by
  have slots : ∀ n, n < 8 → ((mmaState minor).cluster.slot n).errors = [] := by
    intro n hn
    have : (mmaState minor).cluster.slots = base.cluster.slots := rfl
    unfold Cluster.slot
    rw [this]
    revert n
    decide +kernel
  refine ⟨⟨rfl, rfl, .inr ⟨rfl, rfl, rfl, .inr ⟨minor, 2, 0, 4, 4, rfl, fun h _ u _ => rfl, fun n hn u _ => ?_⟩⟩⟩, rfl, rfl⟩
  have few : n < 8 := by
    revert n
    fin_cases h <;> decide
  exact (congrArg (cget · u) (slots n few)).trans rfl
/-- A shaper load of half-precision numbers from a null region, an unload to scratchpad, and canvas commands on memory. -/
noncomputable def shapeOf (unload : Bool) (h : Word) (rs : List Region) : Task := { readyShape with phase := .dispatched, op := .shape unload h, regions := rs }
noncomputable def shaping (t : Task) : State := onCluster base (fun k => { k with tasks := [t], shaper := some 4 })
theorem witness_CopyAndMatrixTasks_shaper : let t := shapeOf false 0x00044000 []; let w := shapeOf true 0 [⟨false, false, true, false, .spad, 8, 0x1000, [(128, 8), (128, 1024)], 0⟩]
    isDone (shaping t) .shaper t ∧ t.op = .shape false 0x00044000 ∧ shDf 0x00044000 = 2 ∧ shSf 0x00044000 = 2 ∧ shSlot 0x00044000 < 32 ∧ isDone (shaping w) .shaper w := by
  refine ⟨⟨by decide +kernel, by decide +kernel, by decide +kernel, false, _, rfl, .inr (by simp [shapeOf])⟩, rfl, by decide, by decide, by decide,
    by decide +kernel, by decide +kernel, by decide +kernel, true, _, rfl, .inl rfl⟩
noncomputable def accOf (op : Nat) (h : Word) (rs : List Region) : Task := { readyZero with phase := .dispatched, op := .acc op h, regions := rs }
noncomputable def accState (t : Task) : State := onCluster base (fun k => { k with tasks := [t], canvasTask := some 5 })
theorem witness_CopyAndMatrixTasks_accumulator : let r : Region := ⟨false, false, true, false, .spad, 4, 0x1000, [(256, 4), (256, 1024)], 0⟩
    let t := accOf 2 0x8003 [r]; let s := accState t
    s.cluster.canvasTask.bind s.cluster.task? = some t ∧ t.hbmIdle = true ∧ t.hasWritten = false ∧ s.hbmHeld 0 0 t = false ∧ s.farMissing 0 t = [] ∧ acTile 0x8003 = 3 ∧
    acKind 0x8003 = 0 ∧ acMf 0x8003 = 1 ∧ acHs 0x8003 = 0 ∧ acCk 0x8003 = false ∧ (t.copyRegion 0) = r ∧ (s.cluster.tile 3).poison = [] ∧ (s.cluster.tile 3).chk0.cvr = false ∧
    acKind 0x51003 = 1 := by decide +kernel
/-- A gather of two bytes by 4-byte indices from a table of four. -/
noncomputable def gatherTask : Task := { pendingTask [⟨false, true, false, false, .spad, 1, 0x1000, [(4, 2)], 0⟩, ⟨false, true, false, false, .spad, 4, 0x2000, [(2, 4)], 0⟩,
    ⟨false, false, true, false, .spad, 1, 0x3000, [(2, 1)], 0⟩] with id := 3, op := .copy 2 0, phase := .dispatched }
noncomputable def gathering (index : Nat) : State :=
  onCluster (onCore base (fun c => { c with spad := writeLE (writeLE [] 0x1006 1 9) 0x2000 4 index })) (fun k => { k with tasks := [gatherTask], copy1 := some 3 })
theorem witness_CopyAndMatrixTasks_indexed : (gathering 3).cluster.copyEngine 1 = some gatherTask ∧ gatherTask.copyNext < 2 ∧ gatherTask.hasWritten = false ∧ gatherTask.hbmQueue = [] ∧
    (gathering 3).beingSaved 0 0 gatherTask = false ∧ readLE (gathering 3).core.spad 0x2000 4 < 4 ∧ 4 ≤ readLE (gathering 4).core.spad 0x2000 4 ∧ gatherTask.policy = 2 ∧
    gatherTask.hbmOpen = [] ∧ (gathering 3).core.poison = [] ∧ (gathering 4).core.cr.tflog = 0 := by decide +kernel
theorem test_gather : after (exec (.copyChunk 1) (gathering 3)) (fun t => readLE t.core.spad 0x3000 1 == 9 && (t.cluster.tasks.map (fun k => k.resume)) == [.copy 2 0 []]) = true ∧
    after (exec (.copyChunk 1) (gathering 4)) (fun t => t.core.cr.tflog == 0x0001_0000_0000_0004 && t.cluster.tasks == []) = true := by decide +kernel

/-! ## Witnesses: the fabric -/

/-- A packet from die 1 to core 0, at its turn in the resequencer; a grant entry that lets everything in, with flag 2 mapped to physical flag 5. -/
def packet (b : PktBody) : Packet := ⟨1, 1, 0, 0, 0, 0, 3, 0, b, ⟨⟨1, 0, 0⟩, 0, none, none, none⟩⟩
def openGrant : BitVec 128 := BitVec.ofNat 128 (2 ^ 63 + 31 * 2 ^ 58 + 2 ^ 57 + 2 * 2 ^ 51 + 2 ^ 64 * (7 * 2 ^ 52 + 0x10000))
noncomputable def receiving (b : PktBody) (g : BitVec 128) : State :=
  let s := onCtx base (fun x => { x with grants := x.grants.set 0 g, cores := x.cores.set 0 { x.cores[0] with fmap := (Vector.replicate 8 0).set 0 (0x85 * 2 ^ 16) } })
  { s with die := { s.die with resequencer := [packet b] } }
def writePacket : PktBody := .write 0x100 [(0x100, 7), (0x101, 8)] true false
def addPacket : PktBody := .atomic 0x100 (.op .add 2 5 0)
theorem witness_PacketDelivery : base.dieIndex 0 = some 0 ∧ (receiving writePacket openGrant).deliverable 0 (packet writePacket) = true ∧
    (receiving writePacket 0).packetCtx 0 { packet writePacket with fjob := 9 } = none ∧
    (let s := receiving writePacket openGrant; let x := ownCtx s; s.packetCtx 0 (packet writePacket) = some x ∧ s.ctxAt 0 0 x.ctx = some x ∧ 1 ∉ x.cancelSrc ∧
      (grantEntry x (s.ctxGrant x.ctx) (packet writePacket)).isSome = true ∧ ([(0x100, 7), (0x101, 8)] : List (Nat × Byte)).map Prod.fst = [0x100, 0x101]) ∧
    (let s := receiving writePacket 0; grantEntry (ownCtx s) (s.ctxGrant 0) (packet writePacket) = none) ∧
    ((receiving addPacket openGrant).remoteRead 0 ⟨0, 0, 0⟩ 0x100 4).2 = false ∧ cget (receiving addPacket 0).modul.hbmPoison 4 = 0 := by decide +kernel
/-- What the answer of the one packet is. -/
def answerOf (t : State) : List Flow := ((t.die.bufs.filter (fun b => b.port == .loc && b.resp)).flatMap (fun b => b.flows))
theorem test_delivery : after (exec (.write (packet writePacket)) (receiving writePacket openGrant)) (fun t => cget t.core.spad 0x100 == 7 && cget t.core.spad 0x101 == 8 && t.core.flags[5] == 1 &&
      answerOf t == [.response ⟨1, 0, 1, .ack⟩] && t.die.resequencer == []) = true ∧
    after (exec (.write (packet writePacket)) (receiving writePacket 0)) (fun t => cget t.core.spad 0x100 == 0 && answerOf t == [.response ⟨1, 0, 1, .deny .winDenied⟩]) = true ∧
    after (exec (.atomic (packet addPacket)) (receiving addPacket openGrant)) (fun t => cget t.core.spad 0x100 == 5 && answerOf t == [.response ⟨1, 0, 1, .reply 0⟩]) = true ∧
    after (exec (.flag (packet (.flag 2 9))) (receiving (.flag 2 9) openGrant)) (fun t => t.core.flags[5] == 9) = true ∧
    after (exec (.msg (packet (.msg 77))) (receiving (.msg 77) openGrant)) (fun t => t.core.inbox == [⟨77, 64⟩]) = true ∧
    after (exec (.hbm (packet (.hbm 0x1000 none (.op .add 3 5 0)))) (receiving (.hbm 0x1000 none (.op .add 3 5 0)) openGrant)) (fun t => (hbmByte t.modul 0 0x1000).toNat == ((hbmByte base.modul 0 0x1000).toNat + 5) % 256) = true := by
  decide +kernel

def fillPost : PktBody := .post (BitVec.ofNat 512 (2 ^ 56 + 2 ^ 51 + 2 ^ 18)) none [BitVec.ofNat 256 (2 ^ 62 + 3 * 2 ^ 52 + 0x2000 + 2 ^ 64 * 3)] []
theorem witness_RemotePostsAndCancels : (receiving (.cancel) openGrant).deliverable 0 (packet .cancel) = true ∧ (receiving fillPost openGrant).deliverable 0 (packet fillPost) = true ∧
    (onCluster base (fun k => { k with tasks := List.replicate 128 { pendingTask [] with remote := true } })).cluster.tasks.length = 128 := by decide +kernel
theorem test_cancel_packet : after (exec (.cancel (packet .cancel)) (onCluster (receiving .cancel openGrant) (fun k => { k with tasks :=
      [{ pendingTask [] with remote := true, srcDie := 1 }, { pendingTask [] with id := 3, remote := true, srcDie := 2 }] })))
    (fun t => (t.cluster.tasks.map (fun u => u.id)) == [3] && (ownCtx t).cancelSrc == [1] && answerOf t == [.response ⟨1, 0, 1, .ack⟩]) = true := by decide +kernel

/-- A read of a unit for a task of die 1 whose job and die are cancelled; a message behind an earlier one that was answered with RETRY. -/
def unitRead : PktBody := .hbmRead 64 none
noncomputable def cancelledThere : State := onCtx (receiving unitRead openGrant) (fun x => { x with cancelSrc := [1] })
def messageAt (uid : Nat) (seq : BitVec 16) : Packet := { packet (.msg 77) with src := 0, uid := uid, seq := seq }
noncomputable def behindRetry : State := let s := receiving (.msg 77) openGrant
  { s with die := { s.die with resequencer := [messageAt 2 0], unacked := [messageAt 1 0, messageAt 2 0], retried := [(1, false)] } }
theorem witness_PacketDelivery_order : cancelledThere.deliverable 0 (packet unitRead) = true ∧ cancelledThere.cancelledAt 0 (packet unitRead) = true ∧
    (receiving unitRead openGrant).cancelledAt 0 (packet unitRead) = false ∧ behindRetry.deliverable 0 (messageAt 2 0) = true ∧ behindRetry.heldInOrder (messageAt 2 0) = true := by decide +kernel
theorem test_delivery_order : after (exec (.hbm (packet unitRead)) cancelledThere) (fun t => answerOf t != [.response ⟨1, 0, 1, .data 0 false⟩]) = true ∧
    after (exec (.msg (messageAt 2 0)) behindRetry) (fun t => t.core.inbox == [] && answerOf t == [.response ⟨2, 0, 0, .retry⟩]) = true := by decide +kernel

/-- A packet of the acting core that awaits its answer, and the answer. -/
def mine (b : PktBody) (w : Option Nat) (task : Option Nat) : Packet := ⟨1, 0, 1, 0, 0, 0, 3, 0, b, ⟨⟨0, 0, 0⟩, 0, w, task, none⟩⟩
def answering (k : RespKind) : Response := ⟨1, 1, 0, k⟩
noncomputable def awaitingAnswer (p : Packet) (k : RespKind) : State := onCore { base with die := { base.die with unacked := [p], arrived := [answering k] } }
  (fun c => { c with directOut := 1, windows := c.windows.set 3 { c.windows[3] with out := 1 } })
def writeThrough : Packet := mine writePacket (some 3) none
def askAtomic : Packet := mine addPacket (some 3) none
def waiter : Awaiting := { uid := 1, d := 4, size := 2, sx := true, claim := false, ea := 0x100 }
noncomputable def awaitingReply (k : RespKind) : State := onCore (awaitingAnswer askAtomic k) (fun c => { c with stall := some .reply, await := some waiter })
theorem witness_AnswersAndResends : (awaitingAnswer writeThrough .ack).answered (answering .ack) = some (0, writeThrough) ∧
    (awaitingReply (.reply 9)).answered (answering (.reply 9)) = some (0, askAtomic) ∧ (awaitingReply (.reply 9)).core.await = some waiter ∧ waiter.uid = askAtomic.uid ∧
    isPosting askAtomic.body = false ∧ isMsg (mine (.msg 7) none none).body = true ∧
    (let p := mine fillPost none (some 7); let s := onCluster (awaitingAnswer p (.deny .accOwner)) (fun k => { k with tasks := [{ readyPost with phase := .dispatched }] })
      s.answered (answering (.deny .accOwner)) = some (0, p) ∧ (s.postTask p).isSome = true) ∧
    ({ base with die := { base.die with unacked := [writeThrough], dropped := [1] } } : State).keeper 1 (fun k => k.dropped.contains 1) = some (0, writeThrough) ∧
    (let p := mine (.msg 7) none none; let s := { base with die := { base.die with unacked := [p], retried := [(1, true)] } }
      s.keeper 1 (fun k => k.retried.contains (1, true)) = some (0, p) ∧ s.postStopped p = false ∧ s.ownCluster ⟨0, 0, 0⟩ { die := 1, clu := 0, core := 0 } = false ∧ s.die.pairRoom 1 3 = true) := by
  decide +kernel
/-- A task that asked for a unit of HBM, with a CANCEL that waits for room; two messages answered with RETRY; and lanes lost while one is remapped. -/
noncomputable def askingUnit : State :=
  let s := onCluster (awaitingAnswer (mine unitRead none (some 7)) (.data 5 false)) (fun k => { k with tasks := [{ readyPost with phase := .dispatched, hbmOpen := [1] }] })
  { s with die := { s.die with cancels := [{ mine .cancel none none with uid := 6 }] } }
noncomputable def bothRetried : State := { base with die := { base.die with unacked := [mine (.msg 7) none none, { mine (.msg 8) none none with uid := 2 }], retried := [(1, true), (2, true)] } }
theorem witness_AnswersAndResends_units : (askingUnit.answered (answering (.data 5 false)) = some (0, mine unitRead none (some 7)) ∧ askingUnit.die.pairRoom 1 3 = true ∧
      noneWaits (awaitingAnswer writeThrough .ack) 0) ∧ bothRetried.keeper 2 (fun k => k.retried.contains (2, true)) = some (0, { mine (.msg 8) none none with uid := 2 }) ∧
    bothRetried.die.earlierRetried { mine (.msg 8) none none with uid := 2 } = true := by
  refine ⟨⟨by decide +kernel, by decide +kernel, by decide +kernel, fun c t ht => ?_⟩, by decide +kernel, by decide +kernel⟩
  have hp : ∀ k ∈ (awaitingAnswer writeThrough .ack).parkedClusters, k.tasks = [] := by decide +kernel
  have h0 : (awaitingAnswer writeThrough .ack).cluster.tasks = [] := by decide +kernel
  have : ((awaitingAnswer writeThrough .ack).clusterAt 0 c).tasks = [] := by
    unfold State.clusterAt
    split
    · exact h0
    · cases hf : (awaitingAnswer writeThrough .ack).parkedClusters.find? (fun k => k.die = 0 && k.clu = c) with
      | none => rfl
      | some k => exact hp k (List.mem_of_find?_eq_some hf)
  rw [this] at ht
  cases ht
theorem test_units : after (exec (.reply (answering (.data 5 false))) askingUnit) (fun t => (t.cluster.tasks.map (fun u => (u.hbmUnits, u.hbmOpen))) == [([(64, (5, false))], [])] && t.die.cancels == []) = true ∧
    after (exec (.retriedPacketResend 2) bothRetried) (fun _ => true) = false := by decide +kernel
theorem test_answers : after (exec (.ack (answering .ack)) (awaitingAnswer writeThrough .ack)) (fun t => t.die.unacked == [] && t.core.windows[3].out == 0 && t.core.directOut == 1) = true ∧
    after (exec (.deny (answering (.deny .winDenied))) (awaitingAnswer writeThrough (.deny .winDenied))) (fun t => t.core.windows[3].den && t.core.windows[3].out == 0) = true ∧
    after (exec (.reply (answering (.reply 0xFFFFFFFF))) (awaitingReply (.reply 0xFFFFFFFF))) (fun t => t.rd 4 == BitVec.allOnes 64 && t.core.pc == 8 && t.core.stall == none) = true ∧
    after (exec (.deny (answering (.deny .winDenied))) (awaitingReply (.deny .winDenied))) (fun t => t.core.await == none && t.core.run == .exited) = true ∧
    after (exec (.retry (answering .retry)) (awaitingAnswer (mine (.msg 7) none none) .retry)) (fun t => t.die.retried == [(1, true)] && t.core.directOut == 0 && t.die.unacked.length == 1) = true ∧
    after (exec (.retry (answering .dropped)) (awaitingAnswer writeThrough .dropped)) (fun t => t.die.dropped == [1] && t.core.windows[3].out == 1) = true := by decide +kernel
theorem test_resends : after (exec (.packetResend 1) { base with die := { base.die with unacked := [writeThrough], dropped := [1] } }) (fun t => t.die.dropped == [] &&
      ((t.die.bufs.filter (fun b => b.port == .loc && !b.resp)).flatMap (fun b => b.flows)) == [.request writeThrough]) = true ∧
    after (exec (.retriedPacketResend 1) { base with die := { base.die with unacked := [mine (.msg 7) none none], retried := [(1, true)], seqs := [(16 + 3, 5)] } })
      (fun t => t.die.retried == [(1, false)] && (t.die.unacked.map (fun p => p.seq)) == [5] && t.core.directOut == 1) = true := by decide +kernel

/-- A flow at the head of the local buffer of die 0. -/
noncomputable def routing (f : Flow) : State := { base with die := { base.die with bufs := [{ port := .loc, resp := false, flows := [f], since := 0, tripped := false }] } }
def onWayTo (n : Nat) : Packet := { writeThrough with dst := n, src := 1 }
theorem witness_RoutingLinksAndRecovery : 0 < base.dies ∧ ((routing (.request (onWayTo 0))).die.buf? .loc false).map (fun b => b.flows) = some [.request (onWayTo 0)] ∧
    (onWayTo 0).seq = base.die.expected 1 3 ∧ base.dieNumber 0 = 0 ∧ 2 ≤ base.portSize .xp ∧
    (base.portSize .xp = 2 ∧ base.dieNumber 1 = 1 ∧ ((base.dieAt 0).link .xp).down = false ∧ 0 < base.credits 0 .xp false) ∧
    (let k := (base.dieAt 0).link .xp; k.pending = none ∧ 3 ∉ k.failed ∧ k.failed.length < 2) ∧ base.modul.zephyr.at_ = base.dieNumber 0 ∧ base.die.draining = false ∧
    (base.modul.zephyr.gen - base.die.tokenGen).msb = false ∧ (0x8000 - base.die.tokenGen : BitVec 16).msb = true := by decide +kernel
theorem witness_Routing_productive : maySend base 0 1 false .xp := by
  unfold maySend isProductive
  decide +kernel
noncomputable def linkAt (l : Link) : State := { base with die := base.die.setLink .xp l }
noncomputable def suspicious : State := { base with
  die := { base.die with bufs := [{ port := .loc, resp := false, flows := [.request (onWayTo 1)], since := 0, tripped := true }] }
  modul := { base.modul with zephyr := { base.modul.zephyr with at_ := 0, arrived := false } } }
theorem test_hop : after (exec (.packetHop 0 .loc false) (routing (.request (onWayTo 0)))) (fun t => t.die.resequencer == [onWayTo 0]) = true := by decide +kernel
theorem test_links : after (exec (.laneFailure 0 ⟨.xp, false⟩ 3) base) (fun t => (t.die.link .xp).pending == some (3, none)) = true ∧
    after (exec (.remap 0 ⟨.xp, false⟩ 3 9) (linkAt { pending := some (3, none) })) (fun t => (t.die.link .xp).pending == some (3, some 9)) = true ∧
    after (exec (.ackremap 0 ⟨.xp, false⟩ 3 9) (linkAt { pending := some (3, some 9), bad := some 6 })) (fun t => (t.die.link .xp).failed == [3] && (t.die.link .xp).replay == some 6) = true ∧
    after (exec (.laneFailure 0 ⟨.xp, false⟩ 3) (linkAt { pending := some (4, none) })) (fun t => (t.die.link .xp).next == [3]) = true ∧
    after (exec (.laneFailure 0 ⟨.xp, false⟩ 3) (linkAt { failed := [1], pending := some (4, none) })) (fun t => (t.die.link .xp).down && t.modul.reports == [.linkDown 0 .xp]) = true ∧
    after (exec (.laneFailure 0 ⟨.xp, false⟩ 3) (linkAt { failed := [1, 2] })) (fun t => (t.die.link .xp).down && ((t.dieAt 1).link .xm).down) = true := by decide +kernel
/-- The direction out of the module has its own lanes: the link of die 0 in −X leaves a module at the torus's edge. -/
noncomputable def edge : State := { base with modul := { base.modul with torus := (4, 2, 1) } }
theorem witness_Routing_out : 2 ≤ edge.portSize .xm ∧ edge.dieIndex (edge.neighbour 0 .xm) = none := by decide +kernel
theorem test_link_out : after (exec (.laneFailure 0 ⟨.xm, true⟩ 3) edge) (fun t => (t.die.dir ⟨.xm, true⟩).pending == some (3, none) && (t.die.link .xm).pending == none) = true ∧
    after (exec (.laneFailure 0 ⟨.xm, true⟩ 3) { edge with die := edge.die.setDir ⟨.xm, true⟩ { failed := [1, 2] } }) (fun t => (t.die.dir ⟨.xm, true⟩).down && t.modul.reports == [.linkDown 0 .xm]) = true := by
  decide +kernel
theorem test_recovery : after (exec (.zephyrTokenArrival 0 base.modul.zephyr.gen) suspicious) (fun t => t.die.draining && t.die.lee == some (.request (onWayTo 1)) && t.die.leecnt == 1 && t.modul.zephyr.arrived) = true ∧
    after (exec (.leeDelivery 1 (.request (onWayTo 1))) { base with die := { base.die with lee := some (.request (onWayTo 1)), draining := true } })
      (fun t => (t.dieAt 1).resequencer == [onWayTo 1] && t.die.lee == none) = true ∧
    after (exec (.leeAcknowledgement 0) { suspicious with die := { suspicious.die with draining := true }, modul := { base.modul with zephyr := { base.modul.zephyr with at_ := 0, arrived := true } } })
      (fun t => !t.die.draining && !t.die.suspect && t.modul.zephyr.at_ == 1) = true ∧
    after (exec .tokenRegeneration { base with sched := { base.sched with now := 2 ^ 22 } }) (fun t => t.modul.zephyr.gen == base.modul.zephyr.gen + 1) = true := by decide +kernel
theorem test_detector : after (exec (.detectorThreshold 0 .loc false) { routing (.request (onWayTo 1)) with sched := { base.sched with now := 2048 } }) (fun t => t.die.suspect) = true ∧
    after (exec (.detectorThreshold 0 .loc false) { routing (.request (onWayTo 1)) with sched := { base.sched with now := 2047 } }) (fun t => t.die.suspect) = false := by
  decide +kernel

/-! ## Witnesses: the host, launch, power -/

/-- Function 0 with one queue of 16 packets at 0x1000, its status record at 0x800, and a packet that stands in its ring. -/
def queueZero (st : QueueState) (pkts : List QPacket) : Queue := { q := 0, state := st, en := true, ring := 0x1000, stat := 0x800, ln := 4, flimit := 1, pkts := pkts }
noncomputable def hosted (k : Queue) (dws : List Nat) : State := { base with
  host := { base.host with functions := [{ fn := 0, qn := 1, queues := [k] }], slots := [(0, 0)], mem := (dws.zipIdx).foldl (fun m p => writeLE m (0x1000 + 8 * p.2) 8 p.1) [] } }
theorem witness_HostRegistersMailboxAndMapper : (hosted (queueZero .running []) []).host.up = true ∧ 0 < ((hosted (queueZero .running []) []).fnAt 0).qn ∧
    ((hosted (queueZero .running []) []).fnAt 0).disabled = false ∧ ((hosted (queueZero .running []) []).queueAt 0 0).stat.toNat % 16 = 0 ∧ ((0x401 : Word).getLsbD 17 = false) := by decide +kernel
theorem test_queue_registers : after (exec (.notify 0 0 9) (hosted (queueZero .running []) [])) (fun t => (t.queueAt 0 0).flimit == 9) = true ∧
    after (exec (.notify 0 0 17) (hosted (queueZero .running []) [])) (fun t => (t.queueAt 0 0).flimit == 1) = true ∧
    after (exec (.registerWrite 0 0x8010 0x10208) (hosted (queueZero .disabled []) [])) (fun t => (t.queueAt 0 0).ln == 8 && (t.queueAt 0 0).pri == 2 && (t.queueAt 0 0).state == .running) = true ∧
    after (exec (.queuePause 0 0) (hosted (queueZero .running []) [])) (fun t => (t.queueAt 0 0).state == .paused) = true ∧
    after (exec (.registerWrite 0 0x2000 (0x4000003 + 2 ^ 60)) base) (fun t => (t.fnAt 0).mbx == 0x4000003) = true ∧
    after (exec (.setQn 1 257) base) (fun t => (t.fnAt 1).qn == 0) = true := by decide +kernel

/-- A write to the host that waits at the port; a scheduler for a core that serves no job and for one that does. -/
def waitingWrite : PostedWrite := { uid := 9, fn := 0, bytes := [(0x100, 7)], core := some ⟨0, 0, 0⟩ }
noncomputable def sending : State := let s := hosted (queueZero .running []) []
  { s with host := { s.host with posted := [waitingWrite] }, core := { s.core with effects := [{ uid := 9, ctx := 0, cls := 0, die := 0, clu := 0, core := 0, task := none, host := true }] }
           sched := { s.sched with turn := .host } }
def sharing : FnSettings := { jobPolicy := 0, jobCount := 0, tenantPolicy := 0, tenantCount := 0, checkpoints := false, quantum := none
                              scheduler := some ⟨[⟨0, 0, 0⟩, ⟨0, 0, 1⟩], 0x1007, true, 3, [(0x10, 5)]⟩ }
theorem witness_HostRegistersMailboxAndMapper_port : sending.boot.powered = true ∧ sending.boot.failed = none ∧ sending.sched.turn = .host ∧ sending.host.up = true ∧ sending.host.posted ≠ [] ∧
    (⟨0, 0, 1⟩ ∈ base.coreIds ∧ ∀ j ∈ base.modul.jobs, ⟨0, 0, 1⟩ ∉ j.cores) := by decide +kernel
theorem test_register_reads : (let s := hosted { queueZero .running [] with pri := 2 } []
    s.readBar0 0 0x8000 = some 0x1000 ∧ s.readBar0 0 0x8010 = some 0x10204 ∧ s.readBar0 0 0x8018 = some 0 ∧ s.readBar0 0 0x8020 = some 0) := by decide +kernel
theorem test_port_sends : after (.next (sending.sendPosted waitingWrite)) (fun t => t.hostD 0 0x100 == 7 && t.host.posted == [] && t.core.effects == []) = true := by decide +kernel
theorem test_scheduler : after (exec (.functionSettings 0 sharing) base) (fun t => (t.coreAt ⟨0, 0, 1⟩).cr.tvec == 0x1000 && (t.coreAt ⟨0, 0, 1⟩).status.ie && cget (t.coreAt ⟨0, 0, 1⟩).spad 0x10 == 5 &&
    t.core.cr.tvec == 0) = true := by decide +kernel

/-- A SIGNAL packet of 3 on 0x2000 with its completion signal at 0x3000, current in the ring; and started. -/
def signalDws : List Nat := [5, 0x3000, 0x2000, 3, 0, 0, 0, 0]
def signalPkt (b : Bool) : QPacket := { idx := 0, dws := signalDws.map (fun v => BitVec.ofNat 64 v), started := b }
theorem witness_PacketsAndSignals : (isSlotted (hosted (queueZero .running []) signalDws) 0 0) ∧ (hosted (queueZero .running []) signalDws).hostBad 0 0x1000 64 = false ∧
    ((hosted (queueZero .running []) signalDws).hostD 0 0x1000).getLsbD 0 = decide ((0 : BitVec 32).toNat / 2 ^ 4 % 2 = 0) ∧
    (hosted (queueZero .running [signalPkt false]) []).mayStart 0 0 0 = some (signalPkt false) ∧ (signalPkt false).early = none ∧ (signalPkt false).type = 2 ∧
    (hosted (queueZero .running [signalPkt true]) []).running 0 0 0 = some (signalPkt true) := by
  unfold isSlotted
  decide +kernel
theorem test_packets : after (exec (.packetFetch 0 0) (hosted (queueZero .running []) signalDws)) (fun t => (t.queueAt 0 0).pkts == [signalPkt false] && (t.queueAt 0 0).ridx == 1 && t.hostD 0 0x800 == 1) = true ∧
    after (exec (.signal 0 0 0) (hosted (queueZero .running [signalPkt false]) [])) (fun t => (t.queueAt 0 0).pkts == [signalPkt true] && t.host.subs == [⟨0, 0x2000, 3, none⟩]) = true ∧
    after (exec (.packetComplete 0 0 0) (hosted (queueZero .running [signalPkt true]) [])) (fun t => (t.queueAt 0 0).pkts == [] && t.hostD 0 0x3000 == BitVec.allOnes 64) = true ∧
    after (exec .signalSubtract { hosted (queueZero .running []) [] with host := { (hosted (queueZero .running []) []).host with subs := [⟨0, 0x2000, 3, none⟩] } })
      (fun t => t.hostD 0 0x2000 == -3 && t.host.subs == []) = true := by decide +kernel

/-- A FEED of one record from 0x4000 to work queue 0 of the placed job, not started, and serving it; a COPY of 8 bytes to device memory the job may not reach. -/
def feedPkt : QPacket := { idx := 0, dws := [3, 0, 0x10000, 0x4000, 0, 0, 0, 0] }
def copyPkt : QPacket := { idx := 0, dws := [9, 0, 0, 0x5000, 0x200000, 8, 0, 0] }
noncomputable def feeding (p : QPacket) : State :=
  let s := hosted (queueZero .running [p]) []
  { s with modul := { s.modul with jobs := [{ placedJob ⟨0, 0, 0⟩ with queues := [{ cap := 64, recs := [] }] }] }, host := { s.host with mem := writeLE [] 0x4000 8 77 } }
theorem witness_PacketsAndSignals_feed : (feeding feedPkt).mayStart 0 0 0 = some feedPkt ∧ feedPkt.early = none ∧ ((feeding feedPkt).currentJob 0 0).isSome = true ∧ feedPkt.type = 1 ∧
    (feeding copyPkt).mayStart 0 0 0 = some copyPkt ∧ copyPkt.early = none ∧ copyPkt.type = 4 ∧ ((feeding copyPkt).currentJob 0 0).map (fun j => (feeding copyPkt).copyCovered j copyPkt) = some false ∧
    (let p := { feedPkt with started := true, job := some 0 }; (feeding p).mayStart 0 0 0 = none ∧ (feeding p).running 0 0 0 = some p ∧ p.done < p.count ∧ (feeding p).hostBad 0 0x4000 16 = false) ∧
    (let p := { copyPkt with started := true, job := some 0 }; (feeding p).mayStart 0 0 0 = none ∧ (feeding p).running 0 0 0 = some p ∧ p.done < (p.dw 5).toNat) ∧
    (hosted (queueZero .running [feedPkt]) []).currentJob 0 0 = some (placedJob ⟨0, 0, 0⟩) := by decide +kernel
theorem test_feed_and_copy : after (exec (.feed 0 0 0) (feeding feedPkt)) (fun t => (t.queueAt 0 0).pkts == [{ feedPkt with started := true, job := some 0 }]) = true ∧
    after (exec (.feed 0 0 0) (feeding { feedPkt with started := true, job := some 0 })) (fun t => t.modul.jobs.map (fun j => j.queues.map (fun w => w.recs)) == [[[77]]]) = true ∧
    after (exec (.copy 0 0 0) (feeding copyPkt)) (fun t => (t.queueAt 0 0).state == .error && (t.queueAt 0 0).ecode == 11 && (t.queueAt 0 0).pkts == []) = true := by decide +kernel

/-- A COPY of 8 bytes to the host, started, of a job that still has a write at the port. -/
def copyOut : QPacket := { idx := 0, dws := [9, 0, 1, 0x5000, 0x200000, 8, 0, 0], started := true, job := some 0 }
noncomputable def copying : State := let s := feeding copyOut
  { s with host := { s.host with posted := [{ uid := 9, fn := 0, bytes := [(0x100, 7)], ctx := some 0 }] } }
theorem witness_PacketsAndSignals_copy : (let s := copying; s.mayStart 0 0 0 = none ∧ s.running 0 0 0 = some copyOut ∧ copyOut.type = 4 ∧ copyOut.done < (copyOut.dw 5).toNat ∧ (copyOut.dw 2).getLsbD 0 = true) := by decide +kernel
/-- The COPY with its bytes moved, behind a write of the job that is, or is not, its own. -/
noncomputable def movedCopy (p : QPacket) (own : Option (Nat × Nat × Nat)) : State := let s := feeding { p with done := 8 }
  { s with host := { s.host with posted := [{ uid := 9, fn := 0, bytes := [(0x100, 7)], ctx := some 0, pkt := own }] } }
theorem test_copy_out : after (exec (.copy 0 0 0) copying) (fun t => t.host.posted.length == 2 && t.host.mem == copying.host.mem) = true ∧
    after (exec (.packetComplete 0 0 0) (feeding { copyOut with done := 8 })) (fun _ => true) = true ∧
    after (exec (.packetComplete 0 0 0) (movedCopy copyOut (some (0, 0, 0)))) (fun _ => true) = false ∧
    after (exec (.packetComplete 0 0 0) (movedCopy copyOut none)) (fun _ => true) = true ∧
    after (exec (.packetComplete 0 0 0) (movedCopy { copyOut with dws := [9, 0, 0, 0x5000, 0x200000, 8, 0, 0] } (some (0, 0, 0)))) (fun _ => true) = true := by
  decide +kernel

/-- A COPY between the host and 64 bytes that die 0 maps at 0x40: its own, or those of die 1. -/
noncomputable def copyFar (w1 : Word) (p : QPacket) : State := let s := feeding p
  { s with die := { s.die with leases := [⟨0, true, 0, []⟩], map0 := [(0, 0xF000000000000000)], map1 := [(0, w1)] } }
def copyIn : QPacket := { idx := 0, dws := [9, 0, 0, 0x4000, 0x40, 64, 0, 0], started := true, job := some 0 }
def copyBack : QPacket := { copyIn with dws := [9, 0, 1, 0x5000, 0x40, 64, 0, 0] }
theorem witness_PacketsAndSignals_far : (let s := copyFar 131072 copyIn; s.running 0 0 0 = some copyIn ∧ copyIn.done < (copyIn.dw 5).toNat ∧ copyIn.hbmOpen = [] ∧ copyIn.hbmQueue = [] ∧
      s.farAt 0 0 0x40 = some (1, 2 ^ 32 + 1, none) ∧ s.farAt 0 0 0x7F = some (1, 2 ^ 32 + 1, none) ∧ s.die.pairRoom (s.dieNumber 1) 0 = true) ∧
    (copyFar 1 copyIn).farAt 0 0 0x40 = none := by decide +kernel
/-- R74: from the host, the bytes go to the controller or leave as an HBM packet; to the host, the unit of another die is asked for first. -/
theorem test_copy_far : after (exec (.copy 0 0 0) (copyFar 131072 copyIn)) (fun t => t.die.unacked.map (fun p => (p.dst, p.cls, p.from_.pkt)) == [(1, 0, some (0, 0, 0))] && t.modul.hbm == []) = true ∧
    after (exec (.copy 0 0 0) (copyFar 131072 copyBack)) (fun t => t.die.unacked.map (fun p => p.body) == [.hbmRead (2 ^ 32 + 1) none] && t.host.posted == []) = true ∧
    after (exec (.copy 0 0 0) (copyFar 1 copyIn)) (fun t => t.die.unacked == [] && hbmByte t.modul 0 0x200040 == 77) = true := by decide +kernel
/-- A completed SIGNAL with VEC: its vector stands at the port behind the write of its signal (R360). -/
def vecPkt : QPacket := { signalPkt true with dws := [0x50025, 0x3000, 0x2000, 3, 0, 0, 0, 0].map (fun v => BitVec.ofNat 64 v) }
theorem test_vector_behind : after (exec (.packetComplete 0 0 0) (hosted (queueZero .running [vecPkt]) [])) (fun t => t.host.msix == [] &&
    (t.host.posted.map (fun w => w.vec)).getLast? == some (some 5) && 2 ≤ t.host.posted.length && (t.host.posted.map (fun w => w.pkt)) == t.host.posted.map (fun _ => some (0, 0, 0))) = true := by decide +kernel

/-- A LAUNCH whose reserved doubleword 7 is set; one whose job has ended. -/
def badLaunch : QPacket := { idx := 0, dws := [1, 0x3000, 0x4000, 0, 0, 0, 0, 1] }
noncomputable def endedJob : Job := { placedJob ⟨0, 0, 0⟩ with ended := [⟨0, 0, 0⟩] }
noncomputable def ending : State := let s := hosted (queueZero .running [{ badLaunch with started := true }]) []; { s with modul := { s.modul with jobs := [endedJob] } }
theorem witness_LaunchAndJobEnd : (hosted (queueZero .running [badLaunch]) []).mayStart 0 0 0 = some badLaunch ∧ badLaunch.type = 0 ∧
    (match (hosted (queueZero .running [badLaunch]) []).launchAnswer 0 badLaunch with | .fail c => c == 1 | _ => false) = true ∧
    ending.jobOf 0 = some endedJob ∧ (∀ id ∈ endedJob.cores, id ∈ endedJob.ended) ∧ ending.ctxTasks 0 = false ∧ ending.ctxPackets 0 = false ∧ ending.ctxFed 0 = false ∧ ending.host.subs = [] ∧ ending.ctxCopies 0 = false := by
  decide +kernel
theorem test_job_end : after (exec (.endOfJobFence 0) ending) (fun t => t.modul.jobs == [] && (t.queueAt 0 0).pkts == [] && !t.core.status.cv && t.cluster.ctxs == [] && t.hostD 0 0x3000 == BitVec.allOnes 64) = true ∧
    after (exec (.launch 0 0 0) (hosted (queueZero .running [badLaunch]) [])) (fun t => (t.queueAt 0 0).ecode == 1 && t.hostD 0 0x3008 == 1 && t.modul.jobs.length == 1) = true := by decide +kernel

/-- A LAUNCH at 0x4000 of an image of one section (`li s4,3` at 8) at 0x8000: core 0 of cluster 0, one scratchpad block, an argument 55, one HBM range of no length, one work queue. -/
def launchPkt : QPacket := { idx := 0, dws := [1, 0x3000, 0x4000, 0, 0, 0, 0, 0] }
def launchDesc : List (Nat × Nat × Nat) := [(0x4000, 8, 0x8000), (0x4008, 4, 0x58), (0x400c, 4, 0x8), (0x4010, 8, 0x1), (0x4018, 1, 0x1), (0x4019, 1, 0x1), (0x4020, 8, 0x37), (0x4048, 8, 0x5000), (0x4050, 2, 0x1), (0x4055, 1, 0x1), (0x4068, 1, 0x2)]
def launchImage : List (Nat × Nat × Nat) := [(0x8000, 8, 0x31474d494e41534d), (0x8008, 8, 0x5800000001), (0x8010, 8, 0x1), (0x8018, 8, 0x4000000040), (0x8020, 8, 0x4000000040), (0x8028, 8, 0x7290cef), (0x8040, 8, 0x800000008), (0x8048, 8, 0x50), (0x8050, 8, 0xc01000000003)]
noncomputable def launching (held : Bool) : State := let s := hosted (queueZero .running [launchPkt]) []
  { s with modul := { s.modul with jobs := if held then [placedJob ⟨0, 0, 0⟩] else [] }, core := { s.core with cr := { s.core.cr with tvec := if held then 0x10000 else 0 } }, cluster := { s.cluster with ctxs := [] }, host := { s.host with mem := (launchDesc ++ launchImage).foldl (fun m p => writeLE m p.1 p.2.1 p.2.2) [] } }
/-- CRC-32 of the image, eleven bytes at a time (R439). -/
theorem crc_part0 : ([77, 83, 65, 78, 73, 77, 71, 49, 1, 0, 0] : List Byte).foldl crcByte (BitVec.allOnes 32) = 0xefaab899 := by decide +kernel
theorem crc_part1 : ([0, 88, 0, 0, 0, 1, 0, 0, 0, 0, 0] : List Byte).foldl crcByte (0xefaab899) = 0x759e2eba := by decide +kernel
theorem crc_part2 : ([0, 0, 64, 0, 0, 0, 64, 0, 0, 0, 64] : List Byte).foldl crcByte (0x759e2eba) = 0xfaea09e2 := by decide +kernel
theorem crc_part3 : ([0, 0, 0, 64, 0, 0, 0, 0, 0, 0, 0] : List Byte).foldl crcByte (0xfaea09e2) = 0x6b62f0b6 := by decide +kernel
theorem crc_part4 : ([0, 0, 0, 0, 0, 0, 0, 0, 0, 0, 0] : List Byte).foldl crcByte (0x6b62f0b6) = 0x58662d96 := by decide +kernel
theorem crc_part5 : ([0, 0, 0, 0, 0, 0, 0, 0, 0, 8, 0] : List Byte).foldl crcByte (0x58662d96) = 0xea622922 := by decide +kernel
theorem crc_part6 : ([0, 0, 8, 0, 0, 0, 80, 0, 0, 0, 0] : List Byte).foldl crcByte (0xea622922) = 0x8ef6e354 := by decide +kernel
theorem crc_part7 : ([0, 0, 0, 3, 0, 0, 0, 16, 192, 0, 0] : List Byte).foldl crcByte (0x8ef6e354) = 0xf8d6f310 := by decide +kernel
theorem crc_launch : crc32 ([77, 83, 65, 78, 73, 77, 71, 49, 1, 0, 0] ++ ([0, 88, 0, 0, 0, 1, 0, 0, 0, 0, 0] ++ ([0, 0, 64, 0, 0, 0, 64, 0, 0, 0, 64] ++ ([0, 0, 0, 64, 0, 0, 0, 0, 0, 0, 0] ++ ([0, 0, 0, 0, 0, 0, 0, 0, 0, 0, 0] ++ ([0, 0, 0, 0, 0, 0, 0, 0, 0, 8, 0] ++ ([0, 0, 8, 0, 0, 0, 80, 0, 0, 0, 0] ++ ([0, 0, 0, 3, 0, 0, 0, 16, 192, 0, 0]))))))) : List Byte) = 0x7290cef := by
  simp only [crc32, List.foldl_append, crc_part0, crc_part1, crc_part2, crc_part3, crc_part4, crc_part5, crc_part6, crc_part7]
  decide
theorem leaseCheck_launching (held : Bool) : ∃ c es pl, (launching held).leaseCheck ((launching held).descOf 0 launchPkt) = .begin c es pl := by
  have h1 : ((launching held).usableContexts ((launching held).descOf 0 launchPkt)).length ≠ 0 := by cases held <;> decide +kernel
  have h2 : (((launching held).descOf 0 launchPkt).rangesBad || ((launching held).descOf 0 launchPkt).hostBad ||
      ((launching held).descOf 0 launchPkt).dies.any (fun k => decide (((launching held).dieAt k).freeEntries.length < ((launching held).descOf 0 launchPkt).extents.length))) = false := by cases held <;> decide +kernel
  have h3 : ((launching held).descOf 0 launchPkt).extents = [] := by cases held <;> decide +kernel
  have h4 : Config.choice (launching held).modul.free % ((launching held).usableContexts ((launching held).descOf 0 launchPkt)).length < ((launching held).usableContexts ((launching held).descOf 0 launchPkt)).length :=
    Nat.mod_lt _ (Nat.pos_of_ne_zero h1)
  unfold State.leaseCheck
  simp only [List.getElem?_eq_getElem h4]
  rw [h2]
  simp only [Bool.false_eq_true, if_false, h3, State.allocate]
  exact ⟨_, _, _, rfl⟩
/-- The checks of R362 let it in, on a core that no job holds and on one that runs a scheduler and holds another's. -/
theorem witness_LaunchAndJobEnd_begin (held : Bool) : ((launching held).mayStart 0 0 0 = some launchPkt → ∃ c es pl, (launching held).admission 0 launchPkt = .begin c es pl) ∧ launchPkt.early = none ∧
    ((launching held).descOf 0 launchPkt).cores = [⟨0, 0, 0⟩] ∧ ((launching held).jobsOn ⟨0, 0, 0⟩ = [] ↔ held = false) := by
  refine ⟨fun _ => ?_, by cases held <;> decide +kernel, by cases held <;> decide +kernel, by cases held <;> decide +kernel⟩
  obtain ⟨c, es, pl, h⟩ := leaseCheck_launching held
  refine ⟨c, es, pl, ?_⟩
  have a1 : ((launchPkt.dw 2).toNat % 64 != 0 || (List.range 5).any (fun i => launchPkt.dw (3 + i) != 0)) = false := by cases held <;> decide +kernel
  have a2 : (launching held).hostBad 0 (launchPkt.dw 2).toNat 128 = false := by cases held <;> decide +kernel
  have a3 : ((launching held).descOf 0 launchPkt).bad = false := by cases held <;> decide +kernel
  have a4 : (let d := (launching held).descOf 0 launchPkt; (decide (0 < d.nHbm + d.nHost) && (launching held).hostBad 0 d.rng (16 * (d.nHbm + d.nHost))) || (d.nGrt != 0 && (launching held).hostBad 0 d.grt (24 * d.nGrt)) ||
        (d.nSig != 0 && (launching held).hostBad 0 d.sig (8 * d.nSig))) = false := by cases held <;> decide +kernel
  have a5 : (launching held).earlyChecks ((launching held).descOf 0 launchPkt) = none := by cases held <;> decide +kernel
  have b1 : ((launching held).descOf 0 launchPkt).cores.any (fun id => !((launching held).jobsOn id).isEmpty && !(launching held).shared id) = false := by cases held <;> decide +kernel
  have b2 : ((launching held).descOf 0 launchPkt).cores.any (fun id => ((launching held).places id ((launching held).descOf 0 launchPkt).grant).isEmpty) = false := by cases held <;> decide +kernel
  have b3 : (launching held).paletteBusy ((launching held).descOf 0 launchPkt) = false := by cases held <;> decide +kernel
  have b4 : (launching held).hostBad 0 ((launching held).descOf 0 launchPkt).image ((launching held).descOf 0 launchPkt).imgLen = false := by cases held <;> decide +kernel
  have b5 : imageBad ((launching held).imageOf 0 ((launching held).descOf 0 launchPkt)) ((launching held).hostBytes 0 ((launching held).descOf 0 launchPkt).image ((launching held).descOf 0 launchPkt).imgLen)
      ((launching held).descOf 0 launchPkt).grant = false := by
    have e1 : (((launching held).hostBytes 0 ((launching held).descOf 0 launchPkt).image ((launching held).descOf 0 launchPkt).imgLen).take 0x28 ++ [0, 0, 0, 0] ++
        ((launching held).hostBytes 0 ((launching held).descOf 0 launchPkt).image ((launching held).descOf 0 launchPkt).imgLen).drop 0x2C) = [77, 83, 65, 78, 73, 77, 71, 49, 1, 0, 0] ++ ([0, 88, 0, 0, 0, 1, 0, 0, 0, 0, 0] ++ ([0, 0, 64, 0, 0, 0, 64, 0, 0, 0, 64] ++ ([0, 0, 0, 64, 0, 0, 0, 0, 0, 0, 0] ++ ([0, 0, 0, 0, 0, 0, 0, 0, 0, 0, 0] ++ ([0, 0, 0, 0, 0, 0, 0, 0, 0, 8, 0] ++ ([0, 0, 8, 0, 0, 0, 80, 0, 0, 0, 0] ++ ([0, 0, 0, 3, 0, 0, 0, 16, 192, 0, 0]))))))) := by cases held <;> decide +kernel
    have e2 : BitVec.ofNat 32 ((launching held).imageOf 0 ((launching held).descOf 0 launchPkt) 0x28 4) = 0x7290cef := by cases held <;> decide +kernel
    unfold imageBad
    rw [e1, crc_launch, e2]
    cases held <;> decide +kernel
  have b6 : (decide (((launching held).descOf 0 launchPkt).skb < (launching held).imageOf 0 ((launching held).descOf 0 launchPkt) 0x14 2) ||
      (maskClusters ((launching held).descOf 0 launchPkt).clmask).any (fun k => decide (128 < (launching held).blocksAsked ((launching held).descOf 0 launchPkt) [] k))) = false := by cases held <;> decide +kernel
  have b7 : (maskClusters ((launching held).descOf 0 launchPkt).clmask).any (fun k => decide (128 < (launching held).blocksAsked ((launching held).descOf 0 launchPkt) (launching held).modul.jobs k)) = false := by cases held <;> decide +kernel
  unfold State.admission
  simp only [a1, a2, a3, a5, Bool.false_eq_true, if_false]
  rw [if_neg (by rw [a4]; decide)]
  unfold State.lateChecks
  simp only [b1, b2, b3, b4, b5, b7, Bool.not_false, Bool.true_and, Bool.false_eq_true, if_false, h]
  rw [if_neg (by rw [b6]; decide)]

/-- R362's first check fails `badLaunch`; a LAUNCH on a core that a job holds and that runs no scheduler waits. -/
noncomputable def launchWaits : State := let s := launching true; { s with core := { s.core with cr := { s.core.cr with tvec := 0 } } }
theorem witness_LaunchAndJobEnd_checks : (((hosted (queueZero .running [badLaunch]) []).queueAt 0 0).nextUp = some badLaunch ∧ badLaunch.early = none ∧
      ¬ ((badLaunch.dw 2).toNat % 64 = 0 ∧ ∀ i < 5, badLaunch.dw (3 + i) = 0)) ∧ (launchWaits.queueAt 0 0).nextUp = some launchPkt ∧
    (∃ id ∈ (launchWaits.descOf 0 launchPkt).cores, (∃ j ∈ launchWaits.modul.jobs, id ∈ j.cores) ∧ (launchWaits.coreAt id).cr.tvec = 0) := by
  refine ⟨by decide +kernel, by decide +kernel, ⟨0, 0, 0⟩, by decide +kernel, ⟨_, List.mem_singleton.2 rfl, ?_⟩, by decide +kernel⟩
  decide +kernel
theorem test_launch_waits : after (exec (.launch 0 0 0) launchWaits) (fun _ => true) = false := by decide +kernel
/-- A lease on die 0 for context 0 with one readable and writable entry: device page 1 at physical page 3; the aperture of function 0 points to it. -/
noncomputable def leased : State := let s := { base with die := { base.die with leases := [⟨0, true, 0, []⟩], map0 := [(0, BitVec.ofNat 64 (7 * 2 ^ 61 + 1))], map1 := [(0, 3)] } }
  { s with host := { s.host with functions := [{ fn := 0 }] } }
theorem witness_Mailbox : (leased.fnAt 0).mbx.toNat = 0 ∧ leased.jobOf 0 = some (placedJob ⟨0, 0, 0⟩) ∧ (hbmLookup (leased.leaseDie 0) 0 0x200008).any (fun h => h.wr && h.rd && h.dpa == 3 * 2 ^ 21 + 8) = true ∧
    (hbmLookup (leased.leaseDie 0) 0 8).isNone = true ∧ leased.host.quantumStart + leased.host.quantum ≤ 3600000 ∧ leased.host.up = true := by decide +kernel
theorem test_mailbox : after (exec (.mailboxWrite 0 0x200008 [(0, 7), (1, 8)]) leased) (fun t => (hbmRead t.modul (t.leaseDie 0) 0 0x200008) == (7, false) && (hbmRead t.modul (t.leaseDie 0) 0 0x200009) == (8, false) &&
      (t.fnAt 0).mbx == 0) = true ∧
    after (exec (.mailboxWrite 0 8 [(0, 7)]) leased) (fun t => (t.fnAt 0).mbx == 0x100) = true ∧
    after (exec (.mailboxRead 0 8 4) leased) (fun t => t.host.mailboxOut == [none]) = true ∧
    after (exec (.completionTimeout 0 0x1000 64) leased) (fun t => t.hostBad 0 0x1000 8 && t.host.aer == [.completionTimeout] && t.host.timedOut == [(0, 0x1000, 64)]) = true ∧
    after (exec .quantumExpiry { hosted (queueZero .running [signalPkt false]) [] with sched := { base.sched with now := 3600000 } }) (fun t => t.host.slots == [(0, 0)] && t.host.quantumStart == 3600000) = true := by
  decide +kernel

/-- What a start finds where everything passes, with the images that flash holds; and the module without power. -/
def healthy (im : List (ImageCopy × ImageCopy)) : Bringup :=
  { variant := 0, images := im, platform := ⟨0, none, []⟩, step1Ok := true, hbmStacks := List.replicate 8 .pass0, links := List.replicate 24 .pass0, shape := some (2, 2, 1), origin := (0, 0, 0)
    hostPort := .pass0, clusters := List.replicate 4 (List.replicate 12 .pass0), threshold := 2048, recordOk := true }
noncomputable def unpowered : State := { State.reset with boot := { State.reset.boot with powered := false, half0 := { RecordHalf.healthy with valid := false }, half1 := { RecordHalf.healthy with valid := false } } }
/-- Whatever image is measured, step 1 passes where no record is in force. -/
theorem healthy_step1 (im : List (ImageCopy × ImageCopy)) (m : BitVec 512) : ∀ i < 7, resultOf (bringupEntries (healthy im) m unpowered.boot.stored) 1 i = .pass0 := by
  have h0 : unpowered.boot.stored = [] := by decide +kernel
  intro i hi
  rw [h0]
  interval_cases i <;> rfl
/-- Flash without images: image 0 has no copy that runs. With seven good copies (what the ROM's primitives accept is not the model's to say) every image runs. -/
theorem witness_PowerKeysAndAttestation : unpowered.boot.powered = false ∧ (∀ c, ¬ runs (healthy []) unpowered.boot.rollback 0 c) ∧
    (∀ c : ImageCopy, verified unpowered.boot.rollback c → ∀ n < 7, runs (healthy (List.replicate 7 (c, c))) unpowered.boot.rollback n c) ∧
    (∀ im m, ∀ i < 7, resultOf (bringupEntries (healthy im) m unpowered.boot.stored) 1 i ≠ .fenced) ∧ (healthy []).recordOk = true ∧
    (∃ i < 7, resultOf (bringupEntries { healthy [] with step1Ok := false } 0 unpowered.boot.stored) 1 i = .fenced) ∧ unpowered.sched.events = [] := by
  refine ⟨rfl, ?_, ?_, fun im m i hi => ?_, rfl, ⟨0, by decide, by decide +kernel⟩, by decide +kernel⟩
  · rintro c ⟨p, hp, _⟩
    cases hp
  · intro c hc n hn
    refine ⟨(c, c), ?_, .inl ⟨hc, rfl⟩⟩
    show (List.replicate 7 (c, c))[n]? = _
    rw [List.getElem?_replicate, if_pos hn]
  · rw [healthy_step1 im m i hi]
    decide
theorem witness_PowerKeysAndAttestation_running : base.boot.powered = true ∧ 0 < base.dies ∧ base.die.thermal = 0 ∧ 5 / 32768 < base.pagesOf 0 ∧
    base.boot.rollback < 1 ∧ 1 ≤ ({ base.boot with version := 1 }).version ∧ base.slotNamed 3 = false ∧ hostRequest (.notify 0 0 1) = true := by decide +kernel
/-- The start without images; an error of each memory; a host's request after a failed start. -/
theorem test_failed_start : after (exec (.powerOn (healthy [])) unpowered) (fun t => t.boot.powered && t.boot.failed == some (.image 0) && t.readBar0 0 0x2000 == some 0 && t.readBar0 1 0x2000 == none) = true ∧
    after (step { base with boot := { base.boot with failed := some .step1 }, sched := { base.sched with turn := .agenda, events := [.notify 0 0 1] } })
      (fun t => t.host.unsupported == 1 && t.sched.events == []) = true := by decide +kernel
noncomputable def struck (u : Upset) : Out := step { base with sched := { base.sched with turn := .cells, upsets := [u] } }
theorem test_memory_errors : after (struck (.spad ⟨0, 0, 0⟩ 5)) (fun t => cget t.core.poison 5 == 1 && t.sched.upsets == []) = true ∧
    after (struck (.slot 0 0 3 9)) (fun t => cget (t.cluster.slot 3).errors 9 == 1) = true ∧ after (struck (.tile 0 0 3 9)) (fun t => cget (t.cluster.tile 3).poison 9 == 1) = true := by decide +kernel
theorem test_power : after (exec .powerLoss base) (fun t => !t.boot.powered && t.modul.jobs == [] && t.core.run == .none) = true ∧
    after (exec (.thermalHold 0) base) (fun t => t.die.thermal == 1 && t.die.holdCount == 1 && t.die.gustFree.length == t.die.gustG - t.die.gustG / 2) = true ∧
    after (exec (.patrolScrub 5 .uncorrectable) base) (fun t => cget t.modul.hbmPoison 5 == 1 && t.host.aer == [.uncorrectableInternal]) = true ∧
    after (exec (.patrolScrub 5 .corrected) base) (fun t => t.die.corrected[1] == 1 && cget t.modul.hbmPoison 5 == 0) = true ∧
    after (exec (.antiRollbackUpdate 1) { base with boot := { base.boot with version := 1 } }) (fun t => t.boot.rollback == 1) = true ∧
    after (exec (.antiRollbackUpdate 2) { base with boot := { base.boot with version := 1 } }) (fun t => t.boot.rollback == 0) = true := by decide +kernel
theorem test_unpowered_stops : (match step unpowered with | .fault .unpowered => true | _ => false) = true := by decide +kernel
/-- A wrap and its tag that the service accepts, for any keys that the primitives give: the pair comes out as 1. -/
theorem witness_Keys (ct : List Byte) : ∃ (w : BitVec 512) (tag : BitVec 128), let k := Config.mlkemDecaps base.boot.starts ct
    (Config.kmac256 k (numBytes 1 3 ++ numBytes 64 w.toNat) 128 (stringBytes "Zalit key tag")).setWidth 128 = tag ∧
    Config.kmac256 k (numBytes 1 3) 512 (stringBytes "Zalit key") ^^^ w = 1 ∧ (1 : BitVec 512).setWidth 256 ≠ ((1 : BitVec 512) >>> 256).setWidth 256 := by
  refine ⟨Config.kmac256 (Config.mlkemDecaps base.boot.starts ct) (numBytes 1 3) 512 (stringBytes "Zalit key") ^^^ 1, _, rfl, ?_, by decide +kernel⟩
  rw [← BitVec.xor_assoc, BitVec.xor_self, BitVec.zero_xor]

/-! ## Witnesses: the whole machine -/

theorem witness_StepRunsTheDecoded : base.boot.powered = true ∧ base.boot.failed = none ∧ base.sched.turn = .core ∧ base.core.run = .running ∧ base.core.await = none ∧ base.core.stall = none ∧
    base.core.sketch = none ∧ base.core.skIssue = none ∧ base.core.saving = false ∧ base.core.escalated = [] ∧ base.core.status.ie = false ∧ okWith (fetch base) 0 = true ∧ (decodeControl 0).isSome = true ∧
    okWith (fetch (State.reset.withFetchWord 64 1)) 1 = true ∧ decodeControl 1 = none ∧ isFault (fetch (onCore base (fun c => { c with pc := 0x400000 }))) = true ∧
    isStall (fetch (onCluster base (fun k => { k with tasks := [pendingTask [⟨false, false, true, false, .spad, 8, 0, [(1, 0)], 0⟩]] }))) = true := by decide +kernel
theorem witness_StepRunsTheDecoded_vector : (let s := State.reset.withFetchWord 64 vectorBody.toNat
    s.sched.turn = .vector ∧ (s.core.vec.run.map (fun r => (r.body[r.next]?, r.held, r.flights))) = some (some vectorBody, false, []) ∧ (decodeVector vectorBody).isSome = true) := by decide +kernel
theorem witness_DecodeOfEncode : (Instr.add ⟨5, 5, 4⟩).wf = true ∧ encode 0 (.add ⟨5, 5, 4⟩) = some 0x0000401451000000 ∧ decode 0x0000401451000000 = some (.add ⟨5, 5, 4⟩) := by decide +kernel
/-- A state that every invariant holds in, and a step from it. -/
theorem witness_MemoryStaysCanonical_and_the_other_invariants : base.memWf = true ∧ base.boot.ordered = true ∧ base.placed ∧ isOk (match step base with | .next t => Res.ok t | _ => .stall .reply) = true := by
  refine ⟨by decide +kernel, by decide +kernel, placed_base, by decide +kernel⟩
theorem witness_UserModeKeepsPrivilegedRegisters : base.core.status.mode = false ∧ opcodeOf (.addi ⟨4, 4, 1⟩) ≠ none ∧ isOk (match exec (.addi ⟨4, 4, 1⟩) base with | .next t => Res.ok t | _ => .stall .reply) = true := by decide +kernel
/-- A trap of U mode enters the handler with interrupts off; nothing else of the S-only registers moves (R441, R377). -/
theorem test_user_trap : after (exec (.trap ⟨0, 1⟩) (onCore (withHandler 0) (fun c => { c with status := { c.status with ie := true, im := 5 } }))) (fun t => t.core.cr.tvec == 0x1000 && t.core.status.im == 5 &&
    !t.core.status.ie && t.core.status.pie && t.core.status.mode && t.core.pc == 0x1000) = true := by decide +kernel
/-- An escalated fault of another context stays while this one runs (R379). -/
theorem witness_StepRunsTheDecoded_other : (onCore base (fun c => { c with escalated := [{ escalatedFault with ctx := 5 }] })).core.dueFault = none := by decide +kernel

end Sys2Proof.Tests
end

section
/-! SUPPORT. O50 fails on a state that lists two queues under one number: the mapper's clause takes the pending queues from the list
itself, and then asks `queueAt`, which finds the first of a number, for the state of each. -/

namespace Sys2Proof.Machine

/-- The module after reset, at the end of its first quantum, where function 0 lists queue 0 twice: first as after reset, then RUNNING with
a packet to fetch. -/
def State.twiceListed : State := { State.reset with
  host := { functions := [{ fn := 0, qn := 1, queues := [{ q := 0 }, { q := 0, state := .running, en := true, ln := 4, flimit := 1 }] }] }
  sched := { now := 3600000 } }

/-- The second record is pending, so the number of both is. -/
theorem pendingQueues_twiceListed : State.twiceListed.pendingQueues = [(0, 0)] := by decide

/-- Under that number the first record is found. -/
theorem queueAt_twiceListed : State.twiceListed.queueAt 0 0 = { q := 0 } := by decide

/-- What the mapper's clause says of every pending queue, with no premise that its number is listed once, does not hold of the model. -/
theorem exists_pending_idle : ∃ s : State, s.host.up = true ∧ s.host.quantumStart + s.host.quantum ≤ s.sched.now ∧
    ∃ f ∈ s.pendingQueues, (s.queueAt f.1 f.2).state ≠ .running ∧ ∀ p ∈ (s.queueAt f.1 f.2).pkts, p.started ≠ true := by
  refine ⟨State.twiceListed, rfl, le_refl 3600000, (0, 0), ?_, ?_, ?_⟩
  · rw [pendingQueues_twiceListed]
    exact List.mem_singleton_self _
  · rw [queueAt_twiceListed]
    decide
  · rw [queueAt_twiceListed]
    exact List.forall_mem_nil _

end Sys2Proof.Machine

namespace Sys2Proof
open Sys2Proof.Machine

/-- The mapper's clause is the one that fails. -/
theorem not_mailboxAndMapper : ¬ mailboxAndMapper := by
  rintro ⟨-, quantumEnds, -⟩
  obtain ⟨s, hup, hover, f, hf, hstate, hpkts⟩ := exists_pending_idle
  obtain ⟨t, -, -, -, -, -, pendingWorks, -⟩ := quantumEnds s hup hover
  rcases pendingWorks f hf with hrun | ⟨p, hp, hstarted⟩
  · exact hstate hrun
  · exact hpkts p hp hstarted

/-- Refutes O50: where a function lists two queues under one number, the second of them RUNNING with a packet to fetch, that number is
pending, yet the queue found under it is DISABLED and empty. The statement wants a premise that each function, and each queue of it,
is listed once. -/
theorem not_hostRegistersMailboxAndMapper : ¬ Obligations.HostRegistersMailboxAndMapper := by
  rintro ⟨-, -, mapper⟩
  exact not_mailboxAndMapper mapper

end Sys2Proof
end

section
/-! SUPPORT. O56: what the moves of the fixed part mean for the anti-rollback order. -/

namespace Sys2Proof.Machine

/-- The order, said fuse by fuse. -/
theorem Boot.ordered_iff (b : Boot) : b.ordered = true ↔ b.fuses[0] ≤ b.version ∧ ∀ i : Fin 4, b.fuses[i] ≤ 64 := by
  have hall : (∀ n ∈ b.fuses.toList, n ≤ 64) ↔ ∀ i : Fin 4, b.fuses[i] ≤ 64 := by
    constructor
    · exact fun h i => h _ (by simp)
    · intro h n hn
      obtain ⟨i, hi, rfl⟩ := Vector.mem_iff_getElem.1 (Vector.mem_toList_iff.1 hn)
      exact h ⟨i, hi⟩
  rw [Boot.ordered, Bool.and_eq_true, List.all_eq_true, ← hall]
  exact and_congr decide_eq_true_iff (forall₂_congr fun _ _ => decide_eq_true_iff)

/-- A move keeps the order: a start runs no version below the fuses, and a fuse is blown to no more than the running version. -/
theorem BootMove.ordered {x y : Fixed} (h : BootMove x y) (hx : x.boot.ordered = true) : y.boot.ordered = true := by
  obtain ⟨hv, h64⟩ := (Boot.ordered_iff _).1 hx
  refine (Boot.ordered_iff _).2 ?_
  obtain ⟨hf, hver⟩ | ⟨hver, hf⟩ := h.fuses
  · rw [hf]
    exact ⟨hver.elim (fun e => e ▸ hv) id, h64⟩
  · refine ⟨?_, fun i => ?_⟩
    · have := hf 0
      dsimp only [Fin.getElem_fin, Fin.val_zero] at this
      omega
    · have := h64 i
      have := hf i
      omega

/-- A move blows fuses and never unblows one. -/
theorem BootMove.fuses_le {x y : Fixed} (h : BootMove x y) (i : Fin 4) : x.boot.fuses[i] ≤ y.boot.fuses[i] := by
  obtain ⟨hf, -⟩ | ⟨-, hf⟩ := h.fuses
  · rw [hf]
  · have := hf i
    omega

/-- Every step moves the fixed part as an instruction or event may. -/
theorem step_move {s t : State} (h : step s = .next t) : BootMove s.fixed t.fixed :=
  step_rel BootMove BootMove.refl exec_move s t h

end Sys2Proof.Machine

namespace Sys2Proof
open Sys2Proof.Machine

/-- Settles O56: every step is a `BootMove`, which keeps the order, and says of the fuses and of what bring-up found what is claimed. -/
theorem fusesAndFindings : Obligations.FusesAndFindings :=
  ⟨fun _ _ hs h => (step_move h).ordered hs,
    fun _ _ h => ⟨(step_move h).fuses_le, (step_move h).starts, (step_move h).found⟩⟩

end Sys2Proof
end

section
/-! SUPPORT. O52: every function, queue and core is found as reset makes it. -/

namespace Sys2Proof.Machine

theorem fnAt_reset (fn : Nat) : State.reset.fnAt fn = { fn := fn } := rfl
theorem queueAt_reset (fn q : Nat) : State.reset.queueAt fn q = { q := q } := by
  rw [State.queueAt, fnAt_reset]
  rfl
/-- The acting core is reset too, so a core's number does not matter. -/
theorem coreAt_reset (id : CoreId) : State.reset.coreAt id = Core.reset id := by
  unfold State.coreAt
  split
  · next h => exact h ▸ rfl
  · rfl
/-- A window after reset: unmapped, its allowance 64, nothing out and nothing denied (R94, R288). -/
theorem window_reset (id : CoreId) (i : Fin 16) : (Core.reset id).windows[i] = {} := by
  simp [Core.reset]

end Sys2Proof.Machine

namespace Sys2Proof
open Sys2Proof.Machine

/-- Settles O52, part by part; the capabilities' word and the fuses' order are evaluated. -/
theorem resetState : Obligations.ResetState := by
  refine ⟨rfl, reset_memWf, by decide +kernel, ⟨rfl, rfl, rfl⟩, rfl, rfl, rfl, by decide +kernel, fun fn => ?_, fun id => ?_⟩
  · rw [fnAt_reset]
    exact ⟨rfl, rfl, fun q => by rw [queueAt_reset]⟩
  · rw [coreAt_reset]
    refine ⟨rfl, rfl, rfl, rfl, rfl, rfl, rfl, rfl, rfl, rfl, rfl, rfl, fun i => ?_⟩
    rw [window_reset]
    exact ⟨rfl, rfl, rfl, rfl⟩

end Sys2Proof
end

section
/-! SUPPORT. O19: what an admission leaves, said once for every posting instruction (R311–R314, R318), and the checks of a matrix command (R198). -/

namespace Sys2Proof.Machine

/-! ## Admission -/

/-- The task that an admission of the acting core enters. -/
def State.ownTask (s : State) (l : Label) (d : Draft) : Task :=
  s.newTask s.poster (s.clusterAt s.core.id.die s.core.id.clu) l d
/-- The acting core after an admission: declared buffers that the task consumes are EMPTY, and a vector task has taken its key. -/
def Core.admits (c : Core) (d : Draft) : Core :=
  Core.takeKey { c with bufs := if c.status.cv then d.consumed.foldl (fun b h => bufConsume b h.1 h.2) c.bufs else c.bufs } d.op
/-- The state after an admission, before the posting instruction ends. -/
def State.entered (s : State) (l : Label) (d : Draft) : State :=
  { s.updCluster s.core.id.die s.core.id.clu (fun k => { k with tasks := k.tasks ++ [s.ownTask l d], nextTask := k.nextTask + 1 }) with
    core := s.core.admits d }

/-- The core holds its own context exactly when a context is loaded. -/
theorem Core.holds_self (c : Core) : c.holds c.cid.toNat = c.status.cv := by
  simp [Core.holds]

/-- With a context that is not cancelled and nothing set aside, a task is admitted exactly when the cluster has room for it. -/
theorem enterTaskHere_eq (s : State) (l : Label) (d : Draft) (ha : s.core.aside = none)
    (hc : ∀ x, (s.clusterAt s.core.id.die s.core.id.clu).ctxAt s.core.cid.toNat = some x → x.cancelled = false) :
    s.enterTaskHere l d = .ok (if (s.clusterAt s.core.id.die s.core.id.clu).hasRoom false s.core.id.core
      (d.regions.filter (fun r => !r.null)).length then .admitted (s.entered l d) else .full) := by
  have hcore : ∀ f, (s.updCluster s.core.id.die s.core.id.clu f).core = s.core := updCluster_core s _ _
  have here : s.enterTaskHere l d = s.enterTask s.poster l d := by simp [State.enterTaskHere, ha]
  rw [here, enterTask_eq s l d hc]
  split
  · have h := updCore_self (s.updCluster s.core.id.die s.core.id.clu
        (fun k => { k with tasks := k.tasks ++ [s.ownTask l d], nextTask := k.nextTask + 1 }))
      (fun c => Core.takeKey (if c.holds s.core.cid.toNat then { c with bufs := d.consumed.foldl (fun b h => bufConsume b h.1 h.2) c.bufs } else c) d.op)
    rw [hcore, Core.holds_self] at h
    refine congrArg (fun t => Res.ok (Posted.admitted t)) (h.trans ?_)
    rw [State.entered, Core.admits]
    cases s.core.status.cv <;> rfl
  · rfl


/-- The parts of a state in which an admission can differ from the state before it. -/
theorem entered_frame (s : State) (l : Label) (d : Draft) :
    { s.entered l d with core := s.core, cluster := s.cluster, parkedClusters := s.parkedClusters } = s :=
  updCluster_frame s s.core.id.die s.core.id.clu _

/-- The cluster's newest task is the one admitted. -/
theorem clusterAt_entered (s : State) (l : Label) (d : Draft) : let own := s.clusterAt s.core.id.die s.core.id.clu
    (s.entered l d).clusterAt s.core.id.die s.core.id.clu = { own with tasks := own.tasks ++ [s.ownTask l d], nextTask := own.nextTask + 1 } :=
  clusterAt_updCluster s _ _ _ fun _ => ⟨rfl, rfl⟩

/-- A task waits for the older pending tasks of its context that conflict with it, those in a save among them (R318). -/
theorem mem_ownTask_waits (s : State) (l : Label) (d : Draft) (w : Nat) : w ∈ (s.ownTask l d).waits ↔
    (∃ q ∈ (s.clusterAt s.core.id.die s.core.id.clu).tasks, q.id = w ∧ q.pending = true ∧ q.ctx = s.core.cid.toNat ∧ waitsFor d.regions q.regions = true) ∨
    ∃ q ∈ s.savedTasks s.core.id.die s.core.id.clu s.core.cid.toNat, q.id = w ∧ waitsFor d.regions q.regions = true := by
  simp only [State.ownTask, State.newTask, State.poster, List.mem_map, List.mem_filter, List.mem_append, Bool.and_eq_true]
  constructor
  · rintro ⟨q, ⟨⟨hq, hp, hx⟩ | hq, hw⟩, rfl⟩
    · exact .inl ⟨q, hq, rfl, hp, of_decide_eq_true hx, hw⟩
    · exact .inr ⟨q, hq, rfl, hw⟩
  · rintro (⟨q, hq, rfl, hp, hx, hw⟩ | ⟨q, hq, rfl, hw⟩)
    · exact ⟨q, ⟨.inl ⟨hq, hp, decide_eq_true hx⟩, hw⟩, rfl⟩
    · exact ⟨q, ⟨.inr hq, hw⟩, rfl⟩

/-- It is READY exactly when it waits for none (R321). -/
theorem ownTask_phase (s : State) (l : Label) (d : Draft) : let k := s.ownTask l d
    k.phase = .ready ∧ k.waits = [] ∨ k.phase = .waiting ∧ k.waits ≠ [] := by
  intro k
  have phase : k.phase = if k.waits.isEmpty then .ready else .waiting := rfl
  by_cases h : k.waits = []
  · exact .inl ⟨by rw [phase, h]; rfl, h⟩
  · exact .inr ⟨by rw [phase, if_neg (by simpa using h)], h⟩

/-- Its policy and count are those of the core's `CR_CPOL` (R380), its key the core's breeze key (R250). -/
theorem ownTask_fields (s : State) (l : Label) (d : Draft) : let k := s.ownTask l d
    k.rm = s.core.cr.fpctl ∧ k.kt = s.core.cr.bkey ^^^ s.core.cr.bseq ∧ k.policy.toNat = s.core.cr.cpol.toNat / 2 ^ 14 ∧
      k.count = s.core.cr.cpol.toNat / 2 ^ 8 % 64 := by
  have core : s.coreAt s.poster.id = s.core := coreAt_self s
  have lt : s.core.cr.cpol.toNat / 2 ^ 14 < 2 ^ 2 := by
    have := s.core.cr.cpol.isLt
    omega
  simp only [State.ownTask, State.newTask, core]
  exact ⟨rfl, trivial, Nat.mod_eq_of_lt lt, rfl⟩

/-- The state after an admission, when the posting instruction has ended. -/
def State.posted (s : State) (l : Label) (d : Draft) (nb : Bool) (sd : Reg) : State :=
  if nb then (s.entered l d).afterWrite sd 1 else (s.entered l d).afterNext

/-- A posting instruction whose task has been admitted goes on. -/
theorem endsPost_admitted (s u : State) (nb : Bool) (sd : Reg) (l : Label) (d : Draft) :
    endsPost s nb sd (.ok (.admitted (u.entered l d))) = .next (u.posted l d nb sd) := by
  cases nb
  · rfl
  · exact congrArg _ (State.wr_advance _ sd 1)

/-- The acting core after it: the ending's registers and PC, the admission's buffers and key. -/
theorem posted_core (s : State) (l : Label) (d : Draft) (nb : Bool) (sd : Reg) :
    let base := if nb then s.afterWrite sd 1 else s.afterNext
    (s.posted l d nb sd).core = { base.core with
      bufs := if s.core.status.cv then d.consumed.foldl (fun b h => bufConsume b h.1 h.2) s.core.bufs else s.core.bufs
      cr := match d.op with
        | .vec _ => { base.core.cr with bseq := base.core.cr.bseq + 1 }
        | _ => base.core.cr } := by
  have admits : s.core.admits d = { s.core with
      bufs := if s.core.status.cv then d.consumed.foldl (fun b h => bufConsume b h.1 h.2) s.core.bufs else s.core.bufs
      cr := match d.op with
        | .vec _ => { s.core.cr with bseq := s.core.cr.bseq + 1 }
        | _ => s.core.cr } := by
    unfold Core.admits Core.takeKey
    cases d.op <;> rfl
  have core : (s.entered l d).core = s.core.admits d := rfl
  cases nb
  · simp only [State.posted, Bool.false_eq_true, if_false, State.afterNext, core, admits]
  · simp only [State.posted, if_true, State.afterWrite, core, admits]
    rfl

/-- What `posted` is, is what the statements on posting say of an admitted task. -/
theorem posted_admittedAs (s : State) (l : Label) (d : Draft) (nb : Bool) (sd : Reg) : admittedAs s d nb sd (s.ownTask l d) (s.posted l d nb sd) := by
  obtain ⟨rm, kt, policy, count⟩ := ownTask_fields s l d
  refine ⟨posted_core s l d nb sd, ?_, rfl, rfl, rfl, rfl, rfl, rfl, mem_ownTask_waits s l d, ownTask_phase s l d, rfl, rfl, rm, kt, policy, count, ?_⟩
  · refine Eq.trans ?_ (clusterAt_entered s l d)
    cases nb <;> rfl
  · refine Eq.trans ?_ (entered_frame s l d)
    cases nb <;> rfl

/-- One whose task finds no room answers 0 with NB, and waits without it. -/
theorem endsPost_full (s : State) (nb : Bool) (sd : Reg) :
    endsPost s nb sd (.ok .full) = .next (if nb then s.afterWrite sd 0 else s.waitsOn .quota) := by
  cases nb
  · rfl
  · exact congrArg _ (State.wr_advance s sd 0)

/-! ## Matrix commands -/

/-- The task that a matrix command drafts when its checks pass (R197, R199). -/
def mmaDraft (s : State) (o : OpMma) (minor : Nat) : Draft :=
  { op := .mma minor o.d.toNat o.a.toNat o.b.toNat o.spec, consumed := []
    regions := (mmaSlots minor o.a.toNat o.b.toNat).map (fun n => implicitRegion s.core.id.core .pal (n * Config.slotBytes) 16384 true false) ++
      [mmaPart s.core.id.core minor o.d.toNat o.spec] }

/-- The context's part of the acting core's cluster says which slots and tiles the core owns. -/
theorem ownsSlot_iff {s : State} {x : CtxCluster} (hx : (s.clusterAt s.core.id.die s.core.id.clu).ctxAt s.core.cid.toNat = some x) (n : Nat) :
    s.ownsSlot s.poster n = true ↔ (n, s.core.id.core) ∈ x.slotOwner := by
  have at_ : s.ctxAt s.poster.id.die s.poster.id.clu s.poster.ctx = some x := hx
  rw [State.ownsSlot, at_]
  exact List.contains_iff_mem
theorem ownsTile_iff {s : State} {x : CtxCluster} (hx : (s.clusterAt s.core.id.die s.core.id.clu).ctxAt s.core.cid.toNat = some x) (n : Nat) :
    s.ownsTile s.poster n = true ↔ (n, s.core.id.core) ∈ x.tileOwner := by
  have at_ : s.ctxAt s.poster.id.die s.poster.id.clu s.poster.ctx = some x := hx
  rw [State.ownsTile, at_]
  exact List.contains_iff_mem

/-- The F64 path is missing exactly for the two F64 commands on a module without it (R23). -/
theorem zmatMissing_iff (s : State) (minor : Nat) : zmatMissing s minor = true ↔ minor ∈ [7, 8] ∧ s.modul.caps.zmat = false := by
  simp [zmatMissing, and_comm]

/-- A check that fails is the fault it names; one that holds lets the instruction go on. -/
theorem faultIf_bind {α : Type} (b : Bool) (c : Cause) (f : Unit → Res α) : (faultIf b c).bind f = if b then .fault { cause := c } else f () := by
  cases b <;> rfl

/-- A matrix command's checks in their order (R62, R198): the F64 path, the slots, the tile; then it posts its task. -/
theorem postMma_eq (s : State) (o : OpMma) (minor : Nat) (hcv : s.core.status.cv = true) : postMma s o minor =
    if zmatMissing s minor then .next (s.takeFault { cause := .unitAbsent })
    else if (mmaSlots minor o.a.toNat o.b.toNat).any (fun n => !s.ownsSlot s.poster n) then .next (s.takeFault { cause := .palState })
    else if !s.ownsTile s.poster o.d.toNat then .next (s.takeFault { cause := .accOwner })
    else endsPost s false 0 (s.enterTaskHere { pri := o.pri, cls := 0, flag := none, tag := 0 } (mmaDraft s o minor)) := by
  rw [postMma, needCtx_ok hcv, Res.ok_bind, faultIf_bind, draftMma, faultIf_bind, faultIf_bind]
  split
  · rfl
  split
  · rfl
  split <;> rfl

/-- No region of a matrix command is null, so each takes a region entry (R313). -/
theorem mmaDraft_entries (s : State) (o : OpMma) (minor : Nat) :
    ((mmaDraft s o minor).regions.filter (fun r => !r.null)).length = (mmaDraft s o minor).regions.length := by
  refine congrArg _ (List.filter_eq_self.2 fun r hr => ?_)
  obtain hr | hr := List.mem_append.1 hr
  · obtain ⟨n, -, rfl⟩ := List.mem_map.1 hr
    rfl
  · rw [List.mem_singleton.1 hr, mmaPart]
    split <;> rfl

/-- What is claimed of a command of one minor number. -/
theorem postMma_admits {s : State} {o : OpMma} {x : CtxCluster} (hcv : s.core.status.cv = true) (ha : s.core.aside = none)
    (hx : (s.clusterAt s.core.id.die s.core.id.clu).ctxAt s.core.cid.toNat = some x) (hc : x.cancelled = false) (minor : Nat) :
    let own := s.clusterAt s.core.id.die s.core.id.clu
    let absent := minor ∈ [7, 8] ∧ s.modul.caps.zmat = false
    let ownSlots := ∀ n ∈ mmaSlots minor o.a.toNat o.b.toNat, (n, s.core.id.core) ∈ x.slotOwner
    let ownTile := (o.d.toNat, s.core.id.core) ∈ x.tileOwner
    let d := mmaDraft s o minor
    (absent → postMma s o minor = .next (s.takeFault { cause := .unitAbsent })) ∧
    (¬ absent → ¬ ownSlots → postMma s o minor = .next (s.takeFault { cause := .palState })) ∧
    (¬ absent → ownSlots → ¬ ownTile → postMma s o minor = .next (s.takeFault { cause := .accOwner })) ∧
    (¬ absent → ownSlots → ownTile →
      (own.hasRoom false s.core.id.core d.regions.length = true → ∃ k t, postMma s o minor = .next t ∧ admittedAs s d false 0 k t ∧ k.pri = o.pri) ∧
      (own.hasRoom false s.core.id.core d.regions.length = false → postMma s o minor = .next (s.waitsOn .quota))) := by
  intro own absent ownSlots ownTile d
  have slots : (mmaSlots minor o.a.toNat o.b.toNat).any (fun n => !s.ownsSlot s.poster n) = true ↔ ¬ ownSlots := by
    simp [ownSlots, ← ownsSlot_iff hx]
  have tile : (!s.ownsTile s.poster o.d.toNat) = true ↔ ¬ ownTile := by
    simp [ownTile, ← ownsTile_iff hx]
  rw [postMma_eq s o minor hcv]
  simp only [zmatMissing_iff, slots, tile]
  refine ⟨fun h => if_pos h, fun h1 h2 => by rw [if_neg h1, if_pos h2], fun h1 h2 h3 => by rw [if_neg h1, if_neg (not_not.2 h2), if_pos h3], fun h1 h2 h3 => ?_⟩
  rw [if_neg h1, if_neg (not_not.2 h2), if_neg (not_not.2 h3),
    enterTaskHere_eq s _ _ ha (fun y hy => Option.some.inj (hx.symm.trans hy) ▸ hc), mmaDraft_entries]
  refine ⟨fun room => ⟨_, _, ?_, posted_admittedAs s { pri := o.pri, cls := 0, flag := none, tag := 0 } d false 0, rfl⟩, fun room => ?_⟩
  · rw [if_pos room, endsPost_admitted]
  · rw [if_neg (by rw [room]; exact Bool.false_ne_true), endsPost_full]
    rfl

/-- Each command of the table is `postMma` of its minor number, on the slots that `mmaSlots` names. -/
theorem exec_mmaTable (s : State) (o : OpMma) : ∀ p ∈ mmaTable o, exec p.1 s = postMma s o p.2.1 ∧ p.2.2 = mmaSlots p.2.1 o.a.toNat o.b.toNat := by
  simp only [mmaTable, List.forall_mem_cons]
  exact ⟨⟨rfl, rfl⟩, ⟨rfl, rfl⟩, ⟨rfl, rfl⟩, ⟨rfl, rfl⟩, ⟨rfl, rfl⟩, ⟨rfl, rfl⟩, ⟨rfl, rfl⟩, ⟨rfl, rfl⟩, ⟨rfl, rfl⟩, List.forall_mem_nil _⟩

/-- The part that a command writes: its whole tile, or for `mma.f64` the half that bit 2 of SPEC names. -/
theorem mmaPart_eq (core minor tile : Nat) (spec : BitVec 3) : mmaPart core minor tile spec =
    Region.mk false true true false .acc 8 (tile * 0x40000 + (if minor = 7 then (if spec.getLsbD 2 then 0x20000 else 0) else 0))
      [(if minor = 7 then 16384 else 32768, 8)] core := by
  by_cases h : minor = 7
  · subst h
    cases hs : spec[2] <;> simp [mmaPart, implicitRegion, bitOf, hs, Config.tileBytes]
  · simp [mmaPart, implicitRegion, h, Config.tileBytes]

end Sys2Proof.Machine

namespace Sys2Proof
open Sys2Proof.Machine

/-- Settles O19: each command is `postMma` of its minor number, whose checks and admission are `postMma_admits`. -/
theorem matrixCommands : Obligations.MatrixCommands := by
  intro s o x hcv ha _ _ own hx hc p hp
  obtain ⟨run, slots⟩ := exec_mmaTable s o p hp
  have claim := postMma_admits (o := o) hcv ha hx hc p.2.1
  simp only [mmaDraft, mmaPart_eq, ← slots, ← run] at claim
  exact claim

end Sys2Proof
end

section
/-! SUPPORT. O32: what writing a control register sets, and what it leaves (R372–R376, R381, R422). -/

namespace Sys2Proof.Machine

/-! ## The loaded context's flag map -/

/-- A context found in a cluster is found changed after a change that keeps its number. -/
theorem ctxAt_updCtx (k : Cluster) (ctx : Nat) (f : CtxCluster → CtxCluster) (hf : ∀ x, (f x).ctx = x.ctx) :
    (k.updCtx ctx f).ctxAt ctx = (k.ctxAt ctx).map f := by
  unfold Cluster.ctxAt Cluster.updCtx mapWhere
  rw [List.find?_map]
  have same : (fun x : CtxCluster => decide ((if decide (x.ctx = ctx) = true then f x else x).ctx = ctx)) = fun x => decide (x.ctx = ctx) := by
    funext x
    split
    · rw [hf]
    · rfl
  rw [show ((fun x : CtxCluster => decide (x.ctx = ctx)) ∘ fun a => if decide (a.ctx = ctx) = true then f a else a) = _ from same]
  cases h : k.ctxs.find? (fun x => decide (x.ctx = ctx)) with
  | none => rfl
  | some x =>
    exact congrArg some (if_pos (List.find?_some h))

theorem coreFlags_updFlags (x : CtxCluster) (k : Nat) (f : CoreFlags → CoreFlags) (hk : k < 4) : (x.updFlags k f).coreFlags k = f (x.coreFlags k) := by
  simp [CtxCluster.coreFlags, CtxCluster.updFlags, List.getD_eq_getElem?_getD, hk]

/-- The map after a write of one of its registers, on a core of the module with its context in the cluster. -/
theorem loadedMap_setMap {s : State} {x : CtxCluster} (hk : s.core.id.core < 4) (hx : s.cluster.ctxAt s.core.cid.toNat = some x) (n : Nat) (v : Word) :
    (s.setMap n v).loadedMap = Vector.ofFn (fun i : Fin 8 => if i.val = n then v else s.loadedMap[i]) := by
  have after : (s.setMap n v).cluster.ctxAt (s.setMap n v).core.cid.toNat = some (x.updFlags s.core.id.core (fun g =>
      { g with fmap := Vector.ofFn (fun i => if i.val = n then v else g.fmap[i]) })) := by
    have := ctxAt_updCtx s.cluster s.core.cid.toNat (fun x => x.updFlags s.core.id.core (fun g =>
      { g with fmap := Vector.ofFn (fun i => if i.val = n then v else g.fmap[i]) })) (fun _ => rfl)
    rwa [hx] at this
  have before : s.loadedMap = (x.coreFlags s.core.id.core).fmap := by rw [State.loadedMap, hx]; rfl
  rw [State.loadedMap, after, before]
  exact congrArg CoreFlags.fmap (coreFlags_updFlags x s.core.id.core _ hk)

/-! ## What a write sets and leaves -/

/-- A register of the flag map reads the loaded context's map (R387, R438). -/
theorem crValue_map (s : State) (i : Fin 8) : s.crValue (0x20 + i.val) = if s.core.status.cv then s.loadedMap[i] else 0 := by
  have : s.crValue (0x20 + i.val) = if s.core.status.cv && 0x20 ≤ 0x20 + i.val && 0x20 + i.val ≤ 0x27 then s.loadedMap.toList.getD (0x20 + i.val - 0x20) 0 else 0 := by
    fin_cases i <;> rfl
  have hi := i.isLt
  rw [this]
  simp [List.getD_eq_getElem?_getD, show 32 + i.val ≤ 39 by omega]

/-- The control registers of the core that a write of register n sets; the rest of the state but the flag map, the status and the compare
stay. -/
theorem crPut_setMap (s : State) (n : Nat) (o : CrOp) (sa : Word) (h : 0x20 ≤ n) (h2 : n ≤ 0x27) :
    s.crPut n o sa = s.setMap (n - 0x20) (o.value (s.crValue n) sa) := by
  obtain ⟨i, rfl⟩ : ∃ i : Fin 8, n = 0x20 + i.val := ⟨⟨n - 0x20, by omega⟩, by dsimp only; omega⟩
  fin_cases i <;> rfl

/-- A write of the flag map leaves every other register. -/
theorem crValue_setMap_ne {s : State} {x : CtxCluster} (hk : s.core.id.core < 4) (hx : s.cluster.ctxAt s.core.cid.toNat = some x)
    (n m : Nat) (v : Word) (h : m ≠ 0x20 + n) : (s.setMap n v).crValue m = s.crValue m := by
  by_cases hm : 0x20 ≤ m ∧ m ≤ 0x27
  · obtain ⟨i, rfl⟩ : ∃ i : Fin 8, m = 0x20 + i.val := ⟨⟨m - 0x20, by omega⟩, by dsimp only; omega⟩
    rw [crValue_map, crValue_map, loadedMap_setMap hk hx]
    have hi : ¬ i.val = n := fun e => h (e ▸ rfl)
    have hcv : (s.setMap n v).core.status.cv = s.core.status.cv := rfl
    simp [hi, hcv]
  · have hb : (s.core.status.cv && decide (0x20 ≤ m) && decide (m ≤ 0x27)) = false := by
      simpa using fun _ => Nat.lt_of_not_le ∘ not_and.1 hm
    have hb' : ((s.setMap n v).core.status.cv && decide (0x20 ≤ m) && decide (m ≤ 0x27)) = false := hb
    unfold State.crValue
    dsimp only
    split
    case h_22 => rw [hb, hb', if_neg Bool.false_ne_true, if_neg Bool.false_ne_true]
    all_goals rfl

/-- The loaded context's map can be written: the core is one of its cluster's and the cluster keeps the context. -/
def State.hasMap (s : State) : Prop := s.core.id.core < 4 ∧ ∃ x, s.cluster.ctxAt s.core.cid.toNat = some x

/-- The value of a register that holds state of its own, from those registers alone. -/
def CtlRegs.value? (r : CtlRegs) (n : Nat) : Option Word :=
  match n with
  | 0x08 => some (r.fpctl.setWidth 64)
  | 0x09 => some (r.fpstat.setWidth 64)
  | 0x0A => some (r.fpen.setWidth 64)
  | 0x0B => some (r.cpol.setWidth 64)
  | 0x0C => some r.tflog
  | 0x0D => some r.bkey
  | 0x0E => some r.bseq
  | 0x11 => some r.tvec
  | 0x12 => some r.epc
  | 0x13 => some r.cause
  | 0x14 => some r.faddr
  | 0x15 => some r.finfo
  | 0x16 => some r.scr
  | 0x17 => some r.cyccmp
  | _ => none
/-- The state with those registers replaced, and the compare armed or not. -/
def State.withCr (s : State) (r : CtlRegs) (armed : Bool) : State := { s with core := { s.core with cr := r, cmpArmed := armed } }

/-- With those registers replaced, each reads as they say and every other register as before. -/
theorem crValue_withCr (s : State) (r : CtlRegs) (armed : Bool) (n : Nat) : (s.withCr r armed).crValue n = (r.value? n).getD (s.crValue n) := by
  unfold State.crValue
  dsimp only
  split
  case h_22 =>
    have rest : r.value? n = none := by
      unfold CtlRegs.value?
      split
      case h_15 => rfl
      all_goals contradiction
    rw [rest]
    rfl
  all_goals rfl

/-- Those registers after a write of one of them (R372–R376, R381, R382). -/
def CtlRegs.put (r : CtlRegs) (sMode : Bool) (n : Nat) (v : Word) : CtlRegs :=
  match n with
  | 0x08 => { r with fpctl := v.setWidth 3 }
  | 0x09 => { r with fpstat := v.setWidth 7 }
  | 0x0A => { r with fpen := v.setWidth 7 }
  | 0x0B => { r with cpol := cpolAfter r.cpol sMode v }
  | 0x0C => { r with tflog := 0 }
  | 0x0D => { r with bkey := v }
  | 0x0E => { r with bseq := v }
  | 0x11 => { r with tvec := v &&& 0xFFFFFFF8 }
  | 0x12 => { r with epc := v }
  | 0x13 => { r with cause := v &&& causeMask }
  | 0x14 => { r with faddr := v }
  | 0x15 => { r with finfo := v }
  | 0x16 => { r with scr := v }
  | 0x17 => { r with cyccmp := v }
  | _ => r

/-- A write replaces those registers, the status, or the flag map. -/
theorem crPut_eq (s : State) (n : Nat) (o : CrOp) (sa : Word) : let v := o.value (s.crValue n) sa
    s.crPut n o sa = if 0x20 ≤ n ∧ n ≤ 0x27 then s.setMap (n - 0x20) v
      else if n = 0x10 then { s with core := { s.core with status := statusAfter s.core.status o v sa } }
      else s.withCr (s.core.cr.put s.core.sMode n v) (n = 0x17 || s.core.cmpArmed) := by
  unfold State.crPut
  generalize o.value (s.crValue n) sa = v
  dsimp only
  split
  case h_16 =>
    have rest : s.core.cr.put s.core.sMode n v = s.core.cr := by
      unfold CtlRegs.put
      split
      case h_15 => rfl
      all_goals contradiction
    have h10 : n ≠ 0x10 := ‹n = 16 → False›
    have h17 : n ≠ 0x17 := ‹n = 23 → False›
    simp [rest, h10, h17, State.withCr]
  all_goals rfl

/-- A write of one of those registers leaves the others. -/
theorem value?_put_ne (r : CtlRegs) (sMode : Bool) (n m : Nat) (v : Word) (h : m ≠ n) : (r.put sMode n v).value? m = r.value? m := by
  unfold CtlRegs.put
  split <;> (unfold CtlRegs.value?; split <;> trivial)

/-- A write of the status leaves every other register: CV is none of the bits it sets. -/
theorem crValue_status_ne (s : State) (o : CrOp) (v sa : Word) (m : Nat) (h : m ≠ 0x10) :
    ({ s with core := { s.core with status := statusAfter s.core.status o v sa } } : State).crValue m = s.crValue m := by
  unfold State.crValue
  dsimp only
  split <;> trivial

/-- A write of a register leaves every other register. -/
theorem crValue_crPut_ne (s : State) (n m : Nat) (o : CrOp) (sa : Word) (hmap : 0x20 ≤ n → s.hasMap) (h : m ≠ n) :
    (s.crPut n o sa).crValue m = s.crValue m := by
  rw [crPut_eq]
  split
  · obtain ⟨hk, x, hx⟩ := hmap (by omega)
    exact crValue_setMap_ne hk hx _ m _ (by omega)
  split
  · exact crValue_status_ne s o _ sa m (by omega)
  · rw [crValue_withCr, value?_put_ne _ _ _ _ _ h]
    exact (crValue_withCr s s.core.cr s.core.cmpArmed m).symm

/-- What a write leaves outside the registers: memory and the core's own registers, whatever it writes. -/
theorem crPut_frame (s : State) (n : Nat) (o : CrOp) (sa : Word) : let t := s.crPut n o sa
    t.core.regs = s.core.regs ∧ t.core.pc = s.core.pc ∧ t.core.spad = s.core.spad ∧ t.core.id = s.core.id ∧ t.parked = s.parked ∧ t.modul = s.modul ∧ t.host = s.host := by
  unfold State.crPut
  generalize o.value (s.crValue n) sa = v
  dsimp only
  split
  case h_16 => split <;> exact ⟨rfl, rfl, rfl, rfl, rfl, rfl, rfl⟩
  all_goals exact ⟨rfl, rfl, rfl, rfl, rfl, rfl, rfl⟩

/-- Every byte reads as before when the scratchpads, HBM and host memory are as before. -/
theorem SameBytes.of_eq {s t : State} (hid : t.core.id = s.core.id) (hspad : t.core.spad = s.core.spad) (hparked : t.parked = s.parked)
    (hhbm : t.modul.hbm = s.modul.hbm) (hmem : t.host.mem = s.host.mem) : SameBytes s t := by
  refine ⟨fun id a => ?_, fun a => by rw [hhbm], fun a => by rw [hmem]⟩
  unfold State.coreAt
  rw [hid, hparked]
  split
  · rw [hspad]
  · rfl

/-! ## What the written register reads -/

/-- A field of k bits, read as a word again, is the word's low k bits. -/
theorem setWidth_setWidth_eq_and (v : Word) (k : Nat) (hk : k < 64) : (v.setWidth k).setWidth 64 = v &&& BitVec.ofNat 64 (2 ^ k - 1) := by
  have hle : 2 ^ k - 1 < 2 ^ 64 := (Nat.sub_le _ _).trans_lt (Nat.pow_lt_pow_right (by decide) hk)
  have hlt : v.toNat % 2 ^ k < 2 ^ 64 := (Nat.mod_le _ _).trans_lt v.isLt
  apply BitVec.eq_of_toNat_eq
  rw [BitVec.toNat_and, BitVec.toNat_setWidth, BitVec.toNat_setWidth, BitVec.toNat_ofNat, Nat.mod_eq_of_lt hle, Nat.and_two_pow_sub_one_eq_mod,
    Nat.mod_eq_of_lt hlt]

/-- A register that keeps its bits as given, below the flag map. -/
theorem value?_put_plain (r : CtlRegs) (sMode : Bool) (n : Nat) (v mask : Word) (h : (n, mask) ∈ plainRegisters) (hn : n < 0x20) :
    (r.put sMode n v).value? n = some (v &&& mask) := by
  have map : ∀ p ∈ (List.range 8).map (fun i => (0x20 + i, BitVec.allOnes 64)), ¬ p.1 < 0x20 := by simp
  obtain h | h := List.mem_append.1 h
  · simp only [List.mem_cons, List.not_mem_nil, or_false, Prod.mk.injEq] at h
    obtain ⟨rfl, rfl⟩ | ⟨rfl, rfl⟩ | ⟨rfl, rfl⟩ | ⟨rfl, rfl⟩ | ⟨rfl, rfl⟩ | ⟨rfl, rfl⟩ | ⟨rfl, rfl⟩ | ⟨rfl, rfl⟩ | ⟨rfl, rfl⟩ | ⟨rfl, rfl⟩ | ⟨rfl, rfl⟩ | ⟨rfl, rfl⟩ := h
    · exact congrArg some (setWidth_setWidth_eq_and v 3 (by decide))
    · exact congrArg some (setWidth_setWidth_eq_and v 7 (by decide))
    · exact congrArg some (setWidth_setWidth_eq_and v 7 (by decide))
    all_goals simp only [CtlRegs.put, CtlRegs.value?, causeMask, BitVec.and_allOnes]
  · exact absurd hn (map _ h)

/-- `CR_CPOL` after a write: in U mode CP and CN keep their value (R381). -/
theorem cpolAfter_setWidth (old : BitVec 16) (sMode : Bool) (v : Word) :
    (cpolAfter old sMode v).setWidth 64 = if sMode then v &&& 0xFFFF else (v &&& 0xFF00) ||| (old.setWidth 64 &&& 0xFF) := by
  have low : (v.setWidth 16).setWidth 64 = v &&& 0xFFFF := setWidth_setWidth_eq_and v 16 (by decide)
  cases sMode
  · have : (v &&& 0xFFFF) &&& 0xFF00 = v &&& 0xFF00 := by rw [BitVec.and_assoc]; rfl
    simp only [cpolAfter, Bool.false_eq_true, if_false, BitVec.setWidth_or, BitVec.setWidth_and, low]
    rw [← this]
    rfl
  · exact low

/-- A bit of a number below 2^64 is a digit of it. -/
theorem getLsbD_ofNat_digit {n i : Nat} (hi : i < 64) {b : Bool} (h : n / 2 ^ i % 2 = bitOf b) : (BitVec.ofNat 64 n).getLsbD i = b := by
  rw [BitVec.getLsbD_ofNat, Nat.testBit_eq_decide_div_mod_eq, h]
  cases b <;> simp [hi, bitOf]
theorem bitOf_le (b : Bool) : bitOf b ≤ 1 := by cases b <;> decide
/-- A bit of a field is a digit of its number. -/
theorem bitOf_getLsbD {k : Nat} (x : BitVec k) (i : Nat) : bitOf (x.getLsbD i) = x.toNat / 2 ^ i % 2 := by
  rw [← BitVec.testBit_toNat, Nat.testBit_eq_decide_div_mod_eq, bitOf]
  have := Nat.mod_lt (x.toNat / 2 ^ i) (show 2 > 0 by decide)
  by_cases h : x.toNat / 2 ^ i % 2 = 1
  · simp [h]
  · simp only [h, decide_false, Bool.false_eq_true, if_false]
    omega

/-- The bits of `CR_STATUS` (R374). -/
theorem statusWord_getLsbD (c : Core) (i : Nat) : (statusWord c).getLsbD i = match i with
    | 0 => c.status.mode | 1 => c.status.pm | 2 => c.status.ie | 3 => c.status.pie | 4 => c.status.td
    | 8 => c.status.im.getLsbD 0 | 9 => c.status.im.getLsbD 1 | 10 => c.status.im.getLsbD 2 | 11 => c.status.ipp | 12 => c.status.ipc
    | 13 => !c.inbox.isEmpty | 14 => c.status.yp | 15 => c.status.cv | _ => false := by
  have hcv := bitOf_le c.status.cv
  have hyp := bitOf_le c.status.yp
  have hin := bitOf_le (!c.inbox.isEmpty)
  have hic := bitOf_le c.status.ipc
  have hip := bitOf_le c.status.ipp
  have him := c.status.im.isLt
  have htd := bitOf_le c.status.td
  have hpi := bitOf_le c.status.pie
  have hie := bitOf_le c.status.ie
  have hpm := bitOf_le c.status.pm
  have hmo := bitOf_le c.status.mode
  have h0 := bitOf_getLsbD c.status.im 0
  have h1 := bitOf_getLsbD c.status.im 1
  have h2 := bitOf_getLsbD c.status.im 2
  have hf : bitOf false = 0 := rfl
  unfold statusWord
  by_cases hi : i < 16
  · interval_cases i
    all_goals
      simp only
      refine getLsbD_ofNat_digit (by decide) ?_
      omega
  · obtain ⟨j, rfl⟩ := Nat.exists_eq_add_of_le' (Nat.le_of_not_lt hi)
    have lt : ∀ n, n < 2 ^ 16 → (BitVec.ofNat 64 n).getLsbD (j + 16) = false := fun n hn => by
      rw [BitVec.getLsbD_ofNat, Nat.testBit_lt_two_pow (hn.trans_le (Nat.pow_le_pow_right (by decide) (Nat.le_add_left 16 j))), Bool.and_false]
    refine (lt _ ?_).trans rfl
    omega

/-- The bits of `CR_STATUS` after a write (R374, R376): the writable fields take their bits, IPP and IPC are cleared where named. -/
theorem statusWord_statusAfter (c : Core) (o : CrOp) (v sa : Word) (i : Nat) :
    (statusWord { c with status := statusAfter c.status o v sa }).getLsbD i =
      if i ∈ [1, 2, 3, 8, 9, 10, 14] then v.getLsbD i
      else if i ∈ [11, 12] then (statusWord c).getLsbD i && !(decide (o ≠ .set) && sa.getLsbD i) else (statusWord c).getLsbD i := by
  rw [statusWord_getLsbD, statusWord_getLsbD]
  have im : ∀ j < 3, (BitVec.ofNat 3 (bits v 10 8)).getLsbD j = v.getLsbD (8 + j) := by
    intro j hj
    rw [BitVec.getLsbD_ofNat, bits, Nat.testBit_mod_two_pow, Nat.testBit_div_two_pow, BitVec.testBit_toNat]
    simp [hj, add_comm]
  have im0 : (BitVec.ofNat 3 (bits v 10 8))[0] = v[8] := im 0 (by decide)
  have im1 : (BitVec.ofNat 3 (bits v 10 8))[1] = v[9] := im 1 (by decide)
  have im2 : (BitVec.ofNat 3 (bits v 10 8))[2] = v[10] := im 2 (by decide)
  by_cases hi : i < 16
  · interval_cases i <;> simp [statusAfter, bit, im0, im1, im2, Bool.and_comm]
  · obtain ⟨j, rfl⟩ := Nat.exists_eq_add_of_le' (Nat.le_of_not_lt hi)
    simp

/-! ## The instructions -/

/-- A read that the mode allows. -/
theorem execCrr_eq (s : State) (o : OpCrr) (h : s.core.status.mode = true ∨ o.n.toNat ≤ 0x0E) :
    exec (.crr o) s = .next (s.afterWrite o.d (s.crValue o.n.toNat)) := by
  have ok : crReadOk s o.n.toNat = .ok () := by
    have : (!s.core.sMode && !crUser o.n.toNat) = false := by
      simpa [Core.sMode, crUser, or_iff_not_imp_left] using h
    rw [crReadOk, this, faultIf_false]
  show execCrr o s = _
  rw [execCrr, ok, Res.ok_bind, ends_ok, State.wr_advance]

/-- The checks of a write pass where the core may write the register. -/
theorem crWriteOk_ok {s : State} {n : Nat} (h : mayWrite s n) : crWriteOk s n = .ok () := by
  obtain ⟨hmode, hlow, hbase, hmap⟩ := h
  have h1 : (!s.core.sMode && !crUser n) = false := by simpa [Core.sMode, crUser, or_iff_not_imp_left] using hmode
  have h2 : crReadOnly n = false := by simp [crReadOnly, hbase]; omega
  have h3 : (decide (0x20 ≤ n) && !s.core.status.cv) = false := by simpa using fun hn => (hmap hn).1
  rw [crWriteOk, h1, h2, h3]
  rfl
/-- A register that no mode may write (R372). -/
theorem crWriteOk_readOnly {s : State} {n : Nat} (hs : s.core.status.mode = true) (h : n ≤ 4 ∨ n = 0x18) :
    crWriteOk s n = .fault { cause := .illegalOp } := by
  have h1 : (!s.core.sMode && !crUser n) = false := by simp [Core.sMode, hs]
  have h2 : crReadOnly n = true := by simpa [crReadOnly] using h
  rw [crWriteOk, h1, h2]
  rfl
/-- The shared form of the three writing instructions, where the core may write. -/
theorem crUpdate_eq {s : State} {o : OpCr} (op : CrOp) (h : mayWrite s o.n.toNat) :
    ends s (crUpdate s op o) = .next ((s.crPut o.n.toNat op (s.rd o.a)).afterWrite o.d (s.crValue o.n.toNat)) := by
  rw [crUpdate, crWriteOk_ok h, Res.ok_bind, ends_ok, State.wr_advance]

/-- Of the registers of the flag map every bit is kept. -/
theorem plainRegisters_map {n : Nat} {mask : Word} (h : (n, mask) ∈ plainRegisters) (hn : 0x20 ≤ n) : ∃ i : Fin 8, n = 0x20 + i.val ∧ mask = BitVec.allOnes 64 := by
  obtain h | h := List.mem_append.1 h
  · simp only [List.mem_cons, List.not_mem_nil, or_false, Prod.mk.injEq] at h
    omega
  · obtain ⟨j, hj, e⟩ := List.mem_map.1 h
    obtain ⟨rfl, rfl⟩ := Prod.mk.inj e
    exact ⟨⟨j, List.mem_range.1 hj⟩, rfl, rfl⟩

/-- A register that keeps its bits as given reads them. -/
theorem crValue_crPut_plain {s : State} {n : Nat} {mask : Word} (o : CrOp) (sa : Word) (hw : mayWrite s n) (h : (n, mask) ∈ plainRegisters) :
    (s.crPut n o sa).crValue n = o.value (s.crValue n) sa &&& mask := by
  by_cases hn : n < 0x20
  · have h10 : n ≠ 0x10 := by
      rintro rfl
      simp [plainRegisters] at h
      omega
    rw [crPut_eq, if_neg (by omega), if_neg h10, crValue_withCr, value?_put_plain _ _ _ _ _ h hn]
    rfl
  · obtain ⟨i, rfl, rfl⟩ := plainRegisters_map h (Nat.le_of_not_lt hn)
    obtain ⟨-, -, -, hmap⟩ := hw
    obtain ⟨hcv, hk, x, hx⟩ := hmap (Nat.le_of_not_lt hn)
    have hcv' : (s.setMap i.val (o.value (s.crValue (0x20 + i.val)) sa)).core.status.cv = true := hcv
    rw [crPut_setMap s _ o sa (by omega) (by omega), Nat.add_sub_cancel_left, crValue_map, if_pos hcv', loadedMap_setMap hk hx, BitVec.and_allOnes]
    simp
/-- `CR_CPOL` keeps its lower half in U mode (R381). -/
theorem crValue_crPut_cpol (s : State) {n : Nat} (h : n = 0x0B) (o : CrOp) (sa : Word) : let v := o.value (s.crValue n) sa
    (s.crPut n o sa).crValue n = if s.core.status.mode then v &&& 0xFFFF else (v &&& 0xFF00) ||| (s.crValue n &&& 0xFF) := by
  subst h
  exact cpolAfter_setWidth s.core.cr.cpol s.core.sMode _
/-- `CR_TFLOG` becomes zero (R382). -/
theorem crValue_crPut_tflog (s : State) {n : Nat} (h : n = 0x0C) (o : CrOp) (sa : Word) : (s.crPut n o sa).crValue n = 0 := by
  subst h
  rfl
/-- `CR_STATUS` is the status word after the write. -/
theorem crValue_crPut_status (s : State) {n : Nat} (h : n = 0x10) (o : CrOp) (sa : Word) (i : Nat) : let v := o.value (s.crValue n) sa
    ((s.crPut n o sa).crValue n).getLsbD i = if i ∈ [1, 2, 3, 8, 9, 10, 14] then v.getLsbD i
      else if i ∈ [11, 12] then (s.crValue n).getLsbD i && !(decide (o ≠ .set) && sa.getLsbD i) else (s.crValue n).getLsbD i := by
  subst h
  exact statusWord_statusAfter s.core o _ sa i

/-- What is claimed of one of the writing instructions. -/
theorem crUpdate_claim {s : State} {o : OpCr} (op : CrOp) (hw : mayWrite s o.n.toNat) :
    let n := o.n.toNat
    let old := s.crValue n
    let sa := s.rd o.a
    let v := op.value old sa
    ∃ t, ends s (crUpdate s op o) = .next t ∧
      t.core.regs = s.core.regsWith o.d old ∧ t.core.pc = s.core.pc + 8 ∧ SameBytes s t ∧ (∀ m, m ≠ n → t.crValue m = s.crValue m) ∧
      (∀ mask, (n, mask) ∈ plainRegisters → t.crValue n = v &&& mask) ∧
      (n = 0x0B → t.crValue n = if s.core.status.mode then v &&& 0xFFFF else (v &&& 0xFF00) ||| (old &&& 0xFF)) ∧
      (n = 0x0C → t.crValue n = 0) ∧
      (n = 0x10 → ∀ i, (t.crValue n).getLsbD i =
        if i ∈ [1, 2, 3, 8, 9, 10, 14] then v.getLsbD i
        else if i ∈ [11, 12] then old.getLsbD i && !(decide (op ≠ .set) && sa.getLsbD i) else old.getLsbD i) := by
  intro n old sa v
  obtain ⟨hregs, hpc, hspad, hid, hparked, hmodul, hhost⟩ := crPut_frame s n op sa
  have ⟨_, _, _, hmap⟩ := hw
  refine ⟨_, crUpdate_eq op hw, ?_, congrArg (· + 8) hpc, ?_, fun m hm => ?_, fun mask h => crValue_crPut_plain op sa hw h,
    fun h => crValue_crPut_cpol s h op sa, fun h => crValue_crPut_tflog s h op sa, fun h => crValue_crPut_status s h op sa⟩
  · show (s.crPut n op sa).core.regsWith o.d old = _
    rw [Core.regsWith, hregs]
    rfl
  · exact .of_eq hid hspad hparked (by rw [State.afterWrite_modul, hmodul]) (by rw [State.afterWrite_host, hhost])
  · exact crValue_crPut_ne s n m op sa (fun hn => (hmap hn).2) hm

/-! ## Accesses to the core control space (R92, R372) -/

/-- The address of a register in the core control space. -/
theorem placeOf_control {n : Nat} (hn : n < 128) : placeOf (0xF0000000 + 8 * n) = .control (8 * n) := by
  have h1 : ¬ 0xF0000000 + 8 * n < 0x400000 := by omega
  have h2 : ¬ (0x40000000 ≤ 0xF0000000 + 8 * n ∧ 0xF0000000 + 8 * n < 0x80000000) := by omega
  have h3 : 0xF0000000 ≤ 0xF0000000 + 8 * n ∧ 0xF0000000 + 8 * n < 0xF0100000 := by omega
  rw [placeOf, if_neg h1, if_neg h2, if_pos h3, Nat.add_sub_cancel_left]

section
variable {s : State} {o : OpMem} {n : Nat}

/-- The checks of a 64-bit access there, up to the register it names. -/
theorem control_access (hs : s.core.status.mode = true) (hc : crNumber (BitVec.ofNat 7 n) = true) (hn : n < 128) (hsize : o.size = 3)
    (ha : s.rd o.a + BitVec.ofInt 64 o.off.toInt = BitVec.ofNat 64 (0xF0000000 + 8 * n)) :
    plainEa (memEa s o) (memBytes o.size) = .ok (0xF0000000 + 8 * n) ∧ controlReg s (memEa s o) (8 * n) (memBytes o.size) = .ok n := by
  have ea : (memEa s o).toNat = 0xF0000000 + 8 * n := by
    rw [memEa, sx, BitVec.signExtend, ha, BitVec.toNat_ofNat]
    omega
  have bytes : memBytes o.size = 8 := by rw [hsize]; rfl
  have h1 : ((0xF0000000 + 8 * n) / 2 ^ 32 != 0) = false := by
    have : (0xF0000000 + 8 * n) / 2 ^ 32 = 0 := Nat.div_eq_of_lt (by omega)
    rw [this]; rfl
  have h2 : ((0xF0000000 + 8 * n) % 8 != 0) = false := by
    have : (0xF0000000 + 8 * n) % 8 = 0 := by omega
    rw [this]; rfl
  have h3 : (decide (0x400 ≤ 8 * n) || !crNumber (BitVec.ofNat 7 n)) = false := by
    have : ¬ 0x400 ≤ 8 * n := by omega
    simp [this, hc]
  rw [bytes, plainEa, ea, h1, h2, controlReg, Nat.mul_div_cancel_left n (by decide), h3, Core.sMode, hs]
  exact ⟨rfl, rfl⟩

/-- A load there reads the register as `crr` does. -/
theorem execLd_control (hs : s.core.status.mode = true) (hc : crNumber (BitVec.ofNat 7 n) = true) (hn : n < 128) (hsize : o.size = 3)
    (ha : s.rd o.a + BitVec.ofInt 64 o.off.toInt = BitVec.ofNat 64 (0xF0000000 + 8 * n)) :
    exec (.ld o) s = .next (s.afterWrite o.d (s.crValue n)) := by
  obtain ⟨plain, reg⟩ := control_access hs hc hn hsize ha
  show execLd o s = _
  rw [execLd]
  simp only [plain, Res.ok_bind, placeOf_control hn, reg, ends_ok, State.wr_advance]

/-- A store there writes it as `crw` to s0 does. -/
theorem execSt_control (hs : s.core.status.mode = true) (hc : crNumber (BitVec.ofNat 7 n) = true) (hn : n < 128) (hsize : o.size = 3)
    (ha : s.rd o.a + BitVec.ofInt 64 o.off.toInt = BitVec.ofNat 64 (0xF0000000 + 8 * n)) {r : OpCr} (hd : r.d = 0) (hra : r.a = o.d) (hrn : r.n.toNat = n)
    (hw : mayWrite s n) : exec (.st o) s = exec (.crw r) s := by
  obtain ⟨plain, reg⟩ := control_access hs hc hn hsize ha
  subst hrn
  show execSt o s = ends s (crUpdate s .write r)
  rw [crUpdate_eq .write hw, execSt, hd, hra]
  simp only [plain, Res.ok_bind, placeOf_control hn, reg, crWriteOk_ok hw, ends_ok]
  rfl

end

/-- R372–R376, R381, R382 as claimed. -/
theorem controlRegisters_holds : controlRegisters := by
  intro s
  refine ⟨fun o h => execCrr_eq s o h, fun o hs h => ?_, fun o => ?_, fun o n hs hc hn hsize ha => ⟨execLd_control hs hc hn hsize ha, ?_⟩⟩
  · have bad : ∀ op, ends s (crUpdate s op o) = .next (s.takeFault { cause := .illegalOp }) := fun op => by
      rw [crUpdate, crWriteOk_readOnly hs h]
      rfl
    simp only [List.forall_mem_cons]
    exact ⟨bad .write, bad .set, bad .clear, List.forall_mem_nil _⟩
  · intro n sa old hw
    simp only [List.forall_mem_cons]
    exact ⟨crUpdate_claim .write hw, crUpdate_claim .set hw, crUpdate_claim .clear hw, List.forall_mem_nil _⟩
  · intro r t hd hra hrn ht hw
    rw [execSt_control hs hc hn hsize ha hd hra hrn hw, ht]

end Sys2Proof.Machine
end

section
/-! SUPPORT. O32: what the control registers read as (R20, R275, R372–R375, R387). -/

namespace Sys2Proof.Machine

/-! ## The packed registers, digit by digit -/

/-- Clusters of a die, as the capabilities list them. -/
theorem ncl_eq (s : State) (d : Fin 4) : s.ncl d.val = s.modul.caps.ncl[d].toNat := by
  rw [State.ncl, List.getD_eq_getElem _ _ (by simp)]
  simp

/-- The lowest field of what stands from bit k on, and what stands above it. -/
theorem div_step {v k m q w f : Nat} (h : v / 2 ^ k = q * 2 ^ w + f) (hf : f < 2 ^ w) (hm : m = k + w) : v / 2 ^ k % 2 ^ w = f ∧ v / 2 ^ m = q := by
  constructor
  · rw [h, Nat.mul_add_mod_self_right, Nat.mod_eq_of_lt hf]
  · rw [hm, pow_add, ← Nat.div_div_eq_div_mul, h, Nat.add_comm, Nat.add_mul_div_right _ _ (Nat.two_pow_pos w), Nat.div_eq_of_lt hf, Nat.zero_add]

/-- `CR_CAPS` as a number: its fields stand side by side (R20). -/
theorem capsWord_fields (s : State) : let p := s.modul.caps; let v := s.capsWord
    (v.getLsbD 63 = true ↔ s.core.status.cv = true ∧ ∃ j, s.jobOf s.core.cid.toNat = some j ∧ j.skw = true) ∧ v.getLsbD 62 = p.zmat ∧
    v.toNat / 2 ^ 58 % 16 = 0 ∧ v.toNat / 2 ^ 48 % 2 ^ 10 = p.hbmg.toNat ∧ v.toNat / 2 ^ 43 % 2 ^ 5 = p.lnkx.toNat ∧ v.toNat / 2 ^ 40 % 8 = p.dies.toNat ∧
    v.toNat / 2 ^ 34 % 2 ^ 6 = p.ncl[0].toNat + p.ncl[1].toNat + p.ncl[2].toNat + p.ncl[3].toNat ∧ v.toNat / 2 ^ 32 % 4 = p.var.toNat ∧
    (∀ d : Fin 4, v.toNat / 2 ^ (16 + 4 * d.val) % 16 = p.ncl[d].toNat) ∧ v.toNat / 2 ^ 8 % 2 ^ 8 = p.stk.toNat ∧ v.toNat % 2 ^ 8 = 0 := by
  intro p v
  obtain ⟨skw, hskw⟩ : ∃ b, (s.core.status.cv && (s.jobOf s.core.cid.toNat).any (fun j => j.skw)) = b := ⟨_, rfl⟩
  have n0 : s.ncl 0 = p.ncl[0].toNat := ncl_eq s 0
  have n1 : s.ncl 1 = p.ncl[1].toNat := ncl_eq s 1
  have n2 : s.ncl 2 = p.ncl[2].toNat := ncl_eq s 2
  have n3 : s.ncl 3 = p.ncl[3].toNat := ncl_eq s 3
  have b0 := p.ncl[0].isLt
  have b1 := p.ncl[1].isLt
  have b2 := p.ncl[2].isLt
  have b3 := p.ncl[3].isLt
  have bn : p.ncl[0].toNat + p.ncl[1].toNat + p.ncl[2].toNat + p.ncl[3].toNat < 2 ^ 6 := by omega
  have bs := bitOf_le skw
  have bz := bitOf_le p.zmat
  have bh := p.hbmg.isLt
  have bl := p.lnkx.isLt
  have bd := p.dies.isLt
  have bv := p.var.isLt
  have bk := p.stk.isLt
  have word : v = BitVec.ofNat 64 (bitOf skw * 2 ^ 63 + bitOf p.zmat * 2 ^ 62 + p.hbmg.toNat * 2 ^ 48 + p.lnkx.toNat * 2 ^ 43 + p.dies.toNat * 2 ^ 40 +
      (p.ncl[0].toNat + p.ncl[1].toNat + p.ncl[2].toNat + p.ncl[3].toNat) * 2 ^ 34 + p.var.toNat * 2 ^ 32 + p.ncl[3].toNat * 2 ^ 28 +
      p.ncl[2].toNat * 2 ^ 24 + p.ncl[1].toNat * 2 ^ 20 + p.ncl[0].toNat * 2 ^ 16 + p.stk.toNat * 2 ^ 8) := by
    simp only [v, State.capsWord, hskw, n0, n1, n2, n3, p]
  have skw_iff : skw = true ↔ s.core.status.cv = true ∧ ∃ j, s.jobOf s.core.cid.toNat = some j ∧ j.skw = true := by
    rw [← hskw, Bool.and_eq_true, Option.any_eq_true]
  have num : v.toNat = bitOf skw * 2 ^ 63 + bitOf p.zmat * 2 ^ 62 + p.hbmg.toNat * 2 ^ 48 + p.lnkx.toNat * 2 ^ 43 + p.dies.toNat * 2 ^ 40 +
      (p.ncl[0].toNat + p.ncl[1].toNat + p.ncl[2].toNat + p.ncl[3].toNat) * 2 ^ 34 + p.var.toNat * 2 ^ 32 + p.ncl[3].toNat * 2 ^ 28 +
      p.ncl[2].toNat * 2 ^ 24 + p.ncl[1].toNat * 2 ^ 20 + p.ncl[0].toNat * 2 ^ 16 + p.stk.toNat * 2 ^ 8 := by
    rw [word, BitVec.toNat_ofNat]
    omega
  have nested : v.toNat = ((((((((((((bitOf skw * 2 ^ 1 + bitOf p.zmat) * 2 ^ 4 + 0) * 2 ^ 10 + p.hbmg.toNat) * 2 ^ 5 + p.lnkx.toNat) * 2 ^ 3 + p.dies.toNat) * 2 ^ 6 +
      (p.ncl[0].toNat + p.ncl[1].toNat + p.ncl[2].toNat + p.ncl[3].toNat)) * 2 ^ 2 + p.var.toNat) * 2 ^ 4 + p.ncl[3].toNat) * 2 ^ 4 + p.ncl[2].toNat) * 2 ^ 4 +
      p.ncl[1].toNat) * 2 ^ 4 + p.ncl[0].toNat) * 2 ^ 8 + p.stk.toNat) * 2 ^ 8 := by
    rw [num]
    ring
  have low : v.toNat % 2 ^ 8 = 0 := by rw [nested, Nat.mul_mod_left]
  have h8 := (congrArg (· / 2 ^ 8) nested).trans (Nat.mul_div_cancel _ (Nat.two_pow_pos 8))
  obtain ⟨stk, h16⟩ := div_step (m := 16) h8 bk rfl
  obtain ⟨ncl0, h20⟩ := div_step (m := 20) h16 b0 rfl
  obtain ⟨ncl1, h24⟩ := div_step (m := 24) h20 b1 rfl
  obtain ⟨ncl2, h28⟩ := div_step (m := 28) h24 b2 rfl
  obtain ⟨ncl3, h32⟩ := div_step (m := 32) h28 b3 rfl
  obtain ⟨var, h34⟩ := div_step (m := 34) h32 bv rfl
  obtain ⟨ncl, h40⟩ := div_step (m := 40) h34 bn rfl
  obtain ⟨dies, h43⟩ := div_step (m := 43) h40 bd rfl
  obtain ⟨lnkx, h48⟩ := div_step (m := 48) h43 bl rfl
  obtain ⟨hbmg, h58⟩ := div_step (m := 58) h48 bh rfl
  obtain ⟨zero, h62⟩ := div_step (m := 62) h58 (by decide) rfl
  obtain ⟨zmat, h63⟩ := div_step (m := 63) h62 (Nat.lt_succ_of_le bz) rfl
  have bit : ∀ i < 64, ∀ b, v.toNat / 2 ^ i % 2 = bitOf b → v.getLsbD i = b := fun i hi b h => by
    rw [← getLsbD_ofNat_digit hi h, BitVec.ofNat_toNat, BitVec.setWidth_eq]
  have bit62 : v.getLsbD 62 = p.zmat := bit 62 (by decide) _ zmat
  have bit63 : v.getLsbD 63 = skw := bit 63 (by decide) _ ((congrArg (· % 2) h63).trans (Nat.mod_eq_of_lt (Nat.lt_succ_of_le bs)))
  refine ⟨bit63 ▸ skw_iff, bit62, zero, hbmg, lnkx, dies, ncl, var, fun d => ?_, stk, low⟩
  fin_cases d
  · exact ncl0
  · exact ncl1
  · exact ncl2
  · exact ncl3

/-- `CR_FAB` as a number (R275). -/
theorem fabWord_fields (s : State) : let n := s.modul.torus; let v := s.fabWord
    1 ≤ n.1 → n.1 ≤ 16 → 1 ≤ n.2.1 → n.2.1 ≤ 16 → 1 ≤ n.2.2 → n.2.2 ≤ 16 → s.dieNumber s.core.id.die < 2 ^ 12 →
    v.toNat % 2 ^ 12 = s.dieNumber s.core.id.die ∧ v.toNat / 2 ^ 12 % 16 = n.1 - 1 ∧ v.toNat / 2 ^ 16 % 16 = n.2.1 - 1 ∧
      v.toNat / 2 ^ 20 % 2 ^ 12 = n.2.2 - 1 ∧
      (∀ j, s.core.status.cv = true → s.jobOf s.core.cid.toNat = some j → v.toNat / 2 ^ 32 = j.fjob.toNat) ∧
      (s.core.status.cv = false → v.toNat / 2 ^ 32 = 0) := by
  intro n v h1 h2 h3 h4 h5 h6 hd
  obtain ⟨fjob, hf⟩ : ∃ f, (if s.core.status.cv then ((s.jobOf s.core.cid.toNat).map (fun j => j.fjob.toNat)).getD 0 else 0) = f := ⟨_, rfl⟩
  have bf : fjob < 2 ^ 32 := by
    rw [← hf]
    split
    · cases s.jobOf s.core.cid.toNat with
      | none => decide
      | some j => exact j.fjob.isLt
    · decide
  have word : v = BitVec.ofNat 64 (fjob * 2 ^ 32 + (n.2.2 - 1) * 2 ^ 20 + (n.2.1 - 1) * 2 ^ 16 + (n.1 - 1) * 2 ^ 12 + s.dieNumber s.core.id.die) := by
    simp only [v, n, State.fabWord, hf]
  have num : v.toNat = fjob * 2 ^ 32 + (n.2.2 - 1) * 2 ^ 20 + (n.2.1 - 1) * 2 ^ 16 + (n.1 - 1) * 2 ^ 12 + s.dieNumber s.core.id.die := by
    rw [word, BitVec.toNat_ofNat]
    omega
  have high : v.toNat / 2 ^ 32 = fjob := by omega
  refine ⟨by omega, by omega, by omega, by omega, fun j hcv hj => ?_, fun hcv => ?_⟩
  · rw [high, ← hf, if_pos hcv, hj]
    rfl
  · rw [high, ← hf, hcv]
    rfl

/-! ## Reads -/

/-- A read of register n where the mode allows it. -/
theorem crr_reads {s : State} {d : Reg} {n : Nat} {v : Word} (hn : n < 128) (hv : s.crValue n = v) (h : s.core.status.mode = true ∨ n ≤ 0x0E) :
    exec (.crr { d := d, n := BitVec.ofNat 7 n }) s = .next (s.afterWrite d v) := by
  have num : (BitVec.ofNat 7 n).toNat = n := by
    rw [BitVec.toNat_ofNat]
    omega
  rw [execCrr_eq s _ (by rwa [num]), num, hv]

/-- A field of fewer bits, read as a word, is its number. -/
theorem setWidth_eq_ofNat {k : Nat} (x : BitVec k) : x.setWidth 64 = BitVec.ofNat 64 x.toNat := (BitVec.ofNat_toNat 64 x).symm

/-- R20, R141, R250, R275, R284, R372–R375, R387 as claimed. -/
theorem controlRegisterValues_holds : controlRegisterValues := by
  intro s d c reads
  have read : ∀ n < 128, ∀ v, s.crValue n = v → reads n v := fun n hn v hv h => crr_reads hn hv h
  refine ⟨read 0x02 (by decide) _ (setWidth_eq_ofNat _), read 0x03 (by decide) _ (setWidth_eq_ofNat _), read 0x04 (by decide) _ rfl,
    read 0x08 (by decide) _ (setWidth_eq_ofNat _), read 0x09 (by decide) _ (setWidth_eq_ofNat _), read 0x0A (by decide) _ (setWidth_eq_ofNat _),
    read 0x0B (by decide) _ (setWidth_eq_ofNat _), read 0x0C (by decide) _ rfl, read 0x0D (by decide) _ rfl, read 0x0E (by decide) _ rfl,
    read 0x11 (by decide) _ rfl, read 0x12 (by decide) _ rfl, read 0x13 (by decide) _ rfl, read 0x14 (by decide) _ rfl, read 0x15 (by decide) _ rfl,
    read 0x16 (by decide) _ rfl, read 0x17 (by decide) _ rfl, read 0x18 (by decide) _ rfl, ⟨_, read 0x10 (by decide) _ rfl, ?_⟩,
    ⟨_, read 0x00 (by decide) _ rfl, capsWord_fields s⟩, fun h1 h2 h3 h4 h5 h6 hd => ⟨_, read 0x01 (by decide) _ rfl, fabWord_fields s h1 h2 h3 h4 h5 h6 hd⟩,
    fun i => ⟨fun x hcv hx => read _ (by omega) _ ?_, fun hcv => read _ (by omega) _ ?_⟩⟩
  · exact fun i => (statusWord_getLsbD s.core i).trans rfl
  · rw [crValue_map, if_pos hcv, State.loadedMap, hx]
    rfl
  · rw [crValue_map, hcv]
    rfl

end Sys2Proof.Machine

namespace Sys2Proof
open Sys2Proof.Machine

/-- Settles O32, from what a write of a control register does and from what the registers read as. -/
theorem controlRegistersAndValues : Obligations.ControlRegistersAndValues :=
  ⟨controlRegisters_holds, controlRegisterValues_holds⟩

end Sys2Proof
end

section
/-! SUPPORT. Reading a core, a cluster or a die after an update of one of them, and after updates of several dies. -/

namespace Sys2Proof.Machine

/-! ## Lists keyed by number -/

/-- The entry that p picks is the changed one. -/
theorem find?_mapWhere_same {α : Type} (p : α → Bool) (f : α → α) (hf : ∀ a, p (f a) = p a) (l : List α) :
    (mapWhere p f l).find? p = (l.find? p).map f := by
  induction l with
  | nil => rfl
  | cons a l ih =>
    rw [mapWhere] at ih
    by_cases ha : p a = true <;> simp [mapWhere, ha, hf, ih]
/-- An entry that p does not pick is the one it was. -/
theorem find?_mapWhere_other {α : Type} (p q : α → Bool) (f : α → α) (hq : ∀ a, p a = true → q a = false ∧ q (f a) = false) (l : List α) :
    (mapWhere p f l).find? q = l.find? q := by
  induction l with
  | nil => rfl
  | cons a l ih =>
    rw [mapWhere] at ih
    by_cases ha : p a = true
    · simp [mapWhere, ha, hq a ha, ih]
    · simp [mapWhere, ha, ih, List.find?_cons]

/-! ## Dies -/

theorem dieAt_die (s : State) (d : Nat) : (s.dieAt d).die = d := by
  unfold State.dieAt
  split
  · assumption
  · cases h : s.parkedDies.find? (fun k => k.die = d) with
    | none => rfl
    | some k => simpa using List.find?_some h
/-- A die reads as what its update left. -/
theorem dieAt_updDie_same (s : State) (d : Nat) (f : Die → Die) (hf : ∀ k, (f k).die = k.die) :
    (s.updDie d f).dieAt d = f (s.dieAt d) := by
  unfold State.updDie State.dieAt
  by_cases h : s.die.die = d
  · simp [h, hf]
  · simp only [if_neg h]
    split
    · next hany =>
      rw [find?_mapWhere_same _ _ (by simp [hf])]
      obtain ⟨k, hk⟩ := Option.isSome_iff_exists.1 (List.find?_isSome.2 (List.any_eq_true.1 hany))
      simp [hk]
    · next hany =>
      rw [List.find?_cons_of_pos (by simp [hf, Die.reset]), List.find?_eq_none.2 (by simpa using hany)]
      rfl
/-- Another die reads as before. -/
theorem dieAt_updDie_other (s : State) {d e : Nat} (f : Die → Die) (hf : ∀ k, (f k).die = k.die) (h : e ≠ d) :
    (s.updDie d f).dieAt e = s.dieAt e := by
  unfold State.updDie State.dieAt
  by_cases h1 : s.die.die = d
  · have : s.die.die ≠ e := fun x => h (x.symm.trans h1)
    simp [h1, hf, Ne.symm h]
  · rw [if_neg h1]
    split <;> by_cases h2 : s.die.die = e
    · simp [h2]
    · simp only [if_neg h2]
      rw [find?_mapWhere_other]
      intro k hk
      have hk : k.die = d := of_decide_eq_true hk
      simp [hf, hk, Ne.symm h]
    · simp [h2]
    · simp only [if_neg h2]
      rw [List.find?_cons_of_neg (by simp [hf, Die.reset, Ne.symm h])]
theorem dieAt_updDie (s : State) (d e : Nat) (f : Die → Die) (hf : ∀ k, (f k).die = k.die) :
    (s.updDie d f).dieAt e = if e = d then f (s.dieAt e) else s.dieAt e := by
  split
  · next h => subst h; exact dieAt_updDie_same s e f hf
  · next h => exact dieAt_updDie_other s f hf h
/-- Updating each die of a list once. -/
theorem dieAt_foldl_updDie (f : Nat → Die → Die) (hf : ∀ d k, (f d k).die = k.die) (e : Nat) : ∀ (l : List Nat) (s : State), l.Nodup →
    (l.foldl (fun s d => s.updDie d (f d)) s).dieAt e = if e ∈ l then f e (s.dieAt e) else s.dieAt e
  | [], _, _ => rfl
  | d :: l, s, h => by
    obtain ⟨hd, hl⟩ := List.nodup_cons.1 h
    rw [List.foldl_cons, dieAt_foldl_updDie f hf e l _ hl, dieAt_updDie s d e _ (hf d)]
    by_cases he : e = d
    · subst he; simp [hd]
    · simp [he]

/-- The two states differ in their dies alone. -/
def OnlyDies (s t : State) : Prop := { t with die := s.die, parkedDies := s.parkedDies } = s

theorem OnlyDies.refl (s : State) : OnlyDies s s := rfl
theorem OnlyDies.trans {s t u : State} (h : OnlyDies s t) (h' : OnlyDies t u) : OnlyDies s u := by
  unfold OnlyDies at h h' ⊢
  rw [← h, ← h']
theorem onlyDies_updDie (s : State) (d : Nat) (f : Die → Die) : OnlyDies s (s.updDie d f) := by
  unfold OnlyDies State.updDie
  split
  · rfl
  · split <;> rfl
theorem onlyDies_foldl {α : Type} (g : State → α → State) (h : ∀ s a, OnlyDies s (g s a)) : ∀ (l : List α) (s : State), OnlyDies s (l.foldl g s)
  | [], s => .refl s
  | a :: l, s => (h s a).trans (onlyDies_foldl g h l (g s a))
theorem OnlyDies.modul {s t : State} (h : OnlyDies s t) : t.modul = s.modul := (congrArg State.modul h :)
theorem OnlyDies.host {s t : State} (h : OnlyDies s t) : t.host = s.host := (congrArg State.host h :)
theorem OnlyDies.boot {s t : State} (h : OnlyDies s t) : t.boot = s.boot := (congrArg State.boot h :)
theorem OnlyDies.core {s t : State} (h : OnlyDies s t) : t.core = s.core := (congrArg State.core h :)
theorem OnlyDies.parked {s t : State} (h : OnlyDies s t) : t.parked = s.parked := (congrArg State.parked h :)
theorem OnlyDies.coreAt {s t : State} (h : OnlyDies s t) (id : CoreId) : t.coreAt id = s.coreAt id := by
  rw [State.coreAt, h.core, h.parked, State.coreAt]
theorem OnlyDies.dies {s t : State} (h : OnlyDies s t) : t.dies = s.dies := by rw [State.dies, h.modul, State.dies]
theorem OnlyDies.sameBytes {s t : State} (h : OnlyDies s t) : SameBytes s t :=
  ⟨fun id _ => by rw [h.coreAt id], fun _ => by rw [h.modul], fun _ => by rw [h.host]⟩

/-! ## Cores and clusters -/

/-- A core reads as what its update left, another as before. -/
theorem coreAt_updCore (s : State) (id j : CoreId) (f : Core → Core) (hf : ∀ c, (f c).id = c.id) :
    (s.updCore id f).coreAt j = if j = id then f (s.coreAt j) else s.coreAt j := by
  unfold State.updCore State.coreAt
  by_cases h1 : s.core.id = id
  · by_cases hj : j = id
    · simp [h1, hf, hj]
    · simp [h1, hf, hj, Ne.symm hj]
  · rw [if_neg h1]
    split <;> by_cases hj : j = id
    · next hany =>
      subst hj
      obtain ⟨k, hk⟩ := Option.isSome_iff_exists.1 (List.find?_isSome.2 (List.any_eq_true.1 hany))
      simp only [if_neg h1]
      rw [find?_mapWhere_same _ _ (by simp [hf])]
      simp [hk]
    · simp only [if_neg hj]
      rw [find?_mapWhere_other]
      intro k hk
      have hk : k.id = id := of_decide_eq_true hk
      simp [hf, hk, Ne.symm hj]
    · next hany =>
      subst hj
      simp only [if_neg h1, if_true]
      rw [List.find?_cons_of_pos (by simp [hf, Core.reset]), List.find?_eq_none.2 (by simpa using hany)]
      rfl
    · simp only [if_neg hj]
      rw [List.find?_cons_of_neg (by simp [hf, Core.reset, Ne.symm hj])]
/-- An update of a cluster leaves the cores. -/
theorem coreAt_updCluster (s : State) (d c : Nat) (f : Cluster → Cluster) (id : CoreId) : (s.updCluster d c f).coreAt id = s.coreAt id := by
  have h := updCluster_frame s d c f
  rw [State.coreAt, updCluster_core, show (s.updCluster d c f).parked = s.parked from (congrArg State.parked h :), State.coreAt]

end Sys2Proof.Machine
end

section
/-! SUPPORT. O51: power, temperature, scrubbing, memory errors, keys, fuses and reports. -/

namespace Sys2Proof.Machine

/-! ## Results of units and the record -/

theorem isPresent_iff (r : UnitResult) : isPresent r = true ↔ r ≠ .fenced := by cases r <;> decide
theorem isReduced_iff (r : UnitResult) : isReduced r = true ↔ r = .pass1 := by cases r <;> decide
/-- R400, R401: a stored result that stands is taken over; otherwise the entry says how the trial went. -/
theorem decideUnit_recorded (old : List RecordEntry) (h : BitVec 128) (step unit : Nat) (r : UnitResult) :
    recordedAs old h step unit r (decideUnit old h step unit r) := by
  have tried : (entryOf h step unit r).step = step ∧ (entryOf h step unit r).unit = unit ∧ (entryOf h step unit r).hash = h ∧
      match r with
      | .pass0 => (entryOf h step unit r).meth = 0 ∧ (entryOf h step unit r).fails = 0 ∧ (entryOf h step unit r).out = 1
      | .pass1 => (entryOf h step unit r).meth = 1 ∧ (entryOf h step unit r).fails = 1 ∧ (entryOf h step unit r).out = 1
      | .fenced => (entryOf h step unit r).out = 3 ∧ (entryOf h step unit r).fails = (if step = 1 ∨ step = 4 then 1 else 2) := by
    cases r
    · exact ⟨rfl, rfl, rfl, rfl, rfl, rfl⟩
    · exact ⟨rfl, rfl, rfl, rfl, rfl, rfl⟩
    · exact ⟨rfl, rfl, rfl, rfl, by simp [entryOf, oneMethod]⟩
  unfold decideUnit
  refine ⟨fun o ho hk => ?_, fun hn => ?_⟩
  · rw [ho]
    exact if_pos hk
  · split
    · next o ho => rwa [if_neg (hn o ho)]
    · exact tried

/-! ## Power -/

theorem wentDark_dark (s : State) : wentDark s s.dark :=
  ⟨rfl, rfl, rfl, rfl, rfl, rfl, rfl, rfl, rfl, rfl, rfl, rfl, rfl, rfl, coreAt_reset, rfl⟩
/-- Without power and without an agenda nothing comes about. -/
theorem step_unpowered {s : State} (hp : s.boot.powered = false) (he : s.sched.events = []) : step s = .fault .unpowered := by
  simp [step, darkMove, hp, he]
/-- After a failed start a request of the host is counted and nothing else happens (R409). -/
theorem step_unserved {s : State} {e : Instr} {rest : List Instr} (hp : s.boot.powered = true) (hf : s.boot.failed ≠ none)
    (he : s.sched.events = e :: rest) (hr : hostRequest e = true) :
    step s = .next (State.ticked { s with
      sched := { s.sched with events := rest }, host := { s.host with unsupported := s.host.unsupported + 1 } }) := by
  simp [step, failedMove, State.unserved, hp, he, hr, Option.isSome_iff_ne_none.2 hf]

/-! ## Thermal control -/

theorem setThermal_gustFree (k : Die) (level free : Nat) :
    (k.setThermal level free).gustFree.length = Die.tokens { k with thermal := level } - k.gustHeld := by
  have hlen (n want : Nat) : min want n + (want - n) = want := by omega
  simp only [Die.setThermal, List.length_append, List.length_take, List.length_map, List.length_range]
  exact hlen _ _
/-- The level that a die is set to, its change counted, and the tokens that then may circulate (R402, R404). -/
theorem thermalTo_level (s : State) (d level : Nat) : let k := s.dieAt d; let t := s.thermalTo d level
    (t.dieAt d).thermal = level ∧ (t.dieAt d).holdCount = k.holdCount + 1 ∧ (t.dieAt d).gustG = k.gustG ∧
      (t.dieAt d).gustFree.length = Die.tokens { k with thermal := level } - k.gustHeld ∧ ∀ id, t.coreAt id = s.coreAt id := by
  have hd : (s.thermalTo d level).dieAt d = (s.dieAt d).setThermal level s.modul.free :=
    dieAt_updDie_same s d _ (fun _ => rfl)
  refine ⟨by rw [hd]; rfl, by rw [hd]; rfl, by rw [hd]; rfl, by rw [hd, setThermal_gustFree], ?_⟩
  exact (onlyDies_updDie s d _).coreAt

/-! ## Scrubbing -/

/-- The counter of a stack stops at its greatest value. -/
theorem satInc_toNat (v : BitVec 32) : (satInc v).toNat = min (v.toNat + 1) (2 ^ 32 - 1) := by
  unfold satInc
  split
  · next h => subst h; decide
  · next h =>
    have hne : v.toNat ≠ 2 ^ 32 - 1 := fun e => h (BitVec.eq_of_toNat_eq (by simpa using e))
    rw [BitVec.toNat_add, Nat.mod_eq_of_lt (by have := v.isLt; simp; omega)]
    have := v.isLt
    simp
    omega
/-- What `spoilFirmware` leaves: only saves of jobs and backing copies in clusters change. -/
structure Spoiled (s t : State) : Prop where
  dieAt : ∀ d, t.dieAt d = s.dieAt d
  coreAt : ∀ id, t.coreAt id = s.coreAt id
  modul : { t.modul with jobs := s.modul.jobs } = s.modul
  host : t.host = s.host
theorem Spoiled.refl (s : State) : Spoiled s s := ⟨fun _ => rfl, fun _ => rfl, rfl, rfl⟩
theorem Spoiled.updCluster {s t : State} (h : Spoiled s t) (d c : Nat) (f : Cluster → Cluster) : Spoiled s (t.updCluster d c f) := by
  have e := updCluster_frame t d c f
  have hdie : (t.updCluster d c f).die = t.die := (congrArg State.die e :)
  have hparked : (t.updCluster d c f).parkedDies = t.parkedDies := (congrArg State.parkedDies e :)
  have hmodul : (t.updCluster d c f).modul = t.modul := (congrArg State.modul e :)
  have hhost : (t.updCluster d c f).host = t.host := (congrArg State.host e :)
  refine ⟨fun n => ?_, fun id => (coreAt_updCluster t d c f id).trans (h.coreAt id), by rw [hmodul]; exact h.modul, hhost.trans h.host⟩
  rw [← h.dieAt n, State.dieAt, hdie, hparked, State.dieAt]
theorem Spoiled.foldl {α : Type} {s : State} (g : State → α → State) (hg : ∀ t a, Spoiled s t → Spoiled s (g t a)) :
    ∀ (l : List α) (t : State), Spoiled s t → Spoiled s (l.foldl g t)
  | [], _, h => h
  | a :: l, t, h => Spoiled.foldl g hg l _ (hg t a h)
theorem spoilFirmware_spoiled (s : State) (unit : Nat) : Spoiled s (s.spoilFirmware unit) := by
  unfold State.spoilFirmware
  split
  · exact .refl s
  · refine Spoiled.foldl _ (fun t k h => h.updCluster _ _ _) _ _ ?_
    exact ⟨fun _ => rfl, fun _ => rfl, rfl, rfl⟩
theorem Spoiled.sameBytes {s t : State} (h : Spoiled s t) : SameBytes s t :=
  ⟨fun id _ => by rw [h.coreAt id], fun _ => by rw [← show t.modul.hbm = s.modul.hbm from (congrArg Modul.hbm h.modul :)], fun _ => by rw [h.host]⟩
theorem SameBytes.trans {s t u : State} (h : SameBytes s t) (h' : SameBytes t u) : SameBytes s u := by
  obtain ⟨hc, hb, hm⟩ := h
  obtain ⟨hc', hb', hm'⟩ := h'
  exact ⟨fun id a => (hc' id a).trans (hc id a), fun a => (hb' a).trans (hb a), fun a => (hm' a).trans (hm a)⟩

/-- A corrected error is counted and changes nothing else. -/
theorem patrolScrub_corrected {s : State} {unit : Nat} (h : unit % 2 ^ 32 / 32768 < s.pagesOf (unit / 2 ^ 32)) :
    let d := unit / 2 ^ 32
    let i := s.stackOf d unit
    let k := s.dieAt d
    ∃ t, exec (.patrolScrub unit .corrected) s = .next t ∧ ((t.dieAt d).corrected[i]).toNat = min (k.corrected[i].toNat + 1) (2 ^ 32 - 1) ∧
      t.modul = s.modul ∧ SameBytes s t := by
  intro d i k
  have hex : exec (.patrolScrub unit .corrected) s = .next (s.updDie d (fun k => { k with corrected := k.corrected.set i (satInc k.corrected[i]) })) := by
    simp only [exec, execPatrolScrub, if_neg (not_le.2 h)]
    rfl
  refine ⟨_, hex, ?_, (onlyDies_updDie s d _).modul, (onlyDies_updDie s d _).sameBytes⟩
  rw [dieAt_updDie_same s d _ (by exact fun _ => rfl)]
  simp [satInc_toNat, k]
/-- An uncorrectable one is counted, marks its unit and is reported with its address. -/
theorem patrolScrub_uncorrectable {s : State} {unit : Nat} (h : unit % 2 ^ 32 / 32768 < s.pagesOf (unit / 2 ^ 32)) :
    let d := unit / 2 ^ 32
    let i := s.stackOf d unit
    let k := s.dieAt d
    ∃ t, exec (.patrolScrub unit .uncorrectable) s = .next t ∧ ((t.dieAt d).uncorrected[i]).toNat = min (k.uncorrected[i].toNat + 1) (2 ^ 32 - 1) ∧
      t.modul.reports = s.modul.reports ++ [.uncorrectable (64 * unit)] ∧ cget t.modul.hbmPoison unit = 1 ∧
      (∀ u, u ≠ unit → cget t.modul.hbmPoison u = cget s.modul.hbmPoison u) ∧ t.host.aer = s.host.aer ++ [.uncorrectableInternal] ∧ SameBytes s t := by
  intro d i k
  let s1 := s.updDie d (fun k => { k with uncorrected := k.uncorrected.set i (satInc k.uncorrected[i]) })
  let s2 := { s1 with
    modul := { s1.modul with hbmPoison := cset s1.modul.hbmPoison unit 1, reports := s1.modul.reports ++ [MgmtReport.uncorrectable (64 * unit)] }
    host := { s1.host with aer := s1.host.aer ++ [AerError.uncorrectableInternal] } }
  have hex : exec (.patrolScrub unit .uncorrectable) s = .next (s2.spoilFirmware unit) := by
    simp only [exec, execPatrolScrub, if_neg (not_le.2 h)]
    rfl
  have h1 : OnlyDies s s1 := onlyDies_updDie s d _
  have hsp : Spoiled s2 (s2.spoilFirmware unit) := spoilFirmware_spoiled s2 unit
  have hreports : (s2.spoilFirmware unit).modul.reports = s2.modul.reports := (congrArg Modul.reports hsp.modul :)
  have hpoison : (s2.spoilFirmware unit).modul.hbmPoison = cset s1.modul.hbmPoison unit 1 := (congrArg Modul.hbmPoison hsp.modul :)
  have h12 : SameBytes s1 s2 := ⟨fun _ _ => rfl, fun _ => rfl, fun _ => rfl⟩
  refine ⟨_, hex, ?_, by rw [hreports, ← h1.modul], ?_, fun u hu => ?_, ?_, (h1.sameBytes.trans h12).trans hsp.sameBytes⟩
  · rw [hsp.dieAt, show s2.dieAt d = s1.dieAt d from rfl, dieAt_updDie_same s d _ (by exact fun _ => rfl)]
    simp [satInc_toNat, k]
  · rw [hpoison, cget_cset, if_pos rfl]
  · rw [hpoison, cget_cset, if_neg hu, h1.modul]
  · rw [hsp.host, ← h1.host]

/-! ## Memory errors -/

theorem slot_setSlot (k : Cluster) {n : Nat} (hn : n < 32) (v : Slot) (m : Nat) : (k.setSlot n v).slot m = if m = n then v else k.slot m := by
  unfold Cluster.setSlot Cluster.slot
  by_cases hm : m < 32
  · simp [List.getD_eq_getElem?_getD, hm]
  · simp [List.getD_eq_getElem?_getD, hm, show m ≠ n from fun e => hm (e ▸ hn)]
theorem tile_setTile (k : Cluster) {n : Nat} (hn : n < 48) (v : AccTile) (m : Nat) : (k.setTile n v).tile m = if m = n then v else k.tile m := by
  unfold Cluster.setTile Cluster.tile
  by_cases hm : m < 48
  · simp [List.getD_eq_getElem?_getD, hm]
  · simp [List.getD_eq_getElem?_getD, hm, show m ≠ n from fun e => hm (e ▸ hn)]
/-- A turn of the cells lets the next error come about. -/
theorem step_cells {s : State} {u : Upset} {rest : List Upset} (hp : s.boot.powered = true) (hf : s.boot.failed = none) (ht : s.sched.turn = .cells)
    (hu : s.sched.upsets = u :: rest) : step s = .next (({ s with sched := { s.sched with upsets := rest } }).upset u).ticked := by
  simp [step, move, State.nextUpset, hp, hf, ht, hu]

theorem updCore_frame (s : State) (id : CoreId) (f : Core → Core) : { s.updCore id f with core := s.core, parked := s.parked } = s := by
  unfold State.updCore
  split
  · rfl
  · split <;> rfl
/-- An update of a core leaves the clusters. -/
theorem updCore_keeps (s : State) (id : CoreId) (f : Core → Core) :
    (s.updCore id f).sched = s.sched ∧ (s.updCore id f).modul = s.modul ∧ (s.updCore id f).host = s.host :=
  have e := updCore_frame s id f
  ⟨(congrArg State.sched e :), (congrArg State.modul e :), (congrArg State.host e :)⟩
theorem updCluster_keeps (s : State) (d c : Nat) (f : Cluster → Cluster) :
    (s.updCluster d c f).sched = s.sched ∧ (s.updCluster d c f).modul = s.modul ∧ (s.updCluster d c f).host = s.host :=
  have e := updCluster_frame s d c f
  ⟨(congrArg State.sched e :), (congrArg State.modul e :), (congrArg State.host e :)⟩
/-- A mark in a scratchpad changes no byte. -/
theorem sameBytes_updCore (s : State) (id : CoreId) (f : Core → Core) (hid : ∀ c, (f c).id = c.id) (hf : ∀ c, (f c).spad = c.spad) :
    SameBytes s (s.updCore id f) := by
  obtain ⟨-, hm, hh⟩ := updCore_keeps s id f
  refine ⟨fun j a => ?_, fun _ => by rw [hm], fun _ => by rw [hh]⟩
  rw [coreAt_updCore s id j f hid]
  split
  · rw [hf]
  · rfl
theorem sameBytes_updCluster (s : State) (d c : Nat) (f : Cluster → Cluster) : SameBytes s (s.updCluster d c f) := by
  obtain ⟨-, hm, hh⟩ := updCluster_keeps s d c f
  exact ⟨fun j _ => by rw [coreAt_updCluster], fun _ => by rw [hm], fun _ => by rw [hh]⟩
/-- An error sets marks: no byte and nothing of the schedule changes. -/
theorem upset_keeps (s : State) (u : Upset) : (s.upset u).sched = s.sched ∧ SameBytes s (s.upset u) := by
  have same : SameBytes s s := ⟨fun _ _ => rfl, fun _ => rfl, fun _ => rfl⟩
  have told : SameBytes s { s with host := { s.host with aer := s.host.aer ++ [.uncorrectableInternal] } } := same
  cases u with
  | spad id n =>
    unfold State.upset
    dsimp only
    split
    · exact ⟨(updCore_keeps _ _ _).1, told.trans (sameBytes_updCore _ _ _ (fun _ => rfl) (fun _ => rfl))⟩
    · exact ⟨rfl, same⟩
  | slot d c n i =>
    unfold State.upset
    dsimp only
    split
    · exact ⟨(updCluster_keeps _ _ _ _).1, told.trans (sameBytes_updCluster _ _ _ _)⟩
    · exact ⟨rfl, same⟩
  | tile d c n i =>
    unfold State.upset
    dsimp only
    split
    · exact ⟨(updCluster_keeps _ _ _ _).1, told.trans (sameBytes_updCluster _ _ _ _)⟩
    · exact ⟨rfl, same⟩
/-- R95: the mark is that of the struck unit of the scratchpad, and no other. -/
theorem upset_spad {s : State} {id : CoreId} {n : Nat} (hid : id ∈ s.coreIds) (hn : n < 65536) (j : CoreId) (m : Nat) :
    cget ((s.upset (.spad id n)).coreAt j).poison m = if j = id ∧ m = n then 1 else cget (s.coreAt j).poison m := by
  have hin : (s.coreIds.contains id && decide (64 * n < Config.spadBytes)) = true := by
    simp only [List.contains_iff_mem.2 hid, Bool.true_and]
    exact decide_eq_true (show 64 * n < 4194304 by omega)
  rw [State.upset]
  simp only [hin, if_true]
  rw [coreAt_updCore _ id j _ (by exact fun _ => rfl)]
  by_cases hj : j = id
  · subst hj
    simp only [if_true, true_and]
    exact cget_cset _ _ _ _
  · simp only [hj, false_and, if_false]
    rfl
@[simp] theorem setSlot_place (k : Cluster) (n : Nat) (v : Slot) : (k.setSlot n v).die = k.die ∧ (k.setSlot n v).clu = k.clu := by
  simp only [Cluster.setSlot, and_self]
@[simp] theorem setTile_place (k : Cluster) (n : Nat) (v : AccTile) : (k.setTile n v).die = k.die ∧ (k.setTile n v).clu = k.clu := by
  simp only [Cluster.setTile, and_self]
/-- R201: the mark is that of the struck unit of the slot, and no other of its cluster. -/
theorem upset_slot {s : State} {d c n i : Nat} (hn : n < 32) (hi : i < 2048) (hc : c < s.ncl d) (m j : Nat) :
    cget (((s.upset (.slot d c n i)).clusterAt d c).slot m).errors j = if m = n ∧ j = i then 1 else cget ((s.clusterAt d c).slot m).errors j := by
  have hin : (decide (n < 32) && decide (64 * i < Config.slotBytes) && decide (c < s.ncl d)) = true := by
    rw [decide_eq_true hn, decide_eq_true hc, decide_eq_true (show 64 * i < Config.slotBytes from (by omega : 64 * i < 131072))]
    rfl
  rw [State.upset]
  simp only [hin, if_true]
  rw [clusterAt_updCluster _ d c _ (fun k => setSlot_place k n _), slot_setSlot _ hn]
  by_cases hm : m = n
  · subst hm
    simp only [if_true, true_and]
    exact cget_cset _ _ _ _
  · simp only [hm, false_and, if_false]
    rfl
/-- The same for a tile. -/
theorem upset_tile {s : State} {d c n i : Nat} (hn : n < 48) (hi : i < 4096) (hc : c < s.ncl d) (m j : Nat) :
    cget (((s.upset (.tile d c n i)).clusterAt d c).tile m).poison j = if m = n ∧ j = i then 1 else cget ((s.clusterAt d c).tile m).poison j := by
  have hin : (decide (n < 48) && decide (64 * i < Config.tileBytes) && decide (c < s.ncl d)) = true := by
    rw [decide_eq_true hn, decide_eq_true hc, decide_eq_true (show 64 * i < Config.tileBytes from (by omega : 64 * i < 262144))]
    rfl
  rw [State.upset]
  simp only [hin, if_true]
  rw [clusterAt_updCluster _ d c _ (fun k => setTile_place k n _), tile_setTile _ hn]
  by_cases hm : m = n
  · subst hm
    simp only [if_true, true_and]
    exact cget_cset _ _ _ _
  · simp only [hm, false_and, if_false]
    rfl
/-- The turn of the cells (log 65). -/
theorem memoryErrors_hold : memoryErrors := by
  intro s u rest hp hf ht hu
  have hstep := step_cells hp hf ht hu
  let s' : State := { s with sched := { s.sched with upsets := rest } }
  obtain ⟨hsched, hbytes⟩ := upset_keeps s' u
  refine ⟨(s'.upset u).ticked, hstep, ?_, hbytes, ?_⟩
  · exact (congrArg Sched.upsets hsched :)
  · cases u with
    | spad id n => exact fun hid hn j m => upset_spad (s := s') hid hn j m
    | slot d c n i => exact fun hn hi hc m j => upset_slot (s := s') hn hi hc m j
    | tile d c n i => exact fun hn hi hc m j => upset_tile (s := s') hn hi hc m j

/-! ## Keys and fuses -/

/-- A key that is delivered is on every die, in its slot alone. -/
theorem keyDelivery_loads {s : State} {ct : List Byte} {ctx : Nat} {w pair : BitVec 512} {tag : BitVec 128}
    (hu : unwrapKey s.boot.starts ct ctx w tag = some pair) (hc : ctx < 128) (hn : s.slotNamed ctx = false) :
    ∃ t, exec (.keyDelivery ct ctx w tag) s = .next t ∧ SameBytes s t ∧ t.boot = s.boot ∧
      ∀ d < s.dies, ∀ n, cget (t.dieAt d).keys n = if n = ctx then pair else cget (s.dieAt d).keys n := by
  let load : Nat → Die → Die := fun _ k => { k with keys := cset k.keys ctx pair }
  have hex : exec (.keyDelivery ct ctx w tag) s = .next ((List.range s.dies).foldl (fun s d => s.updDie d (load d)) s) := by
    have : ¬ (128 ≤ ctx ∨ s.slotNamed ctx = true) := by simp [hn, hc]
    simp only [exec, execKeyDelivery, hu]
    exact if_neg this
  have hd : OnlyDies s ((List.range s.dies).foldl (fun s d => s.updDie d (load d)) s) :=
    onlyDies_foldl _ (fun s d => onlyDies_updDie s d _) _ s
  refine ⟨_, hex, hd.sameBytes, hd.boot, fun d hlt n => ?_⟩
  rw [dieAt_foldl_updDie load (fun _ _ => rfl) d _ s List.nodup_range, if_pos (List.mem_range.2 hlt)]
  exact cget_cset _ _ _ _
/-- A wrap that fails, or a slot that a locked lease names, changes nothing. -/
theorem keyDelivery_refused {s : State} {ct : List Byte} {ctx : Nat} {w : BitVec 512} {tag : BitVec 128}
    (h : unwrapKey s.boot.starts ct ctx w tag = none ∨ s.slotNamed ctx = true) : exec (.keyDelivery ct ctx w tag) s = .next s := by
  simp only [exec, execKeyDelivery]
  split
  · next pair hu =>
    have : s.slotNamed ctx = true := h.resolve_left (by simp [hu])
    exact if_pos (.inr this)
  · rfl
theorem blown_get (fuses : Vector Nat 4) (n v : Nat) (i : Fin 4) : (blown fuses n v)[i] = if i.val < n then max fuses[i] v else fuses[i] := by
  simp [blown]

/-! ## The report (R407) -/

theorem numBytes_length (n v : Nat) : (numBytes n v).length = n := by simp [numBytes]
theorem fixedBytes_length (n : Nat) (l : List Byte) : (fixedBytes n l).length = n := by simp [fixedBytes]
/-- A part of a list stands behind the parts before it. -/
theorem field_flatten {α : Type} (z : List α) : ∀ (ps : List (List α)) (i : Nat) {p : List α}, ps[i]? = some p →
    ((ps.flatten ++ z).drop ((ps.map List.length).take i).sum).take p.length = p
  | [], _, _, h => by simp at h
  | q :: ps, 0, p, h => by
    have : q = p := by simpa using h
    simp [this]
  | q :: ps, i + 1, p, h => by
    simp only [List.flatten_cons, List.append_assoc, List.map_cons, List.take_succ_cons, List.sum_cons, List.drop_length_add_append]
    exact field_flatten z ps i (by simpa using h)
/-- The parts of a report, one by one. -/
def State.reportParts (s : State) (nonce : BitVec 256) : List (List Byte) :=
  [numBytes 8 1, numBytes 32 nonce.toNat, numBytes 8 (s.capsWord.toNat % 2 ^ 63), numBytes 4 s.boot.counter, numBytes 4 s.boot.version] ++
  ((List.range 7).map (fun i => numBytes 64 (s.boot.images.getD i 0).toNat) ++
  [numBytes 64 (Config.shake256 ((s.boot.inForce.map RecordHalf.bytes).getD [])).toNat, numBytes 8 s.boot.generation,
    fixedBytes 1184 (Config.mlkemPublic s.boot.starts), List.replicate 832 0])
/-- Their lengths. -/
def reportLengths : List Nat := [8, 32, 8, 4, 4, 64, 64, 64, 64, 64, 64, 64, 64, 8, 1184, 832]
theorem reportParts_flatten (s : State) (nonce : BitVec 256) : (s.reportParts nonce).flatten = s.reportBody nonce := by
  simp only [State.reportParts, State.reportBody, List.flatMap_def, List.flatten_append, List.flatten_cons, List.flatten_nil, List.append_assoc,
    List.append_nil]
theorem reportParts_lengths (s : State) (nonce : BitVec 256) : (s.reportParts nonce).map List.length = reportLengths := by
  have images : ((List.range 7).map (fun i => numBytes 64 (s.boot.images.getD i 0).toNat)).map List.length = List.replicate 7 64 := by
    simp [numBytes_length, Function.comp_def]
  rw [State.reportParts, List.map_append, List.map_append, images]
  simp only [List.map_cons, List.map_nil, numBytes_length, fixedBytes_length, List.length_replicate]
  rfl
theorem reportBody_length (s : State) (nonce : BitVec 256) : (s.reportBody nonce).length = 0xA20 := by
  rw [← reportParts_flatten, List.length_flatten, reportParts_lengths]
  rfl
/-- Part i of a report stands at the sum of the lengths before it, whatever signature follows. -/
theorem reportField (s : State) (nonce : BitVec 256) (z p : List Byte) (i off n : Nat) (hp : (s.reportParts nonce)[i]? = some p)
    (ho : (reportLengths.take i).sum = off) (hn : p.length = n) : ((s.reportBody nonce ++ z).drop off).take n = p := by
  have h := field_flatten z _ i hp
  rwa [reportParts_flatten, reportParts_lengths, ho, hn] at h
/-- The measurement of image i. -/
theorem reportParts_image (s : State) (nonce : BitVec 256) {i : Nat} (hi : i < 7) :
    (s.reportParts nonce)[5 + i]? = some (numBytes 64 (s.boot.images.getD i 0).toNat) := by
  rw [State.reportParts, List.getElem?_append_right (Nat.le_add_right 5 i), List.getElem?_append_left (by simpa using hi)]
  simp [hi]
/-- What the 7 measurements' places are. -/
theorem imageOffset {i : Nat} (hi : i < 7) : (reportLengths.take (5 + i)).sum = 0x38 + 64 * i := by
  revert i
  decide
/-- R407: each field of a report stands at its offset, and the signature is over all of them. -/
theorem attestationRequest_report (s : State) (nonce : BitVec 256) : ∃ r, exec (.attestationRequest nonce) s = .next { s with boot := { s.boot with report := r } } ∧
    let field := fun (off n : Nat) => (r.drop off).take n
    r.length = 0xA20 + 3309 ∧ field 0 8 = numBytes 8 1 ∧ field 8 32 = numBytes 32 nonce.toNat ∧ field 0x28 8 = numBytes 8 (s.capsWord.toNat % 2 ^ 63) ∧
    field 0x30 4 = numBytes 4 s.boot.counter ∧ field 0x34 4 = numBytes 4 s.boot.version ∧
    (∀ i < 7, field (0x38 + 64 * i) 64 = numBytes 64 (s.boot.images.getD i 0).toNat) ∧ field 0x238 8 = numBytes 8 s.boot.generation ∧
    (∀ h, s.boot.inForce = some h → field 0x1F8 64 = numBytes 64 (Config.shake256 h.bytes).toNat) ∧ field 0x240 1184 = fixedBytes 1184 (Config.mlkemPublic s.boot.starts) ∧
    field 0x6E0 832 = List.replicate 832 0 ∧
    r.drop 0xA20 = fixedBytes 3309 (Config.mldsaSign identitySeed (r.take 0xA20) (stringBytes "Zalit attest")) := by
  have field := reportField s nonce (fixedBytes 3309 (Config.mldsaSign identitySeed (s.reportBody nonce) (stringBytes "Zalit attest")))
  refine ⟨_, rfl, ?_, field _ 0 0 8 rfl rfl (numBytes_length _ _), field _ 1 8 32 rfl rfl (numBytes_length _ _), field _ 2 0x28 8 rfl rfl (numBytes_length _ _),
    field _ 3 0x30 4 rfl rfl (numBytes_length _ _), field _ 4 0x34 4 rfl rfl (numBytes_length _ _), fun i hi => ?_,
    field _ 13 0x238 8 rfl rfl (numBytes_length _ _), fun h hh => ?_, field _ 14 0x240 1184 rfl rfl (fixedBytes_length _ _), field _ 15 0x6E0 832 rfl rfl List.length_replicate, ?_⟩
  · rw [List.length_append, reportBody_length, fixedBytes_length]
  · exact field _ (5 + i) _ 64 (reportParts_image s nonce hi) (imageOffset hi) (numBytes_length _ _)
  · refine field _ 12 0x1F8 64 ?_ rfl (numBytes_length _ _)
    rw [State.reportParts, hh]
    rfl
  · rw [List.drop_left' (reportBody_length s nonce), List.take_left' (reportBody_length s nonce)]

/-! ## Verified boot (R397) -/

theorem copyVerifies_iff (c : ImageCopy) (r : Nat) : copyVerifies c r = true ↔ verified r c := by
  rw [copyVerifies, Bool.and_eq_true, Bool.and_eq_true, beq_iff_eq, and_assoc]
  exact and_congr_right fun _ => and_congr_right fun _ => decide_eq_true_iff
theorem runs_iff (b : Bringup) (r n : Nat) (c : ImageCopy) : runs b r n c ↔ runningImage b r n = some c := by
  unfold runs runningImage
  rw [Option.bind_eq_some_iff]
  refine exists_congr fun p => and_congr_right fun _ => ?_
  rw [pickCopy, ← copyVerifies_iff, ← copyVerifies_iff, eq_comm (a := c), eq_comm (a := c)]
  by_cases h1 : copyVerifies p.1 r = true
  · simp [h1]
  · by_cases h2 : copyVerifies p.2 r = true <;> simp [h1, h2]
/-- The lowest image without a copy that runs is the one that fails. -/
theorem failedImage_some {b : Bringup} {r n : Nat} (hn : n < 7) (hc : ∀ c, ¬ runs b r n c) (hm : ∀ m < n, ∃ c, runs b r m c) :
    failedImage b r = some n := by
  unfold failedImage
  rw [List.find?_range_eq_some]
  refine ⟨?_, List.mem_range.2 hn, fun m h => ?_⟩
  · rw [Option.isNone_iff_eq_none]
    exact Option.eq_none_iff_forall_ne_some.2 fun c e => hc c ((runs_iff b r n c).2 e)
  · obtain ⟨c, h⟩ := hm m h
    rw [(runs_iff b r m c).1 h]
    rfl
theorem failedImage_none {b : Bringup} {r : Nat} (h : ∀ n < 7, ∃ c, runs b r n c) : failedImage b r = none := by
  refine List.find?_eq_none.2 fun n hn => ?_
  obtain ⟨c, hc⟩ := h n (List.mem_range.1 hn)
  simp [(runs_iff b r n c).1 hc]
/-- A filter that drops nothing keeps places. -/
theorem getElem?_filterMap_of_some {α β : Type} (g : α → Option β) : ∀ (l : List α), (∀ a ∈ l, ∃ b, g a = some b) → ∀ n : Nat, (l.filterMap g)[n]? = (l[n]?).bind g
  | [], _, n => by simp
  | a :: l, h, n => by
    obtain ⟨b, hb⟩ := h a (by simp)
    rw [List.filterMap_cons_some hb]
    cases n with
    | zero => simp [hb]
    | succ n =>
      rw [List.getElem?_cons_succ, List.getElem?_cons_succ]
      exact getElem?_filterMap_of_some g l (fun x hx => h x (by simp [hx])) n
/-- The least of a list is no greater than any of it. -/
theorem foldl_min_le_of_mem : ∀ (l : List Nat) (v x : Nat), x = v ∨ x ∈ l → l.foldl min v ≤ x
  | [], v, x, h => by simpa using (h.resolve_right (by simp)).ge
  | a :: l, v, x, h => by
    rw [List.foldl_cons]
    obtain rfl | h := h
    · exact (foldl_min_le_of_mem l (min x a) _ (.inl rfl)).trans (min_le_left _ _)
    obtain rfl | h := List.mem_cons.1 h
    · exact (foldl_min_le_of_mem l (min v x) _ (.inl rfl)).trans (min_le_right _ _)
    · exact foldl_min_le_of_mem l (min v a) x (.inr h)
theorem versionOf_le {b : Bringup} {r n : Nat} {c : ImageCopy} (hn : n < 7) (h : runs b r n c) : versionOf b r ≤ versionIn c := by
  have hm : versionIn c ∈ (runningImages b r).map versionIn :=
    List.mem_map.2 ⟨c, List.mem_filterMap.2 ⟨n, List.mem_range.2 hn, (runs_iff b r n c).1 h⟩, rfl⟩
  unfold versionOf
  revert hm
  cases (runningImages b r).map versionIn with
  | nil => intro hm; cases hm
  | cons v rest => exact fun hm => foldl_min_le_of_mem rest v _ (List.mem_cons.1 hm)
theorem measuresOf_get {b : Bringup} {r n : Nat} {c : ImageCopy} (hall : ∀ n < 7, ∃ c, runs b r n c) (hn : n < 7) (h : runs b r n c) :
    (measuresOf b r)[n]? = some (Config.shake256 c.bytes) := by
  rw [measuresOf, List.getElem?_map, runningImages, getElem?_filterMap_of_some]
  · rw [List.getElem?_range hn, Option.bind_some, (runs_iff b r n c).1 h]
    rfl
  · exact fun m hm => (hall m (List.mem_range.1 hm)).imp fun c hc => (runs_iff b r m c).1 hc
/-- What runs after a start whose images all run: the measurements, and a version between the fuses and each image's. -/
theorem on_images (t : Boot) (b : Bringup) (f : Option BootFailure) (hall : ∀ n < 7, ∃ c, runs b t.rollback n c) : ∀ n < 7, ∀ c, runs b t.rollback n c →
    (t.on b f).images[n]? = some (Config.shake256 c.bytes) ∧ t.rollback ≤ (t.on b f).version ∧ (t.on b f).version ≤ Config.imageVersion c.bytes := by
  intro n hn c hc
  have hf := failedImage_none hall
  have hi : (t.on b f).images = measuresOf b t.rollback := by simp [Boot.on, hf]
  have hv : (t.on b f).version = versionOf b t.rollback := by simp [Boot.on, hf]
  rw [hi, hv]
  exact ⟨measuresOf_get hall hn hc, versionOf_ge hf, versionOf_le hn hc⟩

/-! ## The record (R399) -/

/-- The record just written is the one in force, with the next generation. -/
theorem writeRecord_inForce (t : Boot) (es : List RecordEntry) :
    (t.writeRecord es).inForce = some { gen := t.generation + 1, entries := es, valid := true } := by
  unfold Boot.writeRecord Boot.generation Boot.inForce
  dsimp only
  by_cases h : (t.half0.valid && (!t.half1.valid || decide (t.half1.gen ≤ t.half0.gen))) = true
  · simp [h]
  · simp only [h]
    by_cases h1 : t.half1.valid = true <;> simp [h1]
/-- The half in force stays. -/
theorem writeRecord_half0 {t : Boot} (es : List RecordEntry) (hv : t.half0.valid = true) (h : t.inForce = some t.half0) :
    (t.writeRecord es).half0 = t.half0 := by
  unfold Boot.writeRecord
  split
  · rfl
  · next hn =>
    unfold Boot.inForce at h
    rw [if_neg hn] at h
    exfalso
    split at h
    · have e := Option.some.inj h
      rw [e] at hn
      simp [hv] at hn
    · cases h
theorem recorded_half0 {t : Boot} (es : List RecordEntry) (lanes) (sh) (hv : t.half0.valid = true) (h : t.inForce = some t.half0) :
    (t.recorded es lanes sh).half0 = t.half0 := writeRecord_half0 es hv h
theorem recorded_inForce (t : Boot) (es : List RecordEntry) (lanes) (sh) :
    (t.recorded es lanes sh).inForce = some { gen := t.generation + 1, entries := es, valid := true } := writeRecord_inForce t es

/-! ## What a staged start finds (R398) -/

/-- The thermal and detector settings of every die are as before. -/
def SameSettings (s t : State) : Prop := ∀ d, (t.dieAt d).dt = (s.dieAt d).dt ∧ (t.dieAt d).gustG = (s.dieAt d).gustG
theorem SameSettings.trans {s t u : State} (h : SameSettings s t) (h' : SameSettings t u) : SameSettings s u :=
  fun d => ⟨(h' d).1.trans (h d).1, (h' d).2.trans (h d).2⟩
theorem sameSettings_updDie (s : State) (d : Nat) (f : Die → Die) (hf : ∀ k, (f k).die = k.die ∧ (f k).dt = k.dt ∧ (f k).gustG = k.gustG) :
    SameSettings s (s.updDie d f) := by
  intro e
  rw [dieAt_updDie s d e f (fun k => (hf k).1)]
  split
  · exact (hf _).2
  · exact ⟨rfl, rfl⟩
theorem sameSettings_foldl {α : Type} (g : State → α → State) (h : ∀ s a, SameSettings s (g s a)) : ∀ (l : List α) (s : State), SameSettings s (l.foldl g s)
  | [], _ => fun _ => ⟨rfl, rfl⟩
  | a :: l, s => (h s a).trans (sameSettings_foldl g h l (g s a))
theorem setDir_settings (k : Die) (p : LinkDir) (l : Link) : (k.setDir p l).die = k.die ∧ (k.setDir p l).dt = k.dt ∧ (k.setDir p l).gustG = k.gustG := by
  unfold Die.setDir
  split <;> exact ⟨rfl, rfl, rfl⟩
/-- A link that goes DOWN changes dies alone, and none of those settings. -/
theorem linkDown_settings (s : State) (d : Nat) (p : Port) : OnlyDies s (s.linkDown d p) ∧ SameSettings s (s.linkDown d p) := by
  unfold State.linkDown
  dsimp only
  constructor
  · refine .trans ?_ (onlyDies_foldl _ (fun s e => onlyDies_updDie s e _) _ _)
    split <;> exact (onlyDies_updDie s d _).trans (onlyDies_updDie _ _ _)
  · refine .trans ?_ (sameSettings_foldl _ ?_ _ _)
    case refine_2 => exact fun s e => sameSettings_updDie s e _ fun _ => ⟨rfl, rfl, rfl⟩
    split <;> exact (sameSettings_updDie s d _ fun _ => setDir_settings _ _ _).trans (sameSettings_updDie _ _ _ fun _ => setDir_settings _ _ _)
theorem startLinks_settings (s : State) (es : List RecordEntry) : OnlyDies s (s.startLinks es) ∧ SameSettings s (s.startLinks es) := by
  unfold State.startLinks
  refine ⟨.trans (onlyDies_foldl _ ?_ _ s) (onlyDies_foldl _ ?_ _ _), .trans (sameSettings_foldl _ ?_ _ s) (sameSettings_foldl _ ?_ _ _)⟩
  · exact fun s x => (linkDown_settings s x.1 x.2).1
  · exact fun s d => onlyDies_updDie s d _
  · exact fun s x => (linkDown_settings s x.1 x.2).2
  · exact fun s d => sameSettings_updDie s d _ fun _ => ⟨rfl, rfl, rfl⟩
/-- A staged start gives the module what it found, and each die its detector time and G. -/
theorem started_found (s : State) (b : Bringup) (es : List RecordEntry) (lanes : List (Nat × List Nat)) (sh : (Nat × Nat × Nat) × (Nat × Nat × Nat)) :
    let t := s.started b es lanes sh
    t.modul.caps = capsOf b.variant es ∧ (t.modul.torus, t.modul.origin) = sh ∧ t.modul.jobs = s.modul.jobs ∧ t.host.up = isPresent (resultOf es 5 0) ∧
      ∀ d < variantDies b.variant, (t.dieAt d).dt = detectorTime b.threshold ∧ (t.dieAt d).gustG = gustOf b.platform es d := by
  intro t
  let s1 : State := { s with
    modul := { s.modul with
      caps := capsOf b.variant es, torus := sh.1, origin := sh.2, free := s.modul.free + 200
      physical := (List.range (variantDies b.variant)).map (presentClusters es) }
    host := { s.host with up := isPresent (resultOf es 5 0), width := if isReduced (resultOf es 5 0) then 8 else 16 } }
  let s2 := (List.range (variantDies b.variant)).foldl (fun u d => u.updDie d (fun k => k.start b es lanes s.modul.free)) s1
  obtain ⟨hlinks, hset⟩ : OnlyDies s2 t ∧ SameSettings s2 t := startLinks_settings s2 es
  have hdies : OnlyDies s1 t := (onlyDies_foldl _ (fun s d => onlyDies_updDie s d _) _ s1).trans hlinks
  refine ⟨by rw [hdies.modul], by rw [hdies.modul], by rw [hdies.modul], by rw [hdies.host], fun d hd => ?_⟩
  have hstart : s2.dieAt d = (s1.dieAt d).start b es lanes s.modul.free := by
    rw [dieAt_foldl_updDie (fun _ k => k.start b es lanes s.modul.free) (fun _ _ => rfl) d _ s1 List.nodup_range, if_pos (List.mem_range.2 hd)]
  obtain ⟨hdt, hg⟩ := hset d
  rw [hdt, hg, hstart]
  exact ⟨rfl, congrArg (gustOf b.platform es) (dieAt_die s1 d)⟩
/-- Repeating a step where a condition holds is repeating it as often as the condition holds. -/
theorem foldl_if_iterate {α β : Type} (p : β → Bool) (h : α → α) : ∀ (l : List β) (g : α), l.foldl (fun g c => if p c then h g else g) g = h^[(l.filter p).length] g
  | [], _ => rfl
  | c :: l, g => by
    by_cases hc : p c = true
    · rw [List.foldl_cons, if_pos hc, List.filter_cons_of_pos hc, List.length_cons, Function.iterate_succ_apply]
      exact foldl_if_iterate p h l (h g)
    · rw [List.foldl_cons, if_neg hc, List.filter_cons_of_neg hc]
      exact foldl_if_iterate p h l g
/-- G is halved for each cluster that passed under method 1 (R398, R402). -/
theorem gustOf_iterate (p : Platform) (es : List RecordEntry) (d : Nat) : gustOf p es d =
    (fun g => max 1 (g / 2))^[((List.range 12).filter (fun c => resultOf es 6 (4096 * d + c) = .pass1)).length] (max 1 (min 12 (p.gustG.getD 4))) := by
  have same : (fun c => isReduced (resultOf es 6 (4096 * d + c))) = fun c => decide (resultOf es 6 (4096 * d + c) = .pass1) :=
    funext fun c => Bool.eq_iff_iff.2 ((isReduced_iff _).trans decide_eq_true_iff.symm)
  rw [← same]
  exact foldl_if_iterate (fun c => isReduced (resultOf es 6 (4096 * d + c))) (fun g => max 1 (g / 2)) _ _
/-- `CR_CAPS` counts the clusters that are present on each die. -/
theorem capsOf_ncl (v : BitVec 2) (es : List RecordEntry) {d : Nat} (hd : d < 4) : ((capsOf v es).ncl.toList.getD d 0).toNat =
    if d < variantDies v then ((List.range 12).filter (fun c => resultOf es 6 (4096 * d + c) ≠ .fenced)).length else 0 := by
  have same : (fun c => isPresent (resultOf es 6 (4096 * d + c))) = fun c => decide (resultOf es 6 (4096 * d + c) ≠ .fenced) :=
    funext fun c => Bool.eq_iff_iff.2 ((isPresent_iff _).trans decide_eq_true_iff.symm)
  have few : ((List.range 12).filter (fun c => decide (resultOf es 6 (4096 * d + c) ≠ .fenced))).length < 2 ^ 4 :=
    lt_of_le_of_lt (List.length_filter_le _ _) (by decide)
  have at_d : (capsOf v es).ncl.toList.getD d 0 = if d < variantDies v then BitVec.ofNat 4 (presentClusters es d).length else 0 := by
    simp [capsOf, List.getD_eq_getElem?_getD, hd]
  rw [at_d]
  split
  · rw [presentClusters, same, BitVec.toNat_ofNat, Nat.mod_eq_of_lt few]
  · rfl
theorem capsOf_dies (v : BitVec 2) (es : List RecordEntry) : (capsOf v es).dies.toNat = variantDies v := by
  have : (capsOf v es).dies = BitVec.ofNat 3 (variantDies v) := rfl
  rw [this, variantDies]
  split <;> rfl
/-- The torus is the stored one where step 4's stored result stands, else what cable discovery found; none when the step failed. -/
theorem shapeResult_eq (b : Bringup) (kept : (Nat × Nat × Nat) × (Nat × Nat × Nat)) (stored es : List RecordEntry) (e : RecordEntry)
    (he : es.find? (fun x => x.step = 4 && x.unit = 0) = some e) : shapeResult b kept stored es =
    if e.out = 3 then ((1, 1, 1), (0, 0, 0)) else if e ∈ stored then kept else (b.shape.getD (1, 1, 1), b.origin) := by
  have hout : isPresent e.result = !decide (e.out = 3) := by
    unfold RecordEntry.result
    split
    · next h => simp [h, isPresent]
    · next h => split <;> simp [h, isPresent]
  unfold shapeResult
  rw [he]
  simp [hout]

/-! ## A start (R397–R402, R409) -/

/-- The entries of a start. -/
def State.startEntries (s : State) (b : Bringup) : List RecordEntry := bringupEntries b ((measuresOf b s.boot.rollback).headD 0) s.boot.stored
/-- The state with power on, before its units are brought up. -/
def State.switchedOn (s : State) (b : Bringup) (f : Option BootFailure) : State :=
  { s with boot := s.boot.on b f, sched := { s.sched with now := 0 } }
/-- The training results and the torus of a start. -/
def State.startLanes (s : State) (b : Bringup) : List (Nat × List Nat) :=
  allLanes s.boot.trained s.boot.stored (s.startEntries b) (variantDies b.variant) s.modul.free
def State.startShape (s : State) (b : Bringup) : (Nat × Nat × Nat) × (Nat × Nat × Nat) :=
  shapeResult b s.boot.shape s.boot.stored (s.startEntries b)
/-- The module that a start whose step 1 passed has brought up, before the record. -/
def State.broughtUp (s : State) (b : Bringup) (f : Option BootFailure) : State :=
  (s.switchedOn b f).started b (s.startEntries b) (s.startLanes b) (s.startShape b)

/-- The module with its record written. -/
def State.recordedUp (s : State) (b : Bringup) : State :=
  { s.broughtUp b none with boot := (s.boot.on b none).recorded (s.startEntries b) (s.startLanes b) (s.startShape b) }

/-- The four ways of POWER_ON, as the model branches. -/
theorem exec_powerOn {s : State} (b : Bringup) (hp : s.boot.powered = false) : exec (.powerOn b) s =
    match failedImage b s.boot.rollback with
    | some n => .next (s.switchedOn b (some (.image n)))
    | none =>
      if !(List.range 7).all (fun i => isPresent (resultOf (s.startEntries b) 1 i)) then .next (s.switchedOn b (some .step1))
      else .next (if b.recordOk then { s.broughtUp b none with boot := (s.broughtUp b none).boot.recorded (s.startEntries b) (s.startLanes b) (s.startShape b) }
        else s.broughtUp b (some .record)) := by
  simp only [exec, execPowerOn, hp]
  cases failedImage b s.boot.rollback with
  | some n => rfl
  | none => cases b.recordOk <;> rfl
theorem step1_failed {es : List RecordEntry} (h : ∃ i < 7, resultOf es 1 i = .fenced) : (!(List.range 7).all (fun i => isPresent (resultOf es 1 i))) = true := by
  obtain ⟨i, hi, he⟩ := h
  rw [Bool.not_eq_true', List.all_eq_false]
  exact ⟨i, List.mem_range.2 hi, by rw [he]; decide⟩
theorem step1_passed {es : List RecordEntry} (h : ∀ i < 7, resultOf es 1 i ≠ .fenced) : (!(List.range 7).all (fun i => isPresent (resultOf es 1 i))) = false := by
  rw [Bool.not_eq_false', List.all_eq_true]
  exact fun i hi => (isPresent_iff _).2 (h i (List.mem_range.1 hi))
/-- What a failed start leaves. -/
theorem startFails_switchedOn (s : State) (b : Bringup) (f : BootFailure) : startFails s f (s.switchedOn b (some f)) := ⟨rfl, rfl, rfl, rfl, rfl, rfl⟩
theorem broughtUp_boot (s : State) (b : Bringup) (f : Option BootFailure) : (s.broughtUp b f).boot = s.boot.on b f := started_boot _ b _ _ _
theorem readBar0_image {t : State} {n : Nat} (hp : t.boot.powered = true) (hf : t.boot.failed = some (.image n)) (fn off : Nat) :
    t.readBar0 fn off = if fn = 0 then some 0 else none := by
  simp [State.readBar0, hp, hf]
theorem readBar0_failed {t : State} {f : BootFailure} (hp : t.boot.powered = true) (hf : t.boot.failed = some f) (hn : ∀ n, f ≠ .image n) (fn off : Nat) :
    t.readBar0 fn off = none := by
  cases f with
  | image n => exact absurd rfl (hn n)
  | step1 => simp [State.readBar0, hp, hf]
  | record => simp [State.readBar0, hp, hf]

section
variable {s : State} {b : Bringup} (hp : s.boot.powered = false)
include hp

/-- An image with no copy that runs stops the start with that cause (R397). -/
theorem powerOn_image {n : Nat} (hn : n < 7) (hc : ∀ c, ¬ runs b s.boot.rollback n c) (hm : ∀ m < n, ∃ c, runs b s.boot.rollback m c) :
    ∃ t, exec (.powerOn b) s = .next t ∧ startFails s (.image n) t ∧ t.boot.images = s.boot.images ∧
      ∀ fn off, t.readBar0 fn off = if fn = 0 then some 0 else none := by
  have hex := exec_powerOn b hp
  have hf := failedImage_some hn hc hm
  rw [hf] at hex
  exact ⟨_, hex, startFails_switchedOn s b _, if_pos (by rw [hf]; rfl), readBar0_image rfl rfl⟩
variable (hall : ∀ n < 7, ∃ c, runs b s.boot.rollback n c)
include hall
/-- A failed step 1 stops it too. -/
theorem powerOn_step1 (h1 : ∃ i < 7, resultOf (s.startEntries b) 1 i = .fenced) :
    ∃ t, exec (.powerOn b) s = .next t ∧ startFails s .step1 t ∧
      (∀ n < 7, ∀ c, runs b s.boot.rollback n c → t.boot.images[n]? = some (Config.shake256 c.bytes) ∧ s.boot.rollback ≤ t.boot.version ∧
        t.boot.version ≤ Config.imageVersion c.bytes) ∧
      ∀ fn off, t.readBar0 fn off = none := by
  have hex := exec_powerOn b hp
  simp only [failedImage_none hall, step1_failed h1, if_true] at hex
  exact ⟨_, hex, startFails_switchedOn s b _, on_images s.boot b _ hall, readBar0_failed rfl rfl (by simp)⟩
/-- So does a record that cannot be written; the one in force stays (R399). -/
theorem powerOn_record (h1 : ∀ i < 7, resultOf (s.startEntries b) 1 i ≠ .fenced) (hrec : b.recordOk = false) :
    ∃ t, exec (.powerOn b) s = .next t ∧ t.boot.failed = some .record ∧ t.boot.stored = s.boot.stored ∧ ∀ fn off, t.readBar0 fn off = none := by
  have hex := exec_powerOn b hp
  simp only [failedImage_none hall, step1_passed h1, hrec] at hex
  have hboot := broughtUp_boot s b (some .record)
  have hpow : (s.broughtUp b (some .record)).boot.powered = true := by rw [hboot]; rfl
  have hfail : (s.broughtUp b (some .record)).boot.failed = some .record := by rw [hboot]; rfl
  have hstored : (s.broughtUp b (some .record)).boot.stored = s.boot.stored := by rw [hboot]; rfl
  exact ⟨_, hex, hfail, hstored, readBar0_failed hpow hfail (by simp)⟩
/-- Otherwise the module runs, with the boot state recorded. -/
theorem powerOn_runs (h1 : ∀ i < 7, resultOf (s.startEntries b) 1 i ≠ .fenced) (hrec : b.recordOk = true) :
    exec (.powerOn b) s = .next (s.recordedUp b) := by
  have hex := exec_powerOn b hp
  simp only [failedImage_none hall, step1_passed h1, hrec] at hex
  rw [broughtUp_boot] at hex
  exact hex
end

/-- What the boot state is after a start that succeeds. -/
theorem recorded_on (t : Boot) (b : Bringup) (es : List RecordEntry) (lanes : List (Nat × List Nat)) (sh : (Nat × Nat × Nat) × (Nat × Nat × Nat)) :
    let u := (t.on b none).recorded es lanes sh
    u.powered = true ∧ u.failed = none ∧ u.images = (t.on b none).images ∧ u.version = (t.on b none).version ∧ u.starts = t.starts + 1 ∧ u.fuses = t.fuses ∧
      u.counter = t.rollback ∧ u.shape = sh := by
  unfold Boot.recorded Boot.writeRecord
  dsimp only
  split <;> exact ⟨rfl, rfl, rfl, rfl, rfl, rfl, rfl, rfl⟩
theorem recorded_stored (t : Boot) (b : Bringup) (es : List RecordEntry) (lanes : List (Nat × List Nat)) (sh : (Nat × Nat × Nat) × (Nat × Nat × Nat)) :
    let u := (t.on b none).recorded es lanes sh
    u.stored = es ∧ u.generation = t.generation + 1 := by
  intro u
  have h : u.inForce = some { gen := t.generation + 1, entries := es, valid := true } := recorded_inForce _ es lanes sh
  exact ⟨by rw [Boot.stored, h]; rfl, by rw [Boot.generation, h]; rfl⟩
theorem isPresent_eq_false (r : UnitResult) : isPresent r = false ↔ r = .fenced := by cases r <;> decide

/-- R397–R402: a start, whichever way it goes. -/
theorem powerComes_hold : powerComes := by
  intro s b hp
  refine ⟨fun n => powerOn_image hp, fun hall => ⟨powerOn_step1 hp hall, fun h1 hrec => ?_, powerOn_record hp hall⟩⟩
  obtain ⟨hpow, hfail, himages, hversion, hstarts, hfuses, hcounter, hshape⟩ := recorded_on s.boot b (s.startEntries b) (s.startLanes b) (s.startShape b)
  obtain ⟨hstored, hgen⟩ := recorded_stored s.boot b (s.startEntries b) (s.startLanes b) (s.startShape b)
  obtain ⟨hcaps, htorus, hjobs, hup, hdie⟩ := started_found (s.switchedOn b none) b (s.startEntries b) (s.startLanes b) (s.startShape b)
  refine ⟨s.recordedUp b, powerOn_runs hp hall h1 hrec, hpow, hfail, ?_, hstarts, hfuses, hcounter, hstored, hgen, fun hv hi => recorded_half0 (t := s.boot.on b none) _ _ _ hv hi,
    hshape.trans htorus.symm, fun e he => hshape.trans (shapeResult_eq b _ _ _ e he), ?_, congrArg Caps.var hcaps, hjobs, fun d hd => ?_, fun d hd => ?_, ?_⟩
  · intro n hn c hc
    obtain ⟨hi, hv⟩ := on_images s.boot b none hall n hn c hc
    exact ⟨(congrArg (fun l : List (BitVec 512) => l[n]?) himages).trans hi, hversion ▸ hv⟩
  · exact (congrArg (fun c : Caps => c.dies.toNat) hcaps).trans (capsOf_dies _ _)
  · exact (congrArg (fun c : Caps => (c.ncl.toList.getD d 0).toNat) hcaps).trans (capsOf_ncl _ _ hd)
  · exact ⟨(hdie d hd).1, (hdie d hd).2.trans (gustOf_iterate _ _ _)⟩
  · exact (isPresent_eq_false _).symm.trans (Eq.congr_left hup).symm

/-! ## The statements together -/

theorem powerLoss_exec {s : State} (h : s.boot.powered = true) : exec .powerLoss s = .next s.dark := if_pos h
theorem moduleReset_exec {s : State} (h : s.boot.powered = true) : exec .moduleReset s = .next s.dark := if_pos h
theorem thermalShutdown_exec {s : State} {d : Nat} (hd : d < s.dies) (h : s.boot.powered = true) : exec (.thermalShutdown d) s = .next s.dark := if_pos ⟨hd, h⟩
theorem thermalHold_exec {s : State} {d : Nat} (hd : d < s.dies) (h : (s.dieAt d).thermal = 0) : exec (.thermalHold d) s = .next (s.thermalTo d 1) := if_pos ⟨hd, h⟩
theorem thermalSingleToken_exec {s : State} {d : Nat} (hd : d < s.dies) (h : (s.dieAt d).thermal < 2) :
    exec (.thermalSingleToken d) s = .next (s.thermalTo d 2) := if_pos ⟨hd, h⟩
theorem exitFromHold_exec {s : State} {d n : Nat} (hd : d < s.dies) (h : (s.dieAt d).thermal = n + 1) : exec (.exitFromHold d) s = .next (s.thermalTo d n) := by
  have hx : exec (.exitFromHold d) s = .next (s.thermalTo d ((s.dieAt d).thermal - 1)) := if_pos ⟨hd, by rw [h]; exact Nat.succ_ne_zero n⟩
  rwa [h] at hx

theorem powerAndBringup_hold : powerAndBringup := by
  refine ⟨powerComes_hold, memoryErrors_hold, decideUnit_recorded, fun s hp => ⟨⟨_, powerLoss_exec hp, wentDark_dark s⟩, ⟨_, moduleReset_exec hp, wentDark_dark s⟩,
    fun d hd => ⟨_, thermalShutdown_exec hd hp, wentDark_dark s⟩⟩, fun s => step_unpowered, fun s e rest hp hf he hr => ⟨_, step_unserved hp hf he hr, rfl, rfl, rfl, rfl⟩,
    fun s n hf => ?_, fun s d hd => ⟨fun h => ⟨_, thermalHold_exec hd h, thermalTo_level s d 1⟩, fun h => ⟨_, thermalSingleToken_exec hd h, thermalTo_level s d 2⟩,
      fun h => ⟨_, exitFromHold_exec hd h, thermalTo_level s d 0⟩, fun h => ⟨_, exitFromHold_exec hd h, thermalTo_level s d 1⟩⟩,
    fun s unit h => ⟨?_, patrolScrub_corrected h, patrolScrub_uncorrectable h⟩⟩
  · show s.boot.failed.bind BootFailure.imageNo = some n
    rw [hf]
    rfl
  · exact if_neg (not_le.2 h)

/-- A wrap whose tag holds, with two different keys, yields its pair; any other yields none. -/
theorem unwrapKey_eq (start : Nat) (ct : List Byte) (ctx : Nat) (w : BitVec 512) (tag : BitVec 128) :
    let k := Config.mlkemDecaps start ct
    let pair := Config.kmac256 k (numBytes 1 ctx) 512 (stringBytes "Zalit key") ^^^ w
    let good := (Config.kmac256 k (numBytes 1 ctx ++ numBytes 64 w.toNat) 128 (stringBytes "Zalit key tag")).setWidth 128 = tag ∧
      pair.setWidth 256 ≠ (pair >>> 256).setWidth 256
    (good → unwrapKey start ct ctx w tag = some pair) ∧ (¬ good → unwrapKey start ct ctx w tag = none) :=
  ⟨fun h => if_pos h, fun h => if_neg h⟩
theorem keysAndAttestation_hold : keysAndAttestation := by
  refine ⟨fun s ct ctx w tag => ?_, fun s v => ⟨fun h h64 => ?_, fun h => ?_⟩, attestationRequest_report⟩
  · obtain ⟨hgood, hbad⟩ := unwrapKey_eq s.boot.starts ct ctx w tag
    exact ⟨fun h hc hn => keyDelivery_loads (hgood h) hc hn, fun h => keyDelivery_refused (h.imp_left hbad)⟩
  · exact ⟨_, if_pos ⟨h, h64⟩, blown_get s.boot.fuses s.dies v⟩
  · exact if_neg fun ⟨h1, h2⟩ => h.elim (not_lt.2 h1) (not_lt.2 h2)

end Sys2Proof.Machine

namespace Sys2Proof
open Sys2Proof.Machine

/-- Settles O51, from one lemma per clause: a start goes as `exec_powerOn` branches, an update of a die is read through `dieAt_updDie`,
and a report's fields stand at the sums of the lengths before them. -/
theorem powerKeysAndAttestation : Obligations.PowerKeysAndAttestation := ⟨powerAndBringup_hold, keysAndAttestation_hold⟩

end Sys2Proof
end

section
/-! SUPPORT. O58. Where the acting core stands, and what it means that an outcome, a check or a fold keeps it. A step of another core is made by acting as it and
back, which finds the place again from the core's number alone: so a place is kept only where it is the core's own. -/

namespace Sys2Proof.Machine

/-- Where the acting core stands: its number, its cluster's and its die's. -/
structure Seat where
  core : CoreId
  die : Nat
  clu : Nat
  own : Nat
/-- The place of a state's acting core. -/
def State.seat (s : State) : Seat := ⟨s.core.id, s.cluster.die, s.cluster.clu, s.die.die⟩
/-- The place that a core's number names. -/
def Seat.of (id : CoreId) : Seat := ⟨id, id.die, id.clu, id.die⟩
/-- A place is the core's own. -/
def Seat.ok (x : Seat) : Prop := x = Seat.of x.core
theorem placed_iff (s : State) : s.placed ↔ s.seat.ok := by
  simp only [Seat.ok, State.seat, Seat.of, Seat.mk.injEq, true_and]
  rfl
/-- An outcome that is a next state has that place. -/
structure SeatOut (x : Seat) (o : Out) : Prop where
  h : ∀ t, o = .next t → t.seat = x
theorem SeatOut.of_eq {x y : Seat} {o : Out} (h : SeatOut y o) (e : y = x) : SeatOut x o := e ▸ h
@[simp] theorem seatOut_next (x t) : SeatOut x (.next t) ↔ t.seat = x := ⟨fun h => h.1 t rfl, fun h => ⟨fun _ e => by cases e; exact h⟩⟩
@[simp] theorem seatOut_absent (x e) : SeatOut x (absent e) := ⟨fun _ e => by simp [absent] at e⟩
@[simp] theorem seatOut_refused (x e) : SeatOut x (.refused e) := ⟨fun _ e => by simp at e⟩
@[simp] theorem seatOut_fault (x e) : SeatOut x (.fault e) := ⟨fun _ e => by simp at e⟩
@[simp] theorem seatOut_ite (x) (p : Prop) [Decidable p] (a b) : SeatOut x (if p then a else b) ↔ (p → SeatOut x a) ∧ (¬ p → SeatOut x b) := by
  split <;> simp [*]
/-- A property of what a sequence of checks comes to is one of what the first comes to. -/
@[simp] theorem resAll_bind_iff {α β} (P : β → Prop) (r : Res α) (f : α → Res β) : ResAll P (r.bind f) ↔ ResAll (fun a => ResAll P (f a)) r := by
  cases r <;> simp [Res.bind]
@[simp] theorem resAll_true {α} (r : Res α) : ResAll (fun _ => True) r := ⟨fun _ _ => trivial⟩
@[simp] theorem resAll_ite {α} (P : α → Prop) (p : Prop) [Decidable p] (a b : Res α) :
    ResAll P (if p then a else b) ↔ (p → ResAll P a) ∧ (¬ p → ResAll P b) := by
  split <;> simp [*]
@[simp] theorem seat_ite (p : Prop) [Decidable p] (a b : State) : (if p then a else b).seat = if p then a.seat else b.seat := apply_ite State.seat p a b
@[simp] theorem seat_mk (c p k pk d pd m h b sc) : (State.mk c p k pk d pd m h b sc).seat = ⟨c.id, k.die, k.clu, d.die⟩ := (rfl)
@[simp] theorem seat_fold (s : State) : Seat.mk s.core.id s.cluster.die s.cluster.clu s.die.die = s.seat := (rfl)
@[simp] theorem seat_of_ok (id : CoreId) : (Seat.of id).ok := (rfl)
/-- With the core in its own place, the place is what its number names. -/
theorem seat_of_core {s : State} (hs : s.seat.ok) : Seat.of s.core.id = s.seat := hs.symm
theorem seat_ok_of_eq {s t : State} (h : t.seat = s.seat) (hs : s.seat.ok) : t.seat.ok := h ▸ hs
theorem foldl_seat {α} {l : List α} {g : State → α → State} (h : ∀ s a, s.seat.ok → (g s a).seat = s.seat) {s : State} (hs : s.seat.ok) :
    (l.foldl g s).seat = s.seat := by
  induction l generalizing s with
  | nil => rfl
  | cons a l ih => rw [List.foldl_cons, ih ((h s a hs).symm ▸ hs), h s a hs]
/-- The same for a fold that keeps some place the core's own. -/
theorem foldl_ok {α} {l : List α} {g : State → α → State} (h : ∀ s a, s.seat.ok → (g s a).seat.ok) {s : State} (hs : s.seat.ok) :
    (l.foldl g s).seat.ok := by
  induction l generalizing s with
  | nil => exact hs
  | cons a l ih => exact ih (h s a hs)
/-- The same for a fold that keeps every place. -/
theorem foldl_seat_any {α} {l : List α} {g : State → α → State} (h : ∀ s a, (g s a).seat = s.seat) {s : State} : (l.foldl g s).seat = s.seat := by
  induction l generalizing s with
  | nil => rfl
  | cons a l ih => rw [List.foldl_cons, ih, h]
/-- The same for a fold that carries something beside the state. -/
theorem foldl_seat_fst {α β} {g : State × β → α → State × β} (h : ∀ x a, (g x a).1.seat = x.1.seat) (l : List α) (x : State × β) :
    (l.foldl g x).1.seat = x.1.seat := by
  induction l generalizing x with
  | nil => rfl
  | cons a l ih => rw [List.foldl_cons, ih, h]
/-- The first of a pair that is taken apart. -/
theorem seat_fst {α} {p : State × α} {t : State} {r : α} {x : Seat} (h : p = (t, r)) (hp : p.1.seat = x) : t.seat = x := by
  rw [h] at hp
  exact hp
/-- The state that the end of an atomic carries has that place. -/
def AtomEnd.seated (x : Seat) : AtomEnd → Prop
  | .done t => t.seat = x
  | .waits t => t.seat = x
/-- The same for a post. -/
def Posted.seated (x : Seat) : Posted → Prop
  | .admitted t => t.seat = x
  | .full => True
/-- The same for a vector word. -/
def VRes.seated (x : Seat) : VRes → Prop
  | .done u _ _ => u.seat = x
  | .hold u => u.seat = x
  | .fault _ => True
@[simp] theorem seated_done (x t) : AtomEnd.seated x (.done t) = (t.seat = x) := rfl
@[simp] theorem seated_waits (x t) : AtomEnd.seated x (.waits t) = (t.seat = x) := rfl
@[simp] theorem seated_admitted (x t) : Posted.seated x (.admitted t) = (t.seat = x) := rfl
@[simp] theorem seated_full (x) : Posted.seated x .full = True := rfl
@[simp] theorem seated_vdone (x u d f) : VRes.seated x (.done u d f) = (u.seat = x) := rfl
@[simp] theorem seated_vhold (x u) : VRes.seated x (.hold u) = (u.seat = x) := rfl
@[simp] theorem seated_vfault (x f) : VRes.seated x (.fault f) = True := rfl

/-! ## Reaching another core, cluster or die -/

/-- An update keeps the place when it keeps the number of the core that it reaches. -/
@[simp] theorem updCore_seat (s) (id) (f) (h : s.core.id = id → (f s.core).id = s.core.id) : (State.updCore s id f).seat = s.seat := by
  unfold State.updCore
  split
  · next e => simp [h e]
  · split <;> rfl
@[simp] theorem updCluster_seat (s) (d) (c) (f) (h : (f s.cluster).die = s.cluster.die ∧ (f s.cluster).clu = s.cluster.clu) :
    (State.updCluster s d c f).seat = s.seat := by
  unfold State.updCluster
  split
  · simp [h]
  · split <;> rfl
@[simp] theorem updDie_seat (s) (d) (f) (h : (f s.die).die = s.die.die) : (State.updDie s d f).seat = s.seat := by
  unfold State.updDie
  split
  · simp [h]
  · split <;> rfl
theorem coreAt_id (s : State) (id : CoreId) : (s.coreAt id).id = id := by
  unfold State.coreAt
  split
  · assumption
  · cases h : s.parked.find? (fun c => c.id = id) with
    | none => rfl
    | some c => simpa using List.find?_some h
theorem clusterAt_place (s : State) (d c : Nat) : (s.clusterAt d c).die = d ∧ (s.clusterAt d c).clu = c := by
  unfold State.clusterAt
  split
  · assumption
  · cases h : s.parkedClusters.find? (fun k => k.die = d && k.clu = c) with
    | none => exact ⟨rfl, rfl⟩
    | some k => simpa using List.find?_some h
/-- Acting as a core puts it in its own place. -/
@[simp] theorem actAs_seat (s) (id) (hs : s.seat.ok) : (State.actAs s id).seat = Seat.of id := by
  unfold State.actAs
  split
  · next e => exact e ▸ (seat_of_core hs).symm
  · simp [Seat.of, coreAt_id, clusterAt_place, dieAt_die]

end Sys2Proof.Machine
end
section
/-! SUPPORT. O58: the functions on a core, a cluster or a die keep its number. -/

namespace Sys2Proof.Machine

@[simp] theorem ite_core_id (p : Prop) [Decidable p] (a b : Core) : (if p then a else b).id = if p then a.id else b.id := apply_ite Core.id p a b
@[simp] theorem ite_die (p : Prop) [Decidable p] (a b : Die) : (if p then a else b).die = if p then a.die else b.die := apply_ite Die.die p a b
@[simp] theorem ite_cluster (p : Prop) [Decidable p] (a b : Cluster) :
    (if p then a else b).die = (if p then a.die else b.die) ∧ (if p then a else b).clu = if p then a.clu else b.clu :=
  ⟨apply_ite Cluster.die p a b, apply_ite Cluster.clu p a b⟩
theorem foldl_place {α} (l : List α) (g : Cluster → α → Cluster) (h : ∀ k a, (g k a).die = k.die ∧ (g k a).clu = k.clu) (k : Cluster) :
    (l.foldl g k).die = k.die ∧ (l.foldl g k).clu = k.clu := by
  induction l generalizing k with
  | nil => exact ⟨rfl, rfl⟩
  | cons a l ih =>
    obtain ⟨hd, hc⟩ := ih (g k a)
    exact ⟨hd.trans (h k a).1, hc.trans (h k a).2⟩
@[simp] theorem updCtx_place (k : Cluster) (ctx : Nat) (f : CtxCluster → CtxCluster) : (Cluster.updCtx k ctx f).die = k.die ∧ (Cluster.updCtx k ctx f).clu = k.clu := ⟨rfl, rfl⟩
@[simp] theorem updTask_place (k : Cluster) (id : Nat) (f : Task → Task) : (Cluster.updTask k id f).die = k.die ∧ (Cluster.updTask k id f).clu = k.clu := ⟨rfl, rfl⟩
@[simp] theorem wr_id (c : Core) (r : Reg) (v : Word) : (Core.wr c r v).id = c.id := by
  unfold Core.wr; split <;> exact rfl
@[simp] theorem setStream_id (c : Core) (q : BitVec 3) (v : Stream) : (Core.setStream c q v).id = c.id := (rfl)
@[simp] theorem setElems_id (c : Core) (q : BitVec 3) (es : List Word) : (Core.setElems c q es).id = c.id := (rfl)
@[simp] theorem next_id (c : Core) : (Core.next c).id = c.id := (rfl)
@[simp] theorem see_id (c : Core) (k : Nat) : (Core.see c k).id = c.id := (rfl)
@[simp] theorem order_id (c : Core) : (Core.order c).id = c.id := (rfl)
@[simp] theorem loosen_id (c : Core) : (Core.loosen c).id = c.id := (rfl)
@[simp] theorem taskWrite_id (c : Core) (ws : List (Nat × Byte)) (bad : Nat → Bool) : (Core.taskWrite c ws bad).id = c.id := (rfl)
@[simp] theorem packetWrite_id (c : Core) (own : Bool) (ws : List (Nat × Byte)) (bad : Nat → Bool) : (Core.packetWrite c own ws bad).id = c.id := by
  unfold Core.packetWrite; split <;> exact rfl
@[simp] theorem store_id (c : Core) (a n v : Nat) : (Core.store c a n v).id = c.id := (rfl)
@[simp] theorem release_place (k : Cluster) (id : Nat) : (Cluster.release k id).die = k.die ∧ (Cluster.release k id).clu = k.clu := ⟨rfl, rfl⟩
@[simp] theorem finish_place (k : Cluster) (id : Nat) : (Cluster.finish k id).die = k.die ∧ (Cluster.finish k id).clu = k.clu := ⟨rfl, rfl⟩
@[simp] theorem dropRun_id (c : Core) (t : Task) : (Core.dropRun c t).id = c.id := (rfl)
@[simp] theorem performed_id (c : Core) (uids : List Nat) : (Core.performed c uids).id = c.id := (rfl)
@[simp] theorem forgetPosts_die (k : Die) (c : Nat) (ids : List Nat) : (Die.forgetPosts k c ids).die = k.die := (rfl)
@[simp] theorem push_die (k : Die) (now : Nat) (p : Port) (resp : Bool) (f : Flow) : (Die.push k now p resp f).die = k.die := by
  unfold Die.push; split <;> exact rfl
@[simp] theorem addEffect_id (e : Effect) (c : Core) : (addEffect e c).id = c.id := (rfl)
@[simp] theorem setSlots_place (k : Cluster) (l : List (Nat × Slot)) :
    (Cluster.setSlots k l).die = k.die ∧ (Cluster.setSlots k l).clu = k.clu := by
  simp [Cluster.setSlots, foldl_place]
@[simp] theorem setTiles_place (k : Cluster) (l : List (Nat × AccTile)) :
    (Cluster.setTiles k l).die = k.die ∧ (Cluster.setTiles k l).clu = k.clu := by
  simp [Cluster.setTiles, foldl_place]
@[simp] theorem unload_id (c : Core) : (Core.unload c).id = c.id := (rfl)
@[simp] theorem takeOut_place (k : Cluster) (ids : List Nat) : (Cluster.takeOut k ids).die = k.die ∧ (Cluster.takeOut k ids).clu = k.clu := ⟨rfl, rfl⟩
@[simp] theorem loadSoftPart_id (c : Core) (a : SoftRecord) (g : CoreFlags) (ctx pb grant now : Nat) : (Core.loadSoftPart c a g ctx pb grant now).id = c.id := (rfl)
@[simp] theorem loadFresh_id (c : Core) : (Core.loadFresh c).id = c.id := (rfl)
@[simp] theorem loadHard_id (c : Core) (h : HardRecord) : (Core.loadHard c h).id = c.id := by
  unfold Core.loadHard; split <;> exact rfl
@[simp] theorem loadPart_place (k : Cluster) (ctx : Nat) (pending : List Nat) : (Cluster.loadPart k ctx pending).die = k.die ∧ (Cluster.loadPart k ctx pending).clu = k.clu := by
  unfold Cluster.loadPart; dsimp only; (repeat' split) <;> simp
@[simp] theorem trapEntry_id (c : Core) (epc : BitVec 32) (cause addr info : Word) : (Core.trapEntry c epc cause addr info).id = c.id := (rfl)
@[simp] theorem halt_id (c : Core) : (Core.halt c).id = c.id := (rfl)
@[simp] theorem spend_id (c : Core) : (Core.spend c).id = c.id := (rfl)
@[simp] theorem updWindow_id (c : Core) (n : Nat) (f : Window → Window) : (Core.updWindow c n f).id = c.id := (rfl)
@[simp] theorem takeKey_id (c : Core) (op : TaskOp) : (Core.takeKey c op).id = c.id := by
  unfold Core.takeKey; split <;> exact rfl
@[simp] theorem evict_place (k : Cluster) (n : Nat) : (Cluster.evict k n).die = k.die ∧ (Cluster.evict k n).clu = k.clu := ⟨rfl, rfl⟩
@[simp] theorem countDown_id (p : Packet) (c : Core) : (countDown p c).id = c.id := by
  unfold countDown; (repeat' split) <;> exact rfl
@[simp] theorem countUp_id (p : Packet) (c : Core) : (countUp p c).id = c.id := by
  unfold countUp; split <;> exact rfl
@[simp] theorem messageDone_id (p : Packet) (c : Core) : (messageDone p c).id = c.id := (rfl)
@[simp] theorem setDen_id (p : Packet) (c : Core) : (setDen p c).id = c.id := by
  unfold setDen; (repeat' split) <;> exact rfl
@[simp] theorem lock_die (k : Die) (d : Desc) (ctx : Nat) (es : List Extent) : (Die.lock k d ctx es).die = k.die := (rfl)
@[simp] theorem launch_id (c : Core) (d : Desc) (im : ImageAt) (ctx pb rank n : Nat) : (Core.launch c d im ctx pb rank n).id = c.id := by
  simp only [Core.launch, Core.reset]
@[simp] theorem releaseLease_die (k : Die) (ctx : Nat) : (Die.releaseLease k ctx).die = k.die := (rfl)
@[simp] theorem leave_id (c0 : Core) (ctx : Nat) : (Core.leave c0 ctx).id = c0.id := by
  unfold Core.leave; dsimp only; (repeat' split) <;> simp
@[simp] theorem install_id (c : Core) (v : SchedSetup) : (Core.install c v).id = c.id := (rfl)
@[simp] theorem setLink_die (k : Die) (p : Port) (l : Link) : (Die.setLink k p l).die = k.die := (rfl)
@[simp] theorem setDir_die (k : Die) (p : LinkDir) (l : Link) : (Die.setDir k p l).die = k.die := by
  unfold Die.setDir; split <;> exact rfl
@[simp] theorem pop_die (k : Die) (now : Nat) (p : Port) (resp : Bool) : (Die.pop k now p resp).die = k.die := (rfl)
@[simp] theorem drain_die (k : Die) (now : Nat) : (Die.drain k now).die = k.die := by
  unfold Die.drain; split <;> exact rfl
@[simp] theorem start_die (k : Die) (b : Bringup) (es : List RecordEntry) (lanes : List (Nat × List Nat)) (free : Nat) : (Die.start k b es lanes free).die = k.die := (rfl)
@[simp] theorem setThermal_die (k : Die) (level free : Nat) : (Die.setThermal k level free).die = k.die := (rfl)

end Sys2Proof.Machine
end
section
/-! SUPPORT. O58: the shared operations keep the place of the acting core. -/

namespace Sys2Proof.Machine

/-! ## Lens -/

@[simp] theorem updJob_seat (s) (a1) (a2) : (State.updJob s a1 a2).seat = s.seat := by simp [State.updJob]
@[simp] theorem updFn_seat (s) (a1) (a2) : (State.updFn s a1 a2).seat = s.seat := by simp [State.updFn]
@[simp] theorem updQueue_seat (s) (a1) (a2) (a3) : (State.updQueue s a1 a2 a3).seat = s.seat := by simp [State.updQueue]
@[simp] theorem freshen_seat (s) : (State.freshen s).seat = s.seat := by simp [State.freshen]
@[simp] theorem wr_seat (s) (a1) (a2) : (State.wr s a1 a2).seat = s.seat := by simp [State.wr]
@[simp] theorem advance_seat (s) : (State.advance s).seat = s.seat := by simp [State.advance]
@[simp] theorem goto_seat (s) (a1) : (State.goto s a1).seat = s.seat := by simp [State.goto]
@[simp] theorem sticky_seat (s) (a1) : (State.sticky s a1).seat = s.seat := by simp [State.sticky]

/-! ## Memory -/

@[simp] theorem toPort_seat (s) (a1) : (State.toPort s a1).seat = s.seat := by
  unfold State.toPort; simp
@[simp] theorem seesAll_seat (s) : (State.seesAll s).seat = s.seat := by
  unfold State.seesAll; simp
@[simp] theorem hostWrite_seat (s) (a1) (a2) : (State.hostWrite s a1 a2).seat = s.seat := by simp [State.hostWrite]
@[simp] theorem hostTaskWrite_seat (s) (a1) (a2) (a3) (a4) (a5) : (State.hostTaskWrite s a1 a2 a3 a4 a5).seat = s.seat := by
  unfold State.hostTaskWrite; (repeat' split) <;> simp
@[simp] theorem ownLoad_seat (s) (a1) (a2) : (State.ownLoad s a1 a2).1.seat = s.seat := by
  unfold State.ownLoad; dsimp only; (repeat' split) <;> simp
@[simp] theorem hostReadDone_seat (s) (a1) (a2) (a3) : (State.hostReadDone s a1 a2 a3).seat = s.seat := by simp [State.hostReadDone]
@[simp] theorem hostWriteD_seat (s) (a1) (a2) (a3) : (State.hostWriteD s a1 a2 a3).seat = s.seat := by simp [State.hostWriteD]

/-! ## Tasks -/

@[simp] theorem updCtx_seat (s) (a1) (a2) (a3) (a4) : (State.updCtx s a1 a2 a3 a4).seat = s.seat := by simp [State.updCtx]
@[simp] theorem orSticky_seat (s) (a1) (a2) (a3) : (State.orSticky s a1 a2 a3).seat = s.seat := by simp [State.orSticky]
@[simp] theorem updFlag_seat (s) (a1) (a2) (a3) (a4) : (State.updFlag s a1 a2 a3 a4).seat = s.seat := by
  unfold State.updFlag; split <;> simp
@[simp] theorem raiseFlag_seat (s) (a1) (a2) (a3) : (State.raiseFlag s a1 a2 a3).seat = s.seat := by simp [State.raiseFlag]
@[simp] theorem prune_seat (s) (a1) (a2) : (State.prune s a1 a2).seat = s.seat := by simp [State.prune]
@[simp] theorem updSave_seat (s) (a1) (a2) (a3) : (State.updSave s a1 a2 a3).seat = s.seat := by simp [State.updSave]
@[simp] theorem logTask_seat (s) (a1) (a2) (a3) (a4) : (State.logTask s a1 a2 a3 a4).seat = s.seat := by simp [State.logTask]
@[simp] theorem endTask_seat (s) (a1) (a2) (a3) (a4) : (State.endTask s a1 a2 a3 a4).seat = s.seat := by
  unfold State.endTask; split <;> simp
@[simp] theorem completeTask_seat (s) (a1) (a2) (a3) : (State.completeTask s a1 a2 a3).seat = s.seat := by simp [State.completeTask]
@[simp] theorem retire_seat (s) (a1) (a2) (a3) : (State.retire s a1 a2 a3).seat = s.seat := by simp [State.retire]
@[simp] theorem dropPosts_seat (s) (a1) (a2) : (State.dropPosts s a1 a2).seat = s.seat := by simp [State.dropPosts]
@[simp] theorem stopTask_seat (s) (a1) (a2) (a3) : (State.stopTask s a1 a2 a3).seat = s.seat := by simp [State.stopTask]
@[simp] theorem stopTasks_seat (s) (a1) (a2) (a3) : (State.stopTasks s a1 a2 a3).seat = s.seat := by
  unfold State.stopTasks; refine foldl_seat_any fun _ _ => ?_; simp
@[simp] theorem stopCoreTasks_seat (s) (a1) (a2) : (State.stopCoreTasks s a1 a2).seat = s.seat := by simp [State.stopCoreTasks]

/-! ## Router -/

@[simp] theorem setSpilled_seat (s) (a1) (a2) (a3) : (State.setSpilled s a1 a2 a3).seat = s.seat := by simp [State.setSpilled]
@[simp] theorem remoteWrite_seat (s) (a1) (a2) (a3) (a4) (a5) : (State.remoteWrite s a1 a2 a3 a4 a5).seat = s.seat := by
  unfold State.remoteWrite; split <;> simp
@[simp] theorem remoteAtomic_seat (s) (a1) (a2) (a3) (a4) (a5) : (State.remoteAtomic s a1 a2 a3 a4 a5).1.seat = s.seat := by
  unfold State.remoteAtomic; dsimp only; split <;> simp
@[simp] theorem hbmAtomic_seat (s) (a1) (a2) (a3) (a4) : (State.hbmAtomic s a1 a2 a3 a4).1.seat = s.seat := by
  unfold State.hbmAtomic; split <;> simp
@[simp] theorem takeMsg_seat (s) (a1) (a2) (a3) : (State.takeMsg s a1 a2 a3).1.seat = s.seat := by
  unfold State.takeMsg; dsimp only; split <;> simp
@[simp] theorem noteRetry_seat (s) (a1) : (State.noteRetry s a1).seat = s.seat := by
  unfold State.noteRetry; split <;> simp
@[simp] theorem queueMsg_seat (s) (a1) (a2) (a3) (a4) : (State.queueMsg s a1 a2 a3 a4).1.seat = s.seat := by
  unfold State.queueMsg
  split
  · simp
  · split
    · next h => simp [seat_fst h rfl]
    · simp
@[simp] theorem hbmAccess_seat (s) (a1) (a2) : (State.hbmAccess s a1 a2).1.seat = s.seat := by
  unfold State.hbmAccess; split <;> simp
@[simp] theorem cancelFrom_seat (s) (a1) (a2) : (State.cancelFrom s a1 a2).seat = s.seat := by
  unfold State.cancelFrom; refine foldl_seat_any fun _ _ => ?_; dsimp only; split <;> simp
@[simp] theorem deliver_seat (s) (a1) (a2) : (State.deliver s a1 a2).1.seat = s.seat := by
  unfold State.deliver; (repeat' split) <;> simp
@[simp] theorem answer_seat (s) (a1) (a2) (a3) : (State.answer s a1 a2 a3).seat = s.seat := by simp [State.answer]
@[simp] theorem inject_seat (s) (a1) (a2) : (State.inject s a1 a2).seat = s.seat := by simp [State.inject]
@[simp] theorem handOn_seat (s) (a1) (a2) (a3) (a4) : (State.handOn s a1 a2 a3 a4).1.seat = s.seat := by
  unfold State.handOn
  dsimp only
  split
  · split <;> simp [seat_fst ‹_ = (_, _)› rfl]
  · simp

/-! ## Contexts -/

@[simp] theorem putSave_seat (s) (a1) (a2) (a3) : (State.putSave s a1 a2 a3).seat = s.seat := by simp [State.putSave]
@[simp] theorem saveSoft_seat (s) : (State.saveSoft s).seat = s.seat := by simp [State.saveSoft]
@[simp] theorem saveHard_seat (s) (a1) : (State.saveHard s a1).seat = s.seat := by simp [State.saveHard]
@[simp] theorem recount_seat (s) : (State.recount s).seat = s.seat := by simp [State.recount]
@[simp] theorem loadCtx_seat (s) (a1) (a2) : (State.loadCtx s a1 a2).seat = s.seat := by
  unfold State.loadCtx; split <;> simp
@[simp] theorem resumeCtx_seat (s) (a1) : (State.resumeCtx s a1).seat = s.seat := by simp [State.resumeCtx]

/-! ## Ops -/

@[simp] theorem trapReturn_seat (s) : (State.trapReturn s).seat = s.seat := by simp [State.trapReturn]
@[simp] theorem serveSignal_seat (s) (a1) (a2) : (State.serveSignal s a1 a2).seat = s.seat := by simp [State.serveSignal]
@[simp] theorem signalError_seat (s) (a1) (a2) (a3) (a4) : (State.signalError s a1 a2 a3 a4).seat = s.seat := by simp [State.signalError]
@[simp] theorem subtract_seat (s) (a1) (a2) (a3) : (State.subtract s a1 a2 a3).seat = s.seat := by simp [State.subtract]
@[simp] theorem drainSubs_seat (s) : (State.drainSubs s).seat = s.seat := by
  unfold State.drainSubs; refine foldl_seat_any fun _ _ => ?_; simp
@[simp] theorem writeStatus_seat (s) (a1) (a2) : (State.writeStatus s a1 a2).seat = s.seat := by simp [State.writeStatus]
@[simp] theorem behind_seat (s) (a1) (a2) : (State.behind s a1 a2).seat = s.seat := by simp [State.behind]
@[simp] theorem signalPacket_seat (s) (a1) (a2) (a3) (a4) (a5) : (State.signalPacket s a1 a2 a3 a4 a5).seat = s.seat := by simp [State.signalPacket]
@[simp] theorem releaseSignals_seat (s) : (State.releaseSignals s).seat = s.seat := by simp [State.releaseSignals]
@[simp] theorem dropPacket_seat (s) (a1) (a2) (a3) : (State.dropPacket s a1 a2 a3).seat = s.seat := by simp [State.dropPacket]
@[simp] theorem queueError_seat (s) (a1) (a2) (a3) (a4) (a5) : (State.queueError s a1 a2 a3 a4 a5).seat = s.seat := by
  unfold State.queueError; simp [foldl_seat_any]
@[simp] theorem failPacket_seat (s) (a1) (a2) (a3) (a4) (a5) : (State.failPacket s a1 a2 a3 a4 a5).seat = s.seat := by simp [State.failPacket]
@[simp] theorem dropSaved_seat (s) (a1) (a2) : (State.dropSaved s a1 a2).seat = s.seat := by simp [State.dropSaved]
@[simp] theorem cancelOn_seat (s) (a1) (a2) (a3) : (State.cancelOn s a1 a2 a3).seat = s.seat := by
  unfold State.cancelOn; simp [foldl_seat_any]
@[simp] theorem flushCancels_seat (s) (a1) : (State.flushCancels s a1).seat = s.seat := by
  unfold State.flushCancels; refine foldl_seat_any fun _ _ => ?_; split <;> simp
@[simp] theorem sendCancels_seat (s) (a1) : (State.sendCancels s a1).seat = s.seat := by
  unfold State.sendCancels; refine foldl_seat_any fun _ _ => foldl_seat_any fun _ _ => ?_; simp
@[simp] theorem endProgram_seat (s) (a1) (a2) : (State.endProgram s a1 a2).seat = s.seat := by simp [State.endProgram]
@[simp] theorem reportJob_seat (s) (a1) (a2) : (State.reportJob s a1 a2).seat = s.seat := by simp [State.reportJob]
@[simp] theorem killCore_seat (s) (a1) (a2) (a3) (a4) : (State.killCore s a1 a2 a3 a4).seat = s.seat := by simp [State.killCore]
@[simp] theorem killJob_seat (s) (a1) (a2) : (State.killJob s a1 a2).seat = s.seat := by
  unfold State.killJob; dsimp only; (repeat' split) <;> simp [foldl_seat_any]
@[simp] theorem tenantError_seat (s) (a1) (a2) : (State.tenantError s a1 a2).seat = s.seat := by
  unfold State.tenantError; dsimp only; split <;> simp
@[simp] theorem killTenant_seat (s) (a1) (a2) : (State.killTenant s a1 a2).seat = s.seat := by
  unfold State.killTenant; simp [foldl_seat_any]
@[simp] theorem offerTenant_seat (s) (a1) (a2) : (State.offerTenant s a1 a2).seat = s.seat := by simp [State.offerTenant]
@[simp] theorem takeOff_seat (s) (a1) (a2) : (State.takeOff s a1 a2).seat = s.seat := by simp [State.takeOff]
@[simp] theorem putBack_seat (s) (a1) (a2) (a3) : (State.putBack s a1 a2 a3).seat = s.seat := by
  unfold State.putBack; split <;> simp
@[simp] theorem goOn_seat (s) (hs : s.seat.ok) (a1) (a2) (a3) : (State.goOn s a1 a2 a3).seat = s.seat := by
  unfold State.goOn; rw [actAs_seat _ _ (by simp [hs]), seat_of_core hs]
@[simp] theorem restoreJob_seat (s) (hs : s.seat.ok) (a1) : (State.restoreJob s a1).seat = s.seat := by
  unfold State.restoreJob; refine (foldl_seat (fun _ _ h => goOn_seat _ h _ _ _) ?_).trans ?_ <;> simp [foldl_seat_any, hs]
@[simp] theorem offerJob_seat (s) (hs : s.seat.ok) (a1) (a2) (a3) (a4) : (State.offerJob s a1 a2 a3 a4).seat = s.seat := by
  unfold State.offerJob; (repeat' split) <;> simp [hs]
@[simp] theorem offerJobHere_seat (s) (hs : s.seat.ok) (a1) : (State.offerJobHere s a1).seat = s.seat := by simp [State.offerJobHere, hs]
@[simp] theorem killHere_seat (s) (a1) : (State.killHere s a1).seat = s.seat := by simp [State.killHere]
@[simp] theorem takeFault_seat (s) (hs : s.seat.ok) (a1) : (State.takeFault s a1).seat = s.seat := by
  unfold State.takeFault; dsimp only; (repeat' split) <;> simp [hs]
@[simp] theorem next_seat (s) : SeatOut s.seat (next s) := by simp [next]
@[simp] theorem settled_seat (s) : (State.settled s).seat = s.seat := by simp [State.settled]
@[simp] theorem stalled_seat (s) (a1) : (State.stalled s a1).seat = s.seat := by simp [State.stalled]
@[simp] theorem stalledOn_seat (s) (a1) (a2) : (State.stalledOn s a1 a2).seat = s.seat := by simp [State.stalledOn]
theorem ends_seat (x : Seat) (s) (r) (hs : s.seat = x) (hx : x.ok) (h : ResAll (fun t => t.seat = x) r) : SeatOut x (ends s r) := by
  unfold ends
  cases r with
  | ok a => simpa using h.1 a rfl
  | fault f => simpa using (takeFault_seat s (hs ▸ hx) f).trans hs
  | stall w => simp [hs]
@[simp] theorem ends_seat_self (s r) (hs : s.seat.ok) (h : ResAll (fun t => t.seat = s.seat) r) : SeatOut s.seat (ends s r) := ends_seat _ _ _ rfl hs h
@[simp] theorem wrote_seat (s) (a1) (a2) : SeatOut s.seat (wrote s a1 a2) := by simp [wrote]
@[simp] theorem wroteSticky_seat (s) (a1) (a2) (a3) : SeatOut s.seat (wroteSticky s a1 a2 a3) := by simp [wroteSticky]
@[simp] theorem passed_seat (s) : SeatOut s.seat (passed s) := by simp [passed]

/-! ## TaskFaults -/

@[simp] theorem offEngine_seat (s) (a1) (a2) (a3) : (State.offEngine s a1 a2 a3).seat = s.seat := by simp [State.offEngine]
@[simp] theorem escalate_seat (s) (hs : s.seat.ok) (a1) (a2) (a3) : (State.escalate s a1 a2 a3).seat = s.seat := by simp [State.escalate, hs]
@[simp] theorem taskFault_seat (s) (hs : s.seat.ok) (a1) (a2) (a3) (a4) (a5) : (State.taskFault s a1 a2 a3 a4 a5).seat = s.seat := by
  unfold State.taskFault; split <;> simp [hs]

end Sys2Proof.Machine
end
section
/-! SUPPORT. O58: control-register, memory, synchronization and posting instructions and the cluster's engines keep the place of the acting core. -/

namespace Sys2Proof.Machine

/-! ## Operands -/

@[simp] theorem wrPair_seat (s) (a1) (a2) (a3) : (State.wrPair s a1 a2 a3).seat = s.seat := by simp [State.wrPair]

/-! ## ControlRegs -/

@[simp] theorem setMap_seat (s) (a1) (a2) : (State.setMap s a1 a2).seat = s.seat := by simp [State.setMap]
@[simp] theorem crPut_seat (s) (a1) (a2) (a3) : (State.crPut s a1 a2 a3).seat = s.seat := by
  unfold State.crPut; split <;> simp
@[simp] theorem execCrr_seat (a0) (s) (hs : s.seat.ok) : SeatOut s.seat (execCrr a0 s) := by simp [execCrr, hs]
@[simp] theorem crUpdate_seat (s) (a1) (a2) : ResAll (fun t => t.seat = s.seat) (crUpdate s a1 a2) := by simp [crUpdate]
@[simp] theorem execCrw_seat (a0) (s) (hs : s.seat.ok) : SeatOut s.seat (execCrw a0 s) := by simp [execCrw, hs]
@[simp] theorem execCrs_seat (a0) (s) (hs : s.seat.ok) : SeatOut s.seat (execCrs a0 s) := by simp [execCrs, hs]
@[simp] theorem execCrc_seat (a0) (s) (hs : s.seat.ok) : SeatOut s.seat (execCrc a0 s) := by simp [execCrc, hs]
@[simp] theorem execCrFpstatWrite_seat (a0) (a1) (s) : SeatOut s.seat (execCrFpstatWrite a0 a1 s) := by simp [execCrFpstatWrite]
@[simp] theorem execCrCpolWrite_seat (a0) (s) : SeatOut s.seat (execCrCpolWrite a0 s) := by simp [execCrCpolWrite]
@[simp] theorem execCrTflogWrite_seat (a0) (s) : SeatOut s.seat (execCrTflogWrite a0 s) := by simp [execCrTflogWrite]
@[simp] theorem execCrStatusWrite_seat (a0) (s) : SeatOut s.seat (execCrStatusWrite a0 s) := by simp [execCrStatusWrite]
@[simp] theorem execCrCyccmpWrite_seat (a0) (s) : SeatOut s.seat (execCrCyccmpWrite a0 s) := by simp [execCrCyccmpWrite]
@[simp] theorem execCrFmapWrite_seat (a0) (a1) (s) : SeatOut s.seat (execCrFmapWrite a0 a1 s) := by simp [execCrFmapWrite]

/-! ## LoadStore -/

@[simp] theorem windowSend_seat (s) (a1) (a2) (a3) (a4) : (windowSend s a1 a2 a3 a4).1.seat = s.seat := by
  unfold windowSend; dsimp only; split <;> simp [seat_fst ‹_ = (_, _)› rfl]
@[simp] theorem windowStore_seat (s) (a1) (a2) (a3) (a4) (a5) (a6) : ResAll (fun t => t.seat = s.seat) (windowStore s a1 a2 a3 a4 a5 a6) := by
  unfold windowStore
  refine resAll_bind _ _ _ fun _ => resAll_bind _ _ _ fun _ => ?_
  split <;> simp [seat_fst ‹_ = (_, _)› rfl]
@[simp] theorem taskWindowWrite_seat (s) (a1) (a2) (a3) (a4) (a5) (a6) : (State.taskWindowWrite s a1 a2 a3 a4 a5 a6).seat = s.seat := by
  unfold State.taskWindowWrite; dsimp only; split <;> simp [seat_fst ‹_ = (_, _)› rfl]
@[simp] theorem execLd_seat (a0) (s) (hs : s.seat.ok) : SeatOut s.seat (execLd a0 s) := by
  unfold execLd
  refine ends_seat_self _ _ hs (resAll_bind _ _ _ fun _ => ?_)
  split <;> simp
@[simp] theorem execSt_seat (a0) (s) (hs : s.seat.ok) : SeatOut s.seat (execSt a0 s) := by
  unfold execSt
  refine ends_seat_self _ _ hs (resAll_bind _ _ _ fun _ => ?_)
  split <;> simp
@[simp] theorem takeOld_seat (s) (a1) (a2) (a3) (a4) (a5) : (State.takeOld s a1 a2 a3 a4 a5).seat = s.seat := by simp [State.takeOld]
@[simp] theorem awaiting_seat (s) (a1) (a2) (a3) (a4) : (awaiting s a1 a2 a3 a4).seat = s.seat := by simp [awaiting]
theorem endsAtom_seat (x : Seat) (s) (r) (hs : s.seat = x) (hx : x.ok) (h : ResAll (AtomEnd.seated x) r) : SeatOut x (endsAtom s r) := by
  unfold endsAtom
  cases r with
  | ok a => have := h.1 a rfl; cases a <;> simpa using this
  | fault f => simpa using (takeFault_seat s (hs ▸ hx) f).trans hs
  | stall w => simp [hs]
@[simp] theorem endsAtom_seat_self (s r) (hs : s.seat.ok) (h : ResAll (AtomEnd.seated s.seat) r) : SeatOut s.seat (endsAtom s r) := endsAtom_seat _ _ _ rfl hs h
@[simp] theorem atomPlain_seat (s o c q) : ResAll (AtomEnd.seated s.seat) (atomPlain s o c q) := by
  unfold atomPlain
  refine resAll_bind _ _ _ fun _ => ?_
  split
  · simp
  · refine resAll_bind _ _ _ fun _ => resAll_bind _ _ _ fun _ => ?_
    split <;> simp [seat_fst ‹_ = (_, _)› rfl]
  · simp
  · simp
@[simp] theorem atomHbm_seat (s o c q) : ResAll (AtomEnd.seated s.seat) (atomHbm s o c q) := by
  unfold atomHbm
  refine resAll_bind _ _ _ fun _ => resAll_bind _ _ _ fun _ => resAll_bind _ _ _ fun _ => ?_
  split
  · simp
  · split
    · simp
    · dsimp only
      split
      · refine resAll_bind _ _ _ fun _ => ?_
        split
        · next h => simp [seat_fst h rfl]
        · simp
      · simp
@[simp] theorem execAtomAdd_seat (a0) (s) (hs : s.seat.ok) : SeatOut s.seat (execAtomAdd a0 s) := by simp [execAtomAdd, hs]
@[simp] theorem execAtomAnd_seat (a0) (s) (hs : s.seat.ok) : SeatOut s.seat (execAtomAnd a0 s) := by simp [execAtomAnd, hs]
@[simp] theorem execAtomOr_seat (a0) (s) (hs : s.seat.ok) : SeatOut s.seat (execAtomOr a0 s) := by simp [execAtomOr, hs]
@[simp] theorem execAtomXor_seat (a0) (s) (hs : s.seat.ok) : SeatOut s.seat (execAtomXor a0 s) := by simp [execAtomXor, hs]
@[simp] theorem execAtomMin_seat (a0) (s) (hs : s.seat.ok) : SeatOut s.seat (execAtomMin a0 s) := by simp [execAtomMin, hs]
@[simp] theorem execAtomMax_seat (a0) (s) (hs : s.seat.ok) : SeatOut s.seat (execAtomMax a0 s) := by simp [execAtomMax, hs]
@[simp] theorem execAtomMinn_seat (a0) (s) (hs : s.seat.ok) : SeatOut s.seat (execAtomMinn a0 s) := by simp [execAtomMinn, hs]
@[simp] theorem execAtomMaxn_seat (a0) (s) (hs : s.seat.ok) : SeatOut s.seat (execAtomMaxn a0 s) := by simp [execAtomMaxn, hs]
@[simp] theorem execAtomSwap_seat (a0) (s) (hs : s.seat.ok) : SeatOut s.seat (execAtomSwap a0 s) := by simp [execAtomSwap, hs]
@[simp] theorem execAtomCas_seat (a0) (s) (hs : s.seat.ok) : SeatOut s.seat (execAtomCas a0 s) := by simp [execAtomCas, hs]
@[simp] theorem execAtomIncb_seat (a0) (s) (hs : s.seat.ok) : SeatOut s.seat (execAtomIncb a0 s) := by simp [execAtomIncb, hs]
@[simp] theorem execAtomAddHbm_seat (a0) (s) (hs : s.seat.ok) : SeatOut s.seat (execAtomAddHbm a0 s) := by simp [execAtomAddHbm, hs]
@[simp] theorem execAtomAndHbm_seat (a0) (s) (hs : s.seat.ok) : SeatOut s.seat (execAtomAndHbm a0 s) := by simp [execAtomAndHbm, hs]
@[simp] theorem execAtomOrHbm_seat (a0) (s) (hs : s.seat.ok) : SeatOut s.seat (execAtomOrHbm a0 s) := by simp [execAtomOrHbm, hs]
@[simp] theorem execAtomXorHbm_seat (a0) (s) (hs : s.seat.ok) : SeatOut s.seat (execAtomXorHbm a0 s) := by simp [execAtomXorHbm, hs]
@[simp] theorem execAtomMinHbm_seat (a0) (s) (hs : s.seat.ok) : SeatOut s.seat (execAtomMinHbm a0 s) := by simp [execAtomMinHbm, hs]
@[simp] theorem execAtomMaxHbm_seat (a0) (s) (hs : s.seat.ok) : SeatOut s.seat (execAtomMaxHbm a0 s) := by simp [execAtomMaxHbm, hs]
@[simp] theorem execAtomMinnHbm_seat (a0) (s) (hs : s.seat.ok) : SeatOut s.seat (execAtomMinnHbm a0 s) := by simp [execAtomMinnHbm, hs]
@[simp] theorem execAtomMaxnHbm_seat (a0) (s) (hs : s.seat.ok) : SeatOut s.seat (execAtomMaxnHbm a0 s) := by simp [execAtomMaxnHbm, hs]
@[simp] theorem execAtomSwapHbm_seat (a0) (s) (hs : s.seat.ok) : SeatOut s.seat (execAtomSwapHbm a0 s) := by simp [execAtomSwapHbm, hs]
@[simp] theorem execAtomCasHbm_seat (a0) (s) (hs : s.seat.ok) : SeatOut s.seat (execAtomCasHbm a0 s) := by simp [execAtomCasHbm, hs]
@[simp] theorem execAtomIncbHbm_seat (a0) (s) (hs : s.seat.ok) : SeatOut s.seat (execAtomIncbHbm a0 s) := by simp [execAtomIncbHbm, hs]
@[simp] theorem execClaim_seat (a0) (s) (hs : s.seat.ok) : SeatOut s.seat (execClaim a0 s) := by simp [execClaim, hs]
@[simp] theorem execClaimHbm_seat (a0) (s) (hs : s.seat.ok) : SeatOut s.seat (execClaimHbm a0 s) := by simp [execClaimHbm, hs]

/-! ## FarMemory -/

@[simp] theorem sendFar_seat (s) (a1) (a2) (a3) (a4) (a5) : (State.sendFar s a1 a2 a3 a4 a5).seat = s.seat := by simp [State.sendFar]
theorem fetchFar_seat (s) (a1) (a2) (a3) (a4) : ∀ t, State.fetchFar s a1 a2 a3 a4 = some t → t.seat = s.seat := by simp [State.fetchFar]
theorem fetchAll_seat (s) (a1) (a2) (a3) (a4) : ∀ t, State.fetchAll s a1 a2 a3 a4 = some t → t.seat = s.seat := by
  unfold State.fetchAll; dsimp only; (repeat' split) <;> simp [foldl_seat_any]
@[simp] theorem flushTask_seat (s) (a1) (a2) (a3) : (State.flushTask s a1 a2 a3).seat = s.seat := by
  unfold State.flushTask
  refine (updCluster_seat _ _ _ _ (by simp)).trans (foldl_seat_fst (fun _ _ => ?_) _ _)
  split <;> simp
@[simp] theorem flushFar_seat (s) (a1) : (State.flushFar s a1).seat = s.seat := by
  unfold State.flushFar; simp [foldl_seat_any]
@[simp] theorem writeFar_seat (s) (a1) (a2) (a3) (a4) (a5) : (State.writeFar s a1 a2 a3 a4 a5).seat = s.seat := by simp [State.writeFar]
@[simp] theorem memWrite_seat (s) (a1) (a2) (a3) (a4) (a5) (a6) (a7) : (State.memWrite s a1 a2 a3 a4 a5 a6 a7).seat = s.seat := by
  unfold State.memWrite; split <;> simp
@[simp] theorem endWork_seat (s) (hs : s.seat.ok) (a1) (a2) (a3) (a4) (a5) : (State.endWork s a1 a2 a3 a4 a5).seat = s.seat := by
  unfold State.endWork; (repeat' split) <;> simp [hs]
theorem afterWork_seat (s) (hs : s.seat.ok) (a1) (a2) (a3) (a4) : ∀ t, State.afterWork s a1 a2 a3 a4 = some t → t.seat = s.seat := by
  unfold State.afterWork; (repeat' split) <;> simp [hs]

/-! ## CopyEngine -/

@[simp] theorem copyHostDone_seat (s) (a1) (a2) (a3) : (State.copyHostDone s a1 a2 a3).seat = s.seat := by
  unfold State.copyHostDone; refine foldl_seat_any fun _ _ => ?_; simp
@[simp] theorem copyAt_seat (s) (a1) (a2) (a3) (a4) (a5) (a6) : (State.copyAt s a1 a2 a3 a4 a5 a6).seat = s.seat := by simp [State.copyAt]
@[simp] theorem copyStop_seat (s) (a1) (a2) (a3) : (State.copyStop s a1 a2 a3).seat = s.seat := by
  unfold State.copyStop; split <;> simp
theorem chunkHere_seat (s) (hs : s.seat.ok) (a1) (a2) (a3) (a4) : ∀ t, State.chunkHere s a1 a2 a3 a4 = some t → t.seat = s.seat := by
  unfold State.chunkHere
  dsimp only
  split
  · simp [hs]
  · split
    · exact fetchFar_seat _ _ _ _ _
    · simp
  · simp
  · simp
@[simp] theorem overlapHere_seat (s) (a1) (a2) (a3) : (State.overlapHere s a1 a2 a3).seat = s.seat := by simp [State.overlapHere]
@[simp] theorem takeHeld_seat (s) (a1) (a2) (a3) (a4) : (State.takeHeld s a1 a2 a3 a4).1.seat = s.seat := by simp [State.takeHeld]
@[simp] theorem sendPackets_seat (s) (a1) (a2) (a3) (a4) (a5) (a6) : (State.sendPackets s a1 a2 a3 a4 a5 a6).1.seat = s.seat := by
  induction a6 generalizing s a5 with
  | nil => rfl
  | cons p r ih => unfold State.sendPackets; split <;> simp [ih]
@[simp] theorem giveBack_seat (s a1 a2 a3) : (State.giveBack s a1 a2 a3).seat = s.seat := by
  unfold State.giveBack; split <;> simp
@[simp] theorem chunkSource_seat (s a1 a2 a3 a4 a5) : (State.chunkSource s a1 a2 a3 a4 a5).1.seat = s.seat := by
  unfold State.chunkSource; dsimp only; (repeat' split) <;> simp
theorem chunkAfter_seat (s a1 a2 a3 a4 a5 a6 a7 a8 a9 a10) (hs : s.seat.ok) : ∀ t, State.chunkAfter s a1 a2 a3 a4 a5 a6 a7 a8 a9 a10 = some t → t.seat = s.seat := by
  intro t h
  unfold State.chunkAfter at h
  dsimp only at h
  split at h
  · obtain ⟨f, -, rfl⟩ := Option.map_eq_some_iff.1 h
    simp [hs]
  · split at h
    · cases h; simp
    · split at h
      · cases h
      · cases h; simp
theorem chunkRemote_seat (s) (hs : s.seat.ok) (a1) (a2) (a3) (a4) : ∀ t, State.chunkRemote s a1 a2 a3 a4 = some t → t.seat = s.seat := by
  intro t h
  unfold State.chunkRemote at h
  dsimp only at h
  split at h
  · cases h
  · split at h
    · exact fetchFar_seat _ _ _ _ _ _ h
    · refine (chunkAfter_seat _ _ _ _ _ _ _ _ _ _ _ (seat_ok_of_eq (s := s) ?_ hs) _ h).trans ?_ <;>
        exact (sendPackets_seat ..).trans (chunkSource_seat ..)
@[simp] theorem execCopyChunk_seat (a0) (s) (hs : s.seat.ok) : SeatOut s.seat (execCopyChunk a0 s) := by
  unfold execCopyChunk
  dsimp only
  split
  · simp
  · split
    · simp
    · split
      · simp
      · split
        · next h =>
          rw [seatOut_next]
          split at h
          · exact chunkRemote_seat _ hs _ _ _ _ _ h
          · exact chunkHere_seat _ hs _ _ _ _ _ h
        · simp
@[simp] theorem enterTask_seat (s p l d) : ResAll (Posted.seated s.seat) (State.enterTask s p l d) := by simp [State.enterTask]
@[simp] theorem enterTaskHere_seat (s l d) : ResAll (Posted.seated s.seat) (State.enterTaskHere s l d) := by simp [State.enterTaskHere]
@[simp] theorem seesAll_enterTaskHere_seat (s : State) (l d) : ResAll (Posted.seated s.seat) (s.seesAll.enterTaskHere l d) := by
  simpa using enterTaskHere_seat s.seesAll l d

/-! ## Atelier -/

theorem endsPost_seat (x : Seat) (s nb sd) (r) (hs : s.seat = x) (hx : x.ok) (h : ResAll (Posted.seated x) r) : SeatOut x (endsPost s nb sd r) := by
  unfold endsPost
  refine ends_seat _ _ _ hs hx (resAll_bind2 _ _ _ _ h fun a ha => ?_)
  cases a with
  | admitted t => cases nb <;> simpa using ha
  | full => cases nb <;> simp [hs]
@[simp] theorem endsPost_seat_self (s nb sd r) (hs : s.seat.ok) (h : ResAll (Posted.seated s.seat) r) : SeatOut s.seat (endsPost s nb sd r) :=
  endsPost_seat _ _ _ _ _ rfl hs h

/-! ## Posting -/

@[simp] theorem postCopy_seat (s) (hs : s.seat.ok) (a1) (a2) (a3) : SeatOut s.seat (postCopy s a1 a2 a3) := by simp [postCopy, hs]
@[simp] theorem postShape_seat (s) (hs : s.seat.ok) (a1) (a2) : SeatOut s.seat (postShape s a1 a2) := by simp [postShape, hs]
@[simp] theorem postAcc_seat (s) (hs : s.seat.ok) (a1) (a2) : SeatOut s.seat (postAcc s a1 a2) := by simp [postAcc, hs]
@[simp] theorem postMma_seat (s) (hs : s.seat.ok) (a1) (a2) : SeatOut s.seat (postMma s a1 a2) := by simp [postMma, hs]
@[simp] theorem execCpBox_seat (a0) (s) (hs : s.seat.ok) : SeatOut s.seat (execCpBox a0 s) := by simp [execCpBox, hs]
@[simp] theorem execCpFill_seat (a0) (s) (hs : s.seat.ok) : SeatOut s.seat (execCpFill a0 s) := by simp [execCpFill, hs]
@[simp] theorem execCpGather_seat (a0) (s) (hs : s.seat.ok) : SeatOut s.seat (execCpGather a0 s) := by simp [execCpGather, hs]
@[simp] theorem execCpScatter_seat (a0) (s) (hs : s.seat.ok) : SeatOut s.seat (execCpScatter a0 s) := by simp [execCpScatter, hs]
@[simp] theorem execShLoad_seat (a0) (s) (hs : s.seat.ok) : SeatOut s.seat (execShLoad a0 s) := by simp [execShLoad, hs]
@[simp] theorem execShUnload_seat (a0) (s) (hs : s.seat.ok) : SeatOut s.seat (execShUnload a0 s) := by simp [execShUnload, hs]
@[simp] theorem execMmaBf16_seat (a0) (s) (hs : s.seat.ok) : SeatOut s.seat (execMmaBf16 a0 s) := by simp [execMmaBf16, hs]
@[simp] theorem execMmaF16_seat (a0) (s) (hs : s.seat.ok) : SeatOut s.seat (execMmaF16 a0 s) := by simp [execMmaF16, hs]
@[simp] theorem execMmaE4m3_seat (a0) (s) (hs : s.seat.ok) : SeatOut s.seat (execMmaE4m3 a0 s) := by simp [execMmaE4m3, hs]
@[simp] theorem execMmaE5m2_seat (a0) (s) (hs : s.seat.ok) : SeatOut s.seat (execMmaE5m2 a0 s) := by simp [execMmaE5m2, hs]
@[simp] theorem execMmaI8_seat (a0) (s) (hs : s.seat.ok) : SeatOut s.seat (execMmaI8 a0 s) := by simp [execMmaI8, hs]
@[simp] theorem execMmaMx4_seat (a0) (s) (hs : s.seat.ok) : SeatOut s.seat (execMmaMx4 a0 s) := by simp [execMmaMx4, hs]
@[simp] theorem execMmaF32_seat (a0) (s) (hs : s.seat.ok) : SeatOut s.seat (execMmaF32 a0 s) := by simp [execMmaF32, hs]
@[simp] theorem execMmaF64_seat (a0) (s) (hs : s.seat.ok) : SeatOut s.seat (execMmaF64 a0 s) := by simp [execMmaF64, hs]
@[simp] theorem execMmaZ64_seat (a0) (s) (hs : s.seat.ok) : SeatOut s.seat (execMmaZ64 a0 s) := by simp [execMmaZ64, hs]
@[simp] theorem execAccZero_seat (a0) (s) (hs : s.seat.ok) : SeatOut s.seat (execAccZero a0 s) := by simp [execAccZero, hs]
@[simp] theorem execAccLoad_seat (a0) (s) (hs : s.seat.ok) : SeatOut s.seat (execAccLoad a0 s) := by simp [execAccLoad, hs]
@[simp] theorem execAccDrain_seat (a0) (s) (hs : s.seat.ok) : SeatOut s.seat (execAccDrain a0 s) := by simp [execAccDrain, hs]
@[simp] theorem execAccChk_seat (a0) (s) (hs : s.seat.ok) : SeatOut s.seat (execAccChk a0 s) := by simp [execAccChk, hs]
@[simp] theorem execAccGive_seat (a0) (s) (hs : s.seat.ok) : SeatOut s.seat (execAccGive a0 s) := by simp [execAccGive, hs]

/-! ## Shaper -/

/-- A load changes slots of its cluster. -/
@[simp] theorem shPut_seat (s : State) (d c : Nat) (planes : List (Nat × Plane)) (f : Slot → Plane → Slot) :
    (s.updCluster d c (fun k => planes.foldl (fun k p => k.setSlot p.1 (f (k.slot p.1) p.2)) k)).seat = s.seat := by
  simp [foldl_place]
@[simp] theorem shLoad_seat (s) (hs : s.seat.ok) (a1) (a2) (a3) (a4) : (State.shLoad s a1 a2 a3 a4).seat = s.seat := by
  unfold State.shLoad
  dsimp only
  split
  · have h := (freshen_seat _).trans (shPut_seat s a1 a2 (s.shPlanes a1 a2 a3 a4) (fun v p => v.mixed (v.loaded a4 p) s.modul.free))
    exact (taskFault_seat _ (seat_ok_of_eq h hs) _ _ _ _ _).trans h
  · exact (completeTask_seat _ _ _ _).trans (shPut_seat s a1 a2 (s.shPlanes a1 a2 a3 a4) (fun v p => v.loaded a4 p))
@[simp] theorem shUnload_seat (s) (a1) (a2) (a3) (a4) : (State.shUnload s a1 a2 a3 a4).seat = s.seat := by simp [State.shUnload]
@[simp] theorem runShaper_seat (s) (hs : s.seat.ok) (a1) (a2) (a3) : (State.runShaper s a1 a2 a3).seat = s.seat := by
  unfold State.runShaper; split <;> simp [hs]

/-! ## Matrix -/

@[simp] theorem runMatrix_seat (s) (hs : s.seat.ok) (a1) (a2) (a3) (a4) : (State.runMatrix s a1 a2 a3 a4).seat = s.seat := by
  unfold State.runMatrix; dsimp only; split <;> simp [hs]

/-! ## Accumulator -/

@[simp] theorem drainParts_seat (s) (a1) (a2) (a3) (a4) (a5) (a6) (a7) (a8) : (State.drainParts s a1 a2 a3 a4 a5 a6 a7 a8).1.seat = s.seat := by
  induction a6 generalizing s a7 a8 with
  | nil => rfl
  | cons p r ih => unfold State.drainParts; dsimp only; split <;> simp [ih]
@[simp] theorem endWith_seat (s) (hs : s.seat.ok) (a1) (a2) (a3) (a4) (a5) : (State.endWith s a1 a2 a3 a4 a5).seat = s.seat := by simp [State.endWith, hs]
@[simp] theorem runAcc_seat (s) (hs : s.seat.ok) (a1) (a2) (a3) (a4) (a5) : (State.runAcc s a1 a2 a3 a4 a5).seat = s.seat := by
  unfold State.runAcc; dsimp only; (repeat' split) <;> simp [hs]

/-! ## Buffers -/

@[simp] theorem bufTransition_seat (s) (hs : s.seat.ok) (a1) (a2) : SeatOut s.seat (bufTransition s a1 a2) := by
  unfold bufTransition; split <;> simp [hs]
@[simp] theorem execBufDecl_seat (a0) (s) (hs : s.seat.ok) : SeatOut s.seat (execBufDecl a0 s) := by simp [execBufDecl, hs]
@[simp] theorem execBufFree_seat (a0) (s) (hs : s.seat.ok) : SeatOut s.seat (execBufFree a0 s) := by
  unfold execBufFree; split <;> simp [hs]
@[simp] theorem execBufState_seat (a0) (s) (hs : s.seat.ok) : SeatOut s.seat (execBufState a0 s) := by simp [execBufState, hs]
@[simp] theorem execBufFill_seat (a0) (s) (hs : s.seat.ok) : SeatOut s.seat (execBufFill a0 s) := by simp [execBufFill, hs]
@[simp] theorem execBufFull_seat (a0) (s) (hs : s.seat.ok) : SeatOut s.seat (execBufFull a0 s) := by simp [execBufFull, hs]
@[simp] theorem execBufDrain_seat (a0) (s) (hs : s.seat.ok) : SeatOut s.seat (execBufDrain a0 s) := by simp [execBufDrain, hs]
@[simp] theorem execBufEmpty_seat (a0) (s) (hs : s.seat.ok) : SeatOut s.seat (execBufEmpty a0 s) := by simp [execBufEmpty, hs]
@[simp] theorem execBufVer_seat (a0) (s) (hs : s.seat.ok) : SeatOut s.seat (execBufVer a0 s) := by
  unfold execBufVer; split <;> simp [hs]

/-! ## ControlFlow -/

@[simp] theorem branched_seat (s) (a1) (a2) : SeatOut s.seat (branched s a1 a2) := by simp [branched]
@[simp] theorem execBeq_seat (a0) (s) : SeatOut s.seat (execBeq a0 s) := by simp [execBeq]
@[simp] theorem execBne_seat (a0) (s) : SeatOut s.seat (execBne a0 s) := by simp [execBne]
@[simp] theorem execBlt_seat (a0) (s) : SeatOut s.seat (execBlt a0 s) := by simp [execBlt]
@[simp] theorem execBge_seat (a0) (s) : SeatOut s.seat (execBge a0 s) := by simp [execBge]
@[simp] theorem execBltn_seat (a0) (s) : SeatOut s.seat (execBltn a0 s) := by simp [execBltn]
@[simp] theorem execBgen_seat (a0) (s) : SeatOut s.seat (execBgen a0 s) := by simp [execBgen]
@[simp] theorem execJal_seat (a0) (s) : SeatOut s.seat (execJal a0 s) := by simp [execJal]
@[simp] theorem execJalr_seat (a0) (s) (hs : s.seat.ok) : SeatOut s.seat (execJalr a0 s) := by simp [execJalr, hs]
@[simp] theorem execLoop_seat (a0) (s) : SeatOut s.seat (execLoop a0 s) := (branched_seat _ _ _).of_eq (wr_seat ..)

/-! ## Fences -/

theorem endsAfter_seat (x : Seat) (s checks rel mask scope) (r) (hs : s.seat = x) (hx : x.ok) (h : ResAll (fun t => t.seat = x) r) :
    SeatOut x (endsAfter s checks rel mask scope r) := by
  unfold endsAfter
  cases checks with
  | ok a =>
    dsimp only
    split
    · simp [hs]
    · exact ends_seat _ _ _ hs hx h
  | fault f => simpa using (takeFault_seat s (hs ▸ hx) f).trans hs
  | stall w => simp [hs]
@[simp] theorem endsAfter_seat_self (s checks rel mask scope r) (hs : s.seat.ok) (h : ResAll (fun t => t.seat = s.seat) r) :
    SeatOut s.seat (endsAfter s checks rel mask scope r) := endsAfter_seat _ _ _ _ _ _ _ rfl hs h
@[simp] theorem execFenceC_seat (a0) (s) : SeatOut s.seat (execFenceC a0 s) := by
  unfold execFenceC
  exact (passed_seat _).of_eq (by simp)
@[simp] theorem execFenceG_seat (a0) (s) (hs : s.seat.ok) : SeatOut s.seat (execFenceG a0 s) := by simp [execFenceG, hs]

/-! ## Sync -/

@[simp] theorem execQPush_seat (a0) (s) (hs : s.seat.ok) : SeatOut s.seat (execQPush a0 s) := by simp [execQPush, hs]
@[simp] theorem execQPop_seat (a0) (s) (hs : s.seat.ok) : SeatOut s.seat (execQPop a0 s) := by
  unfold execQPop; dsimp only; split <;> simp [hs]
@[simp] theorem execQBind_seat (a0) (s) (hs : s.seat.ok) : SeatOut s.seat (execQBind a0 s) := by simp [execQBind, hs]
@[simp] theorem execQCount_seat (a0) (s) (hs : s.seat.ok) : SeatOut s.seat (execQCount a0 s) := by simp [execQCount, hs]
@[simp] theorem directSend_seat (s) (a1) (a2) (a3) : (directSend s a1 a2 a3).1.seat = s.seat := by
  unfold directSend; dsimp only; (repeat' split) <;> simp [seat_fst ‹_ = (_, _)› rfl]
@[simp] theorem execMsgSend_seat (a0) (s) (hs : s.seat.ok) : SeatOut s.seat (execMsgSend a0 s) := by
  unfold execMsgSend
  refine ends_seat_self _ _ hs (resAll_bind _ _ _ fun _ => resAll_bind _ _ _ fun _ => ?_)
  split
  · simp
  · refine resAll_bind _ _ _ fun _ => resAll_bind _ _ _ fun _ => ?_
    dsimp only
    split <;> simp [seat_fst ‹_ = (_, _)› rfl]
@[simp] theorem execMsgRecv_seat (a0) (s) (hs : s.seat.ok) : SeatOut s.seat (execMsgRecv a0 s) := by
  unfold execMsgRecv; split <;> simp [hs]
@[simp] theorem execMsgPoll_seat (a0) (s) (hs : s.seat.ok) : SeatOut s.seat (execMsgPoll a0 s) := by simp [execMsgPoll, hs]
@[simp] theorem flagUpdate_seat (a0) (s) (hs : s.seat.ok) (a2) : SeatOut s.seat (flagUpdate a0 s a2) := by simp [flagUpdate, hs]
@[simp] theorem execFlagAdd_seat (a0) (s) (hs : s.seat.ok) : SeatOut s.seat (execFlagAdd a0 s) := by simp [execFlagAdd, hs]
@[simp] theorem execFlagSet_seat (a0) (s) (hs : s.seat.ok) : SeatOut s.seat (execFlagSet a0 s) := by simp [execFlagSet, hs]
@[simp] theorem observed_seat (s) (a1) : (State.observed s a1).seat = s.seat := by simp [State.observed]
@[simp] theorem execFlagWait_seat (a0) (s) (hs : s.seat.ok) : SeatOut s.seat (execFlagWait a0 s) := by simp [execFlagWait, hs]
@[simp] theorem execFlagRd_seat (a0) (s) (hs : s.seat.ok) : SeatOut s.seat (execFlagRd a0 s) := by simp [execFlagRd, hs]
@[simp] theorem setBarrier_seat (s) (a1) (a2) : (State.setBarrier s a1 a2).seat = s.seat := by simp [State.setBarrier]
@[simp] theorem execBarArrive_seat (a0) (s) (hs : s.seat.ok) : SeatOut s.seat (execBarArrive a0 s) := by simp [execBarArrive, hs]
@[simp] theorem execBarWait_seat (a0) (s) (hs : s.seat.ok) : SeatOut s.seat (execBarWait a0 s) := by simp [execBarWait, hs]
@[simp] theorem syncWait_seat (s) (a1) (a2) : SeatOut s.seat (syncWait s a1 a2) := by simp [syncWait]
@[simp] theorem execBarSync_seat (a0) (s) (hs : s.seat.ok) : SeatOut s.seat (execBarSync a0 s) := by
  unfold execBarSync
  dsimp only
  split
  · simp [hs]
  · simp
  · split
    · simp
    · split
      · simp
      · split
        · simp [hs]
        · simp
        · split
          · simp
          · exact (syncWait_seat _ _ _).of_eq (by simp)
@[simp] theorem execBarInit_seat (a0) (s) (hs : s.seat.ok) : SeatOut s.seat (execBarInit a0 s) := by simp [execBarInit, hs]

/-! ## TaskBuilder -/

@[simp] theorem setBuilder_seat (s) (a1) : (State.setBuilder s a1).seat = s.seat := by simp [State.setBuilder]
@[simp] theorem execTbNew_seat (a0) (s) (hs : s.seat.ok) : SeatOut s.seat (execTbNew a0 s) := by simp [execTbNew, hs]
@[simp] theorem execTbReg_seat (a0) (s) (hs : s.seat.ok) : SeatOut s.seat (execTbReg a0 s) := by simp [execTbReg, hs]
@[simp] theorem execTbArg_seat (a0) (s) (hs : s.seat.ok) : SeatOut s.seat (execTbArg a0 s) := by simp [execTbArg, hs]
@[simp] theorem execTbFlag_seat (a0) (s) (hs : s.seat.ok) : SeatOut s.seat (execTbFlag a0 s) := by simp [execTbFlag, hs]
@[simp] theorem execTbTag_seat (a0) (s) (hs : s.seat.ok) : SeatOut s.seat (execTbTag a0 s) := by simp [execTbTag, hs]
@[simp] theorem execTbPost_seat (a0) (s) (hs : s.seat.ok) : SeatOut s.seat (execTbPost a0 s) := by simp [execTbPost, hs]
@[simp] theorem execTbCancel_seat (a0) (s) (hs : s.seat.ok) : SeatOut s.seat (execTbCancel a0 s) := by
  unfold execTbCancel; dsimp only; simp [foldl_seat_any, hs]
@[simp] theorem execTwait_seat (a0) (s) (hs : s.seat.ok) : SeatOut s.seat (execTwait a0 s) := by
  unfold execTwait
  dsimp only
  split
  · simp [hs]
  · simp
  · split
    · simp
    · exact (wrote_seat (s.observed true) _ _).of_eq (by simp)
@[simp] theorem execTqState_seat (a0) (s) (hs : s.seat.ok) : SeatOut s.seat (execTqState a0 s) := by simp [execTqState, hs]
@[simp] theorem execTqFree_seat (a0) (s) (hs : s.seat.ok) : SeatOut s.seat (execTqFree a0 s) := by simp [execTqFree, hs]

/-! ## Windows -/

@[simp] theorem execWinMap_seat (a0) (s) (hs : s.seat.ok) : SeatOut s.seat (execWinMap a0 s) := by simp [execWinMap, hs]
@[simp] theorem execWinUnmap_seat (a0) (s) (hs : s.seat.ok) : SeatOut s.seat (execWinUnmap a0 s) := by simp [execWinUnmap, hs]
@[simp] theorem execWinAllow_seat (a0) (s) (hs : s.seat.ok) : SeatOut s.seat (execWinAllow a0 s) := by simp [execWinAllow, hs]
@[simp] theorem execWinStat_seat (a0) (s) (hs : s.seat.ok) : SeatOut s.seat (execWinStat a0 s) := by simp [execWinStat, hs]
@[simp] theorem execRpost_seat (a0) (s) (hs : s.seat.ok) : SeatOut s.seat (execRpost a0 s) := by simp [execRpost, hs]
@[simp] theorem execRflag_seat (a0) (s) (hs : s.seat.ok) : SeatOut s.seat (execRflag a0 s) := by simp [execRflag, hs]

/-! ## Delivery -/

@[simp] theorem consumeSaved_seat (s) (a1) (a2) (a3) : (State.consumeSaved s a1 a2 a3).seat = s.seat := by simp [State.consumeSaved]
@[simp] theorem deliverPost_seat (s) (a1) (a2) (a3) (a4) : (State.deliverPost s a1 a2 a3 a4).1.seat = s.seat := by
  unfold State.deliverPost
  split
  · rfl
  · dsimp only; split <;> try simp
    split <;> try simp
    rename_i hq
    have := (enterTask_seat _ _ _ _).1 _ hq
    simpa using this
@[simp] theorem deliverAny_seat (s) (a1) (a2) : (State.deliverAny s a1 a2).1.seat = s.seat := by
  unfold State.deliverAny
  split
  · split
    · rfl
    · split
      · rfl
      · split
        · rfl
        · split
          · simp
          · split
            · next h => simp [seat_fst h rfl]
            · simp
  · simp
@[simp] theorem handOnPost_seat (s) (a1) (a2) (a3) (a4) : (State.handOnPost s a1 a2 a3 a4).1.seat = s.seat := by
  unfold State.handOnPost
  dsimp only
  split
  · split <;> simp [seat_fst ‹_ = (_, _)› rfl]
  · simp

/-! ## Palette -/

@[simp] theorem setOwner_seat (s) (a1) (a2) : (State.setOwner s a1 a2).seat = s.seat := by simp [State.setOwner]
@[simp] theorem execPalClaim_seat (a0) (s) (hs : s.seat.ok) : SeatOut s.seat (execPalClaim a0 s) := by simp [execPalClaim, hs]
@[simp] theorem execPalRel_seat (a0) (s) (hs : s.seat.ok) : SeatOut s.seat (execPalRel a0 s) := by simp [execPalRel, hs]
@[simp] theorem execPalOwn_seat (a0) (s) (hs : s.seat.ok) : SeatOut s.seat (execPalOwn a0 s) := by simp [execPalOwn, hs]
@[simp] theorem execLeaseSet_seat (a0) (s) (hs : s.seat.ok) : SeatOut s.seat (execLeaseSet a0 s) := by simp [execLeaseSet, hs]
@[simp] theorem execLeaseGet_seat (a0) (s) (hs : s.seat.ok) : SeatOut s.seat (execLeaseGet a0 s) := by simp [execLeaseGet, hs]

end Sys2Proof.Machine
end
section
/-! SUPPORT. O58: the vector engine's rules, the fabric, the host queues and the module keep the place of the acting core. -/

namespace Sys2Proof.Machine

/-! ## VectorEngine -/

@[simp] theorem setVec_seat (s) (a1) : (State.setVec s a1).seat = s.seat := by simp [State.setVec]
@[simp] theorem setRun_seat (s) (a1) : (State.setRun s a1).seat = s.seat := by simp [State.setRun]
@[simp] theorem execVectorResultLand_seat (s) : SeatOut s.seat (execVectorResultLand s) := by
  unfold execVectorResultLand; split <;> simp
@[simp] theorem execHoldRelease_seat (s) : SeatOut s.seat (execHoldRelease s) := by
  unfold execHoldRelease; split <;> simp
@[simp] theorem execKernelIterationBoundary_seat (s) : SeatOut s.seat (execKernelIterationBoundary s) := by
  unfold execKernelIterationBoundary; split <;> simp
@[simp] theorem vecFault_seat (s) (hs : s.seat.ok) (a1) (a2) : (State.vecFault s a1 a2).seat = s.seat := by simp [State.vecFault, hs]
theorem vissue_seat (x : Seat) (s tm act) (hs : s.seat = x) (hx : x.ok) (h : ∀ r, VRes.seated x (act r)) : SeatOut x (vissue s tm act) := by
  have hok : s.seat.ok := hs ▸ hx
  unfold vissue
  dsimp only
  split
  · exact (seatOut_next _ _).2 ((takeFault_seat s hok _).trans hs)
  · next r _ =>
    have hr := h r
    split
    · exact (seatOut_next _ _).2 ((vecFault_seat s hok _ _).trans hs)
    · cases hact : act r with
      | fault f => exact (seatOut_next _ _).2 ((vecFault_seat s hok _ _).trans hs)
      | hold u => simpa [hact] using hr
      | done u dest fl => simpa [hact] using hr
@[simp] theorem vissue_seat_self (s tm act) (hs : s.seat.ok) (h : ∀ r, VRes.seated s.seat (act r)) : SeatOut s.seat (vissue s tm act) :=
  vissue_seat _ _ _ _ rfl hs h
@[simp] theorem vtile_seat (s) (hs : s.seat.ok) (a1) (a2) (a3) (a4) (a5) (a6) : SeatOut s.seat (vtile s a1 a2 a3 a4 a5 a6) := by
  unfold vtile; dsimp only; refine vissue_seat _ _ _ _ rfl hs (fun _ => ?_); (repeat' split) <;> simp
@[simp] theorem execNop_seat (s) (hs : s.seat.ok) : SeatOut s.seat (execNop s) := by
  unfold execNop
  split
  · exact vissue_seat_self _ _ _ hs fun _ => rfl
  · simp
@[simp] theorem vecFresh_seat (s) (a1) (a2) : (State.vecFresh s a1 a2).seat = s.seat := by simp [State.vecFresh]
@[simp] theorem vecResume_seat (s) (a1) (a2) (a3) (a4) (a5) (a6) (a7) : (State.vecResume s a1 a2 a3 a4 a5 a6 a7).seat = s.seat := by simp [State.vecResume]
@[simp] theorem vecStart_seat (s) (hs : s.seat.ok) (a1) : (State.vecStart s a1).seat = s.seat := by
  unfold State.vecStart; dsimp only; (repeat' split) <;> simp [hs]

/-! ## Engines -/

@[simp] theorem toEngine_seat (s) (a1) (a2) (a3) (f) (h : ∀ k, (f k).die = k.die ∧ (f k).clu = k.clu) : (State.toEngine s a1 a2 a3 f).seat = s.seat := by
  unfold State.toEngine; simp [h]
@[simp] theorem updCanvas_seat (s) (a1) (a2) (a3) : (State.updCanvas s a1 a2 a3).seat = s.seat := by simp [State.updCanvas]
@[simp] theorem execCanvasLeaseGrant_seat (s) : SeatOut s.seat (execCanvasLeaseGrant s) := by
  unfold execCanvasLeaseGrant; dsimp only; split <;> simp
@[simp] theorem execLeaseEnd_seat (s) : SeatOut s.seat (execLeaseEnd s) := by
  unfold execLeaseEnd; split <;> simp
@[simp] theorem execCanvasCold_seat (s) : SeatOut s.seat (execCanvasCold s) := by simp [execCanvasCold]
@[simp] theorem execGustTokenTake_seat (s) : SeatOut s.seat (execGustTokenTake s) := by simp [execGustTokenTake]
@[simp] theorem execRampWindowEnd_seat (s) : SeatOut s.seat (execRampWindowEnd s) := by simp [execRampWindowEnd]
@[simp] theorem execGustTokenAdvance_seat (s) : SeatOut s.seat (execGustTokenAdvance s) := by simp [execGustTokenAdvance]
theorem dispatchVector_seat (s) (hs : s.seat.ok) : ∀ t, State.dispatchVector s = some t → t.seat = s.seat := by
  unfold State.dispatchVector; split <;> simp [hs]
theorem dispatchCopy_seat (s) (a1) : ∀ t, State.dispatchCopy s a1 = some t → t.seat = s.seat := by
  unfold State.dispatchCopy; dsimp only; (repeat' split) <;> simp
theorem dispatchShaper_seat (s) : ∀ t, State.dispatchShaper s = some t → t.seat = s.seat := by
  unfold State.dispatchShaper; split <;> simp
theorem dispatchCanvas_seat (s) : ∀ t, State.dispatchCanvas s = some t → t.seat = s.seat := by
  unfold State.dispatchCanvas; dsimp only; (repeat' split) <;> simp
theorem dispatchFabric_seat (s) (hs : s.seat.ok) : ∀ t, State.dispatchFabric s = some t → t.seat = s.seat := by
  unfold State.dispatchFabric
  dsimp only
  split
  · simp
  · split
    · split
      · simp
      · split <;> simp [seat_fst ‹_ = (_, _)› rfl, hs]
    · simp
@[simp] theorem execTaskDispatch_seat (a0) (s) (hs : s.seat.ok) : SeatOut s.seat (execTaskDispatch a0 s) := by
  unfold execTaskDispatch
  dsimp only
  split
  · next t h =>
    rw [seatOut_next]
    split at h
    · split at h
      · exact dispatchVector_seat s hs t h
      · simp at h
    · exact dispatchCopy_seat s _ t h
    · exact dispatchShaper_seat s t h
    · exact dispatchCanvas_seat s t h
    · exact dispatchFabric_seat s hs t h
  · simp
theorem completeVector_seat (s) : ∀ t, State.completeVector s = some t → t.seat = s.seat := by
  unfold State.completeVector; split <;> simp
theorem completeCopy_seat (s) (hs : s.seat.ok) (a1) : ∀ t, State.completeCopy s a1 = some t → t.seat = s.seat := by
  unfold State.completeCopy
  dsimp only
  split
  · simp
  · split
    · exact afterWork_seat _ hs _ _ _ _
    · (repeat' split) <;> simp
theorem whenRead_seat (s) (a1) (a2) (a3) (f : State → State) (h : (f s).seat = s.seat) : ∀ t, State.whenRead s a1 a2 a3 f = some t → t.seat = s.seat := by
  unfold State.whenRead
  split
  · split <;> simp [h]
  · exact fetchAll_seat _ _ _ _ _
@[simp] theorem boundary_seat (s) (a1) (a2) : (State.boundary s a1 a2).seat = s.seat := by
  unfold State.boundary; dsimp only; (repeat' split) <;> simp
@[simp] theorem runCanvas_seat (s) (hs : s.seat.ok) (a1) (a2) (a3) : (State.runCanvas s a1 a2 a3).seat = s.seat := by
  unfold State.runCanvas; split <;> simp [hs]
theorem completeShaper_seat (s) (hs : s.seat.ok) : ∀ t, State.completeShaper s = some t → t.seat = s.seat := by
  intro t h
  obtain ⟨k, -, hk⟩ := Option.bind_eq_some_iff.1 h
  exact whenRead_seat _ _ _ _ _ (by simp [hs]) _ hk
theorem completeCanvas_seat (s) (hs : s.seat.ok) : ∀ t, State.completeCanvas s = some t → t.seat = s.seat := by
  intro t h
  obtain ⟨k, -, hk⟩ := Option.bind_eq_some_iff.1 h
  split at hk
  · obtain ⟨u, hu, rfl⟩ := Option.map_eq_some_iff.1 hk
    rw [boundary_seat]
    exact afterWork_seat _ hs _ _ _ _ _ hu
  · split at hk
    · cases hk
    · exact whenRead_seat _ _ _ _ _ (by simp [hs]) _ hk
theorem completeFabric_seat (s) : ∀ t, State.completeFabric s = some t → t.seat = s.seat := by simp [State.completeFabric]
@[simp] theorem execTaskComplete_seat (a0) (s) (hs : s.seat.ok) : SeatOut s.seat (execTaskComplete a0 s) := by
  unfold execTaskComplete
  dsimp only
  split
  · next t h =>
    rw [seatOut_next]
    split at h
    · split at h
      · exact completeVector_seat s t h
      · simp at h
    · exact completeCopy_seat s hs _ t h
    · exact completeShaper_seat s hs t h
    · exact completeCanvas_seat s hs t h
    · exact completeFabric_seat s t h
  · simp
  · simp
@[simp] theorem execStalledInstructionResume_seat (s) : SeatOut s.seat (execStalledInstructionResume s) := by
  unfold execStalledInstructionResume; split <;> simp

/-! ## Fabric -/

@[simp] theorem takePacket_seat (s) (a1) (a2) : (State.takePacket s a1 a2).seat = s.seat := by simp [State.takePacket]
@[simp] theorem deliverEvent_seat (a0) (a1) (a2) (s) : SeatOut s.seat (deliverEvent a0 a1 a2 s) := by
  unfold deliverEvent; split <;> simp
@[simp] theorem execWrite_seat (a0) (s) : SeatOut s.seat (execWrite a0 s) := by simp [execWrite]
@[simp] theorem execAtomic_seat (a0) (s) : SeatOut s.seat (execAtomic a0 s) := by simp [execAtomic]
@[simp] theorem execFlag_seat (a0) (s) : SeatOut s.seat (execFlag a0 s) := by simp [execFlag]
@[simp] theorem execMsg_seat (a0) (s) : SeatOut s.seat (execMsg a0 s) := by simp [execMsg]
@[simp] theorem execPost_seat (a0) (s) : SeatOut s.seat (execPost a0 s) := by simp [execPost]
@[simp] theorem execCancel_seat (a0) (s) : SeatOut s.seat (execCancel a0 s) := by simp [execCancel]
@[simp] theorem execHbm_seat (a0) (s) : SeatOut s.seat (execHbm a0 s) := by simp [execHbm]
@[simp] theorem forget_seat (s) (a1) (a2) : (State.forget s a1 a2).seat = s.seat := by simp [State.forget]
/-- Acting as another core and back finds the place again. -/
theorem asCore_seat (s : State) (hs : s.seat.ok) (id) (f : State → State) (h : ∀ t, t.seat.ok → (f t).seat = t.seat) : (s.asCore id f).seat = s.seat := by
  have hid := actAs_seat s id hs
  have hok : (s.actAs id).seat.ok := hid ▸ seat_of_ok id
  unfold State.asCore
  rw [actAs_seat _ _ (seat_ok_of_eq (h _ hok) hok), seat_of_core hs]
@[simp] theorem replyTo_seat (s) (hs : s.seat.ok) (a1) (a2) : (State.replyTo s a1 a2).seat = s.seat := by
  unfold State.replyTo
  split
  · rfl
  · exact asCore_seat _ hs _ _ fun t _ => by simp
@[simp] theorem denyTo_seat (s) (hs : s.seat.ok) (a1) (a2) : (State.denyTo s a1 a2).seat = s.seat := by
  unfold State.denyTo
  split
  · rfl
  · refine asCore_seat _ hs _ _ fun t h => ?_
    exact (takeFault_seat _ (seat_ok_of_eq (s := t) (by simp) h) _).trans (by simp)
@[simp] theorem farDone_seat (s) (a1) (a2) : (State.farDone s a1 a2).seat = s.seat := by
  unfold State.farDone; split <;> simp
@[simp] theorem accepted_seat (s) (a1) (a2) : (State.accepted s a1 a2).seat = s.seat := by simp [State.accepted]
@[simp] theorem setDen_seat (s) (a1) : (State.setDen s a1).seat = s.seat := by simp [State.setDen]
@[simp] theorem denied_seat (s) (hs : s.seat.ok) (a1) (a2) (a3) : (State.denied s a1 a2 a3).seat = s.seat := by
  unfold State.denied; (repeat' split) <;> simp [hs]
@[simp] theorem retriedAt_seat (s) (a1) (a2) : (State.retriedAt s a1 a2).seat = s.seat := by simp [State.retriedAt]
@[simp] theorem consumed_seat (s) (a1) (a2) : (State.consumed s a1 a2).seat = s.seat := by simp [State.consumed]
@[simp] theorem execAck_seat (a0) (s) : SeatOut s.seat (execAck a0 s) := by
  unfold execAck; split <;> simp
@[simp] theorem execDeny_seat (a0) (s) (hs : s.seat.ok) : SeatOut s.seat (execDeny a0 s) := by
  unfold execDeny; split <;> simp [hs]
@[simp] theorem execReply_seat (a0) (s) (hs : s.seat.ok) : SeatOut s.seat (execReply a0 s) := by
  unfold execReply; split <;> simp [hs]
@[simp] theorem execRetry_seat (a0) (s) : SeatOut s.seat (execRetry a0 s) := by
  unfold execRetry; split <;> simp
@[simp] theorem execPacketResend_seat (a0) (s) : SeatOut s.seat (execPacketResend a0 s) := by
  unfold execPacketResend; split <;> simp
@[simp] theorem execRetriedPacketResend_seat (a0) (s) (hs : s.seat.ok) : SeatOut s.seat (execRetriedPacketResend a0 s) := by
  unfold execRetriedPacketResend
  split
  · simp
  · split
    · simp
    · split
      · split <;> simp [seat_fst ‹_ = (_, _)› rfl, hs]
      · split <;> simp

/-! ## Sketches -/

@[simp] theorem setBlock_seat (s) (a1) (a2) (a3) : (State.setBlock s a1 a2 a3).seat = s.seat := by simp [State.setBlock]
@[simp] theorem makeResident_seat (s) (a1) (a2) (a3) : (State.makeResident s a1 a2 a3).seat = s.seat := by
  unfold State.makeResident; dsimp only; (repeat' split) <;> simp
@[simp] theorem execSketchReload_seat (a0) (s) : SeatOut s.seat (execSketchReload a0 s) := by simp [execSketchReload]
@[simp] theorem sksDone_seat (s) (a1) : (State.sksDone s a1).seat = s.seat := by simp [State.sksDone]
@[simp] theorem sksCommit_seat (s) (hs : s.seat.ok) (a1) : SeatOut s.seat (sksCommit s a1) := by
  unfold sksCommit; dsimp only; (repeat' split) <;> simp [hs]
@[simp] theorem skStands_seat (s) (a1) (a2) : (State.skStands s a1 a2).seat = s.seat := by simp [State.skStands]
@[simp] theorem sksRun_seat (s) (hs : s.seat.ok) (a1) (a2) (a3) (a4) : SeatOut s.seat (sksRun s a1 a2 a3 a4) := by
  have h : (if skLoads a3 then s.seesAll else s).seat = s.seat := by split <;> simp
  unfold sksRun
  dsimp only
  generalize (if skLoads a3 then s.seesAll else s) = u at h ⊢
  rw [← h] at hs ⊢
  split <;> simp [hs]
@[simp] theorem execSks_seat (a0) (s) (hs : s.seat.ok) : SeatOut s.seat (execSks a0 s) := by
  unfold execSks; dsimp only; (repeat' split) <;> simp [hs]
@[simp] theorem execSkBind_seat (a0) (s) (hs : s.seat.ok) : SeatOut s.seat (execSkBind a0 s) := by simp [execSkBind, hs]
@[simp] theorem execSkUnbind_seat (a0) (s) (hs : s.seat.ok) : SeatOut s.seat (execSkUnbind a0 s) := by simp [execSkUnbind, hs]
@[simp] theorem execSkWrite_seat (a0) (s) (hs : s.seat.ok) : SeatOut s.seat (execSkWrite a0 s) := by simp [execSkWrite, hs]
@[simp] theorem execSkInval_seat (a0) (s) (hs : s.seat.ok) : SeatOut s.seat (execSkInval a0 s) := by simp [execSkInval, hs]

/-! ## Launch -/

@[simp] theorem createJob_seat (s) (hs : s.seat.ok) (a1) (a2) (a3) (a4) (a5) (a6) (a7) : (State.createJob s a1 a2 a3 a4 a5 a6 a7).seat = s.seat := by
  unfold State.createJob
  dsimp only
  rw [actAs_seat _ _ ?_, seat_of_core hs]
  refine foldl_ok (fun t k h => ?_) (seat_ok_of_eq (s := s) ?_ hs)
  · rw [foldl_seat_any fun _ _ => makeResident_seat .., actAs_seat _ _ h]
    exact seat_of_ok _
  · simp [foldl_seat_any]

/-! ## HostQueues -/

@[simp] theorem resetDone_seat (s) (a1) (a2) : (State.resetDone s a1 a2).seat = s.seat := by simp [State.resetDone]
@[simp] theorem reset_seat (s) (a1) (a2) : (State.reset_ s a1 a2).seat = s.seat := by simp [State.reset_]
@[simp] theorem writeConfig_seat (s) (a1) (a2) (a3) (a4) : (State.writeConfig s a1 a2 a3 a4).seat = s.seat := by
  unfold State.writeConfig; split <;> simp
@[simp] theorem writeBar0_seat (s) (a1) (a2) (a3) : (State.writeBar0 s a1 a2 a3).seat = s.seat := by simp [State.writeBar0]
@[simp] theorem execNotify_seat (a0) (a1) (a2) (s) : SeatOut s.seat (execNotify a0 a1 a2 s) := by simp [execNotify]
@[simp] theorem execMbxCtl_seat (a0) (a1) (s) : SeatOut s.seat (execMbxCtl a0 a1 s) := by simp [execMbxCtl]
@[simp] theorem execQueueEnable_seat (a0) (a1) (s) : SeatOut s.seat (execQueueEnable a0 a1 s) := by simp [execQueueEnable]
@[simp] theorem execQueuePause_seat (a0) (a1) (s) : SeatOut s.seat (execQueuePause a0 a1 s) := by simp [execQueuePause]
@[simp] theorem execQueueReset_seat (a0) (a1) (s) : SeatOut s.seat (execQueueReset a0 a1 s) := by simp [execQueueReset]
@[simp] theorem execRegisterWrite_seat (a0) (a1) (a2) (s) : SeatOut s.seat (execRegisterWrite a0 a1 a2 s) := by simp [execRegisterWrite]
@[simp] theorem execSetQn_seat (a0) (a1) (s) : SeatOut s.seat (execSetQn a0 a1 s) := by simp [execSetQn]
@[simp] theorem execPacketFetch_seat (a0) (a1) (s) : SeatOut s.seat (execPacketFetch a0 a1 s) := by
  unfold execPacketFetch; dsimp only; (repeat' split) <;> simp [foldl_seat_any]
@[simp] theorem execPacketRefetch_seat (a0) (a1) (s) : SeatOut s.seat (execPacketRefetch a0 a1 s) := by
  unfold execPacketRefetch; split <;> simp
@[simp] theorem startPkt_seat (s) (a1) (a2) (a3) (a4) : (State.startPkt s a1 a2 a3 a4).seat = s.seat := by simp [State.startPkt]
@[simp] theorem failStart_seat (s) (a1) (a2) (a3) (a4) : (State.failStart s a1 a2 a3 a4).seat = s.seat := by simp [State.failStart]
@[simp] theorem launchReadDone_seat (s) (a1) (a2) : (State.launchReadDone s a1 a2).seat = s.seat := by
  unfold State.launchReadDone
  split
  · rfl
  · refine foldl_seat_any fun _ _ => ?_
    split <;> simp
@[simp] theorem execLaunch_seat (a0) (a1) (a2) (s) (hs : s.seat.ok) : SeatOut s.seat (execLaunch a0 a1 a2 s) := by
  unfold execLaunch; (repeat' split) <;> simp [hs]
@[simp] theorem startFeed_seat (s) (a1) (a2) (a3) : (State.startFeed s a1 a2 a3).seat = s.seat := by
  unfold State.startFeed; split <;> simp
theorem feedOne_seat (s) (a1) (a2) (a3) : ∀ t, State.feedOne s a1 a2 a3 = some t → t.seat = s.seat := by
  unfold State.feedOne; dsimp only; (repeat' split) <;> simp
@[simp] theorem execFeed_seat (a0) (a1) (a2) (s) : SeatOut s.seat (execFeed a0 a1 a2 s) := by
  unfold execFeed
  split
  · simp
  · split
    · rename_i t h
      rw [seatOut_next]
      obtain ⟨p, -, hp⟩ := Option.bind_eq_some_iff.1 h
      exact feedOne_seat _ _ _ _ _ hp
    · simp
@[simp] theorem execSignal_seat (a0) (a1) (a2) (s) : SeatOut s.seat (execSignal a0 a1 a2 s) := by
  unfold execSignal; (repeat' split) <;> simp
@[simp] theorem execBarrierAnd_seat (a0) (a1) (a2) (s) : SeatOut s.seat (execBarrierAnd a0 a1 a2 s) := by
  unfold execBarrierAnd; (repeat' split) <;> simp
@[simp] theorem startCopy_seat (s) (a1) (a2) (a3) : (State.startCopy s a1 a2 a3).seat = s.seat := by
  unfold State.startCopy; split <;> simp
@[simp] theorem sendCopy_seat (s) (a1) (a2) (a3) (a4) (a5) : (State.sendCopy s a1 a2 a3 a4 a5).seat = s.seat := by simp [State.sendCopy]
@[simp] theorem sendCopies_seat (s) (a1) (a2) (a3) (a4) (a5) : (State.sendCopies s a1 a2 a3 a4 a5).1.seat = s.seat := by
  unfold State.sendCopies
  refine foldl_seat_fst (fun _ _ => ?_) _ _
  split <;> simp
@[simp] theorem copyMoved_seat (s) (a1) (a2) (a3) (a4) (a5) (a6) : (State.copyMoved s a1 a2 a3 a4 a5 a6).seat = s.seat := by simp [State.copyMoved]
theorem copyChunkOf_seat (s) (a1) (a2) (a3) : ∀ t, State.copyChunkOf s a1 a2 a3 = some t → t.seat = s.seat := by
  unfold State.copyChunkOf; dsimp only; (repeat' split) <;> simp
@[simp] theorem execCopy_seat (a0) (a1) (a2) (s) : SeatOut s.seat (execCopy a0 a1 a2 s) := by
  unfold execCopy
  split
  · simp
  · split
    · rename_i t h
      rw [seatOut_next]
      obtain ⟨p, -, hp⟩ := Option.bind_eq_some_iff.1 h
      exact copyChunkOf_seat _ _ _ _ _ hp
    · simp
@[simp] theorem execPacketComplete_seat (a0) (a1) (a2) (s) : SeatOut s.seat (execPacketComplete a0 a1 a2 s) := by
  unfold execPacketComplete; (repeat' split) <;> simp
@[simp] theorem execSignalSubtract_seat (s) : SeatOut s.seat (execSignalSubtract s) := by
  unfold execSignalSubtract; split <;> simp
@[simp] theorem releaseLeases_seat (s) (a1) : (State.releaseLeases s a1).seat = s.seat := by
  unfold State.releaseLeases; simp [foldl_seat_any]
@[simp] theorem removeJob_seat (s) (a1) : (State.removeJob s a1).seat = s.seat := by
  unfold State.removeJob; simp [foldl_seat_any]
@[simp] theorem failServed_seat (s) (a1) : (State.failServed s a1).seat = s.seat := by
  unfold State.failServed; refine foldl_seat_any fun _ _ => ?_; simp
@[simp] theorem execEndOfJobFence_seat (a0) (s) : SeatOut s.seat (execEndOfJobFence a0 s) := by
  unfold execEndOfJobFence; dsimp only; (repeat' split) <;> simp
@[simp] theorem refill_seat (s) : (State.refill s).seat = s.seat := by simp [State.refill]
theorem replaceSlot_seat (s) : ∀ t, State.replaceSlot s = some t → t.seat = s.seat := by
  intro t h
  unfold State.replaceSlot at h
  split at h
  · cases h
  · split at h
    · cases h; simp
    · obtain ⟨g, -, rfl⟩ := Option.map_eq_some_iff.1 h
      simp
@[simp] theorem execQuantumExpiry_seat (s) : SeatOut s.seat (execQuantumExpiry s) := by
  unfold execQuantumExpiry
  split
  · simp
  · split
    · simp
    · split
      · rename_i t h
        rw [seatOut_next]
        exact replaceSlot_seat _ _ h
      · simp

/-! ## HostPort -/

@[simp] theorem execMailboxWrite_seat (a0) (a1) (a2) (s) : SeatOut s.seat (execMailboxWrite a0 a1 a2 s) := by
  unfold execMailboxWrite; (repeat' split) <;> simp
@[simp] theorem execMailboxRead_seat (a0) (a1) (a2) (s) : SeatOut s.seat (execMailboxRead a0 a1 a2 s) := by simp [execMailboxRead]
@[simp] theorem markHostRead_seat (s) (a1) (a2) (a3) : (State.markHostRead s a1 a2 a3).seat = s.seat := by simp [State.markHostRead]
@[simp] theorem execHostReadErrorCompletion_seat (a0) (a1) (a2) (a3) (s) : SeatOut s.seat (execHostReadErrorCompletion a0 a1 a2 a3 s) := by
  simp [execHostReadErrorCompletion]
@[simp] theorem execCompletionTimeout_seat (a0) (a1) (a2) (s) : SeatOut s.seat (execCompletionTimeout a0 a1 a2 s) := by simp [execCompletionTimeout]
@[simp] theorem execUnexpectedCompletion_seat (a0) (a1) (a2) (s) : SeatOut s.seat (execUnexpectedCompletion a0 a1 a2 s) := by
  simp [execUnexpectedCompletion]
@[simp] theorem execFunctionEnable_seat (a0) (s) : SeatOut s.seat (execFunctionEnable a0 s) := by simp [execFunctionEnable]
@[simp] theorem sendPosted_seat (s) (a1) : (State.sendPosted s a1).seat = s.seat := by
  unfold State.sendPosted; split <;> simp
@[simp] theorem sendHost_seat (s) : (State.sendHost s).seat = s.seat := by
  unfold State.sendHost; dsimp only; split <;> simp
@[simp] theorem installOn_seat (s) (a1) : (State.installOn s a1).seat = s.seat := by
  unfold State.installOn; refine foldl_seat_any fun _ _ => ?_; simp
@[simp] theorem execFunctionSettings_seat (a0) (a1) (s) : SeatOut s.seat (execFunctionSettings a0 a1 s) := by
  unfold execFunctionSettings; (repeat' split) <;> simp

/-! ## Routing -/

@[simp] theorem linkDown_seat (s) (a1) (a2) : (State.linkDown s a1 a2).seat = s.seat := by
  unfold State.linkDown; dsimp only; (repeat' split) <;> simp [foldl_seat_any]
@[simp] theorem linkLost_seat (s) (a1) (a2) : (State.linkLost s a1 a2).seat = s.seat := by simp [State.linkLost]
@[simp] theorem execLaneFailure_seat (a0) (a1) (a2) (s) : SeatOut s.seat (execLaneFailure a0 a1 a2 s) := by simp [execLaneFailure]
@[simp] theorem execRemap_seat (a0) (a1) (a2) (a3) (s) : SeatOut s.seat (execRemap a0 a1 a2 a3 s) := by simp [execRemap]
@[simp] theorem execAckremap_seat (a0) (a1) (a2) (a3) (s) : SeatOut s.seat (execAckremap a0 a1 a2 a3 s) := by simp [execAckremap]
@[simp] theorem execFlitReplay_seat (a0) (a1) (a2) (s) : SeatOut s.seat (execFlitReplay a0 a1 a2 s) := by simp [execFlitReplay]
@[simp] theorem arrive_seat (s) (a1) (a2) : (State.arrive s a1 a2).seat = s.seat := by simp [State.arrive]
@[simp] theorem arriveFlow_seat (s) (a1) (a2) : (State.arriveFlow s a1 a2).seat = s.seat := by
  unfold State.arriveFlow; split <;> simp
@[simp] theorem execPacketHop_seat (a0) (a1) (a2) (s) : SeatOut s.seat (execPacketHop a0 a1 a2 s) := by
  unfold execPacketHop; dsimp only; (repeat' split) <;> simp
@[simp] theorem execDetectorThreshold_seat (a0) (a1) (a2) (s) : SeatOut s.seat (execDetectorThreshold a0 a1 a2 s) := by
  unfold execDetectorThreshold; split <;> simp
@[simp] theorem execZephyrTokenArrival_seat (a0) (a1) (s) : SeatOut s.seat (execZephyrTokenArrival a0 a1 s) := by simp [execZephyrTokenArrival]
@[simp] theorem passToken_seat (s) (a1) : (State.passToken s a1).seat = s.seat := by simp [State.passToken]
@[simp] theorem execTokenPass_seat (a0) (s) : SeatOut s.seat (execTokenPass a0 s) := by simp [execTokenPass]
@[simp] theorem execLeeDelivery_seat (a0) (a1) (s) : SeatOut s.seat (execLeeDelivery a0 a1 s) := by
  unfold execLeeDelivery; (repeat' split) <;> simp
@[simp] theorem execLeeAcknowledgement_seat (a0) (s) : SeatOut s.seat (execLeeAcknowledgement a0 s) := by simp [execLeeAcknowledgement]
@[simp] theorem execTokenRegeneration_seat (s) : SeatOut s.seat (execTokenRegeneration s) := by simp [execTokenRegeneration]
@[simp] theorem execLeeRouteReplacement_seat (s) : SeatOut s.seat (execLeeRouteReplacement s) := by
  unfold execLeeRouteReplacement
  split
  · simp
  · exact (seatOut_next _ _).2 (foldl_seat_any fun _ _ => updDie_seat _ _ _ rfl)

/-! ## Power -/

@[simp] theorem startLinks_seat (s) (a1) : (State.startLinks s a1).seat = s.seat := by
  unfold State.startLinks; simp [foldl_seat_any]
@[simp] theorem thermalTo_seat (s) (a1) (a2) : (State.thermalTo s a1 a2).seat = s.seat := by simp [State.thermalTo]
@[simp] theorem execThermalHold_seat (a0) (s) : SeatOut s.seat (execThermalHold a0 s) := by simp [execThermalHold]
@[simp] theorem execThermalSingleToken_seat (a0) (s) : SeatOut s.seat (execThermalSingleToken a0 s) := by simp [execThermalSingleToken]
@[simp] theorem execExitFromHold_seat (a0) (s) : SeatOut s.seat (execExitFromHold a0 s) := by simp [execExitFromHold]
@[simp] theorem spoilFirmware_seat (s) (a1) : (State.spoilFirmware s a1).seat = s.seat := by
  unfold State.spoilFirmware; simp [foldl_seat_any]
@[simp] theorem execPatrolScrub_seat (a0) (a1) (s) : SeatOut s.seat (execPatrolScrub a0 a1 s) := by
  unfold execPatrolScrub
  dsimp only
  split
  · exact seatOut_absent _ _
  · split
    · exact (seatOut_next _ _).2 rfl
    · exact (seatOut_next _ _).2 (updDie_seat _ _ _ rfl)
    · exact (seatOut_next _ _).2 ((spoilFirmware_seat _ _).trans (updDie_seat s _ _ rfl))
@[simp] theorem upset_seat (s) (a1) : (State.upset s a1).seat = s.seat := by
  unfold State.upset; split <;> simp
@[simp] theorem nextUpset_seat (s) : (State.nextUpset s).seat = s.seat := by
  unfold State.nextUpset; split <;> simp
@[simp] theorem execKeyDelivery_seat (a0) (a1) (a2) (a3) (s) : SeatOut s.seat (execKeyDelivery a0 a1 a2 a3 s) := by
  unfold execKeyDelivery
  split
  · split
    · simp
    · exact (seatOut_next _ _).2 (foldl_seat_any fun _ _ => updDie_seat _ _ _ rfl)
  · simp

end Sys2Proof.Machine
end
section
/-! SUPPORT. O58: scalar, trap and vector instructions keep the place of the acting core. -/

namespace Sys2Proof.Machine

/-! ## Queues -/

@[simp] theorem execWqPop_seat (a0) (s) (hs : s.seat.ok) : SeatOut s.seat (execWqPop a0 s) := by
  unfold execWqPop
  refine ends_seat_self _ _ hs (resAll_bind _ _ _ fun _ => resAll_bind _ _ _ fun _ => ?_)
  split <;> simp
@[simp] theorem execWqCount_seat (a0) (s) (hs : s.seat.ok) : SeatOut s.seat (execWqCount a0 s) := by simp [execWqCount, hs]
@[simp] theorem execSigSub_seat (a0) (s) (hs : s.seat.ok) : SeatOut s.seat (execSigSub a0 s) := by simp [execSigSub, hs]
@[simp] theorem execSigRead_seat (a0) (s) (hs : s.seat.ok) : SeatOut s.seat (execSigRead a0 s) := by simp [execSigRead, hs]

/-! ## Scalar -/

@[simp] theorem execAdd_seat (a0) (s) : SeatOut s.seat (execAdd a0 s) := by simp [execAdd]
@[simp] theorem execSub_seat (a0) (s) : SeatOut s.seat (execSub a0 s) := by simp [execSub]
@[simp] theorem execMul_seat (a0) (s) : SeatOut s.seat (execMul a0 s) := by simp [execMul]
@[simp] theorem execMulh_seat (a0) (s) : SeatOut s.seat (execMulh a0 s) := by simp [execMulh]
@[simp] theorem execMulhn_seat (a0) (s) : SeatOut s.seat (execMulhn a0 s) := by simp [execMulhn]
@[simp] theorem execAnd_seat (a0) (s) : SeatOut s.seat (execAnd a0 s) := by simp [execAnd]
@[simp] theorem execOr_seat (a0) (s) : SeatOut s.seat (execOr a0 s) := by simp [execOr]
@[simp] theorem execXor_seat (a0) (s) : SeatOut s.seat (execXor a0 s) := by simp [execXor]
@[simp] theorem execAndn_seat (a0) (s) : SeatOut s.seat (execAndn a0 s) := by simp [execAndn]
@[simp] theorem execShl_seat (a0) (s) : SeatOut s.seat (execShl a0 s) := by simp [execShl]
@[simp] theorem execShr_seat (a0) (s) : SeatOut s.seat (execShr a0 s) := by simp [execShr]
@[simp] theorem execSra_seat (a0) (s) : SeatOut s.seat (execSra a0 s) := by simp [execSra]
@[simp] theorem execRol_seat (a0) (s) : SeatOut s.seat (execRol a0 s) := by simp [execRol]
@[simp] theorem execRor_seat (a0) (s) : SeatOut s.seat (execRor a0 s) := by simp [execRor]
@[simp] theorem execMin_seat (a0) (s) : SeatOut s.seat (execMin a0 s) := by simp [execMin]
@[simp] theorem execMax_seat (a0) (s) : SeatOut s.seat (execMax a0 s) := by simp [execMax]
@[simp] theorem execMinn_seat (a0) (s) : SeatOut s.seat (execMinn a0 s) := by simp [execMinn]
@[simp] theorem execMaxn_seat (a0) (s) : SeatOut s.seat (execMaxn a0 s) := by simp [execMaxn]
@[simp] theorem execDiv_seat (a0) (s) : SeatOut s.seat (execDiv a0 s) := by simp [execDiv]
@[simp] theorem execDivn_seat (a0) (s) : SeatOut s.seat (execDivn a0 s) := by simp [execDivn]
@[simp] theorem execRem_seat (a0) (s) : SeatOut s.seat (execRem a0 s) := by simp [execRem]
@[simp] theorem execRemn_seat (a0) (s) : SeatOut s.seat (execRemn a0 s) := by simp [execRemn]
@[simp] theorem execAddo_seat (a0) (s) : SeatOut s.seat (execAddo a0 s) := by simp [execAddo]
@[simp] theorem execSubo_seat (a0) (s) : SeatOut s.seat (execSubo a0 s) := by simp [execSubo]
@[simp] theorem execAddi_seat (a0) (s) : SeatOut s.seat (execAddi a0 s) := by simp [execAddi]
@[simp] theorem execAndi_seat (a0) (s) : SeatOut s.seat (execAndi a0 s) := by simp [execAndi]
@[simp] theorem execOri_seat (a0) (s) : SeatOut s.seat (execOri a0 s) := by simp [execOri]
@[simp] theorem execXori_seat (a0) (s) : SeatOut s.seat (execXori a0 s) := by simp [execXori]
@[simp] theorem execMuli_seat (a0) (s) : SeatOut s.seat (execMuli a0 s) := by simp [execMuli]
@[simp] theorem execSeqi_seat (a0) (s) : SeatOut s.seat (execSeqi a0 s) := by simp [execSeqi]
@[simp] theorem execSlti_seat (a0) (s) : SeatOut s.seat (execSlti a0 s) := by simp [execSlti]
@[simp] theorem execSltni_seat (a0) (s) : SeatOut s.seat (execSltni a0 s) := by simp [execSltni]
@[simp] theorem execShli_seat (a0) (s) : SeatOut s.seat (execShli a0 s) := by simp [execShli]
@[simp] theorem execShri_seat (a0) (s) : SeatOut s.seat (execShri a0 s) := by simp [execShri]
@[simp] theorem execSrai_seat (a0) (s) : SeatOut s.seat (execSrai a0 s) := by simp [execSrai]
@[simp] theorem execSeq_seat (a0) (s) : SeatOut s.seat (execSeq a0 s) := by simp [execSeq]
@[simp] theorem execSne_seat (a0) (s) : SeatOut s.seat (execSne a0 s) := by simp [execSne]
@[simp] theorem execSlt_seat (a0) (s) : SeatOut s.seat (execSlt a0 s) := by simp [execSlt]
@[simp] theorem execSltn_seat (a0) (s) : SeatOut s.seat (execSltn a0 s) := by simp [execSltn]
@[simp] theorem execSle_seat (a0) (s) : SeatOut s.seat (execSle a0 s) := by simp [execSle]
@[simp] theorem execSlen_seat (a0) (s) : SeatOut s.seat (execSlen a0 s) := by simp [execSlen]
@[simp] theorem execLi_seat (a0) (s) : SeatOut s.seat (execLi a0 s) := by simp [execLi]
@[simp] theorem execLih_seat (a0) (s) : SeatOut s.seat (execLih a0 s) := by simp [execLih]
@[simp] theorem execLpc_seat (a0) (s) : SeatOut s.seat (execLpc a0 s) := by simp [execLpc]
@[simp] theorem execExt_seat (a0) (s) : SeatOut s.seat (execExt a0 s) := by simp [execExt]
@[simp] theorem execExtn_seat (a0) (s) : SeatOut s.seat (execExtn a0 s) := by simp [execExtn]
@[simp] theorem execIns_seat (a0) (s) : SeatOut s.seat (execIns a0 s) := by simp [execIns]
@[simp] theorem execClz_seat (a0) (s) : SeatOut s.seat (execClz a0 s) := by simp [execClz]
@[simp] theorem execCtz_seat (a0) (s) : SeatOut s.seat (execCtz a0 s) := by simp [execCtz]
@[simp] theorem execPopc_seat (a0) (s) : SeatOut s.seat (execPopc a0 s) := by simp [execPopc]
@[simp] theorem execBswap_seat (a0) (s) : SeatOut s.seat (execBswap a0 s) := by simp [execBswap]
@[simp] theorem execSel_seat (a0) (s) : SeatOut s.seat (execSel a0 s) := by simp [execSel]
@[simp] theorem execLea_seat (a0) (s) : SeatOut s.seat (execLea a0 s) := by simp [execLea]

/-! ## ScalarFloat -/

@[simp] theorem wroteCode_seat (s) (a1) (a2) : SeatOut s.seat (wroteCode s a1 a2) := by simp [wroteCode]
@[simp] theorem execFaddF64_seat (a0) (s) : SeatOut s.seat (execFaddF64 a0 s) := by simp [execFaddF64]
@[simp] theorem execFsubF64_seat (a0) (s) : SeatOut s.seat (execFsubF64 a0 s) := by simp [execFsubF64]
@[simp] theorem execFmulF64_seat (a0) (s) : SeatOut s.seat (execFmulF64 a0 s) := by simp [execFmulF64]
@[simp] theorem execFdivF64_seat (a0) (s) : SeatOut s.seat (execFdivF64 a0 s) := by simp [execFdivF64]
@[simp] theorem execFsqrtF64_seat (a0) (s) : SeatOut s.seat (execFsqrtF64 a0 s) := by simp [execFsqrtF64]
@[simp] theorem execFminF64_seat (a0) (s) : SeatOut s.seat (execFminF64 a0 s) := by simp [execFminF64]
@[simp] theorem execFmaxF64_seat (a0) (s) : SeatOut s.seat (execFmaxF64 a0 s) := by simp [execFmaxF64]
@[simp] theorem execFabsF64_seat (a0) (s) : SeatOut s.seat (execFabsF64 a0 s) := by simp [execFabsF64]
@[simp] theorem execFnegF64_seat (a0) (s) : SeatOut s.seat (execFnegF64 a0 s) := by simp [execFnegF64]
@[simp] theorem execFsgnF64_seat (a0) (s) : SeatOut s.seat (execFsgnF64 a0 s) := by simp [execFsgnF64]
@[simp] theorem execFaddF32_seat (a0) (s) : SeatOut s.seat (execFaddF32 a0 s) := by simp [execFaddF32]
@[simp] theorem execFsubF32_seat (a0) (s) : SeatOut s.seat (execFsubF32 a0 s) := by simp [execFsubF32]
@[simp] theorem execFmulF32_seat (a0) (s) : SeatOut s.seat (execFmulF32 a0 s) := by simp [execFmulF32]
@[simp] theorem execFdivF32_seat (a0) (s) : SeatOut s.seat (execFdivF32 a0 s) := by simp [execFdivF32]
@[simp] theorem execFsqrtF32_seat (a0) (s) : SeatOut s.seat (execFsqrtF32 a0 s) := by simp [execFsqrtF32]
@[simp] theorem execFminF32_seat (a0) (s) : SeatOut s.seat (execFminF32 a0 s) := by simp [execFminF32]
@[simp] theorem execFmaxF32_seat (a0) (s) : SeatOut s.seat (execFmaxF32 a0 s) := by simp [execFmaxF32]
@[simp] theorem execFabsF32_seat (a0) (s) : SeatOut s.seat (execFabsF32 a0 s) := by simp [execFabsF32]
@[simp] theorem execFnegF32_seat (a0) (s) : SeatOut s.seat (execFnegF32 a0 s) := by simp [execFnegF32]
@[simp] theorem execFsgnF32_seat (a0) (s) : SeatOut s.seat (execFsgnF32 a0 s) := by simp [execFsgnF32]
@[simp] theorem execFma_seat (a0) (s) : SeatOut s.seat (execFma a0 s) := by simp [execFma]
@[simp] theorem execFms_seat (a0) (s) : SeatOut s.seat (execFms a0 s) := by simp [execFms]
@[simp] theorem execFnma_seat (a0) (s) : SeatOut s.seat (execFnma a0 s) := by simp [execFnma]
@[simp] theorem execFnms_seat (a0) (s) : SeatOut s.seat (execFnms a0 s) := by simp [execFnms]
@[simp] theorem execFcvt_seat (a0) (s) : SeatOut s.seat (execFcvt a0 s) := by simp [execFcvt]
@[simp] theorem execFcvti_seat (a0) (s) : SeatOut s.seat (execFcvti a0 s) := by simp [execFcvti]
@[simp] theorem execIcvtf_seat (a0) (s) : SeatOut s.seat (execIcvtf a0 s) := by simp [execIcvtf]
@[simp] theorem execFeq_seat (a0) (s) : SeatOut s.seat (execFeq a0 s) := by simp [execFeq]
@[simp] theorem execFlt_seat (a0) (s) : SeatOut s.seat (execFlt a0 s) := by simp [execFlt]
@[simp] theorem execFle_seat (a0) (s) : SeatOut s.seat (execFle a0 s) := by simp [execFle]
@[simp] theorem execFclass_seat (a0) (s) : SeatOut s.seat (execFclass a0 s) := by simp [execFclass]

/-! ## Traps -/

@[simp] theorem trapfTest_seat (s) : ResAll (fun t => t.seat = s.seat) (trapfTest s) := by simp [trapfTest]
@[simp] theorem execTrapf_seat (s) (hs : s.seat.ok) : SeatOut s.seat (execTrapf s) := by simp [execTrapf, hs]
@[simp] theorem execTrapfAll_seat (s) (hs : s.seat.ok) : SeatOut s.seat (execTrapfAll s) := by simp [execTrapfAll, hs]
@[simp] theorem exitProgram_seat (s) : (State.exitProgram s).seat = s.seat := by simp [State.exitProgram]
@[simp] theorem execTrap_seat (a0) (s) (hs : s.seat.ok) : SeatOut s.seat (execTrap a0 s) := by simp [execTrap, hs]
@[simp] theorem execEret_seat (s) (hs : s.seat.ok) : SeatOut s.seat (execEret s) := by simp [execEret, hs]
@[simp] theorem execCtxSaveSoft_seat (a0) (s) (hs : s.seat.ok) : SeatOut s.seat (execCtxSaveSoft a0 s) := by simp [execCtxSaveSoft, hs]
@[simp] theorem saveWaits_seat (s : State) : s.saveWaits.seat = s.seat := by simp [State.saveWaits]
@[simp] theorem execCtxSaveHard_seat (a0) (s) (hs : s.seat.ok) : SeatOut s.seat (execCtxSaveHard a0 s) := by simp [execCtxSaveHard, hs]
@[simp] theorem markCorrupt_seat (s) (hs : s.seat.ok) (a1) : (State.markCorrupt s a1).seat = s.seat := by simp [State.markCorrupt, hs]
@[simp] theorem execCtxLoad_seat (a0) (s) (hs : s.seat.ok) : SeatOut s.seat (execCtxLoad a0 s) := by
  unfold execCtxLoad; dsimp only; split <;> simp [hs]
@[simp] theorem resumeHere_seat (s) : (State.resumeHere s).seat = s.seat := by simp [State.resumeHere]
@[simp] theorem execResume_seat (s) (hs : s.seat.ok) : SeatOut s.seat (execResume s) := by
  unfold execResume; split <;> simp [hs]
@[simp] theorem execYield_seat (s) (hs : s.seat.ok) : SeatOut s.seat (execYield s) := by simp [execYield, hs]
@[simp] theorem execPreemptRequest_seat (s) : SeatOut s.seat (execPreemptRequest s) := by simp [execPreemptRequest]
@[simp] theorem execCycleCompareMatch_seat (s) : SeatOut s.seat (execCycleCompareMatch s) := by simp [execCycleCompareMatch]
@[simp] theorem execInterruptTaken_seat (s) : SeatOut s.seat (execInterruptTaken s) := by
  unfold execInterruptTaken; dsimp only; split <;> simp
@[simp] theorem execEscalatedTaskFault_seat (s) (hs : s.seat.ok) : SeatOut s.seat (execEscalatedTaskFault s) := by
  unfold execEscalatedTaskFault; dsimp only; (repeat' split) <;> simp [hs]
@[simp] theorem execSaveTimeout_seat (a0) (s) (hs : s.seat.ok) : SeatOut s.seat (execSaveTimeout a0 s) := by simp [execSaveTimeout, hs]

/-! ## Vector -/

@[simp] theorem vint_seat (s) (hs : s.seat.ok) (a1) (a2) (a3) : SeatOut s.seat (vint s a1 a2 a3) := by simp [vint, hs]
@[simp] theorem execVadd_seat (a0) (s) (hs : s.seat.ok) : SeatOut s.seat (execVadd a0 s) := by simp [execVadd, hs]
@[simp] theorem execVsub_seat (a0) (s) (hs : s.seat.ok) : SeatOut s.seat (execVsub a0 s) := by simp [execVsub, hs]
@[simp] theorem execVmul_seat (a0) (s) (hs : s.seat.ok) : SeatOut s.seat (execVmul a0 s) := by simp [execVmul, hs]
@[simp] theorem execVmulh_seat (a0) (s) (hs : s.seat.ok) : SeatOut s.seat (execVmulh a0 s) := by simp [execVmulh, hs]
@[simp] theorem execVmin_seat (a0) (s) (hs : s.seat.ok) : SeatOut s.seat (execVmin a0 s) := by simp [execVmin, hs]
@[simp] theorem execVmax_seat (a0) (s) (hs : s.seat.ok) : SeatOut s.seat (execVmax a0 s) := by simp [execVmax, hs]
@[simp] theorem execVabs_seat (a0) (s) (hs : s.seat.ok) : SeatOut s.seat (execVabs a0 s) := by simp [execVabs, hs]
@[simp] theorem execVneg_seat (a0) (s) (hs : s.seat.ok) : SeatOut s.seat (execVneg a0 s) := by simp [execVneg, hs]
@[simp] theorem execVadds_seat (a0) (s) (hs : s.seat.ok) : SeatOut s.seat (execVadds a0 s) := by simp [execVadds, hs]
@[simp] theorem execVsubs_seat (a0) (s) (hs : s.seat.ok) : SeatOut s.seat (execVsubs a0 s) := by simp [execVsubs, hs]
@[simp] theorem vbits_seat (s) (hs : s.seat.ok) (a1) (a2) (a3) : SeatOut s.seat (vbits s a1 a2 a3) := by simp [vbits, hs]
@[simp] theorem execVand_seat (a0) (s) (hs : s.seat.ok) : SeatOut s.seat (execVand a0 s) := by simp [execVand, hs]
@[simp] theorem execVor_seat (a0) (s) (hs : s.seat.ok) : SeatOut s.seat (execVor a0 s) := by simp [execVor, hs]
@[simp] theorem execVxor_seat (a0) (s) (hs : s.seat.ok) : SeatOut s.seat (execVxor a0 s) := by simp [execVxor, hs]
@[simp] theorem execVnot_seat (a0) (s) (hs : s.seat.ok) : SeatOut s.seat (execVnot a0 s) := by simp [execVnot, hs]
@[simp] theorem execVshl_seat (a0) (s) (hs : s.seat.ok) : SeatOut s.seat (execVshl a0 s) := by simp [execVshl, hs]
@[simp] theorem execVshr_seat (a0) (s) (hs : s.seat.ok) : SeatOut s.seat (execVshr a0 s) := by simp [execVshr, hs]
@[simp] theorem execVsra_seat (a0) (s) (hs : s.seat.ok) : SeatOut s.seat (execVsra a0 s) := by simp [execVsra, hs]
@[simp] theorem execVmov_seat (a0) (s) (hs : s.seat.ok) : SeatOut s.seat (execVmov a0 s) := by simp [execVmov, hs]
@[simp] theorem execVsel_seat (a0) (s) (hs : s.seat.ok) : SeatOut s.seat (execVsel a0 s) := by
  unfold execVsel; dsimp only; refine vissue_seat _ _ _ _ rfl hs (fun _ => ?_); simp
@[simp] theorem vfloat_seat (s) (hs : s.seat.ok) (a1) (a2) (a3) (a4) : SeatOut s.seat (vfloat s a1 a2 a3 a4) := by simp [vfloat, hs]
@[simp] theorem execVfadd_seat (a0) (s) (hs : s.seat.ok) : SeatOut s.seat (execVfadd a0 s) := by simp [execVfadd, hs]
@[simp] theorem execVfsub_seat (a0) (s) (hs : s.seat.ok) : SeatOut s.seat (execVfsub a0 s) := by simp [execVfsub, hs]
@[simp] theorem execVfmul_seat (a0) (s) (hs : s.seat.ok) : SeatOut s.seat (execVfmul a0 s) := by simp [execVfmul, hs]
@[simp] theorem execVfma_seat (a0) (s) (hs : s.seat.ok) : SeatOut s.seat (execVfma a0 s) := by simp [execVfma, hs]
@[simp] theorem execVfms_seat (a0) (s) (hs : s.seat.ok) : SeatOut s.seat (execVfms a0 s) := by simp [execVfms, hs]
@[simp] theorem execVfnma_seat (a0) (s) (hs : s.seat.ok) : SeatOut s.seat (execVfnma a0 s) := by simp [execVfnma, hs]
@[simp] theorem execVfmin_seat (a0) (s) (hs : s.seat.ok) : SeatOut s.seat (execVfmin a0 s) := by simp [execVfmin, hs]
@[simp] theorem execVfmax_seat (a0) (s) (hs : s.seat.ok) : SeatOut s.seat (execVfmax a0 s) := by simp [execVfmax, hs]
@[simp] theorem execVfabs_seat (a0) (s) (hs : s.seat.ok) : SeatOut s.seat (execVfabs a0 s) := by simp [execVfabs, hs]
@[simp] theorem execVfneg_seat (a0) (s) (hs : s.seat.ok) : SeatOut s.seat (execVfneg a0 s) := by simp [execVfneg, hs]
@[simp] theorem execVdiv_seat (a0) (s) (hs : s.seat.ok) : SeatOut s.seat (execVdiv a0 s) := by simp [execVdiv, hs]
@[simp] theorem execVsqrt_seat (a0) (s) (hs : s.seat.ok) : SeatOut s.seat (execVsqrt a0 s) := by simp [execVsqrt, hs]
@[simp] theorem execVrcp_seat (a0) (s) (hs : s.seat.ok) : SeatOut s.seat (execVrcp a0 s) := by simp [execVrcp, hs]
@[simp] theorem execVrsq_seat (a0) (s) (hs : s.seat.ok) : SeatOut s.seat (execVrsq a0 s) := by simp [execVrsq, hs]
@[simp] theorem execVexp2_seat (a0) (s) (hs : s.seat.ok) : SeatOut s.seat (execVexp2 a0 s) := by simp [execVexp2, hs]
@[simp] theorem execVlog2_seat (a0) (s) (hs : s.seat.ok) : SeatOut s.seat (execVlog2 a0 s) := by simp [execVlog2, hs]
@[simp] theorem vcompare_seat (s) (hs : s.seat.ok) (a1) (a2) (a3) : SeatOut s.seat (vcompare s a1 a2 a3) := by
  unfold vcompare; dsimp only; refine vissue_seat _ _ _ _ rfl hs (fun _ => ?_); (repeat' split) <;> simp
@[simp] theorem execVcmp_seat (a0) (s) (hs : s.seat.ok) : SeatOut s.seat (execVcmp a0 s) := by simp [execVcmp, hs]
@[simp] theorem execVfcmp_seat (a0) (s) (hs : s.seat.ok) : SeatOut s.seat (execVfcmp a0 s) := by simp [execVfcmp, hs]
@[simp] theorem execVclass_seat (a0) (s) (hs : s.seat.ok) : SeatOut s.seat (execVclass a0 s) := by simp [execVclass, hs]
@[simp] theorem vpred_seat (s) (hs : s.seat.ok) (a1) (a2) (a3) : SeatOut s.seat (vpred s a1 a2 a3) := by
  unfold vpred; dsimp only; refine vissue_seat _ _ _ _ rfl hs (fun _ => ?_); simp
@[simp] theorem execKand_seat (a0) (s) (hs : s.seat.ok) : SeatOut s.seat (execKand a0 s) := by simp [execKand, hs]
@[simp] theorem execKor_seat (a0) (s) (hs : s.seat.ok) : SeatOut s.seat (execKor a0 s) := by simp [execKor, hs]
@[simp] theorem execKxor_seat (a0) (s) (hs : s.seat.ok) : SeatOut s.seat (execKxor a0 s) := by simp [execKxor, hs]
@[simp] theorem execKnot_seat (a0) (s) (hs : s.seat.ok) : SeatOut s.seat (execKnot a0 s) := by simp [execKnot, hs]
@[simp] theorem execKmov_seat (a0) (s) (hs : s.seat.ok) : SeatOut s.seat (execKmov a0 s) := by simp [execKmov, hs]
@[simp] theorem execKpop_seat (a0) (s) (hs : s.seat.ok) : SeatOut s.seat (execKpop a0 s) := vissue_seat_self _ _ _ hs fun _ => rfl
@[simp] theorem execKfirst_seat (a0) (s) (hs : s.seat.ok) : SeatOut s.seat (execKfirst a0 s) := vissue_seat_self _ _ _ hs fun _ => rfl

/-! ## VectorMove -/

@[simp] theorem execVcvt_seat (a0) (s) (hs : s.seat.ok) : SeatOut s.seat (execVcvt a0 s) := by simp [execVcvt, hs]
@[simp] theorem vrowOp_seat (s) (hs : s.seat.ok) (a1) (a2) (a3) : SeatOut s.seat (vrowOp s a1 a2 a3) := by
  unfold vrowOp; dsimp only; refine vissue_seat _ _ _ _ rfl hs (fun _ => ?_); (repeat' split) <;> simp
@[simp] theorem execVqmx_seat (a0) (s) (hs : s.seat.ok) : SeatOut s.seat (execVqmx a0 s) := by simp [execVqmx, hs]
@[simp] theorem execVdqmx_seat (a0) (s) (hs : s.seat.ok) : SeatOut s.seat (execVdqmx a0 s) := by simp [execVdqmx, hs]
@[simp] theorem vlanes_seat (s) (hs : s.seat.ok) (a1) (a2) (a3) : SeatOut s.seat (vlanes s a1 a2 a3) := by
  unfold vlanes; dsimp only; refine vissue_seat _ _ _ _ rfl hs (fun _ => ?_); (repeat' split) <;> simp
@[simp] theorem execVrotR_seat (a0) (s) (hs : s.seat.ok) : SeatOut s.seat (execVrotR a0 s) := by simp [execVrotR, hs]
@[simp] theorem execVrotC_seat (a0) (s) (hs : s.seat.ok) : SeatOut s.seat (execVrotC a0 s) := by simp [execVrotC, hs]
@[simp] theorem execVbcR_seat (a0) (s) (hs : s.seat.ok) : SeatOut s.seat (execVbcR a0 s) := by simp [execVbcR, hs]
@[simp] theorem execVbcC_seat (a0) (s) (hs : s.seat.ok) : SeatOut s.seat (execVbcC a0 s) := by simp [execVbcC, hs]
@[simp] theorem vreduce_seat (s) (hs : s.seat.ok) (a1) (a2) (a3) (a4) (a5) : SeatOut s.seat (vreduce s a1 a2 a3 a4 a5) := by simp [vreduce, hs]
@[simp] theorem execVredR_seat (a0) (s) (hs : s.seat.ok) : SeatOut s.seat (execVredR a0 s) := by simp [execVredR, hs]
@[simp] theorem execVredC_seat (a0) (s) (hs : s.seat.ok) : SeatOut s.seat (execVredC a0 s) := by simp [execVredC, hs]
@[simp] theorem execVhad32_seat (a0) (s) (hs : s.seat.ok) : SeatOut s.seat (execVhad32 a0 s) := by simp [execVhad32, hs]

/-! ## VectorBreeze -/

@[simp] theorem execVrand_seat (a0) (s) (hs : s.seat.ok) : SeatOut s.seat (execVrand a0 s) := by simp [execVrand, hs]
@[simp] theorem execVsplat_seat (a0) (s) (hs : s.seat.ok) : SeatOut s.seat (execVsplat a0 s) := by simp [execVsplat, hs]
@[simp] theorem execVsplatPop_seat (a0) (s) (hs : s.seat.ok) : SeatOut s.seat (execVsplatPop a0 s) := by
  unfold execVsplatPop; dsimp only; refine vissue_seat _ _ _ _ rfl hs (fun _ => ?_); (repeat' split) <;> simp
@[simp] theorem execVsplatPush_seat (a0) (s) (hs : s.seat.ok) : SeatOut s.seat (execVsplatPush a0 s) := by
  unfold execVsplatPush; dsimp only; refine vissue_seat _ _ _ _ rfl hs (fun _ => ?_); (repeat' split) <;> simp
@[simp] theorem execSksv_seat (a0) (s) (hs : s.seat.ok) : SeatOut s.seat (execSksv a0 s) := by
  unfold execSksv
  dsimp only
  split
  · exact vissue_seat _ _ _ _ rfl hs (fun _ => rfl)
  · refine vissue_seat _ _ _ _ rfl hs (fun _ => ?_)
    generalize groups 32 = g
    (repeat' split) <;> simp

/-! ## VectorMem -/

@[simp] theorem vload_seat (s) (hs : s.seat.ok) (a1) (a2) (a3) (a4) : SeatOut s.seat (vload s a1 a2 a3 a4) := by
  unfold vload; dsimp only; refine vissue_seat _ _ _ _ rfl hs (fun _ => ?_); (repeat' split) <;> simp
@[simp] theorem vsend_seat (s t n m k ws) : VRes.seated s.seat (vsend s t n m k ws) := by
  induction ws generalizing s k with
  | nil => simp [vsend]
  | cons w ws ih =>
    unfold vsend
    split
    · simp
    · have := ih (s.taskWindowWrite s.core.id t n m w false) (k + 1)
      rwa [taskWindowWrite_seat] at this
@[simp] theorem vstore_seat (s) (hs : s.seat.ok) (a1) (a2) (a3) (a4) (a5) : SeatOut s.seat (vstore s a1 a2 a3 a4 a5) := by
  unfold vstore
  dsimp only
  refine vissue_seat _ _ _ _ rfl hs (fun _ => ?_)
  split
  · exact rfl
  · split
    · exact trivial
    · exact rfl
    · split
      · split
        · exact rfl
        · exact vsend_seat ..
      · exact rfl
@[simp] theorem execVld_seat (a0) (s) (hs : s.seat.ok) : SeatOut s.seat (execVld a0 s) := by simp [execVld, hs]
@[simp] theorem execVst_seat (a0) (s) (hs : s.seat.ok) : SeatOut s.seat (execVst a0 s) := by simp [execVst, hs]
@[simp] theorem execVgather_seat (a0) (s) (hs : s.seat.ok) : SeatOut s.seat (execVgather a0 s) := by simp [execVgather, hs]
@[simp] theorem execVscatter_seat (a0) (s) (hs : s.seat.ok) : SeatOut s.seat (execVscatter a0 s) := by simp [execVscatter, hs]

end Sys2Proof.Machine
end
section
/-! SUPPORT. O58: every instruction and event keeps the place of the acting core, or ends everything that runs. -/

namespace Sys2Proof.Machine

/-- A start gives every die its values and leaves the place. -/
@[simp] theorem started_seat (s) (b) (es) (lanes) (sh) : (State.started s b es lanes sh).seat = s.seat := by
  unfold State.started
  dsimp only
  rw [startLinks_seat, foldl_seat_any fun _ _ => updDie_seat _ _ _ rfl]
  rfl
@[simp] theorem execPowerOn_seat (b) (s) : SeatOut s.seat (execPowerOn b s) := by
  unfold execPowerOn; dsimp only; (repeat' split) <;> simp
@[simp] theorem execAntiRollbackUpdate_seat (v) (s) : SeatOut s.seat (execAntiRollbackUpdate v s) := by
  unfold execAntiRollbackUpdate; split <;> simp
@[simp] theorem execAttestationRequest_seat (n) (s) : SeatOut s.seat (execAttestationRequest n s) := by
  unfold execAttestationRequest; simp

/-- The events that end everything that runs. -/
def losesPower (i : Instr) : Bool := match i with
  | .moduleReset => true
  | .powerLoss => true
  | .thermalShutdown _ => true
  | _ => false

/-- Every other instruction and event keeps the place. -/
theorem exec_seat (i : Instr) (s : State) (hs : s.seat.ok) (h : losesPower i = false) : SeatOut s.seat (exec i s) :=
  match i with
  | .nop => execNop_seat s hs
  | .add o => execAdd_seat o s
  | .sub o => execSub_seat o s
  | .mul o => execMul_seat o s
  | .mulh o => execMulh_seat o s
  | .mulhn o => execMulhn_seat o s
  | .div o => execDiv_seat o s
  | .divn o => execDivn_seat o s
  | .rem o => execRem_seat o s
  | .remn o => execRemn_seat o s
  | .and o => execAnd_seat o s
  | .or o => execOr_seat o s
  | .xor o => execXor_seat o s
  | .andn o => execAndn_seat o s
  | .shl o => execShl_seat o s
  | .shr o => execShr_seat o s
  | .sra o => execSra_seat o s
  | .rol o => execRol_seat o s
  | .ror o => execRor_seat o s
  | .min o => execMin_seat o s
  | .max o => execMax_seat o s
  | .minn o => execMinn_seat o s
  | .maxn o => execMaxn_seat o s
  | .addo o => execAddo_seat o s
  | .subo o => execSubo_seat o s
  | .addi o => execAddi_seat o s
  | .andi o => execAndi_seat o s
  | .ori o => execOri_seat o s
  | .xori o => execXori_seat o s
  | .shli o => execShli_seat o s
  | .shri o => execShri_seat o s
  | .srai o => execSrai_seat o s
  | .muli o => execMuli_seat o s
  | .li o => execLi_seat o s
  | .lih o => execLih_seat o s
  | .lpc o => execLpc_seat o s
  | .ext o => execExt_seat o s
  | .extn o => execExtn_seat o s
  | .ins o => execIns_seat o s
  | .clz o => execClz_seat o s
  | .ctz o => execCtz_seat o s
  | .popc o => execPopc_seat o s
  | .bswap o => execBswap_seat o s
  | .seq o => execSeq_seat o s
  | .sne o => execSne_seat o s
  | .slt o => execSlt_seat o s
  | .sltn o => execSltn_seat o s
  | .sle o => execSle_seat o s
  | .slen o => execSlen_seat o s
  | .sel o => execSel_seat o s
  | .seqi o => execSeqi_seat o s
  | .slti o => execSlti_seat o s
  | .sltni o => execSltni_seat o s
  | .lea o => execLea_seat o s
  | .faddF64 o => execFaddF64_seat o s
  | .fsubF64 o => execFsubF64_seat o s
  | .fmulF64 o => execFmulF64_seat o s
  | .fdivF64 o => execFdivF64_seat o s
  | .fsqrtF64 o => execFsqrtF64_seat o s
  | .fminF64 o => execFminF64_seat o s
  | .fmaxF64 o => execFmaxF64_seat o s
  | .fabsF64 o => execFabsF64_seat o s
  | .fnegF64 o => execFnegF64_seat o s
  | .fsgnF64 o => execFsgnF64_seat o s
  | .faddF32 o => execFaddF32_seat o s
  | .fsubF32 o => execFsubF32_seat o s
  | .fmulF32 o => execFmulF32_seat o s
  | .fdivF32 o => execFdivF32_seat o s
  | .fsqrtF32 o => execFsqrtF32_seat o s
  | .fminF32 o => execFminF32_seat o s
  | .fmaxF32 o => execFmaxF32_seat o s
  | .fabsF32 o => execFabsF32_seat o s
  | .fnegF32 o => execFnegF32_seat o s
  | .fsgnF32 o => execFsgnF32_seat o s
  | .fma o => execFma_seat o s
  | .fms o => execFms_seat o s
  | .fnma o => execFnma_seat o s
  | .fnms o => execFnms_seat o s
  | .fcvt o => execFcvt_seat o s
  | .fcvti o => execFcvti_seat o s
  | .icvtf o => execIcvtf_seat o s
  | .feq o => execFeq_seat o s
  | .flt o => execFlt_seat o s
  | .fle o => execFle_seat o s
  | .fclass o => execFclass_seat o s
  | .beq o => execBeq_seat o s
  | .bne o => execBne_seat o s
  | .blt o => execBlt_seat o s
  | .bge o => execBge_seat o s
  | .bltn o => execBltn_seat o s
  | .bgen o => execBgen_seat o s
  | .jal o => execJal_seat o s
  | .jalr o => execJalr_seat o s hs
  | .loop o => execLoop_seat o s
  | .ld o => execLd_seat o s hs
  | .st o => execSt_seat o s hs
  | .atomAdd o => execAtomAdd_seat o s hs
  | .atomAnd o => execAtomAnd_seat o s hs
  | .atomOr o => execAtomOr_seat o s hs
  | .atomXor o => execAtomXor_seat o s hs
  | .atomMin o => execAtomMin_seat o s hs
  | .atomMax o => execAtomMax_seat o s hs
  | .atomMinn o => execAtomMinn_seat o s hs
  | .atomMaxn o => execAtomMaxn_seat o s hs
  | .atomSwap o => execAtomSwap_seat o s hs
  | .atomCas o => execAtomCas_seat o s hs
  | .atomIncb o => execAtomIncb_seat o s hs
  | .atomAddHbm o => execAtomAddHbm_seat o s hs
  | .atomAndHbm o => execAtomAndHbm_seat o s hs
  | .atomOrHbm o => execAtomOrHbm_seat o s hs
  | .atomXorHbm o => execAtomXorHbm_seat o s hs
  | .atomMinHbm o => execAtomMinHbm_seat o s hs
  | .atomMaxHbm o => execAtomMaxHbm_seat o s hs
  | .atomMinnHbm o => execAtomMinnHbm_seat o s hs
  | .atomMaxnHbm o => execAtomMaxnHbm_seat o s hs
  | .atomSwapHbm o => execAtomSwapHbm_seat o s hs
  | .atomCasHbm o => execAtomCasHbm_seat o s hs
  | .atomIncbHbm o => execAtomIncbHbm_seat o s hs
  | .claim o => execClaim_seat o s hs
  | .claimHbm o => execClaimHbm_seat o s hs
  | .qPush o => execQPush_seat o s hs
  | .qPop o => execQPop_seat o s hs
  | .qBind o => execQBind_seat o s hs
  | .qCount o => execQCount_seat o s hs
  | .flagAdd o => execFlagAdd_seat o s hs
  | .flagWait o => execFlagWait_seat o s hs
  | .flagRd o => execFlagRd_seat o s hs
  | .flagSet o => execFlagSet_seat o s hs
  | .barArrive o => execBarArrive_seat o s hs
  | .barWait o => execBarWait_seat o s hs
  | .barSync o => execBarSync_seat o s hs
  | .barInit o => execBarInit_seat o s hs
  | .msgSend o => execMsgSend_seat o s hs
  | .msgRecv o => execMsgRecv_seat o s hs
  | .msgPoll o => execMsgPoll_seat o s hs
  | .bufDecl o => execBufDecl_seat o s hs
  | .bufFree o => execBufFree_seat o s hs
  | .bufState o => execBufState_seat o s hs
  | .bufFill o => execBufFill_seat o s hs
  | .bufFull o => execBufFull_seat o s hs
  | .bufDrain o => execBufDrain_seat o s hs
  | .bufEmpty o => execBufEmpty_seat o s hs
  | .bufVer o => execBufVer_seat o s hs
  | .tbNew o => execTbNew_seat o s hs
  | .tbReg o => execTbReg_seat o s hs
  | .tbArg o => execTbArg_seat o s hs
  | .tbFlag o => execTbFlag_seat o s hs
  | .tbTag o => execTbTag_seat o s hs
  | .tbPost o => execTbPost_seat o s hs
  | .tbCancel o => execTbCancel_seat o s hs
  | .twait o => execTwait_seat o s hs
  | .tqState o => execTqState_seat o s hs
  | .tqFree o => execTqFree_seat o s hs
  | .cpBox o => execCpBox_seat o s hs
  | .cpFill o => execCpFill_seat o s hs
  | .cpGather o => execCpGather_seat o s hs
  | .cpScatter o => execCpScatter_seat o s hs
  | .shLoad o => execShLoad_seat o s hs
  | .shUnload o => execShUnload_seat o s hs
  | .palClaim o => execPalClaim_seat o s hs
  | .palRel o => execPalRel_seat o s hs
  | .palOwn o => execPalOwn_seat o s hs
  | .mmaBf16 o => execMmaBf16_seat o s hs
  | .mmaF16 o => execMmaF16_seat o s hs
  | .mmaE4m3 o => execMmaE4m3_seat o s hs
  | .mmaE5m2 o => execMmaE5m2_seat o s hs
  | .mmaI8 o => execMmaI8_seat o s hs
  | .mmaMx4 o => execMmaMx4_seat o s hs
  | .mmaF32 o => execMmaF32_seat o s hs
  | .mmaF64 o => execMmaF64_seat o s hs
  | .mmaZ64 o => execMmaZ64_seat o s hs
  | .accZero o => execAccZero_seat o s hs
  | .accLoad o => execAccLoad_seat o s hs
  | .accDrain o => execAccDrain_seat o s hs
  | .accChk o => execAccChk_seat o s hs
  | .accGive o => execAccGive_seat o s hs
  | .leaseSet o => execLeaseSet_seat o s hs
  | .leaseGet o => execLeaseGet_seat o s hs
  | .winMap o => execWinMap_seat o s hs
  | .winUnmap o => execWinUnmap_seat o s hs
  | .winAllow o => execWinAllow_seat o s hs
  | .winStat o => execWinStat_seat o s hs
  | .rpost o => execRpost_seat o s hs
  | .rflag o => execRflag_seat o s hs
  | .fenceC o => execFenceC_seat o s
  | .fenceG o => execFenceG_seat o s hs
  | .wqPop o => execWqPop_seat o s hs
  | .wqCount o => execWqCount_seat o s hs
  | .sigSub o => execSigSub_seat o s hs
  | .sigRead o => execSigRead_seat o s hs
  | .trapf => execTrapf_seat s hs
  | .trapfAll => execTrapfAll_seat s hs
  | .trap o => execTrap_seat o s hs
  | .eret => execEret_seat s hs
  | .crr o => execCrr_seat o s hs
  | .crw o => execCrw_seat o s hs
  | .crs o => execCrs_seat o s hs
  | .crc o => execCrc_seat o s hs
  | .ctxSaveSoft o => execCtxSaveSoft_seat o s hs
  | .ctxSaveHard o => execCtxSaveHard_seat o s hs
  | .ctxLoad o => execCtxLoad_seat o s hs
  | .resume => execResume_seat s hs
  | .yield => execYield_seat s hs
  | .skBind o => execSkBind_seat o s hs
  | .skUnbind o => execSkUnbind_seat o s hs
  | .skWrite o => execSkWrite_seat o s hs
  | .skInval o => execSkInval_seat o s hs
  | .sks o => execSks_seat o s hs
  | .vadd o => execVadd_seat o s hs
  | .vsub o => execVsub_seat o s hs
  | .vmul o => execVmul_seat o s hs
  | .vmulh o => execVmulh_seat o s hs
  | .vmin o => execVmin_seat o s hs
  | .vmax o => execVmax_seat o s hs
  | .vabs o => execVabs_seat o s hs
  | .vneg o => execVneg_seat o s hs
  | .vadds o => execVadds_seat o s hs
  | .vsubs o => execVsubs_seat o s hs
  | .vand o => execVand_seat o s hs
  | .vor o => execVor_seat o s hs
  | .vxor o => execVxor_seat o s hs
  | .vnot o => execVnot_seat o s hs
  | .vshl o => execVshl_seat o s hs
  | .vshr o => execVshr_seat o s hs
  | .vsra o => execVsra_seat o s hs
  | .vmov o => execVmov_seat o s hs
  | .vsel o => execVsel_seat o s hs
  | .vfadd o => execVfadd_seat o s hs
  | .vfsub o => execVfsub_seat o s hs
  | .vfmul o => execVfmul_seat o s hs
  | .vfma o => execVfma_seat o s hs
  | .vfms o => execVfms_seat o s hs
  | .vfnma o => execVfnma_seat o s hs
  | .vfmin o => execVfmin_seat o s hs
  | .vfmax o => execVfmax_seat o s hs
  | .vfabs o => execVfabs_seat o s hs
  | .vfneg o => execVfneg_seat o s hs
  | .vdiv o => execVdiv_seat o s hs
  | .vsqrt o => execVsqrt_seat o s hs
  | .vrcp o => execVrcp_seat o s hs
  | .vrsq o => execVrsq_seat o s hs
  | .vexp2 o => execVexp2_seat o s hs
  | .vlog2 o => execVlog2_seat o s hs
  | .vcmp o => execVcmp_seat o s hs
  | .vfcmp o => execVfcmp_seat o s hs
  | .vclass o => execVclass_seat o s hs
  | .kand o => execKand_seat o s hs
  | .kor o => execKor_seat o s hs
  | .kxor o => execKxor_seat o s hs
  | .knot o => execKnot_seat o s hs
  | .kmov o => execKmov_seat o s hs
  | .kpop o => execKpop_seat o s hs
  | .kfirst o => execKfirst_seat o s hs
  | .vcvt o => execVcvt_seat o s hs
  | .vqmx o => execVqmx_seat o s hs
  | .vdqmx o => execVdqmx_seat o s hs
  | .vrotR o => execVrotR_seat o s hs
  | .vrotC o => execVrotC_seat o s hs
  | .vbcR o => execVbcR_seat o s hs
  | .vbcC o => execVbcC_seat o s hs
  | .vredR o => execVredR_seat o s hs
  | .vredC o => execVredC_seat o s hs
  | .vhad32 o => execVhad32_seat o s hs
  | .vld o => execVld_seat o s hs
  | .vst o => execVst_seat o s hs
  | .vgather o => execVgather_seat o s hs
  | .vscatter o => execVscatter_seat o s hs
  | .vrand o => execVrand_seat o s hs
  | .vsplat o => execVsplat_seat o s hs
  | .vsplatPop o => execVsplatPop_seat o s hs
  | .vsplatPush o => execVsplatPush_seat o s hs
  | .sksv o => execSksv_seat o s hs
  | .crFpstatWrite v taskFlags => execCrFpstatWrite_seat v taskFlags s
  | .crCpolWrite v => execCrCpolWrite_seat v s
  | .crTflogWrite v => execCrTflogWrite_seat v s
  | .crStatusWrite v => execCrStatusWrite_seat v s
  | .crCyccmpWrite v => execCrCyccmpWrite_seat v s
  | .crFmapWrite n v => execCrFmapWrite_seat n v s
  | .sketchReload block => execSketchReload_seat block s
  | .vectorResultLand => execVectorResultLand_seat s
  | .kernelIterationBoundary => execKernelIterationBoundary_seat s
  | .holdRelease => execHoldRelease_seat s
  | .stalledInstructionResume => execStalledInstructionResume_seat s
  | .taskDispatch e => execTaskDispatch_seat e s hs
  | .copyChunk n => execCopyChunk_seat n s hs
  | .taskComplete e => execTaskComplete_seat e s hs
  | .canvasLeaseGrant => execCanvasLeaseGrant_seat s
  | .leaseEnd => execLeaseEnd_seat s
  | .canvasCold => execCanvasCold_seat s
  | .gustTokenTake => execGustTokenTake_seat s
  | .rampWindowEnd => execRampWindowEnd_seat s
  | .gustTokenAdvance => execGustTokenAdvance_seat s
  | .preemptRequest => execPreemptRequest_seat s
  | .cycleCompareMatch => execCycleCompareMatch_seat s
  | .interruptTaken => execInterruptTaken_seat s
  | .escalatedTaskFault => execEscalatedTaskFault_seat s hs
  | .saveTimeout d => execSaveTimeout_seat d s hs
  | .write p => execWrite_seat p s
  | .atomic p => execAtomic_seat p s
  | .flag p => execFlag_seat p s
  | .msg p => execMsg_seat p s
  | .post p => execPost_seat p s
  | .cancel p => execCancel_seat p s
  | .hbm p => execHbm_seat p s
  | .ack r => execAck_seat r s
  | .deny r => execDeny_seat r s hs
  | .reply r => execReply_seat r s hs
  | .retry r => execRetry_seat r s
  | .packetResend uid => execPacketResend_seat uid s
  | .retriedPacketResend uid => execRetriedPacketResend_seat uid s hs
  | .packetHop die p resp => execPacketHop_seat die p resp s
  | .flitReplay die p flit => execFlitReplay_seat die p flit s
  | .laneFailure die p lane => execLaneFailure_seat die p lane s
  | .remap die p lane flit => execRemap_seat die p lane flit s
  | .ackremap die p lane flit => execAckremap_seat die p lane flit s
  | .detectorThreshold die p resp => execDetectorThreshold_seat die p resp s
  | .zephyrTokenArrival die gen => execZephyrTokenArrival_seat die gen s
  | .tokenPass die => execTokenPass_seat die s
  | .leeDelivery die f => execLeeDelivery_seat die f s
  | .leeAcknowledgement die => execLeeAcknowledgement_seat die s
  | .tokenRegeneration => execTokenRegeneration_seat s
  | .notify fn q w => execNotify_seat fn q w s
  | .mbxCtl fn v => execMbxCtl_seat fn v s
  | .mailboxWrite fn off bytes => execMailboxWrite_seat fn off bytes s
  | .mailboxRead fn off len => execMailboxRead_seat fn off len s
  | .queueEnable fn q => execQueueEnable_seat fn q s
  | .queuePause fn q => execQueuePause_seat fn q s
  | .queueReset fn q => execQueueReset_seat fn q s
  | .registerWrite fn off v => execRegisterWrite_seat fn off v s
  | .packetFetch fn q => execPacketFetch_seat fn q s
  | .packetRefetch fn q => execPacketRefetch_seat fn q s
  | .launch fn q idx => execLaunch_seat fn q idx s hs
  | .feed fn q idx => execFeed_seat fn q idx s
  | .signal fn q idx => execSignal_seat fn q idx s
  | .barrierAnd fn q idx => execBarrierAnd_seat fn q idx s
  | .copy fn q idx => execCopy_seat fn q idx s
  | .packetComplete fn q idx => execPacketComplete_seat fn q idx s
  | .signalSubtract => execSignalSubtract_seat s
  | .endOfJobFence ctx => execEndOfJobFence_seat ctx s
  | .quantumExpiry => execQuantumExpiry_seat s
  | .hostReadErrorCompletion fn iova len e => execHostReadErrorCompletion_seat fn iova len e s
  | .completionTimeout fn iova len => execCompletionTimeout_seat fn iova len s
  | .setQn fn n => execSetQn_seat fn n s
  | .keyDelivery ct ctx w tag => execKeyDelivery_seat ct ctx w tag s
  | .attestationRequest n => execAttestationRequest_seat n s
  | .antiRollbackUpdate v => execAntiRollbackUpdate_seat v s
  | .moduleReset => by cases h
  | .powerOn b => execPowerOn_seat b s
  | .thermalHold die => execThermalHold_seat die s
  | .thermalSingleToken die => execThermalSingleToken_seat die s
  | .thermalShutdown _ => by cases h
  | .patrolScrub unit found => execPatrolScrub_seat unit found s
  | .exitFromHold die => execExitFromHold_seat die s
  | .powerLoss => by cases h
  | .leeRouteReplacement => execLeeRouteReplacement_seat s
  | .functionEnable fn => execFunctionEnable_seat fn s
  | .functionSettings fn cfg => execFunctionSettings_seat fn cfg s
  | .unexpectedCompletion fn iova len => execUnexpectedCompletion_seat fn iova len s

end Sys2Proof.Machine
end
section
/-! SUPPORT. O58: every step leaves the acting core in its own place. -/

namespace Sys2Proof.Machine

/-- An outcome that is a next state has its acting core in its own place. -/
def OkOut (o : Out) : Prop := ∀ t, o = .next t → t.seat.ok

theorem SeatOut.okOut {s : State} {o : Out} (h : SeatOut s.seat o) (hs : s.seat.ok) : OkOut o := fun t e => seat_ok_of_eq (h.1 t e) hs
theorem okOut_next {t : State} (h : t.seat.ok) : OkOut (.next t) := fun _ e => by cases e; exact h
theorem okOut_absent (e : String) : OkOut (absent e) := fun _ h => by simp [absent] at h
/-- Without power the core of reset acts, in its place. -/
theorem dark_ok (s : State) : s.dark.seat.ok := rfl
theorem losesPower_cases {i : Instr} (h : losesPower i = true) : i = .moduleReset ∨ i = .powerLoss ∨ ∃ d, i = .thermalShutdown d := by
  unfold losesPower at h
  split at h
  · exact .inl rfl
  · exact .inr (.inl rfl)
  · exact .inr (.inr ⟨_, rfl⟩)
  · cases h
/-- What any instruction or event does to the place. -/
theorem exec_ok (i : Instr) (s : State) (hs : s.seat.ok) : OkOut (exec i s) := by
  have dark : ∀ (p : Prop) [Decidable p] (e : String), OkOut (if p then .next s.dark else absent e) := fun p _ e => by
    split
    · exact okOut_next (dark_ok s)
    · exact okOut_absent e
  by_cases hi : losesPower i = true
  · obtain rfl | rfl | ⟨d, rfl⟩ := losesPower_cases hi
    · exact dark _ _
    · exact dark _ _
    · exact dark _ _
  · exact (exec_seat i s hs (Bool.eq_false_iff.2 hi)).okOut hs

section
variable {s : State} (hs : s.seat.ok)
include hs

theorem runTurn_ok : OkOut (runTurn s) := by
  unfold runTurn
  split
  · exact (sksCommit_seat s hs _).okOut hs
  · exact exec_ok _ s hs
  · split
    · exact okOut_next (seat_ok_of_eq (takeFault_seat s hs _) hs)
    · exact okOut_next (seat_ok_of_eq (stalled_seat s _) hs)
    · split
      · exact okOut_next (seat_ok_of_eq (takeFault_seat s hs _) hs)
      · exact exec_ok _ s hs
theorem coreTurn_ok : OkOut (coreTurn s) := by
  unfold coreTurn
  dsimp only
  split
  · exact exec_ok _ s hs
  · split
    · exact exec_ok _ s hs
    · split
      · exact okOut_next hs
      · split
        · exact exec_ok _ s hs
        · split
          · exact runTurn_ok hs
          · exact okOut_next hs
theorem vectorTurn_ok : OkOut (vectorTurn s) := by
  unfold vectorTurn
  split
  · exact okOut_next hs
  · split
    · exact exec_ok _ s hs
    · exact exec_ok _ s hs
    · exact exec_ok _ s hs
    · exact okOut_next hs
    · split
      · exact okOut_next hs
      · exact exec_ok _ s hs
theorem agendaTurn_ok : OkOut (agendaTurn s) := by
  unfold agendaTurn
  dsimp only
  split
  · split
    · exact exec_ok _ s hs
    · exact okOut_next hs
  · split
    · exact exec_ok _ s hs
    · exact exec_ok _ _ hs
theorem move_ok : OkOut (move s) := by
  unfold move
  split
  · exact coreTurn_ok hs
  · exact vectorTurn_ok hs
  · exact agendaTurn_ok hs
  · exact okOut_next (seat_ok_of_eq (nextUpset_seat s) hs)
  · exact okOut_next (seat_ok_of_eq (sendHost_seat s) hs)
  · split
    · next id _ => exact okOut_next ((actAs_seat s id hs).symm ▸ seat_of_ok id)
    · exact okOut_next hs
theorem darkMove_ok : OkOut (darkMove s) := by
  unfold darkMove
  split
  · exact exec_ok _ _ hs
  · exact fun t e => by cases e
/-- A request that no firmware serves leaves the place. -/
theorem unserved_ok {i : Instr} {t : State} (h : s.unserved i = some t) : t.seat.ok := by
  unfold State.unserved at h
  split at h
  · cases h; exact hs
  · split at h
    · split at h <;> cases h
      exact hs
    · cases h
theorem failedMove_ok : OkOut (failedMove s) := by
  unfold failedMove
  dsimp only
  split
  · exact okOut_next hs
  · next e rest _ =>
    have hs' : ({ s with sched := { s.sched with events := rest } } : State).seat.ok := hs
    split
    · next hu => exact okOut_next (unserved_ok hs' hu)
    · exact exec_ok _ _ hs'
/-- Every step leaves the acting core in its own place. -/
theorem step_ok {t : State} (h : step s = .next t) : t.seat.ok := by
  have go : OkOut (if !s.boot.powered then darkMove s else if s.boot.failed.isSome then failedMove s else move s) := by
    split
    · exact darkMove_ok hs
    · split
      · exact failedMove_ok hs
      · exact move_ok hs
  unfold step at h
  dsimp only at h
  split at h
  · next u hu => cases h; exact go u hu
  · cases h
  · cases h
end

end Sys2Proof.Machine

namespace Sys2Proof
open Sys2Proof.Machine

/-- Settles O58: the acting core's place is its own exactly when the state is placed, and every step leaves it so (`step_ok`). -/
theorem coreStaysPlaced : Obligations.CoreStaysPlaced := fun s t hs h => (placed_iff t).2 (step_ok ((placed_iff s).1 hs) h)

end Sys2Proof
end

section
/-! SUPPORT. O4: what the exact operations give for NaNs, infinities and zeros, and what rounding makes of it (R27, R28, R30, R151). -/

namespace Sys2Proof.Machine

/-! ## Endings and conditions -/

/-- A floating-point result is written with its conditions, and the next word is next (R141, R150). -/
theorem wroteCode_eq (s : State) (d : Reg) (p : Nat × Sticky) : wroteCode s d p = .next (s.afterFlags d (BitVec.ofNat 64 p.1) p.2) :=
  wroteSticky_eq s d _ p.2
/-- The invalid condition of two operands: one of them is a signalling NaN (R28). -/
theorem stickyIf_snan (x y : FVal) : stickyIf (x.isSnan || y.isSnan) NV = if x.isSnan = true ∨ y.isSnan = true then (1 : BitVec 7) else 0 := by
  simp only [stickyIf, Bool.or_eq_true, NV]

/-! ## Kinds of values -/

@[simp] theorem FVal.neg_isNan (x : FVal) : x.neg.isNan = x.isNan := by cases x <;> rfl
@[simp] theorem FVal.neg_isSnan (x : FVal) : x.neg.isSnan = x.isSnan := by cases x <;> rfl
theorem FVal.eq_nan {x : FVal} (h : x.isNan = true) : ∃ q, x = .nan q := by
  cases x with
  | nan q => exact ⟨q, rfl⟩
  | inf n => cases h
  | fin n m e st => cases h
theorem FVal.eq_inf {x : FVal} (h : x.isInf = true) : x = .inf x.sign := by
  cases x with
  | nan q => cases h
  | inf n => rfl
  | fin n m e st => cases h
theorem FVal.eq_zero {x : FVal} (h : x.isZero = true) : ∃ n e, x = .fin n 0 e false := by
  cases x with
  | nan q => cases h
  | inf n => cases h
  | fin n m e st =>
    obtain ⟨rfl, rfl⟩ : m = 0 ∧ st = false := by simpa [FVal.isZero] using h
    exact ⟨n, e, rfl⟩

/-! ## Rounding of what is no finite number -/

/-- A NaN is delivered as the canonical one, with the conditions of the operation (R27). -/
theorem finish_nan {f : FloatFmt} (hf : f ≠ .e2m1) (r : Rounding) (fl : Sticky) : finish f r (.nan false, fl) = (f.nan, fl) := by
  simp [finish, fround, hf, stickyIf]
/-- An infinity is delivered as such where the format has one. -/
theorem finish_inf {f : FloatFmt} {c : Nat} (hc : f.infCode = some c) (r : Rounding) (n : Bool) (fl : Sticky) :
    finish f r (.inf n, fl) = ((if n then f.signBit else 0) + c, fl) := by
  have hf : f ≠ .e2m1 := by rintro rfl; cases hc
  simp [finish, fround, hf, hc]

/-! ## NaN operands (R28) -/

section
variable {x y : FVal} (h : x.isNan = true ∨ y.isNan = true)
include h

theorem fsum_nan (r : Rounding) : fsum r [x, y] = (.nan false, stickyIf (x.isSnan || y.isSnan) NV) := by
  simp [fsum, h]
theorem fprod_nan : fprod x y = (.nan false, stickyIf (x.isSnan || y.isSnan) NV) := by
  have hx : ¬ (x.isInf = true ∧ y.isZero = true ∨ y.isInf = true ∧ x.isZero = true) := by
    rcases h with h | h <;> obtain ⟨q, rfl⟩ := FVal.eq_nan h <;> simp [FVal.isInf, FVal.isZero]
  simp [fprod, h, hx]
theorem fquot_nan : fquot x y = (.nan false, stickyIf (x.isSnan || y.isSnan) NV) := by
  simp [fquot, h]
end

/-! ## Invalid operations and the division by zero (R28) -/

theorem fsum_inf_opposite (r : Rounding) (n : Bool) : fsum r [.inf n, .inf !n] = (.nan false, NV) := by
  cases n <;> rfl
theorem fprod_inf_zero {x y : FVal} (h : x.isInf = true ∧ y.isZero = true ∨ x.isZero = true ∧ y.isInf = true) : fprod x y = (.nan false, NV) := by
  have : (x.isInf && y.isZero || y.isInf && x.isZero) = true := by rcases h with ⟨h, k⟩ | ⟨h, k⟩ <;> simp [h, k]
  simp only [fprod, this, ↓reduceIte]
theorem fquot_inf_inf (n k : Bool) : fquot (.inf n) (.inf k) = (.nan false, NV) := rfl
theorem fquot_zero_zero (n k : Bool) (e z : Int) : fquot (.fin n 0 e false) (.fin k 0 z false) = (.nan false, NV) := rfl
theorem fquot_by_zero (n k : Bool) (m : Nat) (e z : Int) : fquot (.fin n (m + 1) e false) (.fin k 0 z false) = (.inf (n != k), DZ) := rfl
theorem fsqrtVal_negative (m : Nat) (e : Int) : fsqrtVal (.fin true (m + 1) e false) = (.nan false, NV) := rfl

/-! ## The instructions of a format -/

/-- The statement of one format, for instructions that write the rounded code of their operation. -/
theorem floatArithmetic_of {f : FloatFmt} {add sub mul div : OpF3 → Instr} {sqrt : OpF2 → Instr} (hf : f ≠ .e2m1)
    (hadd : ∀ o s, exec (add o) s = wroteCode s o.d (faddCode f (s.rounding o.rm) (s.fsrc f o.a) (s.fsrc f o.b)))
    (hsub : ∀ o s, exec (sub o) s = wroteCode s o.d (fsubCode f (s.rounding o.rm) (s.fsrc f o.a) (s.fsrc f o.b)))
    (hmul : ∀ o s, exec (mul o) s = wroteCode s o.d (fmulCode f (s.rounding o.rm) (s.fsrc f o.a) (s.fsrc f o.b)))
    (hdiv : ∀ o s, exec (div o) s = wroteCode s o.d (fdivCode f (s.rounding o.rm) (s.fsrc f o.a) (s.fsrc f o.b)))
    (hsqrt : ∀ o s, exec (sqrt o) s = wroteCode s o.d (fsqrtCode f (s.rounding o.rm) (s.fsrc f o.a))) :
    floatArithmetic f add sub mul div sqrt := by
  refine ⟨fun s o => ?_, fun s o => ?_⟩
  · intro x y r gives
    have add_ {p} (h : fsum r [x, y] = p) : gives (add o) (finish f r p).1 (finish f r p).2 := h ▸ (hadd o s).trans (wroteCode_eq s o.d _)
    have sub_ {p} (h : fsum r [x, y.neg] = p) : gives (sub o) (finish f r p).1 (finish f r p).2 := h ▸ (hsub o s).trans (wroteCode_eq s o.d _)
    have mul_ {p} (h : fprod x y = p) : gives (mul o) (finish f r p).1 (finish f r p).2 := h ▸ (hmul o s).trans (wroteCode_eq s o.d _)
    have div_ {p} (h : fquot x y = p) : gives (div o) (finish f r p).1 (finish f r p).2 := h ▸ (hdiv o s).trans (wroteCode_eq s o.d _)
    have nan_ {i fl} (h : gives i (finish f r (.nan false, fl)).1 (finish f r (.nan false, fl)).2) : gives i f.nan fl := by
      rwa [finish_nan hf] at h
    refine ⟨add_ rfl, sub_ rfl, mul_ rfl, div_ rfl, fun h => ?_, fun ⟨hx, hy⟩ => ?_, fun h => nan_ (mul_ (fprod_inf_zero h)), fun ⟨hx, hy⟩ => ?_, ?_⟩
    · rw [← stickyIf_snan x y]
      exact ⟨nan_ (add_ (fsum_nan h r)), nan_ (sub_ (by simpa using fsum_nan (y := y.neg) (by simpa using h) r)),
        nan_ (mul_ (fprod_nan h)), nan_ (div_ (fquot_nan h))⟩
    · have ex := FVal.eq_inf hx
      have ey := FVal.eq_inf hy
      refine ⟨nan_ (div_ (ex ▸ ey ▸ fquot_inf_inf _ _)), fun hs => nan_ (add_ ?_), fun hs => nan_ (sub_ ?_)⟩
      · rw [ex, ey, Bool.eq_not.2 hs.symm]
        exact fsum_inf_opposite r _
      · rw [ex, ey, hs]
        exact fsum_inf_opposite r _
    · obtain ⟨n, e, ex⟩ := FVal.eq_zero hx
      obtain ⟨k, z, ey⟩ := FVal.eq_zero hy
      exact nan_ (div_ (ex ▸ ey ▸ fquot_zero_zero n k e z))
    · intro n m e k z ex ey c hc
      have := div_ (ex ▸ ey ▸ fquot_by_zero n k m e z)
      rw [finish_inf hc] at this
      simpa [DZ] using this
  · intro x r gives
    have sqrt_ {p} (h : fsqrtVal x = p) : gives (finish f r p).1 (finish f r p).2 := h ▸ (hsqrt o s).trans (wroteCode_eq s o.d _)
    have nan_ {fl} (h : fsqrtVal x = (.nan false, fl)) : gives f.nan fl := by
      have := sqrt_ h
      rwa [finish_nan hf] at this
    exact ⟨sqrt_ rfl, fun m e ex => nan_ (ex ▸ fsqrtVal_negative m e), fun ex => nan_ (ex ▸ rfl)⟩

end Sys2Proof.Machine

namespace Sys2Proof
open Sys2Proof.Machine

/-- Settles O4: the statement of a format (`floatArithmetic_of`) for the instructions of `.f64` and of `.f32`. -/
theorem floatArithmetic : Obligations.FloatArithmetic :=
  ⟨floatArithmetic_of (by decide) (fun _ _ => rfl) (fun _ _ => rfl) (fun _ _ => rfl) (fun _ _ => rfl) (fun _ _ => rfl),
    floatArithmetic_of (by decide) (fun _ _ => rfl) (fun _ _ => rfl) (fun _ _ => rfl) (fun _ _ => rfl) (fun _ _ => rfl)⟩

end Sys2Proof
end

section
/-! SUPPORT. O5: integers of n bits in two's complement, and what a conversion to one gives (R35, R36, R156). -/

namespace Sys2Proof.Machine

/-! ## Two's complement -/

/-- A number's low n bits as a signed number. -/
theorem toSigned_eq (n v : Nat) : toSigned n v = if 2 ^ (n - 1) ≤ v % 2 ^ n then ((v % 2 ^ n : Nat) : Int) - 2 ^ n else ((v % 2 ^ n : Nat) : Int) := by
  simp only [toSigned]
  split
  · rw [if_neg (by omega)]
  · rw [if_pos (by omega)]
    push_cast
    rfl
/-- The low n bits of an integer of the unsigned range are the integer. -/
theorem ofSigned_unsigned {n : Nat} {v : Int} (h0 : 0 ≤ v) (h1 : v ≤ 2 ^ n - 1) : (ofSigned n v : Int) = v := by
  have hv : v < ((2 ^ n : Nat) : Int) := by push_cast; omega
  rw [ofSigned, Int.emod_eq_of_lt h0 hv, Int.toNat_of_nonneg h0]
/-- An integer of the signed range comes back from its low n bits. -/
theorem toSigned_ofSigned {n : Nat} (hn : 0 < n) {v : Int} (h0 : -(2 ^ (n - 1)) ≤ v) (h1 : v ≤ 2 ^ (n - 1) - 1) : toSigned n (ofSigned n v) = v := by
  obtain ⟨k, rfl⟩ : ∃ k, n = k + 1 := ⟨n - 1, by omega⟩
  have two : (2 : Int) ^ (k + 1) = 2 * (2 ^ k : Nat) := by push_cast; ring
  have two' : 2 ^ (k + 1) = 2 * 2 ^ k := by ring
  have half : (2 : Int) ^ k = (2 ^ k : Nat) := by push_cast; rfl
  rw [Nat.add_sub_cancel, half] at h0 h1
  rw [toSigned_eq, Nat.add_sub_cancel, two, two', ofSigned, two']
  generalize 2 ^ k = p at *
  have low : v % ((2 * p : Nat) : Int) = if v < 0 then v + 2 * p else v := by
    push_cast
    split
    · rw [← Int.add_emod_right, Int.emod_eq_of_lt (by omega) (by omega)]
    · rw [Int.emod_eq_of_lt (by omega) (by omega)]
  have lt : (v % ((2 * p : Nat) : Int)).toNat < 2 * p := by omega
  rw [Nat.mod_eq_of_lt lt, low]
  split <;> split <;> omega

/-- An integer type has a bit at least. -/
theorem intBits_pos (t : BitVec 4) : 0 < intBits t := by revert t; decide

/-! ## The range of an integer type (R36) -/

/-- The largest and the least integer of n bits. -/
def intMax (n : Nat) (signed : Bool) : Int := if signed then 2 ^ (n - 1) - 1 else 2 ^ n - 1
def intMin (n : Nat) (signed : Bool) : Int := if signed then -(2 ^ (n - 1)) else 0

/-- The table of a conversion to an integer: 0 of a NaN, the end of the range that an infinity or an integer outside it is nearer to, both
with NV; else the rounded integer. -/
def intResult (n : Nat) (signed : Bool) (r : Rounding) : FVal → Int × Sticky
  | .nan _ => (0, NV)
  | .inf neg => (if neg then intMin n signed else intMax n signed, NV)
  | .fin neg m e st =>
    let q := roundAt neg m e st 0 r
    let v : Int := if neg then -(q.1 : Int) else q.1
    if intMax n signed < v then (intMax n signed, NV) else if v < intMin n signed then (intMin n signed, NV) else (v, stickyIf q.2 NX)

section
variable (n : Nat) (signed : Bool) (r : Rounding)

/-- The model's conversion gives the low n bits of the table's integer. -/
theorem fcvtiCode_eq (src : FloatFmt) (x : Nat) : fcvtiCode src n signed r x =
    (ofSigned n (intResult n signed r (fdecode src x)).1, (intResult n signed r (fdecode src x)).2) := by
  have hi : (if signed then ((2 ^ (n - 1) : Nat) : Int) - 1 else ((2 ^ n : Nat) : Int) - 1) = intMax n signed := by push_cast; rfl
  have lo : (if signed then -((2 ^ (n - 1) : Nat) : Int) else 0) = intMin n signed := by push_cast; rfl
  simp only [fcvtiCode, hi, lo]
  cases fdecode src x with
  | nan q => simp [intResult, ofSigned]
  | inf neg => rfl
  | fin neg m e st =>
    dsimp only [intResult]
    generalize (if neg = true then -((roundAt neg m e st 0 r).1 : Int) else (roundAt neg m e st 0 r).1) = v
    split
    · rfl
    · split <;> rfl

theorem zero_mem_intRange : intMin n signed ≤ 0 ∧ 0 ≤ intMax n signed := by
  have h1 : (0 : Int) < 2 ^ (n - 1) := by positivity
  have h2 : (0 : Int) < 2 ^ n := by positivity
  cases signed <;> simp [intMin, intMax] <;> omega
/-- The table's integer is one of the type. -/
theorem intResult_mem (x : FVal) : intMin n signed ≤ (intResult n signed r x).1 ∧ (intResult n signed r x).1 ≤ intMax n signed := by
  have zero := zero_mem_intRange n signed
  have ⟨lo, hi⟩ := zero
  cases x with
  | nan q => exact zero
  | inf neg => cases neg <;> simp only [intResult] <;> grind
  | fin neg m e st => simp only [intResult]; grind
end

/-- An integer of the type comes back from its low bits, extended by the type's signedness. -/
theorem word_of_ofSigned {n : Nat} {signed : Bool} {v : Int} (hn : 0 < n) (h0 : intMin n signed ≤ v) (h1 : v ≤ intMax n signed) :
    (if signed then BitVec.ofInt 64 (toSigned n (ofSigned n v)) else BitVec.ofNat 64 (ofSigned n v)) = BitVec.ofInt 64 v := by
  cases signed with
  | false => exact (BitVec.ofInt_natCast 64 _).symm.trans (congrArg (BitVec.ofInt 64) (ofSigned_unsigned h0 h1))
  | true => exact congrArg (BitVec.ofInt 64) (toSigned_ofSigned hn h0 h1)
/-- A conversion to an integer writes the table's integer, with its conditions. -/
theorem exec_fcvti (s : State) (o : OpCvt) : exec (.fcvti o) s =
    let p := intResult (intBits o.dst) (intSigned o.dst) (s.rounding o.rm) (fdecode (fmtOf o.src.toNat) (s.fsrc (fmtOf o.src.toNat) o.a))
    .next (s.afterFlags o.d (BitVec.ofInt 64 p.1) p.2) := by
  obtain ⟨h0, h1⟩ := intResult_mem (intBits o.dst) (intSigned o.dst) (s.rounding o.rm) (fdecode (fmtOf o.src.toNat) (s.fsrc (fmtOf o.src.toNat) o.a))
  calc exec (.fcvti o) s = execFcvti o s := rfl
    _ = _ := by simp only [execFcvti, fcvtiCode_eq, wroteSticky_eq, word_of_ofSigned (intBits_pos o.dst) h0 h1]

/-- The operand of a conversion from an integer: its low bits, signed or not. -/
theorem icvtf_operand (signed : Bool) (n v : Nat) :
    (if signed then toSigned n v else ((v % 2 ^ n : Nat) : Int)) =
      if signed && decide (2 ^ (n - 1) ≤ v % 2 ^ n) then ((v % 2 ^ n : Nat) : Int) - 2 ^ n else ((v % 2 ^ n : Nat) : Int) := by
  cases signed <;> simp [toSigned_eq]

end Sys2Proof.Machine

namespace Sys2Proof
open Sys2Proof.Machine

/-- Settles O5: conversions between formats and from integers round once; to an integer, `exec_fcvti` writes the table's result. -/
theorem scalarConversions : Obligations.ScalarConversions := by
  intro s o r
  refine ⟨?_, ?_, ?_⟩
  · intro dst src sat hsat
    have same : sat = (o.sat && decide (dst.width ≤ src.width)) := Bool.eq_iff_iff.2 (by simp [hsat])
    subst same
    exact ⟨_, _, rfl, wroteCode_eq s o.d _⟩
  · refine ⟨_, _, rfl, ?_⟩
    rw [← icvtf_operand]
    exact wroteCode_eq s o.d _
  · intro x n hi lo gives
    have table {v : Int} {fl : BitVec 7} (h : intResult n (intSigned o.dst) r x = (v, fl)) : gives v fl := by
      have run : gives (intResult n (intSigned o.dst) r x).1 (intResult n (intSigned o.dst) r x).2 := exec_fcvti s o
      rwa [h] at run
    have ends : lo ≤ hi := (zero_mem_intRange n _).1.trans (zero_mem_intRange n _).2
    refine ⟨fun hx => ?_, fun hx => table (hx ▸ rfl), fun hx => table (hx ▸ rfl), fun neg m e st hx => ?_⟩
    · obtain ⟨q, hq⟩ := FVal.eq_nan hx
      exact table (hq ▸ rfl)
    · intro q v
      refine ⟨fun ⟨h0, h1⟩ => ?_, fun h => ?_, fun h => ?_⟩
      · exact table (hx ▸ (if_neg (not_lt.2 h1)).trans (if_neg (not_lt.2 h0)))
      · exact table (hx ▸ (if_neg (not_lt.2 (h.le.trans ends))).trans (if_pos h))
      · exact table (hx ▸ if_pos h)

end Sys2Proof
end

section
/-! SUPPORT. O6: rounding a magnitude to a multiple of a power of two, mode by mode (R31). -/

namespace Sys2Proof.Machine

/-! ## One decision for every spacing -/

/-- A magnitude far below the spacing is rounded as the least magnitude is at the spacing 2^20. -/
theorem roundDecision_far (neg : Bool) (r : Rounding) {m k : Nat} (h : Nat.log2 m + 1 + 20 < k) :
    roundDecision neg (if m == 0 then 0 else 1) false 20 r = roundDecision neg m false k r := by
  have small : m * 2 ^ 20 < 2 ^ k :=
    calc m * 2 ^ 20 < 2 ^ (Nat.log2 m + 1) * 2 ^ 20 := by have := Nat.lt_log2_self (n := m); omega
      _ = 2 ^ (Nat.log2 m + 1 + 20) := (pow_add ..).symm
      _ ≤ 2 ^ k := Nat.pow_le_pow_right (by decide) h.le
  have hk : k ≠ 0 := by omega
  have lt : m < 2 ^ k := by omega
  have lt16 : m * 65536 < 2 ^ k := (Nat.mul_le_mul_left m (by norm_num)).trans_lt small
  rcases Nat.eq_zero_or_pos m with rfl | hm
  · simp [roundDecision]
  · have half : m < 2 ^ k / 2 := by omega
    cases r <;> simp [roundDecision, hm.ne', hk, Nat.mod_eq_of_lt lt, half.ne, half.le, Nat.div_eq_of_lt lt16]

/-- Rounding to a multiple of 2^k: the quotient, one more when the decision is up; inexact when there is a remainder. -/
theorem roundAt_pow (neg : Bool) (m k : Nat) (r : Rounding) :
    roundAt neg m 0 false k r = (m / 2 ^ k + bitOf (roundDecision neg m false k r).1, m % 2 ^ k != 0) := by
  have inexact : (roundDecision neg m false k r).2 = (m % 2 ^ k != 0) := by simp [roundDecision]
  rcases Nat.eq_zero_or_pos k with rfl | hk
  · simp [roundAt, roundDecision, Nat.mod_one, bitOf]
  · have hq : ¬ (k : Int) ≤ 0 := by omega
    simp only [roundAt, if_neg hq, sub_zero, Int.toNat_natCast]
    split
    · next far =>
      have lt : m < 2 ^ k := Nat.lt_log2_self.trans_le (Nat.pow_le_pow_right (by decide) (by omega))
      rw [roundDecision_far neg r far, inexact, Nat.div_eq_of_lt lt, zero_add]
    · rw [inexact]

/-! ## The decision of each mode, over quotient and remainder -/

section
variable (neg : Bool) (m k : Nat)

theorem roundsUp_rtz : (roundDecision neg m false k .rtz).1 = false := by simp [roundDecision]
theorem roundsUp_rdn : (roundDecision neg m false k .rdn).1 = (m % 2 ^ k != 0 && neg) := by simp [roundDecision]
theorem roundsUp_rup : (roundDecision neg m false k .rup).1 = (m % 2 ^ k != 0 && !neg) := by simp [roundDecision]
/-- To nearest: above the middle, or in the middle with an odd quotient. -/
theorem roundsUp_rne : (roundDecision neg m false k .rne).1 = true ↔ 2 ^ k < 2 * (m % 2 ^ k) ∨ 2 * (m % 2 ^ k) = 2 ^ k ∧ m / 2 ^ k % 2 = 1 := by
  cases k with
  | zero => simp [roundDecision, Nat.mod_one]
  | succ k =>
    have hp : 2 ^ (k + 1) / 2 = 2 ^ k := by omega
    have := Nat.pow_pos (n := k) (show 0 < 2 by decide)
    simp [roundDecision, hp]
    omega
/-- To nearest, the middle away from zero. -/
theorem roundsUp_rmm : (roundDecision neg m false k .rmm).1 = true ↔ 2 ^ k ≤ 2 * (m % 2 ^ k) := by
  cases k with
  | zero => simp [roundDecision, Nat.mod_one]
  | succ k =>
    have hp : 2 ^ (k + 1) / 2 = 2 ^ k := by omega
    have := Nat.pow_pos (n := k) (show 0 < 2 by decide)
    simp [roundDecision, hp]
    omega

/-- The quotient rounded up: one more unless the division is exact. -/
theorem ceil_div_pow : (m + 2 ^ k - 1) / 2 ^ k = m / 2 ^ k + bitOf (m % 2 ^ k != 0) := by
  have hp : 0 < 2 ^ k := Nat.pow_pos (by decide)
  have hr := Nat.mod_lt m hp
  have hm := Nat.div_add_mod m (2 ^ k)
  generalize 2 ^ k = p at *
  by_cases h0 : m % p = 0
  · rw [show m + p - 1 = (p - 1) + p * (m / p) by omega, Nat.add_mul_div_left _ _ hp, Nat.div_eq_of_lt (by omega)]
    simp [h0, bitOf]
  · rw [show m + p - 1 = (m % p - 1) + p * (m / p + 1) by rw [Nat.mul_add]; omega, Nat.add_mul_div_left _ _ hp,
      Nat.div_eq_of_lt (by omega)]
    simp [h0, bitOf]

end

/-! ## The statement -/

theorem roundingModes_hold : roundingModes := by
  intro neg m k n
  have hp : 0 < 2 ^ k := Nat.pow_pos (by decide)
  have hm := Nat.div_add_mod' m (2 ^ k)
  have hr := Nat.mod_lt m hp
  have value (r : Rounding) : n r = m / 2 ^ k + bitOf (roundDecision neg m false k r).1 := congrArg Prod.fst (roundAt_pow neg m k r)
  refine ⟨?_, ?_, ?_, ?_, ?_, fun r => ?_⟩
  · rw [value, roundsUp_rtz]
    rfl
  · rw [value, roundsUp_rdn, ceil_div_pow]
    cases neg <;> simp [bitOf]
  · rw [value, roundsUp_rup, ceil_div_pow]
    cases neg <;> simp [bitOf]
  · have up := roundsUp_rne neg m k
    rw [value]
    norm_cast
    generalize m / 2 ^ k = d at *
    generalize 2 ^ k = p at *
    cases h : (roundDecision neg m false k .rne).1 <;> simp only [h, bitOf, add_mul, mul_add, mul_assoc] at up ⊢ <;> grind
  · have up := roundsUp_rmm neg m k
    rw [value]
    norm_cast
    generalize m / 2 ^ k = d at *
    generalize 2 ^ k = p at *
    cases h : (roundDecision neg m false k .rmm).1 <;> simp only [h, bitOf, add_mul, mul_add, mul_assoc] at up ⊢ <;> grind
  · rw [roundAt_pow, bne_iff_ne]

/-! ## The fused family and the dynamic mode (R31, R154) -/

/-- A word of the fused family writes its one rounding of ±(a · b) ± c, with its conditions. -/
theorem fused_gives {i : Instr} {o : OpFma} {s : State} {np na : Bool} (hi : exec i s = wroteCode s o.d (fusedCode o s np na)) :
    ∃ c fl, fusedCode o s np na = (c, fl) ∧ exec i s = .next (s.afterFlags o.d (BitVec.ofNat 64 c) fl) :=
  ⟨_, _, rfl, hi.trans (wroteCode_eq s o.d _)⟩
theorem fmt2_of {ty : BitVec 4} {f : FloatFmt} (h : ty = 0 ∧ f = .f64 ∨ ty = 1 ∧ f = .f32) : fmt2 ty = f := by
  rcases h with ⟨rfl, rfl⟩ | ⟨rfl, rfl⟩ <;> rfl

theorem fusedMultiplyAdd_hold : fusedMultiplyAdd := by
  refine ⟨fun s o f hf => ?_, fun fpctl u => ?_⟩
  · intro v r p gives
    obtain rfl := fmt2_of hf
    exact ⟨fused_gives (np := false) (na := false) rfl, fused_gives (np := false) (na := true) rfl,
      fused_gives (np := true) (na := false) rfl, fused_gives (np := true) (na := true) rfl⟩
  · refine ⟨?_, ?_, ?_, ?_, ?_⟩ <;> rintro rfl <;> rfl

end Sys2Proof.Machine

namespace Sys2Proof
open Sys2Proof.Machine

/-- Settles O6: the modes by `roundAt_pow`, one decision over quotient and remainder; the fused family by `fused_gives`. -/
theorem roundingAndFusedMultiplyAdd : Obligations.RoundingAndFusedMultiplyAdd := ⟨roundingModes_hold, fusedMultiplyAdd_hold⟩

end Sys2Proof
end

section
/-! SUPPORT. The loop of a vector word over the elements of a tile: what a register holds after its lanes have landed (R215, R223, R230). -/

namespace Sys2Proof.Machine

/-! ## Reading storage after a list of writes -/

/-- A key after a run: the run's value inside it, what was there before elsewhere. -/
theorem cget_csetRun {w : Nat} (c : Cells w) (a : Nat) (vs : List (BitVec w)) (k : Nat) :
    cget (csetRun c a vs) k = if a ≤ k ∧ k < a + vs.length then vs.getD (k - a) 0 else cget c k := by
  split
  · next h =>
    have := cget_csetRun_in c a vs (k - a) (by omega)
    rwa [show a + (k - a) = k by omega] at this
  · exact cget_csetRun_out c a vs k (by omega)

/-- A key after a list of writes holds the last of its values, or what was there before. -/
theorem cget_csetList {w : Nat} (c : Cells w) (l : List (Nat × BitVec w)) (k : Nat) :
    cget (csetList c l) k = l.foldl (fun v p => if p.1 = k then p.2 else v) (cget c k) := by
  have runs (rs : List (Nat × List (BitVec w))) (c : Cells w) : cget (rs.foldl (fun c r => csetRun c r.1 r.2) c) k =
      rs.foldl (fun v r => if r.1 ≤ k ∧ k < r.1 + r.2.length then r.2.getD (k - r.1) 0 else v) (cget c k) := by
    induction rs generalizing c with
    | nil => rfl
    | cons r rs ih => rw [List.foldl_cons, ih, cget_csetRun, List.foldl_cons]
  rw [csetList, runs]
  generalize cget c k = v₀
  induction l generalizing v₀ with
  | nil => rfl
  | cons p l ih =>
    obtain ⟨a, v⟩ := p
    have alone : (if a ≤ k ∧ k < a + [v].length then [v].getD (k - a) 0 else v₀) = if a = k then v else v₀ := by
      by_cases h : a = k
      · simp [h]
      · rw [if_neg (by simp only [List.length_cons, List.length_nil]; omega), if_neg h]
    rw [List.foldl_cons, ← ih, runsOf]
    cases runsOf l with
    | nil => simp only [List.foldl_cons, List.foldl_nil, alone]
    | cons r rs =>
      obtain ⟨b, vs⟩ := r
      dsimp only
      split
      · next hb =>
        subst hb
        simp only [List.foldl_cons, List.length_cons]
        congr 1
        by_cases h : a = k
        · simp [h]
        · by_cases hk : a + 1 ≤ k ∧ k < a + 1 + vs.length
          · rw [if_pos (by omega), if_pos hk, show k - a = (k - (a + 1)) + 1 by omega, List.getD_cons_succ]
          · rw [if_neg (by omega), if_neg hk, if_neg h]
      · simp only [List.foldl_cons, alone]

/-- A key that a list writes with one value only reads as that value. -/
theorem cget_csetList_of_mem {w : Nat} (c : Cells w) {l : List (Nat × BitVec w)} {k : Nat} {v : BitVec w} (hm : (k, v) ∈ l)
    (hu : ∀ u, (k, u) ∈ l → u = v) : cget (csetList c l) k = v := by
  rw [cget_csetList]
  generalize cget c k = v₀
  have reach (l : List (Nat × BitVec w)) (hu : ∀ u, (k, u) ∈ l → u = v) : ∀ v₀, (v₀ = v ∨ (k, v) ∈ l) →
      l.foldl (fun v p => if p.1 = k then p.2 else v) v₀ = v := by
    induction l with
    | nil => simp
    | cons p l ih =>
      obtain ⟨a, u⟩ := p
      intro v₀ h
      refine ih (fun u hm => hu u (List.mem_cons_of_mem _ hm)) _ ?_
      by_cases ha : a = k
      · subst ha
        exact .inl ((if_pos rfl).trans (hu u List.mem_cons_self))
      · dsimp only
        rw [if_neg ha]
        exact h.imp_right fun h => (List.mem_cons.1 h).resolve_left (fun e => ha (congrArg Prod.fst e).symm)
  exact reach l hu v₀ (.inr hm)
/-- A key that a list does not write reads as before. -/
theorem cget_csetList_of_not_mem {w : Nat} (c : Cells w) {l : List (Nat × BitVec w)} {k : Nat} (h : ∀ p ∈ l, p.1 ≠ k) :
    cget (csetList c l) k = cget c k := by
  rw [cget_csetList]
  generalize cget c k = v₀
  induction l generalizing v₀ with
  | nil => rfl
  | cons p l ih => rw [List.foldl_cons, if_neg (h p List.mem_cons_self), ih (fun q hq => h q (List.mem_cons_of_mem _ hq))]

/-- A condition is collected from a list exactly when it was there before or one of the list has it. -/
theorem getLsbD_foldl_or {α : Type} (l : List (α × Sticky)) (fl : Sticky) (b : Nat) :
    (l.foldl (fun fl r => fl ||| r.2) fl).getLsbD b = true ↔ fl.getLsbD b = true ∨ ∃ r ∈ l, r.2.getLsbD b = true := by
  induction l generalizing fl with
  | nil => simp
  | cons r l ih => simp [ih, or_assoc]

/-! ## Elements and lanes (R213, R215) -/

/-- The widths of elements. -/
theorem vecBits_cases (ty : BitVec 4) : vecBits ty = 8 ∨ vecBits ty = 16 ∨ vecBits ty = 32 ∨ vecBits ty = 64 := by
  revert ty
  decide
/-- The group that a lane belongs to. -/
def laneGroup (w l : Nat) : Nat := if w = 64 then l / 2 else l

theorem governor_groupOf (w e : Nat) : governor w (groupOf w e) = if w = 64 then 2 * e else e * w / 32 := by
  unfold governor groupOf
  split <;> rfl
theorem mem_groups {w g : Nat} : g ∈ groups w ↔ g < if w = 64 then 512 else 1024 := by simp [groups]
/-- The lanes of a group belong to it. -/
theorem laneGroup_of_mem {w g : Nat} {vs : List Nat} {p : Nat × BitVec 32} (h : p ∈ groupLanes w g vs) : laneGroup w p.1 = g := by
  unfold groupLanes at h
  unfold laneGroup
  split at h
  · next hw =>
    rw [if_pos hw]
    rcases List.mem_pair.1 h with rfl | rfl
    · dsimp only; omega
    · dsimp only; omega
  · next hw =>
    rw [if_neg hw, List.mem_singleton.1 h]
/-- A group writes each of its lanes once. -/
theorem groupLanes_unique {w g l : Nat} {vs : List Nat} {u v : BitVec 32} (hu : (l, u) ∈ groupLanes w g vs) (hv : (l, v) ∈ groupLanes w g vs) : u = v := by
  unfold groupLanes at hu hv
  split at hu
  · next hw =>
    rw [if_pos hw] at hv
    simp only [List.mem_cons, Prod.mk.injEq, List.not_mem_nil, or_false] at hu hv
    obtain ⟨h1, rfl⟩ | ⟨h1, rfl⟩ := hu
    · exact (hv.resolve_right (by omega)).2.symm
    · exact (hv.resolve_left (by omega)).2.symm
  · next hw =>
    rw [if_neg hw] at hv
    simp only [List.mem_singleton, Prod.mk.injEq] at hu hv
    exact hu.2.trans hv.2.symm

/-- An element depends on the lanes of its group alone. -/
theorem elemAt_congr {w e : Nat} {t t' : Tile} (h : ∀ l, laneGroup w l = groupOf w e → cget t l = cget t' l) : elemAt t w e = elemAt t' w e := by
  unfold elemAt
  unfold laneGroup groupOf at h
  by_cases hw : w = 64
  · simp only [if_pos hw] at h ⊢
    rw [h (2 * e) (by omega), h (2 * e + 1) (by omega)]
  · simp only [if_neg hw] at h ⊢
    rw [h _ rfl]

/-- A digit of values put side by side. -/
theorem digit_of_packed (w : Nat) (vs : List Nat) (i : Nat) :
    vs.foldr (fun x acc => x % 2 ^ w + 2 ^ w * acc) 0 / 2 ^ (w * i) % 2 ^ w = vs.getD i 0 % 2 ^ w := by
  have hp : 0 < 2 ^ w := Nat.pow_pos (by decide)
  induction vs generalizing i with
  | nil => simp
  | cons x vs ih =>
    rw [List.foldr_cons]
    cases i with
    | zero => simp
    | succ i =>
      rw [Nat.mul_succ, Nat.add_comm (w * i), Nat.pow_add, ← Nat.div_div_eq_div_mul, Nat.add_mul_div_left _ _ hp,
        Nat.div_eq_of_lt (Nat.mod_lt x hp), Nat.zero_add, ih, List.getD_cons_succ]
/-- A field inside the low n bits is not changed by cutting to n bits. -/
theorem field_mod {v n a w : Nat} (h : a + w ≤ n) : v % 2 ^ n / 2 ^ a % 2 ^ w = v / 2 ^ a % 2 ^ w := by
  refine Nat.eq_of_testBit_eq fun i => ?_
  simp only [Nat.testBit_mod_two_pow, Nat.testBit_div_two_pow]
  by_cases hi : i < w
  · simp [hi, show i + a < n by omega]
  · simp [hi]

/-- The place of an element in its group. -/
def elemPos (w e : Nat) : Nat := if w = 64 then 0 else e % (32 / w)
theorem groupElems_pos {w : Nat} (hw : w = 8 ∨ w = 16 ∨ w = 32 ∨ w = 64) (e : Nat) : (groupElems w (groupOf w e))[elemPos w e]? = some e := by
  unfold groupElems groupOf elemPos
  by_cases h : w = 64
  · simp only [if_pos h, List.getElem?_cons_zero]
  · have lt : e % (32 / w) < 32 / w := Nat.mod_lt _ (Nat.div_pos (by omega) (by omega))
    simp only [if_neg h, List.getElem?_map, List.getElem?_range lt, Option.map_some, Option.some.injEq]
    rcases hw with rfl | rfl | rfl | rfl <;> omega
theorem groupOf_of_mem {w : Nat} (hw : w = 8 ∨ w = 16 ∨ w = 32 ∨ w = 64) {g e : Nat} (h : e ∈ groupElems w g) : groupOf w e = g := by
  unfold groupElems at h
  unfold groupOf
  rcases hw with rfl | rfl | rfl | rfl <;> simp at h ⊢ <;> omega
theorem groupOf_mem_groups {w : Nat} (hw : w = 8 ∨ w = 16 ∨ w = 32 ∨ w = 64) (e : Nat) : groupOf w e ∈ groups w ↔ e < 32768 / w := by
  rw [mem_groups]
  unfold groupOf
  rcases hw with rfl | rfl | rfl | rfl <;> simp <;> omega

/-- An element of a tile that holds the lanes of its group: the value at its place. -/
theorem elemAt_of_groupLanes {w : Nat} (hw : w = 8 ∨ w = 16 ∨ w = 32 ∨ w = 64) {t : Tile} {e : Nat} {vs : List Nat}
    (h : ∀ p ∈ groupLanes w (groupOf w e) vs, cget t p.1 = p.2) : elemAt t w e = vs.getD (elemPos w e) 0 % 2 ^ w := by
  rw [← digit_of_packed]
  unfold groupLanes groupOf at h
  unfold elemAt elemPos
  generalize vs.foldr (fun x acc => x % 2 ^ w + 2 ^ w * acc) 0 = v at *
  by_cases h64 : w = 64
  · subst h64
    have low := h _ (by simp only [↓reduceIte]; exact List.mem_cons_self)
    have high := h (2 * e + 1, BitVec.ofNat 32 (v / 2 ^ 32)) (by simp)
    rw [if_pos rfl, low, high]
    simp only [BitVec.toNat_ofNat, ↓reduceIte, Nat.mul_zero, pow_zero, Nat.div_one]
    omega
  · simp only [if_neg h64, List.mem_singleton, forall_eq] at h ⊢
    rw [h, BitVec.toNat_ofNat, show e * w % 32 = w * (e % (32 / w)) by rcases hw with rfl | rfl | rfl | rfl <;> omega]
    exact field_mod (by rcases hw with rfl | rfl | rfl | rfl <;> omega)

/-! ## The loop over groups (R223, R230) -/

/-- What a group writes: its elements' values when it is active, zeros under `.z`, else nothing. -/
def groupOut (w : Nat) (pred : BitVec 1024) (z : Bool) (f : Nat → Nat × Sticky) (g : Nat) : List (Nat × BitVec 32) :=
  if pred.getLsbD (governor w g) then groupLanes w g (((groupElems w g).map f).map Prod.fst) else if z then groupLanes w g [] else []

section
variable {w : Nat} {pred : BitVec 1024} {z : Bool} {gs : List Nat} {f : Nat → Nat × Sticky}

theorem vloop_none (h : anyActive w pred gs = false) : vloop w pred z gs f = none := by
  unfold vloop
  rw [h]
  rfl
/-- The loop writes what its groups write, and collects the conditions of the active ones. -/
theorem vloop_some (h : anyActive w pred gs = true) : ∃ fl, vloop w pred z gs f = some (gs.flatMap (groupOut w pred z f), fl) ∧
    ∀ b, fl.getLsbD b = true ↔ ∃ g ∈ gs, pred.getLsbD (governor w g) = true ∧ ∃ e ∈ groupElems w g, (f e).2.getLsbD b = true := by
  unfold vloop
  rw [if_pos h]
  clear h
  induction gs with
  | nil => exact ⟨0, rfl, by simp⟩
  | cons g gs ih =>
    obtain ⟨fl, hv, hb⟩ := ih
    rw [List.foldr_cons, Option.some.inj hv, List.flatMap_cons]
    by_cases hg : pred.getLsbD (governor w g) = true
    · refine ⟨((groupElems w g).map f).foldl (fun fl r => fl ||| r.2) fl, by simp only [hg, groupOut, ↓reduceIte], fun b => ?_⟩
      rw [getLsbD_foldl_or, hb, List.exists_mem_cons_iff]
      simp only [List.mem_map, exists_exists_and_eq_and, hg, true_and]
      exact or_comm
    · refine ⟨fl, ?_, fun b => ?_⟩
      · cases z <;> simp only [hg, groupOut, Bool.false_eq_true, ↓reduceIte, List.nil_append]
      · rw [hb, List.exists_mem_cons_iff]
        simp [hg]

theorem laneGroup_of_groupOut {g : Nat} {p : Nat × BitVec 32} (h : p ∈ groupOut w pred z f g) : laneGroup w p.1 = g := by
  unfold groupOut at h
  split at h
  · exact laneGroup_of_mem h
  · split at h
    · exact laneGroup_of_mem h
    · cases h
theorem groupOut_unique {g l : Nat} {u v : BitVec 32} (hu : (l, u) ∈ groupOut w pred z f g) (hv : (l, v) ∈ groupOut w pred z f g) : u = v := by
  unfold groupOut at hu hv
  split at hu
  · next h => exact groupLanes_unique hu (by rwa [if_pos h] at hv)
  · next h =>
    rw [if_neg h] at hv
    split at hu
    · next hz => exact groupLanes_unique hu (by rwa [if_pos hz] at hv)
    · cases hu

/-- A lane that the loop writes holds what its group writes. -/
theorem cget_groupOut (old : Tile) {g : Nat} (hg : g ∈ gs) {p : Nat × BitVec 32} (hp : p ∈ groupOut w pred z f g) :
    cget (csetList old (gs.flatMap (groupOut w pred z f))) p.1 = p.2 := by
  refine cget_csetList_of_mem old (List.mem_flatMap.2 ⟨g, hg, hp⟩) fun u hu => ?_
  obtain ⟨g', -, hu⟩ := List.mem_flatMap.1 hu
  have same := laneGroup_of_groupOut hp
  obtain rfl : g' = g := (laneGroup_of_groupOut hu).symm.trans same
  obtain ⟨l, v⟩ := p
  exact groupOut_unique hu hp
/-- The lanes of a group that writes nothing are left. -/
theorem elemAt_groupOut_left (old : Tile) {e : Nat} (h : groupOf w e ∉ gs ∨ groupOut w pred z f (groupOf w e) = []) :
    elemAt (csetList old (gs.flatMap (groupOut w pred z f))) w e = elemAt old w e := by
  refine elemAt_congr fun l hl => cget_csetList_of_not_mem old fun p hp e' => ?_
  obtain ⟨g, hg, hp⟩ := List.mem_flatMap.1 hp
  obtain rfl : g = groupOf w e := (laneGroup_of_groupOut hp).symm.trans (e' ▸ hl)
  rcases h with h | h
  · exact h hg
  · rw [h] at hp
    cases hp

variable (hw : w = 8 ∨ w = 16 ∨ w = 32 ∨ w = 64) (old : Tile) {e : Nat}
include hw

/-- An active element takes its value. -/
theorem elemAt_loop_active (he : groupOf w e ∈ gs) (ha : pred.getLsbD (governor w (groupOf w e)) = true) :
    elemAt (csetList old (gs.flatMap (groupOut w pred z f))) w e = (f e).1 % 2 ^ w := by
  rw [elemAt_of_groupLanes hw (vs := ((groupElems w (groupOf w e)).map f).map Prod.fst)
    (fun p hp => cget_groupOut old he (by rwa [groupOut, if_pos ha])), List.getD_eq_getElem?_getD, List.getElem?_map, List.getElem?_map,
    groupElems_pos hw]
  rfl
/-- An inactive element is zero under `.z`. -/
theorem elemAt_loop_zero (he : groupOf w e ∈ gs) (ha : ¬ pred.getLsbD (governor w (groupOf w e)) = true) (hz : z = true) :
    elemAt (csetList old (gs.flatMap (groupOut w pred z f))) w e = 0 := by
  rw [elemAt_of_groupLanes hw (vs := []) (fun p hp => cget_groupOut old he (by rwa [groupOut, if_neg ha, if_pos hz]))]
  simp
end

end Sys2Proof.Machine
end

section
/-! SUPPORT. How a vector word issues, and which of its elements are active (R214, R215, R220–R224, R230). -/

namespace Sys2Proof.Machine

/-! ## Issue -/

section
variable {s : State} {r : VecRun} {p : Pipe} {occ lat : Nat} {act : VecRun → VRes} (h : mayIssue s r p)
include h

/-- A word that comes to a result is on its way; what it does to the engine's core leaves the engine's registers. -/
theorem vissue_done {u : State} {dest : Option FlightDest} {fl : Sticky} (ha : act r = .done u dest fl) (hu : u.core.vec = s.core.vec) :
    vissue s (p, occ, lat) act = .next (afterIssue u r p occ lat dest fl) := by
  obtain ⟨hrun, hfree⟩ := h
  simp only [vissue, hrun, if_neg (not_lt.2 hfree), ha]
  rw [← hu]
  rfl
theorem vissue_hold (ha : act r = .hold s) : vissue s (p, occ, lat) act = .next (s.setRun (some { r with held := true })) := by
  obtain ⟨hrun, hfree⟩ := h
  simp only [vissue, hrun, if_neg (not_lt.2 hfree), ha, Option.map_some]
theorem vissue_fault {f : FaultInfo} (ha : act r = .fault f) : vissue s (p, occ, lat) act = .next (s.vecFault r f) := by
  obtain ⟨hrun, hfree⟩ := h
  simp only [vissue, hrun, if_neg (not_lt.2 hfree), ha]
end

/-! ## Active elements (R214, R215) -/

/-- A bit of a predicate as a source: k0 reads all ones. -/
theorem pred_getLsbD (v : VecEngine) (k : BitVec 4) {n : Nat} (hn : n < 1024) :
    (v.pred k.toNat).getLsbD n = true ↔ k = 0 ∨ (v.k[k.toNat]'k.isLt).getLsbD n = true := by
  unfold VecEngine.pred
  by_cases hk : k = 0
  · subst hk
    rw [if_pos (show (0 : BitVec 4).toNat = 0 from rfl), BitVec.getLsbD_allOnes]
    simp only [hn, decide_true, true_or]
  · have h0 : k.toNat ≠ 0 := fun h => hk (BitVec.eq_of_toNat_eq h)
    have hlt : k.toNat < 16 := k.isLt
    have get : v.k.toList.getD k.toNat 0 = v.k[k.toNat] := by simp [List.getD_eq_getElem?_getD, hlt]
    simp only [if_neg h0, hk, false_or, get]

theorem governor_lt {w g : Nat} (h : g ∈ groups w) : governor w g < 1024 := by
  rw [mem_groups] at h
  unfold governor
  by_cases hw : w = 64
  · rw [if_pos hw] at h ⊢
    omega
  · rw [if_neg hw] at h ⊢
    omega

section
variable {s : State} {k : BitVec 4} {w : Nat} (hw : w = 8 ∨ w = 16 ∨ w = 32 ∨ w = 64)
include hw

/-- An element is active when its group's bit is set. -/
theorem active_iff {e : Nat} (he : e < 32768 / w) : active s k w e ↔ (s.core.vec.pred k.toNat).getLsbD (governor w (groupOf w e)) = true := by
  rw [pred_getLsbD _ _ (governor_lt ((groupOf_mem_groups hw e).2 he)), governor_groupOf, active]
/-- Every group has an element. -/
theorem groupOf_surjective (g : Nat) : ∃ e, groupOf w e = g := by
  refine ⟨if w = 64 then g else g * (32 / w), ?_⟩
  unfold groupOf
  rcases hw with rfl | rfl | rfl | rfl <;> simp <;> omega
/-- A loop over groups is active when an element of its part is. -/
theorem anyActive_iff {gs : List Nat} {part : Nat → Prop} (hgs : ∀ g ∈ gs, g ∈ groups w) (hpart : ∀ e < 32768 / w, groupOf w e ∈ gs ↔ part e) :
    anyActive w (s.core.vec.pred k.toNat) gs = true ↔ ∃ e < 32768 / w, part e ∧ active s k w e := by
  unfold anyActive
  rw [List.any_eq_true]
  constructor
  · rintro ⟨g, hg, ha⟩
    obtain ⟨e, rfl⟩ := groupOf_surjective hw g
    have he := (groupOf_mem_groups hw e).1 (hgs _ hg)
    exact ⟨e, he, (hpart e he).1 hg, (active_iff hw he).2 ha⟩
  · rintro ⟨e, he, hp, ha⟩
    exact ⟨groupOf w e, (hpart e he).2 hp, (active_iff hw he).1 ha⟩
/-- A loop over a whole tile is active when some element is. -/
theorem anyActive_groups : anyActive w (s.core.vec.pred k.toNat) (groups w) = true ↔ ∃ e < 32768 / w, active s k w e := by
  simpa using anyActive_iff (s := s) (k := k) hw (part := fun _ => True) (fun _ hg => hg) (fun e he => iff_true_intro ((groupOf_mem_groups hw e).2 he))
end

/-! ## Element-wise words (R223, R230) -/

section
variable {s : State} {r : VecRun} {i : Instr} {p : Pipe} {occ lat major minor w : Nat} {o : OpV} {gs : List Nat} {f : VecRun → Nat → Nat × Sticky}
  {g : Nat → Nat × Sticky} {part : Nat → Prop} (h : mayIssue s r p) (hw : w = 8 ∨ w = 16 ∨ w = 32 ∨ w = 64)
  (ht : vecTiming major minor o.ty o.spec.toNat 0 = (p, occ, lat))
include h hw ht

/-- An element-wise word writes the part of the tile that its groups make up, each active element with its value. -/
theorem writesElements_of_vtile (hrun : exec i s = vtile s major minor o w gs f) (hgs : ∀ g ∈ gs, g ∈ groups w)
    (hpart : ∀ e < 32768 / w, groupOf w e ∈ gs ↔ part e)
    (hval : ∀ e < 32768 / w, part e → (f r e).1 % 2 ^ w = (g e).1 % 2 ^ w ∧ (f r e).2 = (g e).2) :
    writesElements s r i p occ lat o.d o.k o.z w part g := by
  have some_ := anyActive_iff (s := s) (k := o.k) hw hgs hpart
  rw [writesElements, hrun, vtile, ht]
  refine ⟨fun none_ => ?_, fun ex => ?_⟩
  · refine vissue_done h ?_ rfl
    have off : anyActive w (s.core.vec.pred o.k.toNat) gs = false :=
      Bool.eq_false_iff.2 fun h => by
        obtain ⟨e, he, hp, ha⟩ := some_.1 h
        exact none_ e he hp ha
    simp only [vloop_none off]
  · obtain ⟨fl, hv, hfl⟩ := vloop_some (z := o.z) (f := f r) (some_.2 ex)
    refine ⟨gs.flatMap (groupOut w (s.core.vec.pred o.k.toNat) o.z (f r)), fl, vissue_done h (by simp only [hv]) rfl, fun b => ?_, fun old e he => ?_⟩
    · rw [hfl]
      constructor
      · rintro ⟨g', hg, ha, e, hm, hb⟩
        obtain rfl := groupOf_of_mem hw hm
        have he := (groupOf_mem_groups hw e).1 (hgs _ hg)
        have hp := (hpart e he).1 hg
        exact ⟨e, he, hp, (active_iff hw he).2 ha, (hval e he hp).2 ▸ hb⟩
      · rintro ⟨e, he, hp, ha, hb⟩
        exact ⟨groupOf w e, (hpart e he).2 hp, (active_iff hw he).1 ha, e, List.mem_of_getElem? (groupElems_pos hw e), (hval e he hp).2 ▸ hb⟩
    · simp only [active_iff hw he]
      refine ⟨fun ⟨hp, ha⟩ => ?_, fun ⟨hp, ha, hz⟩ => elemAt_loop_zero hw old ((hpart e he).2 hp) ha hz, fun left => elemAt_groupOut_left old ?_⟩
      · rw [elemAt_loop_active hw old ((hpart e he).2 hp) ha, (hval e he hp).1]
      · refine left.imp (fun hp hg => hp ((hpart e he).1 hg)) fun ⟨ha, hz⟩ => ?_
        rw [groupOut, if_neg ha, hz]
        rfl
/-- An element-wise word over a whole tile. -/
theorem writesElements_of_groups (hrun : exec i s = vtile s major minor o w (groups w) f)
    (hval : ∀ e < 32768 / w, (f r e).1 % 2 ^ w = (g e).1 % 2 ^ w ∧ (f r e).2 = (g e).2) :
    writesElements s r i p occ lat o.d o.k o.z w (fun _ => True) g :=
  writesElements_of_vtile h hw ht hrun (fun _ hg => hg) (fun e he => iff_true_intro ((groupOf_mem_groups hw e).2 he)) (fun e he _ => hval e he)
end

end Sys2Proof.Machine
end

section
/-! SUPPORT. O36: the words that pack and unpack rows, draws, splats and stream words (R25, R133, R239, R240, R249–R252). -/

namespace Sys2Proof.Machine

/-! ## Words over rows (R239, R240) -/

/-- The 64 lanes of a row with values in place. -/
def rowLanes (row : Nat) (vs : List Nat) : List (Nat × BitVec 32) := (List.range 64).map (fun j => (64 * row + j, BitVec.ofNat 32 (vs.getD j 0)))
/-- What a row writes: its values when it is active, zeros under `.z`, else nothing. -/
def rowOut (pred : BitVec 1024) (z : Bool) (f : Nat → List Nat × Sticky) (row : Nat) : List (Nat × BitVec 32) :=
  if pred.getLsbD (64 * row) then rowLanes row (f row).1 else if z then rowLanes row [] else []

theorem mem_rowLanes {row l : Nat} {vs : List Nat} {v : BitVec 32} :
    (l, v) ∈ rowLanes row vs ↔ ∃ j < 64, l = 64 * row + j ∧ v = BitVec.ofNat 32 (vs.getD j 0) := by
  simp only [rowLanes, List.mem_map, List.mem_range, Prod.mk.injEq, eq_comm]

section
variable {pred : BitVec 1024} {z : Bool} {f : Nat → List Nat × Sticky}

theorem vrows_none (h : ∀ row < 16, ¬ pred.getLsbD (64 * row) = true) : vrows pred z f = none := by
  unfold vrows
  rw [if_neg (by simpa using h)]
/-- The rows write what each of them writes, and the conditions of the active ones are collected. -/
theorem vrows_some (h : ∃ row < 16, pred.getLsbD (64 * row) = true) : ∃ fl, vrows pred z f = some ((List.range 16).flatMap (rowOut pred z f), fl) ∧
    ∀ b, fl.getLsbD b = true ↔ ∃ row < 16, pred.getLsbD (64 * row) = true ∧ (f row).2.getLsbD b = true := by
  unfold vrows
  rw [if_pos (by simpa using h)]
  simp only [← List.mem_range (n := 16)]
  generalize List.range 16 = rows
  induction rows with
  | nil => exact ⟨0, rfl, by simp⟩
  | cons row rows ih =>
    obtain ⟨fl, hv, hb⟩ := ih
    rw [List.foldr_cons, Option.some.inj hv, List.flatMap_cons]
    by_cases hr : pred.getLsbD (64 * row) = true
    · refine ⟨(f row).2 ||| fl, by simp only [hr, rowOut, rowLanes, ↓reduceIte], fun b => ?_⟩
      rw [List.exists_mem_cons_iff, ← hb]
      simp [hr]
    · refine ⟨fl, ?_, fun b => ?_⟩
      · cases z <;> simp only [hr, rowOut, rowLanes, Bool.false_eq_true, ↓reduceIte, List.nil_append]
      · rw [hb, List.exists_mem_cons_iff]
        simp [hr]

/-- A lane of a row after the rows have written: the last word on it is its own row's. -/
theorem cget_rowOut (old : Tile) {row l : Nat} (hr : row < 16) (hl : l < 64) :
    cget (csetList old ((List.range 16).flatMap (rowOut pred z f))) (64 * row + l) =
      if pred.getLsbD (64 * row) then BitVec.ofNat 32 ((f row).1.getD l 0) else if z then 0 else cget old (64 * row + l) := by
  have own {row' : Nat} {v : BitVec 32} (h : (64 * row + l, v) ∈ rowOut pred z f row') : row' = row := by
    unfold rowOut at h
    split at h
    · obtain ⟨j, hj, e, -⟩ := mem_rowLanes.1 h
      omega
    · split at h
      · obtain ⟨j, hj, e, -⟩ := mem_rowLanes.1 h
        omega
      · cases h
  have written {vs : List Nat} (h : rowOut pred z f row = rowLanes row vs) :
      cget (csetList old ((List.range 16).flatMap (rowOut pred z f))) (64 * row + l) = BitVec.ofNat 32 (vs.getD l 0) := by
    refine cget_csetList_of_mem old (List.mem_flatMap.2 ⟨row, List.mem_range.2 hr, h ▸ mem_rowLanes.2 ⟨l, hl, rfl, rfl⟩⟩) fun u hu => ?_
    obtain ⟨row', -, hu⟩ := List.mem_flatMap.1 hu
    obtain rfl := own hu
    rw [h] at hu
    obtain ⟨j, -, e, rfl⟩ := mem_rowLanes.1 hu
    rw [Nat.add_left_cancel e]
  split
  · next ha => exact written (by rw [rowOut, if_pos ha])
  · next ha =>
    split
    · next hz => exact written (vs := []) (by rw [rowOut, if_neg ha, if_pos hz])
    · next hz =>
      refine cget_csetList_of_not_mem old fun p hp e => ?_
      obtain ⟨l', v⟩ := p
      obtain rfl : l' = 64 * row + l := e
      obtain ⟨row', -, hp⟩ := List.mem_flatMap.1 hp
      obtain rfl := own hp
      rw [rowOut, if_neg ha, if_neg hz] at hp
      cases hp
end

/-- A packing word writes rows (R239, R240). -/
theorem writesRows_of_vrowOp {s : State} {r : VecRun} {i : Instr} {minor : Nat} {o : OpV} {F : Tile → Nat → List Nat × Sticky}
    {f : Nat → List Nat × Sticky} (h : mayIssue s r .arith) (hrun : exec i s = vrowOp s minor o F) (hminor : minor ≠ 0)
    (hF : F (s.core.vec.tile o.a) = f) : writesRows s r i o f := by
  subst hF
  have on (row : Nat) (hr : row < 16) : (o.k = 0 ∨ (s.core.vec.k[o.k.toNat]'o.k.isLt).getLsbD (64 * row) = true) ↔
      (s.core.vec.pred o.k.toNat).getLsbD (64 * row) = true := (pred_getLsbD _ _ (by omega)).symm
  have ht : vecTiming 0x86 minor o.ty 0 0 = (.arith, 4, 6) := by simp only [vecTiming, if_neg hminor]
  rw [writesRows, hrun, vrowOp, ht]
  refine ⟨fun none_ => vissue_done h ?_ rfl, fun ⟨row, hr, ha⟩ => ?_⟩
  · simp only [vrows_none fun row hr ha => none_ row hr ((on row hr).2 ha)]
  · obtain ⟨fl, hv, hfl⟩ := vrows_some (z := o.z) (f := F (s.core.vec.tile o.a)) ⟨row, hr, (on row hr).1 ha⟩
    refine ⟨_, fl, vissue_done h (dest := some (.tile (physTile o.d s.core.vec.vrb) _)) (by simp only [hv]; rfl) rfl, fun b => ?_,
      fun old row l hr hl => ?_⟩
    · rw [hfl]
      exact exists_congr fun row => and_congr_right fun hr => and_congr_left' (on row hr).symm
    · simp only [on row hr, cget_rowOut old hr hl]
      exact ⟨fun ha => if_pos ha, fun ha hz => (if_neg ha).trans (if_pos hz), fun ha hz => (if_neg ha).trans (if_neg (by simp [hz]))⟩

/-! ## Packing (R133, R239) and unpacking (R240) -/

/-- Codes side by side: the sum of the codes at their places. -/
theorem packNibbles_take (n : Nat) (cs : List Nat) : packNibbles (cs.take n) = ((List.range n).map (fun j => cs.getD j 0 % 16 * 16 ^ j)).sum := by
  induction n generalizing cs with
  | zero => rfl
  | succ n ih =>
    rw [List.range_succ_eq_map, List.map_cons, List.map_map, List.sum_cons]
    cases cs with
    | nil => simp [packNibbles, Function.comp_def]
    | cons c cs =>
      have tail : ((List.range n).map ((fun j => (c :: cs).getD j 0 % 16 * 16 ^ j) ∘ Nat.succ)).sum = 16 * packNibbles (cs.take n) := by
        rw [ih, ← List.sum_map_mul_left]
        congr 1
        refine List.map_congr_left fun j _ => ?_
        simp only [Function.comp_apply, Nat.succ_eq_add_one, List.getD_cons_succ, pow_succ]
        ring
      rw [tail]
      simp [packNibbles]
/-- A lane of packed codes. -/
theorem packNibbles_lane (cs : List Nat) (m : Nat) :
    packNibbles ((cs.drop (8 * m)).take 8) = ((List.range 8).map (fun j => cs.getD (8 * m + j) 0 % 16 * 16 ^ j)).sum := by
  rw [packNibbles_take]
  simp only [List.getD_eq_getElem?_getD, List.getElem?_drop]
/-- An unpacked element of a row. -/
theorem dqmxRow_getD (sat : Bool) (t : Tile) (row : Nat) {j : Nat} (hj : j < 64) :
    (dqmxRow sat t row).1.getD j 0 =
      if elemAt t 32 (64 * row + 8) / 256 ^ (j / 32) % 256 = 255 then FloatFmt.f32.nan
      else (fround .f32 .rne sat (mxValue (elemAt t 32 (64 * row + j / 8) / 16 ^ (j % 8) % 16) (elemAt t 32 (64 * row + 8) / 256 ^ (j / 32) % 256))).1 := by
  rw [List.getD_eq_getElem?_getD]
  simp only [dqmxRow, List.getElem?_map, List.getElem?_range hj, Option.map_some, Option.getD_some]
  split <;> rfl

/-! ## Draws (R249–R251) -/

/-- What `vrand` takes of a draw: its top bits, as a fraction for the two formats. -/
def drawCode (ty : BitVec 4) (z : Nat) : Nat × Sticky :=
  if ty = 0 then fround .f64 .rne false (.fin false (z / 2 ^ 11) (-53) false)
  else if ty = 1 then fround .f32 .rne false (.fin false (z / 2 ^ 40) (-24) false) else (z / 2 ^ (64 - vecBits ty), 0)
theorem execVrand_eq (o : OpV) (s : State) :
    execVrand o s = vtile s 0x89 0 o (vecBits o.ty) (groups (vecBits o.ty)) (fun r e => drawCode o.ty (r.draw e)) := by
  unfold execVrand
  dsimp only
  congr 1
  funext r e
  generalize o.ty = ty
  fin_cases ty <;> rfl

/-! ## Stream words (R252) -/

section
variable {s : State} {r : VecRun} (o : OpV)

/-- The occupancy and latency of a stream word. -/
theorem streamTiming (ty : BitVec 4) {spec : Nat} (h : spec ≠ 2) : vecTiming 0x89 1 ty spec 0 = (.arith, if vecBits ty = 64 then 8 else 4, 2) := by
  simp only [vecTiming, if_neg h]
theorem pushTiming : vecTiming 0x89 1 0 2 0 = (.arith, 8, 0) := rfl

variable (h : mayIssue s r .arith)
include h

/-- `vsplat.pop`: idle with no element active, a fault on an unbound register, held on an empty one; else the oldest element goes to every
active element. -/
theorem vsplatPop_cases :
    let w := vecBits o.ty; let occ := if w = 64 then 8 else 4
    let q := s.core.stream (o.a.setWidth 3); let some_ := ∃ e < 32768 / w, active s o.k w e
    (¬ some_ → exec (.vsplatPop o) s = .next (afterIssue s r .arith occ 2 none 0)) ∧
    (some_ → q.bound = false → exec (.vsplatPop o) s = .next (s.vecFault r { cause := .streamUnbound })) ∧
    (some_ → q.bound = true → q.elems = [] → exec (.vsplatPop o) s = .next (s.setRun (some { r with held := true }))) ∧
    (∀ x rest, some_ → q.bound = true → q.elems = x :: rest → ∃ lanes, exec (.vsplatPop o) s = .next (afterIssue
        { s with core := s.core.setElems (o.a.setWidth 3) rest } r .arith occ 2 (some (.tile (physTile o.d s.core.vec.vrb) lanes)) 0) ∧
      ∀ (old : Tile) (e : Nat), e < 32768 / w → let new := elemAt (csetList old lanes) w e
        (active s o.k w e → new = x.toNat % 2 ^ w) ∧ (¬ active s o.k w e → new = if o.z then 0 else elemAt old w e)) := by
  intro w occ q some_
  have hw := vecBits_cases o.ty
  have any : anyActive w (s.core.vec.pred o.k.toNat) (groups w) = true ↔ some_ := anyActive_groups hw
  simp only [show exec (.vsplatPop o) s = execVsplatPop o s from rfl, execVsplatPop, streamTiming o.ty (spec := 1) (by decide)]
  refine ⟨fun ha => vissue_done h ?_ rfl, fun ha hb => vissue_fault h ?_, fun ha hb he => vissue_hold h ?_, fun x rest ha hb he => ?_⟩
  · rw [Bool.eq_false_iff.2 fun h => ha (any.1 h)]
    rfl
  · rw [any.2 ha, hb]
    rfl
  · rw [any.2 ha, hb, he]
    rfl
  · obtain ⟨fl, hv, -⟩ := vloop_some (z := o.z) (f := fun _ => (x.toNat % 2 ^ w, 0)) (any.2 ha)
    refine ⟨_, vissue_done h (by
      rw [any.2 ha, hb, he]
      exact congrArg (fun l => VRes.done _ (some (.tile _ ((l.map Prod.fst).getD []))) 0) hv) rfl, fun old e hlt => ?_⟩
    have hg := (groupOf_mem_groups hw e).2 hlt
    simp only [active_iff (w := w) hw hlt]
    refine ⟨fun hon => (elemAt_loop_active hw old hg hon).trans (Nat.mod_mod _ _), fun hoff => ?_⟩
    split
    · next hz => exact elemAt_loop_zero hw old hg hoff hz
    · next hz => exact elemAt_groupOut_left old (.inr (by rw [groupOut, if_neg hoff, if_neg hz]))

/-- `vsplat.push`: idle when bit 0 of the predicate is clear, a fault on an unbound register, held on a full one; else lanes 0 and 1 go behind
the newest element. -/
theorem vsplatPush_cases :
    let n : BitVec 3 := o.d.setWidth 3; let q := s.core.stream n; let on := o.k = 0 ∨ (s.core.vec.k[o.k.toNat]'o.k.isLt).getLsbD 0 = true
    (¬ on → exec (.vsplatPush o) s = .next (afterIssue s r .arith 8 0 none 0)) ∧
    (on → q.bound = false → exec (.vsplatPush o) s = .next (s.vecFault r { cause := .streamUnbound })) ∧
    (on → q.bound = true → 64 ≤ q.elems.length → exec (.vsplatPush o) s = .next (s.setRun (some { r with held := true }))) ∧
    (on → q.bound = true → q.elems.length < 64 → exec (.vsplatPush o) s = .next (afterIssue
      { s with core := s.core.setElems n (q.elems ++ [BitVec.ofNat 64 (src s o.a 64 0)]) } r .arith 8 0 none 0)) := by
  intro n q on
  have bit : (s.core.vec.pred o.k.toNat).getLsbD 0 = true ↔ on := pred_getLsbD _ _ (by decide)
  simp only [show exec (.vsplatPush o) s = execVsplatPush o s from rfl, execVsplatPush, pushTiming]
  refine ⟨fun ha => vissue_done h ?_ rfl, fun ha hb => vissue_fault h ?_, fun ha hb hn => vissue_hold h ?_, fun ha hb hn => vissue_done h ?_ rfl⟩
  · rw [Bool.eq_false_iff.2 fun h => ha (bit.1 h)]
    rfl
  · rw [bit.2 ha, hb]
    rfl
  · rw [bit.2 ha, hb]
    exact if_pos hn
  · rw [bit.2 ha, hb]
    exact if_neg (Nat.not_le.2 hn)
end

end Sys2Proof.Machine

namespace Sys2Proof
open Sys2Proof.Machine

/-- Settles O36: `vqmx` and `vdqmx` by the rows they write, `vrand` and `vsplat` by their elements, the stream words case by case. -/
theorem vectorPackingAndStreams : Obligations.VectorPackingAndStreams := by
  intro s r o h w block
  have hw := vecBits_cases o.ty
  refine ⟨writesRows_of_vrowOp (F := qmxRow) h rfl (by decide) ?_,
    ⟨_, writesRows_of_vrowOp (F := dqmxRow o.sat) h rfl (by decide) rfl, fun row _ j hj => dqmxRow_getD o.sat _ row hj⟩, ?_, fun hs => ?_, ?_, ?_⟩
  · funext row
    simp only [qmxRow, packNibbles_lane]
    rfl
  · exact writesElements_of_groups h hw rfl (execVrand_eq o s) fun e _ => ⟨rfl, rfl⟩
  · exact writesElements_of_groups h hw (by rw [hs]; exact streamTiming o.ty (by decide)) rfl fun e _ => ⟨Nat.mod_mod _ _, rfl⟩
  · rw [BitVec.ofNat_toNat]
    exact vsplatPop_cases o h
  · rw [BitVec.ofNat_toNat]
    exact vsplatPush_cases o h

end Sys2Proof
end

section
/-! SUPPORT. O55: a word is its four fields put together (R47), and what the decoder accepts, said as an equation; with the reading of every
instruction's own bits (`Laws.RoundTrip`) the two directions of the round trip follow. -/

namespace Sys2Proof.Laws.RoundTrip

/-- The decoder reads every well-formed instruction back from its opcode and operand bits. -/
theorem candidate_opcodeOf : ∀ i, Statement i
  | .nop => nop
  | .add o => add o
  | .sub o => sub o
  | .mul o => mul o
  | .mulh o => mulh o
  | .mulhn o => mulhn o
  | .div o => div o
  | .divn o => divn o
  | .rem o => rem o
  | .remn o => remn o
  | .and o => and o
  | .or o => or o
  | .xor o => xor o
  | .andn o => andn o
  | .shl o => shl o
  | .shr o => shr o
  | .sra o => sra o
  | .rol o => rol o
  | .ror o => ror o
  | .min o => min o
  | .max o => max o
  | .minn o => minn o
  | .maxn o => maxn o
  | .addo o => addo o
  | .subo o => subo o
  | .addi o => addi o
  | .andi o => andi o
  | .ori o => ori o
  | .xori o => xori o
  | .shli o => shli o
  | .shri o => shri o
  | .srai o => srai o
  | .muli o => muli o
  | .li o => li o
  | .lih o => lih o
  | .lpc o => lpc o
  | .ext o => ext o
  | .extn o => extn o
  | .ins o => ins o
  | .clz o => clz o
  | .ctz o => ctz o
  | .popc o => popc o
  | .bswap o => bswap o
  | .seq o => seq o
  | .sne o => sne o
  | .slt o => slt o
  | .sltn o => sltn o
  | .sle o => sle o
  | .slen o => slen o
  | .sel o => sel o
  | .seqi o => seqi o
  | .slti o => slti o
  | .sltni o => sltni o
  | .lea o => lea o
  | .faddF64 o => faddF64 o
  | .fsubF64 o => fsubF64 o
  | .fmulF64 o => fmulF64 o
  | .fdivF64 o => fdivF64 o
  | .fsqrtF64 o => fsqrtF64 o
  | .fminF64 o => fminF64 o
  | .fmaxF64 o => fmaxF64 o
  | .fabsF64 o => fabsF64 o
  | .fnegF64 o => fnegF64 o
  | .fsgnF64 o => fsgnF64 o
  | .faddF32 o => faddF32 o
  | .fsubF32 o => fsubF32 o
  | .fmulF32 o => fmulF32 o
  | .fdivF32 o => fdivF32 o
  | .fsqrtF32 o => fsqrtF32 o
  | .fminF32 o => fminF32 o
  | .fmaxF32 o => fmaxF32 o
  | .fabsF32 o => fabsF32 o
  | .fnegF32 o => fnegF32 o
  | .fsgnF32 o => fsgnF32 o
  | .fma o => fma o
  | .fms o => fms o
  | .fnma o => fnma o
  | .fnms o => fnms o
  | .fcvt o => fcvt o
  | .fcvti o => fcvti o
  | .icvtf o => icvtf o
  | .feq o => feq o
  | .flt o => flt o
  | .fle o => fle o
  | .fclass o => fclass o
  | .beq o => beq o
  | .bne o => bne o
  | .blt o => blt o
  | .bge o => bge o
  | .bltn o => bltn o
  | .bgen o => bgen o
  | .jal o => jal o
  | .jalr o => jalr o
  | .loop o => loop o
  | .ld o => ld o
  | .st o => st o
  | .atomAdd o => atomAdd o
  | .atomAnd o => atomAnd o
  | .atomOr o => atomOr o
  | .atomXor o => atomXor o
  | .atomMin o => atomMin o
  | .atomMax o => atomMax o
  | .atomMinn o => atomMinn o
  | .atomMaxn o => atomMaxn o
  | .atomSwap o => atomSwap o
  | .atomCas o => atomCas o
  | .atomIncb o => atomIncb o
  | .atomAddHbm o => atomAddHbm o
  | .atomAndHbm o => atomAndHbm o
  | .atomOrHbm o => atomOrHbm o
  | .atomXorHbm o => atomXorHbm o
  | .atomMinHbm o => atomMinHbm o
  | .atomMaxHbm o => atomMaxHbm o
  | .atomMinnHbm o => atomMinnHbm o
  | .atomMaxnHbm o => atomMaxnHbm o
  | .atomSwapHbm o => atomSwapHbm o
  | .atomCasHbm o => atomCasHbm o
  | .atomIncbHbm o => atomIncbHbm o
  | .claim o => claim o
  | .claimHbm o => claimHbm o
  | .qPush o => qPush o
  | .qPop o => qPop o
  | .qBind o => qBind o
  | .qCount o => qCount o
  | .flagAdd o => flagAdd o
  | .flagWait o => flagWait o
  | .flagRd o => flagRd o
  | .flagSet o => flagSet o
  | .barArrive o => barArrive o
  | .barWait o => barWait o
  | .barSync o => barSync o
  | .barInit o => barInit o
  | .msgSend o => msgSend o
  | .msgRecv o => msgRecv o
  | .msgPoll o => msgPoll o
  | .bufDecl o => bufDecl o
  | .bufFree o => bufFree o
  | .bufState o => bufState o
  | .bufFill o => bufFill o
  | .bufFull o => bufFull o
  | .bufDrain o => bufDrain o
  | .bufEmpty o => bufEmpty o
  | .bufVer o => bufVer o
  | .tbNew o => tbNew o
  | .tbReg o => tbReg o
  | .tbArg o => tbArg o
  | .tbFlag o => tbFlag o
  | .tbTag o => tbTag o
  | .tbPost o => tbPost o
  | .tbCancel o => tbCancel o
  | .twait o => twait o
  | .tqState o => tqState o
  | .tqFree o => tqFree o
  | .cpBox o => cpBox o
  | .cpFill o => cpFill o
  | .cpGather o => cpGather o
  | .cpScatter o => cpScatter o
  | .shLoad o => shLoad o
  | .shUnload o => shUnload o
  | .palClaim o => palClaim o
  | .palRel o => palRel o
  | .palOwn o => palOwn o
  | .mmaBf16 o => mmaBf16 o
  | .mmaF16 o => mmaF16 o
  | .mmaE4m3 o => mmaE4m3 o
  | .mmaE5m2 o => mmaE5m2 o
  | .mmaI8 o => mmaI8 o
  | .mmaMx4 o => mmaMx4 o
  | .mmaF32 o => mmaF32 o
  | .mmaF64 o => mmaF64 o
  | .mmaZ64 o => mmaZ64 o
  | .accZero o => accZero o
  | .accLoad o => accLoad o
  | .accDrain o => accDrain o
  | .accChk o => accChk o
  | .accGive o => accGive o
  | .leaseSet o => leaseSet o
  | .leaseGet o => leaseGet o
  | .winMap o => winMap o
  | .winUnmap o => winUnmap o
  | .winAllow o => winAllow o
  | .winStat o => winStat o
  | .rpost o => rpost o
  | .rflag o => rflag o
  | .fenceC o => fenceC o
  | .fenceG o => fenceG o
  | .wqPop o => wqPop o
  | .wqCount o => wqCount o
  | .sigSub o => sigSub o
  | .sigRead o => sigRead o
  | .trapf => trapf
  | .trapfAll => trapfAll
  | .trap o => trap o
  | .eret => eret
  | .crr o => crr o
  | .crw o => crw o
  | .crs o => crs o
  | .crc o => crc o
  | .ctxSaveSoft o => ctxSaveSoft o
  | .ctxSaveHard o => ctxSaveHard o
  | .ctxLoad o => ctxLoad o
  | .resume => resume
  | .yield => yield
  | .skBind o => skBind o
  | .skUnbind o => skUnbind o
  | .skWrite o => skWrite o
  | .skInval o => skInval o
  | .sks o => sks o
  | .vadd o => vadd o
  | .vsub o => vsub o
  | .vmul o => vmul o
  | .vmulh o => vmulh o
  | .vmin o => vmin o
  | .vmax o => vmax o
  | .vabs o => vabs o
  | .vneg o => vneg o
  | .vadds o => vadds o
  | .vsubs o => vsubs o
  | .vand o => vand o
  | .vor o => vor o
  | .vxor o => vxor o
  | .vnot o => vnot o
  | .vshl o => vshl o
  | .vshr o => vshr o
  | .vsra o => vsra o
  | .vmov o => vmov o
  | .vsel o => vsel o
  | .vfadd o => vfadd o
  | .vfsub o => vfsub o
  | .vfmul o => vfmul o
  | .vfma o => vfma o
  | .vfms o => vfms o
  | .vfnma o => vfnma o
  | .vfmin o => vfmin o
  | .vfmax o => vfmax o
  | .vfabs o => vfabs o
  | .vfneg o => vfneg o
  | .vdiv o => vdiv o
  | .vsqrt o => vsqrt o
  | .vrcp o => vrcp o
  | .vrsq o => vrsq o
  | .vexp2 o => vexp2 o
  | .vlog2 o => vlog2 o
  | .vcmp o => vcmp o
  | .vfcmp o => vfcmp o
  | .vclass o => vclass o
  | .kand o => kand o
  | .kor o => kor o
  | .kxor o => kxor o
  | .knot o => knot o
  | .kmov o => kmov o
  | .kpop o => kpop o
  | .kfirst o => kfirst o
  | .vcvt o => vcvt o
  | .vqmx o => vqmx o
  | .vdqmx o => vdqmx o
  | .vrotR o => vrotR o
  | .vrotC o => vrotC o
  | .vbcR o => vbcR o
  | .vbcC o => vbcC o
  | .vredR o => vredR o
  | .vredC o => vredC o
  | .vhad32 o => vhad32 o
  | .vld o => vld o
  | .vst o => vst o
  | .vgather o => vgather o
  | .vscatter o => vscatter o
  | .vrand o => vrand o
  | .vsplat o => vsplat o
  | .vsplatPop o => vsplatPop o
  | .vsplatPush o => vsplatPush o
  | .sksv o => sksv o
  | .crFpstatWrite v taskFlags => crFpstatWrite v taskFlags
  | .crCpolWrite v => crCpolWrite v
  | .crTflogWrite v => crTflogWrite v
  | .crStatusWrite v => crStatusWrite v
  | .crCyccmpWrite v => crCyccmpWrite v
  | .crFmapWrite n v => crFmapWrite n v
  | .sketchReload block => sketchReload block
  | .vectorResultLand => vectorResultLand
  | .kernelIterationBoundary => kernelIterationBoundary
  | .holdRelease => holdRelease
  | .stalledInstructionResume => stalledInstructionResume
  | .taskDispatch e => taskDispatch e
  | .copyChunk n => copyChunk n
  | .taskComplete e => taskComplete e
  | .canvasLeaseGrant => canvasLeaseGrant
  | .leaseEnd => leaseEnd
  | .canvasCold => canvasCold
  | .gustTokenTake => gustTokenTake
  | .rampWindowEnd => rampWindowEnd
  | .gustTokenAdvance => gustTokenAdvance
  | .preemptRequest => preemptRequest
  | .cycleCompareMatch => cycleCompareMatch
  | .interruptTaken => interruptTaken
  | .escalatedTaskFault => escalatedTaskFault
  | .saveTimeout d => saveTimeout d
  | .write p => write p
  | .atomic p => atomic p
  | .flag p => flag p
  | .msg p => msg p
  | .post p => post p
  | .cancel p => cancel p
  | .hbm p => hbm p
  | .ack r => ack r
  | .deny r => deny r
  | .reply r => reply r
  | .retry r => retry r
  | .packetResend uid => packetResend uid
  | .retriedPacketResend uid => retriedPacketResend uid
  | .packetHop die p resp => packetHop die p resp
  | .flitReplay die p flit => flitReplay die p flit
  | .laneFailure die p lane => laneFailure die p lane
  | .remap die p lane flit => remap die p lane flit
  | .ackremap die p lane flit => ackremap die p lane flit
  | .detectorThreshold die p resp => detectorThreshold die p resp
  | .zephyrTokenArrival die gen => zephyrTokenArrival die gen
  | .tokenPass die => tokenPass die
  | .leeDelivery die f => leeDelivery die f
  | .leeAcknowledgement die => leeAcknowledgement die
  | .tokenRegeneration => tokenRegeneration
  | .notify fn q w => notify fn q w
  | .mbxCtl fn v => mbxCtl fn v
  | .mailboxWrite fn off bytes => mailboxWrite fn off bytes
  | .mailboxRead fn off len => mailboxRead fn off len
  | .queueEnable fn q => queueEnable fn q
  | .queuePause fn q => queuePause fn q
  | .queueReset fn q => queueReset fn q
  | .registerWrite fn off v => registerWrite fn off v
  | .packetFetch fn q => packetFetch fn q
  | .packetRefetch fn q => packetRefetch fn q
  | .launch fn q idx => launch fn q idx
  | .feed fn q idx => feed fn q idx
  | .signal fn q idx => signal fn q idx
  | .barrierAnd fn q idx => barrierAnd fn q idx
  | .copy fn q idx => copy fn q idx
  | .packetComplete fn q idx => packetComplete fn q idx
  | .signalSubtract => signalSubtract
  | .endOfJobFence ctx => endOfJobFence ctx
  | .quantumExpiry => quantumExpiry
  | .hostReadErrorCompletion fn iova len e => hostReadErrorCompletion fn iova len e
  | .completionTimeout fn iova len => completionTimeout fn iova len
  | .setQn fn n => setQn fn n
  | .keyDelivery ct ctx w tag => keyDelivery ct ctx w tag
  | .attestationRequest nonce => attestationRequest nonce
  | .antiRollbackUpdate value => antiRollbackUpdate value
  | .moduleReset => moduleReset
  | .powerOn b => powerOn b
  | .thermalHold die => thermalHold die
  | .thermalSingleToken die => thermalSingleToken die
  | .thermalShutdown die => thermalShutdown die
  | .patrolScrub unit found => patrolScrub unit found
  | .exitFromHold die => exitFromHold die
  | .powerLoss => powerLoss
  | .leeRouteReplacement => leeRouteReplacement
  | .functionEnable fn => functionEnable fn
  | .functionSettings fn s => functionSettings fn s
  | .unexpectedCompletion fn iova len => unexpectedCompletion fn iova len

end Sys2Proof.Laws.RoundTrip

namespace Sys2Proof

@[simp] theorem majorOf_mkWord (gap : BitVec 10) (major : BitVec 8) (minor : BitVec 6) (x : BitVec 40) : majorOf (mkWord gap major minor x) = major :=
  calc majorOf (mkWord gap major minor x) = (gap ++ major ++ minor).extractLsb' 6 8 := BitVec.extractLsb'_append_eq_of_le (by decide)
    _ = (gap ++ major).extractLsb' 0 8 := BitVec.extractLsb'_append_eq_of_le le_rfl
    _ = major := BitVec.extractLsb'_append_eq_right

@[simp] theorem minorOf_mkWord (gap : BitVec 10) (major : BitVec 8) (minor : BitVec 6) (x : BitVec 40) : minorOf (mkWord gap major minor x) = minor :=
  calc minorOf (mkWord gap major minor x) = (gap ++ major ++ minor).extractLsb' 0 6 := BitVec.extractLsb'_append_eq_of_le le_rfl
    _ = minor := BitVec.extractLsb'_append_eq_right

@[simp] theorem operandsOf_mkWord (gap : BitVec 10) (major : BitVec 8) (minor : BitVec 6) (x : BitVec 40) : operandsOf (mkWord gap major minor x) = x :=
  BitVec.extractLsb'_append_eq_right

/-- A word is its fields put together (R47). -/
theorem mkWord_fields (w : Word) : mkWord (gapOf w) (majorOf w) (minorOf w) (operandsOf w) = w := by
  have top : gapOf w ++ majorOf w = w.extractLsb' 46 (10 + 8) := BitVec.extractLsb'_append_extractLsb'_eq_extractLsb' rfl
  have upper : w.extractLsb' 46 (10 + 8) ++ minorOf w = w.extractLsb' 40 (10 + 8 + 6) := BitVec.extractLsb'_append_extractLsb'_eq_extractLsb' rfl
  have whole : w.extractLsb' 40 (10 + 8 + 6) ++ operandsOf w = w.extractLsb' 0 64 := BitVec.extractLsb'_append_extractLsb'_eq_extractLsb' rfl
  rw [mkWord, top, upper, whole, BitVec.extractLsb'_eq_self]

/-- The decoder accepts exactly the words whose fields are those of the well-formed instruction it reads (R52, R61). -/
theorem decode_eq_some {w : Word} {i : Instr} : decode w = some i ↔
    candidate (majorOf w).toNat (minorOf w).toNat (operandsOf w) = some i ∧ i.wf = true ∧ opcodeOf i = some (majorOf w, minorOf w, operandsOf w) := by
  unfold decode
  cases candidate (majorOf w).toNat (minorOf w).toNat (operandsOf w) with
  | none => simp
  | some c =>
    simp only [admits, Bool.and_eq_true, beq_iff_eq, Option.ite_none_right_eq_some, Option.some.injEq]
    constructor
    · rintro ⟨h, rfl⟩
      exact ⟨rfl, h⟩
    · rintro ⟨rfl, h⟩
      exact ⟨h, rfl⟩

/-- An instruction's word holds its opcode and operand bits, under the gap. -/
theorem encode_eq_some {gap : BitVec 10} {i : Instr} {w : Word} : encode gap i = some w ↔
    ∃ major minor x, opcodeOf i = some (major, minor, x) ∧ mkWord gap major minor x = w := by
  unfold encode
  rcases opcodeOf i with - | ⟨major, minor, x⟩ <;> simp

/-- Settles O55: each instruction's bits are read back as that instruction, and a word the decoder accepts is made of the bits it compared. -/
theorem decodeOfEncode : Obligations.DecodeOfEncode := by
  refine ⟨fun gap i w hwf hw => ?_, fun w i h => ?_⟩
  · obtain ⟨major, minor, x, hop, rfl⟩ := encode_eq_some.1 hw
    refine decode_eq_some.2 ?_
    simp only [majorOf_mkWord, minorOf_mkWord, operandsOf_mkWord]
    exact ⟨Laws.RoundTrip.candidate_opcodeOf i major minor x hwf hop, hwf, hop⟩
  · obtain ⟨-, hwf, hop⟩ := decode_eq_some.1 h
    exact ⟨hwf, encode_eq_some.2 ⟨_, _, _, hop, mkWord_fields w⟩⟩

/-- Settles O53: each of the words is evaluated. -/
theorem knownWords : Obligations.KnownWords := by
  unfold Obligations.KnownWords
  decide

end Sys2Proof
end

section
/-! SUPPORT. O60: what the states that the instructions' statements name leave alone (R55, R137). Those that write one register are one state,
in its PC and its control registers. -/

namespace Sys2Proof.Machine

/-- What a register reads is a matter of the registers alone. -/
theorem State.rd_congr {s t : State} (h : t.core.regs = s.core.regs) (r : Reg) : t.rd r = s.rd r := by
  rw [State.rd, State.rd, Core.rd, Core.rd, h]

/-- After `regsWith` the register written reads the value, unless it is s0. -/
theorem rd_regsWith_same {s t : State} {d : Reg} {v : Word} (h : t.core.regs = s.core.regsWith d v) (hd : d ≠ 0) : t.rd d = v :=
  (State.rd_congr (h.trans (s.wr_core_regs d v).symm) d).trans (s.rd_wr_same d v hd)

/-- After `regsWith` every other register reads as before. -/
theorem rd_regsWith_other {s t : State} {d : Reg} {v : Word} (h : t.core.regs = s.core.regsWith d v) {r : Reg} (hr : r ≠ d) : t.rd r = s.rd r :=
  (State.rd_congr (h.trans (s.wr_core_regs d v).symm) r).trans (s.rd_wr_other d r v hr)

/-- The acting core has written one register, and goes on at a PC with these control registers. -/
def State.written (s : State) (d : Reg) (v : Word) (pc : BitVec 32) (cr : CtlRegs) : State :=
  { s with core := { s.core with regs := s.core.regsWith d v, pc := pc, stall := none, issued := none, cr := cr } }

theorem afterWrite_eq_written (s : State) (d : Reg) (v : Word) : s.afterWrite d v = s.written d v (s.core.pc + 8) s.core.cr := rfl
theorem afterFlags_eq_written (s : State) (d : Reg) (v : Word) (f : BitVec 7) :
    s.afterFlags d v f = s.written d v (s.core.pc + 8) { s.core.cr with fpstat := s.core.cr.fpstat ||| f } := rfl
theorem afterJump_eq_written (s : State) (d : Reg) (v : Word) (pc : BitVec 32) : s.afterJump d v pc = s.written d v pc s.core.cr := rfl

/-- A change of the acting core that keeps its place and its scratchpad leaves every byte. -/
theorem sameBytes_withCore (s : State) {c : Core} (hid : c.id = s.core.id) (hspad : c.spad = s.core.spad) : SameBytes s { s with core := c } :=
  SameBytes.of_eq hid hspad rfl rfl rfl

/-- Writing one register changes that register alone, but for the PC, the control registers and what the core waits for. -/
theorem written_leaves (s : State) (d : Reg) (v : Word) (pc : BitVec 32) (cr : CtlRegs) : let t := s.written d v pc cr
    (∀ r, r ≠ d → t.rd r = s.rd r) ∧ t.rd 0 = 0 ∧ (d ≠ 0 → t.rd d = v) ∧ SameBytes s t ∧ SameOutside s t ∧
    t.core.status = s.core.status ∧ t.core.bufs = s.core.bufs ∧ t.core.streams = s.core.streams ∧ t.core.windows = s.core.windows ∧
    t.core.flags = s.core.flags ∧ t.core.vec = s.core.vec ∧ t.core.inbox = s.core.inbox ∧ t.core.effects = s.core.effects :=
  ⟨fun _ hr => rd_regsWith_other rfl hr, State.rd_zero _, rd_regsWith_same rfl, sameBytes_withCore s rfl rfl, rfl, rfl, rfl, rfl, rfl, rfl, rfl, rfl, rfl⟩

/-- A pair write changes the two registers of the pair alone. -/
theorem rd_afterPair_other (s : State) (d : Reg) (lo hi : Word) {r : Reg} (hlo : r ≠ d) (hhi : r ≠ d + 1) : (s.afterPair d lo hi).rd r = s.rd r :=
  calc (s.afterPair d lo hi).rd r = (s.afterWrite d lo).rd r := rd_regsWith_other rfl hhi
    _ = s.rd r := rd_regsWith_other rfl hlo

end Sys2Proof.Machine

namespace Sys2Proof
open Sys2Proof.Machine

/-- Settles O60: the states that write one register by `written_leaves`; the others change no byte and nothing outside the core. -/
theorem writesLeaveTheRest : Obligations.WritesLeaveTheRest := by
  intro s d v w f pc only
  rw [afterWrite_eq_written, afterFlags_eq_written, afterJump_eq_written]
  exact ⟨⟨written_leaves s d v _ _, rfl, rfl⟩, ⟨written_leaves s d v _ _, rfl, rfl⟩, ⟨written_leaves s d v _ _, rfl, rfl⟩,
    ⟨State.rd_congr rfl, sameBytes_withCore s rfl rfl, rfl, rfl⟩,
    fun _ => rd_afterPair_other s d v w, sameBytes_withCore s rfl rfl, rfl⟩

end Sys2Proof
end

section
/-! SUPPORT. O1: the words' operations as numbers: shifts multiply and divide by powers of two, an immediate is the integer it stands for. -/

namespace Sys2Proof.Machine

/-! ## Shifts, as products and quotients (R143) -/

theorem shiftLeft_eq_ofNat (a : Word) (n : Nat) : a <<< n = BitVec.ofNat 64 (a.toNat * 2 ^ n) := by
  apply BitVec.eq_of_toNat_eq
  rw [BitVec.toNat_shiftLeft, BitVec.toNat_ofNat, Nat.shiftLeft_eq]

theorem ushiftRight_eq_ofNat (a : Word) (n : Nat) : a >>> n = BitVec.ofNat 64 (a.toNat / 2 ^ n) := by
  apply BitVec.eq_of_toNat_eq
  rw [BitVec.toNat_ushiftRight, BitVec.toNat_ofNat, Nat.shiftRight_eq_div_pow, Nat.mod_eq_of_lt]
  exact (Nat.div_le_self _ _).trans_lt a.isLt

theorem sshiftRight_eq_ofInt (a : Word) (n : Nat) : a.sshiftRight n = BitVec.ofInt 64 (a.toInt / 2 ^ n) := by
  rw [BitVec.sshiftRight, Int.shiftRight_eq_div_pow]
  norm_cast

theorem shiftLeft_eq_ofInt (a : Word) (n : Nat) : a <<< n = BitVec.ofInt 64 (a.toInt * 2 ^ n) := by
  have two : BitVec.twoPow 64 n = BitVec.ofInt 64 (2 ^ n) := by
    apply BitVec.eq_of_toNat_eq
    rw [BitVec.toNat_twoPow, ← Nat.cast_ofNat (R := Int), ← Nat.cast_pow, BitVec.ofInt_natCast, BitVec.toNat_ofNat]
  rw [BitVec.shiftLeft_eq_mul_twoPow, BitVec.ofInt_mul, BitVec.ofInt_toInt, two]

/-- A rotation to the left takes bit i to bit i + n (R143). -/
theorem getLsbD_rotateLeft_add (a : Word) {n i : Nat} (hn : n < 64) (hi : i < 64) : (a.rotateLeft n).getLsbD ((i + n) % 64) = a.getLsbD i := by
  rw [BitVec.getLsbD_rotateLeft, Nat.mod_eq_of_lt hn, Bool.cond_decide]
  split
  · congr 1
    omega
  · rw [decide_eq_true (by omega), Bool.true_and]
    congr 1
    omega

/-- A rotation to the right takes bit i + n to bit i (R143). -/
theorem getLsbD_rotateRight_add (a : Word) {n i : Nat} (hn : n < 64) (hi : i < 64) : (a.rotateRight n).getLsbD i = a.getLsbD ((i + n) % 64) := by
  rw [BitVec.getLsbD_rotateRight, Nat.mod_eq_of_lt hn, Bool.cond_decide]
  split
  · congr 1
    omega
  · rw [decide_eq_true (by omega), Bool.true_and]
    congr 1
    omega

/-! ## Immediates and addresses (R54, R145, R146, R149) -/

/-- A sum with an immediate is the sum of the integers. -/
theorem add_sx (a : Word) {n : Nat} (m : BitVec n) : a + sx m = BitVec.ofInt 64 (a.toInt + m.toInt) := by
  rw [BitVec.ofInt_add, BitVec.ofInt_toInt]
  rfl

theorem mul_sx (a : Word) {n : Nat} (m : BitVec n) : a * sx m = BitVec.ofInt 64 (a.toInt * m.toInt) := by
  rw [BitVec.ofInt_mul, BitVec.ofInt_toInt]
  rfl

/-- The PC plus a signed count of words, as a number of 32 bits. -/
theorem branchTo_setWidth (pc : BitVec 32) {n : Nat} (disp : BitVec n) :
    (branchTo pc disp).setWidth 64 = BitVec.ofNat 64 ((pc.toNat + 8 * disp.toInt) % 2 ^ 32).toNat := by
  have h : branchTo pc disp = BitVec.ofInt 32 (pc.toNat + 8 * disp.toInt) := by
    rw [BitVec.ofInt_add, BitVec.ofInt_mul, BitVec.ofInt_natCast, BitVec.ofNat_toNat, BitVec.setWidth_eq]
    rfl
  rw [setWidth_eq_ofNat, h, BitVec.toNat_ofInt]
  rfl

/-- `lih` replaces bits 63:34. -/
theorem append_setWidth_eq (hi : BitVec 30) (a : Word) : hi ++ a.setWidth 34 = BitVec.ofNat 64 (hi.toNat * 2 ^ 34 + a.toNat % 2 ^ 34) := by
  apply BitVec.eq_of_toNat_eq
  have hhi := hi.isLt
  rw [BitVec.toNat_append, BitVec.toNat_setWidth, BitVec.toNat_ofNat, ← Nat.shiftLeft_add_eq_or_of_lt (Nat.mod_lt _ (by decide)), Nat.shiftLeft_eq]
  omega

/-! ## Bit by bit (R143) -/

theorem getLsbD_and_not (a b : Word) (i : Nat) : (a &&& ~~~b).getLsbD i = (a.getLsbD i && !b.getLsbD i) := by
  rw [BitVec.getLsbD_and, BitVec.getLsbD_not]
  by_cases hi : i < 64
  · rw [decide_eq_true hi, Bool.true_and]
  · rw [BitVec.getLsbD_of_ge a i (not_lt.1 hi), Bool.false_and, Bool.false_and]

/-- An instruction that ends by writing one register writes it, by whatever name its value goes. -/
theorem exec_writes {i : Instr} {s : State} {d : Reg} {v w : Word} (h : exec i s = wrote s d v) (hv : v = w) : exec i s = .next (s.afterWrite d w) :=
  h.trans ((wrote_eq s d v).trans (next_afterWrite hv))

theorem logicAndShifts_hold : logicAndShifts := by
  intro s o a b n
  have hn : n < 64 := Nat.mod_lt _ (by decide)
  refine ⟨⟨_, exec_writes rfl rfl, fun i => BitVec.getLsbD_and⟩, ⟨_, exec_writes rfl rfl, fun i => BitVec.getLsbD_or⟩,
    ⟨_, exec_writes rfl rfl, fun i => by rw [Bool.bne_eq_xor, BitVec.getLsbD_xor]⟩, ⟨_, exec_writes rfl rfl, getLsbD_and_not a b⟩,
    exec_writes rfl (shiftLeft_eq_ofNat a n), exec_writes rfl (ushiftRight_eq_ofNat a n), exec_writes rfl (sshiftRight_eq_ofInt a n),
    ⟨_, exec_writes rfl rfl, fun i hi => getLsbD_rotateLeft_add a hn hi⟩, ⟨_, exec_writes rfl rfl, fun i hi => getLsbD_rotateRight_add a hn hi⟩⟩

theorem immediateForms_hold : immediateForms := by
  refine ⟨fun s o => ?_, fun s o => ?_⟩
  · exact ⟨exec_writes rfl (add_sx _ _), exec_writes rfl (mul_sx _ _), exec_writes rfl rfl, exec_writes rfl rfl, exec_writes rfl rfl⟩
  · exact ⟨exec_writes rfl (shiftLeft_eq_ofNat _ _), exec_writes rfl (ushiftRight_eq_ofNat _ _), exec_writes rfl (sshiftRight_eq_ofInt _ _)⟩

theorem constantsAndAddresses_hold : constantsAndAddresses := by
  refine ⟨fun s o => ⟨exec_writes rfl rfl, exec_writes rfl (branchTo_setWidth _ _)⟩, fun s o => exec_writes rfl (append_setWidth_eq _ _), fun s o => ?_⟩
  refine exec_writes (v := s.rd o.a + (s.rd o.b <<< o.sh.toNat) + sx o.off) rfl ?_
  rw [shiftLeft_eq_ofInt, BitVec.ofInt_add, BitVec.ofInt_add, BitVec.ofInt_toInt]
  rfl

end Sys2Proof.Machine

namespace Sys2Proof
open Sys2Proof.Machine

/-- Settles O1, part by part. -/
theorem logicShiftsAndImmediates : Obligations.LogicShiftsAndImmediates :=
  ⟨logicAndShifts_hold, immediateForms_hold, constantsAndAddresses_hold⟩

end Sys2Proof
end

section
/-! SUPPORT. O24: a job read after its update, the end of a program by exit, and the tests of `trapf` (R365, R378). -/

namespace Sys2Proof.Machine

/-! ## Jobs -/

/-- A job reads as what its update left. -/
theorem jobOf_updJob (s : State) (ctx : Nat) (f : Job → Job) (hf : ∀ j, (f j).ctx = j.ctx) : (s.updJob ctx f).jobOf ctx = (s.jobOf ctx).map f :=
  find?_mapWhere_same _ f (fun j => by rw [hf]) _

/-- The job with a core among those whose program has ended. -/
def Job.withEnded (id : CoreId) (j : Job) : Job := if j.ended.contains id then j else { j with ended := j.ended ++ [id] }

theorem Job.withEnded_ctx (id : CoreId) (j : Job) : (j.withEnded id).ctx = j.ctx := by
  unfold Job.withEnded
  split <;> rfl

theorem Job.mem_withEnded (id : CoreId) (j : Job) (c : CoreId) : c ∈ (j.withEnded id).ended ↔ c = id ∨ c ∈ j.ended := by
  unfold Job.withEnded
  split
  · next h => exact ⟨Or.inr, fun hc => hc.elim (fun e => e ▸ List.contains_iff_mem.1 h) fun hm => hm⟩
  · rw [List.mem_append, List.mem_singleton, or_comm]

/-- Nothing else of the job changes. -/
theorem Job.withEnded_frame (id : CoreId) (j : Job) : { j.withEnded id with ended := j.ended } = j := by
  unfold Job.withEnded
  split <;> rfl

/-- In U mode the program of the loaded context ends: the core halts and its job counts it as ended (R365). -/
theorem endProgram_here (s : State) (hu : s.core.status.mode = false) (hcv : s.core.status.cv = true) :
    s.endProgram s.core.cid.toNat s.core.id = { s.updJob s.core.cid.toNat (Job.withEnded s.core.id) with core := s.core.halt } := by
  let u := s.updJob s.core.cid.toNat (Job.withEnded s.core.id)
  have hhold : (u.coreAt s.core.id).holds s.core.cid.toNat = true := by
    rw [show u.coreAt s.core.id = s.core from coreAt_self u, Core.holds_self, hcv]
  refine (if_pos hhold).trans ((updCore_self u _).trans ?_)
  show { u with core := if (s.core.status.mode && s.core.status.td) = true then s.core else s.core.halt } = _
  rw [hu, Bool.false_and, if_neg Bool.false_ne_true]

/-! ## The tests of `trapf` (R293, R378) -/

/-- An enabled condition is set. -/
theorem and_ne_zero_iff {n : Nat} (x y : BitVec n) : (x &&& y != 0) = true ↔ ∃ i < n, x.getLsbD i = true ∧ y.getLsbD i = true := by
  rw [bne_iff_ne, Ne, BitVec.eq_of_getLsbD_eq_iff]
  simp

theorem denied_iff (c : Core) : c.denied = true ↔ c.directDen = true ∨ ∃ w ∈ c.windows.toList, w.den = true := by
  rw [Core.denied, Bool.or_eq_true, List.any_eq_true]

/-- The tests of `trapf` and `trapf.all`, one after the other. -/
theorem ends_trapfTest (s : State) : let raised := ∃ n < 7, s.core.cr.fpstat.getLsbD n = true ∧ s.core.cr.fpen.getLsbD n = true
    let denied := s.core.directDen = true ∨ ∃ w ∈ s.core.windows.toList, w.den = true
    (raised → ends s (trapfTest s) = .next (s.takeFault { cause := .arith })) ∧
    (¬ raised → denied → ends s (trapfTest s) = .next (s.takeFault { cause := .winDenied })) ∧
    (¬ raised → ¬ denied → ends s (trapfTest s) = .next s.afterNext) := by
  intro raised denied
  have hr : (s.core.cr.fpstat &&& s.core.cr.fpen != 0) = true ↔ raised := and_ne_zero_iff _ _
  have hd : s.core.denied = true ↔ denied := denied_iff _
  rw [trapfTest]
  refine ⟨fun h => ?_, fun h h' => ?_, fun h h' => ?_⟩
  · rw [hr.2 h]
    rfl
  · rw [Bool.eq_false_iff.2 (mt hr.1 h), hd.2 h']
    rfl
  · rw [Bool.eq_false_iff.2 (mt hr.1 h), Bool.eq_false_iff.2 (mt hd.1 h')]
    rfl

/-- `trapf` runs the tests, and so does `trapf.all` once no task of the core is pending. -/
theorem exec_trapf_eq {s : State} (hcv : s.core.status.cv = true) {i : Instr} (hi : i ∈ [Instr.trapf, Instr.trapfAll]) (ho : i = .trapfAll → s.ownTasks = []) :
    exec i s = ends s (trapfTest s) := by
  rcases List.mem_pair.1 hi with rfl | rfl
  · show ends s ((needCtx s).bind fun _ => trapfTest s) = _
    rw [needCtx_ok hcv, Res.ok_bind]
  · show ends s ((needCtx s).bind fun _ => (stallIf (!s.ownTasks.isEmpty) .tasks).bind fun _ => trapfTest s) = _
    rw [needCtx_ok hcv, Res.ok_bind, ho rfl]
    rfl

/-- With a task of the core pending, `trapf.all` waits. -/
theorem exec_trapfAll_waits {s : State} (hcv : s.core.status.cv = true) (ho : s.ownTasks ≠ []) : exec .trapfAll s = .next (s.waitsOn .tasks) := by
  show ends s ((needCtx s).bind fun _ => (stallIf (!s.ownTasks.isEmpty) .tasks).bind fun _ => trapfTest s) = _
  rw [needCtx_ok hcv, Res.ok_bind, List.isEmpty_eq_false_iff.2 ho]
  rfl

/-! ## `nop`, `trap` and `eret` (R64, R378) -/

/-- In a body a `nop` takes an issue slot and nothing else. -/
theorem issued_nop (r : VecRun) (ops : FlightOps) : r.issued (r.issueAt r.next) .none 0 0 none 0 ops = { r with
    clock := r.clock + (gapOf (r.body.getD r.next 0)).toNat + 1, next := r.next + 1, held := false, sent := 0 } := by
  have hf : r.task.flags ||| (0 : Sticky) = r.task.flags := BitVec.or_zero
  simp only [VecRun.issued, VecRun.occupy, VecRun.issueAt, Option.map_none, Option.toList_none, List.append_nil, hf]

theorem exec_nop_body {s : State} {r : VecRun} (ht : s.sched.turn = .vector) (hr : s.core.vec.run = some r) :
    exec .nop s = .next { s with core := { s.core with vec := { s.core.vec with run := some { r with
      clock := r.clock + (gapOf (r.body.getD r.next 0)).toNat + 1, next := r.next + 1, held := false, sent := 0 } } } } := by
  have hrun : exec .nop s = vissue s (.none, 0, 0) (fun _ => .done s none 0) := by
    show execNop s = _
    rw [execNop, ht]
  rw [hrun, vissue_done ⟨hr, Nat.zero_le _⟩ rfl rfl, afterIssue, issued_nop]

theorem exec_nop_control {s : State} (ht : s.sched.turn ≠ .vector) : exec .nop s = .next s.afterNext := by
  show execNop s = _
  unfold execNop
  split
  · next h => exact absurd h ht
  · exact passed_eq s

/-- The record of a `trap`: its code, and the cause TRAP (R375). -/
theorem causeWord_trap (code : BitVec 8) : causeWord false false 0 0 code .evTrap = BitVec.ofNat 64 (code.toNat * 2 ^ 8 + 0x40) := by
  simp [causeWord, bitOf, causeCode]

section
variable {s : State} (hu : s.core.status.mode = false) (o : OpTrap)
include hu

/-- In U mode a `trap` exits, or enters the handler, or without one goes to containment. -/
theorem exec_trap_user : exec (.trap o) s = if o.code = 0 then .next s.exitProgram.settled
    else if s.core.cr.tvec = 0 then .next (s.takeFault { cause := .evTrap, addr := some (s.rd o.a), tcode := o.code })
    else .next { s with core := s.core.trapEntry (s.core.pc + 8) (causeWord false false 0 0 o.code .evTrap) (s.rd o.a) 0 } := by
  show execTrap o s = _
  simp only [execTrap, Core.sMode, hu, if_neg Bool.false_ne_true]

theorem exec_trap_handler (hc : o.code ≠ 0) (hv : s.core.cr.tvec ≠ 0) : exec (.trap o) s = .next { s with core := { s.core with
    pc := BitVec.ofNat 32 s.core.cr.tvec.toNat, run := .running, stall := none, issued := none
    cr := { s.core.cr with epc := BitVec.ofNat 64 (s.core.pc + 8).toNat, faddr := s.rd o.a, finfo := 0
                           cause := BitVec.ofNat 64 (o.code.toNat * 2 ^ 8 + 0x40) }
    status := { s.core.status with pm := false, pie := s.core.status.ie, ie := false, td := true, mode := true } } } := by
  rw [exec_trap_user hu, if_neg hc, if_neg hv, causeWord_trap, Core.trapEntry, hu, BitVec.ofNat_toNat, BitVec.ofNat_toNat]

/-- Code 0 ends the program of the loaded context, and its job counts it as ended. -/
theorem exec_trap_exit (hc : o.code = 0) (hcv : s.core.status.cv = true) :
    exec (.trap o) s = .next { s.updJob s.core.cid.toNat (Job.withEnded s.core.id) with core := s.core.halt } := by
  rw [exec_trap_user hu, if_pos hc, State.exitProgram, if_pos hcv, endProgram_here s hu hcv]
  rfl

/-- Without a context, code 0 ends the core's program alone. -/
theorem exec_trap_exit_none (hc : o.code = 0) (hcv : s.core.status.cv = false) :
    exec (.trap o) s = .next { s with core := { s.core with run := .exited, stall := none, issued := none } } := by
  rw [exec_trap_user hu, if_pos hc, State.exitProgram, hcv]
  rfl
end

/-- The program of the loaded context has ended here exactly when its job says so. -/
theorem programEnded_iff (s : State) : s.programEnded = true ↔ s.core.status.cv = true ∧ ∃ j, s.jobOf s.core.cid.toNat = some j ∧ s.core.id ∈ j.ended := by
  rw [State.programEnded, Bool.and_eq_true, Option.any_eq_true]
  simp only [List.contains_iff_mem]

/-- In S mode `eret` returns; where it returns to U mode and the program has ended, the core issues nothing more (log 54). -/
theorem exec_eret_handler {s : State} (hs : s.core.status.mode = true) : exec .eret s = .next { s with core := { s.core with
    pc := pcOf s.core.cr.epc, stall := none, issued := none
    run := if s.programEnded && !s.core.status.pm then .exited else .running
    status := { s.core.status with mode := s.core.status.pm, ie := s.core.status.pie, td := false } } } := by
  show execEret s = _
  rw [execEret, Core.sMode, if_pos hs]
  rfl

end Sys2Proof.Machine

namespace Sys2Proof
open Sys2Proof.Machine

/-- Settles O24, instruction by instruction. -/
theorem trapsAndReturn : Obligations.TrapsAndReturn := by
  intro s
  refine ⟨exec_nop_control, fun r => exec_nop_body, fun hu o => ⟨exec_trap_handler hu o, fun hc hv => ?_, exec_trap_exit_none hu o, fun hc hcv => ?_⟩,
    fun hs => ⟨fun o => ?_, fun r => ?_⟩, fun hcv i hi ho => ?_, exec_trapfAll_waits⟩
  · rw [exec_trap_user hu, if_neg hc, if_pos hv]
  · refine ⟨_, exec_trap_exit hu o hc hcv, rfl, rfl, rfl, fun j hj => ⟨j.withEnded s.core.id, ?_, j.mem_withEnded s.core.id, j.withEnded_frame s.core.id⟩⟩
    exact (jobOf_updJob s _ _ (Job.withEnded_ctx _)).trans (by rw [hj, Option.map_some])
  · exact if_pos hs
  · intro done h
    have hdone : (s.programEnded && !s.core.status.pm) = true ↔ done := by
      rw [Bool.and_eq_true, programEnded_iff, Bool.not_eq_true']
      tauto
    rw [exec_eret_handler hs]
    obtain ⟨hd, rfl⟩ | ⟨hd, rfl⟩ := h
    · rw [hdone.2 hd, if_pos rfl]
    · rw [Bool.eq_false_iff.2 (mt hdone.1 hd), if_neg Bool.false_ne_true]
  · rw [exec_trapf_eq hcv hi ho]
    exact ends_trapfTest s

end Sys2Proof
end

section
/-! SUPPORT. O54: what a step makes of a move, and which move a running core and a vector engine make (R48, R60, R61, R220). -/

namespace Sys2Proof.Machine

/-- After a next state a step moves the schedule alone, and counts the event list as the move left it; any other outcome is the step's own. -/
def StepAfter (s : State) (o : Out) : Prop := match o with
  | .next t => ∃ u, step s = .next u ∧ { u with sched := t.sched } = t ∧ u.sched.events = t.sched.events ∧ u.sched.tick = t.sched.tick + 1 ∧ t.sched.now < u.sched.now
  | o => step s = o

/-- With power and firmware a step is its move, ticked. -/
theorem stepAfter_of_move {s : State} (hp : s.boot.powered = true) (hf : s.boot.failed = none) {o : Out} (h : move s = o) : StepAfter s o := by
  have hdark : (!s.boot.powered) = false := by rw [hp]; rfl
  have hfailed : s.boot.failed.isSome = false := by rw [hf]; rfl
  cases o with
  | next t =>
    refine ⟨t.ticked, by simp only [step, hdark, hfailed, h, Bool.false_eq_true, if_false], rfl, rfl, rfl, ?_⟩
    show t.sched.now < t.sched.now + 1 + _
    omega
  | fault f => simp only [StepAfter, step, hdark, hfailed, h, Bool.false_eq_true, if_false]
  | refused r => simp only [StepAfter, step, hdark, hfailed, h, Bool.false_eq_true, if_false]

/-- No interrupt is taken in a handler, with interrupts off, or with none both pending and enabled (R374, R377). -/
theorem interruptReady_eq_false {c : Core} (h : c.status.td = true ∨ c.status.ie = false ∨
    (c.status.im.getLsbD 0 = false ∨ c.status.ipp = false) ∧ (c.status.im.getLsbD 1 = false ∨ c.status.ipc = false) ∧
    (c.status.im.getLsbD 2 = false ∨ c.inbox = [])) : interruptReady c = false := by
  rw [interruptReady, Bool.eq_false_iff, Ne, Bool.and_eq_true, Bool.and_eq_true, Bool.or_eq_true, Bool.or_eq_true, Bool.and_eq_true,
    Bool.and_eq_true, Bool.and_eq_true, Bool.not_eq_true', Bool.not_eq_true', List.isEmpty_eq_false_iff]
  rintro ⟨⟨hie, htd⟩, hpend⟩
  obtain h | h | ⟨hpre, hcmp, hmsg⟩ := h
  · simp [h] at htd
  · simp [h] at hie
  · obtain (⟨hp, him⟩ | ⟨hp, him⟩) | ⟨hp, him⟩ := hpend
    · exact hpre.elim (ne_true_of_eq_false · him) (ne_true_of_eq_false · hp)
    · exact hcmp.elim (ne_true_of_eq_false · him) (ne_true_of_eq_false · hp)
    · exact hmsg.elim (ne_true_of_eq_false · him) hp

/-- A running core with no exception due and nothing to wait for goes on in its program. -/
theorem coreTurn_eq_runTurn {s : State} (hrun : s.core.run = .running) (hawait : s.core.await = none) (hstall : s.core.stall = none)
    (hdue : s.core.dueFault = none ∨ s.core.status.td = true) (hint : interruptReady s.core = false) : coreTurn s = runTurn s := by
  have hd : (!waitHolds s.core && !s.core.status.td && s.core.dueFault.isSome) = false := by
    obtain h | h := hdue <;> simp [h]
  simp only [coreTurn, hd, hint, hawait, hstall, hrun, Bool.and_false, Bool.false_eq_true, if_false, Option.isSome_none]

/-- With no hold and nothing to land before its next word issues, the engine issues it (R220). -/
theorem vectorTurn_issue {s : State} {r : VecRun} {w : Word} {i : Instr} (hr : s.core.vec.run = some r) (hw : r.body[r.next]? = some w)
    (hheld : r.held = false) (hland : ∀ f ∈ r.flights, r.issueAt r.next < f.landAt) (hi : decodeVector w = some i) : vectorTurn s = exec i s := by
  have hl : r.flights.any (fun f => f.landAt ≤ r.issueAt r.next) = false := by
    rw [List.any_eq_false]
    exact fun f hf => by simpa using hland f hf
  have hm : r.move = .issue w := by simp only [VecRun.move, hw, hl, hheld, Bool.false_eq_true, if_false]
  simp only [vectorTurn, hr, hm, hi]

end Sys2Proof.Machine

namespace Sys2Proof
open Sys2Proof.Machine

/-- Settles O54: the turn's move is the fetched word's meaning, and a step is its move, ticked. -/
theorem stepRunsTheDecoded : Obligations.StepRunsTheDecoded := by
  intro s hp hf after
  refine ⟨fun ht hrun hawait hstall hsketch hissue _ hdue hint => ?_, fun r w i ht hr hw hheld hland hi => ?_⟩
  · have hmove : ∀ o, runTurn s = o → after o := by
      intro o ho
      refine stepAfter_of_move hp hf ?_
      rw [move, ht, ← ho]
      exact coreTurn_eq_runTurn hrun hawait hstall hdue (interruptReady_eq_false hint)
    refine ⟨fun w i hw hi => hmove (exec i s) ?_, fun w hw hi => hmove (.next (s.takeFault { cause := .illegalOp })) ?_,
      fun f hw => hmove (.next (s.takeFault f)) ?_, fun w hw => hmove (.next (s.stalled w)) ?_⟩
    · simp only [runTurn, hsketch, hissue, hw, hi]
    · simp only [runTurn, hsketch, hissue, hw, hi]
    · simp only [runTurn, hsketch, hissue, hw]
    · simp only [runTurn, hsketch, hissue, hw]
  · refine stepAfter_of_move hp hf ?_
    rw [move, ht]
    exact vectorTurn_issue hr hw hheld hland hi

end Sys2Proof
end

section
/-! SUPPORT. O39: which task an engine takes, and what taking it leaves (R321, R324). -/

namespace Sys2Proof.Machine

/-! ## The best task (R324) -/

/-- Of the best task so far and the next one in admission order, the one that goes first. -/
def preferred (b : Option Task) (t : Task) : Option Task := match b with
  | none => some t
  | some u => if u.pri.toNat < t.pri.toNat then some t else some u

theorem bestTask_eq_foldl (ts : List Task) : bestTask ts = ts.foldl preferred none := rfl

theorem preferred_of_lt {b : Option Task} {t : Task} (h : ∀ u ∈ b, u.pri.toNat < t.pri.toNat) : preferred b t = some t := by
  cases b with
  | none => rfl
  | some u => exact if_pos (h u rfl)

theorem preferred_of_le {t u : Task} (h : u.pri.toNat ≤ t.pri.toNat) : preferred (some t) u = some t := if_neg (not_lt.2 h)

theorem preferred_mem {b : Option Task} {t u : Task} (h : u ∈ preferred b t) : u ∈ b ∨ u = t := by
  cases b with
  | none => exact .inr (Option.some.inj h).symm
  | some v =>
    by_cases hlt : v.pri.toNat < t.pri.toNat
    · exact .inr (Option.some.inj ((if_pos hlt).symm.trans h)).symm
    · exact .inl ((if_neg hlt).symm.trans h)

theorem mem_foldl_preferred {u : Task} {l : List Task} {b : Option Task} (h : u ∈ l.foldl preferred b) : u ∈ b ∨ u ∈ l := by
  induction l generalizing b with
  | nil => exact .inl h
  | cons t l ih =>
    obtain hb | hl := ih h
    · exact (preferred_mem hb).imp_right fun e => List.mem_cons.2 (.inl e)
    · exact .inr (List.mem_cons_of_mem _ hl)

theorem foldl_preferred_of_le {t : Task} : ∀ {l : List Task}, (∀ u ∈ l, u.pri.toNat ≤ t.pri.toNat) → l.foldl preferred (some t) = some t
  | [], _ => rfl
  | u :: l, h => by
    rw [List.foldl_cons, preferred_of_le (h u List.mem_cons_self)]
    exact foldl_preferred_of_le fun v hv => h v (List.mem_cons_of_mem _ hv)

/-- The best task is one of higher priority than those before it and no lower than those after it. -/
theorem bestTask_append {older newer : List Task} {t : Task} (ho : ∀ u ∈ older, u.pri.toNat < t.pri.toNat)
    (hn : ∀ u ∈ newer, u.pri.toNat ≤ t.pri.toNat) : bestTask (older ++ t :: newer) = some t := by
  have hbefore : ∀ u ∈ older.foldl preferred none, u.pri.toNat < t.pri.toNat := fun u hu =>
    (mem_foldl_preferred hu).elim (fun h => nomatch h) (ho u)
  rw [bestTask_eq_foldl, List.foldl_append, List.foldl_cons, preferred_of_lt hbefore, foldl_preferred_of_le hn]

/-! ## The own cluster -/

theorem clusterAt_here {s : State} (hp : s.placed) : s.clusterAt s.core.id.die s.core.id.clu = s.cluster := by
  obtain ⟨hdie, hclu, -⟩ := hp
  exact if_pos ⟨hdie, hclu⟩

/-- A task of the own cluster becomes DISPATCHED, and its engine has it (R321). -/
theorem toEngine_here {s : State} (hp : s.placed) (t : Task) (put : Cluster → Cluster) : s.toEngine s.core.id.die s.core.id.clu t put =
    { s with cluster := put { s.cluster with tasks := withDispatched s.cluster t } } := by
  have htasks : s.cluster.updTask t.id (fun t => { t with phase := .dispatched }) = { s.cluster with tasks := withDispatched s.cluster t } := by
    simp only [Cluster.updTask, mapWhere, withDispatched, decide_eq_true_eq]
  obtain ⟨hdie, hclu, -⟩ := hp
  rw [← htasks]
  exact if_pos ⟨hdie, hclu⟩

/-- The chosen task is the best of the candidates. -/
theorem bestTask_of_chosen {s : State} (hp : s.placed) {kind : Task → Bool} {t : Task} (h : chosen s kind t) :
    bestTask (s.candidates s.core.id.die s.core.id.clu kind) = some t := by
  obtain ⟨older, newer, htasks, ht, ho, hn⟩ := h
  rw [State.candidates, clusterAt_here hp, htasks, List.filter_append, List.filter_cons, if_pos ht]
  exact bestTask_append (fun u hu => ho u (List.mem_filter.1 hu).1 (List.mem_filter.1 hu).2)
    (fun u hu => hn u (List.mem_filter.1 hu).1 (List.mem_filter.1 hu).2)

/-- The state after an engine's dispatch, when it takes a task. -/
def State.dispatchTo (s : State) : Engine → Option State
  | .vector k => if k = s.core.id.core then s.dispatchVector else none
  | .copy n => s.dispatchCopy n
  | .shaper => s.dispatchShaper
  | .canvas => s.dispatchCanvas
  | .fabric => s.dispatchFabric

theorem exec_taskDispatch {s u : State} {e : Engine} (h : s.dispatchTo e = some u) : exec (.taskDispatch e) s = .next u := by
  show execTaskDispatch e s = _
  unfold execTaskDispatch
  cases e <;>
  · rw [State.dispatchTo] at h
    simp only [h]

section
variable {s : State} (hp : s.placed) {t : Task}
include hp

/-! ## Copies, shapes and the canvas -/

theorem dispatchCopy_zero (h : chosen s Task.isCopy t) (h0 : s.cluster.copy0 = none) :
    s.dispatchCopy 0 = some { s with cluster := { s.cluster with tasks := withDispatched s.cluster t, copy0 := some t.id } } := by
  simp only [State.dispatchCopy, h0, bestTask_of_chosen hp h, Option.isSome_none, Bool.false_eq_true, if_false, Option.map_some, toEngine_here hp]

theorem dispatchCopy_one (h : chosen s Task.isCopy t) (h0 : s.cluster.copy0 ≠ none) (h1 : s.cluster.copy1 = none) :
    s.dispatchCopy 1 = some { s with cluster := { s.cluster with tasks := withDispatched s.cluster t, copy1 := some t.id } } := by
  have hbusy : s.cluster.copy0.isNone = false := by rwa [Option.isNone_eq_false_iff, Option.isSome_iff_ne_none]
  simp only [State.dispatchCopy, hbusy, h1, bestTask_of_chosen hp h, Option.isSome_none, Bool.or_false, Bool.false_eq_true, if_false, Option.map_some,
    toEngine_here hp]

theorem dispatchShaper_takes (h : chosen s Task.isShape t) (hs : s.cluster.shaper = none) :
    s.dispatchShaper = some { s with cluster := { s.cluster with tasks := withDispatched s.cluster t, shaper := some t.id } } := by
  simp only [State.dispatchShaper, hs, bestTask_of_chosen hp h, Option.isSome_none, Bool.false_eq_true, if_false, Option.map_some, toEngine_here hp]

/-- The holder's next task, while the lease lasts and the canvas is warm or holds a token (R210, R211). -/
theorem dispatchCanvas_takes {h : Nat} (hh : s.cluster.canvas.holder = some h) (he : s.cluster.canvas.ending = false)
    (hc : chosen s (fun u => u.isCanvas && u.requester == h) t) (ht : s.cluster.canvasTask = none) (hd : s.cluster.canvas.done < s.cluster.canvas.leaseLen)
    (hl : ∀ a, s.cluster.canvas.leaseStart = some a → s.sched.now < a + 32768)
    (hw : s.cluster.canvas.gust = true ∨ s.cluster.canvas.cold = false ∧ s.sched.now < s.cluster.canvas.lastBusy + 1024) :
    s.dispatchCanvas = some { s with cluster := { s.cluster with tasks := withDispatched s.cluster t, canvasTask := some t.id, canvas :=
      { s.cluster.canvas with cold := false, leaseStart := some (s.cluster.canvas.leaseStart.getD s.sched.now) } } } := by
  have hbest : bestTask (s.canvasReady s.core.id.die s.core.id.clu h) = some t := bestTask_of_chosen hp hc
  have hready : (s.canvasReady s.core.id.die s.core.id.clu h).isEmpty = false := by
    rw [List.isEmpty_eq_false_iff]
    intro hnil
    rw [hnil] at hbest
    cases hbest
  have hstart : s.cluster.canvas.leaseStart.any (fun a => decide (a + 32768 ≤ s.sched.now)) = false := by
    rw [Option.any_eq_false]
    exact fun a ha => by simpa using hl a ha
  have hlease : s.leaseOver s.core.id.die s.core.id.clu h = false := by
    rw [State.leaseOver, clusterAt_here hp, hready, hstart, he, decide_eq_false (not_le.2 hd)]
    rfl
  have hcold : (s.cluster.cold s.sched.now && !s.cluster.canvas.gust) = false := by
    obtain hg | ⟨hc, hb⟩ := hw
    · rw [hg, Bool.not_true, Bool.and_false]
    · rw [Cluster.cold, hc, decide_eq_false (not_le.2 hb), Bool.and_false, Bool.or_false, Bool.false_and]
  simp only [State.dispatchCanvas, hh, ht, hlease, hcold, hbest, Option.isSome_none, Bool.or_self, Bool.false_eq_true, if_false, Option.map_some,
    toEngine_here hp]

/-! ## The vector engine (R63, R217, R225) -/

/-- A task as its engine takes it. -/
def Task.taken (t : Task) : Task := { t with phase := .dispatched }
/-- The state in which the Atelier has a task of the own cluster DISPATCHED. -/
def State.taking (s : State) (t : Task) : State := { s with cluster := { s.cluster with tasks := withDispatched s.cluster t } }

/-- The chosen vector task starts on its engine, which runs nothing and has nothing dispatched. -/
theorem dispatchVector_starts (hc : chosen s (fun u => u.isVec && u.core == s.core.id.core && !u.remote) t) (hrun : s.core.vec.run = none)
    (hnone : ∀ u ∈ s.cluster.tasks, u.isVec = true → u.core = s.core.id.core → u.phase ≠ .dispatched) :
    exec (.taskDispatch (.vector s.core.id.core)) s = .next ((s.taking t).vecStart t.taken) := by
  have hany : s.cluster.tasks.any (fun t => t.isVec && t.core == s.core.id.core && t.dispatched) = false := by
    rw [List.any_eq_false]
    intro u hu
    simp only [Bool.and_eq_true, beq_iff_eq, Task.dispatched]
    rintro ⟨⟨hvec, hcore⟩, hphase⟩
    exact hnone u hu hvec hcore hphase
  refine exec_taskDispatch ?_
  simp only [State.dispatchTo, if_true, State.dispatchVector, hrun, hany, bestTask_of_chosen hp hc, Option.isSome_none, Bool.or_self, Bool.false_eq_true,
    if_false, Option.map_some, toEngine_here hp]
  rfl

end

section
variable {s : State} {t : Task} (hr : t.resume = .start)
include hr

/-- A fault of the body ends the task before its first issue; what is wrong with a body does not depend on the tasks of the cluster (R63). -/
theorem vecStart_fault {f : FaultInfo} (hf : s.bodyFault t.taken (s.bodyWords t) = some f) :
    (s.taking t).vecStart t.taken = (s.taking t).taskFault s.core.id.die s.core.id.clu t.taken f true := by
  have hb : (s.taking t).bodyFault t.taken ((s.taking t).bodyWords t.taken) = some f := hf
  have hres : t.taken.resume = .start := hr
  simp only [State.vecStart, hres, hb]
  rfl

/-- A body that nothing is wrong with starts at kernel iteration 0. -/
theorem vecStart_fresh (hf : s.bodyFault t.taken (s.bodyWords t) = none) :
    (s.taking t).vecStart t.taken = (s.taking t).vecFresh t.taken (s.bodyWords t) := by
  have hb : (s.taking t).bodyFault t.taken ((s.taking t).bodyWords t.taken) = none := hf
  have hres : t.taken.resume = .start := hr
  simp only [State.vecStart, hres, hb]
  rfl
end

/-- The engine as it starts a task (R217). -/
theorem vecFresh_vec (s : State) (t : Task) (body : List Word) : (s.vecFresh t body).core.vec =
    { ({ s.core.vec with x := Vector.ofFn (fun (i : Fin 16) => if i.val < 8 then t.vec.args.getD i.val 0 else 0), vrb := 0 } : VecEngine).stage 0 t.nest with
      run := some { task := t, body := body, iter := 0, next := 0, clock := 0, arith := 0, perm := 0, ldst := 0, flights := [], held := false } } := rfl

/-- The run it begins: nothing issued, nothing in flight. -/
theorem vecFresh_run (s : State) (t : Task) (body : List Word) : ∃ r, (s.vecFresh t body).core.vec.run = some r ∧ r.task = t ∧ r.body = body ∧
    r.iter = 0 ∧ r.next = 0 ∧ r.clock = 0 ∧ r.flights = [] := ⟨_, rfl, rfl, rfl, rfl, rfl, rfl, rfl⟩

/-- The task's arguments stand in x0–x7, and x8–x15 are zero. -/
theorem vecFresh_x (s : State) (t : Task) (body : List Word) (i : Fin 16) :
    (s.vecFresh t body).core.vec.x[i] = if i.val < 8 then t.vec.args.getD i.val 0 else 0 := by
  rw [vecFresh_vec]
  simp only [VecEngine.stage, Fin.getElem_fin, Vector.getElem_ofFn]

theorem vecFresh_vrb (s : State) (t : Task) (body : List Word) : (s.vecFresh t body).core.vec.vrb = 0 := by
  rw [vecFresh_vec]
  simp only [VecEngine.stage]

theorem vecFresh_v (s : State) (t : Task) (body : List Word) : (s.vecFresh t body).core.vec.v = s.core.vec.v := by
  rw [vecFresh_vec]
  simp only [VecEngine.stage]

theorem vecFresh_cluster (s : State) (t : Task) (body : List Word) : (s.vecFresh t body).cluster = s.cluster := by
  rw [State.vecFresh, State.setVec]

/-- The predicates that are no stage predicates stay. -/
theorem vecFresh_k (s : State) (t : Task) (body : List Word) (i : Fin 16) (hi : i.val < 8) : (s.vecFresh t body).core.vec.k[i] = s.core.vec.k[i] := by
  rw [vecFresh_vec]
  simp only [VecEngine.stage, Fin.getElem_fin, Vector.getElem_ofFn]
  exact if_neg (not_le.2 hi)

/-! ## What is wrong with a body (R63, R225) -/

/-- The first index of a list where something holds. -/
theorem findIdx?_of_first {α : Type} {l : List α} {p : α → Bool} {bad : Nat → Prop} (hbad : ∀ j, bad j ↔ ∃ a, l[j]? = some a ∧ p a = true) :
    (∀ j, (bad j ∧ ∀ i < j, ¬ bad i) → l.findIdx? p = some j) ∧ ((∀ j, ¬ bad j) → l.findIdx? p = none) := by
  refine ⟨fun j h => ?_, fun h => ?_⟩
  · obtain ⟨hj, hfirst⟩ := h
    obtain ⟨a, ha, hpa⟩ := (hbad j).1 hj
    obtain ⟨hlen, rfl⟩ := List.getElem?_eq_some_iff.1 ha
    refine List.findIdx?_eq_some_iff_getElem.2 ⟨hlen, hpa, fun i hi hpi => hfirst i hi ((hbad i).2 ⟨_, List.getElem?_eq_getElem (hi.trans hlen), hpi⟩)⟩
  · refine List.findIdx?_eq_none_iff.2 fun a ha => ?_
    obtain ⟨j, hj, rfl⟩ := List.mem_iff_getElem.1 ha
    exact Bool.eq_false_iff.2 fun hp => h j ((hbad j).2 ⟨_, List.getElem?_eq_getElem hj, hp⟩)

section
variable (s : State) (t : Task)

/-- A word of the body stands in a marked unit. -/
def bodyMarked (j : Nat) : Prop := j < t.vec.n ∧ poisoned s.core.poison (t.vec.body + 8 * j) 8 = true
/-- A word of a body is not one that a vector engine runs. -/
def bodyIllegal (body : List Word) (j : Nat) : Prop := ∃ w, body[j]? = some w ∧ vectorLegal w = false
/-- A `sksv` of a body names no bound vector sketch. -/
def bodyUnbound (body : List Word) (j : Nat) : Prop := ∃ w, body[j]? = some w ∧ (majorOf w).toNat = 0xF4 ∧ s.sksvBound t w = false
/-- The first word of which something holds. -/
def firstOf (bad : Nat → Prop) (j : Nat) : Prop := bad j ∧ ∀ i < j, ¬ bad i

/-- A fault before the first issue, at a word of the body (R63). -/
def bodyFaultAt (c : Cause) (j : Nat) : FaultInfo := { cause := c, addr := some (wordAddr s t j), idx := j }

theorem bodyMarked_iff (j : Nat) : bodyMarked s t j ↔ ∃ a, (List.range t.vec.n)[j]? = some a ∧ poisoned s.core.poison (t.vec.body + 8 * a) 8 = true := by
  constructor
  · rintro ⟨hj, hp⟩
    exact ⟨j, List.getElem?_range hj, hp⟩
  · rintro ⟨a, ha, hp⟩
    obtain ⟨hj, rfl⟩ := List.getElem?_eq_some_iff.1 ha
    rw [List.length_range] at hj
    rw [List.getElem_range] at hp
    exact ⟨hj, hp⟩

theorem bodyIllegal_iff (body : List Word) (j : Nat) : bodyIllegal body j ↔ ∃ w, body[j]? = some w ∧ (!vectorLegal w) = true := by
  simp only [bodyIllegal, Bool.not_eq_true']

theorem bodyUnbound_iff (body : List Word) (j : Nat) : bodyUnbound s t body j ↔
    ∃ w, body[j]? = some w ∧ (decide ((majorOf w).toNat = 0xF4) && !s.sksvBound t w) = true := by
  simp only [bodyUnbound, Bool.and_eq_true, decide_eq_true_eq, Bool.not_eq_true']

/-- Poison goes before an illegal word, that before an unbound sketch, and too many results in flight come last, at the first word (log 82). -/
theorem bodyFault_cases (body : List Word) :
    (∀ j, firstOf (bodyMarked s t) j → s.bodyFault t body = some (bodyFaultAt s t .poison j)) ∧
    ((∀ j, ¬ bodyMarked s t j) →
      (∀ j, firstOf (bodyIllegal body) j → s.bodyFault t body = some (bodyFaultAt s t .illegalOp j)) ∧
      ((∀ j, ¬ bodyIllegal body j) →
        (∀ j, firstOf (bodyUnbound s t body) j → s.bodyFault t body = some (bodyFaultAt s t .sketchUnbound j)) ∧
        ((∀ j, ¬ bodyUnbound s t body j) → 32 < s.inFlight t body → s.bodyFault t body = some (bodyFaultAt s t .issueCollision 0)))) := by
  obtain ⟨marked, unmarked⟩ := findIdx?_of_first (bodyMarked_iff s t)
  obtain ⟨illegal, legal⟩ := findIdx?_of_first (bodyIllegal_iff body)
  obtain ⟨unbound, bound⟩ := findIdx?_of_first (bodyUnbound_iff s t body)
  refine ⟨fun j h => ?_, fun hm => ⟨fun j h => ?_, fun hl => ⟨fun j h => ?_, fun hb h => ?_⟩⟩⟩
  · simp only [State.bodyFault, marked j h, bodyFaultAt]
  · simp only [State.bodyFault, unmarked hm, illegal j h, bodyFaultAt]
  · simp only [State.bodyFault, unmarked hm, legal hl, unbound j h, bodyFaultAt]
  · simp only [State.bodyFault, unmarked hm, legal hl, bound hb, if_pos h, bodyFaultAt]
end

/-! ## The fabric interface (R279, R298) -/

/-- A packet that leaves the acting core's die stands among those that wait for their answer, with the next number of its pair. -/
theorem inject_here {s : State} {d : Nat} (hd : s.die.die = d) (p : Packet) : ∃ k, s.inject d p = { s with die := k } ∧
    { p with seq := nextSeq s.die.seqs p.dst p.cls } ∈ k.unacked :=
  ⟨_, if_pos hd, List.mem_append_right _ (List.mem_singleton_self _)⟩

/-- The packet of an effect, before it has its number (R278). -/
def State.packetFor (s : State) (src : PktSource) (g : Target) (cls : BitVec 4) (body : PktBody) : Packet :=
  { uid := s.modul.nextUid, src := s.dieNumber src.core.die, dst := g.die, fjob := ((s.jobOf src.ctx).map fun j => j.fjob).getD 0
    clu := g.clu, core := g.core, cls := cls, seq := 0, body := body, from_ := src }

/-- A POST to another cluster leaves as a packet of the sender's die. -/
theorem handOnPost_sends {s : State} {src : PktSource} {g : Target} {cls : BitVec 4} {body : PktBody} (hd : s.die.die = src.core.die)
    (h : s.ownCluster src.core g = false) : ∃ u p, s.handOnPost src g cls body = (u, none) ∧ u.cluster = s.cluster ∧ p ∈ u.die.unacked ∧
      p.uid = s.modul.nextUid ∧ p.dst = g.die ∧ p.clu = g.clu ∧ p.core = g.core ∧ p.cls = cls ∧ p.body = body ∧
      p.seq = nextSeq s.die.seqs g.die cls ∧ p.from_ = src := by
  have hn : ¬ s.ownCluster src.core g = true := ne_true_of_eq_false h
  have hsent : ∃ (v : State) (e : Effect), s.handOnPost src g cls body =
      ((v.inject src.core.die (s.packetFor src g cls body)).updCore src.core (addEffect e), none) ∧ v.die = s.die ∧ v.cluster = s.cluster :=
    ⟨_, _, (if_neg hn).trans (if_neg hn), rfl, rfl⟩
  obtain ⟨v, e, hu, hvd, hvc⟩ := hsent
  obtain ⟨k, hk, hmem⟩ := inject_here (hvd ▸ hd) (s.packetFor src g cls body)
  have hframe := updCore_frame (v.inject src.core.die (s.packetFor src g cls body)) src.core (addEffect e)
  rw [hk] at hframe hu
  refine ⟨_, { s.packetFor src g cls body with seq := nextSeq s.die.seqs g.die cls }, hu, (congrArg State.cluster hframe).trans hvc, ?_, rfl, rfl, rfl, rfl, rfl, rfl, rfl, rfl⟩
  rw [hvd] at hmem
  exact (congrArg State.die hframe).symm ▸ hmem

section
variable {s : State} (hp : s.placed) {t : Task}
include hp

/-- The fabric interface takes the oldest `rpost` task, whose POST leaves for another cluster (R298). -/
theorem dispatchFabric_sends {older newer : List Task} {tw : Word} {body : PktBody} (htasks : s.cluster.tasks = older ++ t :: newer) (hop : t.op = .rpost tw body)
    (ht : s.dispatchable s.core.id.die s.core.id.clu t = true) (ho : ∀ u ∈ older, (u.isRpost && s.dispatchable s.core.id.die s.core.id.clu u) = false)
    (hown : s.ownCluster ⟨s.core.id.die, s.core.id.clu, t.core⟩ (s.target tw) = false) (hroom : s.die.pairRoom (s.target tw).die t.cls = true)
    (hretry : s.die.retryBlocks (s.target tw) t.cls isPost = false)
    (hfence : fenceHolds t.orders (s.coreAt ⟨s.core.id.die, s.core.id.clu, t.core⟩).effects (s.target tw).die t.cls = false) :
    ∃ u p, s.dispatchFabric = some u ∧ u.cluster.tasks = withDispatched s.cluster t ∧ u.cluster.fabric = s.cluster.fabric ++ [t.id] ∧
      p ∈ u.die.unacked ∧ p.uid = s.modul.nextUid ∧ p.dst = (s.target tw).die ∧ p.clu = (s.target tw).clu ∧ p.core = (s.target tw).core ∧ p.cls = t.cls ∧
      p.body = body ∧ p.seq = nextSeq s.die.seqs (s.target tw).die t.cls ∧ p.from_.task = some t.id := by
  have hmay : (t.isRpost && s.dispatchable s.core.id.die s.core.id.clu t) = true := by rw [ht, Task.isRpost, hop]; rfl
  have hhead : s.candidates s.core.id.die s.core.id.clu Task.isRpost =
      t :: newer.filter (fun u => u.isRpost && s.dispatchable s.core.id.die s.core.id.clu u) := by
    rw [State.candidates, clusterAt_here hp, htasks, List.filter_append, List.filter_eq_nil_iff.2 fun u hu => ne_true_of_eq_false (ho u hu),
      List.nil_append, List.filter_cons, if_pos hmay]
  obtain ⟨u, p, hu, hcluster, hmem, huid, hdst, hclu, hcore, hcls, hbody, hseq, hfrom⟩ := handOnPost_sends
    (s := { s with cluster := { s.cluster with tasks := withDispatched s.cluster t, fabric := s.cluster.fabric ++ [t.id] } })
    (src := { core := taskCore s.core.id.die s.core.id.clu t, ctx := t.ctx, window := none, task := some t.id })
    (g := s.target tw) (cls := t.cls) (body := body) hp.2.2 hown
  refine ⟨u, p, ?_, congrArg Cluster.tasks hcluster, congrArg Cluster.fabric hcluster, hmem, huid, hdst, hclu, hcore, hcls, hbody, hseq, by rw [hfrom]⟩
  have hwait : (!s.die.pairRoom (s.target tw).die t.cls || s.die.retryBlocks (s.target tw) t.cls isPost ||
      fenceHolds t.orders (s.coreAt (taskCore s.core.id.die s.core.id.clu t)).effects (s.target tw).die t.cls) = false := by
    rw [hroom, hretry]
    exact hfence
  simp only [State.dispatchFabric, hhead, hop, hwait, Bool.false_eq_true, if_false, toEngine_here hp, hu]

end

end Sys2Proof.Machine

namespace Sys2Proof
open Sys2Proof.Machine

/-- Settles O39, engine by engine. -/
theorem taskDispatch : Obligations.TaskDispatch := by
  intro s t hp k c takes
  refine ⟨fun h => ⟨fun h0 => exec_taskDispatch (dispatchCopy_zero hp h h0), fun h0 h1 => exec_taskDispatch (dispatchCopy_one hp h h0 h1)⟩,
    fun h hs => exec_taskDispatch (dispatchShaper_takes hp h hs),
    fun h hh he hc ht hd hl hw => exec_taskDispatch (dispatchCanvas_takes hp hh he hc ht hd hl hw), fun h hrun hnone hr hbody => ?_,
    fun h hrun hnone hr => ?_, fun older newer tw body htasks hop ht ho => ?_⟩
  · have hstart := (dispatchVector_starts hp h hrun hnone).trans (congrArg _ (vecStart_fresh hr hbody))
    obtain ⟨r, hrun', htask, hwords, hiter, hnext, hclock, hflights⟩ := vecFresh_run (s.taking t) t.taken (s.bodyWords t)
    exact ⟨_, r, hstart, hrun', (congrArg Task.id htask).trans rfl, hwords, hiter, hnext, hclock, hflights, vecFresh_vrb _ _ _, vecFresh_v _ _ _,
      vecFresh_x _ _ _, vecFresh_k _ _ _, congrArg Cluster.tasks (vecFresh_cluster _ _ _)⟩
  · intro u words marked illegal unbound first faults
    have hfaults : ∀ {c j}, s.bodyFault u words = some (bodyFaultAt s u c j) → faults c j := fun hf =>
      (dispatchVector_starts hp h hrun hnone).trans (congrArg _ (vecStart_fault hr hf))
    obtain ⟨hmarked, hrest⟩ := bodyFault_cases s u words
    refine ⟨fun j hj => hfaults (hmarked j hj), fun hm => ?_⟩
    obtain ⟨hillegal, hrest⟩ := hrest hm
    refine ⟨fun j hj => hfaults (hillegal j hj), fun hl => ?_⟩
    obtain ⟨hunbound, hover⟩ := hrest hl
    exact ⟨fun j hj => hfaults (hunbound j hj), fun hb h32 => hfaults (hover hb h32)⟩
  · intro g hown hroom hretry hfence
    obtain ⟨u, p, hu, rest⟩ := dispatchFabric_sends hp htasks hop ht ho hown hroom hretry hfence
    exact ⟨u, p, exec_taskDispatch hu, rest⟩

end Sys2Proof
end

section
/-! SUPPORT. O10: a unit of HBM after the write of a few of its bytes (R87, R88, R90). -/

namespace Sys2Proof.Machine

/-- What a byte reads as depends on the key of its unit and on the unit's bytes alone. -/
theorem hbmByte_congr {m m' : Modul} {b : Nat} (key : Nat) (hk : cget m'.hbmKey (b / 64) = cget m.hbmKey (b / 64))
    (hb : ∀ a, a / 64 = b / 64 → cget m'.hbm a = cget m.hbm a) : hbmByte m' key b = hbmByte m key b := by
  have hcipher : hbmCipher m' (b / 64) (b % 64 / 16) = hbmCipher m (b / 64) (b % 64 / 16) := by
    rw [hbmCipher, hbmCipher, hk, readLE_congr m'.hbm m.hbm _ _ fun k h1 h2 => hb k (by omega)]
  unfold hbmByte
  simp only [hk, hb b rfl, hcipher]

/-- Under the key a unit was last written under, its bytes read as the cells hold them. -/
theorem hbmByte_of_key {m : Modul} {key b : Nat} (h : (cget m.hbmKey (b / 64)).toNat = key) : hbmByte m key b = cget m.hbm b :=
  if_pos (beq_iff_eq.2 h)

/-- The module with a unit read under a key and put back under it (R88). -/
def Modul.rekeyed (m : Modul) (key u : Nat) : Modul :=
  if (cget m.hbmKey u).toNat == key then m
  else { m with hbm := csetRange m.hbm (64 * u) 64 (fun a => hbmByte m key a), hbmKey := cset m.hbmKey u (BitVec.ofNat 512 key) }

/-- A write of good bytes to a unit without a mark is performed, under its key. -/
theorem hbmWriteUnit_clean {m : Modul} {u : Nat} (key : Nat) (ws : List (Nat × Byte)) (h : cget m.hbmPoison u = 0) :
    hbmWriteUnit m key u ws false =
      { m.rekeyed key u with hbm := csetList (m.rekeyed key u).hbm ws, hbmPoison := cset (m.rekeyed key u).hbmPoison u 0 } := by
  simp only [hbmWriteUnit, Modul.rekeyed, h, bne_self_eq_false, Bool.false_and, Bool.false_eq_true, if_false]

theorem rekeyed_frame (m : Modul) (key u : Nat) : { m.rekeyed key u with hbm := m.hbm, hbmKey := m.hbmKey } = m := by
  rw [Modul.rekeyed]
  split <;> rfl
theorem rekeyed_poison (m : Modul) (key u : Nat) : (m.rekeyed key u).hbmPoison = m.hbmPoison :=
  (congrArg Modul.hbmPoison (rekeyed_frame m key u) :)
/-- The unit's key is the new one, every other unit keeps its own. -/
theorem rekeyed_key (m : Modul) (key u w : Nat) :
    cget (m.rekeyed key u).hbmKey w = if w = u then BitVec.ofNat 512 key else cget m.hbmKey w := by
  rw [Modul.rekeyed]
  split
  · next h =>
    split
    · next hw => rw [hw, ← beq_iff_eq.1 h, BitVec.ofNat_toNat, BitVec.setWidth_eq]
    · rfl
  · exact cget_cset _ _ _ _
/-- The unit's cells hold what it reads as under the new key, those of other units are as they were. -/
theorem rekeyed_cells (m : Modul) (key u b : Nat) : cget (m.rekeyed key u).hbm b = if b / 64 = u then hbmByte m key b else cget m.hbm b := by
  rw [Modul.rekeyed]
  split
  · next h =>
    split
    · next hb => exact (hbmByte_of_key (by rw [hb]; exact beq_iff_eq.1 h)).symm
    · rfl
  · split
    · exact cget_csetRange_in _ _ _ _ _ (by omega)
    · exact cget_csetRange_out _ _ _ _ _ (by omega)
/-- Rekeying a unit changes nothing that reads under the new key. -/
theorem hbmByte_rekeyed (m : Modul) {key : Nat} (hkey : (BitVec.ofNat 512 key).toNat = key) (u b : Nat) : hbmByte (m.rekeyed key u) key b = hbmByte m key b := by
  by_cases hb : b / 64 = u
  · rw [hbmByte_of_key, rekeyed_cells, if_pos hb]
    rw [rekeyed_key, if_pos hb, hkey]
  · refine hbmByte_congr key ?_ fun a ha => ?_
    · rw [rekeyed_key, if_neg hb]
    · rw [rekeyed_cells, if_neg (ha ▸ hb)]

section
variable {m : Modul} {key u : Nat} {ws : List (Nat × Byte)} (hclean : cget m.hbmPoison u = 0) (hkey : (BitVec.ofNat 512 key).toNat = key)
include hclean hkey

/-- Outside the bytes written nothing reads differently under the key. -/
theorem hbmByte_writeUnit_other {b : Nat} (hin : ∀ p ∈ ws, p.1 / 64 = u) (hb : ∀ p ∈ ws, p.1 ≠ b) :
    hbmByte (hbmWriteUnit m key u ws false) key b = hbmByte m key b := by
  rw [← hbmByte_rekeyed m hkey u b, hbmWriteUnit_clean key ws hclean]
  by_cases hu : b / 64 = u
  · have hk : (cget (m.rekeyed key u).hbmKey (b / 64)).toNat = key := by
      rw [rekeyed_key, if_pos hu, hkey]
    rw [hbmByte_of_key hk, hbmByte_of_key]
    · exact cget_csetList_of_not_mem _ hb
    · exact hk
  · exact hbmByte_congr key rfl fun a ha => cget_csetList_of_not_mem _ fun p hp he => hu (by rw [← ha, ← he, hin p hp])
/-- A byte written once reads as what was written. -/
theorem hbmByte_writeUnit_same {b : Nat} {v : Byte} (hb : b / 64 = u) (hm : (b, v) ∈ ws) (hu : ∀ w, (b, w) ∈ ws → w = v) :
    hbmByte (hbmWriteUnit m key u ws false) key b = v := by
  rw [hbmWriteUnit_clean key ws hclean, hbmByte_of_key]
  · exact cget_csetList_of_mem _ hm hu
  · show (cget (m.rekeyed key u).hbmKey (b / 64)).toNat = key
    rw [rekeyed_key, if_pos hb, hkey]
omit hkey in
/-- The cells of other units are as they were. -/
theorem cget_writeUnit_other {b : Nat} (hin : ∀ p ∈ ws, p.1 / 64 = u) (hb : b / 64 ≠ u) :
    cget (hbmWriteUnit m key u ws false).hbm b = cget m.hbm b := by
  rw [hbmWriteUnit_clean key ws hclean]
  refine (cget_csetList_of_not_mem _ fun p hp he => hb (by rw [← he, hin p hp])).trans ?_
  rw [rekeyed_cells, if_neg hb]
omit hkey in
/-- The marks read as before. -/
theorem poison_writeUnit (w : Nat) : cget (hbmWriteUnit m key u ws false).hbmPoison w = cget m.hbmPoison w := by
  rw [hbmWriteUnit_clean key ws hclean]
  refine (cget_cset _ _ _ _).trans ?_
  rw [rekeyed_poison]
  split
  · next h => rw [h, hclean]
  · rfl
omit hkey in
/-- A write changes the bytes, the keys and the marks alone. -/
theorem writeUnit_frame : { hbmWriteUnit m key u ws false with hbm := m.hbm, hbmKey := m.hbmKey, hbmPoison := m.hbmPoison } = m := by
  rw [hbmWriteUnit_clean key ws hclean]
  have h := rekeyed_frame m key u
  exact (congrArg (fun k : Modul => { k with hbmPoison := m.hbmPoison }) h :)
end

/-- The bytes of a value at an address, each by its place. -/
theorem mem_bytesAt {a n v b : Nat} {w : Byte} : (b, w) ∈ bytesAt a n v ↔ ∃ i < n, b = a + i ∧ w = BitVec.ofNat 8 (v / 256 ^ i) := by
  simp only [bytesAt, List.mem_map, List.mem_range, Prod.mk.injEq, eq_comm]

end Sys2Proof.Machine
end

section
/-! SUPPORT. O10: atomics and claims on HBM (R82, R88, R90, R170, R171, R173, R174). -/

namespace Sys2Proof.Machine

/-! ## What a lookup finds (R77) -/

/-- A hit keeps the address within its 2 MiB, and its key is that of the slot that its entry names. -/
theorem hbmLookup_some {d : Die} {ctx va : Nat} {h : Hit} (hl : hbmLookup d ctx va = some h) :
    h.dpa % 2 ^ 21 = va % 2 ^ 21 ∧ d.slotKey (hbmSlot d ctx va) = h.key ∧ (BitVec.ofNat 512 h.key).toNat = h.key := by
  rw [hbmLookup] at hl
  split at hl
  · obtain ⟨⟨w0, w1⟩, he, rfl⟩ := Option.map_eq_some_iff.1 hl
    refine ⟨?_, ?_, ?_⟩
    · rw [Nat.mul_add_mod_self_right, Nat.mod_mod_of_dvd _ (pow_dvd_pow 2 (Nat.le_add_right 21 _))]
    · simp only [hbmSlot, he, Option.bind_some]
      split <;> rfl
    · dsimp only
      split
      · rw [BitVec.ofNat_toNat, BitVec.setWidth_eq]
      · exact BitVec.toNat_zero
  · cases hl

/-- A field at a multiple of its width, a divisor of 64, lies within its unit of 64 bytes. -/
theorem fits_unit {dpa n : Nat} (hn : n ∣ 64) (h : n ∣ dpa) : dpa % 64 + n ≤ 64 :=
  Nat.le_of_lt_add_of_dvd (by have := Nat.mod_lt dpa (show 0 < 64 by decide); omega) (((Nat.dvd_mod_iff hn).2 h).add dvd_rfl) hn

/-! ## What an atomic writes and returns (R162, R170, R174) -/

/-- A number below 2^n as a signed number. -/
theorem toSigned_of_lt {n v : Nat} (h : v < 2 ^ n) : toSigned n v = if v < 2 ^ (n - 1) then (v : Int) else (v : Int) - 2 ^ n := by
  rw [toSigned_eq, Nat.mod_eq_of_lt h]
  split <;> split <;> omega

/-- Each HBM atomic of the table runs as `atomHbm` with its operation, whose result is the table's. -/
theorem exec_atomTable_hbm (s : State) (o : OpMem) {N : Nat} : ∀ p ∈ atomTable N, ∃ op,
    exec (p.2.1 o) s = endsAtom s (atomHbm s o false (atomReq s o op)) ∧
    ∀ old v new, old < 2 ^ N → atomNew op N old v new = p.2.2 old (v % 2 ^ N) (new % 2 ^ N) := by
  have hmod : ∀ v, v % 2 ^ N < 2 ^ N := fun v => Nat.mod_lt v (Nat.two_pow_pos N)
  simp only [atomTable, List.forall_mem_cons]
  refine ⟨⟨.add, rfl, ?add⟩, ⟨.and, rfl, ?and⟩, ⟨.or, rfl, ?or⟩, ⟨.xor, rfl, ?xor⟩, ⟨.min, rfl, ?min⟩, ⟨.max, rfl, ?max⟩,
    ⟨.minn, rfl, ?minn⟩, ⟨.maxn, rfl, ?maxn⟩, ⟨.swap, rfl, ?swap⟩, ⟨.cas, rfl, ?cas⟩, ⟨.incb, rfl, ?incb⟩, List.forall_mem_nil _⟩
  all_goals
    intro old v new hold
    simp only [atomNew, Nat.mod_eq_of_lt hold]
  case min => simp only [toSigned_of_lt hold, toSigned_of_lt (hmod v), ← not_lt, ite_not]
  case max => simp only [toSigned_of_lt hold, toSigned_of_lt (hmod v), ← not_lt, ite_not]
  case minn => exact (min_def _ _).symm
  case maxn => rw [max_comm, max_def]
  case incb =>
    split
    · exact Nat.mod_eq_of_lt (by have := hmod v; omega)
    · rfl

/-- What an atomic's old value reads as, extended (R162). -/
theorem extend_of_lt {size : BitVec 2} {sx : Bool} {v : Nat} (h : v < 2 ^ (8 * 2 ^ size.toNat)) : extend size sx v =
    if sx = true ∧ 2 ^ (8 * 2 ^ size.toNat - 1) ≤ v then BitVec.ofInt 64 ((v : Int) - 2 ^ (8 * 2 ^ size.toNat)) else BitVec.ofNat 64 v := by
  rw [extend, toSigned_of_lt h, Nat.mod_eq_of_lt h]
  cases sx
  · rw [if_neg Bool.false_ne_true, if_neg fun h => Bool.false_ne_true h.1]
  · rw [if_pos rfl]
    split
    · rw [if_neg fun h => by omega, BitVec.ofInt_natCast]
    · rw [if_pos ⟨rfl, by omega⟩]

/-- An atomic ends with one register written. -/
theorem takeOld_word (s : State) (d : Reg) (size : BitVec 2) (sx : Bool) (old : Nat) :
    (s.takeOld d size sx false old).advance.settled = s.afterWrite d (extend size sx old) := s.wr_advance d _
/-- A claim ends with the pair written. -/
theorem takeOld_pair (s : State) (d : Reg) (size : BitVec 2) (sx : Bool) (old : Nat) :
    (s.takeOld d size sx true old).advance.settled = s.afterPair d (BitVec.ofNat 64 (claimOf old).1) (BitVec.ofNat 64 (claimOf old).2) := by
  show ((s.wrPair d _ _).advance).settled = _
  unfold State.afterPair State.afterWrite Core.regsWith State.wrPair State.wr Core.wr regAfter
  split <;> split <;> rfl

/-- The packet of another die that an HBM atomic goes to (R74). -/
def State.hbmTarget (s : State) (d : Nat) : Target := { die := s.dieNumber d, clu := 0, core := 0 }
/-- A request of the acting core's own, through no window. -/
def Core.ownSource (c : Core) : PktSource := { core := c.id, ctx := c.cid.toNat, window := none, task := none }

/-! ## The checks (R82, R171) -/

theorem faultAt_div {a k : Nat} (h : a < k) (c : Cause) (e : Word) : faultAt (a / k != 0) c e = .ok () := by
  rw [Nat.div_eq_of_lt h]; rfl
theorem faultAt_mod {a n : Nat} (h : a % n = 0) (c : Cause) (e : Word) : faultAt (a % n != 0) c e = .ok () := by
  rw [h]; rfl

section
variable {s : State} {o : OpMem} {claim : Bool} {q : AtomReq} (hcv : s.core.status.cv = true)
include hcv

/-- An address of 2^48 or more is in no range of the map. -/
theorem atomHbm_beyond (h : 2 ^ 48 ≤ (memEa s o).toNat) : atomHbm s o claim q = .fault { cause := .mapMiss, addr := some (memEa s o) } := by
  have h' : ((memEa s o).toNat / 2 ^ 48 != 0) = true := by simp only [bne_iff_ne]; omega
  simp only [atomHbm, needCtx_ok hcv, h', Res.ok_bind, faultAt_true, Res.fault_bind]

variable (hr : (memEa s o).toNat < 2 ^ 48)
include hr

/-- The access must be aligned. -/
theorem atomHbm_misaligned (h : (memEa s o).toNat % atomWidth q ≠ 0) : atomHbm s o claim q = .fault { cause := .misalign, addr := some (memEa s o) } := by
  simp only [atomHbm, needCtx_ok hcv, faultAt_div hr, bne_iff_ne.2 h, Res.ok_bind, faultAt_true, Res.fault_bind]

variable (ha : (memEa s o).toNat % atomWidth q = 0)
include ha

/-- An address that nothing maps misses. -/
theorem atomHbm_miss (hl : hbmLookup s.die s.core.cid.toNat (memEa s o).toNat = none) :
    atomHbm s o claim q = .fault { cause := .mapMiss, addr := some (memEa s o) } := by
  simp only [atomHbm, needCtx_ok hcv, faultAt_div hr, faultAt_mod ha, Res.ok_bind, hl]

variable {h : Hit} (hl : hbmLookup s.die s.core.cid.toNat (memEa s o).toNat = some h)
include hl

/-- So does one whose entry lets no atomic in. -/
theorem atomHbm_closed (hat : h.at_ = false) : atomHbm s o claim q = .fault { cause := .mapMiss, addr := some (memEa s o) } := by
  simp only [atomHbm, needCtx_ok hcv, faultAt_div hr, faultAt_mod ha, Res.ok_bind, hl, hat, Bool.not_false, if_true]

variable (hat : h.at_ = true)
include hat

/-- A fence holds the access back. -/
theorem atomHbm_held (hf : fenceHolds s.core.fences s.core.effects (s.dieNumber (h.dpa / 2 ^ 38)) o.cls = true) : atomHbm s o claim q = .stall .fence := by
  simp only [atomHbm, needCtx_ok hcv, faultAt_div hr, faultAt_mod ha, Res.ok_bind, hl, hat, hf, stallIf_true, Res.stall_bind, Bool.not_true,
    Bool.false_eq_true, if_false, ite_self]

variable (hf : fenceHolds s.core.fences s.core.effects (s.dieNumber (h.dpa / 2 ^ 38)) o.cls = false)
include hf

/-- The memory of the own die answers at once. -/
theorem atomHbm_answered (hd : h.dpa / 2 ^ 38 = s.core.id.die) {t : State} {old : BitVec 128}
    (hm : s.hbmAtomic s.core.id.die h.dpa (hbmSlot s.die s.core.cid.toNat (memEa s o).toNat) q = (t, .reply old)) :
    atomHbm s o claim q = .ok (.done (t.takeOld o.d o.size o.sx claim old.toNat)) := by
  rw [hd] at hf
  simp only [atomHbm, needCtx_ok hcv, faultAt_div hr, faultAt_mod ha, Res.ok_bind, hl, hat, hd, hf, hm, stallIf_false, Bool.not_true,
    Bool.false_eq_true, if_false, if_true]
/-- It denies an access to a marked unit. -/
theorem atomHbm_denied (hd : h.dpa / 2 ^ 38 = s.core.id.die) {t : State} {c : Cause}
    (hm : s.hbmAtomic s.core.id.die h.dpa (hbmSlot s.die s.core.cid.toNat (memEa s o).toNat) q = (t, .deny c)) :
    atomHbm s o claim q = .fault { cause := .poison, addr := some (memEa s o) } := by
  rw [hd] at hf
  simp only [atomHbm, needCtx_ok hcv, faultAt_div hr, faultAt_mod ha, Res.ok_bind, hl, hat, hd, hf, hm, stallIf_false, Bool.not_true,
    Bool.false_eq_true, if_false, if_true]

variable (hd : h.dpa / 2 ^ 38 ≠ s.core.id.die)
include hd

/-- A request to another die waits for room in its pair. -/
theorem atomHbm_full (hp : s.die.pairRoom (s.dieNumber (h.dpa / 2 ^ 38)) o.cls = false) : atomHbm s o claim q = .stall .allowance := by
  simp only [atomHbm, needCtx_ok hcv, faultAt_div hr, faultAt_mod ha, Res.ok_bind, hl, hat, hf, hp, stallIf_false, stallIf_true, Res.stall_bind,
    Bool.not_true, Bool.not_false, Bool.false_eq_true, if_false, if_neg hd]
/-- With room it is handed on, and the core waits for the reply. -/
theorem atomHbm_sent (hp : s.die.pairRoom (s.dieNumber (h.dpa / 2 ^ 38)) o.cls = true) : atomHbm s o claim q =
    .ok (.waits (awaiting (s.handOn s.core.ownSource (s.hbmTarget (h.dpa / 2 ^ 38)) o.cls
      (.hbm h.dpa (hbmSlot s.die s.core.cid.toNat (memEa s o).toNat) q)).1 o claim s.modul.nextUid (memEa s o))) := by
  simp only [atomHbm, needCtx_ok hcv, faultAt_div hr, faultAt_mod ha, Res.ok_bind, hl, hat, hf, hp, stallIf_false, Bool.not_true, Bool.false_eq_true,
    if_false, if_neg hd]
  rfl
end

/-! ## On the own die (R88, R90) -/

/-- What n bytes at an address read as under a key, as a number. -/
def hbmOld (m : Modul) (key dpa n : Nat) : Nat := readLE ((List.range n).map (fun i => (dpa + i, hbmByte m key (dpa + i)))) dpa n

theorem hbmAtomic_marked {s : State} {dpa : Nat} (d : Nat) (slot : Option Nat) (q : AtomReq) (h : cget s.modul.hbmPoison (dpa / 64) ≠ 0) :
    s.hbmAtomic d dpa slot q = (s, .deny .poison) := if_pos (bne_iff_ne.2 h)
theorem hbmAtomic_clean {s : State} {dpa : Nat} (d : Nat) (slot : Option Nat) (q : AtomReq) (h : cget s.modul.hbmPoison (dpa / 64) = 0) :
    let old := hbmOld s.modul ((s.dieAt d).slotKey slot) dpa (atomWidth q)
    s.hbmAtomic d dpa slot q = ({ s with modul := hbmWriteUnit s.modul ((s.dieAt d).slotKey slot) (dpa / 64) (bytesAt dpa (atomWidth q) (atomResult q old)) false },
      .reply (BitVec.ofNat 128 old)) := if_neg (by simp [h])

/-- What an atomic writes to a unit of its die is what the statement asks of it. -/
theorem storedInHbm_writeUnit {s : State} {h : Hit} {n : Nat} (v : Nat) (hclean : cget s.modul.hbmPoison (h.dpa / 64) = 0)
    (hkey : (BitVec.ofNat 512 h.key).toNat = h.key) (hfit : h.dpa % 64 + n ≤ 64) (c : Core) :
    storedInHbm s { s with core := c, modul := hbmWriteUnit s.modul h.key (h.dpa / 64) (bytesAt h.dpa n v) false } h n v := by
  have hin : ∀ p ∈ bytesAt h.dpa n v, p.1 / 64 = h.dpa / 64 := fun ⟨b, w⟩ hp => by
    obtain ⟨i, hi, rfl, -⟩ := mem_bytesAt.1 hp
    dsimp only
    omega
  refine ⟨fun i hi => ?_, fun b hb => ?_, fun b hb => cget_writeUnit_other hclean hin hb, poison_writeUnit hclean,
    congrArg (fun m => { s with modul := m }) (writeUnit_frame hclean)⟩
  · refine hbmByte_writeUnit_same hclean hkey (by omega) (mem_bytesAt.2 ⟨i, hi, rfl, rfl⟩) fun w hw => ?_
    obtain ⟨j, -, hj, rfl⟩ := mem_bytesAt.1 hw
    rw [Nat.add_left_cancel hj]
  · refine hbmByte_writeUnit_other hclean hkey hin fun ⟨a, w⟩ hp => ?_
    obtain ⟨i, hi, rfl, -⟩ := mem_bytesAt.1 hp
    dsimp only
    omega

/-! ## On another die (R74, R278, R279) -/

theorem assoc_assocSet {α β : Type} [DecidableEq α] (k : α) (v : β) (a : α) : ∀ l : List (α × β), assoc (assocSet l k v) a = if k = a then some v else assoc l a
  | [] => rfl
  | (b, w) :: l => by
    rw [assocSet]
    by_cases hb : b = k
    · rw [if_pos hb, assoc, assoc, hb]
      split <;> rfl
    · rw [if_neg hb, assoc, assoc, assoc_assocSet k v a l]
      by_cases hk : k = a
      · rw [if_neg (fun h => hb (h.trans hk.symm)), if_pos hk, if_pos hk]
      · rw [if_neg hk, if_neg hk]

/-- An injected packet stands among the unanswered ones of its die with the next number of its pair, which moves on by one. -/
theorem dieAt_inject (s : State) (d : Nat) (p : Packet) : let k := (s.inject d p).dieAt d; let n := nextSeq (s.dieAt d).seqs p.dst p.cls
    { p with seq := n } ∈ k.unacked ∧ nextSeq k.seqs p.dst p.cls = n + 1 := by
  intro k n
  have hk : k = _ := dieAt_updDie_same s d _ (by intro k; exact push_die k _ _ _ _)
  rw [hk]
  exact ⟨List.mem_append_right _ (List.mem_singleton_self _), by rw [nextSeq, assoc_assocSet, if_pos rfl]; rfl⟩

/-- The record of a packet that has left and has not been answered (R341). -/
def State.effectFor (s : State) (src : PktSource) (t : Target) (cls : BitVec 4) : Effect :=
  { uid := s.modul.nextUid, ctx := src.ctx, cls := cls, die := t.die, clu := t.clu, core := t.core, task := src.task }

/-- A request of the acting core for another cluster leaves; of the core only what is outstanding changes. -/
theorem handOn_leaves {s : State} {t : Target} (cls : BitVec 4) (body : PktBody) (hown : s.ownCluster s.core.id t = false) :
    let u := (s.handOn s.core.ownSource t cls body).1
    leavesAs s t cls body none u ∧ u.core = addEffect (s.effectFor s.core.ownSource t cls) s.core := by
  obtain ⟨v, hu, hcore, hparked, hdie, hdies, hhbm, hhost⟩ : ∃ v : State, (s.handOn s.core.ownSource t cls body).1 =
      (v.inject s.core.id.die (s.packetFor s.core.ownSource t cls body)).updCore s.core.id (addEffect (s.effectFor s.core.ownSource t cls)) ∧
      v.core = s.core ∧ v.parked = s.parked ∧ v.die = s.die ∧ v.parkedDies = s.parkedDies ∧ v.modul.hbm = s.modul.hbm ∧ v.host = s.host :=
    ⟨_, congrArg Prod.fst (if_neg (ne_true_of_eq_false hown)), rfl, rfl, rfl, rfl, rfl, rfl⟩
  have hat : v.dieAt = s.dieAt := by funext d; rw [State.dieAt, State.dieAt, hdie, hdies]
  have only : OnlyDies v (v.inject s.core.id.die (s.packetFor s.core.ownSource t cls body)) := onlyDies_updDie v _ _
  have hid : (v.inject s.core.id.die (s.packetFor s.core.ownSource t cls body)).core = s.core := only.core.trans hcore
  obtain ⟨hmem, hnext⟩ := dieAt_inject v s.core.id.die (s.packetFor s.core.ownSource t cls body)
  rw [hat] at hmem hnext
  have hself := updCore_self (v.inject s.core.id.die (s.packetFor s.core.ownSource t cls body)) (addEffect (s.effectFor s.core.ownSource t cls))
  rw [hid] at hself
  rw [hself] at hu
  have hbytes : SameBytes s (s.handOn s.core.ownSource t cls body).1 := by
    rw [hu]
    exact SameBytes.of_eq rfl rfl (only.parked.trans hparked) ((congrArg Modul.hbm only.modul).trans hhbm) ((congrArg HostPort.mem only.host).trans (congrArg HostPort.mem hhost))
  have hdieAt := congrArg (fun u => State.dieAt u s.core.id.die) hu
  have hmem' := congrArg Die.unacked hdieAt ▸ hmem
  exact ⟨⟨⟨_, hmem', rfl, rfl, rfl, rfl, rfl, rfl, rfl, rfl, rfl⟩, (congrArg (fun k => nextSeq (Die.seqs k) t.die cls) hdieAt).trans hnext,
    congrArg (fun u => u.core.effects) hu, hbytes⟩, congrArg State.core hu⟩

/-- Waiting for the reply changes nothing of what has left. -/
theorem leavesAs_awaiting {s u : State} {t : Target} {cls : BitVec 4} {body : PktBody} (h : leavesAs s t cls body none u) (o : OpMem) (claim : Bool)
    (uid : Nat) (ea : Word) : leavesAs s t cls body none (awaiting u o claim uid ea) := by
  obtain ⟨hpkt, hnext, heff, hbytes⟩ := h
  exact ⟨hpkt, hnext, heff, hbytes.trans (sameBytes_withCore u rfl rfl)⟩

end Sys2Proof.Machine
end

section
/-! SUPPORT. O10: what the statement lists, and its cases put together. -/

namespace Sys2Proof.Machine

/-- The HBM atomics of R170 and the claim, each with the bytes that it touches. -/
def hbmKinds (o : OpMem) : List (Instr × Nat) :=
  (atomTable (8 * 2 ^ o.size.toNat)).map (fun p => (p.2.1 o, 2 ^ o.size.toNat)) ++ [(.claimHbm o, 16)]

/-- Each of them is an `atomHbm` of its width. -/
theorem exec_hbmKinds (s : State) (o : OpMem) : ∀ k ∈ hbmKinds o, ∃ claim q, exec k.1 s = endsAtom s (atomHbm s o claim q) ∧ atomWidth q = k.2 := by
  intro k hk
  rcases List.mem_append.1 hk with hk | hk
  · obtain ⟨p, hp, rfl⟩ := List.mem_map.1 hk
    obtain ⟨op, hexec, -⟩ := exec_atomTable_hbm s o p hp
    exact ⟨false, _, hexec, rfl⟩
  · rw [List.mem_singleton.1 hk]
    exact ⟨true, .claim, rfl, rfl⟩

/-- The unit that an aligned access on the own die leaves. -/
theorem storedInHbm_aligned {s : State} {h : Hit} {ctx va n : Nat} (hl : hbmLookup s.die ctx va = some h) (hn : n ∣ 16) (ha : va % n = 0)
    (hclean : cget s.modul.hbmPoison (h.dpa / 64) = 0) (v : Nat) (c : Core) :
    storedInHbm s { s with core := c, modul := hbmWriteUnit s.modul h.key (h.dpa / 64) (bytesAt h.dpa n v) false } h n v := by
  obtain ⟨hmod, -, hkey⟩ := hbmLookup_some hl
  have hpage : n ∣ 2 ^ 21 := hn.trans (by norm_num)
  refine storedInHbm_writeUnit v hclean hkey (fits_unit (hn.trans (by norm_num)) ?_) c
  rw [← Nat.dvd_mod_iff hpage, hmod, Nat.dvd_mod_iff hpage]
  exact Nat.dvd_of_mod_eq_zero ha

section
variable {s : State} {o : OpMem} (hcv : s.core.status.cv = true)
include hcv

/-- Every kind faults where its checks say so. -/
theorem hbmKinds_range (k : Instr × Nat) (hk : k ∈ hbmKinds o) (h : 2 ^ 48 ≤ (memEa s o).toNat) :
    exec k.1 s = .next (s.takeFault { cause := .mapMiss, addr := some (memEa s o) }) := by
  obtain ⟨claim, q, hexec, -⟩ := exec_hbmKinds s o k hk
  rw [hexec, atomHbm_beyond hcv h, endsAtom]

variable (hr : (memEa s o).toNat < 2 ^ 48)
include hr

theorem hbmKinds_misaligned (k : Instr × Nat) (hk : k ∈ hbmKinds o) (ha : (memEa s o).toNat % k.2 ≠ 0) :
    exec k.1 s = .next (s.takeFault { cause := .misalign, addr := some (memEa s o) }) := by
  obtain ⟨claim, q, hexec, hw⟩ := exec_hbmKinds s o k hk
  rw [hexec, atomHbm_misaligned hcv hr (hw ▸ ha), endsAtom]
theorem hbmKinds_miss (hl : hbmLookup s.die s.core.cid.toNat (memEa s o).toNat = none) (k : Instr × Nat) (hk : k ∈ hbmKinds o)
    (ha : (memEa s o).toNat % k.2 = 0) : exec k.1 s = .next (s.takeFault { cause := .mapMiss, addr := some (memEa s o) }) := by
  obtain ⟨claim, q, hexec, hw⟩ := exec_hbmKinds s o k hk
  rw [hexec, atomHbm_miss hcv hr (hw ▸ ha) hl, endsAtom]

variable {h : Hit} (hl : hbmLookup s.die s.core.cid.toNat (memEa s o).toNat = some h)
include hl

theorem hbmKinds_closed (hat : h.at_ = false) (k : Instr × Nat) (hk : k ∈ hbmKinds o)
    (ha : (memEa s o).toNat % k.2 = 0) : exec k.1 s = .next (s.takeFault { cause := .mapMiss, addr := some (memEa s o) }) := by
  obtain ⟨claim, q, hexec, hw⟩ := exec_hbmKinds s o k hk
  rw [hexec, atomHbm_closed hcv hr (hw ▸ ha) hl hat, endsAtom]

variable (hat : h.at_ = true)
include hat

theorem hbmKinds_held (hf : fenceHolds s.core.fences s.core.effects (s.dieNumber (h.dpa / 2 ^ 38)) o.cls = true) (k : Instr × Nat)
    (hk : k ∈ hbmKinds o) (ha : (memEa s o).toNat % k.2 = 0) : exec k.1 s = .next (s.waitsOn .fence) := by
  obtain ⟨claim, q, hexec, hw⟩ := exec_hbmKinds s o k hk
  rw [hexec, atomHbm_held hcv hr (hw ▸ ha) hl hat hf, endsAtom]
  rfl

variable (hf : fenceHolds s.core.fences s.core.effects (s.dieNumber (h.dpa / 2 ^ 38)) o.cls = false)
include hf

theorem hbmKinds_poison (hd : h.dpa / 2 ^ 38 = s.core.id.die) (hm : cget s.modul.hbmPoison (h.dpa / 64) ≠ 0) (k : Instr × Nat)
    (hk : k ∈ hbmKinds o) (ha : (memEa s o).toNat % k.2 = 0) : exec k.1 s = .next (s.takeFault { cause := .poison, addr := some (memEa s o) }) := by
  obtain ⟨claim, q, hexec, hw⟩ := exec_hbmKinds s o k hk
  rw [hexec, atomHbm_denied hcv hr (hw ▸ ha) hl hat hf hd (hbmAtomic_marked _ _ q hm), endsAtom]
theorem hbmKinds_full (hd : h.dpa / 2 ^ 38 ≠ s.core.id.die) (hp : s.die.pairRoom (s.dieNumber (h.dpa / 2 ^ 38)) o.cls = false) (k : Instr × Nat)
    (hk : k ∈ hbmKinds o) (ha : (memEa s o).toNat % k.2 = 0) : exec k.1 s = .next (s.waitsOn .allowance) := by
  obtain ⟨claim, q, hexec, hw⟩ := exec_hbmKinds s o k hk
  rw [hexec, atomHbm_full hcv hr (hw ▸ ha) hl hat hf hd hp, endsAtom]
  rfl

/-- On the own die the result is written to the unit and the old value is taken. -/
theorem atomHbm_performed {claim : Bool} {q : AtomReq} (ha : (memEa s o).toNat % atomWidth q = 0) (hd : h.dpa / 2 ^ 38 = s.core.id.die)
    (hdie : s.die.die = s.core.id.die) (hclean : cget s.modul.hbmPoison (h.dpa / 64) = 0) (hw : atomWidth q ≤ 16) :
    let old := hbmOld s.modul h.key h.dpa (atomWidth q)
    atomHbm s o claim q = .ok (.done (State.takeOld
      { s with modul := hbmWriteUnit s.modul h.key (h.dpa / 64) (bytesAt h.dpa (atomWidth q) (atomResult q old)) false } o.d o.size o.sx claim old)) := by
  intro old
  obtain ⟨-, hslot, -⟩ := hbmLookup_some hl
  have hhere : s.dieAt s.core.id.die = s.die := if_pos hdie
  have hm := hbmAtomic_clean s.core.id.die (hbmSlot s.die s.core.cid.toNat (memEa s o).toNat) q hclean
  rw [hhere, hslot] at hm
  have hold : old < 2 ^ 128 := (readLE_lt _ _ _).trans_le ((Nat.pow_le_pow_right (by decide) hw).trans (by norm_num))
  rw [atomHbm_answered hcv hr ha hl hat hf hd hm, BitVec.toNat_ofNat, Nat.mod_eq_of_lt hold]

/-- A request to another die leaves it, and the core waits for its reply. -/
theorem atomHbm_leaves {claim : Bool} {q : AtomReq} (ha : (memEa s o).toNat % atomWidth q = 0) (hd : h.dpa / 2 ^ 38 ≠ s.core.id.die)
    (hp : s.die.pairRoom (s.dieNumber (h.dpa / 2 ^ 38)) o.cls = true) (hown : s.ownCluster s.core.id (s.hbmTarget (h.dpa / 2 ^ 38)) = false) :
    ∃ u, endsAtom s (atomHbm s o claim q) = .next u ∧
      leavesAs s (s.hbmTarget (h.dpa / 2 ^ 38)) o.cls (.hbm h.dpa (hbmSlot s.die s.core.cid.toNat (memEa s o).toNat) q) none u ∧
      u.core.regs = s.core.regs ∧ u.core.pc = s.core.pc ∧ u.core.stall = some .reply ∧
      u.core.await.map (fun a => (a.uid, a.d, a.claim)) = some (s.modul.nextUid, o.d, claim) := by
  obtain ⟨hleaves, hcore⟩ := handOn_leaves o.cls (.hbm h.dpa (hbmSlot s.die s.core.cid.toNat (memEa s o).toNat) q) hown
  refine ⟨_, congrArg (endsAtom s) (atomHbm_sent hcv hr ha hl hat hf hd hp), leavesAs_awaiting hleaves .., ?_, ?_, rfl, rfl⟩
  · exact (congrArg Core.regs hcore :)
  · exact (congrArg Core.pc hcore :)
end

end Sys2Proof.Machine

namespace Sys2Proof
open Sys2Proof.Machine

/-- Settles O10: the checks and waits by `exec_hbmKinds`, the own die by what a unit's write leaves, another die by what `handOn` sends. -/
theorem nearMemoryAtomics : Obligations.NearMemoryAtomics := by
  intro s o hcv ea n N faults kinds hit operand new
  refine ⟨fun k hk => ⟨hbmKinds_range hcv k hk, fun hr => ⟨hbmKinds_misaligned hcv hr k hk, fun ha hl => hbmKinds_miss hcv hr hl k hk ha⟩⟩,
    fun h hr hl => ⟨hbmKinds_closed hcv hr hl, fun hat => ?_⟩⟩
  intro d far held
  refine ⟨hbmKinds_held hcv hr hl hat, fun hf hd hdie => ?own, fun hf hd hown => ?far⟩
  case own =>
    intro old
    refine ⟨hbmKinds_poison hcv hr hl hat hf hd, fun hclean => ⟨fun hsize ha p hp => ?_, fun ha => ?_⟩⟩
    · obtain ⟨op, hexec, hnew⟩ := exec_atomTable_hbm s o p hp
      have hn : n ∣ 16 := pow_dvd_pow 2 (show o.size.toNat ≤ 4 by omega)
      have hold : old n < 2 ^ N := (readLE_lt _ _ _).trans_eq (by rw [show (256 : Nat) = 2 ^ 8 from rfl, ← pow_mul])
      have hdone := atomHbm_performed (claim := false) (q := atomReq s o op) hcv hr hl hat hf ha hd hdie hclean (Nat.le_of_dvd (by decide) hn)
      refine ⟨_, hexec.trans (congrArg (endsAtom s) hdone), ?_, ?_⟩
      · rw [takeOld_word, ← hnew (old n) _ _ hold]
        exact storedInHbm_aligned hl hn ha hclean _ _
      · rw [takeOld_word, ← extend_of_lt hold]
        rfl
    · intro r
      have hdone := atomHbm_performed (claim := true) (q := .claim) hcv hr hl hat hf ha hd hdie hclean le_rfl
      refine ⟨_, congrArg (endsAtom s) hdone, ?_, ?_⟩
      · rw [takeOld_pair]
        exact storedInHbm_aligned hl dvd_rfl ha hclean _ _
      · rw [takeOld_pair]
        rfl
  case far =>
    intro slot leaves
    refine ⟨hbmKinds_full hcv hr hl hat hf hd, fun hp => ⟨fun ha p hop => ?_, fun ha => ?_⟩⟩
    · obtain ⟨op, hexec, hnew⟩ := exec_atomTable_hbm s o p hop
      obtain ⟨u, hu, hrest⟩ := atomHbm_leaves (claim := false) (q := atomReq s o op) hcv hr hl hat hf ha hd hp hown
      exact ⟨u, _, ⟨hexec.trans hu, hrest⟩, fun _ old hold => hnew old _ _ hold⟩
    · exact atomHbm_leaves (claim := true) (q := .claim) hcv hr hl hat hf ha hd hp hown

end Sys2Proof
end

section
/-! SUPPORT. O49: what touches the host port alone. -/

section
open Sys2Proof Sys2Proof.Machine

/-! ## The rest of the machine -/

theorem onlyHost.refl (s : State) : onlyHost s s := rfl
theorem onlyHost.trans {s t u : State} (h : onlyHost s t) (h' : onlyHost t u) : onlyHost s u := by
  unfold onlyHost at h h' ⊢
  rw [← h, ← h']
/-- A change of the port alone. -/
theorem onlyHost.set {s t : State} (h : onlyHost s t) (p : HostPort) : onlyHost s { t with host := p } := h
theorem onlyHost.foldl {α : Type} (g : State → α → State) (hg : ∀ s a, onlyHost s (g s a)) : ∀ (l : List α) (s : State), onlyHost s (l.foldl g s)
  | [], s => .refl s
  | a :: l, s => (hg s a).trans (onlyHost.foldl g hg l (g s a))

variable {s t : State}
theorem onlyHost.core (h : onlyHost s t) : t.core = s.core := (congrArg State.core h :)
theorem onlyHost.coreAt (h : onlyHost s t) (id : CoreId) : t.coreAt id = s.coreAt id := by
  rw [State.coreAt, h.core, show t.parked = s.parked from (congrArg State.parked h :), State.coreAt]
theorem onlyHost.dieAt (h : onlyHost s t) (d : Nat) : t.dieAt d = s.dieAt d := by
  rw [State.dieAt, show t.die = s.die from (congrArg State.die h :), show t.parkedDies = s.parkedDies from (congrArg State.parkedDies h :), State.dieAt]
theorem onlyHost.jobs (h : onlyHost s t) : t.modul.jobs = s.modul.jobs := (congrArg (fun u => u.modul.jobs) h :)
theorem onlyHost.caps (h : onlyHost s t) : t.modul.caps = s.modul.caps := (congrArg (fun u => u.modul.caps) h :)
theorem onlyHost.dies (h : onlyHost s t) : t.dies = s.dies := by rw [State.dies, h.caps, State.dies]

end

namespace Sys2Proof.Machine

/-! ## What touches it -/

theorem onlyHost_updFn (s : State) (fn : Nat) (f : Function → Function) : onlyHost s (s.updFn fn f) := by
  unfold State.updFn
  split <;> rfl
theorem onlyHost_updQueue (s : State) (fn q : Nat) (g : Queue → Queue) : onlyHost s (s.updQueue fn q g) := onlyHost_updFn s fn _
theorem onlyHost_toPort (s : State) (w : PostedWrite) : onlyHost s (s.toPort w) := rfl
theorem onlyHost_serveSignal (s : State) (fn a : Nat) : onlyHost s (s.serveSignal fn a) := by
  unfold State.serveSignal
  split <;> rfl
theorem onlyHost_signalError (s : State) (fn a status cause : Nat) : onlyHost s (s.signalError fn a status cause) := by
  refine (onlyHost_serveSignal s fn a).trans ?_
  unfold State.signalError
  dsimp only
  split <;> rfl
theorem onlyHost_subtract (s : State) (fn a : Nat) (v : Word) : onlyHost s (s.subtract fn a v) :=
  (onlyHost_serveSignal s fn a).trans rfl
theorem onlyHost_drainSubs (s : State) : onlyHost s s.drainSubs :=
  onlyHost.trans (t := { s with host := { s.host with subs := [] } }) rfl (.foldl _ (fun s (b : Subtraction) => onlyHost_subtract s b.fn b.iova b.amount) _ _)
theorem onlyHost_writeStatus (s : State) (fn q : Nat) : onlyHost s (s.writeStatus fn q) := rfl
theorem onlyHost_signalPacket (s : State) (fn q : Nat) (p : QPacket) (status cause : Nat) : onlyHost s (s.signalPacket fn q p status cause) := by
  unfold State.signalPacket
  dsimp only
  refine onlyHost.set (?_ : onlyHost s _) _
  have subtracted : onlyHost s (if (p.dw 1).toNat = 0 then s.drainSubs else
      (if status = 0 then s else s.signalError fn (p.dw 1).toNat status cause).drainSubs.subtract fn (p.dw 1).toNat 1) := by
    split
    · exact onlyHost_drainSubs s
    · refine onlyHost.trans ?_ ((onlyHost_drainSubs _).trans (onlyHost_subtract _ _ _ _))
      split
      · exact .refl s
      · exact onlyHost_signalError ..
  split
  · exact subtracted.trans (onlyHost_toPort _ _)
  · exact subtracted
theorem onlyHost_releaseSignals (s : State) : onlyHost s s.releaseSignals := rfl
theorem onlyHost_dropPacket (s : State) (fn q idx : Nat) : onlyHost s (s.dropPacket fn q idx) := (onlyHost_updQueue s fn q _).trans (onlyHost_releaseSignals _)
theorem onlyHost_queueError (s : State) (fn q status idx : Nat) (self : Bool) : onlyHost s (s.queueError fn q status idx self) := by
  unfold State.queueError
  split
  · exact .refl s
  · exact ((onlyHost_updQueue s fn q _).trans (onlyHost_writeStatus _ fn q)).trans
      (.foldl _ (fun s p => (onlyHost_signalPacket s fn q p 15 0).trans (onlyHost_dropPacket _ fn q _)) _ _)
theorem onlyHost_failPacket (s : State) (fn q : Nat) (p : QPacket) (status cause : Nat) : onlyHost s (s.failPacket fn q p status cause) :=
  ((onlyHost_signalPacket s fn q p status cause).trans (onlyHost_queueError _ fn q _ _ _)).trans (onlyHost_dropPacket _ fn q _)
theorem onlyHost_startPkt (s : State) (fn q idx : Nat) (f : QPacket → QPacket) : onlyHost s (s.startPkt fn q idx f) :=
  (onlyHost_updQueue s fn q _).set _
theorem onlyHost_failServed (s : State) (ctx : Nat) : onlyHost s (s.failServed ctx) := by
  unfold State.failServed
  dsimp only
  generalize s.host.functions.flatMap _ = l
  induction l generalizing s with
  | nil => exact .refl s
  | cons x l ih => exact (onlyHost_failPacket s x.1 x.2.1 x.2.2 13 0).trans (ih _)

/-! ## The functions and their queues -/

/-- What a queue reads as is a matter of the functions alone. -/
theorem queueAt_congr {s t : State} (h : t.host.functions = s.host.functions) (fn q : Nat) : t.queueAt fn q = s.queueAt fn q := by
  rw [State.queueAt, State.queueAt, State.fnAt, State.fnAt, h]

theorem fnAt_updFn_same (s : State) (fn : Nat) (f : Function → Function) (hf : ∀ k, (f k).fn = k.fn) : (s.updFn fn f).fnAt fn = f (s.fnAt fn) := by
  unfold State.updFn State.fnAt
  split
  · next h =>
    obtain ⟨k, hk⟩ := Option.isSome_iff_exists.1 (List.find?_isSome.2 (List.any_eq_true.1 h))
    dsimp only
    rw [find?_mapWhere_same _ _ (by simp [hf]), hk]
    rfl
  · next h =>
    dsimp only
    rw [List.find?_cons_of_pos (by simp [hf]), List.find?_eq_none.2 (by simpa using h)]
    rfl
theorem Function.queueAt_updQueue_same (k : Function) (q : Nat) (g : Queue → Queue) (hg : ∀ x, (g x).q = x.q) :
    (k.updQueue q g).queueAt q = g (k.queueAt q) := by
  unfold Function.updQueue Function.queueAt
  split
  · next h =>
    obtain ⟨x, hx⟩ := Option.isSome_iff_exists.1 (List.find?_isSome.2 (List.any_eq_true.1 h))
    dsimp only
    rw [find?_mapWhere_same _ _ (by simp [hg]), hx]
    rfl
  · next h =>
    dsimp only
    rw [List.find?_cons_of_pos (by simp [hg]), List.find?_eq_none.2 (by simpa using h)]
    rfl
theorem Function.updQueue_fn (k : Function) (q : Nat) (g : Queue → Queue) : (k.updQueue q g).fn = k.fn := by
  unfold Function.updQueue
  split <;> rfl
/-- A queue reads as what its update left. -/
theorem queueAt_updQueue_same (s : State) (fn q : Nat) (g : Queue → Queue) (hg : ∀ x, (g x).q = x.q) :
    (s.updQueue fn q g).queueAt fn q = g (s.queueAt fn q) := by
  rw [State.queueAt, State.updQueue, fnAt_updFn_same _ _ _ fun k => k.updQueue_fn q g, Function.queueAt_updQueue_same _ _ _ hg, State.queueAt]

@[simp] theorem serveSignal_functions (s : State) (fn a : Nat) : (s.serveSignal fn a).host.functions = s.host.functions := by
  unfold State.serveSignal
  split <;> rfl
@[simp] theorem signalError_functions (s : State) (fn a status cause : Nat) : (s.signalError fn a status cause).host.functions = s.host.functions := by
  rw [← serveSignal_functions s fn a]
  unfold State.signalError
  dsimp only
  split <;> rfl
@[simp] theorem subtract_functions (s : State) (fn a : Nat) (v : Word) : (s.subtract fn a v).host.functions = s.host.functions := serveSignal_functions s fn a
@[simp] theorem drainSubs_functions (s : State) : s.drainSubs.host.functions = s.host.functions :=
  foldl_keeps (fun t => t.host.functions = s.host.functions) _ (fun t (b : Subtraction) h => (subtract_functions t b.fn b.iova b.amount).trans h)
    s.host.subs { s with host := { s.host with subs := [] } } rfl
@[simp] theorem signalPacket_functions (s : State) (fn q : Nat) (p : QPacket) (status cause : Nat) :
    (s.signalPacket fn q p status cause).host.functions = s.host.functions := by
  have failed : (if status = 0 then s else s.signalError fn (p.dw 1).toNat status cause).host.functions = s.host.functions := by
    split
    · rfl
    · exact signalError_functions ..
  have subtracted : (if (p.dw 1).toNat = 0 then s.drainSubs else
      (if status = 0 then s else s.signalError fn (p.dw 1).toNat status cause).drainSubs.subtract fn (p.dw 1).toNat 1).host.functions = s.host.functions := by
    split
    · exact drainSubs_functions s
    · rw [subtract_functions, drainSubs_functions, failed]
  rw [State.signalPacket, State.behind]
  dsimp only
  split
  · exact subtracted
  · exact subtracted
@[simp] theorem queueAt_signalPacket (s : State) (fn q : Nat) (p : QPacket) (status cause : Nat) (fn' q' : Nat) :
    (s.signalPacket fn q p status cause).queueAt fn' q' = s.queueAt fn' q' := queueAt_congr (signalPacket_functions ..) fn' q'
@[simp] theorem queueAt_writeStatus (s : State) (fn q fn' q' : Nat) : (s.writeStatus fn q).queueAt fn' q' = s.queueAt fn' q' := rfl

/-- A packet that is dropped leaves its queue. -/
theorem queueAt_dropPacket (s : State) (fn q idx : Nat) :
    (s.dropPacket fn q idx).queueAt fn q = { (s.queueAt fn q) with pkts := (s.queueAt fn q).pkts.filter (fun p => p.idx ≠ idx) } :=
  (queueAt_congr rfl fn q).trans (queueAt_updQueue_same s fn q _ fun _ => rfl)

/-- Packets that fail one after another leave their queue; the rest of it is as before. -/
theorem queueAt_foldl_drop (fn q : Nat) : ∀ (l : List QPacket) (s : State),
    (l.foldl (fun s p => (s.signalPacket fn q p 15 0).dropPacket fn q p.idx) s).queueAt fn q =
      { (s.queueAt fn q) with pkts := (s.queueAt fn q).pkts.filter (fun x => ∀ p ∈ l, x.idx ≠ p.idx) }
  | [], s => by simp
  | p :: l, s => by
    rw [List.foldl_cons, queueAt_foldl_drop fn q l, queueAt_dropPacket, queueAt_signalPacket]
    simp only [List.filter_filter, List.forall_mem_cons, Bool.decide_and, Bool.and_comm]

/-- A queue that is not in error enters it, and keeps of its packets those that have started, and the failing one. -/
theorem queueAt_queueError {s : State} {fn q : Nat} (status idx : Nat) (h : (s.queueAt fn q).state ≠ .error) : let k := s.queueAt fn q;
    (s.queueError fn q status idx true).queueAt fn q = { k with
      state := .error, ecode := BitVec.ofNat 32 status, epkt := BitVec.ofNat 32 idx
      pkts := k.pkts.filter (fun x => decide (∀ p ∈ k.pkts.filter (fun p : QPacket => !p.started && !(true && p.idx == idx)), x.idx ≠ p.idx)) } := by
  intro k
  rw [State.queueError, if_neg h]
  rw [queueAt_foldl_drop, queueAt_writeStatus, queueAt_updQueue_same]
  exact fun _ => rfl

/-- A packet that fails at a queue that runs: the queue is in error, and what is left has started. -/
theorem queueAt_failPacket {s : State} {fn q : Nat} (p : QPacket) (status cause : Nat) (h : (s.queueAt fn q).state ≠ .error) :
    let k := (s.failPacket fn q p status cause).queueAt fn q
    k.state = .error ∧ k.ecode = BitVec.ofNat 32 status ∧ k.epkt = BitVec.ofNat 32 p.idx ∧ ∀ x ∈ k.pkts, x.started = true ∧ x.idx ≠ p.idx := by
  intro k
  have hk : k = _ := queueAt_dropPacket _ fn q p.idx
  rw [queueAt_queueError _ _ (by rwa [queueAt_signalPacket])] at hk
  rw [hk]
  refine ⟨rfl, rfl, rfl, fun x hx => ?_⟩
  simp only [List.mem_filter, decide_eq_true_eq, Bool.and_eq_true, Bool.not_eq_true', Bool.true_and, beq_eq_false_iff_ne, queueAt_signalPacket] at hx
  obtain ⟨⟨hmem, hkeep⟩, hidx⟩ := hx
  refine ⟨?_, hidx⟩
  by_contra hs
  exact hkeep x ⟨hmem, by simpa using hs, hidx⟩ rfl

end Sys2Proof.Machine
end

section
/-! SUPPORT. O49: host memory as the device's reads find it after its own posted writes (R85, R336), and what a failing packet does to its
signal (R360, R364). -/

namespace Sys2Proof.Machine

/-! ## Host memory behind posted writes -/

theorem hostSeen_toPort (s : State) (w : PostedWrite) (fn : Nat) : (s.toPort w).hostSeen fn =
    if w.fn = fn then csetList (s.hostSeen fn) (w.bytes.map (fun p => (hostKey fn p.1, p.2))) else s.hostSeen fn := by
  unfold State.hostSeen State.toPort
  split
  · next h => simp [List.filter_append, h]
  · next h => simp [List.filter_append, h]
theorem hostSeen_behind (s : State) (n : Nat) (p : Nat × Nat × Nat) (fn : Nat) : (s.behind n p).hostSeen fn = s.hostSeen fn := by
  unfold State.hostSeen State.behind
  dsimp only
  generalize s.host.mem = m
  induction s.host.posted generalizing m with
  | nil => rfl
  | cons w l ih =>
    simp only [mapWhere, decide_eq_true_eq] at ih ⊢
    by_cases hn : n ≤ w.uid <;> by_cases hw : w.fn = fn <;> simp [hn, hw, ih]
theorem hostD_congr {s t : State} {fn : Nat} (h : t.hostSeen fn = s.hostSeen fn) (a : Nat) : t.hostD fn a = s.hostD fn a := by
  rw [State.hostD, State.hostNat, h]
  rfl

theorem hostKey_add {a i : Nat} (fn : Nat) (h : a + i < 2 ^ 64) : hostKey fn (a + i) = hostKey fn a + i := by
  rw [hostKey, hostKey, Nat.mod_eq_of_lt h, Nat.mod_eq_of_lt (by omega)]
  omega
/-- The bytes of a value as they stand in a function's memory. -/
theorem bytesAt_hostKey {a n : Nat} (fn v : Nat) (h : a + n ≤ 2 ^ 64) :
    (bytesAt a n v).map (fun p => (hostKey fn p.1, p.2)) = bytesAt (hostKey fn a) n v := by
  rw [bytesAt, bytesAt, List.map_map]
  refine List.map_congr_left fun i hi => ?_
  rw [List.mem_range] at hi
  exact Prod.ext (hostKey_add fn (by omega)) rfl

/-- What a list of bytes wrote reads back. -/
theorem readLE_csetList_bytesAt (m : List Host.Cell) (a n v : Nat) : readLE (csetList m (bytesAt a n v)) a n = v % 256 ^ n := by
  rw [← readLE_writeLE m a n v]
  refine readLE_congr _ _ _ _ fun k h1 h2 => ?_
  rw [cget_writeLE_in _ _ _ _ _ ⟨h1, h2⟩]
  refine cget_csetList_of_mem _ (List.mem_map.2 ⟨k - a, List.mem_range.2 (by omega), ?_⟩) fun u hu => ?_
  · rw [show a + (k - a) = k by omega]
  · obtain ⟨i, -, he⟩ := List.mem_map.1 hu
    obtain ⟨rfl, rfl⟩ := Prod.mk.inj he
    rw [Nat.add_sub_cancel_left]

/-- A doubleword that the device has posted reads back. -/
theorem hostD_hostWriteD_same (s : State) {fn a : Nat} (v : Word) (h : a + 8 ≤ 2 ^ 64) : (s.hostWriteD fn a v).hostD fn a = v := by
  rw [State.hostD, State.hostNat, State.hostWriteD, State.hostWrite, hostSeen_toPort, if_pos rfl, bytesAt_hostKey _ _ h, readLE_csetList_bytesAt,
    Nat.mod_eq_of_lt (by simpa using v.isLt), BitVec.ofNat_toNat, BitVec.setWidth_eq]
/-- One elsewhere reads as before. -/
theorem hostD_hostWrite_other (s : State) {fn a b n : Nat} (v : Nat) (ha : a + 8 ≤ 2 ^ 64) (hb : b + n ≤ 2 ^ 64) (h : a + 8 ≤ b ∨ b + n ≤ a) :
    (s.hostWrite fn (bytesAt b n v)).hostD fn a = s.hostD fn a := by
  rw [State.hostD, State.hostNat, State.hostWrite, hostSeen_toPort, if_pos rfl, bytesAt_hostKey _ _ hb, State.hostD, State.hostNat]
  refine congrArg _ (readLE_congr _ _ _ _ fun k h1 h2 => cget_csetList_of_not_mem _ fun p hp => ?_)
  obtain ⟨i, hi, rfl⟩ := List.mem_map.1 hp
  rw [List.mem_range] at hi
  rw [hostKey, Nat.mod_eq_of_lt (by omega)] at h1 h2
  rw [hostKey]
  dsimp only
  rcases Nat.eq_zero_or_pos n with rfl | hn
  · omega
  · rw [Nat.mod_eq_of_lt (show b < 2 ^ 64 by omega)]
    omega

/-! ## A signal -/

theorem updFn_frame (s : State) (fn : Nat) (f : Function → Function) :
    { s.updFn fn f with host := { (s.updFn fn f).host with functions := s.host.functions } } = s := by
  unfold State.updFn
  split <;> rfl
theorem serveSignal_frame (s : State) (fn a : Nat) :
    { s.serveSignal fn a with host := { (s.serveSignal fn a).host with signals := s.host.signals } } = s := by
  unfold State.serveSignal
  split <;> rfl
theorem hostSeen_updQueue (s : State) (fn q : Nat) (g : Queue → Queue) (fn' : Nat) : (s.updQueue fn q g).hostSeen fn' = s.hostSeen fn' :=
  (congrArg (fun t => t.hostSeen fn') (updFn_frame s fn (fun f => f.updQueue q g)) :)
theorem hostSeen_serveSignal (s : State) (fn a fn' : Nat) : (s.serveSignal fn a).hostSeen fn' = s.hostSeen fn' :=
  (congrArg (fun t => t.hostSeen fn') (serveSignal_frame s fn a) :)
theorem serveSignal_subs (s : State) (fn a : Nat) : (s.serveSignal fn a).host.subs = s.host.subs :=
  (congrArg (fun t => t.host.subs) (serveSignal_frame s fn a) :)
theorem updQueue_subs (s : State) (fn q : Nat) (g : Queue → Queue) : (s.updQueue fn q g).host.subs = s.host.subs :=
  (congrArg (fun t => t.host.subs) (updFn_frame s fn (fun f => f.updQueue q g)) :)
theorem updQueue_signals (s : State) (fn q : Nat) (g : Queue → Queue) : (s.updQueue fn q g).host.signals = s.host.signals :=
  (congrArg (fun t => t.host.signals) (updFn_frame s fn (fun f => f.updQueue q g)) :)

/-- The record of a signal, when the command processor serves it. -/
def State.signalRec (s : State) (fn a : Nat) : Option SignalRec := s.host.signals.find? (fun r => r.fn = fn && r.iova = a)

theorem signalValue_of_rec {s : State} {fn a : Nat} {r : SignalRec} (h : s.signalRec fn a = some r) : s.signalValue fn a = r.value := by
  rw [State.signalRec] at h
  rw [State.signalValue, h]
  rfl
/-- A signal that is served has a record, which holds what the signal read as; its error field is the old one's or the memory's. -/
theorem signalRec_serveSignal (s : State) {fn a : Nat} (ha : a ≠ 0) : ∃ r, (s.serveSignal fn a).signalRec fn a = some r ∧ r.value = s.signalValue fn a ∧
    (r.err = s.hostD fn (a + 8) ∨ ∃ x ∈ s.host.signals, x.fn = fn ∧ x.iova = a ∧ r.err = x.err) := by
  by_cases hany : s.host.signals.any (fun r => r.fn = fn && r.iova = a) = true
  · obtain ⟨r, hr⟩ := Option.isSome_iff_exists.1 (List.find?_isSome.2 (List.any_eq_true.1 hany))
    rw [State.serveSignal, if_pos (.inr hany)]
    have hfound := List.find?_some hr
    simp only [Bool.and_eq_true, decide_eq_true_eq] at hfound
    exact ⟨r, hr, (signalValue_of_rec hr).symm, .inr ⟨r, List.mem_of_find?_eq_some hr, hfound.1, hfound.2, rfl⟩⟩
  · have hnone : s.host.signals.find? (fun r => r.fn = fn && r.iova = a) = none := List.find?_eq_none.2 (by simpa using hany)
    rw [State.serveSignal, if_neg (not_or.2 ⟨ha, hany⟩)]
    refine ⟨_, List.find?_cons_of_pos (by simp), ?_, .inl rfl⟩
    rw [State.signalValue, hnone]
    rfl

/-- Setting a signal's error leaves its value. -/
theorem signalValue_signalError (s : State) {fn a : Nat} (ha : a ≠ 0) (status cause : Nat) :
    (s.signalError fn a status cause).signalValue fn a = s.signalValue fn a ∧ (s.signalError fn a status cause).host.subs = s.host.subs := by
  obtain ⟨r, hr, hv, -⟩ := signalRec_serveSignal s (fn := fn) ha
  unfold State.signalError
  dsimp only
  split
  · refine ⟨?_, serveSignal_subs s fn a⟩
    refine (signalValue_of_rec (r := { r with err := BitVec.ofNat 64 (status + 65536 * cause) }) ?_).trans hv
    show List.find? _ (mapWhere _ _ (s.serveSignal fn a).host.signals) = _
    rw [find?_mapWhere_same, show List.find? _ _ = some r from hr]
    · rfl
    · exact fun _ => rfl
  · exact ⟨(signalValue_of_rec hr).trans hv, serveSignal_subs s fn a⟩
/-- A signal whose error field is zero takes the status. -/
theorem hostD_signalError (s : State) {fn a : Nat} (ha : a ≠ 0) (hal : a + 16 ≤ 2 ^ 64) (status : Nat)
    (hrec : ∀ r ∈ s.host.signals, r.fn = fn → r.iova = a → r.err = 0) (hmem : s.hostD fn (a + 8) = 0) :
    (s.signalError fn a status 0).hostD fn (a + 8) = BitVec.ofNat 64 status := by
  obtain ⟨r, hr, -, herr⟩ := signalRec_serveSignal s (fn := fn) ha
  have hzero : r.err = 0 := by
    rcases herr with h | ⟨x, hx, hfn, hiova, h⟩
    · exact h.trans hmem
    · exact h.trans (hrec x hx hfn hiova)
  have hany : (s.serveSignal fn a).host.signals.any (fun r => r.fn = fn && r.iova = a && r.err = 0) = true := by
    have hfound := List.find?_some hr
    exact List.any_eq_true.2 ⟨r, List.mem_of_find?_eq_some hr, by rw [hfound, hzero]; rfl⟩
  unfold State.signalError
  dsimp only
  rw [if_pos hany]
  exact hostD_hostWriteD_same _ _ (by omega)

/-- A subtraction is written as one doubleword. -/
theorem hostD_subtract (s : State) {fn a : Nat} (ha : a ≠ 0) (hal : a + 16 ≤ 2 ^ 64) (v : Word) :
    (s.subtract fn a v).hostD fn a = s.signalValue fn a - v ∧ (s.subtract fn a v).hostD fn (a + 8) = s.hostD fn (a + 8) := by
  obtain ⟨r, hr, hv, -⟩ := signalRec_serveSignal s (fn := fn) ha
  unfold State.subtract
  dsimp only
  refine ⟨?_, ?_⟩
  · rw [hostD_hostWriteD_same _ _ (by omega), signalValue_of_rec hr, hv]
  · rw [State.hostWriteD, hostD_hostWrite_other _ _ (by omega) (by omega) (.inr (by omega))]
    exact hostD_congr (hostSeen_serveSignal s fn a fn) _

theorem drainSubs_nil {s : State} (h : s.host.subs = []) : s.drainSubs = s := by
  rw [State.drainSubs, h]
  exact congrArg (fun l => { s with host := { s.host with subs := l } }) h.symm

/-- A packet that fails with no subtraction waiting: its signal loses 1 and takes the status where its error field is zero. -/
theorem hostD_signalPacket {s : State} {fn : Nat} (q : Nat) {p : QPacket} {status : Nat} (hsig : (p.dw 1).toNat ≠ 0) (hal : (p.dw 1).toNat % 16 = 0)
    (hst : status ≠ 0) (hsubs : s.host.subs = []) : let sig := (p.dw 1).toNat; let t := s.signalPacket fn q p status 0
    t.hostD fn sig = s.signalValue fn sig - 1 ∧
    ((∀ r ∈ s.host.signals, r.fn = fn → r.iova = sig → r.err = 0) → s.hostD fn (sig + 8) = 0 → t.hostD fn (sig + 8) = BitVec.ofNat 64 status) := by
  intro sig t
  have hlim : sig + 16 ≤ 2 ^ 64 := by have := (p.dw 1).isLt; omega
  obtain ⟨hval, hsubs'⟩ := signalValue_signalError s (fn := fn) hsig status 0
  obtain ⟨hsame, herr⟩ := hostD_subtract (s.signalError fn sig status 0) (fn := fn) hsig hlim 1
  have hseen : t.hostSeen fn = ((s.signalError fn sig status 0).subtract fn sig 1).hostSeen fn := by
    show State.hostSeen (State.behind _ _ _) fn = _
    rw [hostSeen_behind, if_neg hsig, if_neg hst]
    dsimp only
    rw [drainSubs_nil (hsubs'.trans hsubs)]
    split
    · rw [hostSeen_toPort, if_pos rfl]
      rfl
    · rfl
  refine ⟨?_, fun hrec hmem => ?_⟩
  · rw [hostD_congr hseen, hsame, hval]
  · rw [hostD_congr hseen, herr, hostD_signalError s hsig hlim status hrec hmem]

end Sys2Proof.Machine
end

section
/-! SUPPORT. O49: a LAUNCH that fails at its start (R357, R360). -/

namespace Sys2Proof.Machine

/-- With nothing else to fail, a queue that enters ERROR writes its status record and no more. -/
theorem queueError_alone {s : State} {fn q : Nat} (status idx : Nat) (h : (s.queueAt fn q).state ≠ .error)
    (hall : ∀ x ∈ (s.queueAt fn q).pkts, x.started = true ∨ x.idx = idx) :
    ∃ g v, s.queueError fn q status idx true = (s.updQueue fn q g).hostWrite fn (bytesAt (s.queueAt fn q).stat.toNat 16 v) := by
  refine ⟨fun k => { k with state := .error, ecode := BitVec.ofNat 32 status, epkt := BitVec.ofNat 32 idx }, ?_⟩
  have hq := queueAt_updQueue_same s fn q (fun k => { k with state := .error, ecode := BitVec.ofNat 32 status, epkt := BitVec.ofNat 32 idx }) fun _ => rfl
  have hnone : (s.queueAt fn q).pkts.filter (fun p => !p.started && !(true && p.idx == idx)) = [] := by
    refine List.filter_eq_nil_iff.2 fun x hx => ?_
    rcases hall x hx with hx | hx <;> simp [hx]
  rw [State.queueError, if_neg h]
  dsimp only
  rw [queueAt_writeStatus, hq]
  dsimp only
  rw [hnone, List.foldl_nil, State.writeStatus, hq]
  exact ⟨_, rfl⟩

/-- The failing packet's signal is all that changes of a doubleword away from the status record. -/
theorem hostD_failPacket {s : State} {fn q a : Nat} {p : QPacket} (status cause : Nat) (h : (s.queueAt fn q).state ≠ .error)
    (hall : ∀ x ∈ (s.queueAt fn q).pkts, x.started = true ∨ x.idx = p.idx) (ha : a + 8 ≤ 2 ^ 64)
    (hstat : a + 8 ≤ (s.queueAt fn q).stat.toNat ∨ (s.queueAt fn q).stat.toNat + 16 ≤ a) (hlim : (s.queueAt fn q).stat.toNat + 16 ≤ 2 ^ 64) :
    (s.failPacket fn q p status cause).hostD fn a = (s.signalPacket fn q p status cause).hostD fn a := by
  obtain ⟨g, v, he⟩ := queueError_alone (s := s.signalPacket fn q p status cause) (fn := fn) (q := q) status p.idx
    (by rwa [queueAt_signalPacket]) (by rwa [queueAt_signalPacket])
  have hdrop (u : State) : (u.dropPacket fn q p.idx).hostD fn a = u.hostD fn a := hostD_congr (hostSeen_updQueue u fn q _ fn) a
  rw [State.failPacket, hdrop, he, queueAt_signalPacket, hostD_hostWrite_other _ _ ha hlim hstat]
  exact hostD_congr (hostSeen_updQueue _ fn q _ fn) a

/-- A packet that fails at its start fails as R357 and R360 say. -/
theorem failsWith_failStart (s : State) (m : Cells 1) {fn q : Nat} {p : QPacket} {status : Nat} (hstate : (s.queueAt fn q).state = .running)
    (hst : status ≠ 0) (hlt : status < 2 ^ 32) :
    failsWith s fn q p status (State.failStart { s with host := { s.host with readPoison := m } } fn q p status) := by
  let s0 : State := { s with host := { s.host with readPoison := m } }
  let s1 := s0.startPkt fn q p.idx id
  have hq : s1.queueAt fn q = (s.queueAt fn q).updPkt p.idx (fun p => { p with started := true }) :=
    queueAt_updQueue_same s0 fn q _ fun _ => rfl
  have hne : (s1.queueAt fn q).state ≠ .error := by
    rw [hq, Queue.updPkt]
    exact fun h => by simp [hstate] at h
  obtain ⟨herr, hcode, hpkt, hleft⟩ := queueAt_failPacket p status 0 hne
  have honly : onlyHost s (s1.failPacket fn q p status 0) :=
    (onlyHost.trans (s := s) (t := s0) rfl (onlyHost_startPkt s0 fn q p.idx id)).trans (onlyHost_failPacket s1 fn q p status 0)
  refine ⟨honly, herr, ?_, hpkt, hleft, ?_⟩
  · show ((s1.failPacket fn q p status 0).queueAt fn q).ecode.toNat = status
    rw [hcode, BitVec.toNat_ofNat, Nat.mod_eq_of_lt hlt]
  · intro hsig hal hstat hdiff hsubs hall
    have hlim := (p.dw 1).isLt
    have hlim' := (s.queueAt fn q).stat.isLt
    have hstat1 : (s1.queueAt fn q).stat = (s.queueAt fn q).stat := by rw [hq, Queue.updPkt]
    have hall1 : ∀ x ∈ (s1.queueAt fn q).pkts, x.started = true ∨ x.idx = p.idx := by
      rw [hq]
      intro x hx
      obtain ⟨y, hy, rfl⟩ := List.mem_map.1 hx
      split
      · exact .inl rfl
      · exact hall y hy
    have hseen : s1.hostSeen fn = s.hostSeen fn := hostSeen_updQueue s0 fn q _ fn
    have hsubs1 : s1.host.subs = [] := (updQueue_subs s0 fn q _).trans hsubs
    have hsignals : s1.host.signals = s.host.signals := updQueue_signals s0 fn q _
    have hvalue : s1.signalValue fn (p.dw 1).toNat = s.signalValue fn (p.dw 1).toNat := by
      rw [State.signalValue, hsignals, hostD_congr hseen, State.signalValue]
    obtain ⟨hsub, herr⟩ := hostD_signalPacket q hsig hal hst hsubs1
    have hkeeps (a : Nat) (ha : a = (p.dw 1).toNat ∨ a = (p.dw 1).toNat + 8) :
        (s1.failPacket fn q p status 0).hostD fn a = (s1.signalPacket fn q p status 0).hostD fn a := by
      refine hostD_failPacket status 0 hne hall1 ?_ ?_ ?_
      · omega
      · rw [hstat1]; omega
      · rw [hstat1]; omega
    refine ⟨?_, fun hrec hmem => ?_⟩
    · exact (hkeeps _ (.inl rfl)).trans (hsub.trans (by rw [hvalue]))
    · refine (hkeeps _ (.inr rfl)).trans (herr ?_ ?_)
      · rwa [hsignals]
      · rwa [hostD_congr hseen]

/-- The reads of a launch leave nothing but their marks. -/
theorem launchReadDone_eq (s : State) (fn : Nat) (p : QPacket) : ∃ m, s.launchReadDone fn p = { s with host := { s.host with readPoison := m } } := by
  unfold State.launchReadDone
  dsimp only
  split
  · exact ⟨_, rfl⟩
  · refine foldl_keeps (fun t => ∃ m, t = { s with host := { s.host with readPoison := m } }) _ (fun t r ht => ?_) _ s ⟨_, rfl⟩
    obtain ⟨m, rfl⟩ := ht
    split
    · exact ⟨_, rfl⟩
    · exact ⟨_, rfl⟩

/-! ## The packet that starts (R359, R368) -/

/-- A packet that may start is the oldest of its queue that has not, can start, and stands at a queue that runs. -/
theorem mayStart_some {s : State} {fn q idx : Nat} {p : QPacket} (h : s.mayStart fn q idx = some p) :
    (s.queueAt fn q).nextUp = some p ∧ p.idx = idx ∧ s.canStart fn q p = true := by
  unfold State.mayStart at h
  dsimp only at h
  split at h
  · obtain ⟨hs, hidx⟩ := Option.filter_eq_some_iff.1 h
    obtain ⟨hn, hc⟩ := Option.filter_eq_some_iff.1 hs
    exact ⟨hn, of_decide_eq_true hidx, hc⟩
  · cases h
theorem canStart_running {s : State} {fn q : Nat} {p : QPacket} (h : s.canStart fn q p = true) : (s.queueAt fn q).state = .running := by
  unfold State.canStart State.slotted at h
  simp only [Bool.and_eq_true, beq_iff_eq] at h
  exact h.1.1.1.1.2
/-- A LAUNCH that waits does not start. -/
theorem canStart_launch {s : State} {fn q : Nat} {p : QPacket} (h : s.canStart fn q p = true) (ht : p.type = 0) : (s.launchAnswer fn p).waits = false := by
  unfold State.canStart at h
  simp only [Bool.and_eq_true, ht, beq_self_eq_true, Bool.true_and, Bool.not_eq_true'] at h
  exact h.2

section
variable {s : State} {fn q idx : Nat} {p : QPacket} (ht : p.type = 0) (he : p.early = none)
include ht he

/-- A launch that firmware refuses fails with its code. -/
theorem exec_launch_fails (hm : s.mayStart fn q idx = some p) {c : Nat} (ha : s.admission fn p = .fail c) (hc : c ≠ 0) (hlt : c < 2 ^ 32) :
    ∃ t, exec (.launch fn q idx) s = .next t ∧ failsWith s fn q p c t := by
  obtain ⟨-, -, hcan⟩ := mayStart_some hm
  have hans : s.launchAnswer fn p = .fail c := by rw [State.launchAnswer, he]; exact ha
  obtain ⟨m, hread⟩ := launchReadDone_eq s fn p
  refine ⟨_, ?_, failsWith_failStart s m (canStart_running hcan) hc hlt⟩
  show execLaunch fn q idx s = _
  simp only [execLaunch, hm, Option.filter_some, ht, decide_true, if_true, hans, hread]
/-- One that firmware lets wait does not start. -/
theorem exec_launch_waits (hn : (s.queueAt fn q).nextUp = some p) (ha : s.admission fn p = .wait) (t : State) : exec (.launch fn q idx) s ≠ .next t := by
  have hnone : (s.mayStart fn q idx).filter (fun p => decide (p.type = 0)) = none := by
    refine Option.eq_none_iff_forall_not_mem.2 fun r hr => ?_
    obtain ⟨hm, -⟩ := Option.filter_eq_some_iff.1 hr
    obtain ⟨hnext, -, hcan⟩ := mayStart_some hm
    obtain rfl : p = r := Option.some.inj (hn.symm.trans hnext)
    have hw := canStart_launch hcan ht
    rw [State.launchAnswer, he] at hw
    dsimp only at hw
    rw [ha] at hw
    cases hw
  show execLaunch fn q idx s ≠ _
  simp only [execLaunch, hnone]
  intro h
  cases h
/-- One that firmware admits creates its job. -/
theorem exec_launch_begins (hm : s.mayStart fn q idx = some p) {ctx : Nat} {es : List Extent} {pl : List (CoreId × Nat)} (ha : s.admission fn p = .begin ctx es pl) :
    exec (.launch fn q idx) s = .next ((s.startPkt fn q idx id).createJob fn q p (s.descOf fn p) ctx es pl) := by
  have hans : s.launchAnswer fn p = .begin ctx es pl := by rw [State.launchAnswer, he]; exact ha
  show execLaunch fn q idx s = _
  simp only [execLaunch, hm, Option.filter_some, ht, decide_true, if_true, hans]
end

end Sys2Proof.Machine
end

section
/-! SUPPORT. O49: the Booleans that firmware computes, and what the statement says of a descriptor and an image (R361, R439). -/

namespace Sys2Proof.Machine

theorem desc_bad_eq_false_iff (d : Desc) : d.bad = false ↔ limitsHold d := by
  have hwql : ((List.range 16).any (fun i => let v := d.wql.getD i 0; if i < d.nWq then decide (v < 2) || decide (12 < v) else v != 0)) = false ↔
      ∀ i < 16, let v := d.wql.getD i 0; if i < d.nWq then 2 ≤ v ∧ v ≤ 12 else v = 0 := by
    rw [List.any_eq_false]
    refine forall_congr' fun i => ?_
    rw [List.mem_range]
    refine imp_congr_right fun _ => ?_
    dsimp only
    split
    · simp only [Bool.or_eq_true, decide_eq_true_eq]
      omega
    · simp
  rw [Desc.bad, limitsHold]
  simp only [Bool.or_eq_false_iff, hwql, bne_eq_false_iff_eq, beq_eq_false_iff_ne, decide_eq_false_iff_not]
  constructor
  · rintro ⟨h, hw⟩
    refine ⟨?_, ?_, ?_, ?_, ?_, ?_, ?_, ?_, ?_, ?_, ?_, ?_, ?_, ?_, ?_, ?_, ?_, ?_, ?_, ?_, ?_, ?_, ?_, ?_, ?_, hw⟩ <;> omega
  · rintro ⟨h1, h2, h3, h4, h5, h6, h7, h8, h9, h10, h11, h12, h13, h14, h15, h16, h17, h18, h19, h20, h21, h22, h23, h24, h25, hw⟩
    refine ⟨?_, hw⟩
    omega

theorem desc_listsBad_eq_false_iff (d : Desc) : d.listsBad = false ↔ listsHold d := by
  simp only [Desc.listsBad, listsHold, Bool.or_eq_false_iff, bne_eq_false_iff_eq, List.any_eq_false, and_assoc, Bool.or_eq_true, bne_iff_ne, not_or, not_not]

/-- No two of the ranges share an address. -/
theorem rangesOverlap_eq_false_iff (l : List (Nat × Nat)) :
    rangesOverlap l = false ↔ l.Pairwise (fun r q => ∀ a, ¬ (r.1 ≤ a ∧ a < r.2 ∧ q.1 ≤ a ∧ a < q.2)) := by
  induction l with
  | nil => simp [rangesOverlap]
  | cons r rest ih =>
    rw [rangesOverlap, Bool.or_eq_false_iff, List.pairwise_cons, ih, List.any_eq_false]
    refine and_congr_left fun _ => forall₂_congr fun q _ => ?_
    simp only [rangesMeet, Bool.and_eq_true, decide_eq_true_eq]
    constructor
    · intro h a ha
      omega
    · intro h hm
      have := h (max r.1 q.1)
      omega

theorem nodup_eraseDups {α : Type*} [BEq α] [LawfulBEq α] : (l : List α) → l.eraseDups.Nodup
  | [] => List.nodup_nil
  | a :: l => by
    rw [List.eraseDups_cons, List.nodup_cons]
    exact ⟨by simp [List.mem_eraseDups], nodup_eraseDups _⟩
termination_by l => l.length
decreasing_by exact Nat.lt_succ_of_le (List.length_filter_le _ _)

/-- Erasing duplicates shortens the lists that have some. -/
theorem eraseDups_length_lt_iff {α : Type*} [BEq α] [LawfulBEq α] (l : List α) : l.eraseDups.length < l.length ↔ ¬ l.Nodup := by
  classical
  have hperm : l.eraseDups.Perm l.dedup :=
    (List.perm_ext_iff_of_nodup (nodup_eraseDups l) l.nodup_dedup).2 fun a => by rw [List.mem_eraseDups, List.mem_dedup]
  rw [hperm.length_eq, ← List.dedup_eq_self, (List.dedup_sublist l).length_le.lt_iff_ne]
  exact not_congr ⟨(List.dedup_sublist l).eq_of_length, congrArg _⟩

/-- The image's buffer entries, one by one. -/
theorem any_imageBuffers (im : ImageAt) (f : Buffer → Bool) :
    (imageBuffers im).any f = (List.range (im 0x12 2)).any (fun i => f
      { id := im (im 0x1C 4 + 16 * i) 1, base := im (im 0x1C 4 + 16 * i + 4) 4, size := im (im 0x1C 4 + 16 * i + 8) 4, v := im (im 0x1C 4 + 16 * i + 1) 1
        ver := im (im 0x1C 4 + 16 * i + 1) 1 - 1, phase := .empty }) := by
  rw [imageBuffers, List.any_map]
  rfl

theorem tableIn_eq_true_iff (off n size len : Nat) : tableIn off n size len = true ↔ off % 16 = 0 ∧ (n = 0 ∨ off + n * size ≤ len) := by
  simp [tableIn]

/-- Pairs of different indices, the later first. -/
theorem pairwise_map_range {α : Type*} (R : α → α → Prop) (hR : ∀ a b, R a b → R b a) (f : Nat → α) (n : Nat) :
    ((List.range n).map f).Pairwise R ↔ ∀ i < n, ∀ j < i, R (f i) (f j) := by
  rw [List.pairwise_map, List.pairwise_iff_getElem]
  simp only [List.length_range, List.getElem_range]
  exact ⟨fun h i hi j hj => hR _ _ (h j i (by omega) hi hj), fun h i j _ hj hij => hR _ _ (h j hj i hij)⟩

/-- R439: the tables of an image. -/
theorem imageTablesBad_eq_false_iff (im : ImageAt) (len : Nat) : imageTablesBad im len = false ↔
    im 0 8 = 0x31474D494E41534D ∧ im 8 4 = 1 ∧ im 0xC 4 = len ∧ 1 ≤ im 0x10 2 ∧ im 0x10 2 ≤ 64 ∧ im 0x12 2 ≤ 256 ∧ im 0x14 2 ≤ 64 ∧ im 0x2C 20 = 0 ∧
    tableIn (im 0x18 4) (im 0x10 2) 16 len = true ∧ tableIn (im 0x1C 4) (im 0x12 2) 16 len = true ∧
    tableIn (im 0x20 4) (im 0x14 2) 16 len = true ∧ tableIn (im 0x24 4) (im 0x16 2) 64 len = true := by
  simp only [imageTablesBad, Bool.or_eq_false_iff, bne_eq_false_iff_eq, beq_eq_false_iff_ne, decide_eq_false_iff_not, Bool.not_eq_false', not_lt, and_assoc,
    Nat.one_le_iff_ne_zero]

/-- R439: its sections. -/
theorem imageSectionsBad_eq_false_iff (im : ImageAt) (len grant : Nat) :
    let sec := fun (i k : Nat) => im (im 0x18 4 + 16 * i + 4 * k) 4
    imageSectionsBad im len grant = false ↔
      (∀ i < im 0x10 2, sec i 3 = 0 ∧ sec i 0 % 8 = 0 ∧ sec i 2 % 8 = 0 ∧ (sec i 1 = 0 ∨ sec i 2 + sec i 1 ≤ len) ∧ sec i 0 + sec i 1 ≤ grant) ∧
      ∀ i < im 0x10 2, ∀ j < i, ∀ a, ¬ (sec i 0 ≤ a ∧ a < sec i 0 + sec i 1 ∧ sec j 0 ≤ a ∧ a < sec j 0 + sec j 1) := by
  dsimp only
  rw [imageSectionsBad, Bool.or_eq_false_iff, rangesOverlap_eq_false_iff, imageSections, List.any_map, List.map_map, pairwise_map_range]
  · refine and_congr ?_ Iff.rfl
    rw [Bool.or_eq_false_iff, List.any_eq_false, List.any_eq_false, ← forall₂_and]
    refine forall_congr' fun i => ?_
    rw [List.mem_range]
    refine forall_congr' fun _ => ?_
    simp only [Function.comp_apply, Bool.or_eq_true, Bool.and_eq_true, decide_eq_true_eq, bne_iff_ne, Nat.reduceMul, Nat.mul_zero, Nat.mul_one, Nat.add_zero]
    omega
  · intro x y h a ha
    exact h a ⟨ha.2.2.1, ha.2.2.2, ha.1, ha.2.1⟩

/-- R439: its buffers. -/
theorem imageBuffersBad_eq_false_iff (im : ImageAt) (grant : Nat) :
    let buf := fun (i off n : Nat) => im (im 0x1C 4 + 16 * i + off) n
    imageBuffersBad im grant = false ↔
      (∀ i < im 0x12 2, buf i 2 2 = 0 ∧ buf i 12 4 = 0 ∧ 1 ≤ buf i 1 1 ∧ buf i 1 1 ≤ 8 ∧ buf i 4 4 % 64 = 0 ∧ buf i 8 4 % 64 = 0 ∧ 1 ≤ buf i 8 4 ∧ buf i 8 4 ≤ 0x400000 ∧
        buf i 4 4 + buf i 1 1 * buf i 8 4 ≤ grant) ∧
      ∀ i < im 0x12 2, ∀ j < i, buf i 0 1 ≠ buf j 0 1 ∧ ∀ a, ¬ (buf i 4 4 ≤ a ∧ a < buf i 4 4 + buf i 1 1 * buf i 8 4 ∧ buf j 4 4 ≤ a ∧ a < buf j 4 4 + buf j 1 1 * buf j 8 4) := by
  dsimp only
  have hlen : (imageBuffers im).length = ((imageBuffers im).map (fun b => b.id)).length := (List.length_map _).symm
  simp only [imageBuffersBad, Bool.or_eq_false_iff, rangesOverlap_eq_false_iff, decide_eq_false_iff_not]
  rw [hlen, eraseDups_length_lt_iff, not_not, any_imageBuffers, imageBuffers, List.map_map, List.map_map, List.Nodup, pairwise_map_range _ fun _ _ h => h.symm,
    pairwise_map_range, and_assoc]
  · refine and_congr ?_ ?_
    · rw [List.any_eq_false, List.any_eq_false, ← forall₂_and]
      refine forall_congr' fun i => ?_
      rw [List.mem_range]
      refine forall_congr' fun _ => ?_
      simp only [Bool.or_eq_true, decide_eq_true_eq, bne_iff_ne, beq_iff_eq]
      simp only [Buffer.spanEnd]
      generalize im (im 0x1C 4 + 16 * i + 1) 1 * _ = v
      omega
    · simp only [forall_and, Function.comp_apply, Buffer.spanEnd, Nat.add_zero]
  · intro x y h a ha
    exact h a ⟨ha.2.2.1, ha.2.2.2, ha.1, ha.2.1⟩

/-- R439: its sketches. -/
theorem imageSketchesBad_eq_false_iff (im : ImageAt) (len : Nat) :
    let sk := fun (i off n : Nat) => im (im 0x20 4 + 16 * i + off) n
    imageSketchesBad im len = false ↔
      ∀ i < im 0x14 2, sk i 8 8 = 0 ∧ sk i 0 4 % 16 = 0 ∧ sk i 0 4 + sk i 4 4 ≤ len ∧ sk i 4 4 = 16 + 16 * skCount (imageSketch im i) ∧ skBad (imageSketch im i) = false := by
  dsimp only
  rw [imageSketchesBad, List.any_eq_false]
  refine forall_congr' fun i => ?_
  rw [List.mem_range]
  refine forall_congr' fun _ => ?_
  simp only [Bool.or_eq_true, decide_eq_true_eq, bne_iff_ne, Nat.add_zero, not_or, not_not, not_lt, and_assoc, Bool.not_eq_true]

/-- R439: an image is malformed exactly when the statement says so. -/
theorem imageBad_eq_false_iff (im : ImageAt) (bytes : List Byte) (grant : Nat) : imageBad im bytes grant = false ↔ imageHolds im bytes grant := by
  simp only [imageBad, imageHolds, Bool.or_eq_false_iff, imageTablesBad_eq_false_iff, imageSectionsBad_eq_false_iff, imageBuffersBad_eq_false_iff,
    imageSketchesBad_eq_false_iff, tableIn_eq_true_iff, decide_eq_false_iff_not, bne_eq_false_iff_eq, not_lt, and_assoc]

end Sys2Proof.Machine
end

section
/-! SUPPORT. O49: what firmware answers is what the first broken check says (R362, R442). -/

namespace Sys2Proof.Machine

/-! ## An answer by a list of checks -/

/-- The answer is that of the first check of the list that is broken, and a launch that begins when none is. -/
def answersBy (a : Admission) : List (Prop × Option Nat) → Prop
  | [] => ∃ ctx es pl, a = .begin ctx es pl
  | c :: rest => (c.1 → a = c.2.elim .wait .fail) ∧ (¬ c.1 → answersBy a rest)
theorem answersBy.first {a : Admission} {l : List (Prop × Option Nat)} (h : answersBy a l) {i : Nat} {c : Prop × Option Nat} (hi : l[i]? = some c)
    (hbefore : ∀ j < i, ∀ b : Prop × Option Nat, l[j]? = some b → ¬ b.1) (hc : c.1) : a = c.2.elim .wait .fail := by
  induction l generalizing i with
  | nil => cases hi
  | cons x rest ih =>
    obtain ⟨hx, hrest⟩ := h
    cases i with
    | zero =>
      obtain rfl : x = c := Option.some.inj hi
      exact hx hc
    | succ i =>
      refine ih (hrest (hbefore 0 (Nat.succ_pos i) x rfl)) hi fun j hj b hb => ?_
      exact hbefore (j + 1) (Nat.succ_lt_succ hj) b hb
theorem answersBy.none_broken {a : Admission} {l : List (Prop × Option Nat)} (h : answersBy a l) (hl : ∀ c ∈ l, ¬ c.1) : ∃ ctx es pl, a = .begin ctx es pl := by
  induction l with
  | nil => exact h
  | cons x rest ih => exact ih (h.2 (hl x List.mem_cons_self)) fun c hc => hl c (List.mem_cons_of_mem x hc)
/-- A test of firmware that decides the first check. -/
theorem answersBy_ite {P : Prop} {c : Option Nat} {l : List (Prop × Option Nat)} {b : Bool} {x y : Admission} (hb : b = true ↔ P) (hx : x = c.elim .wait .fail)
    (hy : ¬ P → answersBy y l) : answersBy (if b then x else y) ((P, c) :: l) := by
  refine ⟨fun hP => ?_, fun hP => ?_⟩
  · rw [if_pos (hb.2 hP), hx]
  · rw [if_neg (mt hb.1 hP)]
    exact hy hP

/-! ## What each test says -/

theorem jobsOn_eq_nil_iff (s : State) (id : CoreId) : s.jobsOn id = [] ↔ ∀ j ∈ s.modul.jobs, id ∉ j.cores := by
  simp [State.jobsOn, List.filter_eq_nil_iff]
theorem freeContexts_eq_nil_iff (s : State) : s.freeContexts = [] ↔ ∀ c < 128, ∃ j ∈ s.modul.jobs, j.ctx = c := by
  simp [State.freeContexts, List.filter_eq_nil_iff]
theorem mem_freeContexts {s : State} {c : Nat} : c ∈ s.freeContexts ↔ c < 128 ∧ ∀ j ∈ s.modul.jobs, j.ctx ≠ c := by
  simp [State.freeContexts]
theorem usableContexts_eq_nil_iff (s : State) (d : Desc) : s.usableContexts d = [] ↔
    ∀ c < 128, (∀ j ∈ s.modul.jobs, j.ctx ≠ c) → (∃ r ∈ d.hbm, r.enc = true ∧ r.len ≠ 0) ∧ ∃ k ∈ d.dies, cget (s.dieAt k).keys c = 0 := by
  simp only [State.usableContexts, List.filter_eq_nil_iff, mem_freeContexts, and_imp]
  simp
theorem getElem?_mod_eq_none_iff {α : Type*} (l : List α) (k : Nat) : l[k % l.length]? = none ↔ l = [] := by
  rw [List.getElem?_eq_none_iff]
  constructor
  · intro h
    by_contra hl
    exact absurd (Nat.mod_lt k (List.length_pos_of_ne_nil hl)) (by omega)
  · rintro rfl
    exact Nat.zero_le _
theorem rangesBad_eq_true_iff (d : Desc) : d.rangesBad = true ↔
    (∃ r ∈ d.hbm, 2 ^ 48 < r.va + r.len ∨ r.at_ = true ∧ ¬ (r.rd = true ∧ r.wr = true)) ∨ rangesOverlap (d.hbm.map (fun r => (r.va, r.va + r.len))) = true := by
  simp only [Desc.rangesBad, Bool.or_eq_true, List.any_eq_true, decide_eq_true_eq, Bool.and_eq_true, Bool.not_eq_true', ← Bool.not_eq_true]
theorem hostBad_eq_true_iff (d : Desc) : d.hostBad = true ↔
    ∃ r ∈ d.host, ∃ q, d.host.head? = some q ∧ (r.1 / 2 ^ 48 ≠ q.1 / 2 ^ 48 ∨ r.2.1 ≠ 0 ∧ (r.1 + r.2.1 - 1) / 2 ^ 48 ≠ r.1 / 2 ^ 48) := by
  cases hh : d.host with
  | nil => simp [Desc.hostBad, hh]
  | cons q rest => simp [Desc.hostBad, hh]
theorem paletteBusy_eq_true_iff (s : State) (d : Desc) : s.paletteBusy d = true ↔
    ∃ j ∈ s.modul.jobs, j.pal &&& BitVec.ofNat 32 d.pal ≠ 0 ∧ ∃ a ∈ d.cores, ∃ b ∈ j.cores, a.die = b.die ∧ a.clu = b.clu ∧ a.core ≠ b.core := by
  simp [State.paletteBusy, and_assoc]

/-- The lease: code 9 exactly when the statement says so. -/
theorem leaseCheck_answersBy (s : State) (d : Desc) : answersBy (s.leaseCheck d)
    [((∀ c < 128, (∀ j ∈ s.modul.jobs, j.ctx ≠ c) → (∃ r ∈ d.hbm, r.enc = true ∧ r.len ≠ 0) ∧ ∃ k ∈ d.dies, cget (s.dieAt k).keys c = 0) ∨
      (∃ r ∈ d.hbm, 2 ^ 48 < r.va + r.len ∨ r.at_ = true ∧ ¬ (r.rd = true ∧ r.wr = true)) ∨ rangesOverlap (d.hbm.map (fun r => (r.va, r.va + r.len))) = true ∨
      (∃ r ∈ d.host, ∃ q, d.host.head? = some q ∧ (r.1 / 2 ^ 48 ≠ q.1 / 2 ^ 48 ∨ r.2.1 ≠ 0 ∧ (r.1 + r.2.1 - 1) / 2 ^ 48 ≠ r.1 / 2 ^ 48)) ∨
      (∃ k ∈ d.dies, (s.dieAt k).freeEntries.length < d.extents.length) ∨ (s.allocate d.extents s.mappedPages (s.modul.free + 1)).isNone = true, some 9)] := by
  rw [← usableContexts_eq_nil_iff, ← hostBad_eq_true_iff, ← or_assoc (b := rangesOverlap _ = true), ← rangesBad_eq_true_iff]
  have hdies : (∃ k ∈ d.dies, (s.dieAt k).freeEntries.length < d.extents.length) ↔
      d.dies.any (fun k => decide ((s.dieAt k).freeEntries.length < d.extents.length)) = true := by simp
  rw [hdies, ← getElem?_mod_eq_none_iff (s.usableContexts d) (Config.choice s.modul.free)]
  unfold State.leaseCheck
  dsimp only
  split
  case h_1 hctx => simp [answersBy, hctx]
  case h_2 ctx hctx =>
    split
    case isTrue hbad =>
      simp only [Bool.or_eq_true, or_assoc] at hbad
      refine ⟨fun _ => rfl, fun h => absurd ?_ h⟩
      tauto
    case isFalse hbad =>
      simp only [Bool.or_eq_true, or_assoc] at hbad
      split
      case h_1 hnone =>
        refine ⟨fun _ => rfl, fun h => absurd ?_ h⟩
        simp [hnone]
      case h_2 es hes =>
        refine ⟨fun h => ?_, fun _ => ⟨_, _, _, rfl⟩⟩
        exact absurd h (by simpa [hctx, hes] using hbad)

/-- What the image's content makes of an answer: a launch that would begin fails with code 10 when it is malformed. -/
def Admission.orMalformed (bad : Bool) : Admission → Admission
  | .begin c es pl => if bad then .fail 10 else .begin c es pl
  | r => r
theorem answersBy_orMalformed {a : Admission} {P Q : Prop} {n : Nat} {bad : Bool} (h : answersBy a [(P, some n)]) (hbad : bad = true ↔ Q) :
    answersBy (a.orMalformed bad) [(P, some n), (Q, some 10)] := by
  obtain ⟨hP, hbegin⟩ := h
  refine ⟨fun h => ?_, fun h => ?_⟩
  · obtain rfl : a = .fail n := hP h
    rfl
  · obtain ⟨ctx, es, pl, rfl⟩ := hbegin h
    exact answersBy_ite hbad rfl fun _ => ⟨_, _, _, rfl⟩

/-- R362: codes 1 to 3. -/
theorem answersBy_early {s : State} {d : Desc} {a : Admission} {l : List (Prop × Option Nat)} (h : answersBy a l) :
    answersBy ((s.earlyChecks d).elim a .fail)
      ((¬ listsHold d, some 1) :: (∀ c < 128, ∃ j ∈ s.modul.jobs, j.ctx = c, some 2) ::
        ((∃ k ∈ maskClusters d.clmask ++ d.grants.flatMap (fun g => maskClusters g.1), s.ncl k.1 ≤ k.2) ∨ d.fl % 2 = 1 ∧ s.modul.caps.zmat = false, some 3) :: l) := by
  unfold State.earlyChecks
  simp only [apply_ite (fun o : Option Nat => o.elim a Admission.fail), Option.elim_some, Option.elim_none]
  refine answersBy_ite ?_ rfl fun _ => answersBy_ite ?_ rfl fun _ => answersBy_ite ?_ rfl fun _ => h
  · rw [← desc_listsBad_eq_false_iff, Bool.not_eq_false]
  · rw [List.isEmpty_iff, freeContexts_eq_nil_iff]
  · simp only [Bool.or_eq_true, List.any_eq_true, decide_eq_true_eq, Bool.and_eq_true, Desc.needz, beq_iff_eq, Bool.not_eq_true']

/-- R362, R442: the checks from code 4 on. -/
theorem lateChecks_answersBy (s : State) (fn : Nat) (p : QPacket) : answersBy (s.lateChecks fn (s.descOf fn p)) ((launchChecks s fn p).drop 7) := by
  let d := s.descOf fn p
  have hbad : imageBad (s.imageOf fn d) (s.hostBytes fn d.image d.imgLen) d.grant = true ↔
      ¬ imageHolds (s.imageOf fn d) (s.hostBytes fn d.image d.imgLen) (d.spad * 65536) := by
    rw [← Bool.not_eq_false, imageBad_eq_false_iff]
    rfl
  have hend := answersBy_orMalformed (leaseCheck_answersBy s d) hbad
  unfold State.lateChecks
  refine answersBy_ite ?_ rfl fun _ => answersBy_ite ?_ rfl fun _ => answersBy_ite (paletteBusy_eq_true_iff s d) rfl fun _ => answersBy_ite Iff.rfl rfl fun _ =>
    answersBy_ite ?_ rfl fun _ => answersBy_ite ?_ rfl fun _ => ?_
  · simp [State.shared, jobsOn_eq_nil_iff]
  · simp only [List.any_eq_true, List.isEmpty_iff]
    rfl
  · simp only [Bool.or_eq_true, Bool.and_eq_true, decide_eq_true_eq, List.any_eq_true, Bool.not_eq_true', imageBad_eq_false_iff]
    rfl
  · simp only [List.any_eq_true, decide_eq_true_eq]
  · revert hend
    cases s.leaseCheck d <;> exact id

theorem admission_answersBy (s : State) (fn : Nat) (p : QPacket) : answersBy (s.admission fn p) (launchChecks s fn p) := by
  have hend := answersBy_early (s := s) (d := s.descOf fn p) (lateChecks_answersBy s fn p)
  unfold State.admission
  refine answersBy_ite ?_ rfl fun _ => answersBy_ite Iff.rfl rfl fun _ => answersBy_ite ?_ rfl fun hlim => answersBy_ite ?_ rfl fun _ => ?_
  · simp [imp_iff_not_or]
  · rw [← desc_bad_eq_false_iff, Bool.not_eq_false]
  · have hpos : 0 < (s.descOf fn p).nHbm + (s.descOf fn p).nHost := by
      obtain ⟨-, -, -, -, -, -, -, -, -, -, -, -, -, -, h, -⟩ := not_not.1 hlim
      omega
    simp only [Bool.or_eq_true, Bool.and_eq_true, decide_eq_true hpos, true_and, bne_iff_ne, or_assoc]
  · revert hend
    cases s.earlyChecks (s.descOf fn p) <;> exact id

/-! ## The answers -/

/-- Every code of a check is one that a status record can hold. -/
theorem launchChecks_code {s : State} {fn : Nat} {p : QPacket} {i c : Nat} {P : Prop} (h : (launchChecks s fn p)[i]? = some (P, some c)) : c ≠ 0 ∧ c < 2 ^ 32 := by
  have hmem : some c ∈ (launchChecks s fn p).map Prod.snd := List.mem_map.2 ⟨_, List.mem_of_getElem? h, rfl⟩
  have hcodes : (launchChecks s fn p).map Prod.snd = [some 1, some 14, some 1, some 14, some 1, some 2, some 3, none, some 5, none, some 14, some 8, none, some 9, some 10] := rfl
  rw [hcodes] at hmem
  simp only [List.mem_cons, Option.some.injEq, reduceCtorEq, List.not_mem_nil, or_false, false_or] at hmem
  omega

theorem descOf_args (s : State) (fn : Nat) (p : QPacket) : (s.descOf fn p).args = (List.range 5).map fun i => s.descField fn p (0x20 + 8 * i) 8 := rfl
theorem descOf_wql (s : State) (fn : Nat) (p : QPacket) : (s.descOf fn p).wql = (List.range 16).map fun i => s.descField fn p (0x68 + i) 1 := rfl

/-- R361, R362, R442: the answers to a launch. -/
theorem launchAnswers_holds : launchAnswers := by
  intro s fn q idx p hnext _ ht he d f checks
  refine ⟨rfl, rfl, fun i hi => ?_, fun i hi => ?_, fun i c hc hbefore hbroken => ?_, fun hnone => (admission_answersBy s fn p).none_broken hnone⟩
  · rw [descOf_args, List.getElem?_map, List.getElem?_range hi, Option.map_some, State.descField]
  · rw [descOf_wql, List.getElem?_map, List.getElem?_range hi, Option.map_some, State.descField]
  · have ha := (admission_answersBy s fn p).first hc hbefore hbroken
    obtain ⟨P, code⟩ := c
    cases code with
    | none => exact exec_launch_waits ht he hnext ha
    | some code =>
      obtain ⟨hne, hlt⟩ := launchChecks_code hc
      exact fun hm _ => exec_launch_fails ht he hm ha hne hlt

end Sys2Proof.Machine
end

section
/-! SUPPORT. O49: clusters, cores and dies after updates of several of them. -/

namespace Sys2Proof.Machine

/-! ## Clusters -/

/-- Another cluster reads as before. -/
theorem clusterAt_updCluster_other (s : State) {d c : Nat} {k : Nat × Nat} (f : Cluster → Cluster) (hf : ∀ k, (f k).die = k.die ∧ (f k).clu = k.clu)
    (h : k ≠ (d, c)) : (s.updCluster d c f).clusterAt k.1 k.2 = s.clusterAt k.1 k.2 := by
  obtain ⟨d', c'⟩ := k
  have hne : ¬ (d = d' ∧ c = c') := fun e => h (by rw [e.1, e.2])
  unfold State.updCluster State.clusterAt
  by_cases h1 : s.cluster.die = d ∧ s.cluster.clu = c
  · rw [if_pos h1]
    have h2 : ¬ (s.cluster.die = d' ∧ s.cluster.clu = c') := by rwa [h1.1, h1.2]
    simp only [(hf _).1, (hf _).2, if_neg h2]
  · rw [if_neg h1]
    split <;> by_cases h2 : s.cluster.die = d' ∧ s.cluster.clu = c'
    · simp only [if_pos h2]
    · simp only [if_neg h2]
      rw [find?_mapWhere_other]
      intro k hk
      simp only [Bool.and_eq_true, decide_eq_true_eq] at hk
      simpa [(hf k).1, (hf k).2, hk.1, hk.2] using hne
    · simp only [if_pos h2]
    · simp only [if_neg h2]
      rw [List.find?_cons_of_neg (by simpa [(hf _).1, (hf _).2, Cluster.reset] using hne)]
/-- Updating each cluster of a list once. -/
theorem clusterAt_foldl_updCluster (f : Nat × Nat → Cluster → Cluster) (hf : ∀ n k, (f n k).die = k.die ∧ (f n k).clu = k.clu) (k : Nat × Nat) :
    ∀ (l : List (Nat × Nat)) (s : State), l.Nodup →
      (l.foldl (fun s n => s.updCluster n.1 n.2 (f n)) s).clusterAt k.1 k.2 = if k ∈ l then f k (s.clusterAt k.1 k.2) else s.clusterAt k.1 k.2
  | [], _, _ => rfl
  | n :: l, s, h => by
    obtain ⟨hn, hl⟩ := List.nodup_cons.1 h
    rw [List.foldl_cons, clusterAt_foldl_updCluster f hf k l _ hl]
    by_cases hk : k = n
    · subst hk
      rw [if_neg hn, if_pos List.mem_cons_self, clusterAt_updCluster _ _ _ _ (hf k)]
    · rw [clusterAt_updCluster_other s (f n) (hf n) hk]
      simp [hk]

/-- The two states differ in their clusters alone. -/
def OnlyClusters (s t : State) : Prop := { t with cluster := s.cluster, parkedClusters := s.parkedClusters } = s

theorem OnlyClusters.refl (s : State) : OnlyClusters s s := rfl
theorem OnlyClusters.trans {s t u : State} (h : OnlyClusters s t) (h' : OnlyClusters t u) : OnlyClusters s u := by
  unfold OnlyClusters at h h' ⊢
  rw [← h, ← h']
theorem onlyClusters_updCluster (s : State) (d c : Nat) (f : Cluster → Cluster) : OnlyClusters s (s.updCluster d c f) := by
  unfold OnlyClusters State.updCluster
  split
  · rfl
  · split <;> rfl
theorem onlyClusters_foldl {α : Type} (g : State → α → State) (h : ∀ s a, OnlyClusters s (g s a)) : ∀ (l : List α) (s : State), OnlyClusters s (l.foldl g s)
  | [], s => .refl s
  | a :: l, s => (h s a).trans (onlyClusters_foldl g h l (g s a))
theorem OnlyClusters.modul {s t : State} (h : OnlyClusters s t) : t.modul = s.modul := (congrArg State.modul h :)
theorem OnlyClusters.host {s t : State} (h : OnlyClusters s t) : t.host = s.host := (congrArg State.host h :)
theorem OnlyClusters.coreAt {s t : State} (h : OnlyClusters s t) (id : CoreId) : t.coreAt id = s.coreAt id := by
  rw [State.coreAt, show t.core = s.core from (congrArg State.core h :), show t.parked = s.parked from (congrArg State.parked h :), State.coreAt]
theorem OnlyClusters.dieAt {s t : State} (h : OnlyClusters s t) (d : Nat) : t.dieAt d = s.dieAt d := by
  rw [State.dieAt, show t.die = s.die from (congrArg State.die h :), show t.parkedDies = s.parkedDies from (congrArg State.parkedDies h :), State.dieAt]

/-! ## Cores -/

/-- The two states differ in their cores alone. -/
def OnlyCores (s t : State) : Prop := { t with core := s.core, parked := s.parked } = s

theorem OnlyCores.refl (s : State) : OnlyCores s s := rfl
theorem OnlyCores.trans {s t u : State} (h : OnlyCores s t) (h' : OnlyCores t u) : OnlyCores s u := by
  unfold OnlyCores at h h' ⊢
  rw [← h, ← h']
theorem onlyCores_foldl {α : Type} (g : State → α → State) (h : ∀ s a, OnlyCores s (g s a)) : ∀ (l : List α) (s : State), OnlyCores s (l.foldl g s)
  | [], s => .refl s
  | a :: l, s => (h s a).trans (onlyCores_foldl g h l (g s a))
theorem OnlyCores.modul {s t : State} (h : OnlyCores s t) : t.modul = s.modul := (congrArg State.modul h :)
theorem OnlyCores.host {s t : State} (h : OnlyCores s t) : t.host = s.host := (congrArg State.host h :)
theorem OnlyCores.clusterAt {s t : State} (h : OnlyCores s t) (d c : Nat) : t.clusterAt d c = s.clusterAt d c := by
  rw [State.clusterAt, show t.cluster = s.cluster from (congrArg State.cluster h :),
    show t.parkedClusters = s.parkedClusters from (congrArg State.parkedClusters h :), State.clusterAt]
theorem OnlyCores.dieAt {s t : State} (h : OnlyCores s t) (d : Nat) : t.dieAt d = s.dieAt d := by
  rw [State.dieAt, show t.die = s.die from (congrArg State.die h :), show t.parkedDies = s.parkedDies from (congrArg State.parkedDies h :), State.dieAt]
theorem onlyCores_foldl_updCore (f : CoreId → Core → Core) (l : List CoreId) (s : State) : OnlyCores s (l.foldl (fun s id => s.updCore id (f id)) s) :=
  onlyCores_foldl _ (fun s id => updCore_frame s id (f id)) l s
/-- Updating each core of a list once. -/
theorem coreAt_foldl_updCore (f : CoreId → Core → Core) (hf : ∀ id c, (f id c).id = c.id) (id : CoreId) : ∀ (l : List CoreId) (s : State), l.Nodup →
    (l.foldl (fun s id => s.updCore id (f id)) s).coreAt id = if id ∈ l then f id (s.coreAt id) else s.coreAt id
  | [], _, _ => rfl
  | n :: l, s, h => by
    obtain ⟨hn, hl⟩ := List.nodup_cons.1 h
    rw [List.foldl_cons, coreAt_foldl_updCore f hf id l _ hl, coreAt_updCore s n id _ (hf n)]
    by_cases hid : id = n
    · subst hid; simp [hn]
    · simp [hid]

end Sys2Proof.Machine
end

section
/-! SUPPORT. O49: the end of a job (R365, R79). -/

namespace Sys2Proof.Machine

/-! ## The leases -/

theorem mem_of_cget_ne_zero {w : Nat} {k : Nat} : {c : Cells w} → cget c k ≠ 0 → (k, cget c k) ∈ c
  | [], h => absurd rfl h
  | (n, v) :: rest, h => by
    rw [cget] at h ⊢
    split at h
    · next hn =>
      obtain rfl : n = k := by simpa using hn
      simp
    · next hn =>
      rw [if_neg hn]
      exact List.mem_cons_of_mem _ (mem_of_cget_ne_zero h)

/-- Cells written one after another: a cell has one of the values written to it, or none was and it has its own. -/
theorem cget_foldl_cset {α : Type} {w : Nat} (key : α → Nat) (val : α → BitVec w) (n : Nat) : ∀ (l : List α) (c : Cells w),
    (∃ e ∈ l, key e = n ∧ cget (l.foldl (fun c e => cset c (key e) (val e)) c) n = val e) ∨
      (∀ e ∈ l, key e ≠ n) ∧ cget (l.foldl (fun c e => cset c (key e) (val e)) c) n = cget c n
  | [], c => .inr ⟨fun _ h => absurd h (List.not_mem_nil), rfl⟩
  | e :: l, c => by
    rw [List.foldl_cons]
    rcases cget_foldl_cset key val n l (cset c (key e) (val e)) with ⟨x, hx, hkey, hval⟩ | ⟨hnone, hval⟩
    · exact .inl ⟨x, List.mem_cons_of_mem e hx, hkey, hval⟩
    · rw [hval, cget_cset]
      by_cases h : n = key e
      · exact .inl ⟨e, List.mem_cons_self, h.symm, if_pos h⟩
      · rw [if_neg h]
        exact .inr ⟨List.forall_mem_cons.2 ⟨Ne.symm h, hnone⟩, rfl⟩

/-- R79: no valid entry of the context is left on the die. -/
theorem releaseLease_map0 (k : Die) (ctx n : Nat) :
    ¬ ((cget (k.releaseLease ctx).map0 n).getLsbD 63 = true ∧ (cget (k.releaseLease ctx).map0 n).toNat / 2 ^ 52 % 2 ^ 7 = ctx) := by
  rintro ⟨hvalid, hctx⟩
  have hcases := cget_foldl_cset (fun e : Nat × Word => e.1) (fun e => e.2 &&& 0x7FFFFFFFFFFFFFFF) n
    (k.map0.filter (fun e => bit e.2 63 && bits e.2 58 52 == ctx)) k.map0
  rw [show List.foldl _ _ _ = (k.releaseLease ctx).map0 from rfl] at hcases
  rcases hcases with ⟨e, -, -, hval⟩ | ⟨hnone, hval⟩
  · rw [hval, BitVec.getLsbD_and] at hvalid
    simp at hvalid
  · rw [hval] at hvalid hctx
    have hmem : (n, cget k.map0 n) ∈ k.map0 := mem_of_cget_ne_zero fun h => by simp [h] at hvalid
    exact hnone _ (List.mem_filter.2 ⟨hmem, by simpa [bit, bits, hvalid] using hctx⟩) rfl
theorem releaseLease_leases (k : Die) (ctx : Nat) : ∀ l ∈ (k.releaseLease ctx).leases, l.ctx ≠ ctx := fun l hl => by
  simpa using (List.mem_filter.1 hl).2
theorem releaseLease_unacked (k : Die) (ctx : Nat) {x : Packet} (hx : x ∈ k.unacked) :
    (if x.from_.ctx = ctx then { x with from_ := { x.from_ with ctx := 128 } } else x) ∈ (k.releaseLease ctx).unacked := by
  refine List.mem_map.2 ⟨x, hx, ?_⟩
  simp only [decide_eq_true_eq]
  rfl

/-- Some die's map names the key slot. -/
def State.keySlotNamed (s : State) (ctx : Nat) : Bool := (List.range s.dies).any (fun d => (s.dieAt d).namesSlot ctx)

theorem keySlotNamed_iff (s : State) (ctx : Nat) : s.keySlotNamed ctx = true ↔
    ∃ d < s.dies, ∃ e ∈ (s.dieAt d).map0, e.2.getLsbD 63 = true ∧ e.2.getLsbD 59 = true ∧ e.2.toNat / 2 ^ 45 % 2 ^ 7 = ctx := by
  simp only [State.keySlotNamed, Die.namesSlot, List.any_eq_true, List.mem_range, Bool.and_eq_true, beq_iff_eq, and_assoc, bit, bits]

theorem keySlotNamed_congr {s t : State} {ctx : Nat} (hdies : t.dies = s.dies) (hmap : ∀ d < s.dies, (t.dieAt d).map0 = (s.dieAt d).map0) :
    t.keySlotNamed ctx = s.keySlotNamed ctx := by
  rw [Bool.eq_iff_iff, keySlotNamed_iff, keySlotNamed_iff, hdies]
  exact exists_congr fun d => and_congr_right fun h => by rw [hmap d h]

theorem onlyDies_releaseLeases (s : State) (ctx : Nat) : OnlyDies s (s.releaseLeases ctx) := by
  have released := onlyDies_foldl (fun (s : State) d => s.updDie d (fun k => k.releaseLease ctx)) (fun s d => onlyDies_updDie s d _) (List.range s.dies) s
  unfold State.releaseLeases
  dsimp only
  split
  · exact released.trans (onlyDies_foldl _ (fun s d => onlyDies_updDie s d _) _ _)
  · exact released

/-- R79, R86: every die releases the lease, and the key slot is cleared when no lease names it any more. -/
theorem dieAt_releaseLeases (s : State) (ctx : Nat) : ∃ keys : Nat → Cells 512,
    (∀ d < s.dies, (s.releaseLeases ctx).dieAt d = { (s.dieAt d).releaseLease ctx with keys := keys d }) ∧
    (s.keySlotNamed ctx = true → (s.releaseLeases ctx).keySlotNamed ctx = false → ∀ d, cget (keys d) ctx = 0) := by
  let s1 := (List.range s.dies).foldl (fun s d => s.updDie d (fun k => k.releaseLease ctx)) s
  have hs1 (d : Nat) (hd : d < s.dies) : s1.dieAt d = (s.dieAt d).releaseLease ctx := by
    rw [dieAt_foldl_updDie (fun _ k => k.releaseLease ctx) (fun _ _ => rfl) d _ s List.nodup_range, if_pos (List.mem_range.2 hd)]
  by_cases hclear : (s.keySlotNamed ctx && !s1.keySlotNamed ctx) = true
  · have he : s.releaseLeases ctx = (List.range s.dies).foldl (fun s d => s.updDie d (fun k => { k with keys := cset k.keys ctx 0 })) s1 := if_pos hclear
    refine ⟨fun d => cset (s.dieAt d).keys ctx 0, fun d hd => ?_, fun _ _ d => by rw [cget_cset, if_pos rfl]⟩
    rw [he, dieAt_foldl_updDie (fun _ k => { k with keys := cset k.keys ctx 0 }) (fun _ _ => rfl) d _ s1 List.nodup_range, if_pos (List.mem_range.2 hd), hs1 d hd]
    rfl
  · have he : s.releaseLeases ctx = s1 := if_neg hclear
    refine ⟨fun d => (s.dieAt d).keys, fun d hd => by rw [he, hs1 d hd]; rfl, fun hs ht => absurd ?_ hclear⟩
    rw [← he, hs, ht]
    rfl

/-! ## The cores (R342) -/

theorem leave_holds (c : Core) (ctx : Nat) : (c.leave ctx).holds ctx = false := by
  unfold Core.leave
  dsimp only
  split
  · split <;> rfl
  · next h => simpa using h
theorem leave_effects (c : Core) (ctx : Nat) : (c.leave ctx).effects = c.effects.filter (fun e => e.ctx ≠ ctx) := by
  unfold Core.leave
  dsimp only
  split
  · split <;> rfl
  · rfl
/-- Cores that leave a context hold it no longer, and keep what they handed on for others. -/
theorem coreAt_foldl_leave (ctx : Nat) (id : CoreId) : ∀ (l : List CoreId) (s : State), let t := l.foldl (fun s id => s.updCore id (fun c => c.leave ctx)) s
    (id ∈ l ∨ (s.coreAt id).holds ctx = false → (t.coreAt id).holds ctx = false) ∧ (∀ e ∈ (s.coreAt id).effects, e.ctx ≠ ctx → e ∈ (t.coreAt id).effects) ∧
    (id ∉ l → t.coreAt id = s.coreAt id)
  | [], s => ⟨fun h => h.resolve_left List.not_mem_nil, fun _ h _ => h, fun _ => rfl⟩
  | n :: l, s => by
    obtain ⟨hholds, heff, hother⟩ := coreAt_foldl_leave ctx id l (s.updCore n (fun c => c.leave ctx))
    have hcore := coreAt_updCore s n id (fun c => c.leave ctx) fun c => leave_id c ctx
    refine ⟨fun h => hholds ?_, fun e he hne => heff e ?_ hne, fun h => ?_⟩
    · rw [hcore]
      by_cases hid : id = n
      · rw [if_pos hid]
        exact .inr (leave_holds _ ctx)
      · rw [if_neg hid]
        exact h.imp_left fun h => (List.mem_cons.1 h).resolve_left hid
    · rw [hcore]
      split
      · rw [leave_effects]
        exact List.mem_filter.2 ⟨he, by simpa using hne⟩
      · exact he
    · rw [List.mem_cons, not_or] at h
      rw [List.foldl_cons, hother h.2, hcore, if_neg h.1]

/-! ## The job -/

/-- R365: everything of a job goes. -/
theorem removeJob_removes (s : State) (j : Job) : let t := s.removeJob j
    t.modul.jobs = s.modul.jobs.filter (fun x => x.ctx ≠ j.ctx) ∧ t.host = s.host ∧ (∀ d, t.dieAt d = (s.releaseLeases j.ctx).dieAt d) ∧ t.dies = s.dies ∧
    (∀ k ∈ j.clusters, ∀ x ∈ (t.clusterAt k.1 k.2).ctxs, x.ctx ≠ j.ctx) ∧
    (∀ id, (id ∈ j.cores → (t.coreAt id).holds j.ctx = false) ∧ (∀ e ∈ (s.coreAt id).effects, e.ctx ≠ j.ctx → e ∈ (t.coreAt id).effects) ∧
      (id ∉ j.cores → t.coreAt id = s.coreAt id)) := by
  intro t
  let s1 := s.releaseLeases j.ctx
  let f : Nat × Nat → Cluster → Cluster := fun _ c => { c with ctxs := c.ctxs.filter (fun x => x.ctx ≠ j.ctx) }
  let s2 := j.clusters.foldl (fun s k => s.updCluster k.1 k.2 (f k)) s1
  let s3 := j.cores.foldl (fun s id => s.updCore id (fun c => c.leave j.ctx)) s2
  have h1 : OnlyDies s s1 := onlyDies_releaseLeases s j.ctx
  have h2 : OnlyClusters s1 s2 := onlyClusters_foldl _ (fun s k => onlyClusters_updCluster s k.1 k.2 (f k)) _ _
  have h3 : OnlyCores s2 s3 := onlyCores_foldl_updCore (fun _ c => c.leave j.ctx) j.cores s2
  have hmodul : s3.modul = s.modul := h3.modul.trans (h2.modul.trans h1.modul)
  have hcore (id : CoreId) : s2.coreAt id = s.coreAt id := (h2.coreAt id).trans (h1.coreAt id)
  refine ⟨?_, h3.host.trans (h2.host.trans h1.host), fun d => (h3.dieAt d).trans (h2.dieAt d), ?_, fun k hk x hx => ?_, fun id => ?_⟩
  · show s3.modul.jobs.filter _ = _
    rw [hmodul]
  · show s3.modul.caps.dies.toNat = _
    rw [hmodul]
    rfl
  · have hx : x ∈ (s3.clusterAt k.1 k.2).ctxs := hx
    have hs2 : s2.clusterAt k.1 k.2 = f k (s1.clusterAt k.1 k.2) :=
      (clusterAt_foldl_updCluster f (fun _ _ => ⟨rfl, rfl⟩) k j.clusters s1 (nodup_eraseDups _)).trans (if_pos hk)
    rw [h3.clusterAt, hs2] at hx
    simpa using (List.mem_filter.1 hx).2
  · obtain ⟨hholds, heff, hother⟩ := coreAt_foldl_leave j.ctx id j.cores s2
    rw [hcore] at heff hother
    exact ⟨fun h => hholds (.inl h), heff, hother⟩

/-! ## The fence -/

/-- What becomes of the LAUNCH packet at the end of its job (R357, R360). -/
def State.launchEnds (s : State) (j : Job) : State :=
  match (s.queueAt j.fn j.queue).pkts.find? (fun p => p.idx = j.pkt && p.type = 0) with
  | none => s
  | some p => match j.report with
    | some (st, cause) => s.failPacket j.fn j.queue p st (causeCode cause)
    | none => (s.signalPacket j.fn j.queue p 0 0).dropPacket j.fn j.queue p.idx

theorem onlyHost_launchEnds (s : State) (j : Job) : onlyHost s (s.launchEnds j) := by
  unfold State.launchEnds
  split
  · exact .refl s
  · split
    · exact onlyHost_failPacket ..
    · exact (onlyHost_signalPacket ..).trans (onlyHost_dropPacket ..)
/-- The packet is gone. -/
theorem queueAt_launchEnds (s : State) (j : Job) : ∀ x ∈ ((s.launchEnds j).queueAt j.fn j.queue).pkts, ¬ (x.idx = j.pkt ∧ x.type = 0) := by
  have dropped (u : State) {p : QPacket} (hp : p.idx = j.pkt) : ∀ x ∈ ((u.dropPacket j.fn j.queue p.idx).queueAt j.fn j.queue).pkts, ¬ (x.idx = j.pkt ∧ x.type = 0) := by
    rw [queueAt_dropPacket, hp]
    exact fun x hx hc => absurd hc.1 (by simpa using (List.mem_filter.1 hx).2)
  unfold State.launchEnds
  split
  · next hnone =>
    simpa using hnone
  · next p hp =>
    have hidx : p.idx = j.pkt := by
      have := List.find?_some hp
      simp only [Bool.and_eq_true, decide_eq_true_eq] at this
      exact this.1
    split
    · exact dropped _ hidx
    · exact dropped _ hidx

/-- R365: the fence's conditions. -/
theorem fenceDone_of {s : State} {j : Job} (hover : j.killed = true ∨ ∀ id ∈ j.cores, id ∈ j.ended) (htasks : s.ctxTasks j.ctx = false)
    (hpackets : s.ctxPackets j.ctx = false) (hfed : s.ctxFed j.ctx = false) (hsubs : ∀ b ∈ s.host.subs, b.ctx ≠ some j.ctx)
    (hposted : ∀ w ∈ s.host.posted, w.ctx ≠ some j.ctx) (hcopies : j.killed = true ∨ s.ctxCopies j.ctx = false) : s.fenceDone j = true := by
  have hover : j.over = true := by simpa [Job.over] using hover
  have hdrained : s.hostDrained j.ctx = true := by simpa [State.hostDrained] using hposted
  have hsubs : s.host.subs.all (fun b => b.ctx != some j.ctx) = true := by simpa using hsubs
  have hcopies : (j.killed || !s.ctxCopies j.ctx) = true := by simpa using hcopies
  rw [State.fenceDone, hover, htasks, hpackets, hdrained, hsubs, hfed, hcopies]
  rfl

/-- R79, R342, R357, R360, R365: the end of a job. -/
theorem jobEnds_holds : jobEnds := by
  intro s j hjob hover htasks hpackets hfed hsubs hposted hcopies names
  let s2 := (s.failServed j.ctx).launchEnds j
  have hexec : exec (.endOfJobFence j.ctx) s = .next (s2.removeJob j).releaseSignals := by
    show execEndOfJobFence j.ctx s = _
    rw [execEndOfJobFence, hjob, Option.filter_some, if_pos (fenceDone_of hover htasks hpackets hfed hsubs hposted hcopies)]
    rfl
  have h2 : onlyHost s s2 := (onlyHost_failServed s j.ctx).trans (onlyHost_launchEnds _ j)
  obtain ⟨hjobs, hhost, hdie, hdies, hclusters, hcores⟩ := removeJob_removes s2 j
  obtain ⟨keys, hreleased, hkeys⟩ := dieAt_releaseLeases s2 j.ctx
  have hd (d : Nat) (hd : d < s.dies) : (s2.removeJob j).dieAt d = { (s.dieAt d).releaseLease j.ctx with keys := keys d } := by
    rw [hdie, hreleased d (h2.dies ▸ hd), h2.dieAt]
  refine ⟨_, hexec, hjobs.trans (by rw [h2.jobs]), ?_, fun d hlt => ?_, fun d hlt x hx => ?_, hclusters, fun hs ht d hlt => ?_, fun id hid => ?_, fun id hid => ?_⟩
  · have hq : ((s2.removeJob j).releaseSignals).queueAt j.fn j.queue = s2.queueAt j.fn j.queue := queueAt_congr (congrArg HostPort.functions hhost) _ _
    rw [hq]
    exact queueAt_launchEnds _ j
  · rw [show (s2.removeJob j).releaseSignals.dieAt d = _ from hd d hlt]
    exact ⟨releaseLease_leases _ _, releaseLease_map0 _ _⟩
  · rw [show (s2.removeJob j).releaseSignals.dieAt d = _ from hd d hlt]
    exact releaseLease_unacked _ _ hx
  · rw [show (s2.removeJob j).releaseSignals.dieAt d = _ from hd d hlt]
    refine hkeys ?_ ?_ d
    · rw [keySlotNamed_congr h2.dies fun d _ => by rw [h2.dieAt]]
      exact (keySlotNamed_iff s j.ctx).2 hs
    · have hsame : ((s2.removeJob j).releaseSignals).keySlotNamed j.ctx = (s2.releaseLeases j.ctx).keySlotNamed j.ctx :=
        keySlotNamed_congr (hdies.trans (onlyDies_releaseLeases s2 j.ctx).dies.symm) fun d _ => congrArg Die.map0 (hdie d)
      have hiff := keySlotNamed_iff (s2.removeJob j).releaseSignals j.ctx
      rw [show (s2.removeJob j).releaseSignals.dies = s.dies from hdies.trans h2.dies] at hiff
      rw [← hsame, Bool.eq_false_iff]
      exact mt hiff.1 ht
  · obtain ⟨hholds, heff, -⟩ := hcores id
    rw [h2.coreAt] at heff
    exact ⟨hholds hid, heff⟩
  · obtain ⟨-, -, hother⟩ := hcores id
    exact (hother hid).trans (h2.coreAt id)

end Sys2Proof.Machine
end

section
/-! SUPPORT. O49: the launch that is admitted: its context, memory, leases and signals (R363, R79). -/

namespace Sys2Proof.Machine

/-! ## What an admission gives -/

/-- A launch that begins has broken no check. -/
theorem answersBy.begins {a : Admission} {l : List (Prop × Option Nat)} (h : answersBy a l) {ctx : Nat} {es : List Extent} {pl : List (CoreId × Nat)}
    (ha : a = .begin ctx es pl) : ∀ c ∈ l, ¬ c.1 := by
  induction l with
  | nil => exact fun c hc => absurd hc List.not_mem_nil
  | cons x rest ih =>
    obtain ⟨hx, hrest⟩ := h
    have hnot : ¬ x.1 := fun hx' => by
      have hans := hx hx'
      rw [ha] at hans
      cases hc : x.2 <;> simp [hc] at hans
    exact List.forall_mem_cons.2 ⟨hnot, ih (hrest hnot)⟩

section
variable {s : State} {fn : Nat} {p : QPacket} {ctx : Nat} {es : List Extent} {pl : List (CoreId × Nat)}

theorem begin_of_ite {c : Prop} [Decidable c] {x y : Admission} (h : (if c then x else y) = .begin ctx es pl) (hx : x ≠ .begin ctx es pl := by exact nofun) :
    y = .begin ctx es pl := by
  split at h
  · exact absurd h hx
  · exact h
theorem lateChecks_begin {d : Desc} (h : s.lateChecks fn d = .begin ctx es pl) : s.leaseCheck d = .begin ctx es pl := by
  unfold State.lateChecks at h
  dsimp only at h
  have hend := begin_of_ite (begin_of_ite (begin_of_ite (begin_of_ite (begin_of_ite (begin_of_ite h)))))
  split at hend
  · next hl =>
    rw [hl]
    exact begin_of_ite hend
  · exact hend
theorem admission_begin_leaseCheck (h : s.admission fn p = .begin ctx es pl) : s.leaseCheck (s.descOf fn p) = .begin ctx es pl := by
  unfold State.admission at h
  dsimp only at h
  have hend := begin_of_ite (begin_of_ite (begin_of_ite (begin_of_ite h)))
  split at hend
  · cases hend
  · exact lateChecks_begin hend
/-- R361: a descriptor that is admitted keeps its limits. -/
theorem admission_begin_limits (h : s.admission fn p = .begin ctx es pl) : limitsHold (s.descOf fn p) :=
  not_not.1 ((admission_answersBy s fn p).begins h (¬ limitsHold (s.descOf fn p), some 1) (List.mem_of_getElem? (i := 2) rfl))
theorem admission_begin_places (h : s.admission fn p = .begin ctx es pl) {id : CoreId} (hid : id ∈ (s.descOf fn p).cores) :
    s.places id (s.descOf fn p).grant ≠ [] := fun hnil =>
  (admission_answersBy s fn p).begins h (∃ id ∈ (s.descOf fn p).cores, s.places id ((s.descOf fn p).spad * 65536) = [], some 5)
    (List.mem_of_getElem? (i := 8) rfl) ⟨id, hid, hnil⟩
theorem leaseCheck_begin {d : Desc} (h : s.leaseCheck d = .begin ctx es pl) :
    ctx ∈ s.usableContexts d ∧ (∀ k ∈ d.dies, d.extents.length ≤ (s.dieAt k).freeEntries.length) ∧ s.allocate d.extents s.mappedPages (s.modul.free + 1) = some es ∧
      pl = d.cores.filterMap (fun id => (s.choosePlace d.grant (s.modul.free + 2) id).map (fun pb => (id, pb))) := by
  unfold State.leaseCheck at h
  dsimp only at h
  split at h
  · cases h
  · next c hc =>
    split at h
    · cases h
    · next hbad =>
      split at h
      · cases h
      · next es' hes =>
        cases h
        simp only [Bool.or_eq_true, List.any_eq_true, decide_eq_true_eq, not_or, not_exists, not_and, not_lt] at hbad
        exact ⟨List.mem_of_getElem? hc, hbad.2, hes, rfl⟩
theorem mem_usableContexts {d : Desc} (h : ctx ∈ s.usableContexts d) : ctx < 128 ∧ ∀ j ∈ s.modul.jobs, j.ctx ≠ ctx :=
  mem_freeContexts.1 (List.mem_filter.1 h).1
theorem length_allocate {l : List (Nat × Nat × HbmRange)} {used : List (Nat × Nat)} {k : Nat} (h : s.allocate l used k = some es) : es.length = l.length := by
  induction l generalizing used k es with
  | nil => cases h; rfl
  | cons x rest ih =>
    obtain ⟨page, sz, r⟩ := x
    rw [State.allocate] at h
    split at h
    · cases h
    · obtain ⟨es', hes, rfl⟩ := Option.map_eq_some_iff.1 h
      rw [List.length_cons, List.length_cons, ih hes]

end

/-! ## Memory (R79) -/

theorem cget_cclear {w : Nat} (c : Cells w) (a n k : Nat) : cget (cclear c a n) k = if a ≤ k ∧ k < a + n then 0 else cget c k := by
  unfold cclear
  split
  · next h => exact cget_filter_none c _ k fun q _ hq => by simp; omega
  · next h => exact cget_filter_of c _ k fun q _ hq => by simp; omega

/-- What one extent's fill does. -/
def Extent.fill (e : Extent) (m : Modul) : Modul :=
  if e.range.enc then m
  else { m with
    hbm := cclear m.hbm (e.pab * 2 ^ 21) (2 ^ (21 + e.sz))
    hbmKey := cclear m.hbmKey (e.pab * 2 ^ 21 / 64) (2 ^ (21 + e.sz) / 64)
    hbmPoison := cclear m.hbmPoison (e.pab * 2 ^ 21 / 64) (2 ^ (21 + e.sz) / 64) }
theorem zeroFill_cons (m : Modul) (e : Extent) (es : List Extent) : zeroFill m (e :: es) = zeroFill (e.fill m) es := rfl
/-- A byte is zero and its unit unmarked. -/
def zeroAt (m : Modul) (a : Nat) : Prop := cget m.hbm a = 0 ∧ cget m.hbmPoison (a / 64) = 0
theorem zeroAt_fill {e : Extent} {m : Modul} {a : Nat}
    (h : zeroAt m a ∨ e.range.enc = false ∧ e.pab * 2 ^ 21 ≤ a ∧ a < e.pab * 2 ^ 21 + 2 ^ (21 + e.sz)) : zeroAt (e.fill m) a := by
  unfold Extent.fill
  by_cases henc : e.range.enc = true
  · rw [if_pos henc]
    exact h.resolve_right fun h => by simp [henc] at h
  · rw [if_neg henc]
    refine ⟨?_, ?_⟩
    · dsimp only
      rw [cget_cclear]
      split
      · rfl
      · next hout => exact h.elim (fun h => h.1) fun h => absurd h.2 hout
    · dsimp only
      rw [cget_cclear]
      split
      · rfl
      · next hout =>
        refine h.elim (fun h => h.2) fun h => absurd ?_ hout
        have hsize : 2 ^ (21 + e.sz) = 64 * 2 ^ (15 + e.sz) := by rw [show 21 + e.sz = 6 + (15 + e.sz) from by omega, pow_add]; rfl
        rw [hsize] at h ⊢
        omega
/-- R79: what the extents of a launch map unencrypted reads zero. -/
theorem zeroAt_zeroFill {a : Nat} : ∀ (es : List Extent) (m : Modul),
    (zeroAt m a ∨ ∃ e ∈ es, e.range.enc = false ∧ e.pab * 2 ^ 21 ≤ a ∧ a < e.pab * 2 ^ 21 + 2 ^ (21 + e.sz)) → zeroAt (zeroFill m es) a
  | [], m, h => h.resolve_right fun ⟨_, he, _⟩ => absurd he List.not_mem_nil
  | e :: es, m, h => by
    rw [zeroFill_cons]
    refine zeroAt_zeroFill es _ ?_
    rcases h with h | ⟨x, hx, hin⟩
    · exact .inl (zeroAt_fill (.inl h))
    · rcases List.mem_cons.1 hx with rfl | hx
      · exact .inl (zeroAt_fill (.inr hin))
      · exact .inr ⟨x, hx, hin⟩
/-- It changes memory alone. -/
theorem zeroFill_frame (es : List Extent) (m : Modul) : (zeroFill m es).jobs = m.jobs ∧ (zeroFill m es).caps = m.caps := by
  refine foldl_keeps (fun n : Modul => n.jobs = m.jobs ∧ n.caps = m.caps) _ (fun n e h => ?_) es m ⟨rfl, rfl⟩
  split
  · exact h
  · exact h

/-! ## Leases (R75, R79) -/

/-- The entries of a launch, each with its place among those that are free. -/
def Die.entriesFor (k : Die) (es : List Extent) : List (Nat × Extent) :=
  (List.range es.length).filterMap (fun i => match es[i]?, k.freeEntries[i]? with
    | some e, some n => some (n, e)
    | _, _ => none)
theorem lock_map0 (k : Die) (d : Desc) (ctx : Nat) (es : List Extent) :
    (k.lock d ctx es).map0 = (k.entriesFor es).foldl (fun m p => cset m p.1 (p.2.word0 ctx)) k.map0 := rfl
theorem lock_map1 (k : Die) (d : Desc) (ctx : Nat) (es : List Extent) :
    (k.lock d ctx es).map1 = (k.entriesFor es).foldl (fun m p => cset m p.1 (BitVec.ofNat 64 p.2.pab)) k.map1 := rfl
theorem mem_entriesFor {k : Die} {es : List Extent} {x : Nat × Extent} : x ∈ k.entriesFor es ↔ ∃ i : Nat, es[i]? = some x.2 ∧ k.freeEntries[i]? = some x.1 := by
  refine List.mem_filterMap.trans (exists_congr fun i => ?_)
  rw [List.mem_range]
  constructor
  · rintro ⟨-, h⟩
    split at h
    · next e n he hn =>
      cases h
      exact ⟨he, hn⟩
    · cases h
  · rintro ⟨he, hn⟩
    refine ⟨(List.getElem?_eq_some_iff.1 he).1, ?_⟩
    rw [he, hn]
/-- An entry is given to one extent alone. -/
theorem entriesFor_unique {k : Die} {es : List Extent} {x y : Nat × Extent} (hx : x ∈ k.entriesFor es) (hy : y ∈ k.entriesFor es) (h : x.1 = y.1) : x = y := by
  obtain ⟨i, hxe, hxn⟩ := mem_entriesFor.1 hx
  obtain ⟨j, hye, hyn⟩ := mem_entriesFor.1 hy
  have hnodup : k.freeEntries.Nodup := List.nodup_range.filter _
  have hij : i = j := (List.getElem?_inj (List.getElem?_eq_some_iff.1 hxn).1 hnodup).1 (by rw [hxn, hyn, h])
  subst hij
  exact Prod.ext h (Option.some.inj (hxe.symm.trans hye))
/-- R75: each extent has its entry. -/
theorem lock_entry {k : Die} (d : Desc) (ctx : Nat) {es : List Extent} (hlen : es.length ≤ k.freeEntries.length) {e : Extent} (he : e ∈ es) :
    ∃ n, cget (k.lock d ctx es).map0 n = e.word0 ctx ∧ (cget (k.lock d ctx es).map1 n).toNat = e.pab % 2 ^ 64 := by
  obtain ⟨i, hei⟩ := List.mem_iff_getElem?.1 he
  obtain ⟨n, hn⟩ : ∃ n, k.freeEntries[i]? = some n := 
    ⟨_, List.getElem?_eq_getElem (lt_of_lt_of_le (List.getElem?_eq_some_iff.1 hei).1 hlen)⟩
  have hmem : (n, e) ∈ k.entriesFor es := mem_entriesFor.2 ⟨i, hei, hn⟩
  refine ⟨n, ?_, ?_⟩
  · rw [lock_map0]
    rcases cget_foldl_cset (fun p : Nat × Extent => p.1) (fun p => p.2.word0 ctx) n (k.entriesFor es) k.map0 with ⟨x, hx, hkey, hval⟩ | ⟨hnone, -⟩
    · rw [hval, entriesFor_unique hx hmem hkey]
    · exact absurd rfl (hnone _ hmem)
  · rw [lock_map1]
    rcases cget_foldl_cset (fun p : Nat × Extent => p.1) (fun p => BitVec.ofNat 64 p.2.pab) n (k.entriesFor es) k.map1 with ⟨x, hx, hkey, hval⟩ | ⟨hnone, -⟩
    · rw [hval, entriesFor_unique hx hmem hkey, BitVec.toNat_ofNat]
    · exact absurd rfl (hnone _ hmem)

/-! ## Signals (R364) -/

theorem serveSignal_keeps (s : State) (fn a : Nat) {r : SignalRec} (hr : r ∈ s.host.signals) : r ∈ (s.serveSignal fn a).host.signals := by
  unfold State.serveSignal
  split
  · exact hr
  · exact List.mem_cons_of_mem _ hr
/-- Every signal of the descriptor is served. -/
theorem foldl_serveSignal (fn : Nat) (l : List Nat) : ∀ s : State, ∀ a, a ≠ 0 → (a ∈ l ∨ ∃ r ∈ s.host.signals, r.fn = fn ∧ r.iova = a) →
    ∃ r ∈ (l.foldl (fun s a => s.serveSignal fn a) s).host.signals, r.fn = fn ∧ r.iova = a := by
  induction l with
  | nil => exact fun s a _ h => h.resolve_left List.not_mem_nil
  | cons b l ih =>
    intro s a ha h
    refine ih _ a ha ?_
    rcases h with h | ⟨r, hr, hfn, hiova⟩
    · rcases List.mem_cons.1 h with rfl | h
      · obtain ⟨r, hr, -, -⟩ := signalRec_serveSignal s (fn := fn) ha
        have hfound := List.find?_some hr
        simp only [Bool.and_eq_true, decide_eq_true_eq] at hfound
        exact .inr ⟨r, List.mem_of_find?_eq_some hr, hfound⟩
      · exact .inl h
    · exact .inr ⟨r, serveSignal_keeps s fn b hr, hfn, hiova⟩

end Sys2Proof.Machine
end

section
/-! SUPPORT. O49: the machine under another acting core, and what a new context finds at its clusters (R363, R387). -/

namespace Sys2Proof.Machine

/-! ## The acting core -/

/-- Looking for what a filter keeps. -/
theorem find?_filter_of {α : Type} {p q : α → Bool} (h : ∀ a, p a = true → q a = true) (l : List α) : (l.filter q).find? p = l.find? p := by
  rw [List.find?_filter]
  congr 1
  funext a
  cases hp : p a
  · simp
  · simp [h a hp]

/-- Which core acts changes nothing that a core reads as. -/
theorem coreAt_actAs (s : State) (id j : CoreId) : (s.actAs id).coreAt j = s.coreAt j := by
  unfold State.actAs
  split
  · rfl
  · next hid =>
    rw [State.coreAt]
    dsimp only
    rw [coreAt_id]
    by_cases hj : id = j
    · rw [if_pos hj, hj]
    · rw [if_neg hj, State.coreAt, List.find?_cons]
      by_cases hs : s.core.id = j
      · simp [hs]
      · rw [if_neg hs, find?_filter_of]
        · simp [hs]
        · intro c hc
          simp only [decide_eq_true_eq] at hc
          simpa [hc] using Ne.symm hj
theorem dieAt_actAs (s : State) (id : CoreId) (d : Nat) : (s.actAs id).dieAt d = s.dieAt d := by
  unfold State.actAs
  split
  · rfl
  · rw [State.dieAt]
    dsimp only
    rw [dieAt_die]
    by_cases hd : id.die = d
    · rw [if_pos hd, hd]
    · rw [if_neg hd, State.dieAt]
      by_cases hs : s.die.die = id.die
      · rw [if_pos hs, if_neg (hs ▸ hd)]
      · rw [if_neg hs, List.find?_cons]
        by_cases hs : s.die.die = d
        · simp [hs]
        · rw [if_neg hs, find?_filter_of]
          · simp [hs]
          · intro c hc
            simp only [decide_eq_true_eq] at hc
            simpa [hc] using Ne.symm hd
theorem clusterAt_actAs (s : State) (id : CoreId) (d c : Nat) : (s.actAs id).clusterAt d c = s.clusterAt d c := by
  unfold State.actAs
  split
  · rfl
  · obtain ⟨hdie, hclu⟩ := clusterAt_place s id.die id.clu
    rw [State.clusterAt]
    dsimp only
    rw [hdie, hclu]
    by_cases hd : id.die = d ∧ id.clu = c
    · rw [if_pos hd, hd.1, hd.2]
    · rw [if_neg hd, State.clusterAt]
      by_cases hs : s.cluster.die = id.die ∧ s.cluster.clu = id.clu
      · rw [if_pos hs, if_neg (hs.1 ▸ hs.2 ▸ hd)]
      · rw [if_neg hs, List.find?_cons]
        by_cases hs : s.cluster.die = d ∧ s.cluster.clu = c
        · simp [hs.1, hs.2]
        · rw [if_neg hs, find?_filter_of]
          · rw [← Bool.decide_and, decide_eq_false hs]
          · intro k hk
            simp only [Bool.and_eq_true, decide_eq_true_eq] at hk
            rw [Bool.not_eq_true', ← Bool.decide_and, decide_eq_false_iff_not, hk.1, hk.2]
            exact fun e => hd ⟨e.1.symm, e.2.symm⟩

/-! ## Slots and tiles of a launch -/

theorem setSlot_zero (k : Cluster) {n m : Nat} (h : k.slot n = {} ∨ m = n) : (k.setSlot m {}).slot n = {} := by
  unfold Cluster.setSlot
  unfold Cluster.slot at h ⊢
  by_cases hn : n < 32
  · simp only [List.getD_eq_getElem?_getD, Vector.getElem?_toList, hn, getElem?_pos, Option.getD_some, Vector.getElem_ofFn] at h ⊢
    split
    · rfl
    · next hne => exact h.resolve_right (Ne.symm hne)
  · simp [List.getD_eq_getElem?_getD, hn]
theorem setTile_zero (k : Cluster) {n m : Nat} (h : k.tile n = {} ∨ m = n) : (k.setTile m {}).tile n = {} := by
  unfold Cluster.setTile
  unfold Cluster.tile at h ⊢
  by_cases hn : n < 48
  · simp only [List.getD_eq_getElem?_getD, Vector.getElem?_toList, hn, getElem?_pos, Option.getD_some, Vector.getElem_ofFn] at h ⊢
    split
    · rfl
    · next hne => exact h.resolve_right (Ne.symm hne)
  · simp [List.getD_eq_getElem?_getD, hn]
theorem setSlots_cons (k : Cluster) (p : Nat × Slot) (l : List (Nat × Slot)) : k.setSlots (p :: l) = (k.setSlot p.1 p.2).setSlots l := by
  rw [Cluster.setSlots, Cluster.setSlots, List.foldl_cons]
theorem setTiles_cons (k : Cluster) (p : Nat × AccTile) (l : List (Nat × AccTile)) : k.setTiles (p :: l) = (k.setTile p.1 p.2).setTiles l := by
  rw [Cluster.setTiles, Cluster.setTiles, List.foldl_cons]
/-- Slots of a list that are all written with zeros read zero. -/
theorem setSlots_zero {n : Nat} {l : List (Nat × Slot)} (hl : ∀ p ∈ l, p.2 = {}) (k : Cluster) (h : k.slot n = {} ∨ ∃ p ∈ l, p.1 = n) : (k.setSlots l).slot n = {} := by
  induction l generalizing k with
  | nil => exact h.resolve_right fun ⟨_, hp, _⟩ => absurd hp List.not_mem_nil
  | cons p l ih =>
    obtain ⟨hp, hl⟩ := List.forall_mem_cons.1 hl
    rw [setSlots_cons, hp]
    refine ih hl _ ?_
    rcases h with h | ⟨x, hx, hxn⟩
    · exact .inl (setSlot_zero k (.inl h))
    · rcases List.mem_cons.1 hx with rfl | hx
      · exact .inl (setSlot_zero k (.inr hxn))
      · exact .inr ⟨x, hx, hxn⟩
theorem setTiles_zero {n : Nat} {l : List (Nat × AccTile)} (hl : ∀ p ∈ l, p.2 = {}) (k : Cluster) (h : k.tile n = {} ∨ ∃ p ∈ l, p.1 = n) : (k.setTiles l).tile n = {} := by
  induction l generalizing k with
  | nil => exact h.resolve_right fun ⟨_, hp, _⟩ => absurd hp List.not_mem_nil
  | cons p l ih =>
    obtain ⟨hp, hl⟩ := List.forall_mem_cons.1 hl
    rw [setTiles_cons, hp]
    refine ih hl _ ?_
    rcases h with h | ⟨x, hx, hxn⟩
    · exact .inl (setTile_zero k (.inl h))
    · rcases List.mem_cons.1 hx with rfl | hx
      · exact .inl (setTile_zero k (.inr hxn))
      · exact .inr ⟨x, hx, hxn⟩

/-! ## What a cluster keeps for a new context -/

theorem flagEntry_launchMap (f : BitVec 6) : flagEntry launchMap f = (true, true, f) := by
  revert f
  decide

theorem nodup_maskClusters (m : Nat) : (maskClusters m).Nodup := by
  refine (List.nodup_range.filter _).map fun a b h => ?_
  obtain ⟨h1, h2⟩ := Prod.mk.inj h
  omega
theorem nodup_cores (d : Desc) : d.cores.Nodup := by
  refine List.nodup_flatMap.2 ⟨fun k _ => ?_, ?_⟩
  · exact (List.nodup_range.filter _).map fun a b h => congrArg CoreId.core h
  · refine (nodup_maskClusters d.clmask).imp fun hne => ?_
    intro id hid hid'
    obtain ⟨c, -, rfl⟩ := List.mem_map.1 hid
    obtain ⟨c', -, h⟩ := List.mem_map.1 hid'
    refine hne (Prod.ext ?_ ?_)
    · exact (congrArg CoreId.die h).symm
    · exact (congrArg CoreId.clu h).symm

theorem assoc_map {α β : Type} [DecidableEq α] (f : α → β) (a : α) : ∀ l : List α, assoc (l.map (fun a => (a, f a))) a = if a ∈ l then some (f a) else none
  | [] => rfl
  | b :: l => by
    rw [List.map_cons, assoc, assoc_map f a l]
    by_cases h : b = a
    · simp [h]
    · simp [h, Ne.symm h]
theorem assoc_map_snd {α β γ : Type} [DecidableEq α] (g : β → γ) (a : α) : ∀ l : List (α × β), assoc (l.map (fun p => (p.1, g p.2))) a = (assoc l a).map g
  | [] => rfl
  | (b, w) :: l => by
    rw [List.map_cons, assoc, assoc, assoc_map_snd g a l]
    split <;> rfl

theorem imageSketches_length (im : ImageAt) : (imageSketches im).length = im 0x14 2 := by
  rw [imageSketches, List.length_map, List.length_range]
theorem getElem?_imageSketches (im : ImageAt) (i : Nat) : (imageSketches im)[i]? = if i < im 0x14 2 then some (imageSketch im i) else none := by
  split
  · next h => rw [imageSketches, List.getElem?_map, List.getElem?_range h, Option.map_some]
  · next h => exact List.getElem?_eq_none (by rw [imageSketches_length]; omega)

/-- R189, R194, R253, R255, R291, R387: what a launch gives a cluster. -/
theorem clusterHolds_ctxCluster (s : State) (d : Desc) (im : ImageAt) (ctx : Nat) (k : Nat × Nat) :
    clusterHolds s d im ctx k (d.ctxCluster ctx (imageSketches im) (d.cores.filter (fun id => !(s.jobsOn id).isEmpty)) k) := by
  have hmine (c : Nat) : (d.cores.filter (fun id => id.die = k.1 && id.clu = k.2)).any (fun id => id.core = c) = true ↔ (⟨k.1, k.2, c⟩ : CoreId) ∈ d.cores := by
    simp only [List.any_eq_true, List.mem_filter, Bool.and_eq_true, decide_eq_true_eq]
    constructor
    · rintro ⟨⟨die, clu, core⟩, ⟨hid, rfl, rfl⟩, rfl⟩
      exact hid
    · exact fun h => ⟨_, ⟨h, rfl, rfl⟩, rfl⟩
  refine ⟨rfl, rfl, rfl, rfl, rfl, fun n c => ?_, fun c => ?_, fun j => ?_, fun i => ⟨?_, ?_⟩⟩
  · simp only [Desc.ctxCluster, List.mem_flatMap, List.mem_map, List.mem_filter, List.mem_range, Bool.and_eq_true, decide_eq_true_eq, Prod.mk.injEq]
    constructor
    · rintro ⟨⟨die, clu, core⟩, ⟨hid, rfl, rfl⟩, i, hi, rfl, rfl⟩
      exact ⟨hid, by simp, by simpa using hi⟩
    · rintro ⟨hid, hlo, hhi⟩
      exact ⟨_, ⟨hid, rfl, rfl⟩, n - 12 * c, by omega, by simp; omega, rfl⟩
  · simp only [Desc.ctxCluster, Fin.getElem_fin, Vector.getElem_ofFn, hmine c.val]
    split
    · next h =>
      refine ⟨iff_of_true rfl h, fun _ => ⟨?_, flagEntry_launchMap⟩⟩
      simp [h]
    · next h => exact ⟨iff_of_false Bool.false_ne_true h, fun hc => absurd hc h⟩
  · simp only [Desc.ctxCluster, Fin.getElem_fin, Vector.getElem_ofFn]
  · simp only [Desc.ctxCluster]
    rw [assoc_map (fun i => i), imageSketches_length]
    simp
  · simp only [Desc.ctxCluster, CtxCluster.block]
    rw [assoc_map (fun i => ({ image := (imageSketches im)[i]? } : SkBlock)), imageSketches_length, getElem?_imageSketches]
    simp only [List.mem_range]
    split <;> rfl

/-- It keeps all that, whatever else becomes of its sketch blocks, while their images stay. -/
theorem clusterHolds_withBlocks {s : State} {d : Desc} {im : ImageAt} {ctx : Nat} {k : Nat × Nat} {x : CtxCluster} (h : clusterHolds s d im ctx k x)
    {bs : List (Nat × SkBlock)} (hbs : ∀ i, ((assoc bs i).getD {}).image = (x.block i).image) : clusterHolds s d im ctx k { x with blocks := bs } := by
  obtain ⟨hctx, hpal, hpart, hslot, hcancel, htile, hcores, hgrants, hsk⟩ := h
  exact ⟨hctx, hpal, hpart, hslot, hcancel, htile, hcores, hgrants, fun i => ⟨(hsk i).1, (hbs i).trans (hsk i).2⟩⟩
theorem clusterHolds_setBlock {s : State} {d : Desc} {im : ImageAt} {ctx : Nat} {k : Nat × Nat} {x : CtxCluster} (h : clusterHolds s d im ctx k x)
    {j : Nat} {b : SkBlock} (hj : j < im 0x14 2) (hb : b.image = some (imageSketch im j)) : clusterHolds s d im ctx k { x with blocks := assocSet x.blocks j b } := by
  refine clusterHolds_withBlocks h fun i => ?_
  rw [assoc_assocSet]
  split
  · next hij =>
    obtain ⟨-, -, -, -, -, -, -, -, hsk⟩ := h
    rw [(hsk i).2, ← hij, if_pos hj]
    exact hb
  · rfl
theorem clusterHolds_evict {s : State} {d : Desc} {im : ImageAt} {ctx : Nat} {k : Nat × Nat} {x : CtxCluster} (h : clusterHolds s d im ctx k x) (n : Nat) :
    clusterHolds s d im ctx k { x with blocks := x.blocks.map (fun b => (b.1, if b.2.phys = some n then { b.2 with phys := none } else b.2)) } := by
  refine clusterHolds_withBlocks h fun i => ?_
  rw [assoc_map_snd (fun b : SkBlock => if b.phys = some n then { b with phys := none } else b), CtxCluster.block]
  cases assoc x.blocks i with
  | none => rfl
  | some b =>
    simp only [Option.map_some, Option.getD_some]
    split <;> rfl

/-! ## Sketches become resident (R254) -/

/-- Cluster k keeps what the launch gave the new context. -/
def Cluster.keepsLaunch (s : State) (d : Desc) (im : ImageAt) (ctx : Nat) (k : Nat × Nat) (c : Cluster) : Prop := ∃ x ∈ c.ctxs, clusterHolds s d im ctx k x

section
variable {s₀ : State} {d : Desc} {im : ImageAt} {ctx : Nat}

theorem keepsLaunch_setBlock {k : Nat × Nat} {c : Cluster} {ctx' j : Nat} {b : SkBlock} (hj : j < im 0x14 2) (hb : b.image = some (imageSketch im j))
    (h : c.keepsLaunch s₀ d im ctx k) : (c.updCtx ctx' (fun x => { x with blocks := assocSet x.blocks j b })).keepsLaunch s₀ d im ctx k := by
  obtain ⟨x, hx, hholds⟩ := h
  refine ⟨_, List.mem_map.2 ⟨x, hx, rfl⟩, ?_⟩
  split
  · exact clusterHolds_setBlock hholds hj hb
  · exact hholds
theorem keepsLaunch_evict {k : Nat × Nat} {c : Cluster} (n : Nat) (h : c.keepsLaunch s₀ d im ctx k) : (c.evict n).keepsLaunch s₀ d im ctx k := by
  obtain ⟨x, hx, hholds⟩ := h
  exact ⟨_, List.mem_map.2 ⟨x, hx, rfl⟩, clusterHolds_evict hholds n⟩

variable (s₀ d im ctx) in
/-- From s to t sketches of the launch become resident: what the clusters keep for it stays, with their slots and tiles, and so do cores, dies and the module. -/
structure BringsSketches (s t : State) : Prop where
  host : t.host = s.host
  modul : { t.modul with free := s.modul.free } = s.modul
  core : ∀ id, t.coreAt id = s.coreAt id
  die : ∀ n, t.dieAt n = s.dieAt n
  slots : ∀ n c, (t.clusterAt n c).slots = (s.clusterAt n c).slots
  tiles : ∀ n c, (t.clusterAt n c).tiles = (s.clusterAt n c).tiles
  keeps : ∀ k n c, (s.clusterAt n c).keepsLaunch s₀ d im ctx k → (t.clusterAt n c).keepsLaunch s₀ d im ctx k

theorem BringsSketches.refl (s : State) : BringsSketches s₀ d im ctx s s := ⟨rfl, rfl, fun _ => rfl, fun _ => rfl, fun _ _ => rfl, fun _ _ => rfl, fun _ _ _ h => h⟩
theorem BringsSketches.trans {s t u : State} (h : BringsSketches s₀ d im ctx s t) (h' : BringsSketches s₀ d im ctx t u) : BringsSketches s₀ d im ctx s u where
  host := h'.host.trans h.host
  modul := by
    have h1 := h.modul
    have h2 := h'.modul
    rw [← h1, ← h2]
  core id := (h'.core id).trans (h.core id)
  die n := (h'.die n).trans (h.die n)
  slots n c := (h'.slots n c).trans (h.slots n c)
  tiles n c := (h'.tiles n c).trans (h.tiles n c)
  keeps k n c hk := h'.keeps k n c (h.keeps k n c hk)
theorem BringsSketches.foldl {α : Type} (g : State → α → State) : ∀ (l : List α) (s : State), (∀ a ∈ l, ∀ s, BringsSketches s₀ d im ctx s (g s a)) →
    BringsSketches s₀ d im ctx s (l.foldl g s)
  | [], s, _ => .refl s
  | a :: l, s, h => (h a List.mem_cons_self s).trans (foldl g l (g s a) fun b hb => h b (List.mem_cons_of_mem a hb))

theorem bringsSketches_actAs (s : State) (id : CoreId) : BringsSketches s₀ d im ctx s (s.actAs id) where
  host := by unfold State.actAs; split <;> rfl
  modul := by unfold State.actAs; split <;> rfl
  core := coreAt_actAs s id
  die := dieAt_actAs s id
  slots n c := by rw [clusterAt_actAs]
  tiles n c := by rw [clusterAt_actAs]
  keeps k n c h := by rwa [clusterAt_actAs]
/-- The acting cluster's book of sketches alone changes. -/
theorem bringsSketches_cluster (s : State) (c : Cluster) (m : Modul) (hm : { m with free := s.modul.free } = s.modul) (hdie : c.die = s.cluster.die) (hclu : c.clu = s.cluster.clu)
    (hslots : c.slots = s.cluster.slots) (htiles : c.tiles = s.cluster.tiles) (hkeeps : ∀ k, s.cluster.keepsLaunch s₀ d im ctx k → c.keepsLaunch s₀ d im ctx k) :
    BringsSketches s₀ d im ctx s { s with cluster := c, modul := m } where
  host := rfl
  modul := hm
  core _ := rfl
  die _ := rfl
  slots n e := by
    unfold State.clusterAt
    dsimp only
    rw [hdie, hclu]
    split
    · exact hslots
    · rfl
  tiles n e := by
    unfold State.clusterAt
    dsimp only
    rw [hdie, hclu]
    split
    · exact htiles
    · rfl
  keeps k n e := by
    unfold State.clusterAt
    dsimp only
    rw [hdie, hclu]
    split
    · exact hkeeps k
    · exact id
theorem bringsSketches_makeResident (s : State) {j : Nat} {b : SkBlock} (hj : j < im 0x14 2) (hb : b.image = some (imageSketch im j)) :
    BringsSketches s₀ d im ctx s (s.makeResident ctx j b) := by
  unfold State.makeResident
  dsimp only
  split
  · next n _ =>
    exact bringsSketches_cluster s _ s.modul rfl rfl rfl rfl rfl fun k h => keepsLaunch_setBlock (b := { b with phys := some n }) hj hb h
  · split
    · next n _ =>
      exact bringsSketches_cluster s _ { s.modul with free := s.modul.free + 1 } rfl rfl rfl rfl rfl fun k h =>
        keepsLaunch_setBlock (b := { b with phys := some n }) hj hb (keepsLaunch_evict n h)
    · exact .refl s
/-- R254: the sketches of a launch's image at the clusters of a list. -/
theorem bringsSketches_foldl (l : List (Nat × Nat)) (s : State) : BringsSketches s₀ d im ctx s
    (l.foldl (fun s k => ((imageSketches im).zipIdx).foldl (fun s b => s.makeResident ctx b.2 { image := some b.1 }) (s.actAs ⟨k.1, k.2, 0⟩)) s) := by
  refine .foldl _ _ s fun k _ s => (bringsSketches_actAs s _).trans (.foldl _ _ _ fun b hb s => ?_)
  have hget : (imageSketches im)[b.2]? = some b.1 := List.mk_mem_zipIdx_iff_getElem?.1 hb
  rw [getElem?_imageSketches] at hget
  split at hget
  · next hlt => exact bringsSketches_makeResident s hlt hget.symm
  · cases hget

end

end Sys2Proof.Machine
end

section
/-! SUPPORT. O49: the cores of a launch (R363, R383, R441). -/

namespace Sys2Proof.Machine

/-! ## Placements (R383) -/

theorem mem_places {s : State} {id : CoreId} {grant pb : Nat} (h : pb ∈ s.places id grant) (hg : grant ≤ 4194304) : pb % 65536 = 0 ∧ pb + grant ≤ 4194304 ∧
    ∀ b, b ∈ (s.coreAt id).sched ∨ (s.coreAt id).cr.tvec ≠ 0 ∧ b = (s.coreAt id).cr.tvec.toNat / 65536 → pb + grant ≤ 65536 * b ∨ 65536 * (b + 1) ≤ pb := by
  obtain ⟨hmem, hclear⟩ := List.mem_filter.1 h
  obtain ⟨i, hi, rfl⟩ := List.mem_map.1 hmem
  rw [List.mem_range] at hi
  have hbytes : Config.spadBytes = 4194304 := rfl
  rw [hbytes] at hi
  refine ⟨by omega, by omega, fun b hb => ?_⟩
  have hcode : b ∈ (s.coreAt id).codeBlocks := by
    unfold Core.codeBlocks
    split
    · next h0 => exact hb.resolve_right fun h => h.1 h0
    · rcases hb with hb | hb
      · exact List.mem_cons_of_mem _ hb
      · exact hb.2 ▸ List.mem_cons_self
  have := List.all_eq_true.1 hclear b hcode
  simp only [rangesMeet, Bool.not_eq_true', decide_eq_false_iff_not] at this
  omega
/-- A core with a place has one chosen. -/
theorem choosePlace_mem {s : State} {id : CoreId} {grant : Nat} (k : Nat) (h : s.places id grant ≠ []) : ∃ pb ∈ s.places id grant, s.choosePlace grant k id = some pb := by
  have hclear : ∀ pb ∈ s.clearPlaces id grant, pb ∈ s.places id grant := fun pb hpb => (List.mem_filter.1 hpb).1
  unfold State.choosePlace
  have chosen (l : List Nat) (hl : l ≠ []) (hsub : ∀ pb ∈ l, pb ∈ s.places id grant) : ∃ pb ∈ s.places id grant, l[Config.choice k % l.length]? = some pb := by
    obtain ⟨pb, hpb⟩ := Option.ne_none_iff_exists'.1 (mt (getElem?_mod_eq_none_iff l (Config.choice k)).1 hl)
    exact ⟨pb, hsub pb (List.mem_of_getElem? hpb), hpb⟩
  split
  · exact chosen _ h fun _ h => h
  · next hne => exact chosen _ (by simpa using hne) hclear
theorem assoc_filterMap {α β : Type} [DecidableEq α] (g : α → Option β) {a : α} {b : β} (hg : g a = some b) : ∀ {l : List α}, a ∈ l →
    assoc (l.filterMap (fun a => (g a).map (fun b => (a, b)))) a = some b
  | [], h => absurd h List.not_mem_nil
  | x :: l, h => by
    by_cases hx : x = a
    · subst hx
      rw [List.filterMap_cons, hg]
      exact if_pos rfl
    · have hl := assoc_filterMap g hg ((List.mem_cons.1 h).resolve_left (Ne.symm hx))
      rw [List.filterMap_cons]
      cases g x with
      | none => exact hl
      | some y => exact (if_neg hx).trans hl
/-- R383: the placement that a launch gives a core. -/
theorem placed {s : State} {fn : Nat} {p : QPacket} {ctx : Nat} {es : List Extent} {pl : List (CoreId × Nat)} (h : s.admission fn p = .begin ctx es pl) {id : CoreId}
    (hid : id ∈ (s.descOf fn p).cores) : ∃ pb ∈ s.places id (s.descOf fn p).grant, assoc pl id = some pb := by
  obtain ⟨pb, hmem, hpb⟩ := choosePlace_mem (s.modul.free + 2) (admission_begin_places h hid)
  obtain ⟨-, -, -, rfl⟩ := leaseCheck_begin (admission_begin_leaseCheck h)
  exact ⟨pb, hmem, assoc_filterMap _ hpb hid⟩

/-! ## The image's sections -/

/-- The sections of an image are disjoint. -/
def sectionsDisjoint (im : ImageAt) : Prop := (imageSections im).Pairwise (fun x y => x.1 + x.2.1 ≤ y.1 ∨ y.1 + y.2.1 ≤ x.1)

theorem mem_imageBytes {im : ImageAt} {q : Nat × Byte} :
    q ∈ imageBytes im ↔ ∃ x ∈ imageSections im, ∃ i < x.2.1, q = (x.1 + i, BitVec.ofNat 8 (im (x.2.2 + i) 1)) := by
  simp only [imageBytes, List.mem_flatMap, List.mem_map, List.mem_range, eq_comm]
theorem imageBytes_outside {im : ImageAt} {a : Nat} (h : ∀ x ∈ imageSections im, a < x.1 ∨ x.1 + x.2.1 ≤ a) : ∀ q ∈ imageBytes im, q.1 ≠ a := by
  intro q hq
  obtain ⟨x, hx, i, hi, rfl⟩ := mem_imageBytes.1 hq
  have := h x hx
  dsimp only
  omega
theorem imageBytes_unique {im : ImageAt} (hdis : sectionsDisjoint im) {x : Nat × Nat × Nat} (hx : x ∈ imageSections im) {i : Nat} (hi : i < x.2.1) {u : Byte}
    (hu : (x.1 + i, u) ∈ imageBytes im) : u = BitVec.ofNat 8 (im (x.2.2 + i) 1) := by
  obtain ⟨y, hy, k, hk, heq⟩ := mem_imageBytes.1 hu
  obtain ⟨haddr, rfl⟩ := Prod.mk.inj heq
  by_cases hxy : x = y
  · subst hxy
    rw [show i = k from by omega]
  · have apart := @List.Pairwise.forall _ _ _ ⟨fun _ _ h => Or.symm h⟩ hdis _ hx _ hy hxy
    omega
/-- The bytes of an image, loaded at a base: zero outside the sections of a store that reads zero, and the sections' bytes within. -/
theorem cget_loaded {im : ImageAt} (c : Cells 8) (pb : Nat) :
    (∀ a, (∀ x ∈ imageSections im, a < x.1 ∨ x.1 + x.2.1 ≤ a) → cget (csetList c ((imageBytes im).map (fun q => (pb + q.1, q.2)))) (pb + a) = cget c (pb + a)) ∧
    (sectionsDisjoint im → ∀ x ∈ imageSections im, ∀ i < x.2.1,
      cget (csetList c ((imageBytes im).map (fun q => (pb + q.1, q.2)))) (pb + x.1 + i) = BitVec.ofNat 8 (im (x.2.2 + i) 1)) := by
  refine ⟨fun a ha => cget_csetList_of_not_mem c fun q hq => ?_, fun hdis x hx i hi => cget_csetList_of_mem c ?_ fun u hu => ?_⟩
  · obtain ⟨r, hr, rfl⟩ := List.mem_map.1 hq
    have := imageBytes_outside ha r hr
    dsimp only
    omega
  · exact List.mem_map.2 ⟨_, mem_imageBytes.2 ⟨x, hx, i, hi, rfl⟩, Prod.ext (Nat.add_assoc pb x.1 i).symm rfl⟩
  · obtain ⟨⟨a, v⟩, hr, heq⟩ := List.mem_map.1 hu
    obtain ⟨haddr, rfl⟩ := Prod.mk.inj heq
    refine imageBytes_unique hdis hx hi ?_
    rwa [show x.1 + i = a from by omega]

/-! ## A core that starts, and one that waits -/

theorem startRegs_toNat (d : Desc) (r n : Nat) (i : Fin 64) : (d.startRegs r n)[i].toNat =
    if i.val = 1 then r % 2 ^ 64 else if i.val = 2 then n % 2 ^ 64 else if i.val = 3 ∨ i.val = 62 then d.spad * 65536 % 2 ^ 64
    else if 4 ≤ i.val ∧ i.val ≤ 8 then d.args.getD (i.val - 4) 0 % 2 ^ 64 else 0 := by
  simp only [Desc.startRegs, Fin.getElem_fin, Vector.getElem_ofFn]
  split
  · next h => simp [h]
  · next h => simp [h]
  · next h => simp [h, Desc.grant]
  · next h => simp [h, Desc.grant]
  · next h1 h2 h3 h62 =>
    rw [if_neg h1, if_neg h2, if_neg (not_or.2 ⟨h3, h62⟩)]
    split
    · exact BitVec.toNat_ofNat ..
    · rfl

/-- The cycle count goes on (R14). -/
theorem launch_cycStart (c : Core) (d : Desc) (im : ImageAt) (ctx pb r n : Nat) : (c.launch d im ctx pb r n).cycStart = c.cycStart := by rw [Core.launch]
/-- R363, R441: a core that a launch starts. -/
theorem startedCore_launch (d : Desc) (im : ImageAt) {ctx : Nat} (hctx : ctx < 128) (pb r n : Nat) (c : Core) :
    startedCore d im ctx pb r n c (c.launch d im ctx pb r n) := by
  obtain ⟨hout, hin⟩ := cget_loaded (im := im) (cclear c.spad pb d.grant) pb
  have hgrant : d.grant = d.spad * 65536 := rfl
  refine ⟨rfl, rfl, ?_, rfl, rfl, rfl, rfl, startRegs_toNat d r n, fun a ha hsec => ?_, hin, fun i hi => ?_, rfl, rfl, rfl, rfl, rfl, launch_cycStart c d im ctx pb r n⟩
  · show (BitVec.ofNat 7 ctx).toNat = ctx
    rw [BitVec.toNat_ofNat, Nat.mod_eq_of_lt hctx]
  · refine (hout a hsec).trans ?_
    rw [cget_cclear, if_pos]
    omega
  · show cget (cclear c.poison (pb / 64) (d.grant / 64)) (pb / 64 + i) = 0
    rw [cget_cclear, if_pos]
    omega

/-- R441: the save area of a core that another job holds. -/
theorem startArea_area (d : Desc) (im : ImageAt) (ctx r n : Nat) (id : CoreId) (key : BitVec 256) : let a := (d.startArea im ctx r n id).retag key
    ∃ h m, a.ctx = ctx ∧ a.core = id ∧ a.gen = 0 ∧ a.verifies key ctx id 0 = true ∧ a.soft.pc = BitVec.ofNat 32 d.entry ∧ a.soft.regs = d.startRegs r n ∧
      a.soft.cpol = 0xC0C0 ∧ a.hard = some h ∧ h.bufs = (imageBuffers im).reverse ∧ h.tasks = [] ∧ h.image = some (m, []) ∧
      (∀ b, (∀ x ∈ imageSections im, b < x.1 ∨ x.1 + x.2.1 ≤ b) → cget m b = 0) ∧
      (sectionsDisjoint im → ∀ x ∈ imageSections im, ∀ i < x.2.1, cget m (x.1 + i) = BitVec.ofNat 8 (im (x.2.2 + i) 1)) := by
  obtain ⟨hhard, -, hctx, hcore, hgen, hsoft, -⟩ := retag_fields (d.startArea im ctx r n id) key
  have hver := retag_verifies (d.startArea im ctx r n id) key rfl
  obtain ⟨hout, hin⟩ := cget_loaded (im := im) [] 0
  simp only [Nat.zero_add, Prod.mk.eta, List.map_id'] at hout hin
  exact ⟨_, csetList [] (imageBytes im), hctx, hcore, hgen, hver, by rw [hsoft]; rfl, by rw [hsoft]; rfl, by rw [hsoft]; rfl, hhard, rfl, rfl, rfl, hout, hin⟩

end Sys2Proof.Machine
end

section
/-! SUPPORT. O49: the creation of a job, stage by stage (R363, R441). -/

namespace Sys2Proof.Machine

/-! ## The stages -/

/-- What a launch does at a cluster; `free` are the cores that it starts. -/
def Desc.clusterStart (d : Desc) (ctx : Nat) (im : ImageAt) (held free : List CoreId) (k : Nat × Nat) (c : Cluster) : Cluster :=
  let x := d.ctxCluster ctx (imageSketches im) held k
  let here := free.filter (fun id => id.die = k.1 && id.clu = k.2)
  let slots := (List.range 32).filter (fun i => x.palGrant.getLsbD i)
  if here.isEmpty then { c with ctxs := c.ctxs ++ [{ x with freeSlots := slots.map (fun i => (i, {})) }], canvas := c.canvas.launch }
  else
    let tiles := here.flatMap (fun id => (List.range d.acc).map (fun i => (12 * id.core + i, ({} : AccTile))))
    let c1 := (c.setSlots (slots.map (fun i => (i, {})))).setTiles tiles
    { c1 with ctxs := c1.ctxs ++ [x], canvas := c1.canvas.launch }
def State.lockDies (s : State) (d : Desc) (ctx : Nat) (es : List Extent) : State := d.dies.foldl (fun s k => s.updDie k (fun die => die.lock d ctx es)) s
def State.serveSignals (s : State) (fn : Nat) (l : List Nat) : State := l.foldl (fun s a => s.serveSignal fn a) s
def State.startClusters (s : State) (d : Desc) (ctx : Nat) (im : ImageAt) (held free : List CoreId) : State :=
  (maskClusters d.clmask).foldl (fun s k => s.updCluster k.1 k.2 (d.clusterStart ctx im held free k)) s
/-- The state of a core that a launch starts, of the rank that it has in the job. -/
def Desc.coreStart (d : Desc) (im : ImageAt) (ctx : Nat) (pl : List (CoreId × Nat)) (id : CoreId) (c : Core) : Core :=
  c.launch d im ctx ((assoc pl id).getD 0) (d.cores.idxOf id) d.cores.length
def State.startCores (s : State) (d : Desc) (im : ImageAt) (ctx : Nat) (pl : List (CoreId × Nat)) (free : List CoreId) : State :=
  free.foldl (fun s id => s.updCore id (d.coreStart im ctx pl id)) s
def State.bringSketches (s : State) (d : Desc) (im : ImageAt) (ctx : Nat) : State :=
  (maskClusters d.clmask).foldl (fun s k => ((imageSketches im).zipIdx).foldl (fun s b => s.makeResident ctx b.2 { image := some b.1 }) (s.actAs ⟨k.1, k.2, 0⟩)) s
/-- The cores of a descriptor that another job holds, and the others. -/
def State.heldCores (s : State) (d : Desc) : List CoreId := d.cores.filter (fun id => !(s.jobsOn id).isEmpty)
def State.freeCores (s : State) (d : Desc) : List CoreId := d.cores.filter (fun id => (s.jobsOn id).isEmpty)
/-- The module with the job and its memory. -/
def State.recordJob (s : State) (job : Job) (es : List Extent) : State :=
  { s with modul := zeroFill { s.modul with jobs := s.modul.jobs ++ [job], free := s.modul.free + 3 + es.length } es }

theorem createJob_eq (s : State) (fn q : Nat) (p : QPacket) (d : Desc) (ctx : Nat) (es : List Extent) (pl : List (CoreId × Nat)) : s.createJob fn q p d ctx es pl =
    ((((((s.recordJob (s.newJob fn q p d ctx pl (s.heldCores d)) es).lockDies d ctx es).serveSignals fn d.signals).startClusters d ctx (s.imageOf fn d)
      (s.heldCores d) (s.freeCores d)).startCores d (s.imageOf fn d) ctx pl (s.freeCores d)).bringSketches d (s.imageOf fn d) ctx).actAs s.core.id := rfl

theorem onlyDies_lockDies (s : State) (d : Desc) (ctx : Nat) (es : List Extent) : OnlyDies s (s.lockDies d ctx es) := onlyDies_foldl _ (fun s k => onlyDies_updDie s k _) _ s
theorem onlyHost_serveSignals (s : State) (fn : Nat) (l : List Nat) : onlyHost s (s.serveSignals fn l) := .foldl _ (fun s a => onlyHost_serveSignal s fn a) l s
theorem onlyClusters_startClusters (s : State) (d : Desc) (ctx : Nat) (im : ImageAt) (held free : List CoreId) : OnlyClusters s (s.startClusters d ctx im held free) :=
  onlyClusters_foldl _ (fun s (k : Nat × Nat) => onlyClusters_updCluster s k.1 k.2 (d.clusterStart ctx im held free k)) _ s
theorem onlyCores_startCores (s : State) (d : Desc) (im : ImageAt) (ctx : Nat) (pl : List (CoreId × Nat)) (free : List CoreId) : OnlyCores s (s.startCores d im ctx pl free) :=
  onlyCores_foldl_updCore (fun id => d.coreStart im ctx pl id) free s

theorem dieAt_lockDies (s : State) (d : Desc) (ctx : Nat) (es : List Extent) {k : Nat} (hk : k ∈ d.dies) : (s.lockDies d ctx es).dieAt k = (s.dieAt k).lock d ctx es :=
  (dieAt_foldl_updDie (fun _ die => die.lock d ctx es) (fun _ _ => rfl) k d.dies s (nodup_eraseDups _)).trans (if_pos hk)
theorem serveSignals_functions (s : State) (fn : Nat) (l : List Nat) : (s.serveSignals fn l).host.functions = s.host.functions :=
  foldl_keeps (fun t : State => t.host.functions = s.host.functions) _ (fun t a h => (serveSignal_functions t fn a).trans h) l s rfl
theorem clusterStart_place (d : Desc) (ctx : Nat) (im : ImageAt) (held free : List CoreId) (k : Nat × Nat) (c : Cluster) :
    (d.clusterStart ctx im held free k c).die = c.die ∧ (d.clusterStart ctx im held free k c).clu = c.clu := by
  unfold Desc.clusterStart
  dsimp only
  split
  · exact ⟨rfl, rfl⟩
  · simp
theorem clusterAt_startClusters (s : State) (d : Desc) (ctx : Nat) (im : ImageAt) (held free : List CoreId) {k : Nat × Nat} (hk : k ∈ maskClusters d.clmask) :
    (s.startClusters d ctx im held free).clusterAt k.1 k.2 = d.clusterStart ctx im held free k (s.clusterAt k.1 k.2) :=
  (clusterAt_foldl_updCluster (d.clusterStart ctx im held free) (fun n c => clusterStart_place d ctx im held free n c) k _ s (nodup_maskClusters _)).trans (if_pos hk)
theorem coreAt_startCores (s : State) (d : Desc) (im : ImageAt) (ctx : Nat) (pl : List (CoreId × Nat)) {free : List CoreId} (hfree : free.Nodup) (id : CoreId) :
    (s.startCores d im ctx pl free).coreAt id = if id ∈ free then d.coreStart im ctx pl id (s.coreAt id) else s.coreAt id :=
  coreAt_foldl_updCore (fun id => d.coreStart im ctx pl id) (fun _ c => launch_id c d im ctx _ _ _) id free s hfree

/-! ## What a launch does at a cluster -/

theorem clusterStart_keepsLaunch (s : State) (d : Desc) (im : ImageAt) (ctx : Nat) (free : List CoreId) (k : Nat × Nat) (c : Cluster) :
    (d.clusterStart ctx im (s.heldCores d) free k c).keepsLaunch s d im ctx k := by
  have hholds := clusterHolds_ctxCluster s d im ctx k
  unfold Desc.clusterStart
  dsimp only
  split
  · exact ⟨_, List.mem_append_right _ (List.mem_singleton_self _), hholds⟩
  · exact ⟨_, List.mem_append_right _ (List.mem_singleton_self _), hholds⟩

theorem setTiles_slots : ∀ (l : List (Nat × AccTile)) (c : Cluster), (c.setTiles l).slots = c.slots
  | [], _ => by rw [Cluster.setTiles, List.foldl_nil]
  | p :: l, c => by rw [setTiles_cons, setTiles_slots l, Cluster.setTile]

/-- Where a core starts, the slots of the grant and the tiles of the cores that start are written with zeros. -/
theorem clusterStart_zero {d : Desc} {ctx : Nat} {im : ImageAt} {held free : List CoreId} {k : Nat × Nat} {id : CoreId} (hid : id ∈ free) (hdie : id.die = k.1)
    (hclu : id.clu = k.2) (c : Cluster) :
    (∀ n < 32, d.pal / 2 ^ n % 2 = 1 → (d.clusterStart ctx im held free k c).slot n = {}) ∧
    ∀ n, 12 * id.core ≤ n → n < 12 * id.core + d.acc → (d.clusterStart ctx im held free k c).tile n = {} := by
  have hhere : id ∈ free.filter (fun id => id.die = k.1 && id.clu = k.2) := List.mem_filter.2 ⟨hid, by simp [hdie, hclu]⟩
  have hne : ¬ (free.filter (fun id => id.die = k.1 && id.clu = k.2)).isEmpty = true := fun h => by
    rw [List.isEmpty_iff.1 h] at hhere
    cases hhere
  unfold Desc.clusterStart
  dsimp only
  rw [if_neg hne]
  refine ⟨fun n hn hpal => ?_, fun n hlo hhi => ?_⟩
  · have hgrant : (BitVec.ofNat 32 d.pal).getLsbD n = true := by
      rw [BitVec.getLsbD_ofNat, Nat.testBit_eq_decide_div_mod_eq, hpal, decide_eq_true hn]
      rfl
    rw [Cluster.slot]
    dsimp only
    rw [setTiles_slots]
    refine setSlots_zero (fun q hq => ?_) c (.inr ⟨(n, {}), List.mem_map.2 ⟨n, List.mem_filter.2 ⟨List.mem_range.2 hn, hgrant⟩, rfl⟩, rfl⟩)
    obtain ⟨i, -, rfl⟩ := List.mem_map.1 hq
    rfl
  · refine setTiles_zero (fun q hq => ?_) _ (.inr ⟨(n, {}), List.mem_flatMap.2 ⟨id, hhere, List.mem_map.2 ⟨n - 12 * id.core, ?_, ?_⟩⟩, rfl⟩)
    · obtain ⟨i, -, hq⟩ := List.mem_flatMap.1 hq
      obtain ⟨j, -, rfl⟩ := List.mem_map.1 hq
      rfl
    · rw [List.mem_range]
      omega
    · rw [Nat.add_sub_cancel' hlo]

/-! ## The whole -/

theorem nodup_freeCores (s : State) (d : Desc) : (s.freeCores d).Nodup := (nodup_cores d).filter _
theorem BringsSketches.jobs {s₀ s t : State} {d : Desc} {im : ImageAt} {ctx : Nat} (h : BringsSketches s₀ d im ctx s t) : t.modul.jobs = s.modul.jobs :=
  (congrArg Modul.jobs h.modul :)
theorem BringsSketches.zeroAt {s₀ s t : State} {d : Desc} {im : ImageAt} {ctx : Nat} (h : BringsSketches s₀ d im ctx s t) (a : Nat) :
    zeroAt t.modul a = zeroAt s.modul a := (congrArg (fun m => Machine.zeroAt m a) h.modul :)
theorem onlyHost_zeroAt {s t : State} (h : onlyHost s t) (a : Nat) : zeroAt t.modul a = zeroAt s.modul a := (congrArg (fun u : State => zeroAt u.modul a) h :)

section
variable (s : State) (fn q : Nat) (p : QPacket) (d : Desc) (ctx : Nat) (es : List Extent) (pl : List (CoreId × Nat))

/-- The state before the new job's clusters are set up, that before its cores start, and that before its sketches are brought. -/
def State.beforeClusters : State := ((s.recordJob (s.newJob fn q p d ctx pl (s.heldCores d)) es).lockDies d ctx es).serveSignals fn d.signals
def State.beforeCores : State := (s.beforeClusters fn q p d ctx es pl).startClusters d ctx (s.imageOf fn d) (s.heldCores d) (s.freeCores d)
def State.beforeSketches : State := (s.beforeCores fn q p d ctx es pl).startCores d (s.imageOf fn d) ctx pl (s.freeCores d)

theorem createJob_brings (s₀ : State) (d₀ : Desc) : BringsSketches s₀ d₀ (s.imageOf fn d) ctx (s.beforeSketches fn q p d ctx es pl) (s.createJob fn q p d ctx es pl) := by
  rw [createJob_eq]
  exact (bringsSketches_foldl _ _).trans (bringsSketches_actAs _ _)
theorem beforeSketches_onlyCores : OnlyCores (s.beforeCores fn q p d ctx es pl) (s.beforeSketches fn q p d ctx es pl) := onlyCores_startCores ..
theorem beforeCores_onlyClusters : OnlyClusters (s.beforeClusters fn q p d ctx es pl) (s.beforeCores fn q p d ctx es pl) := onlyClusters_startClusters ..
theorem beforeClusters_onlyHost : onlyHost ((s.recordJob (s.newJob fn q p d ctx pl (s.heldCores d)) es).lockDies d ctx es) (s.beforeClusters fn q p d ctx es pl) :=
  onlyHost_serveSignals ..

theorem createJob_jobs : (s.createJob fn q p d ctx es pl).modul.jobs = s.modul.jobs ++ [s.newJob fn q p d ctx pl (s.heldCores d)] :=
  calc (s.createJob fn q p d ctx es pl).modul.jobs
    _ = (s.beforeSketches fn q p d ctx es pl).modul.jobs := (createJob_brings s fn q p d ctx es pl s d).jobs
    _ = (s.beforeClusters fn q p d ctx es pl).modul.jobs := congrArg Modul.jobs ((beforeSketches_onlyCores ..).modul.trans (beforeCores_onlyClusters ..).modul)
    _ = (s.recordJob (s.newJob fn q p d ctx pl (s.heldCores d)) es).modul.jobs :=
      (beforeClusters_onlyHost ..).jobs.trans (congrArg Modul.jobs (onlyDies_lockDies ..).modul)
    _ = _ := (zeroFill_frame es _).1
theorem createJob_zeroAt {a : Nat} (h : ∃ e ∈ es, e.range.enc = false ∧ e.pab * 2 ^ 21 ≤ a ∧ a < e.pab * 2 ^ 21 + 2 ^ (21 + e.sz)) :
    zeroAt (s.createJob fn q p d ctx es pl).modul a := by
  rw [(createJob_brings s fn q p d ctx es pl s d).zeroAt, (beforeSketches_onlyCores ..).modul, (beforeCores_onlyClusters ..).modul, onlyHost_zeroAt (beforeClusters_onlyHost ..),
    (onlyDies_lockDies ..).modul]
  exact zeroAt_zeroFill es _ (.inr h)
theorem createJob_host : (s.createJob fn q p d ctx es pl).host = (s.beforeClusters fn q p d ctx es pl).host :=
  (createJob_brings s fn q p d ctx es pl s d).host.trans ((beforeSketches_onlyCores ..).host.trans (beforeCores_onlyClusters ..).host)
theorem createJob_functions : (s.createJob fn q p d ctx es pl).host.functions = s.host.functions := by
  rw [createJob_host, State.beforeClusters, serveSignals_functions, (onlyDies_lockDies ..).host]
  rfl
theorem createJob_signals {a : Nat} (ha : a ∈ d.signals) (h0 : a ≠ 0) : ∃ r ∈ (s.createJob fn q p d ctx es pl).host.signals, r.fn = fn ∧ r.iova = a := by
  rw [createJob_host]
  exact foldl_serveSignal fn d.signals _ a h0 (.inl ha)
theorem createJob_dieAt {k : Nat} (hk : k ∈ d.dies) : (s.createJob fn q p d ctx es pl).dieAt k = (s.dieAt k).lock d ctx es := by
  rw [(createJob_brings s fn q p d ctx es pl s d).die, (beforeSketches_onlyCores ..).dieAt, (beforeCores_onlyClusters ..).dieAt, (beforeClusters_onlyHost ..).dieAt,
    dieAt_lockDies _ d ctx es hk]
  rfl
theorem createJob_coreAt (id : CoreId) : (s.createJob fn q p d ctx es pl).coreAt id =
    if id ∈ s.freeCores d then d.coreStart (s.imageOf fn d) ctx pl id (s.coreAt id) else s.coreAt id := by
  have hbefore : (s.beforeCores fn q p d ctx es pl).coreAt id = s.coreAt id :=
    ((beforeCores_onlyClusters ..).coreAt id).trans (((beforeClusters_onlyHost ..).coreAt id).trans ((onlyDies_lockDies ..).coreAt id))
  rw [(createJob_brings s fn q p d ctx es pl s d).core, State.beforeSketches, coreAt_startCores _ _ _ _ _ (nodup_freeCores s d), hbefore]
theorem beforeSketches_clusterAt {k : Nat × Nat} (hk : k ∈ maskClusters d.clmask) : ∃ c, (s.beforeSketches fn q p d ctx es pl).clusterAt k.1 k.2 =
    d.clusterStart ctx (s.imageOf fn d) (s.heldCores d) (s.freeCores d) k c :=
  ⟨_, ((beforeSketches_onlyCores ..).clusterAt k.1 k.2).trans (clusterAt_startClusters _ d ctx _ _ _ hk)⟩
end

end Sys2Proof.Machine
end

section
/-! SUPPORT. O49: what an admitted launch creates (R361, R363, R441). -/

namespace Sys2Proof.Machine

theorem startPkt_imageOf (s : State) (fn q idx : Nat) (f : QPacket → QPacket) (d : Desc) : (s.startPkt fn q idx f).imageOf fn d = s.imageOf fn d := by
  funext off n
  rw [State.imageOf, State.imageOf, State.hostNat, State.hostNat]
  exact congrArg (readLE · _ n) (hostSeen_updQueue s fn q _ fn)
theorem startPkt_queueAt (s : State) (fn q idx : Nat) (f : QPacket → QPacket) :
    (s.startPkt fn q idx f).queueAt fn q = (s.queueAt fn q).updPkt idx (fun p => { f p with started := true }) := queueAt_updQueue_same s fn q _ fun _ => rfl
theorem onlyHost_jobsOn {s t : State} (h : onlyHost s t) (id : CoreId) : t.jobsOn id = s.jobsOn id := by rw [State.jobsOn, h.jobs, State.jobsOn]

/-- R361, R363: what the record of a new job tells. -/
theorem launchedJob_newJob (s : State) (fn q : Nat) (p : QPacket) (d : Desc) (ctx : Nat) (pl : List (CoreId × Nat)) (held : List CoreId) :
    launchedJob fn q p d ctx (s.newJob fn q p d ctx pl held) :=
  ⟨rfl, BitVec.toNat_ofNat .., rfl, rfl, rfl, rfl, rfl, rfl, rfl, rfl, rfl, rfl, beq_iff_eq, rfl⟩
/-- R441: the save area and the generation that it holds for a core that another job holds. -/
theorem newJob_saves (s : State) (fn q : Nat) (p : QPacket) (d : Desc) (ctx : Nat) (pl : List (CoreId × Nat)) {held : List CoreId} {id : CoreId} (h : id ∈ held) :
    let j := s.newJob fn q p d ctx pl held
    assoc j.gens id = some 0 ∧ assoc j.saves id = some ((d.startArea (s.imageOf fn d) ctx (d.cores.idxOf id) d.cores.length id).retag j.saveKey) :=
  ⟨(assoc_map (fun _ => 0) id held).trans (if_pos h),
    (assoc_map (fun id => (d.startArea (s.imageOf fn d) ctx (d.cores.idxOf id) d.cores.length id).retag (Config.saveKey s.modul.free)) id held).trans (if_pos h)⟩
theorem mem_heldCores {s : State} {d : Desc} {id : CoreId} : id ∈ s.heldCores d ↔ id ∈ d.cores ∧ s.jobsOn id ≠ [] := by
  simp [State.heldCores, List.mem_filter]
theorem mem_freeCores {s : State} {d : Desc} {id : CoreId} : id ∈ s.freeCores d ↔ id ∈ d.cores ∧ s.jobsOn id = [] := by
  simp [State.freeCores, List.mem_filter]

/-- R70, R79, R363, R383, R441: what an admitted launch creates. -/
theorem launchEffects_holds : launchEffects := by
  intro s fn q idx p hm ht huniq ctx es pl he ha d im
  let s0 := s.startPkt fn q idx id
  obtain ⟨-, hidx, -⟩ := mayStart_some hm
  have hhost : onlyHost s s0 := onlyHost_startPkt s fn q idx id
  have him : s0.imageOf fn d = im := startPkt_imageOf s fn q idx id d
  have hon := onlyHost_jobsOn hhost
  have hheld : s0.heldCores d = s.heldCores d := by simp only [State.heldCores, hon]
  have hfree : s0.freeCores d = s.freeCores d := by simp only [State.freeCores, hon]
  obtain ⟨husable, hentries, halloc, -⟩ := leaseCheck_begin (admission_begin_leaseCheck ha)
  obtain ⟨hctx, hnew⟩ := mem_usableContexts husable
  have hspad : d.spad ≤ 64 := by
    obtain ⟨-, -, -, -, -, -, -, -, -, -, h, -⟩ := admission_begin_limits ha
    exact h
  have hgrant : d.grant = d.spad * 65536 := rfl
  have hplaced (id : CoreId) (hid : id ∈ d.cores) : ∃ pb, assoc pl id = some pb ∧ pb % 65536 = 0 ∧ pb + d.spad * 65536 ≤ 4194304 ∧
      ∀ b, b ∈ (s.coreAt id).sched ∨ (s.coreAt id).cr.tvec ≠ 0 ∧ b = (s.coreAt id).cr.tvec.toNat / 65536 → pb + d.spad * 65536 ≤ 65536 * b ∨ 65536 * (b + 1) ≤ pb := by
    obtain ⟨pb, hmem, hpb⟩ := placed ha hid
    exact ⟨pb, hpb, mem_places hmem (show d.grant ≤ 4194304 by omega)⟩
  have hcore (id : CoreId) : (s0.createJob fn q p d ctx es pl).coreAt id = if id ∈ s.freeCores d then d.coreStart im ctx pl id (s.coreAt id) else s.coreAt id := by
    rw [createJob_coreAt, him, hfree, hhost.coreAt]
  have hbring := createJob_brings s0 fn q p d ctx es pl s d
  refine ⟨s0.createJob fn q p d ctx es pl, s0.newJob fn q p d ctx pl (s0.heldCores d), exec_launch_begins ht he hm ha, ?_, launchedJob_newJob .., hctx, hnew, ?_,
    fun a hmem h0 => createJob_signals s0 fn q p d ctx es pl hmem h0, fun k hk => ?_, fun k hk e hmem => ?_, fun e hmem henc a hlo hhi => ?_, fun k hk => ?_,
    fun k hk hstart => ?_, fun id hid => ?_, fun id hid hnone => ?_, fun id hid hsome => ?_, fun id hid => ?_⟩
  · rw [createJob_jobs, hhost.jobs]
  · rw [queueAt_congr (createJob_functions s0 fn q p d ctx es pl), startPkt_queueAt]
    refine List.map_congr_left fun x hx => ?_
    simp only [decide_eq_true_eq, ← hidx]
    split
    · next hxp => rw [huniq x hx hxp]; rfl
    · rfl
  · rw [createJob_dieAt s0 fn q p d ctx es pl hk]
    exact ⟨_, List.mem_cons_self, rfl, rfl, rfl⟩
  · rw [createJob_dieAt s0 fn q p d ctx es pl hk]
    refine lock_entry d ctx ?_ hmem
    rw [hhost.dieAt, length_allocate halloc]
    exact hentries k hk
  · exact createJob_zeroAt s0 fn q p d ctx es pl ⟨e, hmem, henc, hlo, hhi⟩
  · obtain ⟨c, hc⟩ := beforeSketches_clusterAt s0 fn q p d ctx es pl hk
    have hkeeps := hbring.keeps k k.1 k.2
    rw [hc, hheld, him] at hkeeps
    exact hkeeps (clusterStart_keepsLaunch s d im ctx _ k c)
  · obtain ⟨c, hc⟩ := beforeSketches_clusterAt s0 fn q p d ctx es pl hk
    have hslot (n : Nat) : ((s0.createJob fn q p d ctx es pl).clusterAt k.1 k.2).slot n = (d.clusterStart ctx (s0.imageOf fn d) (s0.heldCores d) (s0.freeCores d) k c).slot n := by
      rw [Cluster.slot, hbring.slots, hc, Cluster.slot]
    have htile (n : Nat) : ((s0.createJob fn q p d ctx es pl).clusterAt k.1 k.2).tile n = (d.clusterStart ctx (s0.imageOf fn d) (s0.heldCores d) (s0.freeCores d) k c).tile n := by
      rw [Cluster.tile, hbring.tiles, hc, Cluster.tile]
    have zero (id : CoreId) (hid : id ∈ d.cores) (hdie : id.die = k.1) (hclu : id.clu = k.2) (hnone : s.jobsOn id = []) :=
      clusterStart_zero (d := d) (ctx := ctx) (im := s0.imageOf fn d) (held := s0.heldCores d) (hfree ▸ mem_freeCores.2 ⟨hid, hnone⟩ : id ∈ s0.freeCores d) hdie hclu c
    refine ⟨fun n hn hpal => ?_, fun id hid hdie hclu hnone n hlo hhi => ?_⟩
    · obtain ⟨id, hid, hdie, hclu, hnone⟩ := hstart
      rw [hslot]
      exact (zero id hid hdie hclu hnone).1 n hn hpal
    · rw [htile]
      exact (zero id hid hdie hclu hnone).2 n hlo hhi
  · obtain ⟨pb, hpb, hmod, hle, hcode⟩ := hplaced id hid
    exact ⟨pb, hpb, hmod, hle, fun b hb => hcode b (hb.imp_left And.left)⟩
  · rw [hcore, if_pos (mem_freeCores.2 ⟨hid, hnone⟩)]
    exact startedCore_launch d im hctx _ _ _ _
  · obtain ⟨hgens, hsaves⟩ := newJob_saves s0 fn q p d ctx pl (hheld ▸ mem_heldCores.2 ⟨hid, hsome⟩ : id ∈ s0.heldCores d)
    rw [him] at hsaves
    obtain ⟨h, m, harea⟩ := startArea_area d im ctx (d.cores.idxOf id) d.cores.length id (s0.newJob fn q p d ctx pl (s0.heldCores d)).saveKey
    refine ⟨?_, hgens, _, h, m, hsaves, harea⟩
    rw [hcore, if_neg fun h => hsome (mem_freeCores.1 h).2]
  · rw [hcore, if_neg fun h => hid (mem_freeCores.1 h).1]

end Sys2Proof.Machine

namespace Sys2Proof
open Sys2Proof.Machine

/-- Settles O49: the answers follow the list of checks, one test of firmware for each; the creation of a job is taken stage by stage, where each stage changes the dies, the
host port, the clusters or the cores alone; the end of a job removes what each of them keeps of it. -/
theorem launchAndJobEnd : Obligations.LaunchAndJobEnd := ⟨launchAnswers_holds, launchEffects_holds, jobEnds_holds⟩

end Sys2Proof
end

section
/-! SUPPORT. O11: the map of scalar addresses, and the checks of an access that every plain access makes in one order (R92, R94, R163). -/

namespace Sys2Proof.Machine

/-! ## The map (R92, R94) -/

theorem placeOf_spad {a : Nat} (h : a < 0x400000) : placeOf a = .spad a := if_pos h
theorem placeOf_window {a : Nat} (h : 0x40000000 ≤ a ∧ a < 0x80000000) : ∃ n off, placeOf a = .window n off :=
  ⟨_, _, (if_neg (by omega)).trans (if_pos h)⟩
theorem placeOf_controlSpace {a : Nat} (h : 0xF0000000 ≤ a ∧ a < 0xF0100000) : placeOf a = .control (a - 0xF0000000) :=
  (if_neg (by omega)).trans ((if_neg (by omega)).trans (if_pos h))
/-- The addresses below 2^32 that the map leaves out. -/
def leftOut (a : Nat) : Prop :=
  0x400000 ≤ a ∧ a < 0x40000000 ∨ 0x80000000 ≤ a ∧ a < 0xF0000000 ∨ 0xF0100000 ≤ a ∧ a < 2 ^ 32
theorem placeOf_leftOut {a : Nat} (h : leftOut a) : placeOf a = .outside := by
  unfold leftOut at h
  exact (if_neg (by omega)).trans ((if_neg (by omega)).trans (if_neg (by omega)))

/-! ## Steps 1 and 2 (R163) -/

section
variable {ea : Word} {n : Nat}

theorem plainEa_beyond (h : 2 ^ 32 ≤ ea.toNat) : plainEa ea n = .fault { cause := .spadRange, addr := some ea } := by
  have h' : (ea.toNat / 2 ^ 32 != 0) = true := by simp only [bne_iff_ne]; omega
  rw [plainEa, h', faultAt_true, Res.fault_bind]
theorem plainEa_misaligned (hr : ea.toNat < 2 ^ 32) (h : ea.toNat % n ≠ 0) : plainEa ea n = .fault { cause := .misalign, addr := some ea } := by
  rw [plainEa, faultAt_div hr, Res.ok_bind, bne_iff_ne.2 h, faultAt_true, Res.fault_bind]
theorem plainEa_ok (hr : ea.toNat < 2 ^ 32) (ha : ea.toNat % n = 0) : plainEa ea n = .ok ea.toNat := by
  rw [plainEa, faultAt_div hr, Res.ok_bind, faultAt_mod ha, Res.ok_bind]
end

/-! ## What every plain access shares -/

/-- Instruction i takes a fault of its own address. -/
def faultsAt (s : State) (i : Instr) (ea : Word) (c : Cause) : Prop := exec i s = .next (s.takeFault { cause := c, addr := some ea })

/-- Instruction i accesses n bytes at ea: it faults as the steps of R163 say, the first that fails. -/
structure PlainAccess (s : State) (i : Instr) (ea : Word) (n : Nat) (k : Access) : Prop where
  beyond : 2 ^ 32 ≤ ea.toNat → faultsAt s i ea .spadRange
  misaligned : ea.toNat < 2 ^ 32 → ea.toNat % n ≠ 0 → faultsAt s i ea .misalign
  own : ea.toNat % n = 0 → ∀ f, ea.toNat < 0x400000 → spadCheck s.core s.cluster.tasks ea.toNat n k = .fault f → exec i s = .next (s.takeFault f)
  outside : ea.toNat % n = 0 → leftOut ea.toNat → faultsAt s i ea .spadRange
  control : ea.toNat % n = 0 → 0xF0000000 ≤ ea.toNat ∧ ea.toNat < 0xF0100000 ∧ s.core.status.mode = false → faultsAt s i ea .priv

/-- An instruction that makes steps 1 and 2 and then goes by the map is such an access. -/
theorem PlainAccess.of_checks {α : Type} {s : State} {i : Instr} {ea : Word} {n : Nat} {k : Access} {g : Nat → Res α}
    (hexec : ∀ f, (plainEa ea n).bind g = .fault f → exec i s = .next (s.takeFault f))
    (hown : ∀ a f, placeOf a = .spad a → spadCheck s.core s.cluster.tasks a n k = .fault f → g a = .fault f)
    (hout : ∀ a, placeOf a = .outside → g a = .fault { cause := .spadRange, addr := some ea })
    (hcontrol : ∀ a off, placeOf a = .control off → s.core.status.mode = false → g a = .fault { cause := .priv, addr := some ea }) :
    PlainAccess s i ea n k where
  beyond h := hexec _ (by rw [plainEa_beyond h, Res.fault_bind])
  misaligned hr h := hexec _ (by rw [plainEa_misaligned hr h, Res.fault_bind])
  own ha f h hf := hexec f (by rw [plainEa_ok (by omega) ha, Res.ok_bind, hown _ f (placeOf_spad h) hf])
  outside ha h := hexec _ (by rw [plainEa_ok (by unfold leftOut at h; omega) ha, Res.ok_bind, hout _ (placeOf_leftOut h)])
  control ha h := hexec _ (by rw [plainEa_ok (by omega) ha, Res.ok_bind, hcontrol _ _ (placeOf_controlSpace ⟨h.1, h.2.1⟩) h.2.2])

/-! ## Loads, stores, atomics and claims -/

theorem controlReg_user {s : State} (h : s.core.status.mode = false) (ea : Word) (off size : Nat) :
    controlReg s ea off size = .fault { cause := .priv, addr := some ea } := by
  rw [controlReg, Core.sMode, h, Bool.not_false, faultAt_true, Res.fault_bind]

section
variable (s : State) (o : OpMem)

theorem plainAccess_ld : PlainAccess s (.ld o) (memEa s o) (memBytes o.size) .load := by
  refine .of_checks (fun f h => (congrArg (ends s) h : execLd o s = _)) (fun a f hp hf => ?_) (fun a hp => ?_) (fun a off hp hm => ?_)
  · simp only [hp, hf, Res.fault_bind]
  · simp only [hp]
  · simp only [hp, controlReg_user hm, Res.fault_bind]
theorem plainAccess_st : PlainAccess s (.st o) (memEa s o) (memBytes o.size) .store := by
  refine .of_checks (fun f h => (congrArg (ends s) h : execSt o s = _)) (fun a f hp hf => ?_) (fun a hp => ?_) (fun a off hp hm => ?_)
  · simp only [hp, hf, Res.fault_bind]
  · simp only [hp]
  · simp only [hp, controlReg_user hm, Res.fault_bind]
/-- A load through a window is none (R94). -/
theorem exec_ld_window (ha : (memEa s o).toNat % memBytes o.size = 0) (h : 0x40000000 ≤ (memEa s o).toNat ∧ (memEa s o).toNat < 0x80000000) :
    faultsAt s (.ld o) (memEa s o) .winLoad := by
  obtain ⟨n, off, hp⟩ := placeOf_window h
  show execLd o s = _
  rw [execLd, plainEa_ok (by omega) ha]
  simp only [Res.ok_bind, hp, ends_fault]

/-- An atomic on plain addresses and a claim differ in the request alone. -/
theorem plainAccess_atom {i : Instr} {claim : Bool} {q : AtomReq} (hi : exec i s = endsAtom s (atomPlain s o claim q)) :
    PlainAccess s i (memEa s o) (atomWidth q) .atomic := by
  refine .of_checks (fun f h => hi.trans (congrArg (endsAtom s) h)) (fun a f hp hf => ?_) (fun a hp => ?_) (fun a off hp hm => ?_)
  · simp only [hp, hf, Res.fault_bind]
  · simp only [hp]
  · simp only [hp, Core.sMode, hm, Bool.false_eq_true, if_false]
theorem plainAccess_claim : PlainAccess s (.claim o) (memEa s o) 16 .atomic := plainAccess_atom s o (claim := true) (q := .claim) rfl

/-- Each atomic of the table runs as `atomPlain` with its operation. -/
theorem exec_atomTable {N : Nat} : ∀ p ∈ atomTable N, ∃ op, exec (p.1 o) s = endsAtom s (atomPlain s o false (atomReq s o op)) := by
  simp only [atomTable, List.forall_mem_cons]
  exact ⟨⟨.add, rfl⟩, ⟨.and, rfl⟩, ⟨.or, rfl⟩, ⟨.xor, rfl⟩, ⟨.min, rfl⟩, ⟨.max, rfl⟩, ⟨.minn, rfl⟩, ⟨.maxn, rfl⟩, ⟨.swap, rfl⟩, ⟨.cas, rfl⟩,
    ⟨.incb, rfl⟩, List.forall_mem_nil _⟩
theorem plainAccess_atomTable {N : Nat} (p : (OpMem → Instr) × (OpMem → Instr) × (Nat → Nat → Nat → Nat)) (hp : p ∈ atomTable N) :
    PlainAccess s (p.1 o) (memEa s o) (memBytes o.size) .atomic := by
  obtain ⟨op, hop⟩ := exec_atomTable s o p hp
  exact plainAccess_atom s o hop
end

/-- R163, R94 as claimed. -/
theorem addressFaults_holds : addressFaults := by
  intro s o ea n faults all claims
  have ld := plainAccess_ld s o
  have st := plainAccess_st s o
  have atom := plainAccess_atomTable s o (N := 64)
  have claim := plainAccess_claim s o
  refine ⟨fun h => ⟨⟨ld.beyond h, st.beyond h, fun p hp => (atom p hp).beyond h⟩, claim.beyond h⟩, claim.misaligned,
    fun hr h => ⟨ld.misaligned hr h, st.misaligned hr h, fun p hp => (atom p hp).misaligned hr h⟩, fun ha => ?_,
    fun ha => ⟨claim.own ha, claim.outside ha, claim.control ha⟩⟩
  exact ⟨ld.own ha, st.own ha, fun f h hf p hp => (atom p hp).own ha f h hf, exec_ld_window s o ha,
    fun h => ⟨ld.outside ha h, st.outside ha h, fun p hp => (atom p hp).outside ha h⟩,
    fun h => ⟨ld.control ha h, st.control ha h, fun p hp => (atom p hp).control ha h⟩⟩

end Sys2Proof.Machine
end

section
/-! SUPPORT. O11: what an access to own scratchpad comes to: limit, buffers, screening, poison (R92, R103–R106, R163, R166). -/

namespace Sys2Proof.Machine

/-! ## Declared buffers (R103, R105, R106) -/

/-- What an access reads and writes where a buffer's state is asked (R105). -/
def Access.reads (k : Access) : Bool := k != .store
def Access.writes (k : Access) : Bool := k == .store || k == .atomic

/-- A range that no buffer meets stays where it is. -/
theorem bufRelocate_apart {bufs : List Buffer} {lo hi : Int} (h : ∀ b ∈ bufs, b.logicalEnd ≤ b.spanEnd ∧ (hi < b.base ∨ (b.spanEnd : Int) ≤ lo))
    (hle : ∀ b ∈ bufs, b.base ≤ b.logicalEnd) (rd wr cn : Bool) : bufRelocate bufs lo hi rd wr cn = .ok 0 := by
  have hspan : bufs.any (fun b => decide (lo < (b.spanEnd : Int) ∧ (b.logicalEnd : Int) ≤ hi ∧ b.logicalEnd < b.spanEnd)) = false := by
    simp only [List.any_eq_false, decide_eq_true_eq]
    intro b hb
    have := h b hb
    have := hle b hb
    omega
  have hfind : bufs.find? (fun b => decide (lo < (b.logicalEnd : Int) ∧ (b.base : Int) ≤ hi)) = none := by
    simp only [List.find?_eq_none, decide_eq_true_eq]
    intro b hb
    have := h b hb
    omega
  rw [bufRelocate, hspan, hfind]
  rfl
/-- A range within a buffer's own addresses goes to its current version where its state allows the access. -/
theorem bufRelocate_inside {b : Buffer} {lo hi : Int} (hbase : (b.base : Int) ≤ lo) (hne : lo ≤ hi) (hend : hi < b.logicalEnd) (rd wr cn : Bool) :
    bufRelocate [b] lo hi rd wr cn = if bufLegal b.phase rd wr cn then .ok (b.ver * b.size) else .error .bufState := by
  have hspan : [b].any (fun b => decide (lo < (b.spanEnd : Int) ∧ (b.logicalEnd : Int) ≤ hi ∧ b.logicalEnd < b.spanEnd)) = false := by
    simp only [List.any_cons, List.any_nil, Bool.or_false, decide_eq_false_iff_not]
    omega
  have hfind : [b].find? (fun b => decide (lo < (b.logicalEnd : Int) ∧ (b.base : Int) ≤ hi)) = some b :=
    List.find?_cons_of_pos (decide_eq_true ⟨by omega, by omega⟩)
  rw [bufRelocate, hspan, hfind]
  dsimp only
  rw [if_neg Bool.false_ne_true, if_neg (by omega)]

/-- R105: reads want a buffer that is not EMPTY, writes one that is FILLING. -/
theorem bufLegal_access (k : Access) (ph : BufPhase) :
    bufLegal ph k.reads k.writes false = true ↔ (k = .load ∨ k = .fetch) ∧ ph ≠ .empty ∨ (k = .store ∨ k = .atomic) ∧ ph = .filling := by
  cases k with
  | load => cases ph <;> decide
  | fetch => cases ph <;> decide
  | store => cases ph <;> decide
  | atomic => cases ph <;> decide

/-! ## The map of an access (R92, R383) -/

section
variable {c : Core} {a n : Nat} {k : Access}

theorem spadMap_beyond (h : c.limit < a + n) : spadMap c a n k = .fault { cause := .spadRange, addr := some (BitVec.ofNat 64 a) } := if_pos h
theorem spadMap_supervisor (h : a + n ≤ c.limit) (hm : c.status.mode = true) : spadMap c a n k = .ok a := by
  simp only [spadMap, if_neg (not_lt.2 h), Core.sMode, hm, Core.shift, if_true, Nat.add_zero]
theorem spadMap_user (h : a + n ≤ c.limit) (hm : c.status.mode = false) :
    spadMap c a n k = match bufRelocate c.bufs a (a + n - 1) k.reads k.writes false with
      | .error cs => .fault { cause := cs, addr := some (BitVec.ofNat 64 a) }
      | .ok d => .ok (a + d + c.spbase) := by
  simp only [spadMap, if_neg (not_lt.2 h), Core.sMode, hm, Core.shift, Bool.false_eq_true, if_false]
  cases k <;> rfl

/-- What an access whose bytes lie at pa comes to: screening, then poison (R163 steps 5 and 6, R166). -/
def reached (c : Core) (tasks : List Task) (a n : Nat) (k : Access) (pa : Nat) : Res Nat :=
  if screened tasks c.id.core pa n k then .stall .screening
  else if poisoned c.poison pa n then .fault { cause := .poison, addr := some (BitVec.ofNat 64 a) } else .ok pa
theorem spadCheck_reached {pa : Nat} (h : spadMap c a n k = .ok pa) (tasks : List Task) : spadCheck c tasks a n k = reached c tasks a n k pa := by
  rw [spadCheck, h]
  rfl
theorem spadCheck_fault {f : FaultInfo} (h : spadMap c a n k = .fault f) (tasks : List Task) : spadCheck c tasks a n k = .fault f := by
  rw [spadCheck, h]
  rfl

variable (h : a + n ≤ c.limit) (hm : c.status.mode = false) (hn : 0 < n)
include h hm

/-- In U mode bytes that no buffer spans lie at their address in the placement. -/
theorem spadMap_apart (hapart : ∀ b ∈ c.bufs, 1 ≤ b.v ∧ (a + n ≤ b.base ∨ b.base + b.v * b.size ≤ a)) : spadMap c a n k = .ok (a + c.spbase) := by
  rw [spadMap_user h hm, bufRelocate_apart (fun b hb => ?_) fun b _ => Nat.le_add_right _ _]
  · rfl
  · obtain ⟨hv, hd⟩ := hapart b hb
    refine ⟨Nat.add_le_add_left (Nat.le_mul_of_pos_left _ hv) _, ?_⟩
    unfold Buffer.spanEnd
    omega
include hn
/-- Bytes within the one declared buffer lie in its current version, where its state allows the access. -/
theorem spadMap_inside {b : Buffer} (hbufs : c.bufs = [b]) (hlo : b.base ≤ a) (hhi : a + n ≤ b.base + b.size) :
    spadMap c a n k = if bufLegal b.phase k.reads k.writes false then .ok (a + b.ver * b.size + c.spbase)
      else .fault { cause := .bufState, addr := some (BitVec.ofNat 64 a) } := by
  rw [spadMap_user h hm, hbufs, bufRelocate_inside (by omega) (by omega) (by unfold Buffer.logicalEnd; omega)]
  by_cases hlegal : bufLegal b.phase k.reads k.writes false = true
  · rw [if_pos hlegal, if_pos hlegal]
  · rw [if_neg hlegal, if_neg hlegal]
end

/-- R92, R103, R105, R163, R166 as claimed. -/
theorem scratchpadChecks_holds : scratchpadChecks := by
  intro c tasks a n k limit at_ ends apart
  refine ⟨fun h => spadCheck_fault (spadMap_beyond h) tasks, fun ⟨h, hm⟩ => spadCheck_reached (spadMap_supervisor h hm) tasks,
    fun ⟨h, hm, _, hapart⟩ => spadCheck_reached (spadMap_apart h hm hapart) tasks, fun b ⟨h, hm, hn, hbufs, _, hlo, hhi⟩ => ?_⟩
  have hmap := spadMap_inside (k := k) h hm hn hbufs hlo hhi
  refine ⟨fun hbad => spadCheck_fault ?_ tasks, fun hgood => spadCheck_reached ?_ tasks⟩
  · rw [hmap, if_neg (mt (bufLegal_access k b.phase).1 ?_)]
    rcases hbad with ⟨rfl | rfl, hph⟩ | ⟨rfl, hph⟩ | ⟨rfl, hph⟩ <;> simp [hph]
  · rw [hmap, if_pos ((bufLegal_access k b.phase).2 hgood)]

end Sys2Proof.Machine

namespace Sys2Proof
open Sys2Proof.Machine

/-- Settles O11: every plain access makes the checks of R163 in one order (`PlainAccess`); own scratchpad by its map, then screening and poison. -/
theorem addressChecks : Obligations.AddressChecks := ⟨addressFaults_holds, scratchpadChecks_holds⟩

end Sys2Proof
end

section
/-! SUPPORT. O17: the buffer instructions (R104, R109–R111). -/

namespace Sys2Proof.Machine

/-! ## Finding a buffer -/

theorem bufFind_none {bufs : List Buffer} {n : Nat} (h : ∀ b ∈ bufs, b.id ≠ n) : bufFind bufs n = none := by
  simpa [bufFind] using h

theorem rangesMeet_apart {a b c d : Nat} (h : b ≤ c ∨ d ≤ a) : rangesMeet a b c d = false := by
  rw [rangesMeet, decide_eq_false_iff_not]
  omega

/-- The buffer that `buf.decl` declares. -/
def State.declared (s : State) (o : OpBufDecl) : Buffer :=
  { id := o.n.toNat, base := (s.rd o.a).toNat, size := (s.rd o.b).toNat, v := o.vM1.toNat + 1, ver := o.vM1.toNat, phase := .empty }
/-- The checks of `buf.decl`, of that buffer. -/
theorem exec_bufDecl_checks (s : State) (o : OpBufDecl) : exec (.bufDecl o) s = ends s ((needCtx s).bind fun _ =>
    (faultIf ((s.declared o).base % 64 != 0 || (s.declared o).size % 64 != 0) .misalign).bind fun _ =>
    (faultIf ((s.declared o).size == 0 || decide (0x400000 < (s.declared o).size) || decide (s.core.grant < (s.declared o).spanEnd)) .spadRange).bind fun _ =>
    (faultIf ((bufFind s.core.bufs o.n.toNat).isSome ||
      s.core.bufs.any (fun b => rangesMeet (s.declared o).base (s.declared o).spanEnd b.base b.spanEnd)) .bufState).bind fun _ =>
    (stallIf (spadPending s.pendingTasks s.core.id.core ((s.declared o).base + s.core.spbase) ((s.declared o).spanEnd + s.core.spbase)) .tasks).bind fun _ =>
    .ok { s with core := { s.core with bufs := s.declared o :: s.core.bufs } }.advance) := rfl

/-! ## The state table (R104) -/

/-- The event of each instruction of the table. -/
def bufEventOf : Fin 4 → BufEvent
  | 0 => .fill | 1 => .full | 2 => .drain | 3 => .empty

theorem exec_bufEvents (s : State) (o : OpBuf) (e : Fin 4) :
    exec ((bufferEvents.getD e.val Instr.bufFill) o) s = bufTransition s o.n (bufEventOf e) := by
  fin_cases e
  · rfl
  · rfl
  · rfl
  · rfl

/-- A listed event leads where the table says; `buf.fill` moves on to the next version. -/
theorem bufNext_listed {e : Fin 4} {b : Buffer} {after : BufPhase} (h : (e, b.phase, after) ∈ bufferTable) :
    bufNext (bufEventOf e) b = some { b with phase := after, ver := if e = 0 then (b.ver + 1) % b.v else b.ver } := by
  obtain ⟨id, base, size, v, ver, phase⟩ := b
  simp only [bufferTable, List.mem_cons, Prod.mk.injEq, List.not_mem_nil, or_false] at h
  rcases h with ⟨rfl, rfl, rfl⟩ | ⟨rfl, rfl, rfl⟩ | ⟨rfl, rfl, rfl⟩ | ⟨rfl, rfl, rfl⟩ | ⟨rfl, rfl, rfl⟩ | ⟨rfl, rfl, rfl⟩ | ⟨rfl, rfl, rfl⟩ <;> rfl
/-- Where an event leads, the table lists it. -/
theorem bufferTable_of_bufNext {e : Fin 4} {b b' : Buffer} (h : bufNext (bufEventOf e) b = some b') : (e, b.phase, b'.phase) ∈ bufferTable := by
  obtain ⟨id, base, size, v, ver, phase⟩ := b
  fin_cases e
  · cases phase <;> cases h <;> simp [bufferTable]
  · cases phase <;> cases h; simp [bufferTable]
  · cases phase <;> cases h; simp [bufferTable]
  · cases phase <;> cases h <;> simp [bufferTable]
/-- One that the table does not list leads nowhere. -/
theorem bufNext_unlisted {e : Fin 4} {b : Buffer} (h : ∀ after, (e, b.phase, after) ∉ bufferTable) : bufNext (bufEventOf e) b = none :=
  Option.eq_none_iff_forall_ne_some.2 fun _ hb => h _ (bufferTable_of_bufNext hb)

section
variable {s : State} (hcv : s.core.status.cv = true)
include hcv

theorem bufTransition_listed {n : BitVec 8} {e : BufEvent} {b b' : Buffer} (hfind : bufFind s.core.bufs n.toNat = some b) (hnext : bufNext e b = some b') :
    bufTransition s n e = .next (s.afterNextWith fun c => { c with bufs := mapWhere (fun x => x.id = n.toNat) (fun _ => b') c.bufs }) := by
  rw [bufTransition, needCtx_ok hcv, Res.ok_bind, hfind, Option.bind_some, hnext]
  rfl
theorem bufTransition_unlisted {n : BitVec 8} {e : BufEvent} (h : (bufFind s.core.bufs n.toNat).bind (bufNext e) = none) :
    bufTransition s n e = .next (s.takeFault { cause := .bufState }) := by
  rw [bufTransition, needCtx_ok hcv, Res.ok_bind, h]
  rfl

/-! ## Declaring, freeing and reading (R110) -/

/-- A range in the grant that meets no buffer, under an unused number, is declared once no pending task of the core needs its bytes. -/
theorem exec_bufDecl {o : OpBufDecl} (halign : (s.declared o).base % 64 = 0 ∧ (s.declared o).size % 64 = 0) (hpos : 0 < (s.declared o).size)
    (hmax : (s.declared o).size ≤ 0x400000) (hgrant : (s.declared o).spanEnd ≤ s.core.grant)
    (hapart : ∀ b ∈ s.core.bufs, b.id ≠ o.n.toNat ∧ ((s.declared o).spanEnd ≤ b.base ∨ b.spanEnd ≤ (s.declared o).base))
    (hpending : spadPending s.pendingTasks s.core.id.core ((s.declared o).base + s.core.spbase) ((s.declared o).spanEnd + s.core.spbase) = false) :
    exec (.bufDecl o) s = .next (s.afterNextWith fun c => { c with bufs := s.declared o :: c.bufs }) := by
  have aligned : ((s.declared o).base % 64 != 0 || (s.declared o).size % 64 != 0) = false := by simp [halign]
  have fits : ((s.declared o).size == 0 || decide (0x400000 < (s.declared o).size) || decide (s.core.grant < (s.declared o).spanEnd)) = false := by
    simp only [Bool.or_eq_false_iff, beq_eq_false_iff_ne, decide_eq_false_iff_not]
    omega
  have free : ((bufFind s.core.bufs o.n.toNat).isSome ||
      s.core.bufs.any (fun b => rangesMeet (s.declared o).base (s.declared o).spanEnd b.base b.spanEnd)) = false := by
    rw [bufFind_none fun b hb => (hapart b hb).1, Option.isSome_none, Bool.false_or, List.any_eq_false]
    exact fun b hb => ne_true_of_eq_false (rangesMeet_apart (hapart b hb).2)
  rw [exec_bufDecl_checks, needCtx_ok hcv, aligned, fits, free, hpending]
  rfl

/-- A declared buffer is freed once no pending task of the core needs its bytes. -/
theorem exec_bufFree {o : OpBuf} {b : Buffer} (hfind : bufFind s.core.bufs o.n.toNat = some b)
    (hpending : spadPending s.pendingTasks s.core.id.core (b.base + s.core.spbase) (b.spanEnd + s.core.spbase) = false) :
    exec (.bufFree o) s = .next (s.afterNextWith fun c => { c with bufs := c.bufs.filter (fun x => x.id ≠ o.n.toNat) }) := by
  show execBufFree o s = _
  simp only [execBufFree, needCtx_ok hcv, Res.ok_bind, hfind, hpending, stallIf_false]
  rfl

theorem exec_bufState (o : OpBufD) : exec (.bufState o) s = .next (s.afterWrite o.d (bufStateWord (bufFind s.core.bufs o.n.toNat))) := by
  show execBufState o s = _
  rw [execBufState, needCtx_ok hcv, Res.ok_bind, ends_ok, State.wr_advance]
theorem exec_bufVer {o : OpBufD} {b : Buffer} (hfind : bufFind s.core.bufs o.n.toNat = some b) :
    exec (.bufVer o) s = .next (s.afterWrite o.d (BitVec.ofNat 64 ((b.base + b.ver * b.size) % 2 ^ 32))) := by
  show execBufVer o s = _
  rw [execBufVer, needCtx_ok hcv, Res.ok_bind, hfind, ends_ok, State.wr_advance]
end

/-- The state's number is in the two low bits of the word. -/
theorem bufStateWord_some {b : Buffer} {k : Nat}
    (h : b.phase = .empty ∧ k = 0 ∨ b.phase = .filling ∧ k = 1 ∨ b.phase = .full ∧ k = 2 ∨ b.phase = .draining ∧ k = 3) :
    bufStateWord (some b) = BitVec.ofNat 64 (256 + (b.v - 1) * 32 + b.ver * 4 + k) := by
  rcases h with ⟨hp, rfl⟩ | ⟨hp, rfl⟩ | ⟨hp, rfl⟩ | ⟨hp, rfl⟩ <;> simp only [bufStateWord, hp]

/-! ## The statements -/

/-- R104, R110 as claimed of the events. -/
theorem bufferTransitions_holds : bufferTransitions := by
  intro s o e hcv i
  have hexec : exec i s = bufTransition s o.n (bufEventOf e) := exec_bufEvents s o e
  rw [hexec]
  refine ⟨fun b hfind => ⟨fun after h => ?_, fun h => ?_⟩, fun h => ?_⟩
  · rw [bufTransition_listed hcv hfind (bufNext_listed h)]
    simp only [mapWhere, decide_eq_true_eq]
  · refine bufTransition_unlisted hcv ?_
    rw [show bufFind s.core.bufs o.n.toNat = some b from hfind, Option.bind_some, bufNext_unlisted h]
  · refine bufTransition_unlisted hcv ?_
    rw [bufFind_none h, Option.bind_none]
/-- R110 as claimed of the others. -/
theorem bufferDeclarations_holds : bufferDeclarations := by
  intro s hcv
  refine ⟨fun o hbase hsize hpos hmax hgrant hapart hpending => exec_bufDecl hcv ⟨hbase, hsize⟩ hpos hmax hgrant hapart hpending,
    fun o b hfind hpending => exec_bufFree hcv hfind hpending, fun o => ⟨fun h => ?_, fun b hfind => ⟨exec_bufVer hcv hfind, fun k hk => ?_⟩⟩⟩
  · rw [exec_bufState hcv, bufFind_none h]
    rfl
  · rw [exec_bufState hcv, show bufFind s.core.bufs o.n.toNat = some b from hfind, bufStateWord_some hk]

end Sys2Proof.Machine

namespace Sys2Proof
open Sys2Proof.Machine

/-- Settles O17: the events by the state table, the declarations by their checks. What `buf.decl` and `buf.free` wait for is the model's choice (log 108). -/
theorem buffers : Obligations.Buffers := ⟨bufferTransitions_holds, bufferDeclarations_holds⟩

end Sys2Proof
end

section
/-! SUPPORT. Delivering a request packet: whose turn is next at its die, and the answer that leaves (R278, R285). -/

namespace Sys2Proof.Machine

/-! ## The order of a die's packets -/

/-- Two states of a die hold the same packets back and expect the same numbers next. -/
def Die.sameOrder (k k' : Die) : Prop := k'.expect = k.expect ∧ k'.resequencer = k.resequencer

theorem Die.sameOrder.refl (k : Die) : k.sameOrder k := ⟨rfl, rfl⟩
theorem Die.sameOrder.trans {k k' k'' : Die} (h : k.sameOrder k') (h' : k'.sameOrder k'') : k.sameOrder k'' := ⟨h'.1.trans h.1, h'.2.trans h.2⟩
theorem sameOrder_updDie (s : State) (d e : Nat) (f : Die → Die) (hdie : ∀ k, (f k).die = k.die) (hf : ∀ k : Die, k.sameOrder (f k)) :
    (s.dieAt e).sameOrder ((s.updDie d f).dieAt e) := by
  rw [dieAt_updDie s d e f hdie]
  split
  · exact hf _
  · exact .refl _
theorem push_sameOrder (k : Die) (now : Nat) (p : Port) (resp : Bool) (f : Flow) : k.sameOrder (k.push now p resp f) := by
  unfold Die.push
  split
  · exact .refl k
  · exact .refl k
/-- A flow that is pushed is the last of its buffer. -/
theorem push_last (k : Die) (now : Nat) (p : Port) (resp : Bool) (f : Flow) :
    ∃ b ∈ (k.push now p resp f).bufs, b.port = p ∧ b.resp = resp ∧ b.flows.getLast? = some f := by
  unfold Die.push
  split
  · next hany =>
    obtain ⟨b, hb, hp⟩ := List.any_eq_true.1 hany
    obtain ⟨hport, hresp⟩ : b.port = p ∧ b.resp = resp := by simpa using hp
    refine ⟨_, List.mem_map.2 ⟨b, hb, if_pos hp⟩, hport, hresp, List.getLast?_concat⟩
  · exact ⟨_, List.mem_cons_self, rfl, rfl, rfl⟩

/-! ## A delivery -/

/-- The die holds packet p no longer, and the number after it is next (R285). -/
def State.accepting (s : State) (d : Nat) (p : Packet) : State := s.updDie d (fun k => { k with
  resequencer := k.resequencer.filter (fun q => q ≠ p), expect := assocSet k.expect (pairKey p.src p.cls) (p.seq + 1) })

section
variable (s : State) (d : Nat) (p : Packet)

theorem onlyDies_accepting : OnlyDies s (s.accepting d p) := onlyDies_updDie s d _
theorem accepting_dieAt : (s.accepting d p).dieAt d = { s.dieAt d with
    resequencer := (s.dieAt d).resequencer.filter (fun q => q ≠ p), expect := assocSet (s.dieAt d).expect (pairKey p.src p.cls) (p.seq + 1) } :=
  dieAt_updDie_same s d _ fun _ => rfl
theorem onlyDies_answer (r : RespKind) : OnlyDies s (s.answer d p r) := onlyDies_updDie s d _
theorem answer_dieAt (r : RespKind) : (s.answer d p r).dieAt d =
    (s.dieAt d).push s.sched.now .loc true (.response { uid := p.uid, src := p.dst, dst := p.src, kind := r }) :=
  dieAt_updDie_same s d _ fun _ => push_die ..
end

section
variable {s u : State} {d : Nat} {p : Packet} {i : Instr} {r : RespKind} {outcome : State → RespKind → Prop}

theorem takePacket_eq (h : (s.accepting d p).deliverAny d p = (u, r)) : s.takePacket d p = u.answer d p r :=
  congrArg (fun x : State × RespKind => x.1.answer d p x.2) h
/-- A packet whose turn it is is taken by the event of its kind. -/
theorem deliverEvent_takes {name : String} {kind : PktBody → Bool} (hd : s.dieIndex p.dst = some d) (hkind : kind p.body = true)
    (hturn : s.deliverable d p = true) : deliverEvent name kind p s = .next (s.takePacket d p) := by
  rw [deliverEvent, hd]
  exact if_pos (by rw [hkind, hturn]; rfl)

/-- A delivery that keeps the order of the die sends its answer. -/
theorem delivers_of (hexec : exec i s = .next (s.takePacket d p)) (hany : (s.accepting d p).deliverAny d p = (u, r))
    (horder : ((s.accepting d p).dieAt d).sameOrder (u.dieAt d)) (hout : outcome (u.answer d p r) r) : delivers s d p i outcome := by
  have hanswer : (u.dieAt d).sameOrder ((u.answer d p r).dieAt d) := by
    rw [answer_dieAt]
    exact push_sameOrder ..
  obtain ⟨hexpect, hheld⟩ := horder.trans hanswer
  rw [accepting_dieAt] at hexpect hheld
  refine ⟨_, r, hexec.trans (by rw [takePacket_eq hany]), hout, ?_, ?_, ?_⟩
  · rw [Die.expected, hexpect, assoc_assocSet, if_pos rfl]
    rfl
  · rw [hheld]
    simp
  · rw [answer_dieAt]
    exact push_last ..
/-- One that changes nothing but dies has done nothing more when its answer has left. -/
theorem delivers_of_onlyDies (hexec : exec i s = .next (s.takePacket d p)) (hany : (s.accepting d p).deliverAny d p = (u, r))
    (horder : ((s.accepting d p).dieAt d).sameOrder (u.dieAt d)) (hu : OnlyDies (s.accepting d p) u) (hout : ∀ t, OnlyDies s t → outcome t r) :
    delivers s d p i outcome :=
  delivers_of hexec hany horder (hout _ ((onlyDies_accepting s d p).trans (hu.trans (onlyDies_answer u d p r))))
end

/-! ## What a change of dies leaves alone -/

section
variable {s t : State} (h : OnlyDies s t)
include h

theorem OnlyDies.clusterAt (d c : Nat) : t.clusterAt d c = s.clusterAt d c := by
  rw [State.clusterAt, show t.cluster = s.cluster from (congrArg State.cluster h :),
    show t.parkedClusters = s.parkedClusters from (congrArg State.parkedClusters h :), State.clusterAt]
theorem OnlyDies.ncl (d : Nat) : t.ncl d = s.ncl d := by rw [State.ncl, h.modul, State.ncl]
theorem OnlyDies.jobOf (ctx : Nat) : t.jobOf ctx = s.jobOf ctx := by rw [State.jobOf, h.modul, State.jobOf]
theorem OnlyDies.ctxGrant (ctx : Nat) : t.ctxGrant ctx = s.ctxGrant ctx := by rw [State.ctxGrant, h.jobOf, State.ctxGrant]
theorem OnlyDies.packetCtx (d : Nat) (p : Packet) : t.packetCtx d p = s.packetCtx d p := by
  rw [State.packetCtx, h.ncl, h.clusterAt, State.packetCtx]
theorem OnlyDies.savedTasks (d c ctx : Nat) : t.savedTasks d c ctx = s.savedTasks d c ctx := by
  simp only [State.savedTasks, State.ctxAt, h.clusterAt, h.jobOf, h.coreAt]
theorem OnlyDies.dieIndex (n : Nat) : t.dieIndex n = s.dieIndex n := by
  simp only [State.dieIndex, State.dies, State.dieNumber, h.modul]
end

/-- What waits in the order of a source die does not depend on the packet taken (R287). -/
theorem heldInOrder_accepting (s : State) (d : Nat) (p q : Packet) : (s.accepting d p).heldInOrder q = s.heldInOrder q := by
  rw [State.heldInOrder, (onlyDies_accepting s d p).dieIndex, State.heldInOrder]
  refine congrArg (fun f => Option.any f _) (funext fun e => ?_)
  rw [State.accepting, dieAt_updDie s d e _ (by exact fun _ => rfl)]
  split
  · rfl
  · rfl
theorem onlyDies_noteRetry (s : State) (p : Packet) : OnlyDies s (s.noteRetry p) := by
  unfold State.noteRetry
  split
  · exact .refl s
  · exact onlyDies_updDie s _ _
theorem sameOrder_noteRetry (s : State) (p : Packet) (e : Nat) : (s.dieAt e).sameOrder ((s.noteRetry p).dieAt e) := by
  unfold State.noteRetry
  split
  · exact .refl _
  · refine sameOrder_updDie s _ e _ (fun k => ?_) fun k => ?_
    · split
      · rfl
      · rfl
    · split
      · exact .refl k
      · exact .refl k

end Sys2Proof.Machine
end

section
/-! SUPPORT. O45: remote posts at their destination (R108, R287, R299). -/

namespace Sys2Proof.Machine

/-! ## Admission of a task for another core -/

/-- A task waits for the older pending tasks of its context that conflict with it, those in a save among them (R318). -/
theorem mem_newTask_waits (s : State) (ps : Poster) (k : Cluster) (l : Label) (a : Draft) (w : Nat) : w ∈ (s.newTask ps k l a).waits ↔
    (∃ q ∈ k.tasks, q.id = w ∧ q.pending = true ∧ q.ctx = ps.ctx ∧ waitsFor a.regions q.regions = true) ∨
    ∃ q ∈ s.savedTasks ps.id.die ps.id.clu ps.ctx, q.id = w ∧ waitsFor a.regions q.regions = true := by
  simp only [State.newTask, List.mem_map, List.mem_filter, List.mem_append, Bool.and_eq_true, decide_eq_true_eq]
  constructor
  · rintro ⟨q, ⟨⟨hq, hp, hx⟩ | hq, hw⟩, rfl⟩
    · exact .inl ⟨q, hq, rfl, hp, hx, hw⟩
    · exact .inr ⟨q, hq, rfl, hw⟩
  · rintro (⟨q, hq, rfl, hp, hx, hw⟩ | ⟨q, hq, rfl, hw⟩)
    · exact ⟨q, ⟨.inl ⟨hq, hp, hx⟩, hw⟩, rfl⟩
    · exact ⟨q, ⟨.inr hq, hw⟩, rfl⟩

section
variable {s : State} {ps : Poster} {l : Label} {a : Draft} {x : CtxCluster} (hx : (s.clusterAt ps.id.die ps.id.clu).ctxAt ps.ctx = some x)
  (hc : x.cancelled = false)
include hx hc

/-- A context that is not cancelled gets its task where there is room; of the clusters only the own one changes, and no die. -/
theorem enterTask_admits (hroom : (s.clusterAt ps.id.die ps.id.clu).hasRoom ps.remote ps.id.core (a.regions.filter (fun r => !r.null)).length = true) :
    let own := s.clusterAt ps.id.die ps.id.clu
    ∃ t, s.enterTask ps l a = .ok (.admitted t) ∧ (∀ e, t.dieAt e = s.dieAt e) ∧
      t.clusterAt ps.id.die ps.id.clu = { own with tasks := own.tasks ++ [s.newTask ps own l a], nextTask := own.nextTask + 1 } := by
  intro own
  let f : Cluster → Cluster := fun k => { k with tasks := k.tasks ++ [s.newTask ps own l a], nextTask := k.nextTask + 1 }
  let g : Core → Core := fun c =>
    let c1 := if c.holds ps.ctx then { c with bufs := a.consumed.foldl (fun b h => bufConsume b h.1 h.2) c.bufs } else c
    if ps.remote then c1 else c1.takeKey a.op
  have hclusters := onlyClusters_updCluster s ps.id.die ps.id.clu f
  have hcores : OnlyCores (s.updCluster ps.id.die ps.id.clu f) ((s.updCluster ps.id.die ps.id.clu f).updCore ps.id g) := updCore_frame _ _ _
  refine ⟨(s.updCluster ps.id.die ps.id.clu f).updCore ps.id g, ?_, fun e => (hcores.dieAt e).trans (hclusters.dieAt e),
    (hcores.clusterAt _ _).trans (clusterAt_updCluster s _ _ f fun _ => ⟨rfl, rfl⟩)⟩
  simp only [State.enterTask, hx, Option.any_some, hc, hroom, Bool.not_true, Bool.false_eq_true, if_false]
  rfl
/-- Without room nothing happens. -/
theorem enterTask_full (hroom : (s.clusterAt ps.id.die ps.id.clu).hasRoom ps.remote ps.id.core (a.regions.filter (fun r => !r.null)).length = false) :
    s.enterTask ps l a = .ok .full := by
  simp only [State.enterTask, hx, Option.any_some, hc, hroom, Bool.not_false, Bool.false_eq_true, if_false, if_true]
end

theorem consumeSaved_keeps (s : State) (id : CoreId) (ctx : Nat) (hulls : List (Int × Int)) :
    (∀ e, (s.consumeSaved id ctx hulls).dieAt e = s.dieAt e) ∧ ∀ d c, (s.consumeSaved id ctx hulls).clusterAt d c = s.clusterAt d c := by
  unfold State.consumeSaved
  split
  · exact ⟨fun _ => rfl, fun _ _ => rfl⟩
  · exact ⟨fun _ => rfl, fun _ _ => rfl⟩

/-! ## The checks of R299, in their order -/

theorem used_remote (k : Cluster) (core : Nat) : (k.used true core).1 = (k.tasks.filter (fun t => t.remote)).length := by
  simp [Cluster.used]
theorem hasRoom_remote {k : Cluster} {core n : Nat} (h : k.hasRoom true core n = true) : (k.tasks.filter (fun t => t.remote)).length < 128 := by
  rw [← used_remote k core]
  exact of_decide_eq_true (Bool.and_eq_true_iff.1 h).1

section
variable {s : State} {d : Nat} {p : Packet} {x : CtxCluster} {g : Staged}

theorem deliverPost_partitionFull (h : 128 ≤ ((s.clusterAt d p.clu).tasks.filter (fun t => t.remote)).length) :
    s.deliverPost d p x g = (s, .retry) := by
  rw [State.deliverPost, used_remote]
  exact if_pos h

variable (hroom : ((s.clusterAt d p.clu).tasks.filter (fun t => t.remote)).length < 128)
include hroom

theorem deliverPost_denied {f : FaultInfo} (hf : remoteDraft s (s.remotePoster ⟨d, p.clu, p.core⟩ x.ctx p.src) g = .fault f) :
    s.deliverPost d p x g = (s, .deny f.cause) := by
  rw [State.deliverPost, used_remote]
  exact (if_neg (not_le.2 hroom)).trans (by rw [hf])

variable {a : Draft} (ha : remoteDraft s (s.remotePoster ⟨d, p.clu, p.core⟩ x.ctx p.src) g = .ok a)
include ha

theorem deliverPost_noEntry (hq : s.enterTask (s.remotePoster ⟨d, p.clu, p.core⟩ x.ctx p.src) (recLabel g.rec_) a = .ok .full) :
    s.deliverPost d p x g = (s, .retry) := by
  rw [State.deliverPost, used_remote]
  exact (if_neg (not_le.2 hroom)).trans (by simp only [ha, hq])
theorem deliverPost_admitted {t : State} (hq : s.enterTask (s.remotePoster ⟨d, p.clu, p.core⟩ x.ctx p.src) (recLabel g.rec_) a = .ok (.admitted t)) :
    s.deliverPost d p x g = (t.consumeSaved ⟨d, p.clu, p.core⟩ x.ctx a.consumed, .ack) := by
  rw [State.deliverPost, used_remote]
  exact (if_neg (not_le.2 hroom)).trans (by simp only [ha, hq])
end

/-! ## The answer -/

/-- What a POST packet asks for. -/
def stagedOf (r : BitVec 512) (h : Option (BitVec 256)) (g : List (BitVec 256)) (a : List Word) : Staged :=
  { rec_ := r, header := h, regions := g, args := a, walkers := [] }

section
variable {s : State} {d : Nat} {p : Packet} {r : BitVec 512} {h : Option (BitVec 256)} {g : List (BitVec 256)} {a : List Word} (hbody : p.body = .post r h g a)
include hbody

theorem deliverAny_post_noContext (hx : s.packetCtx d p = none) : s.deliverAny d p = (s, .deny .winDenied) := by
  simp only [State.deliverAny, hbody, hx]

variable {x : CtxCluster} (hx : s.packetCtx d p = some x) (hsrc : p.src ∉ x.cancelSrc)
include hx hsrc

theorem deliverAny_post_noGrant (hg : grantEntry x (s.ctxGrant x.ctx) p = none) : s.deliverAny d p = (s, .deny .winDenied) := by
  simp only [State.deliverAny, hbody, hx, List.contains_iff_mem, hsrc, if_false, hg]

variable {w0 : Word} (hg : grantEntry x (s.ctxGrant x.ctx) p = some w0)
include hg

theorem deliverAny_post_held (hh : s.heldInOrder p = true) : s.deliverAny d p = (s.noteRetry p, .retry) := by
  simp only [State.deliverAny, hbody, hx, List.contains_iff_mem, hsrc, if_false, hg, hh, if_true]

variable (hh : s.heldInOrder p = false)
include hh

/-- In its turn it is answered as its checks say; one answered with RETRY waits to be sent again. -/
theorem deliverAny_post (u : State) (k : RespKind) (hk : s.deliverPost d p x (stagedOf r h g a) = (u, k)) :
    s.deliverAny d p = (if k = .retry then u.noteRetry p else u, k) := by
  unfold stagedOf at hk
  simp only [State.deliverAny, hbody, hx, List.contains_iff_mem, hsrc, if_false, hg, hh, Bool.false_eq_true, hk]
  cases k <;> rfl
end

/-! ## Posts as claimed (R108, R287, R299) -/

section
variable {s : State} {d : Nat} {p : Packet} {r : BitVec 512} {h : Option (BitVec 256)} {g : List (BitVec 256)} {a : List Word}
  (hd : s.dieIndex p.dst = some d) (hturn : s.deliverable d p = true) (hbody : p.body = .post r h g a)
include hd hturn hbody

theorem exec_post : exec (.post p) s = .next (s.takePacket d p) := deliverEvent_takes hd (by rw [hbody]; rfl) hturn

theorem post_noContext (hx : s.packetCtx d p = none) : delivers s d p (.post p) (fun t k => k = .deny .winDenied ∧ SameBytes s t) := by
  have only := onlyDies_accepting s d p
  exact delivers_of_onlyDies (exec_post hd hturn hbody) (deliverAny_post_noContext hbody ((only.packetCtx d p).trans hx)) (.refl _) (.refl _)
    fun t ht => ⟨rfl, ht.sameBytes⟩

variable {x : CtxCluster} (hx : s.packetCtx d p = some x) (hsrc : p.src ∉ x.cancelSrc)
include hx hsrc

theorem post_noGrant (hg : grantEntry x (s.ctxGrant x.ctx) p = none) : delivers s d p (.post p) (fun t k => k = .deny .winDenied ∧ SameBytes s t) := by
  have only := onlyDies_accepting s d p
  exact delivers_of_onlyDies (exec_post hd hturn hbody)
    (deliverAny_post_noGrant hbody ((only.packetCtx d p).trans hx) hsrc (only.ctxGrant x.ctx ▸ hg)) (.refl _) (.refl _) fun t ht => ⟨rfl, ht.sameBytes⟩

variable {w0 : Word} (hg : grantEntry x (s.ctxGrant x.ctx) p = some w0)
include hg

theorem post_held (hh : s.heldInOrder p = true) :
    delivers s d p (.post p) (fun t k => k = .retry ∧ (t.clusterAt d p.clu).tasks = (s.clusterAt d p.clu).tasks) := by
  have only := onlyDies_accepting s d p
  have hany := deliverAny_post_held hbody ((only.packetCtx d p).trans hx) hsrc (only.ctxGrant x.ctx ▸ hg) ((heldInOrder_accepting s d p p).trans hh)
  exact delivers_of_onlyDies (exec_post hd hturn hbody) hany (sameOrder_noteRetry _ p d) (onlyDies_noteRetry _ p)
    fun t ht => ⟨rfl, by rw [ht.clusterAt]⟩

variable (hh : s.heldInOrder p = false)
include hh

/-- A post that is not admitted changes no task. -/
theorem post_refused {k : RespKind} (hk : (s.accepting d p).deliverPost d p x (stagedOf r h g a) = (s.accepting d p, k)) :
    delivers s d p (.post p) (fun t k' => k' = k ∧ (t.clusterAt d p.clu).tasks = (s.clusterAt d p.clu).tasks) := by
  have only := onlyDies_accepting s d p
  have hany := deliverAny_post hbody ((only.packetCtx d p).trans hx) hsrc (only.ctxGrant x.ctx ▸ hg) ((heldInOrder_accepting s d p p).trans hh) _ k hk
  refine delivers_of_onlyDies (exec_post hd hturn hbody) hany ?_ ?_ fun t ht => ⟨rfl, by rw [ht.clusterAt]⟩
  · split
    · exact sameOrder_noteRetry _ p d
    · exact .refl _
  · split
    · exact onlyDies_noteRetry _ p
    · exact .refl _

variable (hctx : s.ctxAt d p.clu x.ctx = some x) {q : Draft}
  (hq : remoteDraft (s.accepting d p) ((s.accepting d p).remotePoster ⟨d, p.clu, p.core⟩ x.ctx p.src) (stagedOf r h g a) = .ok q)
  (hc : x.cancelled = false)
include hctx hq hc

/-- Where either has no entry left it is answered with RETRY. -/
theorem post_noRoom (hfull : (s.clusterAt d p.clu).hasRoom true p.core (q.regions.filter (fun r => !r.null)).length = false) :
    delivers s d p (.post p) (fun t k => k = .retry ∧ (t.clusterAt d p.clu).tasks = (s.clusterAt d p.clu).tasks) := by
  have hown := (onlyDies_accepting s d p).clusterAt d p.clu
  refine post_refused hd hturn hbody hx hsrc hg hh ?_
  rcases Nat.lt_or_ge ((s.clusterAt d p.clu).tasks.filter (fun t => t.remote)).length 128 with hroom | hpartition
  · refine deliverPost_noEntry (hown ▸ hroom) hq (enterTask_full (x := x) ?_ hc ?_)
    · exact hown.symm ▸ hctx
    · exact hown.symm ▸ hfull
  · exact deliverPost_partitionFull (hown ▸ hpartition)

/-- An admitted one stands last among the cluster's tasks, and waits for the older ones that conflict. -/
theorem post_admitted (hfits : (s.clusterAt d p.clu).hasRoom true p.core (q.regions.filter (fun r => !r.null)).length = true) :
    let own := s.clusterAt d p.clu
    delivers s d p (.post p) (fun t k => k = .ack ∧ ∃ u, (t.clusterAt d p.clu).tasks = own.tasks ++ [u] ∧
      u.remote = true ∧ u.srcDie = p.src ∧ u.core = p.core ∧ u.ctx = x.ctx ∧ u.op = q.op ∧ u.regions = q.regions ∧ u.id = own.nextTask ∧
      ∀ w, w ∈ u.waits ↔ (∃ v ∈ own.tasks, v.id = w ∧ v.pending = true ∧ v.ctx = x.ctx ∧ waitsFor q.regions v.regions = true) ∨
        ∃ v ∈ s.savedTasks d p.clu x.ctx, v.id = w ∧ waitsFor q.regions v.regions = true) := by
  intro own
  let s1 := s.accepting d p
  let ps := s1.remotePoster ⟨d, p.clu, p.core⟩ x.ctx p.src
  let u := s1.newTask ps own (recLabel r) q
  have only : OnlyDies s s1 := onlyDies_accepting s d p
  have hown : s1.clusterAt d p.clu = own := only.clusterAt d p.clu
  obtain ⟨t, hent, hdie, hclu⟩ := enterTask_admits (s := s1) (ps := ps) (l := recLabel r) (a := q) (x := x)
    (hown.symm ▸ hctx) hc (hown.symm ▸ hfits)
  have hclu : t.clusterAt d p.clu = { own with tasks := own.tasks ++ [u], nextTask := own.nextTask + 1 } := by
    rw [← hown]
    exact hown ▸ hclu
  obtain ⟨hdie', hclu'⟩ := consumeSaved_keeps t ⟨d, p.clu, p.core⟩ x.ctx q.consumed
  have hany := deliverAny_post hbody ((only.packetCtx d p).trans hx) hsrc (only.ctxGrant x.ctx ▸ hg) ((heldInOrder_accepting s d p p).trans hh) _ .ack
    (deliverPost_admitted (hown ▸ hasRoom_remote hfits) hq hent)
  refine delivers_of (exec_post hd hturn hbody) hany ?_ ⟨rfl, u, ?_, rfl, rfl, rfl, rfl, rfl, rfl, rfl, fun w => ?_⟩
  · rw [if_neg (by decide), hdie', hdie]
    exact .refl _
  · rw [(onlyDies_answer _ d p .ack).clusterAt, if_neg (by decide), hclu', hclu]
  · rw [mem_newTask_waits, show s1.savedTasks ps.id.die ps.id.clu ps.ctx = s.savedTasks d p.clu x.ctx from only.savedTasks d p.clu x.ctx]
    rfl
end

end Sys2Proof.Machine
end

section
/-! SUPPORT. O45: a CANCEL at its destination (R301): what discarding tasks that are not dispatched leaves of a cluster and of the rest. -/

namespace Sys2Proof.Machine

/-! ## Outside the cluster -/

/-- Between two states only cluster c of die d differs, and what is neither a byte nor the order of packets. -/
structure StopsIn (d c : Nat) (s t : State) : Prop where
  bytes : SameBytes s t
  order : ∀ e, (s.dieAt e).sameOrder (t.dieAt e)
  other : ∀ k : Nat × Nat, k ≠ (d, c) → t.clusterAt k.1 k.2 = s.clusterAt k.1 k.2

theorem StopsIn.refl (d c : Nat) (s : State) : StopsIn d c s s := ⟨(OnlyDies.refl s).sameBytes, fun _ => .refl _, fun _ _ => rfl⟩
theorem StopsIn.trans {d c : Nat} {s t u : State} (h : StopsIn d c s t) (h' : StopsIn d c t u) : StopsIn d c s u :=
  ⟨h.bytes.trans h'.bytes, fun e => (h.order e).trans (h'.order e), fun k hk => (h'.other k hk).trans (h.other k hk)⟩
theorem stopsIn_updCluster (d c : Nat) (s : State) (f : Cluster → Cluster) (hf : ∀ k, (f k).die = k.die ∧ (f k).clu = k.clu) :
    StopsIn d c s (s.updCluster d c f) :=
  ⟨sameBytes_updCluster s d c f, fun e => by rw [(onlyClusters_updCluster s d c f).dieAt]; exact .refl _, fun _ hk => clusterAt_updCluster_other s f hf hk⟩
theorem stopsIn_updCore (d c : Nat) (s : State) (id : CoreId) (f : Core → Core) (hid : ∀ k, (f k).id = k.id) (hf : ∀ k, (f k).spad = k.spad) :
    StopsIn d c s (s.updCore id f) := by
  have only : OnlyCores s (s.updCore id f) := updCore_frame s id f
  exact ⟨sameBytes_updCore s id f hid hf, fun e => by rw [only.dieAt]; exact .refl _, fun _ _ => only.clusterAt _ _⟩
theorem clusterAt_updCore (s : State) (id : CoreId) (f : Core → Core) (d c : Nat) : (s.updCore id f).clusterAt d c = s.clusterAt d c :=
  OnlyCores.clusterAt (updCore_frame s id f) d c

/-! ## Within the cluster -/

/-- A task has left for an engine, or has been there. -/
def Task.underway (t : Task) : Bool := t.phase == .dispatched || t.phase == .complete
/-- What a CANCEL asks of a task. -/
def Task.ident (t : Task) : Nat × Bool × Nat × Nat × Bool := (t.id, t.remote, t.ctx, t.srcDie, t.underway)
/-- What a CANCEL asks of a context, and what it sets there. -/
def CtxCluster.key (x : CtxCluster) : Nat × BitVec 32 := (x.ctx, x.fjob)
def CtxCluster.marks (x : CtxCluster) : (Nat × BitVec 32) × List Nat := (x.key, x.cancelSrc)

/-- From k to k' tasks have only gone or been released from waiting, and the contexts are marked as before. -/
structure Cluster.Clears (k k' : Cluster) : Prop where
  marks : k'.ctxs.map CtxCluster.marks = k.ctxs.map CtxCluster.marks
  tasks : ∀ u ∈ k'.tasks, ∃ v ∈ k.tasks, u.ident = v.ident

theorem Cluster.Clears.refl (k : Cluster) : k.Clears k := ⟨rfl, fun u hu => ⟨u, hu, rfl⟩⟩
theorem Cluster.Clears.trans {k k' k'' : Cluster} (h : k.Clears k') (h' : k'.Clears k'') : k.Clears k'' := by
  refine ⟨h'.marks.trans h.marks, fun u hu => ?_⟩
  obtain ⟨v, hv, hi⟩ := h'.tasks u hu
  obtain ⟨w, hw, hi'⟩ := h.tasks v hv
  exact ⟨w, hw, hi.trans hi'⟩
theorem Cluster.Clears.lacks {k k' : Cluster} (h : k.Clears k') {n : Nat} (hk : ∀ u ∈ k.tasks, u.id ≠ n) : ∀ u ∈ k'.tasks, u.id ≠ n := fun u hu => by
  obtain ⟨v, hv, hi⟩ := h.tasks u hu
  rw [show u.id = v.id from congrArg Prod.fst hi]
  exact hk v hv
/-- A changed context is marked as before where the change keeps its marks. -/
theorem clears_updCtx (k : Cluster) (ctx : Nat) (f : CtxCluster → CtxCluster) (hf : ∀ x, (f x).marks = x.marks) : k.Clears (k.updCtx ctx f) := by
  refine ⟨?_, fun u hu => ⟨u, hu, rfl⟩⟩
  rw [Cluster.updCtx, mapWhere, List.map_map]
  refine List.map_congr_left fun x _ => ?_
  rw [Function.comp_apply]
  split
  · exact hf x
  · rfl
/-- A task whose waits have become w. -/
def Task.waitingFor (t : Task) (w : List Nat) : Task :=
  { t with waits := w, phase := match t.phase with
      | .waiting => if w.isEmpty then .ready else .waiting
      | p => p }
/-- The end of a wait is no dispatch. -/
theorem ident_waitingFor (t : Task) (w : List Nat) : (t.waitingFor w).ident = t.ident := by
  have : (t.waitingFor w).underway = t.underway := by
    unfold Task.underway Task.waitingFor
    cases t.phase with
    | waiting => dsimp only; split <;> rfl
    | ready => rfl
    | dispatched => rfl
    | complete => rfl
  exact congrArg (fun b => (t.id, t.remote, t.ctx, t.srcDie, b)) this
theorem ident_drop (id : Nat) (t : Task) : (t.drop id).ident = t.ident := ident_waitingFor t _
theorem ident_prune (pending : List Nat) (t : Task) : (t.prune pending).ident = t.ident := ident_waitingFor t _
theorem clears_release (k : Cluster) (id : Nat) : k.Clears (k.release id) ∧ ∀ u ∈ (k.release id).tasks, u.id ≠ id := by
  have hmem : ∀ u ∈ (k.release id).tasks, ∃ v ∈ k.tasks, v.id ≠ id ∧ v.drop id = u := fun u hu => by
    obtain ⟨v, hv, rfl⟩ := List.mem_map.1 hu
    obtain ⟨hv, hne⟩ := List.mem_filter.1 hv
    exact ⟨v, hv, by simpa using hne, rfl⟩
  refine ⟨⟨rfl, fun u hu => ?_⟩, fun u hu => ?_⟩
  · obtain ⟨v, hv, -, rfl⟩ := hmem u hu
    exact ⟨v, hv, ident_drop id v⟩
  · obtain ⟨v, -, hne, rfl⟩ := hmem u hu
    exact hne
theorem clears_prune (k : Cluster) (pending : List Nat) : k.Clears { k with tasks := k.tasks.map (Task.prune pending) } := by
  refine ⟨rfl, fun u hu => ?_⟩
  obtain ⟨v, hv, rfl⟩ := List.mem_map.1 hu
  exact ⟨v, hv, ident_prune pending v⟩

/-! ## Discarding (R327, R328) -/

/-- From s to t tasks of cluster c of die d have been discarded. -/
def Discards (d c : Nat) (s t : State) : Prop := StopsIn d c s t ∧ (s.clusterAt d c).Clears (t.clusterAt d c)

theorem Discards.refl (d c : Nat) (s : State) : Discards d c s s := ⟨.refl d c s, .refl _⟩
theorem Discards.trans {d c : Nat} {s t u : State} (h : Discards d c s t) (h' : Discards d c t u) : Discards d c s u := ⟨h.1.trans h'.1, h.2.trans h'.2⟩
theorem discards_updCluster (d c : Nat) (s : State) (f : Cluster → Cluster) (hf : ∀ k, (f k).die = k.die ∧ (f k).clu = k.clu) (h : ∀ k : Cluster, k.Clears (f k)) :
    Discards d c s (s.updCluster d c f) :=
  ⟨stopsIn_updCluster d c s f hf, by rw [clusterAt_updCluster s d c f hf]; exact h _⟩
theorem discards_updCore (d c : Nat) (s : State) (id : CoreId) (f : Core → Core) (hid : ∀ k, (f k).id = k.id) (hf : ∀ k, (f k).spad = k.spad) :
    Discards d c s (s.updCore id f) :=
  ⟨stopsIn_updCore d c s id f hid hf, by rw [clusterAt_updCore]; exact .refl _⟩

theorem discards_dropPosts (d c : Nat) (s : State) (id : CoreId) (ids : List Nat) : Discards d c s (s.dropPosts id ids) := by
  have only := onlyDies_updDie s id.die (fun k => k.forgetPosts id.clu ids)
  have order : ∀ e, (s.dieAt e).sameOrder ((s.updDie id.die (fun k => k.forgetPosts id.clu ids)).dieAt e) := fun e =>
    sameOrder_updDie s id.die e _ (fun k => forgetPosts_die ..) fun k => ⟨rfl, rfl⟩
  have forgot : Discards d c s (s.updDie id.die (fun k => k.forgetPosts id.clu ids)) :=
    ⟨⟨only.sameBytes, order, fun _ _ => only.clusterAt _ _⟩, by rw [only.clusterAt]; exact .refl _⟩
  exact forgot.trans (discards_updCore d c _ id _ (fun k => performed_id ..) fun _ => rfl)
theorem discards_orSticky (d c : Nat) (s : State) (n ctx : Nat) (f : Sticky) : Discards d c s (s.orSticky ⟨d, c, n⟩ ctx f) := by
  unfold State.orSticky
  split
  · exact discards_updCore d c s _ _ (fun _ => rfl) fun _ => rfl
  · exact discards_updCluster d c s _ (fun k => updCtx_place k _ _) fun k => clears_updCtx k ctx _ fun _ => rfl

/-- Ending a task without its flag takes it out of the cluster. -/
theorem endTask_unraised (d c : Nat) (s : State) (t : Task) :
    Discards d c s (s.endTask d c t false) ∧ ∀ u ∈ ((s.endTask d c t false).clusterAt d c).tasks, u.id ≠ t.id := by
  have hend : s.endTask d c t false =
      ((s.orSticky (taskCore d c t) t.ctx t.flags).updCluster d c (fun k => k.release t.id)).updCore (taskCore d c t) (fun k => k.dropRun t) := by
    unfold State.endTask
    cases t.flag <;> rfl
  have released := discards_updCluster d c (s.orSticky (taskCore d c t) t.ctx t.flags) (fun k => k.release t.id) (fun k => release_place k _)
    fun k => (clears_release k _).1
  rw [hend]
  refine ⟨((discards_orSticky d c s t.core t.ctx t.flags).trans released).trans (discards_updCore d c _ _ _ (fun _ => dropRun_id ..) fun _ => rfl), ?_⟩
  rw [clusterAt_updCore, clusterAt_updCluster _ _ _ _ fun k => release_place k _]
  exact (clears_release _ _).2
/-- Stopping a task that is not dispatched takes it out, unless it is COMPLETE already. -/
theorem stopTask_undispatched (d c : Nat) (s : State) {t : Task} (ht : t.dispatched = false) :
    Discards d c s (s.stopTask d c t) ∧ (t.phase ≠ .complete → ∀ u ∈ ((s.stopTask d c t).clusterAt d c).tasks, u.id ≠ t.id) := by
  by_cases hcomplete : t.phase = .complete
  · have : s.stopTask d c t = s := if_pos (by rw [hcomplete]; rfl)
    rw [this]
    exact ⟨.refl d c s, fun h => absurd hcomplete h⟩
  · have : s.stopTask d c t = (s.dropPosts (taskCore d c t) [t.id]).endTask d c t false :=
      (if_neg (by simpa using hcomplete)).trans (if_pos (by rw [ht]; rfl))
    rw [this]
    obtain ⟨hdiscards, hgone⟩ := endTask_unraised d c (s.dropPosts (taskCore d c t) [t.id]) t
    exact ⟨(discards_dropPosts d c s _ _).trans hdiscards, fun _ => hgone⟩
theorem foldl_stopTask_undispatched (d c : Nat) : ∀ (l : List Task) (s : State), (∀ t ∈ l, t.dispatched = false) →
    let u := l.foldl (fun s t => s.stopTask d c t) s
    Discards d c s u ∧ ∀ t ∈ l, t.phase ≠ .complete → ∀ v ∈ (u.clusterAt d c).tasks, v.id ≠ t.id
  | [], s, _ => ⟨.refl d c s, fun _ h => absurd h List.not_mem_nil⟩
  | t :: l, s, h => by
    obtain ⟨hhead, htail⟩ := List.forall_mem_cons.1 h
    obtain ⟨hstop, hgone⟩ := stopTask_undispatched d c s hhead
    obtain ⟨hrest, hrestGone⟩ := foldl_stopTask_undispatched d c l (s.stopTask d c t) htail
    exact ⟨hstop.trans hrest, List.forall_mem_cons.2 ⟨fun hc => hrest.2.lacks (hgone hc), hrestGone⟩⟩

/-! ## The CANCEL in one cluster -/

/-- What a CANCEL from a die leaves of its job's context in a cluster (R301). -/
def CtxCluster.cancelFor (src : Nat) (x : CtxCluster) : CtxCluster := { x with
  cancelSrc := src :: x.cancelSrc.filter (fun n => n ≠ src), remoteSaved := dropTasks (fun t => t.srcDie = src) x.remoteSaved }
/-- The tasks that a CANCEL from a die stops, of one context. -/
def Task.cancelPicks (src ctx : Nat) (t : Task) : Bool := t.remote && t.ctx = ctx && t.srcDie = src && !t.dispatched
/-- The part of a CANCEL in cluster c of die d (R301). -/
def State.cancelIn (s : State) (d : Nat) (p : Packet) (c : Nat) : State :=
  match (s.clusterAt d c).ctxs.find? (fun x => x.fjob = p.fjob) with
  | none => s
  | some x => ((s.updCtx d c x.ctx (CtxCluster.cancelFor p.src)).stopTasks d c (Task.cancelPicks p.src x.ctx)).prune d c
theorem cancelFrom_eq (s : State) (d : Nat) (p : Packet) : s.cancelFrom d p = (List.range (s.ncl d)).foldl (fun s c => s.cancelIn d p c) s := rfl

/-- A cluster where a CANCEL has been: the context of its job is marked, and none of its remote tasks from that die waits to be dispatched. -/
def Cluster.cancelledFor (k : Cluster) (p : Packet) : Prop :=
  ∀ x, k.ctxs.find? (fun x => x.fjob = p.fjob) = some x → p.src ∈ x.cancelSrc ∧
    ∀ u ∈ k.tasks, u.remote = true → u.ctx = x.ctx → u.srcDie = p.src → u.phase = .dispatched ∨ u.phase = .complete

/-- Contexts that agree in what f tells, the job among it, are found alike. -/
theorem find?_fjob_congr {α : Type} {f : CtxCluster → α} {job : α → BitVec 32} (hjob : ∀ x, job (f x) = x.fjob) {l l' : List CtxCluster}
    (h : l'.map f = l.map f) (fjob : BitVec 32) : (l'.find? (fun x => x.fjob = fjob)).map f = (l.find? (fun x => x.fjob = fjob)).map f := by
  have hmap : ∀ l : List CtxCluster, (l.find? (fun x => x.fjob = fjob)).map f = (l.map f).find? (fun m => job m = fjob) := fun l => by
    rw [List.find?_map]
    exact congrArg (fun q => (l.find? q).map f) (funext fun x => by rw [Function.comp_apply, hjob])
  rw [hmap, hmap, h]

theorem keys_updCtx_cancelFor (k : Cluster) (src ctx : Nat) :
    (k.updCtx ctx (CtxCluster.cancelFor src)).ctxs.map CtxCluster.key = k.ctxs.map CtxCluster.key := by
  rw [Cluster.updCtx, mapWhere, List.map_map]
  refine List.map_congr_left fun y _ => ?_
  rw [Function.comp_apply]
  split <;> rfl
theorem find?_updCtx_cancelFor {k : Cluster} {fjob : BitVec 32} {x : CtxCluster} (h : k.ctxs.find? (fun x => x.fjob = fjob) = some x) (src : Nat) :
    (k.updCtx x.ctx (CtxCluster.cancelFor src)).ctxs.find? (fun x => x.fjob = fjob) = some (x.cancelFor src) := by
  have hjob : (fun y : CtxCluster => decide (y.fjob = fjob)) ∘ (fun y => if decide (y.ctx = x.ctx) = true then y.cancelFor src else y) =
      fun y => decide (y.fjob = fjob) := by
    funext y
    rw [Function.comp_apply]
    split <;> rfl
  rw [Cluster.updCtx, mapWhere, List.find?_map, hjob, h, Option.map_some, if_pos (decide_eq_true rfl)]

/-- A cluster is as after the CANCEL once its context is marked and the picked tasks have gone that were not COMPLETE. -/
theorem cancelledFor_of_clears {k k' : Cluster} {p : Packet} {x : CtxCluster} (hclears : k.Clears k')
    (hfind : k.ctxs.find? (fun x => x.fjob = p.fjob) = some x) (hmarked : p.src ∈ x.cancelSrc)
    (hgone : ∀ v ∈ k.tasks, v.cancelPicks p.src x.ctx = true → v.phase ≠ .complete → ∀ u ∈ k'.tasks, u.id ≠ v.id) : k'.cancelledFor p := by
  intro y hy
  have hmarks := find?_fjob_congr (f := CtxCluster.marks) (job := fun m => m.1.2) (fun _ => rfl) hclears.marks p.fjob
  rw [hy, hfind] at hmarks
  obtain ⟨hkey, hsrc⟩ := Prod.mk.inj (Option.some.inj hmarks)
  have hctx : y.ctx = x.ctx := congrArg Prod.fst hkey
  refine ⟨by rwa [hsrc], fun u hu hremote huctx hudie => ?_⟩
  by_contra hphase
  obtain ⟨v, hv, hident⟩ := hclears.tasks u hu
  simp only [Task.ident, Prod.mk.injEq] at hident
  obtain ⟨hid, hvremote, hvctx, hvdie, hvunder⟩ := hident
  have hwaits : v.underway = false := by
    rw [← hvunder]
    simpa [Task.underway] using hphase
  simp only [Task.underway, Bool.or_eq_false_iff, beq_eq_false_iff_ne] at hwaits
  refine hgone v hv ?_ hwaits.2 u hu hid
  simp [Task.cancelPicks, Task.dispatched, hwaits.1, ← hvremote, hremote, ← hvctx, huctx, hctx, ← hvdie, hudie]

theorem cancelIn_cancels (s : State) (d : Nat) (p : Packet) (c : Nat) : let t := s.cancelIn d p c
    StopsIn d c s t ∧ (t.clusterAt d c).ctxs.map CtxCluster.key = (s.clusterAt d c).ctxs.map CtxCluster.key ∧ (t.clusterAt d c).cancelledFor p := by
  intro t
  cases hfind : (s.clusterAt d c).ctxs.find? (fun x => x.fjob = p.fjob) with
  | none =>
    have ht : t = s := by simp only [t, State.cancelIn, hfind]
    rw [ht]
    exact ⟨.refl d c s, rfl, fun x hx => absurd (hfind.symm.trans hx) (Option.some_ne_none x).symm⟩
  | some x =>
    let s1 := s.updCtx d c x.ctx (CtxCluster.cancelFor p.src)
    let picked := (s1.clusterAt d c).tasks.filter (Task.cancelPicks p.src x.ctx)
    let s2 := picked.foldl (fun s t => s.stopTask d c t) s1
    have ht : t = s2.prune d c := by
      simp only [t, State.cancelIn, hfind]
      rfl
    have hmarked : StopsIn d c s s1 := stopsIn_updCluster d c s _ fun k => updCtx_place k _ _
    have h1 : s1.clusterAt d c = (s.clusterAt d c).updCtx x.ctx (CtxCluster.cancelFor p.src) := clusterAt_updCluster s d c _ fun k => updCtx_place k _ _
    obtain ⟨hstops, hgone⟩ := foldl_stopTask_undispatched d c picked s1 fun t ht =>
      Bool.not_eq_true' _ ▸ (Bool.and_eq_true_iff.1 (List.mem_filter.1 ht).2).2
    have hprune : Discards d c s2 t := ht ▸ discards_updCluster d c s2 _ (fun _ => ⟨rfl, rfl⟩) fun k => clears_prune k _
    obtain ⟨hstopsIn, hclears⟩ := hstops.trans hprune
    have hkeys : (t.clusterAt d c).ctxs.map CtxCluster.key = (s1.clusterAt d c).ctxs.map CtxCluster.key := by
      have := congrArg (List.map Prod.fst) hclears.marks
      rwa [List.map_map, List.map_map] at this
    refine ⟨hmarked.trans hstopsIn, hkeys.trans (h1 ▸ keys_updCtx_cancelFor ..),
      cancelledFor_of_clears hclears (h1 ▸ find?_updCtx_cancelFor hfind p.src) List.mem_cons_self fun v hv hpick hc => ?_⟩
    exact hprune.2.lacks (hgone v (List.mem_filter.2 ⟨hv, hpick⟩) hc)

/-! ## The CANCEL in every cluster -/

theorem foldl_cancelIn (d : Nat) (p : Packet) : ∀ (l : List Nat) (s : State), let t := l.foldl (fun s c => s.cancelIn d p c) s
    SameBytes s t ∧ (∀ e, (s.dieAt e).sameOrder (t.dieAt e)) ∧ ∀ c, (t.clusterAt d c).ctxs.map CtxCluster.key = (s.clusterAt d c).ctxs.map CtxCluster.key ∧
      (c ∈ l ∨ (s.clusterAt d c).cancelledFor p → (t.clusterAt d c).cancelledFor p)
  | [], s => ⟨(OnlyDies.refl s).sameBytes, fun _ => .refl _, fun _ => ⟨rfl, fun h => h.resolve_left List.not_mem_nil⟩⟩
  | n :: l, s => by
    obtain ⟨hstops, hkeys, hcancelled⟩ := cancelIn_cancels s d p n
    obtain ⟨hbytes, horder, hrest⟩ := foldl_cancelIn d p l (s.cancelIn d p n)
    refine ⟨hstops.bytes.trans hbytes, fun e => (hstops.order e).trans (horder e), fun c => ?_⟩
    obtain ⟨hrestKeys, hrestCancelled⟩ := hrest c
    by_cases hc : c = n
    · subst hc
      exact ⟨hrestKeys.trans hkeys, fun _ => hrestCancelled (.inr hcancelled)⟩
    · have hsame : (s.cancelIn d p n).clusterAt d c = s.clusterAt d c := hstops.other (d, c) (by simp [hc])
      rw [hsame] at hrestKeys hrestCancelled
      exact ⟨hrestKeys, fun h => hrestCancelled (h.imp_left fun h => (List.mem_cons.1 h).resolve_left hc)⟩

/-- R301 as claimed. -/
theorem cancel_delivered {s : State} {p : Packet} {d : Nat} (hd : s.dieIndex p.dst = some d) (hturn : s.deliverable d p = true) (hbody : p.body = .cancel) :
    delivers s d p (.cancel p) (fun t k => k = .ack ∧ SameBytes s t ∧
      ∀ c < s.ncl d, ∀ x, (s.clusterAt d c).ctxs.find? (fun x => x.fjob = p.fjob) = some x →
        (∃ y, (t.clusterAt d c).ctxs.find? (fun x => x.fjob = p.fjob) = some y ∧ p.src ∈ y.cancelSrc) ∧
        ∀ u ∈ (t.clusterAt d c).tasks, u.remote = true → u.ctx = x.ctx → u.srcDie = p.src → u.phase = .dispatched ∨ u.phase = .complete) := by
  let s1 := s.accepting d p
  have only : OnlyDies s s1 := onlyDies_accepting s d p
  have hany : s1.deliverAny d p = (s1.cancelFrom d p, .ack) := by
    simp only [State.deliverAny, State.deliver, hbody]
  have honly := onlyDies_answer (s1.cancelFrom d p) d p .ack
  obtain ⟨hbytes, horder, hclusters⟩ := foldl_cancelIn d p (List.range (s1.ncl d)) s1
  rw [← cancelFrom_eq] at hbytes horder hclusters
  refine delivers_of (deliverEvent_takes hd (by rw [hbody]; rfl) hturn : execCancel p s = _) hany (horder d)
    ⟨rfl, (only.sameBytes.trans hbytes).trans honly.sameBytes, fun c hc x hx => ?_⟩
  obtain ⟨hkeys, hcancelled⟩ := hclusters c
  have hcancelled := hcancelled (.inl (List.mem_range.2 (only.ncl d ▸ hc)))
  rw [only.clusterAt] at hkeys
  rw [honly.clusterAt]
  have hfound := find?_fjob_congr (f := CtxCluster.key) (job := fun k => k.2) (fun _ => rfl) hkeys p.fjob
  rw [hx, Option.map_some, Option.map_eq_some_iff] at hfound
  obtain ⟨y, hy, hkey⟩ := hfound
  obtain ⟨hsrc, htasks⟩ := hcancelled y hy
  exact ⟨⟨y, hy, hsrc⟩, fun u hu hremote hctx => htasks u hu hremote (hctx.trans (congrArg Prod.fst hkey).symm)⟩

end Sys2Proof.Machine

namespace Sys2Proof
open Sys2Proof.Machine

/-- Settles O45: a POST goes check by check, each answer leaving with the order of its die kept; a CANCEL goes cluster by cluster, where what it discards is gone
and no other cluster is touched. RETRY behind an earlier POST (log 89), for want of region entries (log 68) and what a task waits for (log 81) are the model's readings. -/
theorem remotePostsAndCancels : Obligations.RemotePostsAndCancels := by
  intro s p d hd hturn id s1
  refine ⟨fun r h g a hbody => ⟨post_noContext hd hturn hbody, fun x hx hctx hsrc => ⟨post_noGrant hd hturn hbody hx hsrc,
    fun w0 hg hh => post_held hd hturn hbody hx hsrc hg hh, fun w0 hg hh => ?_⟩⟩, cancel_delivered hd hturn⟩
  intro own draft
  have hown : (s.accepting d p).clusterAt d p.clu = own := (onlyDies_accepting s d p).clusterAt d p.clu
  have refused {k : RespKind} := post_refused hd hturn hbody hx hsrc hg hh (k := k)
  exact ⟨fun hfull => refused (deliverPost_partitionFull (hown ▸ hfull)), fun hroom f hf => refused (deliverPost_denied (hown ▸ hroom) hf),
    fun q hq hc => ⟨post_admitted hd hturn hbody hx hsrc hg hh hctx hq hc, post_noRoom hd hturn hbody hx hsrc hg hh hctx hq hc⟩⟩

end Sys2Proof
end

section
/-! SUPPORT. O21: what the posting instructions leave when a task is admitted, finds no room, or its context is cancelled (R112–R114, R311–R314). -/

namespace Sys2Proof.Machine

/-! ## Steps 3 to 5 of R311 -/

/-- With nothing set aside and the context not cancelled, room decides between an admission and the ending of a full quota. -/
theorem endsPost_enterTaskHere (s u : State) (nb : Bool) (sd : Reg) (l : Label) (d : Draft) (ha : u.core.aside = none)
    (hc : ∀ x, (u.clusterAt u.core.id.die u.core.id.clu).ctxAt u.core.cid.toNat = some x → x.cancelled = false) :
    let room := (u.clusterAt u.core.id.die u.core.id.clu).hasRoom false u.core.id.core (d.regions.filter (fun r => !r.null)).length
    (room = true → endsPost s nb sd (u.enterTaskHere l d) = .next (u.posted l d nb sd)) ∧
    (room = false → endsPost s nb sd (u.enterTaskHere l d) = .next (if nb then s.afterWrite sd 0 else s.waitsOn .quota)) := by
  intro room
  rw [enterTaskHere_eq u l d ha hc]
  refine ⟨fun h => ?_, fun h => ?_⟩
  · rw [if_pos h, endsPost_admitted]
  · rw [if_neg (Bool.eq_false_iff.1 h), endsPost_full]

/-- The POST of a cancelled context is CANCEL, also between a load and its `resume` (R311, R312). -/
theorem enterTaskHere_cancelled {s : State} {x : CtxCluster} (hp : s.placed) (hx : s.cluster.ctxAt s.core.cid.toNat = some x) (hc : x.cancelled = true)
    (l : Label) (d : Draft) : s.enterTaskHere l d = .fault { cause := .cancel } := by
  have hown : (s.clusterAt s.poster.id.die s.poster.id.clu).ctxAt s.poster.ctx = some x := (congrArg (·.ctxAt s.core.cid.toNat) (clusterAt_here hp)).trans hx
  simp [State.enterTaskHere, State.enterTask, hx, hown, hc]

/-- Between a load and its `resume` a context that is not cancelled finds no entry free (log 39). -/
theorem enterTaskHere_aside {s : State} {x : CtxCluster} (hx : s.cluster.ctxAt s.core.cid.toNat = some x) (hc : x.cancelled = false)
    (ha : s.core.aside ≠ none) (l : Label) (d : Draft) : s.enterTaskHere l d = .ok .full := by
  simp [State.enterTaskHere, hx, hc, Option.isSome_iff_ne_none.2 ha]

/-! ## The posting commands (R112, R113) -/

/-- A posting command: its block's address, what its block is checked to be, and its admission with what its reads have seen. -/
def State.postsDraft (s : State) (o : OpCmd) (r : Res Draft) : Out :=
  endsPost s o.nb o.d ((blockAddr s o.a).bind fun _ => r.bind fun d => s.seesAll.enterTaskHere (cmdLabel o) d)

theorem Res.bind_assoc {α β γ : Type} (r : Res α) (f : α → Res β) (g : β → Res γ) : (r.bind f).bind g = r.bind fun a => (f a).bind g := by
  cases r <;> rfl

/-- With a context loaded the block's address is refused outside 32 bits, then off a multiple of 32. -/
theorem blockAddr_eq {s : State} (hcv : s.core.status.cv = true) (r : Reg) : blockAddr s r =
    if 2 ^ 32 ≤ (s.rd r).toNat then .fault { cause := .spadRange, addr := some (s.rd r) }
    else if (s.rd r).toNat % 32 ≠ 0 then .fault { cause := .misalign, addr := some (s.rd r) } else .ok (s.rd r).toNat := by
  have hhigh : ((s.rd r).toNat / 2 ^ 32 != 0) = true ↔ 2 ^ 32 ≤ (s.rd r).toNat := by
    rw [bne_iff_ne]
    omega
  rw [blockAddr, needCtx_ok hcv, Res.ok_bind]
  simp only [faultAt, hhigh, bne_iff_ne]
  split
  · rfl
  split <;> rfl

/-- An address that passes is the number of its register. -/
theorem blockAddr_bind (s : State) (r : Reg) {α : Type} (f : Nat → Res α) : (blockAddr s r).bind f = (blockAddr s r).bind fun _ => f (s.rd r).toNat := by
  simp only [blockAddr, Res.bind_assoc, Res.ok_bind]

/-- Each command of the table posts what its block is checked to be. -/
theorem exec_postTable (s : State) (o : OpCmd) : ∀ p ∈ postTable s o, exec p.1 s = s.postsDraft o p.2 := by
  have copies (op : Nat) (pat : Word) : postCopy s o op pat =
      s.postsDraft o ((coreLoadEntries s (s.rd o.a).toNat (copyRoles op).length).bind fun es => draftCopy s s.poster op pat es) := by
    rw [postCopy, blockAddr_bind, State.postsDraft, Res.bind_assoc]
    rfl
  have shapes (unload : Bool) : postShape s o unload =
      s.postsDraft o ((readHeaded s (s.rd o.a).toNat shapeEntries).bind fun b => draftShape s s.poster unload b.1 b.2) := by
    rw [postShape, blockAddr_bind, State.postsDraft, Res.bind_assoc]
  have accs (op : Nat) : postAcc s o op =
      s.postsDraft o ((readHeaded s (s.rd o.a).toNat (acRegions op)).bind fun b => draftAcc s s.poster op b.1 b.2) := by
    rw [postAcc, blockAddr_bind, State.postsDraft, Res.bind_assoc]
  simp only [postTable, List.forall_mem_cons]
  exact ⟨copies 0 0, copies 1 _, copies 2 0, copies 3 0, shapes false, shapes true, accs 0, accs 1, accs 2, accs 3, List.forall_mem_nil _⟩

/-- At a block address that is refused. -/
theorem postsDraft_badAddr {s : State} {o : OpCmd} (hcv : s.core.status.cv = true) (r : Res Draft) : let a := s.rd o.a
    (2 ^ 32 ≤ a.toNat → s.postsDraft o r = .next (s.takeFault { cause := .spadRange, addr := some a })) ∧
    (a.toNat < 2 ^ 32 → a.toNat % 32 ≠ 0 → s.postsDraft o r = .next (s.takeFault { cause := .misalign, addr := some a })) := by
  rw [State.postsDraft, blockAddr_eq hcv]
  exact ⟨fun h => by rw [if_pos h]; rfl, fun h1 h2 => by rw [if_neg (not_le.2 h1), if_pos h2]; rfl⟩

/-- At one that passes, the block's checks decide. -/
theorem postsDraft_addr {s : State} {o : OpCmd} (hcv : s.core.status.cv = true) (h1 : (s.rd o.a).toNat < 2 ^ 32) (h2 : (s.rd o.a).toNat % 32 = 0)
    (r : Res Draft) : s.postsDraft o r = endsPost s o.nb o.d (r.bind fun d => s.seesAll.enterTaskHere (cmdLabel o) d) := by
  rw [State.postsDraft, blockAddr_eq hcv, if_neg (not_le.2 h1), if_neg (not_not.2 h2), Res.ok_bind]

theorem postingCommands_hold : postingCommands := by
  intro s o hcv ha own hc a p hp
  rw [exec_postTable s o p hp]
  obtain ⟨hrange, halign⟩ := postsDraft_badAddr hcv p.2
  refine ⟨hrange, halign, fun h1 h2 => ?_⟩
  rw [postsDraft_addr hcv h1 h2]
  refine ⟨fun f hf => by rw [hf]; rfl, fun d hd => ?_⟩
  rw [hd, Res.ok_bind]
  obtain ⟨hroom, hfull⟩ := endsPost_enterTaskHere s s.seesAll o.nb o.d (cmdLabel o) d ha hc
  exact ⟨fun h => ⟨_, _, hroom h, posted_admittedAs .., rfl, rfl, rfl, rfl, rfl⟩, hfull⟩

theorem cancelledPosts_hold : cancelledPosts := by
  intro s o x hcv hs hx h1 h2 p hp d hd
  rw [exec_postTable s o p hp, postsDraft_addr hcv h1 h2, hd, Res.ok_bind]
  refine ⟨fun hc => ?_, fun hc ha => ?_⟩
  · rw [enterTaskHere_cancelled (s := s.seesAll) hs hx hc]
    rfl
  · rw [enterTaskHere_aside (s := s.seesAll) hx hc ha, endsPost_full]

/-! ## `tb.post` and `rpost` (R298, R303, R311) -/

/-- The record's own fields label its task: TAG, PRI, CLS and its completion flag (R303). -/
theorem recLabel_fields (r : BitVec 512) :
    (recLabel r).tag.toNat = r.toNat / 2 ^ 22 % 2 ^ 16 ∧ (recLabel r).pri.toNat = r.toNat / 2 ^ 49 % 4 ∧ (recLabel r).cls.toNat = r.toNat / 2 ^ 45 % 16 ∧
      (recLabel r).flag = if r.getLsbD 44 then some (BitVec.ofNat 6 (r.toNat / 2 ^ 38 % 64)) else none := by
  have hd : (recD r 0).toNat = r.toNat % 2 ^ 64 := by simp [recD, dword]
  have hfe : recFe r = r.getLsbD 44 := by
    rw [recFe, bit, recD, dword, Nat.mul_zero, Nat.pow_zero, Nat.div_one, BitVec.getLsbD_ofNat]
    rfl
  refine ⟨?_, ?_, ?_, ?_⟩
  · simp only [recLabel, bits, hd, BitVec.toNat_ofNat]
    omega
  · simp only [recLabel, bits, hd, BitVec.toNat_ofNat]
    omega
  · simp only [recLabel, bits, hd, BitVec.toNat_ofNat]
    omega
  · have hflag : bits (recD r 0) 43 38 = r.toNat / 2 ^ 38 % 64 := by
      simp only [bits, hd]
      omega
    simp only [recLabel, hfe, hflag]

/-- `tb.post` posts what the staged task is checked to be. -/
theorem exec_tbPost {s : State} (hcv : s.core.status.cv = true) (o : OpTbPost) {g : Staged} (hg : s.core.builder = some g) :
    exec (.tbPost o) s = endsPost s o.nb o.d ((draftStaged s s.poster g).bind fun d => s.enterTaskHere (recLabel g.rec_) d) := by
  have hstaged : staged s = .ok g := by rw [staged, hg]
  show execTbPost o s = _
  rw [execTbPost, needCtx_ok hcv, Res.ok_bind, hstaged, Res.ok_bind]

/-- With an EMPTY builder it is TASK_FORM. -/
theorem exec_tbPost_empty {s : State} (hcv : s.core.status.cv = true) (o : OpTbPost) (hg : s.core.builder = none) :
    exec (.tbPost o) s = .next (s.takeFault { cause := .taskForm }) := by
  have hstaged : staged s = .fault { cause := .taskForm } := by rw [staged, hg]
  show execTbPost o s = _
  rw [execTbPost, needCtx_ok hcv, Res.ok_bind, hstaged]
  rfl

/-- An admission leaves the builder as it is. -/
theorem posted_builder (s : State) (l : Label) (d : Draft) (nb : Bool) (sd : Reg) : (s.posted l d nb sd).core.builder = s.core.builder := by
  rw [posted_core]
  cases nb <;> rfl

/-- The task that `rpost` posts (R298). -/
def rpostDraft (s : State) (o : OpCmd) (g : Staged) : Draft :=
  { op := .rpost (s.rd o.b) (.post g.rec_ g.header g.regions g.args), regions := [], consumed := [] }

/-- `rpost` with a target and a record that pass their checks. -/
theorem exec_rpost {s : State} (hcv : s.core.status.cv = true) (o : OpCmd) {t : Target} {g : Staged} (ht : checkTarget s (s.rd o.b) = .ok t)
    (h1 : (s.rd o.a).toNat < 2 ^ 32) (h2 : (s.rd o.a).toNat % 64 = 0) (hg : remoteStage s (s.rd o.a).toNat = .ok g) :
    exec (.rpost o) s = endsPost s o.nb o.d (s.seesAll.enterTaskHere (cmdLabel o) (rpostDraft s o g)) := by
  have haddr : recordAddr (s.rd o.a) = .ok (s.rd o.a).toNat := by
    rw [recordAddr, Nat.div_eq_of_lt h1, h2]
    rfl
  show execRpost o s = _
  rw [execRpost, needCtx_ok hcv, Res.ok_bind, ht, Res.ok_bind, haddr, Res.ok_bind, hg, Res.ok_bind]
  rfl

/-- A task of no regions waits for none (R318). -/
theorem ownTask_noRegions (s : State) (l : Label) (d : Draft) (h : d.regions = []) : (s.ownTask l d).phase = .ready := by
  obtain ⟨hready, -⟩ | ⟨-, hwaits⟩ := ownTask_phase s l d
  · exact hready
  · obtain ⟨w, hw⟩ := List.exists_mem_of_ne_nil _ hwaits
    rw [mem_ownTask_waits, h] at hw
    simp [waitsFor] at hw

theorem stagedAndRemotePosts_hold : stagedAndRemotePosts := by
  intro s hcv ha own hc
  refine ⟨fun o => ⟨exec_tbPost_empty hcv o, fun g hg => ?_⟩, fun o t g ht h1 h2 hg => ?_⟩
  · rw [exec_tbPost hcv o hg]
    refine ⟨fun f hf => by rw [hf]; rfl, fun d hd => ?_⟩
    rw [hd, Res.ok_bind]
    obtain ⟨hroom, hfull⟩ := endsPost_enterTaskHere s s o.nb o.d (recLabel g.rec_) d ha hc
    exact ⟨fun h => ⟨_, _, hroom h, posted_admittedAs .., (posted_builder ..).trans hg, recLabel_fields g.rec_⟩, hfull⟩
  · rw [exec_rpost hcv o ht h1 h2 hg]
    obtain ⟨hroom, hfull⟩ := endsPost_enterTaskHere s s.seesAll o.nb o.d (cmdLabel o) (rpostDraft s o g) ha hc
    exact ⟨fun h => ⟨_, _, hroom h, posted_admittedAs .., ownTask_noRegions _ _ _ rfl, rfl, rfl⟩, hfull⟩

end Sys2Proof.Machine

namespace Sys2Proof
open Sys2Proof.Machine

/-- Settles O21: a posting command is its checked block entered with what its reads have seen; `tb.post` enters the staged task under the record's label, `rpost` a task of
no regions. That no task is admitted between a load and its `resume` (log 39) and that `rpost` copies the arguments at issue (log 99) are the model's choices. -/
theorem postedTasks : Obligations.PostedTasks :=
  ⟨postingCommands_hold, cancelledPosts_hold, stagedAndRemotePosts_hold⟩

end Sys2Proof
end

section
/-! SUPPORT. O43 fails on a cluster that lists two tasks under one number: a chunk's end is recorded in every entry of the engine's number, and each
entry judges by its own element size whether it stands at a chunk's end and lets go of the units of other dies it has read (R123, R278). -/

namespace Sys2Proof.Machine

/-- A line of 512 elements of own scratchpad, to be written. -/
def lineOf (es : Nat) : Region := ⟨false, false, true, false, .spad, es, 0x1000, [(512, es)], 0⟩
/-- A fill of 512 elements of a scratchpad, DISPATCHED as task 3, with one element of its chunk left to write. -/
def fillOf (es : Nat) (units : List (Nat × BitVec 512 × Bool)) : Task :=
  { id := 3, ctx := 0, core := 0, remote := false, srcDie := 0, fjob := 0, op := .copy 1 0xAB, phase := .dispatched, waits := []
    regions := [lineOf es], tag := 0, pri := 0, cls := 0, flag := none, rm := 0, kt := 0, bindings := []
    policy := 2, count := 0, flags := 0, resume := .copy 511 0 [], stop := false, entries := 1, orders := [], hbmUnits := units }

/-- The module after reset, with two fills under number 3: the first, which copy engine 0 has, moves bytes, and the second doublewords, with a unit of another
die at hand. -/
def State.twoThrees : State := { State.reset with
  cluster := { State.reset.cluster with tasks := [fillOf 1 [], fillOf 8 [(7, 0, false)]], copy0 := some 3 } }

/-- The engine finds the first of them. -/
theorem copyEngine_twoThrees : State.twoThrees.cluster.copyEngine 0 = some (fillOf 1 []) := by decide +kernel

/-- The tasks of the acting core's cluster after an outcome. -/
def tasksAfter (o : Out) : List Task := match o with
  | .next u => u.cluster.tasks
  | _ => []

/-- The chunk of the first ends at byte 512, in the middle of 4,096; for the second, element 512 ends a chunk, and its unit is gone. -/
theorem units_after_twoThrees : (tasksAfter (exec (.copyChunk 0) State.twoThrees)).map (fun k => (k.resume, k.hbmUnits)) =
    [(.copy 512 0 [], []), (.copy 512 0 [], [])] := by decide +kernel

end Sys2Proof.Machine

namespace Sys2Proof
open Sys2Proof.Machine

/-- The clause on box copies and fills fails: it lets the second task keep its unit. -/
theorem not_copyChunks : ¬ copyChunks := by
  intro h
  obtain ⟨u, hu, -, -, -, -, htasks⟩ := h State.twoThrees 0 (fillOf 1 []) 0xAB (lineOf 1) (lineOf 1) ⟨rfl, rfl, rfl⟩ (by decide) copyEngine_twoThrees (.inr ⟨rfl, rfl⟩)
    rfl rfl (by decide) (by decide) rfl rfl rfl (.inl (by decide))
  have hunits := units_after_twoThrees
  rw [hu, tasksAfter, htasks] at hunits
  revert hunits
  decide +kernel

/-- Refutes O43: where a cluster lists two tasks under one number, the byte fill that the engine has ends its chunk at byte 512, and the doubleword fill behind it
lets go of its unit of another die, which the statement, judging by the engine's element size, has it keep. The statement wants a premise that the numbers of a
cluster's tasks are distinct, as the one of `TasksByTag`. -/
theorem not_copyAndMatrixTasks : ¬ Obligations.CopyAndMatrixTasks := by
  rintro ⟨chunks, -⟩
  exact not_copyChunks chunks

end Sys2Proof
end

section
/-! SUPPORT. O2: comparisons, bit fields, bit counts and the reversal of bytes, as numbers and bit by bit (R147, R148). -/

namespace Sys2Proof.Machine

/-! ## Comparisons (R148) -/

/-- A Boolean that says whether p holds, as a word. -/
theorem ofBool_eq_ite {b : Bool} {p : Prop} [Decidable p] (h : b = true ↔ p) : ofBool b = if p then 1 else 0 := if_congr h rfl rfl

theorem beq_iff_toNat (a b : Word) : (a == b) = true ↔ a.toNat = b.toNat := beq_iff_eq.trans BitVec.toNat_inj.symm

/-- Unequal is not equal. -/
theorem ofBool_bne (a b : Word) : ofBool (a != b) = if a.toNat = b.toNat then 0 else 1 :=
  (ofBool_eq_ite (bne_iff_ne.trans BitVec.toNat_inj.symm.not)).trans (ite_not ..)

/-- An immediate is the integer it stands for. -/
theorem toInt_sx (m : BitVec 28) : (sx m).toInt = m.toInt := BitVec.toInt_signExtend_of_le (by decide)

theorem comparisonsAndSelect_hold : comparisonsAndSelect := by
  refine ⟨fun s o => ⟨?_, ?_, ?_, ?_, ?_, ?_⟩, fun s o => ⟨?_, ?_, ?_⟩, fun s o => ?_⟩
  · exact exec_writes rfl (ofBool_eq_ite (beq_iff_toNat _ _))
  · exact exec_writes rfl (ofBool_bne _ _)
  · exact exec_writes rfl (ofBool_eq_ite BitVec.slt_iff_toInt_lt)
  · exact exec_writes rfl (ofBool_eq_ite BitVec.ult_iff_toNat_lt)
  · exact exec_writes rfl (ofBool_eq_ite BitVec.sle_iff_toInt_le)
  · exact exec_writes rfl (ofBool_eq_ite BitVec.ule_iff_toNat_le)
  · exact exec_writes rfl (ofBool_eq_ite (by rw [beq_iff_eq, ← BitVec.toInt_inj, toInt_sx]))
  · exact exec_writes rfl (ofBool_eq_ite (by rw [BitVec.slt_iff_toInt_lt, toInt_sx]))
  · exact exec_writes rfl (ofBool_eq_ite BitVec.ult_iff_toNat_lt)
  · exact exec_writes rfl (ite_not ..)

/-! ## Bit fields (R147) -/

/-- A field extended by its top bit. -/
theorem toSigned_fieldOf (a : Word) (pos len : Nat) : let f := a.toNat / 2 ^ pos % 2 ^ len
    toSigned len (fieldOf a pos len) = if f < 2 ^ (len - 1) then (f : Int) else f - 2 ^ len := by
  intro f
  have low : fieldOf a pos len % 2 ^ len = f := Nat.mod_mod _ _
  simp only [toSigned, low, Nat.cast_pow, Nat.cast_ofNat]

/-- The mask of a field. -/
theorem getLsbD_fieldMask {pos len i : Nat} (hi : i < 64) :
    (BitVec.ofNat 64 ((2 ^ len - 1) * 2 ^ pos)).getLsbD i = decide (pos ≤ i ∧ i < pos + len) := by
  rw [BitVec.getLsbD_ofNat, decide_eq_true hi, Bool.true_and, Nat.testBit_mul_two_pow, Nat.testBit_two_pow_sub_one, ← Bool.decide_and]
  exact decide_eq_decide.2 (by omega)

theorem getLsbD_insertField (d a : Word) {pos len i : Nat} (hi : i < 64) :
    (insertField d a pos len).getLsbD i = if pos ≤ i ∧ i < pos + len then a.getLsbD (i - pos) else d.getLsbD i := by
  rw [insertField, BitVec.getLsbD_or, BitVec.getLsbD_and, BitVec.getLsbD_and, BitVec.getLsbD_not, BitVec.getLsbD_shiftLeft, getLsbD_fieldMask hi]
  by_cases h : pos ≤ i ∧ i < pos + len
  · simp [h, hi, Nat.not_lt.2 h.1]
  · simp [h, hi]

/-! ## Bit counts (R147) -/

/-- The bits counted as leading zeros are zero, and the bit below them is one. -/
theorem clzWord_spec (a : Word) : clzWord a ≤ 64 ∧ (∀ i < 64, 64 - clzWord a ≤ i → a.getLsbD i = false) ∧
    (clzWord a < 64 → a.getLsbD (63 - clzWord a) = true) := by
  unfold clzWord
  split
  · next h => exact ⟨le_rfl, fun i _ _ => by rw [h]; exact BitVec.getLsbD_zero, fun h => absurd h (lt_irrefl _)⟩
  · next h =>
    have ha : a.toNat ≠ 0 := fun e => h (BitVec.eq_of_toNat_eq e)
    have top : Nat.log2 a.toNat < 64 := (Nat.log2_lt ha).2 a.isLt
    refine ⟨by omega, fun i _ hi => Nat.testBit_lt_two_pow ((Nat.log2_lt ha).1 (by omega)), fun _ => ?_⟩
    rw [show 63 - (63 - Nat.log2 a.toNat) = Nat.log2 a.toNat by omega]
    exact Nat.testBit_log2 ha

theorem ctzWord_spec (a : Word) : ctzWord a ≤ 64 ∧ (∀ i < ctzWord a, a.getLsbD i = false) ∧ (ctzWord a < 64 → a.getLsbD (ctzWord a) = true) := by
  unfold ctzWord
  cases h : (List.range 64).find? (fun i => a.getLsbD i) with
  | none =>
    have zero := List.find?_range_eq_none.1 h
    exact ⟨le_rfl, fun i hi => by simpa using zero i hi, fun h => absurd h (lt_irrefl _)⟩
  | some n =>
    obtain ⟨one, hn, zero⟩ := List.find?_range_eq_some.1 h
    exact ⟨(List.mem_range.1 hn).le, fun i hi => by simpa using zero i hi, fun _ => one⟩

/-! ## The reversal of bytes (R147) -/

section
variable (d : Nat → Nat) (hd : ∀ i, d i < 256)
include hd

/-- A number written digit by digit from its highest byte: its byte i is the i-th digit from the last. -/
theorem foldl_bytes : ∀ n i, i < n → (List.range n).foldl (fun v i => v * 256 + d i) 0 / 256 ^ i % 256 = d (n - 1 - i)
  | 0, _, h => absurd h (Nat.not_lt_zero _)
  | n + 1, 0, _ => by
    rw [List.range_succ, List.foldl_append, List.foldl_cons, List.foldl_nil, pow_zero, Nat.div_one, Nat.mul_add_mod_self_right, Nat.mod_eq_of_lt (hd n)]
    rfl
  | n + 1, i + 1, h => by
    rw [List.range_succ, List.foldl_append, List.foldl_cons, List.foldl_nil, pow_succ', ← Nat.div_div_eq_div_mul, Nat.mul_comm _ 256,
      Nat.mul_add_div (by decide), Nat.div_eq_of_lt (hd n), Nat.add_zero, foldl_bytes n i (by omega)]
    congr 1
    omega
theorem foldl_bytes_lt : ∀ n, (List.range n).foldl (fun v i => v * 256 + d i) 0 < 256 ^ n
  | 0 => Nat.one_pos
  | n + 1 => by
    have digit := hd n
    have rest := foldl_bytes_lt n
    rw [List.range_succ, List.foldl_append, List.foldl_cons, List.foldl_nil, pow_succ]
    omega
end

theorem bswapWord_spec (a : Word) : ∀ i < 8, (bswapWord a).toNat / 256 ^ i % 256 = a.toNat / 256 ^ (7 - i) % 256 := by
  intro i hi
  have byte : ∀ i, a.toNat / 256 ^ i % 256 < 256 := fun i => Nat.mod_lt _ (by decide)
  rw [bswapWord, BitVec.toNat_ofNat, show 2 ^ 64 = 256 ^ 8 from rfl, Nat.mod_eq_of_lt (foldl_bytes_lt _ byte 8), foldl_bytes _ byte 8 i hi]

theorem bitFieldsAndCounts_hold : bitFieldsAndCounts := by
  refine ⟨fun s o _ => ?_, fun s o => ?_⟩
  · intro len a f
    exact ⟨exec_writes rfl rfl, exec_writes rfl (congrArg (BitVec.ofInt 64) (toSigned_fieldOf a o.pos.toNat len)),
      _, exec_writes rfl rfl, fun i hi => getLsbD_insertField _ _ hi⟩
  · intro a
    exact ⟨⟨_, exec_writes rfl rfl, clzWord_spec a⟩, ⟨_, exec_writes rfl rfl, ctzWord_spec a⟩, exec_writes rfl rfl,
      _, exec_writes rfl rfl, bswapWord_spec a⟩

end Sys2Proof.Machine

namespace Sys2Proof
open Sys2Proof.Machine

/-- Settles O2, part by part. -/
theorem comparisonsAndBitFields : Obligations.ComparisonsAndBitFields := ⟨comparisonsAndSelect_hold, bitFieldsAndCounts_hold⟩

end Sys2Proof
end

section
/-! SUPPORT. O3: sums, products, minima, maxima and quotients of words as numbers, and the conditions they set (R143, R144). -/

namespace Sys2Proof.Machine

/-! ## Sums, differences and products (R143) -/

theorem add_eq_ofInt (a b : Word) : a + b = BitVec.ofInt 64 (a.toInt + b.toInt) := by
  rw [BitVec.ofInt_add, BitVec.ofInt_toInt, BitVec.ofInt_toInt]

theorem sub_eq_ofInt (a b : Word) : a - b = BitVec.ofInt 64 (a.toInt - b.toInt) := by
  rw [Int.sub_eq_add_neg, BitVec.ofInt_add, BitVec.ofInt_neg, BitVec.ofInt_toInt, BitVec.ofInt_toInt, BitVec.sub_eq_add_neg]

theorem mul_eq_ofNat (a b : Word) : a * b = BitVec.ofNat 64 (a.toNat * b.toNat) := by
  apply BitVec.eq_of_toNat_eq
  rw [BitVec.toNat_mul, BitVec.toNat_ofNat]

/-- The high half of the signed product. -/
theorem mulHigh_eq_ofInt (a b : Word) : mulHigh a b = BitVec.ofInt 64 (a.toInt * b.toInt / 2 ^ 64) := by
  have product : a.signExtend 128 * b.signExtend 128 = BitVec.ofInt 128 (a.toInt * b.toInt) := by
    rw [BitVec.ofInt_mul]
    rfl
  apply BitVec.eq_of_toNat_eq
  rw [mulHigh, product, BitVec.toNat_setWidth, BitVec.toNat_ushiftRight, BitVec.toNat_ofInt, BitVec.toNat_ofInt, Nat.shiftRight_eq_div_pow]
  generalize a.toInt * b.toInt = n
  omega

/-- The high half of the unsigned product. -/
theorem mulHighN_eq_ofNat (a b : Word) : mulHighN a b = BitVec.ofNat 64 (a.toNat * b.toNat / 2 ^ 64) := by
  apply BitVec.eq_of_toNat_eq
  rw [mulHighN, BitVec.toNat_setWidth, BitVec.toNat_ushiftRight, BitVec.toNat_mul, BitVec.toNat_setWidth, BitVec.toNat_setWidth, BitVec.toNat_ofNat,
    Nat.shiftRight_eq_div_pow, ← Nat.mul_mod]
  generalize a.toNat * b.toNat = n
  omega

/-! ## Minima and maxima (R143) -/

/-- Picking one of two words by a test is picking one of two numbers by it, for words made of numbers. -/
theorem ite_eq_of_iff {α : Type} {b : Bool} {p : Prop} [Decidable p] (f : α → Word) (h : b = true ↔ p) {u v : Word} {x y : α} (hx : u = f x) (hy : v = f y) :
    (if b then u else v) = f (if p then x else y) := by
  rw [apply_ite f, ← hx, ← hy]
  exact if_congr h rfl rfl

theorem ofNat_toNat_self (a : Word) : BitVec.ofNat 64 a.toNat = a := by rw [BitVec.ofNat_toNat, BitVec.setWidth_eq]

theorem min_signed (a b : Word) : (if a.sle b then a else b) = BitVec.ofInt 64 (min a.toInt b.toInt) := by
  rw [min_def]
  exact ite_eq_of_iff _ BitVec.sle_iff_toInt_le BitVec.ofInt_toInt.symm BitVec.ofInt_toInt.symm
theorem max_signed (a b : Word) : (if b.sle a then a else b) = BitVec.ofInt 64 (max a.toInt b.toInt) := by
  rw [max_def']
  exact ite_eq_of_iff _ BitVec.sle_iff_toInt_le BitVec.ofInt_toInt.symm BitVec.ofInt_toInt.symm
theorem min_unsigned (a b : Word) : (if a.ule b then a else b) = BitVec.ofNat 64 (min a.toNat b.toNat) := by
  rw [min_def]
  exact ite_eq_of_iff _ BitVec.ule_iff_toNat_le (ofNat_toNat_self a).symm (ofNat_toNat_self b).symm
theorem max_unsigned (a b : Word) : (if b.ule a then a else b) = BitVec.ofNat 64 (max a.toNat b.toNat) := by
  rw [max_def']
  exact ite_eq_of_iff _ BitVec.ule_iff_toNat_le (ofNat_toNat_self a).symm (ofNat_toNat_self b).symm

/-! ## Sticky bits (R143) -/

/-- An instruction that writes a register and sets sticky bits does so, by whatever names the two go. -/
theorem exec_writesSticky {i : Instr} {s : State} {d : Reg} {v w : Word} {f g : Sticky} (h : exec i s = wroteSticky s d v f) (hv : v = w) (hf : f = g) :
    exec i s = .next (s.afterFlags d w g) := by
  rw [h, wroteSticky_eq, hv, hf]

theorem overflow64_iff (v : Int) : overflow64 v = true ↔ overflows v := by
  simp [overflow64, overflows]

/-- The overflow bit is set exactly when the signed result does not fit. -/
theorem stickyIf_overflow64 {v : Int} {f : BitVec 7} (h : f = ioBit ∧ overflows v ∨ f = 0 ∧ ¬ overflows v) : stickyIf (overflow64 v) IOF = f := by
  rcases h with ⟨rfl, h⟩ | ⟨rfl, h⟩
  · exact if_pos ((overflow64_iff v).2 h)
  · exact if_neg (mt (overflow64_iff v).1 h)

theorem integerArithmetic_holds : integerArithmetic := by
  intro s o a b
  exact ⟨exec_writes rfl (BitVec.add_def a b), exec_writes rfl (sub_eq_ofInt a b), exec_writes rfl (mul_eq_ofNat a b), exec_writes rfl (mulHigh_eq_ofInt a b),
    exec_writes rfl (mulHighN_eq_ofNat a b), exec_writes rfl (min_signed a b), exec_writes rfl (max_signed a b), exec_writes rfl (min_unsigned a b),
    exec_writes rfl (max_unsigned a b), fun f hf => exec_writesSticky rfl (add_eq_ofInt a b) (stickyIf_overflow64 hf),
    fun f hf => exec_writesSticky rfl (sub_eq_ofInt a b) (stickyIf_overflow64 hf)⟩

/-! ## Division (R144) -/

/-- The quotient truncated toward zero and its remainder make up the dividend, and the remainder takes the sign of the dividend. -/
theorem tdiv_tmod_spec {a b : Int} (hb : b ≠ 0) : a = a.tdiv b * b + a.tmod b ∧ |a.tmod b| < |b| ∧ (a.tmod b = 0 ∨ (a.tmod b).sign = a.sign) := by
  refine ⟨(Int.tdiv_mul_add_tmod a b).symm, ?_, ?_⟩
  · rw [Int.abs_eq_natAbs, Int.abs_eq_natAbs, Int.natAbs_tmod]
    exact_mod_cast Nat.mod_lt _ (Int.natAbs_pos.2 hb)
  · rw [Int.sign_tmod]
    split
    · next h => exact .inl (Int.tmod_eq_zero_of_dvd h)
    · exact .inr rfl

/-- The one quotient that does not fit, as the model tests for it. -/
theorem overflowing_iff (a b : Word) : (a == BitVec.intMin 64 && b == BitVec.allOnes 64) = true ↔ a.toInt = -(2 ^ 63) ∧ b.toInt = -1 := by
  rw [Bool.and_eq_true, beq_iff_eq, beq_iff_eq, ← BitVec.toInt_inj, ← BitVec.toInt_inj]
  rfl

theorem integerDivision_holds : integerDivision := by
  intro s o a b
  have toInt_ne (hb : b ≠ 0) : b.toInt ≠ 0 := fun e => hb (BitVec.toInt_inj.1 (e.trans BitVec.toInt_zero.symm))
  have noZero (hb : b ≠ 0) : zeroDivFlags b = 0 := if_neg (by simpa using hb)
  refine ⟨fun hb => ?_, fun ⟨ha, hb⟩ => ?_, fun hb => ?_, fun ⟨hb, hfits⟩ => ?_⟩
  · have zero : zeroDivFlags b = idzBit := if_pos (by simpa using hb)
    exact ⟨exec_writesSticky rfl (if_pos hb) (if_pos hb), exec_writesSticky rfl (if_pos hb) zero, exec_writesSticky rfl (if_pos hb) zero,
      exec_writesSticky rfl (if_pos hb) zero⟩
  · have ne : b ≠ 0 := by
      rintro e
      rw [e] at hb
      exact absurd hb (by decide)
    have quotient : divWord a b = a := by
      rw [divWord, if_neg ne, ← BitVec.toInt_inj, hb, ha]
      decide
    have remainder : remWord a b = 0 := by
      rw [remWord, if_neg ne, hb, ha]
      decide
    exact ⟨exec_writesSticky rfl quotient ((if_neg ne).trans (if_pos ((overflowing_iff a b).2 ⟨ha, hb⟩))), exec_writesSticky rfl remainder (noZero ne)⟩
  · exact ⟨exec_writesSticky rfl ((if_neg hb).trans BitVec.udiv_def) (noZero hb), exec_writesSticky rfl ((if_neg hb).trans BitVec.umod_def) (noZero hb)⟩
  · obtain ⟨makeUp, small, sign⟩ := tdiv_tmod_spec (a := a.toInt) (toInt_ne hb)
    exact ⟨_, _, makeUp, small, sign, exec_writesSticky rfl (if_neg hb) ((if_neg hb).trans (if_neg (mt (overflowing_iff a b).1 hfits))),
      exec_writesSticky rfl (if_neg hb) (noZero hb)⟩

end Sys2Proof.Machine

namespace Sys2Proof
open Sys2Proof.Machine

/-- Settles O3, part by part. -/
theorem sumsProductsAndQuotients : Obligations.SumsProductsAndQuotients := ⟨integerArithmetic_holds, integerDivision_holds⟩

end Sys2Proof
end

section
/-! SUPPORT. O7: the order that `fmin` and `fmax` select by, the sign operations, comparisons and classes of floating-point codes (R152, R153, R157). -/

namespace Sys2Proof.Machine

/-- An instruction that writes a code with its conditions writes that code, by whatever name it goes. -/
theorem exec_writesCode {i : Instr} {s : State} {d : Reg} {p : Nat × Sticky} {c : Nat} {fl : BitVec 7} (h : exec i s = wroteCode s d p) (hp : p = (c, fl)) :
    exec i s = .next (s.afterFlags d (BitVec.ofNat 64 c) fl) := by
  rw [h, wroteCode_eq, hp]

/-! ## The order of numbers (R152) -/

theorem fltVal_asymm {x y : FVal} (h : fltVal x y = true) : fltVal y x = false := by
  cases x with
  | nan q => cases h
  | inf a => cases y with
    | nan q => rfl
    | inf b => cases a <;> cases b <;> trivial
    | fin b n k st => cases a <;> trivial
  | fin a m e st => cases y with
    | nan q => rfl
    | inf b => cases b <;> trivial
    | fin b n k st' =>
      simp only [fltVal, decide_eq_true_eq, decide_eq_false_iff_not, min_comm k e] at h ⊢
      exact h.le.not_gt
theorem fltVal_zeros {x y : FVal} (hx : x.isZero = true) (hy : y.isZero = true) : fltVal x y = false := by
  obtain ⟨n, e, rfl⟩ := FVal.eq_zero hx
  obtain ⟨k, z, rfl⟩ := FVal.eq_zero hy
  simp [fltVal]

/-- x is less than y, with −0 less than +0. -/
def FVal.precedes (x y : FVal) : Bool := fltVal x y || (!fltVal y x && x.sign && !y.sign)

theorem FVal.precedes_of_lt {x y : FVal} (h : fltVal x y = true) : x.precedes y = true := by rw [FVal.precedes, h, Bool.true_or]
theorem FVal.precedes_of_zeros {x y : FVal} (hx : x.isZero = true) (hy : y.isZero = true) (sx : x.sign = true) (sy : y.sign = false) :
    x.precedes y = true := by
  rw [FVal.precedes, fltVal_zeros hx hy, fltVal_zeros hy hx, sx, sy]
  rfl
theorem FVal.precedes_asymm {x y : FVal} (h : x.precedes y = true) : y.precedes x = false := by
  unfold FVal.precedes at h ⊢
  cases hxy : fltVal x y with
  | true => simp [fltVal_asymm hxy]
  | false =>
    obtain ⟨⟨hyx, sx⟩, sy⟩ : (fltVal y x = false ∧ x.sign = true) ∧ y.sign = false := by simpa [hxy] using h
    simp [hyx, sx, sy]

theorem FVal.isSnan_of_number {x : FVal} (h : x.isNan = false) : x.isSnan = false := by
  cases x with
  | nan q => cases h
  | inf n => rfl
  | fin n m e st => rfl

section
variable {f : FloatFmt} {a b : Nat} (max : Bool)

/-- A NaN gives way to the other operand, and two give the canonical one. -/
theorem fminCode_nans (hx : (fdecode f a).isNan = true) (hy : (fdecode f b).isNan = true) :
    fminCode f max a b = (f.nan, stickyIf ((fdecode f a).isSnan || (fdecode f b).isSnan) NV) := by
  simp [fminCode, hx, hy]
theorem fminCode_nan_left (hx : (fdecode f a).isNan = true) (hy : (fdecode f b).isNan = false) :
    fminCode f max a b = (b, stickyIf ((fdecode f a).isSnan || (fdecode f b).isSnan) NV) := by
  simp [fminCode, hx, hy]
theorem fminCode_nan_right (hx : (fdecode f a).isNan = false) (hy : (fdecode f b).isNan = true) :
    fminCode f max a b = (a, stickyIf ((fdecode f a).isSnan || (fdecode f b).isSnan) NV) := by
  simp [fminCode, hx, hy]

variable (hx : (fdecode f a).isNan = false) (hy : (fdecode f b).isNan = false)
include hx hy

/-- Of two numbers one is given unchanged, without a condition. -/
theorem fminCode_numbers : fminCode f max a b =
    (if max then if (fdecode f a).precedes (fdecode f b) then b else a else if (fdecode f b).precedes (fdecode f a) then b else a, 0) := by
  simp only [fminCode, hx, hy, FVal.isSnan_of_number hx, FVal.isSnan_of_number hy, FVal.precedes]
  cases max <;> rfl
theorem fminCode_of_precedes (h : (fdecode f a).precedes (fdecode f b) = true) :
    fminCode f false a b = (a, 0) ∧ fminCode f true a b = (b, 0) := by
  simp [fminCode_numbers _ hx hy, h, FVal.precedes_asymm h]
theorem fminCode_of_follows (h : (fdecode f b).precedes (fdecode f a) = true) :
    fminCode f false a b = (b, 0) ∧ fminCode f true a b = (a, 0) := by
  simp [fminCode_numbers _ hx hy, h, FVal.precedes_asymm h]
end

/-- Equal codes leave nothing to select. -/
theorem fminCode_self {f : FloatFmt} {a : Nat} (max : Bool) (hx : (fdecode f a).isNan = false) : fminCode f max a a = (a, 0) := by
  simp [fminCode_numbers max hx hx]

/-! ## The sign bit (R153) -/

theorem two_signBits (f : FloatFmt) : 2 ^ f.width = 2 * f.signBit := by cases f <;> rfl

/-- Negation adds the sign bit, modulo the width. -/
theorem fnegCode_eq {f : FloatFmt} {a : Nat} (ha : a < 2 ^ f.width) : fnegCode f a = (a + f.signBit) % 2 ^ f.width := by
  have hm := Nat.div_add_mod a f.signBit
  rw [two_signBits] at ha ⊢
  have hs : 0 < f.signBit := Nat.two_pow_pos _
  have hr := Nat.mod_lt a hs
  have hq : a / f.signBit < 2 := (Nat.div_lt_iff_lt_mul hs).2 ha
  unfold fnegCode
  obtain h | h := Nat.le_one_iff_eq_zero_or_eq_one.1 (Nat.lt_succ_iff.1 hq)
  · rw [h, Nat.mul_zero, Nat.zero_add] at hm
    rw [h, if_neg (by decide), hm, Nat.mod_eq_of_lt (by omega)]
  · rw [h, Nat.mul_one] at hm
    rw [h, if_pos (by decide), Nat.mod_eq_sub_mod (a := a + f.signBit) (by omega), Nat.mod_eq_of_lt (a := a + f.signBit - 2 * f.signBit) (by omega)]
    omega
theorem fsgnCode_eq {f : FloatFmt} (a : Nat) {b : Nat} (hb : b < 2 ^ f.width) : fsgnCode f a b = a % f.signBit + b / f.signBit * f.signBit := by
  rw [two_signBits] at hb
  rw [fsgnCode, Nat.mod_eq_of_lt (a := b / f.signBit) ((Nat.div_lt_iff_lt_mul (Nat.two_pow_pos _)).2 hb)]

/-! ## The instructions of a format -/

/-- The statement of one format, for instructions that write the code of their operation. -/
theorem floatMinMaxSign_of {f : FloatFmt} {min max sgn : OpRRR → Instr} {abs neg : OpRR → Instr}
    (hmin : ∀ o s, exec (min o) s = wroteCode s o.d (fminCode f false (s.fsrc f o.a) (s.fsrc f o.b)))
    (hmax : ∀ o s, exec (max o) s = wroteCode s o.d (fminCode f true (s.fsrc f o.a) (s.fsrc f o.b)))
    (hsgn : ∀ o s, exec (sgn o) s = wroteCode s o.d (fsgnCode f (s.fsrc f o.a) (s.fsrc f o.b), 0))
    (habs : ∀ o s, exec (abs o) s = wroteCode s o.d (fabsCode f (s.fsrc f o.a), 0))
    (hneg : ∀ o s, exec (neg o) s = wroteCode s o.d (fnegCode f (s.fsrc f o.a), 0)) :
    floatMinMaxSign f min max sgn abs neg := by
  have low (v : Word) : v.toNat % 2 ^ f.width < 2 ^ f.width := Nat.mod_lt _ (Nat.two_pow_pos _)
  refine ⟨fun s o => ?_, fun s o => ?_⟩
  · intro a b x y fl gives
    have min_ {c fl} (h : fminCode f false a b = (c, fl)) : gives (min o) c fl := exec_writesCode (hmin o s) h
    have max_ {c fl} (h : fminCode f true a b = (c, fl)) : gives (max o) c fl := exec_writesCode (hmax o s) h
    have both {c d fl} (h : fminCode f false a b = (c, fl) ∧ fminCode f true a b = (d, fl)) : gives (min o) c fl ∧ gives (max o) d fl := ⟨min_ h.1, max_ h.2⟩
    have invalid : stickyIf (x.isSnan || y.isSnan) NV = fl := stickyIf_snan x y
    rw [← invalid]
    refine ⟨fun ⟨hx, hy⟩ => both ⟨fminCode_nans _ hx hy, fminCode_nans _ hx hy⟩, fun ⟨hx, hy⟩ => both ⟨fminCode_nan_left _ hx hy, fminCode_nan_left _ hx hy⟩,
      fun ⟨hx, hy⟩ => both ⟨fminCode_nan_right _ hx hy, fminCode_nan_right _ hx hy⟩, fun ⟨hx, hy⟩ => ⟨fun h => ?_, fun h => ?_, fun ⟨zx, zy, sx, sy⟩ => ?_,
        fun ⟨zx, zy, sx, sy⟩ => ?_, fun h => ?_⟩, exec_writesCode (hsgn o s) (congrArg (·, 0) (fsgnCode_eq a (low _)))⟩
    · exact both (fminCode_of_precedes hx hy (FVal.precedes_of_lt h))
    · exact both (fminCode_of_follows hx hy (FVal.precedes_of_lt h))
    · exact both (fminCode_of_precedes hx hy (FVal.precedes_of_zeros zx zy sx sy))
    · exact both (fminCode_of_follows hx hy (FVal.precedes_of_zeros zy zx sy sx))
    · exact both (by rw [← h]; exact ⟨fminCode_self _ hx, fminCode_self _ hx⟩)
  · intro a
    exact ⟨exec_writesCode (habs o s) rfl, exec_writesCode (hneg o s) (congrArg (·, 0) (fnegCode_eq (low _)))⟩

theorem floatMinMaxAndSign_hold : floatMinMaxAndSign :=
  ⟨floatMinMaxSign_of (fun _ _ => rfl) (fun _ _ => rfl) (fun _ _ => rfl) (fun _ _ => rfl) (fun _ _ => rfl),
    floatMinMaxSign_of (fun _ _ => rfl) (fun _ _ => rfl) (fun _ _ => rfl) (fun _ _ => rfl) (fun _ _ => rfl)⟩

/-! ## Comparisons and classes (R157) -/

/-- A comparison's result, which says whether p holds, as a word. -/
theorem ofNat_bitOf {b : Bool} {p : Prop} [Decidable p] (h : b = true ↔ p) : BitVec.ofNat 64 (bitOf b) = if p then 1 else 0 := by
  rw [← ofBool_eq_ite h]
  cases b <;> rfl

theorem fltVal_nan {x y : FVal} (h : x.isNan = true ∨ y.isNan = true) : fltVal x y = false := by
  rcases h with h | h <;> obtain ⟨q, rfl⟩ := FVal.eq_nan h
  · rfl
  · cases x <;> rfl
theorem feqVal_nan {x y : FVal} (h : x.isNan = true ∨ y.isNan = true) : feqVal x y = false := by
  rcases h with h | h <;> simp [feqVal, h]
theorem feqVal_numbers {x y : FVal} (hx : x.isNan = false) (hy : y.isNan = false) : feqVal x y = true ↔ ¬ (fltVal x y = true ∨ fltVal y x = true) := by
  simp [feqVal, hx, hy]
/-- Less or equal is not greater. -/
theorem fleVal_numbers {x y : FVal} (hx : x.isNan = false) (hy : y.isNan = false) : (fltVal x y || feqVal x y) = true ↔ ¬ fltVal y x = true := by
  rw [Bool.or_eq_true, feqVal_numbers hx hy]
  cases h : fltVal y x with
  | true => simp [fltVal_asymm h]
  | false => simp

theorem floatCompareAndClass_hold : floatCompareAndClass := by
  refine ⟨fun s o f hf => ?_, fun s o f hf => ?_⟩
  · intro x y gives
    obtain rfl := fmt2_of hf
    have feq_ {v fl} (hv : BitVec.ofNat 64 (bitOf (feqVal x y)) = v) (hfl : anySnan (x, y) = fl) : gives (.feq o) v fl := hv ▸ hfl ▸ wroteCode_eq s o.d _
    have flt_ {v fl} (hv : BitVec.ofNat 64 (bitOf (fltVal x y)) = v) (hfl : anyNan (x, y) = fl) : gives (.flt o) v fl := hv ▸ hfl ▸ wroteCode_eq s o.d _
    have fle_ {v fl} (hv : BitVec.ofNat 64 (bitOf (fltVal x y || feqVal x y)) = v) (hfl : anyNan (x, y) = fl) : gives (.fle o) v fl :=
      hv ▸ hfl ▸ wroteCode_eq s o.d _
    refine ⟨fun h => ?_, fun ⟨hx, hy⟩ => ?_⟩
    · have invalid : anyNan (x, y) = 1 := if_pos (Bool.or_eq_true_iff.2 h)
      refine ⟨feq_ (by rw [feqVal_nan h]; rfl) (stickyIf_snan x y), flt_ (by rw [fltVal_nan h]; rfl) invalid, fle_ (by rw [fltVal_nan h, feqVal_nan h]; rfl) invalid⟩
    · intro lt gt
      have quiet : anySnan (x, y) = 0 := by simp [anySnan, stickyIf, FVal.isSnan_of_number hx, FVal.isSnan_of_number hy]
      have valid : anyNan (x, y) = 0 := by simp [anyNan, stickyIf, hx, hy]
      exact ⟨feq_ ((ofNat_bitOf (feqVal_numbers hx hy)).trans (ite_not ..)) quiet, flt_ (ofNat_bitOf Iff.rfl) valid,
        fle_ ((ofNat_bitOf (fleVal_numbers hx hy)).trans (ite_not ..)) valid⟩
  · intro x gives
    obtain rfl := fmt2_of hf
    have class_ {k c} (h : fclassCode (fmt2 o.ty) (s.fsrc (fmt2 o.ty) o.a) = c) (hk : c = 2 ^ k) : gives k :=
      exec_writesCode rfl (congrArg (·, (0 : BitVec 7)) (h.trans hk))
    have value {v} (hx : x = v) : fdecode (fmt2 o.ty) (s.fsrc (fmt2 o.ty) o.a) = v := hx
    refine ⟨fun hx => ?_, fun hx => ?_, fun hx => ?_, fun hx => ?_, fun n m e hx => ⟨fun hm => ?_, fun ⟨hm, small⟩ => ?_, fun hm => ?_⟩⟩
    · exact class_ (c := 1) (by rw [fclassCode, value hx]; rfl) rfl
    · exact class_ (c := 128) (by rw [fclassCode, value hx]; rfl) rfl
    · exact class_ (c := 256) (by rw [fclassCode, value hx]; rfl) rfl
    · exact class_ (c := 512) (by rw [fclassCode, value hx]; rfl) rfl
    · exact class_ (c := if n then 8 else 16) (by rw [fclassCode, value hx, hm]; rfl) (by cases n <;> rfl)
    · refine class_ (c := if n then 4 else 32) ?_ (by cases n <;> rfl)
      rw [fclassCode, value hx]
      simp [hm.ne', small]
    · refine class_ (c := if n then 2 else 64) ?_ (by cases n <;> rfl)
      have pos : m ≠ 0 := (Nat.two_pow_pos _).trans_le hm |>.ne'
      rw [fclassCode, value hx]
      simp [pos, Nat.not_lt.2 hm]

end Sys2Proof.Machine

namespace Sys2Proof
open Sys2Proof.Machine

/-- Settles O7: selection and sign by format (`floatMinMaxSign_of`), comparisons and classes by the operands' values. -/
theorem floatSelectionAndComparison : Obligations.FloatSelectionAndComparison := ⟨floatMinMaxAndSign_hold, floatCompareAndClass_hold⟩

end Sys2Proof
end

section
/-! SUPPORT. O8: where a branch, a jump and a loop go (R158–R160). -/

namespace Sys2Proof.Machine

/-! ## Targets -/

/-- The PC plus a signed count of words, as an integer. -/
theorem branchTo_eq_ofInt (pc : BitVec 32) {n : Nat} (disp : BitVec n) : branchTo pc disp = BitVec.ofInt 32 (pc.toNat + 8 * disp.toInt) := by
  rw [BitVec.ofInt_add, BitVec.ofInt_mul, BitVec.ofInt_natCast, BitVec.ofNat_toNat, BitVec.setWidth_eq]
  rfl

/-- The link value: the address after the word (R159). -/
theorem link_eq_ofNat (c : Core) : c.link = BitVec.ofNat 64 ((c.pc.toNat + 8) % 2 ^ 32) := by
  rw [Core.link, setWidth_eq_ofNat, BitVec.toNat_add]
  rfl

/-- The target of `jalr`, as a number modulo 2^64. -/
theorem toNat_add_sx (a : Word) {n : Nat} (m : BitVec n) : ((a + sx m).toNat : Int) = (a.toInt + m.toInt) % 2 ^ 64 := by
  rw [add_sx, BitVec.toNat_ofInt]
  omega

/-! ## Branches (R158, R160) -/

section
variable {i : Instr} {s u : State} {taken : Bool} {disp : BitVec 28} (h : exec i s = branched u taken disp)
include h

theorem exec_taken (ht : taken = true) : exec i s = .next (u.afterJump 0 0 (BitVec.ofInt 32 (u.core.pc.toNat + 8 * disp.toInt))) := by
  rw [h, branched, if_pos ht, branchTo_eq_ofInt]
  rfl
theorem exec_notTaken (ht : taken = false) : exec i s = .next u.afterNext := by
  rw [h, branched, ht, if_neg Bool.false_ne_true, passed_eq]
end

/-- A branch whose test says whether p holds goes where p says. -/
theorem exec_branch {i : Instr} {s : State} {taken : Bool} {disp : BitVec 28} {p : Prop} (h : exec i s = branched s taken disp) (hp : taken = true ↔ p) :
    (p → exec i s = .next (s.afterJump 0 0 (BitVec.ofInt 32 (s.core.pc.toNat + 8 * disp.toInt)))) ∧ (¬ p → exec i s = .next s.afterNext) :=
  ⟨fun ht => exec_taken h (hp.2 ht), fun ht => exec_notTaken h (Bool.eq_false_iff.2 (mt hp.1 ht))⟩

theorem wr_afterJump (s : State) (d : Reg) (v : Word) (pc : BitVec 32) : (s.wr d v).afterJump 0 0 pc = s.afterJump d v pc := (State.wr_goto s d v pc :)
theorem wr_afterNext (s : State) (d : Reg) (v : Word) : (s.wr d v).afterNext = s.afterWrite d v := (State.wr_advance s d v :)

/-- A loop adds one to its counter and branches while it is below the bound (R160). -/
theorem exec_loop (s : State) (o : OpBr) : let a := s.rd o.a; let b := s.rd o.b
    ((a.toNat + 1) % 2 ^ 64 < b.toNat → exec (.loop o) s = .next (s.afterJump o.a (a + 1) (BitVec.ofInt 32 (s.core.pc.toNat + 8 * o.disp.toInt)))) ∧
    (¬ (a.toNat + 1) % 2 ^ 64 < b.toNat → exec (.loop o) s = .next (s.afterWrite o.a (a + 1))) := by
  intro a b
  have run : exec (.loop o) s = branched (s.wr o.a (a + 1)) ((a + 1).ult b) o.disp := rfl
  have below : (a + 1).ult b = true ↔ (a.toNat + 1) % 2 ^ 64 < b.toNat := by
    rw [BitVec.ult_iff_toNat_lt, BitVec.toNat_add]
    rfl
  refine ⟨fun h => ?_, fun h => ?_⟩
  · rw [exec_taken run (below.2 h), wr_afterJump, State.wr_core_pc]
  · rw [exec_notTaken run (Bool.eq_false_iff.2 (mt below.1 h)), wr_afterNext]

/-! ## Jumps (R159) -/

/-- `jalr` checks its target and goes there. -/
theorem exec_jalr (s : State) (o : OpJalr) : let t := s.rd o.a + sx o.off
    exec (.jalr o) s = if t.toNat % 8 ≠ 0 then .next (s.takeFault { cause := .misalign })
      else if 2 ^ 32 ≤ t.toNat then .next (s.takeFault { cause := .spadRange })
      else .next (s.afterJump o.d s.core.link (t.setWidth 32)) := by
  intro t
  have run : exec (.jalr o) s = ends s ((faultIf (t.toNat % 8 != 0) .misalign).bind fun _ => (faultIf (t.toNat / 2 ^ 32 != 0) .spadRange).bind fun _ =>
    .ok ((s.wr o.d s.core.link).goto (t.setWidth 32))) := rfl
  have misaligned : (t.toNat % 8 != 0) = decide (t.toNat % 8 ≠ 0) := by rw [Bool.eq_iff_iff, bne_iff_ne, decide_eq_true_eq]
  have high : (t.toNat / 2 ^ 32 != 0) = decide (2 ^ 32 ≤ t.toNat) := by
    rw [Bool.eq_iff_iff, bne_iff_ne, decide_eq_true_eq]
    omega
  rw [run, misaligned, high]
  split
  · next h => rw [decide_eq_true h]; rfl
  · next h =>
    rw [decide_eq_false h]
    split
    · next h => rw [decide_eq_true h]; rfl
    · next h => rw [decide_eq_false h, faultIf_false, Res.ok_bind, faultIf_false, Res.ok_bind, ends_ok, State.wr_goto]

theorem branchesAndJumps_hold : branchesAndJumps := by
  refine ⟨fun s o => ?_, fun s o => ?_, fun s o => ?_⟩
  · intro a b dest goes
    exact ⟨exec_branch rfl (beq_iff_toNat a b), exec_branch rfl (bne_iff_ne.trans BitVec.toNat_inj.symm.not), exec_branch rfl BitVec.slt_iff_toInt_lt,
      exec_branch rfl BitVec.sle_iff_toInt_le, exec_branch rfl BitVec.ult_iff_toNat_lt, exec_branch rfl BitVec.ule_iff_toNat_le, exec_loop s o⟩
  · show Host.Outcome.next ((s.wr o.d s.core.link).goto (branchTo s.core.pc o.imm)).settled = _
    rw [State.wr_goto, link_eq_ofNat, branchTo_eq_ofInt]
  · intro t ⟨aligned, low⟩
    have target : ((s.rd o.a + sx o.off).toNat : Int) = t := toNat_add_sx _ _
    rw [exec_jalr, if_neg (by omega), if_neg (by omega), link_eq_ofNat, ← BitVec.ofNat_toNat, ← target, BitVec.ofInt_natCast]

theorem jumpTargetFaults_hold : jumpTargetFaults := by
  intro s o t
  refine ⟨fun h => ?_, fun h h' => ?_⟩
  · exact (exec_jalr s o).trans (if_pos h)
  · exact (exec_jalr s o).trans ((if_neg (not_not.2 h)).trans (if_pos h'))

end Sys2Proof.Machine

namespace Sys2Proof
open Sys2Proof.Machine

/-- Settles O8, part by part. -/
theorem controlFlow : Obligations.ControlFlow := ⟨branchesAndJumps_hold, jumpTargetFaults_hold⟩

end Sys2Proof
end

section
/-! SUPPORT. O33: what containment leaves of a core that has let its context go (R379, R391, R392). -/

namespace Sys2Proof.Machine

/-! ## A core at rest -/

/-- From c to k a core keeps its number and registers, and takes up no context, no save and no wait. -/
structure Core.Rests (c k : Core) : Prop where
  id : k.id = c.id
  regs : k.regs = c.regs
  cv : c.status.cv = false → k.status.cv = false
  saving : c.saving = false → k.saving = false
  stall : c.stall = none → k.stall = none

theorem Core.Rests.refl (c : Core) : c.Rests c := ⟨rfl, rfl, fun h => h, fun h => h, fun h => h⟩
theorem Core.Rests.trans {c k l : Core} (h : c.Rests k) (h' : k.Rests l) : c.Rests l :=
  ⟨h'.id.trans h.id, h'.regs.trans h.regs, h'.cv ∘ h.cv, h'.saving ∘ h.saving, h'.stall ∘ h.stall⟩
theorem rests_ite (p : Prop) [Decidable p] {c k l : Core} (hk : c.Rests k) (hl : c.Rests l) : c.Rests (if p then k else l) := by
  split
  · exact hk
  · exact hl
theorem rests_halt (c : Core) : c.Rests c.halt := ⟨rfl, rfl, id, fun _ => rfl, fun _ => rfl⟩

/-- The same of the acting core, from s to t. -/
def State.Rests (s t : State) : Prop := s.core.Rests t.core

theorem State.Rests.refl (s : State) : s.Rests s := Core.Rests.refl _
theorem State.Rests.trans {s t u : State} (h : s.Rests t) (h' : t.Rests u) : s.Rests u := Core.Rests.trans h h'
theorem State.Rests.of_core {s t : State} (h : t.core = s.core) : s.Rests t := by
  rw [State.Rests, h]
  exact .refl _
theorem State.Rests.ite (p : Prop) [Decidable p] {s t u : State} (ht : s.Rests t) (hu : s.Rests u) : s.Rests (if p then t else u) := by
  split
  · exact ht
  · exact hu
theorem State.Rests.foldl {α : Type} (g : State → α → State) (hg : ∀ (s : State) a, s.Rests (g s a)) : ∀ (l : List α) (s : State), s.Rests (l.foldl g s)
  | [], s => .refl s
  | a :: l, s => (hg s a).trans (State.Rests.foldl g hg l (g s a))

/-! ## Cores, clusters, dies and the host -/

theorem rests_updCore (s : State) (id : CoreId) {f : Core → Core} (hf : ∀ c : Core, c.Rests (f c)) : s.Rests (s.updCore id f) := by
  unfold State.updCore
  split
  · exact hf s.core
  · split <;> exact .refl s
theorem rests_updCluster (s : State) (d c : Nat) (f : Cluster → Cluster) : s.Rests (s.updCluster d c f) := .of_core (updCluster_core s d c f)
theorem rests_updDie (s : State) (d : Nat) (f : Die → Die) : s.Rests (s.updDie d f) := .of_core (onlyDies_updDie s d f).core
theorem rests_updJob (s : State) (ctx : Nat) (f : Job → Job) : s.Rests (s.updJob ctx f) := .refl s
theorem rests_updSave (s : State) (ctx : Nat) (id : CoreId) (f : SaveArea → SaveArea) : s.Rests (s.updSave ctx id f) := .refl s
theorem rests_onlyHost {s t : State} (h : onlyHost s t) : s.Rests t := .of_core h.core

/-! ## Tasks that are stopped (R327) -/

theorem rests_orSticky (s : State) (id : CoreId) (ctx : Nat) (f : Sticky) : s.Rests (s.orSticky id ctx f) :=
  .ite _ (rests_updCore s id fun _ => ⟨rfl, rfl, fun h => h, fun h => h, fun h => h⟩) (rests_updCluster ..)
theorem rests_endTask (s : State) (d c : Nat) (t : Task) : s.Rests (s.endTask d c t false) := by
  have unraised : s.endTask d c t false =
      ((s.orSticky (taskCore d c t) t.ctx t.flags).updCluster d c (fun k => k.release t.id)).updCore (taskCore d c t) (fun k => k.dropRun t) := by
    unfold State.endTask
    cases t.flag <;> rfl
  rw [unraised]
  exact ((rests_orSticky ..).trans (rests_updCluster ..)).trans (rests_updCore _ _ fun _ => ⟨rfl, rfl, id, id, id⟩)
theorem rests_dropPosts (s : State) (id : CoreId) (ids : List Nat) : s.Rests (s.dropPosts id ids) :=
  (rests_updDie ..).trans (rests_updCore _ _ fun _ => ⟨rfl, rfl, fun h => h, fun h => h, fun h => h⟩)
theorem rests_stopTask (s : State) (d c : Nat) (t : Task) : s.Rests (s.stopTask d c t) :=
  .ite _ (.refl s) (.ite _ ((rests_dropPosts ..).trans (rests_endTask ..)) (rests_updCluster ..))
theorem rests_stopTasks (s : State) (d c : Nat) (p : Task → Bool) : s.Rests (s.stopTasks d c p) := .foldl _ (fun s t => rests_stopTask s d c t) _ s
theorem rests_stopCoreTasks (s : State) (id : CoreId) (ctx : Nat) : s.Rests (s.stopCoreTasks id ctx) := rests_stopTasks ..
theorem rests_dropSaved (s : State) (ctx : Nat) (id : CoreId) : s.Rests (s.dropSaved ctx id) :=
  (rests_updSave ..).trans (rests_updCore _ _ fun _ => ⟨rfl, rfl, fun h => h, fun h => h, fun h => h⟩)
theorem rests_prune (s : State) (d c : Nat) : s.Rests (s.prune d c) := rests_updCluster ..
theorem rests_cancelOn (s : State) (ctx d c : Nat) : s.Rests (s.cancelOn ctx d c) :=
  ((rests_updCluster ..).trans (.foldl _ (fun s k => rests_dropSaved s ctx ⟨d, c, k⟩) _ _)).trans (rests_stopTasks ..)
theorem rests_inject (s : State) (d : Nat) (p : Packet) : s.Rests (s.inject d p) := rests_updDie ..
theorem rests_flushCancels (s : State) (d : Nat) : s.Rests (s.flushCancels d) :=
  .foldl _ (fun s _ => .ite (s := s) _ ((rests_updDie ..).trans (rests_inject ..)) (.refl s)) _ s
theorem rests_sendCancels (s : State) (j : Job) : s.Rests (s.sendCancels j) := by
  refine .foldl _ (fun s p => .foldl _ (fun s n => ?_) _ s) _ s
  exact (rests_updDie { s with modul := { s.modul with nextUid := s.modul.nextUid + 1 } } ..).trans (rests_flushCancels ..)

/-! ## Kills (R379) -/

theorem rests_endProgram (s : State) (ctx : Nat) (id : CoreId) : s.Rests (s.endProgram ctx id) :=
  (rests_updJob ..).trans (.ite _ (rests_updCore _ _ fun c => rests_ite _ (.refl c) (rests_halt c)) (.refl _))
theorem rests_reportJob (s : State) (ctx : Nat) (cause : Cause) : s.Rests (s.reportJob ctx cause) := rests_updJob ..
theorem rests_killCore (s : State) (ctx : Nat) (id : CoreId) (cause : Cause) (own : Bool) : s.Rests (s.killCore ctx id cause own) := by
  have reported := (rests_endProgram s ctx id).trans (rests_reportJob _ ctx cause)
  have stopped := (reported.trans (rests_dropSaved _ ctx id)).trans (rests_stopCoreTasks _ id ctx)
  refine (stopped.trans (rests_prune _ id.die id.clu)).trans (rests_updCore _ id (f := fun c => if c.holds ctx && own then c.halt else c) fun c => ?_)
  exact rests_ite _ (rests_halt c) (.refl c)
theorem rests_killJob (s : State) (ctx : Nat) (cause : Cause) : s.Rests (s.killJob ctx cause) := by
  unfold State.killJob
  split
  · exact .refl s
  · split
    · exact .refl s
    · next j _ _ =>
      have marked := (rests_reportJob s ctx cause).trans (rests_updJob _ ctx (fun j => { j with killed := true }))
      have cancelled := State.Rests.foldl (fun s (k : Nat × Nat) => s.cancelOn ctx k.1 k.2) (fun s k => rests_cancelOn s ctx k.1 k.2) j.clusters
      exact (marked.trans (cancelled _)).trans (rests_sendCancels _ j)
theorem rests_tenantError (s : State) (fn q : Nat) : s.Rests (s.tenantError fn q) := by
  refine rests_onlyHost ?_
  unfold State.tenantError
  dsimp only
  split
  · exact (onlyHost_updQueue ..).trans (onlyHost_writeStatus ..)
  · split
    · exact onlyHost_updQueue ..
    · exact (onlyHost_updQueue ..).trans (onlyHost_writeStatus ..)
  · exact onlyHost_queueError ..
theorem rests_killTenant (s : State) (fn : Nat) (cause : Cause) : s.Rests (s.killTenant fn cause) :=
  (State.Rests.foldl _ (fun s (j : Job) => rests_killJob s j.ctx cause) _ s).trans (.foldl _ (fun s q => rests_tenantError s fn q) _ _)
theorem rests_offerTenant (s : State) (fn : Nat) (cause : Cause) : s.Rests (s.offerTenant fn cause) :=
  .ite _ ((rests_killTenant ..).trans (rests_onlyHost (onlyHost_updFn ..))) (rests_killTenant ..)

/-! ## A checkpoint (R391) -/

theorem rests_takeOff (s : State) (ctx : Nat) (id : CoreId) : s.Rests (s.takeOff ctx id) :=
  ((rests_dropPosts ..).trans (rests_updCluster ..)).trans (rests_updCore _ _ fun _ =>
    rests_ite _ ⟨rfl, rfl, fun _ => rfl, fun _ => rfl, fun _ => rfl⟩ ⟨rfl, rfl, fun h => h, fun h => h, fun h => h⟩)
theorem rests_putBack (s : State) (ctx : Nat) (id : CoreId) (a : SaveArea) : s.Rests (s.putBack ctx id a) := by
  have owned : s.Rests ((s.updJob ctx (fun j => { j with saves := assocSet j.saves id a, gens := assocSet j.gens id a.gen })).updCtx id.die id.clu ctx
      (fun x => { x with slotOwner := giveTo x.slotOwner a.ownSlots id.core, tileOwner := giveTo x.tileOwner a.ownTiles id.core })) :=
    (rests_updJob ..).trans (rests_updCluster ..)
  unfold State.putBack
  split
  · exact owned
  · exact owned.trans (rests_updCluster ..)

/-- Acting as another core and then as itself again, a core is as it was, whatever the other did in the meantime. -/
theorem actAs_back {s u : State} {id : CoreId} (h : s.core.id ≠ id) (hid : u.core.id = id) (hparked : u.parked = (s.actAs id).parked) :
    (u.actAs s.core.id).core = s.core := by
  have parked : (s.actAs id).parked = s.core :: s.parked.filter (fun c => c.id ≠ id) := by rw [State.actAs, if_neg h]
  rw [State.actAs, if_neg (hid.trans_ne h.symm)]
  dsimp only
  rw [State.coreAt, if_neg (hid.trans_ne h.symm), hparked, parked, List.find?_cons_of_pos (by simp)]
  rfl
theorem loadCtx_parked (s : State) (ctx : Nat) (a : SaveArea) : (s.loadCtx ctx a).parked = s.parked := by
  unfold State.loadCtx
  split <;> rfl
/-- A core that goes on from its checkpoint leaves the acting core, where that is another. -/
theorem goOn_core {s : State} {id : CoreId} (h : s.core.id ≠ id) (ctx : Nat) (a : SaveArea) : (s.goOn ctx id a).core = s.core := by
  have acting : (s.actAs id).core.id = id := by
    rw [State.actAs, if_neg h]
    exact coreAt_id s id
  have loaded : ((s.actAs id).loadCtx ctx a).core.id = id := (congrArg Seat.core (loadCtx_seat (s.actAs id) ctx a)).trans acting
  have aside : ((s.actAs id).loadCtx ctx a).parked = (s.actAs id).parked := loadCtx_parked ..
  rw [State.goOn]
  generalize (s.actAs id).loadCtx ctx a = u at loaded aside ⊢
  exact actAs_back h loaded aside
theorem foldl_goOn_core (ctx : Nat) : ∀ (l : List (CoreId × SaveArea)) (s : State), (∀ p ∈ l, s.core.id ≠ p.1) →
    (l.foldl (fun s p => s.goOn ctx p.1 p.2) s).core = s.core
  | [], _, _ => rfl
  | p :: l, s, h => by
    obtain ⟨hp, hl⟩ := List.forall_mem_cons.1 h
    have head := goOn_core hp ctx p.2
    rw [List.foldl_cons, foldl_goOn_core ctx l _ (by rwa [head]), head]

/-- A checkpoint puts contexts back on the cores that held them alone. -/
theorem rests_restoreJob {s : State} (hcv : s.core.status.cv = false) (j : Job) : s.Rests (s.restoreJob j) := by
  have others : ∀ p ∈ j.checkpoints.filter (fun p => (s.coreAt p.1).holds j.ctx), s.core.id ≠ p.1 := fun p hp hid => by
    have holds := (List.mem_filter.1 hp).2
    rw [← hid, coreAt_self, Core.holds, hcv] at holds
    cases holds
  have before : s.Rests _ := (((State.Rests.foldl _ (fun s (p : CoreId × SaveArea) => rests_takeOff s j.ctx p.1) j.checkpoints s).trans
    (.foldl _ (fun s p => rests_putBack s j.ctx p.1 p.2) j.checkpoints _)).trans
    (rests_updJob _ j.ctx (fun j => { j with corrupt := false, jobCount := j.jobCount - 1, queues := j.checkQueues.getD j.queues }))).trans
    (.foldl _ (fun s k => rests_prune s k.1 k.2) j.clusters _)
  exact before.trans (.of_core (foldl_goOn_core j.ctx _ _ fun p hp => before.id.trans_ne (others p hp)))

/-- A fault offered at job level leaves a core without a context at rest (R371, R379, R380). -/
theorem rests_offerJob {s : State} (hcv : s.core.status.cv = false) (ctx : Nat) (id : CoreId) (cause : Cause) (own : Bool) :
    s.Rests (s.offerJob ctx id cause own) := by
  unfold State.offerJob
  split
  · exact rests_updCore _ _ rests_halt
  · next j _ =>
    have killed := rests_killCore s ctx id cause own
    split
    · exact killed
    · split
      · exact killed
      · split
        · exact killed.trans (rests_killJob ..)
        · exact rests_restoreJob hcv j
      · exact killed.trans (rests_killJob ..)
      · exact killed.trans (rests_offerTenant ..)

end Sys2Proof.Machine
end

section
/-! SUPPORT. O33: the events of a core (R374, R377, R379, R381, R392) and writes of a control register (R141, R374, R381, R382, R422). -/

namespace Sys2Proof.Machine

/-! ## Interrupts (R377) -/

/-- The interrupt that is taken first of those pending and enabled: PRE, then CMP, then MSG. -/
def Core.interrupt (c : Core) : Option Cause :=
  if c.status.ipp && c.status.im.getLsbD 0 then some .intPre
  else if c.status.ipc && c.status.im.getLsbD 1 then some .intCmp
  else if !c.inbox.isEmpty && c.status.im.getLsbD 2 then some .intMsg
  else none

/-- With one pending, enabled, outside a handler and with nothing that is waited out, the core enters the handler. -/
theorem exec_interruptTaken {s : State} {cs : Cause} (hc : s.core.interrupt = some cs) (hie : s.core.status.ie = true) (htd : s.core.status.td = false)
    (hw : waitHolds s.core = false) :
    exec .interruptTaken s = .next { s.freshen with core := s.core.trapEntry s.core.pc (causeWord true false 0 0 0 cs) s.fresh 0 } := by
  show execInterruptTaken s = _
  unfold Core.interrupt at hc
  unfold execInterruptTaken
  dsimp only
  rw [hc]
  simp only [hie, htd, hw]
  rfl

theorem waitHolds_none {c : Core} (ha : c.await = none) (hs : c.saving = false) (hk : c.sketch = none) : waitHolds c = false := by
  rw [waitHolds, ha, hs, hk]
  rfl

/-- The record of an interrupt (R375). -/
theorem causeWord_interrupt (cs : Cause) : causeWord true false 0 0 0 cs = BitVec.ofNat 64 (2 ^ 63 + causeCode cs) := by
  simp [causeWord, bitOf]

/-- Which interrupt is taken, by the pending bits, the mask and the inbox. -/
theorem interrupt_code {c : Core} {code : Nat} (h : let pre := c.status.ipp = true ∧ c.status.im.getLsbD 0 = true
      let cmp := c.status.ipc = true ∧ c.status.im.getLsbD 1 = true; let msg := c.inbox ≠ [] ∧ c.status.im.getLsbD 2 = true
      pre ∧ code = 0x42 ∨ ¬ pre ∧ cmp ∧ code = 0x43 ∨ ¬ pre ∧ ¬ cmp ∧ msg ∧ code = 0x44) :
    ∃ cs, c.interrupt = some cs ∧ causeCode cs = code := by
  have hpre := Bool.and_eq_true_iff (x := c.status.ipp) (y := c.status.im.getLsbD 0)
  have hcmp := Bool.and_eq_true_iff (x := c.status.ipc) (y := c.status.im.getLsbD 1)
  have hmsg : (!c.inbox.isEmpty && c.status.im.getLsbD 2) = true ↔ c.inbox ≠ [] ∧ c.status.im.getLsbD 2 = true := by simp
  obtain ⟨pre, rfl⟩ | ⟨pre, cmp, rfl⟩ | ⟨pre, cmp, msg, rfl⟩ := h
  · exact ⟨.intPre, if_pos (hpre.2 pre), rfl⟩
  · exact ⟨.intCmp, (if_neg (mt hpre.1 pre)).trans (if_pos (hcmp.2 cmp)), rfl⟩
  · exact ⟨.intMsg, (if_neg (mt hpre.1 pre)).trans ((if_neg (mt hcmp.1 cmp)).trans (if_pos (hmsg.2 msg))), rfl⟩

/-! ## Escalated task faults (R377, R379, R381) -/

/-- The state with an escalated fault taken from the core's list. -/
def State.popFault (s : State) (e : Escalated) : State := { s with core := { s.core with escalated := s.core.escalated.erase e } }

/-- The fault that is due is the first whose context holds the core; those before it wait on (log 100). -/
theorem dueFault_split {c : Core} {before rest : List Escalated} {e : Escalated} (hl : c.escalated = before ++ e :: rest)
    (hb : ∀ d ∈ before, c.holds d.ctx = false) (he : c.holds e.ctx = true) : c.dueFault = some e ∧ c.escalated.erase e = before ++ rest := by
  have hnot : e ∉ before := fun h => by
    rw [hb e h] at he
    cases he
  have none_before : before.find? (fun d => c.holds d.ctx) = none := List.find?_eq_none.2 fun d hd => by rw [hb d hd]; exact Bool.false_ne_true
  constructor
  · rw [Core.dueFault, hl, List.find?_append, none_before, Option.none_or]
    exact List.find?_cons_of_pos he
  · rw [hl, List.erase_append_right _ hnot, List.erase_cons_head]

/-- The record of a task's fault (R375). -/
theorem causeWord_task (e : Escalated) : causeWord false true e.tag e.idx.toNat 0 e.cause =
    BitVec.ofNat 64 (2 ^ 62 + e.tag.toNat * 2 ^ 32 + e.idx.toNat * 2 ^ 24 + causeCode e.cause) := by
  simp [causeWord, bitOf, Nat.mod_eq_of_lt e.idx.isLt]

section
variable {s : State} {e : Escalated} (due : s.core.dueFault = some e) (htd : s.core.status.td = false) (hw : waitHolds s.core = false)
include due htd hw

theorem exec_escalated_ignored (hp : s.core.cr.corePolicy = 0) : exec .escalatedTaskFault s = .next (s.popFault e) := by
  show execEscalatedTaskFault s = _
  simp only [execEscalatedTaskFault, due, htd, hw, hp]
  rfl
theorem exec_escalated_retried (hp : s.core.cr.corePolicy = 1) : exec .escalatedTaskFault s =
    if s.core.cr.tvec = 0 then .next ((s.popFault e).offerJobHere e.cause)
    else if s.core.cr.coreCount = 0 then .next ((s.popFault e).killHere e.cause)
    else .next { s with core := (s.popFault e).core.spend.trapEntry s.core.pc (causeWord false true e.tag e.idx.toNat 0 e.cause) e.addr e.info } := by
  show execEscalatedTaskFault s = _
  simp only [execEscalatedTaskFault, due, htd, hw, hp]
  rfl
theorem exec_escalated_killed (hp : s.core.cr.corePolicy = 2) : exec .escalatedTaskFault s = .next ((s.popFault e).killHere e.cause) := by
  show execEscalatedTaskFault s = _
  simp only [execEscalatedTaskFault, due, htd, hw, hp]
  rfl
theorem exec_escalated_offered (hp : s.core.cr.corePolicy = 3) : exec .escalatedTaskFault s = .next ((s.popFault e).offerJobHere e.cause) := by
  show execEscalatedTaskFault s = _
  simp only [execEscalatedTaskFault, due, htd, hw, hp]
  rfl
end

/-- With no fault of a context that holds the core there is no such event. -/
theorem exec_escalated_none {s : State} (h : ∀ e ∈ s.core.escalated, s.core.holds e.ctx = false) :
    exec .escalatedTaskFault s = .refused (.notEnabled "ESCALATED_TASK_FAULT") := by
  have none_due : s.core.dueFault = none := List.find?_eq_none.2 fun e he => by rw [h e he]; exact Bool.false_ne_true
  show execEscalatedTaskFault s = _
  simp only [execEscalatedTaskFault, none_due]
  rfl

/-! ## The end of a save's wait (R392) -/

/-- A save that has come too late is given up: the tasks that have not stopped are stopped, and the save area goes (log 70). -/
def State.giveUpSave (s : State) : State :=
  (s.stopTasks s.core.id.die s.core.id.clu (fun t => s.savedTask (!s.heldElsewhere s.core.id s.core.cid.toNat) t && !s.atStop t)).updJob s.core.cid.toNat
    (fun j => { j with saves := j.saves.filter (fun p => p.1 ≠ s.core.id) })

/-- The core then has 1 in the register and its context no more. -/
def State.saveEnded (s : State) (d : Reg) : State := ({ s.giveUpSave with core := s.giveUpSave.core.unload } : State).afterWrite d 1

/-- So a late save ends, and CANCEL is offered to the job. -/
theorem exec_saveTimeout {s : State} (hs : s.core.saving = true) (hlate : s.core.savingAt + 2 ^ 22 ≤ s.sched.now) (d : Reg) :
    exec (.saveTimeout d) s = .next ((s.saveEnded d).offerJob s.core.cid.toNat s.core.id .cancel false) := by
  have late : s.saveLate = true := by rw [State.saveLate, hs, decide_eq_true hlate]; rfl
  rw [State.saveEnded, ← State.wr_advance]
  exact if_pos late

theorem saveTimeout_ends {s : State} (hs : s.core.saving = true) (hlate : s.core.savingAt + 2 ^ 22 ≤ s.sched.now) (d : Reg) :
    ∃ t, exec (.saveTimeout d) s = .next t ∧ (d ≠ 0 → t.rd d = 1) ∧ t.core.saving = false ∧ t.core.status.cv = false ∧ t.core.stall = none := by
  have rests := rests_offerJob (s := s.saveEnded d) rfl s.core.cid.toNat s.core.id .cancel false
  exact ⟨_, exec_saveTimeout hs hlate d, rd_regsWith_same rests.regs, rests.saving rfl, rests.cv rfl, rests.stall rfl⟩

theorem coreEvents_hold : coreEvents := by
  intro s c
  refine ⟨rfl, fun harmed hreached => ?_, ?_, exec_escalated_none, ?_, fun d hs hlate => saveTimeout_ends hs hlate d⟩
  · have due : (c.cmpArmed && decide (c.cr.cyccmp.toNat ≤ s.cycles)) = true := by rw [harmed, decide_eq_true hreached]; rfl
    exact if_pos due
  · intro pre cmp msg code hcode hie htd ha hs hk
    obtain ⟨cs, hc, rfl⟩ := interrupt_code hcode
    rw [BitVec.ofNat_toNat, BitVec.ofNat_toNat, ← causeWord_interrupt]
    refine ⟨_, exec_interruptTaken hc hie htd (waitHolds_none ha hs hk), rfl, rfl, rfl, ?_, rfl, rfl, rfl, rfl, .of_eq rfl rfl rfl rfl rfl⟩
    exact congrArg (fun b => { c.status with pm := c.status.mode, pie := b, ie := false, td := true, mode := true }) hie
  · intro before e rest hl hb he htd ha hs hk policy count popped
    obtain ⟨due, herase⟩ := dueFault_split hl hb he
    have hw := waitHolds_none ha hs hk
    have hpop : s.popFault e = popped := by rw [State.popFault, herase]
    refine ⟨fun hp => ?_, fun hp hv hn => ?_, fun hp hv => ?_, fun hp hv hn => ?_, fun hp => ?_, fun hp => ?_⟩
    · rw [exec_escalated_ignored due htd hw hp, hpop]
    · rw [exec_escalated_retried due htd hw hp, if_neg hv, if_neg (show s.core.cr.coreCount ≠ 0 from hn.ne'), hpop, causeWord_task, BitVec.ofNat_toNat, BitVec.ofNat_toNat]
      have spent : c.cr.cpol - 1 = BitVec.ofNat 16 (c.cr.cpol.toNat - 1) := by
        have count_le : count ≤ c.cr.cpol.toNat := Nat.mod_le _ _
        apply BitVec.eq_of_toNat_eq
        rw [BitVec.toNat_sub_of_le (by rw [BitVec.le_def]; exact hn.trans_le count_le), BitVec.toNat_ofNat]
        have := c.cr.cpol.isLt
        rw [Nat.mod_eq_of_lt (by omega)]
        rfl
      rw [← spent]
      rfl
    · rw [exec_escalated_retried due htd hw hp, if_pos hv, hpop]
    · rw [exec_escalated_retried due htd hw hp, if_neg hv, if_pos (show s.core.cr.coreCount = 0 from hn), hpop]
    · rw [exec_escalated_killed due htd hw hp, hpop]
    · rw [exec_escalated_offered due htd hw hp, hpop]

/-! ## Control registers written by an event -/

/-- An event that makes the write of `crw` leaves what `crw` to s0 leaves, and the PC. -/
theorem crw_as_event {s : State} {v : Word} {n : Nat} {i : Instr} (hi : mayWrite s n → exec i s = .next (s.crPut n .write v)) (o : OpCr) (hn : o.n.toNat = n)
    (_ : o.d = 0) (ha : s.rd o.a = v) (hw : mayWrite s n) : ∃ t u, exec (.crw o) s = .next t ∧ exec i s = .next u ∧ u.core.cr = t.core.cr ∧
      u.core.status = t.core.status ∧ u.core.cmpArmed = t.core.cmpArmed ∧ u.cluster = t.cluster ∧ u.core.pc = s.core.pc ∧ u.core.regs = s.core.regs := by
  subst hn ha
  obtain ⟨hregs, hpc, -⟩ := crPut_frame s o.n.toNat .write (s.rd o.a)
  exact ⟨_, _, crUpdate_eq .write hw, hi hw, rfl, rfl, rfl, rfl, hpc, hregs⟩

theorem controlRegisterWrites_hold : controlRegisterWrites := by
  intro s v same
  refine ⟨crw_as_event fun _ => rfl, crw_as_event fun _ => rfl, crw_as_event fun _ => rfl, crw_as_event fun _ => rfl, fun n => crw_as_event fun hw => ?_,
    fun f => ?_, fun w hw hs => ?_⟩
  · obtain ⟨-, -, -, hmap⟩ := hw
    exact if_pos (hmap (Nat.le_add_right ..)).1
  · rw [BitVec.ofNat_toNat]
    rfl
  · show execStalledInstructionResume s = _
    simp only [execStalledInstructionResume, hs, if_neg hw]

end Sys2Proof.Machine

namespace Sys2Proof
open Sys2Proof.Machine

/-- Settles O33: interrupts and escalated faults case by case; what CANCEL at the job leaves of the core after a save that came too late is `rests_offerJob`;
an event writes as `crw` does (`crw_as_event`). -/
theorem coreEventsAndRegisterWrites : Obligations.CoreEventsAndRegisterWrites := ⟨coreEvents_hold, controlRegisterWrites_hold⟩

end Sys2Proof
end

section
/-! SUPPORT. O13: the stream register instructions (R176), each by its checks in their order. -/

namespace Sys2Proof.Machine

section
variable {s : State} (hcv : s.core.status.cv = true)
include hcv

/-- An instruction on a stream register that is not bound faults (R176). -/
theorem exec_qPush_unbound {o : OpQA} (h : (s.core.stream o.q).bound = false) : exec (.qPush o) s = .next (s.takeFault { cause := .streamUnbound }) := by
  show execQPush o s = _
  simp only [execQPush, needCtx_ok hcv, h, Res.ok_bind, Bool.not_false, faultIf_true, Res.fault_bind, ends_fault]
theorem exec_qPop_unbound {o : OpQD} (h : (s.core.stream o.q).bound = false) : exec (.qPop o) s = .next (s.takeFault { cause := .streamUnbound }) := by
  show execQPop o s = _
  simp only [execQPop, needCtx_ok hcv, h, Res.ok_bind, Bool.not_false, faultIf_true, Res.fault_bind, ends_fault]

/-- A push to a bound register appends where there is room, and waits where there is none. -/
theorem exec_qPush_bound {o : OpQA} (h : (s.core.stream o.q).bound = true) : exec (.qPush o) s =
    if 64 ≤ (s.core.stream o.q).elems.length then .next (s.waitsOn .stream)
    else .next (s.afterNextWith (fun c => { c with streams := c.streams.set o.q.toNat { bound := true, elems := (s.core.stream o.q).elems ++ [s.rd o.a] } o.q.isLt })) := by
  show execQPush o s = _
  simp only [execQPush, needCtx_ok hcv, h, Res.ok_bind, Bool.not_true, faultIf_false]
  by_cases hfull : 64 ≤ (s.core.stream o.q).elems.length
  · rw [if_pos hfull, Config.streamDepth, decide_eq_true hfull, stallIf_true, Res.stall_bind, ends_stall]
    rfl
  · rw [if_neg hfull, Config.streamDepth, decide_eq_false hfull, stallIf_false, Res.ok_bind, ends_ok]
    rfl

/-- A pop of a bound register takes its oldest element, and waits where there is none. -/
theorem exec_qPop_bound {o : OpQD} (h : (s.core.stream o.q).bound = true) : exec (.qPop o) s =
    match (s.core.stream o.q).elems with
    | [] => .next (s.waitsOn .stream)
    | v :: rest => .next
        ({ s with core := { s.core with streams := s.core.streams.set o.q.toNat { bound := true, elems := rest } o.q.isLt } }.afterWrite o.d v) := by
  show execQPop o s = _
  simp only [execQPop, needCtx_ok hcv, h, Res.ok_bind, Bool.not_true, faultIf_false]
  cases (s.core.stream o.q).elems with
  | nil => rfl
  | cons v rest => exact congrArg Host.Outcome.next (State.wr_advance _ o.d v)

theorem exec_qCount {o : OpQD} : exec (.qCount o) s =
    .next (s.afterWrite o.d (BitVec.ofNat 64 ((if (s.core.stream o.q).bound then 128 else 0) + (s.core.stream o.q).elems.length))) := by
  show execQCount o s = _
  rw [execQCount, needCtx_ok hcv, Res.ok_bind, ends_ok, State.wr_advance]
  cases (s.core.stream o.q).bound
  · rfl
  · rfl

/-- `q.bind` waits while a pending task of the core names the register, then empties it. -/
theorem exec_qBind {o : OpQBind} : exec (.qBind o) s =
    if strmPending s.pendingTasks s.core.id.core o.q.toNat = true then .next (s.waitsOn .tasks)
    else .next (s.afterNextWith (fun c => { c with streams := c.streams.set o.q.toNat { bound := o.m, elems := [] } o.q.isLt })) := by
  show execQBind o s = _
  rw [execQBind, needCtx_ok hcv, Res.ok_bind, ← State.pendingTasks]
  split
  · next h => rw [h, stallIf_true, Res.stall_bind, ends_stall]; rfl
  · next h => rw [eq_false_of_ne_true h, stallIf_false, Res.ok_bind, ends_ok]; rfl
end

/-- The acting core's pending tasks: those of its context that it posted itself and that are not COMPLETE (R111, R320). -/
theorem mem_pendingTasks {s : State} {t : Task} : t ∈ s.pendingTasks ↔
    t ∈ s.cluster.tasks ∧ t.pending = true ∧ t.ctx = s.core.cid.toNat ∧ t.core = s.core.id.core ∧ t.remote = false := by
  simp only [State.pendingTasks, Cluster.pendingOf, Cluster.tasksOf, List.mem_filter, Bool.and_eq_true, decide_eq_true_eq, Bool.not_eq_true']
  tauto
/-- Some task names a stream register (R176). -/
theorem strmPending_iff {tasks : List Task} {core q : Nat} : strmPending tasks core q = true ↔
    ∃ t ∈ tasks, ∃ r ∈ t.regions, r.null = false ∧ r.space = .strm ∧ r.core = core ∧ r.lo ≤ 8 * q ∧ (8 * q : Int) ≤ r.hi := by
  simp only [strmPending, List.any_eq_true, Bool.and_eq_true, Bool.not_eq_true', beq_iff_eq, decide_eq_true_eq, and_assoc, Nat.cast_mul, Nat.cast_ofNat]

end Sys2Proof.Machine

namespace Sys2Proof
open Sys2Proof.Machine

/-- Settles O13, instruction by instruction. -/
theorem streamRegisters : Obligations.StreamRegisters := by
  intro s hcv
  refine ⟨fun o => ?push, fun o => ?pop, fun o => ?bind⟩
  case push =>
    intro q
    exact ⟨fun h => (exec_qPush_bound hcv h.1).trans (if_neg (not_le.2 h.2)), fun h => (exec_qPush_bound hcv h.1).trans (if_pos h.2), exec_qPush_unbound hcv⟩
  case pop =>
    intro q
    refine ⟨fun v rest h => ?_, fun h => ?_, exec_qPop_unbound hcv, exec_qCount hcv⟩
    · rw [exec_qPop_bound hcv h.1, show (s.core.stream o.q).elems = v :: rest from h.2]
    · rw [exec_qPop_bound hcv h.1, show (s.core.stream o.q).elems = [] from h.2]
  case bind =>
    intro named
    have hnamed : strmPending s.pendingTasks s.core.id.core o.q.toNat = true ↔ named := by
      rw [strmPending_iff]
      simp only [mem_pendingTasks, and_assoc]
      rfl
    exact ⟨fun h => (exec_qBind hcv).trans (if_neg (hnamed.not.2 h)), fun h => (exec_qBind hcv).trans (if_pos (hnamed.2 h))⟩

end Sys2Proof
end

section
/-! SUPPORT. O9: loads and stores in own scratchpad: bytes of numbers, extension, and what a load may see (R163–R165, R183, R345). -/

namespace Sys2Proof.Machine

/-! ## Bytes and extension (R162, R164) -/

/-- Byte i of a word. -/
theorem ofNat_div_pow_byte (v : Word) (i : Nat) : BitVec.ofNat 8 (v.toNat / 256 ^ i) = v.extractLsb' (8 * i) 8 := by
  apply BitVec.eq_of_toNat_eq
  rw [BitVec.toNat_ofNat, BitVec.extractLsb'_toNat, Nat.shiftRight_eq_div_pow, pow_mul]
  rfl
/-- Byte i of a number read from memory is the byte at its place. -/
theorem readLE_byte (m : List Host.Cell) : ∀ (n a i : Nat), i < n → BitVec.ofNat 8 (readLE m a n / 256 ^ i) = cget m (a + i)
  | n + 1, a, 0, _ => by
    rw [readLE, pow_zero, Nat.div_one]
    exact BitVec.eq_of_toNat_eq (by rw [BitVec.toNat_ofNat, Nat.add_mul_mod_self_left, Nat.mod_eq_of_lt (cget m a).isLt, Nat.add_zero])
  | n + 1, a, i + 1, h => by
    have hi := readLE_byte m n (a + 1) i (by omega)
    rw [readLE, pow_succ', ← Nat.div_div_eq_div_mul, Nat.add_mul_div_left _ _ (by decide), Nat.div_eq_of_lt (cget m a).isLt, Nat.zero_add, hi,
      Nat.add_right_comm, Nat.add_assoc a i 1]

/-- The number of bits of an access. -/
theorem accessBits_le (size : BitVec 2) : 8 * 2 ^ size.toNat ≤ 64 := by
  have : 2 ^ size.toNat ≤ 2 ^ 3 := Nat.pow_le_pow_right (by decide) (by omega)
  omega
/-- A number's low n bits as a signed number. -/
theorem toSigned_eq_toInt {n : Nat} (hn : 0 < n) (v : Nat) : toSigned n v = (BitVec.ofNat n v).toInt := by
  have two : 2 ^ n = 2 * 2 ^ (n - 1) := by rw [← pow_succ', Nat.sub_add_cancel hn]
  rw [toSigned_eq, BitVec.toInt_eq_toNat_cond, BitVec.toNat_ofNat]
  push_cast
  split <;> split <;> omega
/-- The extension of a value is that of its bits (R162). -/
theorem extend_eq (size : BitVec 2) (sx : Bool) (v : Nat) : extend size sx v =
    if sx then (BitVec.ofNat (8 * 2 ^ size.toNat) v).signExtend 64 else (BitVec.ofNat (8 * 2 ^ size.toNat) v).setWidth 64 := by
  cases sx
  · rw [extend, if_neg Bool.false_ne_true, if_neg Bool.false_ne_true]
    exact BitVec.eq_of_toNat_eq (by rw [BitVec.toNat_ofNat, BitVec.toNat_setWidth, BitVec.toNat_ofNat])
  · rw [extend, if_pos rfl, if_pos rfl, toSigned_eq_toInt (Nat.mul_pos (by decide) (Nat.two_pow_pos _))]
    rfl
/-- Bits below the access's width are the value's. -/
theorem getLsbD_extend_of_lt {size : BitVec 2} (sx : Bool) (v : Nat) {i : Nat} (h : i < 8 * 2 ^ size.toNat) :
    (extend size sx v).getLsbD i = v.testBit i := by
  have hi := h.trans_le (accessBits_le size)
  rw [extend_eq]
  cases sx
  · rw [if_neg Bool.false_ne_true, BitVec.getLsbD_setWidth, BitVec.getLsbD_ofNat, decide_eq_true h, decide_eq_true hi, Bool.true_and, Bool.true_and]
  · rw [if_pos rfl, BitVec.getLsbD_signExtend, if_pos h, BitVec.getLsbD_ofNat, decide_eq_true h, decide_eq_true hi, Bool.true_and, Bool.true_and]
/-- The others repeat its sign, or are zero. -/
theorem getLsbD_extend_of_ge {size : BitVec 2} (sx : Bool) (v : Nat) {i : Nat} (h : 8 * 2 ^ size.toNat ≤ i) (hi : i < 64) :
    (extend size sx v).getLsbD i = (sx && (extend size sx v).getLsbD (8 * 2 ^ size.toNat - 1)) := by
  have hlast : 8 * 2 ^ size.toNat - 1 < 8 * 2 ^ size.toNat := Nat.sub_one_lt (Nat.mul_ne_zero (by decide) (Nat.two_pow_pos _).ne')
  rw [getLsbD_extend_of_lt sx v hlast, extend_eq]
  cases sx
  · rw [if_neg Bool.false_ne_true, BitVec.getLsbD_setWidth, BitVec.getLsbD_of_ge _ _ h, Bool.and_false, Bool.false_and]
  · rw [if_pos rfl, BitVec.getLsbD_signExtend, if_neg (not_lt.2 h), BitVec.msb_eq_getLsbD_last, BitVec.getLsbD_ofNat, decide_eq_true hlast,
      decide_eq_true hi, Bool.true_and]
/-- Byte i of the access is the value's. -/
theorem extend_byte {size : BitVec 2} (sx : Bool) (v : Nat) {i : Nat} (h : i < 2 ^ size.toNat) :
    BitVec.ofNat 8 ((extend size sx v).toNat / 256 ^ i) = BitVec.ofNat 8 (v / 256 ^ i) := by
  rw [ofNat_div_pow_byte]
  refine BitVec.eq_of_getLsbD_eq fun j hj => ?_
  rw [BitVec.getLsbD_extractLsb', getLsbD_extend_of_lt sx v (by omega), BitVec.getLsbD_ofNat, show 256 ^ i = 2 ^ (8 * i) by rw [pow_mul]; rfl,
    Nat.testBit_div_two_pow, Nat.add_comm]

/-! ## What a load may see (R165, R183, R345; log 78) -/

/-- A load reads its bytes as they stood before all but the first k unseen packet writes, and has then seen those k: all of them, or fewer
than the plain wait before it lets it go before. -/
theorem ownLoad_sees (s : State) (a n : Nat) : ∃ k, let u := (s.ownLoad a n).1
    (s.ownLoad a n).2 = readLE ((s.core.stale.drop k).foldr (fun e m => csetList m e) s.core.spad) a n ∧ SameButRead s u ∧
    u.core.stale = s.core.stale.drop k ∧ (k < s.core.early ∨ s.core.stale.length ≤ k) ∧ u.core.early ≤ s.core.early - k ∧
    (s.core.stale = [] → s.core.early = 0 → u = s) := by
  have all : s.core.stale.drop s.core.stale.length = [] := List.drop_length
  unfold State.ownLoad
  split
  · refine ⟨s.core.stale.length, by rw [all]; rfl, rfl, all.symm, .inr le_rfl, Nat.zero_le _, fun hs he => ?_⟩
    show { s with core := { s.core with early := 0, stale := [] } } = s
    rw [← hs, ← he]
  · next he =>
    dsimp only
    split
    · exact ⟨s.core.stale.length, by rw [all]; rfl, rfl, all.symm, .inr le_rfl, Nat.zero_le _, fun _ h => absurd h he⟩
    · next hk =>
      have hlt : s.fresh.toNat % (s.core.early + 1) < s.core.early + 1 := Nat.mod_lt _ (Nat.succ_pos _)
      exact ⟨s.fresh.toNat % (s.core.early + 1), rfl, rfl, rfl, .inl (by omega), le_rfl, fun _ h => absurd h he⟩

/-! ## The instructions -/

section
variable {s : State} {o : OpMem} {pa : Nat} (hown : (memEa s o).toNat < 0x400000) (ha : (memEa s o).toNat % 2 ^ o.size.toNat = 0)
include hown ha

theorem exec_ld_own (hc : spadCheck s.core s.cluster.tasks (memEa s o).toNat (2 ^ o.size.toNat) .load = .ok pa) :
    exec (.ld o) s = .next ((s.ownLoad pa (2 ^ o.size.toNat)).1.afterWrite o.d (extend o.size o.sx (s.ownLoad pa (2 ^ o.size.toNat)).2)) := by
  show execLd o s = _
  rw [execLd, memBytes, plainEa_ok (by omega) ha, Res.ok_bind]
  simp only [placeOf_spad hown, hc, Res.ok_bind, ends_ok, State.wr_advance]
theorem exec_st_own (hc : spadCheck s.core s.cluster.tasks (memEa s o).toNat (2 ^ o.size.toNat) .store = .ok pa) :
    exec (.st o) s = .next (s.afterNextWith (fun c => { c.seesAt pa (2 ^ o.size.toNat) with spad := writeLE s.core.spad pa (2 ^ o.size.toNat) (s.rd o.d).toNat })) := by
  show execSt o s = _
  rw [execSt, memBytes, plainEa_ok (by omega) ha, Res.ok_bind]
  simp only [placeOf_spad hown, hc, Res.ok_bind, ends_ok]
  rfl
end

end Sys2Proof.Machine

namespace Sys2Proof
open Sys2Proof.Machine

/-- Settles O9: what a load sees is `ownLoad_sees`, what a store leaves is what `writeLE` leaves. -/
theorem loadsAndStores : Obligations.LoadsAndStores := by
  intro s o pa ea n hown ha
  refine ⟨fun hc => ?load, fun hc => ?store⟩
  case load =>
    obtain ⟨k, hv, hu, hstale, hk, hearly, hself⟩ := ownLoad_sees s pa n
    refine ⟨_, _, k, exec_ld_own hown ha hc, hu, hstale, hk, hearly, fun i hi => ?_, hself, fun i => getLsbD_extend_of_ge _ _⟩
    refine (extend_byte o.sx _ hi).trans ?_
    rw [show (s.ownLoad pa n).2 = _ from hv]
    exact readLE_byte _ n pa i hi
  case store =>
    refine ⟨_, exec_st_own hown ha hc, fun i hi => ?_, fun a h => cget_writeLE_out _ _ _ _ _ (by omega)⟩
    rw [cget_writeLE_in _ _ _ _ _ ⟨Nat.le_add_right .., Nat.add_lt_add_left hi _⟩, Nat.add_sub_cancel_left]

end Sys2Proof
end

section
/-! SUPPORT. O12: atomics and claims on own scratchpad (R169–R174). -/

namespace Sys2Proof.Machine

/-! ## Numbers of several parts -/

/-- A number read from memory, in two parts. -/
theorem readLE_add (m : List Host.Cell) : ∀ (n k a : Nat), readLE m a (n + k) = readLE m a n + 256 ^ n * readLE m (a + n) k
  | 0, k, a => by rw [Nat.zero_add, readLE, pow_zero, Nat.one_mul, Nat.zero_add, Nat.add_zero]
  | n + 1, k, a => by
    rw [Nat.add_right_comm, readLE, readLE_add m n k (a + 1), readLE, pow_succ, show a + 1 + n = a + (n + 1) by omega]
    ring
/-- The low bytes of a number that was written. -/
theorem readLE_writeLE_prefix (m : List Host.Cell) (a n k v : Nat) : readLE (writeLE m a (n + k) v) a n = v % 256 ^ n := by
  have h := readLE_writeLE m a (n + k) v
  rw [readLE_add] at h
  rw [← Nat.mod_eq_of_lt (readLE_lt (writeLE m a (n + k) v) a n), ← Nat.add_mul_mod_self_left _ (256 ^ n) (readLE (writeLE m a (n + k) v) (a + n) k), h,
    Nat.mod_mod_of_dvd _ (pow_dvd_pow 256 (Nat.le_add_right n k))]

/-! ## What an atomic on own scratchpad comes to (R170, R171) -/

/-- Each atomic of the table runs as `atomPlain` with its operation, whose result is the table's. -/
theorem exec_atomTable_result (s : State) (o : OpMem) {N : Nat} : ∀ p ∈ atomTable N, ∃ op,
    exec (p.1 o) s = endsAtom s (atomPlain s o false (atomReq s o op)) ∧
    ∀ old v new, old < 2 ^ N → atomNew op N old v new = p.2.2 old (v % 2 ^ N) (new % 2 ^ N) := by
  have hmod : ∀ v, v % 2 ^ N < 2 ^ N := fun v => Nat.mod_lt v (Nat.two_pow_pos N)
  simp only [atomTable, List.forall_mem_cons]
  refine ⟨⟨.add, rfl, ?add⟩, ⟨.and, rfl, ?and⟩, ⟨.or, rfl, ?or⟩, ⟨.xor, rfl, ?xor⟩, ⟨.min, rfl, ?min⟩, ⟨.max, rfl, ?max⟩,
    ⟨.minn, rfl, ?minn⟩, ⟨.maxn, rfl, ?maxn⟩, ⟨.swap, rfl, ?swap⟩, ⟨.cas, rfl, ?cas⟩, ⟨.incb, rfl, ?incb⟩, List.forall_mem_nil _⟩
  all_goals
    intro old v new hold
    simp only [atomNew, Nat.mod_eq_of_lt hold]
  case min => simp only [toSigned_of_lt hold, toSigned_of_lt (hmod v), ← not_lt, ite_not]
  case max => simp only [toSigned_of_lt hold, toSigned_of_lt (hmod v), ← not_lt, ite_not]
  case minn => exact (min_def _ _).symm
  case maxn => rw [max_comm, max_def]
  case incb =>
    split
    · exact Nat.mod_eq_of_lt (by have := hmod v; omega)
    · rfl

/-- A result has as many bits as its operands. -/
theorem atomNew_lt (op : AtomOp) (n old v new : Nat) : atomNew op n old v new < 2 ^ n := by
  have hmod : ∀ v, v % 2 ^ n < 2 ^ n := fun v => Nat.mod_lt v (Nat.two_pow_pos n)
  cases op <;> simp only [atomNew]
  case and => exact Nat.and_lt_two_pow _ (hmod v)
  case or => exact Nat.or_lt_two_pow (hmod old) (hmod v)
  case xor => exact Nat.xor_lt_two_pow (hmod old) (hmod v)
  case add => exact hmod _
  case swap => exact hmod _
  all_goals
    split
    · exact hmod _
    · exact hmod _

/-- The state after n bytes of own scratchpad have been replaced by a number. -/
def State.replaces (s : State) (pa n v : Nat) : State := { s with core := { s.core.seesAt pa n with spad := writeLE s.core.spad pa n v } }

/-- On own scratchpad the result is stored and the old value taken. -/
theorem atomPlain_own {s : State} {o : OpMem} {pa : Nat} {q : AtomReq} {n : Nat} (hn : atomWidth q = n) (hown : (memEa s o).toNat < 0x400000)
    (ha : (memEa s o).toNat % n = 0) (hc : spadCheck s.core s.cluster.tasks (memEa s o).toNat n .atomic = .ok pa) (claim : Bool) :
    let old := readLE s.core.spad pa n
    atomPlain s o claim q = .ok (.done ((s.replaces pa n (atomResult q old)).takeOld o.d o.size o.sx claim old)) := by
  intro old
  rw [atomPlain, hn, plainEa_ok (by omega) ha, Res.ok_bind]
  simp only [placeOf_spad hown, hc, Res.ok_bind]
  rfl

/-! ## Claims (R173, R174) -/

/-- The start and the count of a claim, from the record's four numbers. -/
theorem claimOf_record {next stop parts cmin old : Nat} (h0 : next < 2 ^ 32) (h1 : stop < 2 ^ 32) (h2 : parts < 2 ^ 32) (h3 : cmin < 2 ^ 32)
    (hold : old = next + 2 ^ 32 * (stop + 2 ^ 32 * (parts + 2 ^ 32 * cmin))) : let left := stop - next
    claimOf old = (next, if stop ≤ next then 0 else min (max cmin ((left + 2 * max parts 1 - 1) / (2 * max parts 1))) left) := by
  intro left
  have e0 : old % 2 ^ 32 = next := by omega
  have e1 : old / 2 ^ 32 % 2 ^ 32 = stop := by omega
  have e2 : old / 2 ^ 64 % 2 ^ 32 = parts := by omega
  have e3 : old / 2 ^ 96 % 2 ^ 32 = cmin := by omega
  simp only [claimOf, e0, e1, e2, e3]
  split <;> rfl

/-- A record's number, from its four. -/
theorem readLE_record (m : List Host.Cell) (a : Nat) : readLE m a 16 =
    readLE m a 4 + 2 ^ 32 * (readLE m (a + 4) 4 + 2 ^ 32 * (readLE m (a + 8) 4 + 2 ^ 32 * readLE m (a + 12) 4)) := by
  rw [readLE_add m 4 12, readLE_add m 4 8, readLE_add m 4 4, Nat.add_assoc a 4 4, Nat.add_assoc a 8 4]
  rfl

/-- The bytes of a record above its first number stay. -/
theorem claimed_rest (m : List Host.Cell) {pa a v : Nat} (hv : v < 2 ^ 32) (ha : ¬ (pa ≤ a ∧ a < pa + 4)) :
    cget (writeLE m pa 16 (readLE m pa 16 / 2 ^ 32 * 2 ^ 32 + v)) a = cget m a := by
  by_cases hin : pa ≤ a ∧ a < pa + 16
  · obtain ⟨i, rfl⟩ : ∃ i, a = pa + (4 + i) := ⟨a - pa - 4, by omega⟩
    have split (x : Nat) : x / 256 ^ (4 + i) = x / 2 ^ 32 / 256 ^ i := by rw [pow_add, ← Nat.div_div_eq_div_mul]; rfl
    rw [cget_writeLE_in _ _ _ _ _ hin, ← readLE_byte m 16 pa (4 + i) (by omega), Nat.add_sub_cancel_left, split, split,
      Nat.mul_comm, Nat.mul_add_div (by decide), Nat.div_eq_of_lt hv, Nat.add_zero]
  · exact cget_writeLE_out _ _ _ _ _ (by omega)

end Sys2Proof.Machine

namespace Sys2Proof
open Sys2Proof.Machine

/-- What is claimed of the atomics: each is `atomPlain` of its operation. -/
theorem scratchpadAtomics_holds : scratchpadAtomics := by
  intro s o pa hsize ea n N old hown ha hc p hp
  obtain ⟨op, hexec, hnew⟩ := exec_atomTable_result s o p hp
  have hold : old < 2 ^ N := (readLE_lt _ _ _).trans_eq (by rw [show (256 : Nat) = 2 ^ 8 from rfl, ← pow_mul])
  have hrun := atomPlain_own (q := atomReq s o op) (n := n) rfl hown ha hc false
  have hres : atomResult (atomReq s o op) old = p.2.2 old ((s.rd o.d).toNat % 2 ^ N) ((s.rd (o.d + 1)).toNat % 2 ^ N) := hnew old _ _ hold
  refine ⟨writeLE s.core.spad pa n (atomResult (atomReq s o op) old), (hexec.trans (congrArg (endsAtom s) hrun)).trans ?_, ?_, fun a h => cget_writeLE_out _ _ _ _ _ (by omega)⟩
  · rw [endsAtom, takeOld_word, extend_of_lt hold]
    rfl
  · rw [readLE_writeLE, ← hres, show 256 ^ n = 2 ^ N by rw [show (256 : Nat) = 2 ^ 8 from rfl, ← pow_mul]]
    exact Nat.mod_eq_of_lt (atomNew_lt ..)

/-- What is claimed of a claim. -/
theorem claimARange_holds : claimARange := by
  intro s o pa ea next stop parts cmin left count hown ha hc
  have hclaim : claimOf (readLE s.core.spad pa 16) = (next, count) :=
    claimOf_record (readLE_lt _ _ 4) (readLE_lt _ _ 4) (readLE_lt _ _ 4) (readLE_lt _ _ 4) (readLE_record s.core.spad pa)
  have hlt : next + count < 2 ^ 32 := by
    have h0 : next < 2 ^ 32 := readLE_lt _ _ 4
    have h1 : stop < 2 ^ 32 := readLE_lt _ _ 4
    have hcount : count ≤ left := by
      unfold count
      split
      · exact Nat.zero_le _
      · exact min_le_right _ _
    omega
  have hrun := atomPlain_own (q := .claim) (n := 16) rfl hown ha hc true
  have hres : atomResult .claim (readLE s.core.spad pa 16) = readLE s.core.spad pa 16 / 2 ^ 32 * 2 ^ 32 + (next + count) := by
    simp only [atomResult, hclaim, Nat.mod_eq_of_lt hlt]
  refine ⟨_, (congrArg (endsAtom s) hrun).trans ?_, ?_, fun a h => claimed_rest s.core.spad hlt h⟩
  · rw [endsAtom, takeOld_pair]
    rw [hres, hclaim]
    rfl
  · rw [readLE_writeLE_prefix _ _ 4 12]
    omega

/-- Settles O12. -/
theorem atomicsAndClaims : Obligations.AtomicsAndClaims := ⟨scratchpadAtomics_holds, claimARange_holds⟩

end Sys2Proof
end

section
/-! SUPPORT. O14: flags of the own cluster (R180–R182, R342, R387). -/

namespace Sys2Proof.Machine

/-! ## Where an update goes (R182, R387, R433) -/

/-- An update of virtual flag f reaches the physical flag. -/
def updatesDirectly (s : State) (x : CtxCluster) (id : CoreId) (f : BitVec 6) : Prop :=
  (flagEntry (x.coreFlags id.core).fmap f).2.1 = true ∧ (x.coreFlags id.core).first = false ∨
    (s.coreAt id).holds x.ctx = true ∧ (s.coreAt id).saving = false

/-- A core with one physical flag changed. -/
def Core.withFlag (c : Core) (e : BitVec 6) (new : BitVec 32 → BitVec 32) : Core :=
  { c with flags := c.flags.set e.toNat (new (c.flags[e.toNat]'e.isLt)) e.isLt }

section
variable {s : State} {x : CtxCluster} {id : CoreId} {f : BitVec 6} (op : FlagOp) (hx : s.ctxAt id.die id.clu x.ctx = some x)
  (hv : (flagEntry (x.coreFlags id.core).fmap f).1 = true)
include hx hv

theorem updFlag_direct (hd : updatesDirectly s x id f) :
    s.updFlag id x.ctx f op = s.updCore id (fun c => c.withFlag (flagEntry (x.coreFlags id.core).fmap f).2.2 op.apply) := by
  unfold updatesDirectly at hd
  rw [State.updFlag, hx]
  dsimp only
  rw [if_neg (by simp [hv]), if_pos (by simpa using hd)]
  rfl

theorem updFlag_pending (hd : ¬ updatesDirectly s x id f) :
    s.updFlag id x.ctx f op = s.updCtx id.die id.clu x.ctx (fun y => y.updFlags id.core (fun g => g.pend f op)) := by
  unfold updatesDirectly at hd
  rw [State.updFlag, hx]
  dsimp only
  rw [if_neg (by simp [hv]), if_neg (by simpa using hd)]
end

/-- The flags of a core are not touched by the end of an instruction. -/
theorem coreAt_afterNext_flags (s : State) (id : CoreId) : (s.afterNext.coreAt id).flags = (s.coreAt id).flags := by
  unfold State.coreAt
  split
  · next h => rw [if_pos (show s.core.id = id from h)]; rfl
  · next h => rw [if_neg (show ¬ s.core.id = id from h)]; rfl
/-- An update that is pending is kept in the pair of its flag (R387). -/
theorem pend_eq (g : CoreFlags) (f : BitVec 6) (op : FlagOp) {sets : Bool} (hsets : sets = true ↔ ∃ a, op = .set a) : g.pend f op =
    { g with pendV := g.pendV.set f.toNat (op.apply (g.pendV[f.toNat]'f.isLt)) f.isLt
             pendS := if sets then g.pendS ||| (1 <<< f.toNat) else g.pendS } := by
  cases op with
  | add a => rw [show sets = false by simpa using hsets]; rfl
  | set a => rw [show sets = true by simpa using hsets]; rfl
/-- A context's flags on one core of its cluster. -/
theorem coreFlags_getElem (x : CtxCluster) (i : Fin 4) : x.coreFlags i.val = x.cores[i] := by
  simp [CtxCluster.coreFlags, List.getD_eq_getElem?_getD]

section
variable {s : State} {x : CtxCluster} {id : CoreId} {f : BitVec 6} (op : FlagOp) (hp : s.placed) (hx : s.cluster.ctxAt x.ctx = some x)
  (hid : id.die = s.core.id.die ∧ id.clu = s.core.id.clu) (hv : (flagEntry (x.coreFlags id.core).fmap f).1 = true)
include hp hx hid hv

/-- What an update of a flag of the own cluster leaves, when its instruction is over. -/
theorem flagTakes_updFlag {sets : Bool} (hsets : sets = true ↔ ∃ a, op = .set a) :
    let t := (s.updFlag id x.ctx f op).afterNext
    flagTakes s t x id f op.apply sets ∧ SameBytes s t ∧ { t.core with flags := s.core.flags } = s.afterNext.core ∧
      ∀ k, k ≠ id → (t.coreAt k).flags = (s.coreAt k).flags := by
  have here : s.clusterAt id.die id.clu = s.cluster := by rw [hid.1, hid.2, clusterAt_here hp]
  have hctx : s.ctxAt id.die id.clu x.ctx = some x := by rw [State.ctxAt, here, hx]
  have ended (u : State) : SameBytes u u.afterNext := sameBytes_withCore u rfl rfl
  by_cases hd : updatesDirectly s x id f
  · have hu := updFlag_direct op hctx hv hd
    set change := fun c : Core => c.withFlag (flagEntry (x.coreFlags id.core).fmap f).2.2 op.apply with hchange
    have read := fun j => coreAt_updCore s id j change (fun _ => rfl)
    have core : { (s.updCore id change).core with flags := s.core.flags } = s.core := by
      unfold State.updCore
      split
      · rfl
      · split <;> rfl
    intro t
    have ht : t = (s.updCore id change).afterNext := congrArg State.afterNext hu
    rw [ht]
    refine ⟨⟨fun _ => ⟨?_, ?_⟩, fun h => absurd hd h⟩, ?_, ?_, fun k hk => ?_⟩
    · rw [coreAt_afterNext_flags, read, if_pos rfl]
      rfl
    · exact (congrArg State.cluster (updCore_frame s id change) :)
    · exact (sameBytes_updCore s id change (fun _ => rfl) fun _ => rfl).trans (ended _)
    · exact congrArg (fun c : Core => { c with pc := c.pc + 8, stall := none, issued := none }) core
    · rw [coreAt_afterNext_flags, read, if_neg hk]
  · have hu := updFlag_pending op hctx hv hd
    set change := fun y : CtxCluster => y.updFlags id.core (fun g => g.pend f op) with hchange
    have hcluster : s.updCtx id.die id.clu x.ctx change = { s with cluster := s.cluster.updCtx x.ctx change } := by
      rw [State.updCtx, State.updCluster, hid.1, hid.2]
      exact if_pos ⟨hp.1, hp.2.1⟩
    have hafter := ctxAt_updCtx s.cluster x.ctx change (fun _ => rfl)
    intro t
    have ht : t = { s with cluster := s.cluster.updCtx x.ctx change }.afterNext := congrArg State.afterNext (hu.trans hcluster)
    rw [hx] at hafter
    rw [ht]
    refine ⟨⟨fun h => absurd h hd, fun _ => ⟨coreAt_afterNext_flags s id, _, hafter, rfl, fun i => ?_⟩⟩, ended s, rfl, fun k _ => coreAt_afterNext_flags s k⟩
    simp only [hchange, CtxCluster.updFlags, Fin.getElem_fin, Vector.getElem_ofFn]
    split
    · next h =>
      have same : x.coreFlags id.core = x.cores[i] := h ▸ coreFlags_getElem x i
      simp only [same]
      exact pend_eq _ f op hsets
    · rfl
end

/-! ## The instructions (R181, R182) -/

/-- A check that fails ends the instruction with its fault, one that stalls makes it wait. -/
theorem endsAfter_fault (s : State) (f : FaultInfo) (rel : Bool) (mask : BitVec 16) (scope : Nat) (r : Res State) :
    endsAfter s (.fault f) rel mask scope r = .next (s.takeFault f) := rfl
theorem endsAfter_stall (s : State) (w : Wait) (rel : Bool) (mask : BitVec 16) (scope : Nat) (r : Res State) :
    endsAfter s (.stall w) rel mask scope r = .next (s.waitsOn w) := rfl

section
variable {s : State} {x : CtxCluster} (hx : s.cluster.ctxAt s.core.cid.toNat = some x)
include hx

/-- The checks of a flag access: the context runs on that core, and the entry is valid (R181, R387). -/
theorem flagOk_eq (id : CoreId) (f : BitVec 6) : flagOk s id f =
    if (x.coreFlags id.core).launched = true ∧ (flagEntry (x.coreFlags id.core).fmap f).1 = true then .ok () else .fault { cause := .priv } := by
  rw [flagOk, hx]
  dsimp only
  cases (x.coreFlags id.core).launched <;> cases (flagEntry (x.coreFlags id.core).fmap f).1 <;> rfl
/-- A flag of the loaded context on the acting core is the physical flag that its map names. -/
theorem flagValue_eq (f : BitVec 6) : let e := (flagEntry (x.coreFlags s.core.id.core).fmap f).2.2
    s.flagValue f = s.core.flags[e.toNat]'e.isLt := by
  have hmap : s.loadedMap = (x.coreFlags s.core.id.core).fmap := by
    rw [State.loadedMap, hx]
    rfl
  simp only [State.flagValue, hmap]

end

/-- The core that `flag.add` and `flag.set` name (R181). -/
theorem flagCore_eq (s : State) (o : OpFlagAdd) : flagCore s o = ⟨s.core.id.die, s.core.id.clu, if o.t then o.core.toNat else s.core.id.core⟩ := by
  unfold flagCore
  split
  · rfl
  · rfl

/-- An update ends after its checks: the flag's, then the fence's (R181, R182, R342). -/
theorem flagUpdate_eq {s : State} (hcv : s.core.status.cv = true) (o : OpFlagAdd) (op : FlagOp) {id : CoreId} (hid : id = flagCore s o) : flagUpdate o s op =
    endsAfter s ((flagOk s id o.f).bind fun _ =>
        stallIf (id != s.core.id && fenceHolds s.core.fences s.core.effects (s.dieNumber s.core.id.die) o.cls) .fence) o.rel (1 <<< o.cls.toNat) 3
      (.ok (s.updFlag id s.core.cid.toNat o.f op).advance) := by
  rw [flagUpdate, needCtx_ok hcv, Res.ok_bind, ← hid]
  rfl

end Sys2Proof.Machine

namespace Sys2Proof
open Sys2Proof.Machine

/-- Settles O14: an update passes its checks (`flagUpdate_eq`) and reaches the physical flag or the pending pair (`flagTakes_updFlag`);
the reads name the flag through the loaded map. -/
theorem flagsOfTheOwnCore : Obligations.FlagsOfTheOwnCore := by
  intro s x hcv hp hx
  have hctx : x.ctx = s.core.cid.toNat := by simpa using List.find?_some hx
  refine ⟨fun o => ?update, fun f => ?read⟩
  case update =>
    intro id there ok held a updates
    have hid : id = flagCore s o := (flagCore_eq s o).symm
    have hfence : (id != s.core.id && fenceHolds s.core.fences s.core.effects (s.dieNumber s.core.id.die) o.cls) = true ↔ held := by
      rw [Bool.and_eq_true, bne_iff_ne]
    have hcheck := flagOk_eq hx id o.f
    refine ⟨fun h => ?_, fun h hh => ?_, fun h hh hrel => ?_⟩
    · have run (op : FlagOp) : flagUpdate o s op = .next (s.takeFault { cause := .priv }) := by
        rw [flagUpdate_eq hcv o op hid, hcheck, if_neg h, Res.fault_bind, endsAfter_fault]
      exact ⟨run _, run _⟩
    · have run (op : FlagOp) : flagUpdate o s op = .next (s.waitsOn .fence) := by
        rw [flagUpdate_eq hcv o op hid, hcheck, if_pos h, Res.ok_bind, hfence.2 hh, stallIf_true, endsAfter_stall]
      exact ⟨run _, run _⟩
    · have hfree : (o.rel && outstanding s (fenceSet s (1 <<< o.cls.toNat) 3)) = false := by
        rw [Bool.and_eq_false_iff]
        exact hrel
      have run (op : FlagOp) : flagUpdate o s op = .next (s.updFlag id x.ctx o.f op).afterNext := by
        rw [flagUpdate_eq hcv o op hid, hcheck, if_pos h, Res.ok_bind, eq_false_of_ne_true (hfence.not.2 hh), stallIf_false, endsAfter_ends hfree, hctx]
        rfl
      rw [← hctx] at hx
      have takes (op : FlagOp) {sets : Bool} (hsets : sets = true ↔ ∃ a, op = .set a) := flagTakes_updFlag op hp hx (id := id) ⟨rfl, rfl⟩ h.2 hsets
      exact ⟨⟨_, run (.add a), takes (.add a) (sets := false) (by simp)⟩, ⟨_, run (.set a), takes (.set a) (sets := true) (by simp)⟩⟩
  case read =>
    intro here g ok v
    have hcheck := flagOk_eq hx s.core.id f
    have hvalue : s.flagValue f = v := flagValue_eq hx f
    refine ⟨?rd, ?wait⟩
    case rd =>
      rintro o rfl
      refine ⟨fun h => ?_, fun h => ?_⟩
      · show execFlagRd o s = _
        rw [execFlagRd, needCtx_ok hcv, Res.ok_bind, hcheck, if_pos h, Res.ok_bind, hvalue, ends_ok, State.wr_advance, BitVec.ofNat_toNat]
      · show execFlagRd o s = _
        rw [execFlagRd, needCtx_ok hcv, Res.ok_bind, hcheck, if_neg h, Res.fault_bind, ends_fault]
    case wait =>
      rintro o rfl
      intro ahead
      have hsign : (v - (s.rd o.b).setWidth 32).toInt < 0 ↔ 2 ^ 31 ≤ ahead := by
        rw [BitVec.toInt_neg_iff, show ahead = (v - (s.rd o.b).setWidth 32).toNat from rfl]
        omega
      refine ⟨fun h hlt => ?_, fun h hge => ?_, fun h => ?_⟩
      · show execFlagWait o s = _
        rw [execFlagWait, needCtx_ok hcv, Res.ok_bind, hcheck, if_pos h, Res.ok_bind, hvalue]
        dsimp only
        rw [decide_eq_false (hsign.not.2 (not_le.2 hlt)), stallIf_false, Res.ok_bind, ends_ok, State.wr_advance, BitVec.ofNat_toNat]
        cases o.acq <;> rfl
      · show execFlagWait o s = _
        rw [execFlagWait, needCtx_ok hcv, Res.ok_bind, hcheck, if_pos h, Res.ok_bind, hvalue]
        dsimp only
        rw [decide_eq_true (hsign.2 hge), stallIf_true, Res.stall_bind, ends_stall]
        rfl
      · show execFlagWait o s = _
        rw [execFlagWait, needCtx_ok hcv, Res.ok_bind, hcheck, if_neg h, Res.fault_bind, ends_fault]

end Sys2Proof
end

section
/-! SUPPORT. O15: receiving, polling and sending messages (R178, R179, R279, R288). -/

namespace Sys2Proof.Machine

/-! ## A request under the direct status (R288) -/

/-- What has left stays as it is when only other fields of the acting core change. -/
theorem leavesFrom_withCore {s u : State} {t : Target} {cls : BitVec 4} {body : PktBody} {src : PktSource} (h : leavesFrom s t cls body src u) {c : Core}
    (heff : c.effects = u.core.effects) (hid : c.id = u.core.id) (hspad : c.spad = u.core.spad) : leavesFrom s t cls body src { u with core := c } := by
  obtain ⟨hpkt, hnext, heffects, hbytes⟩ := h
  exact ⟨hpkt, hnext, heff.trans heffects, hbytes.trans (sameBytes_withCore u hid hspad)⟩

/-- Hands a request of the core's own on to another cluster, which counts in OUT of the direct status. -/
theorem directSend_leaves {s : State} {t : Target} (cls : BitVec 4) (body : PktBody) (hown : s.ownCluster s.core.id t = false) :
    ∃ u, directSend s t cls body = (u, false) ∧ leavesAs s t cls body none u ∧
      u.core = { addEffect (s.effectFor s.core.ownSource t cls) s.core with directOut := s.core.directOut + 1 } := by
  obtain ⟨hleaves, hcore⟩ := handOn_leaves cls body hown
  obtain ⟨u, hu⟩ : ∃ u, s.handOn s.core.ownSource t cls body = (u, none) := ⟨_, if_neg (ne_true_of_eq_false hown)⟩
  rw [hu] at hleaves hcore
  dsimp only at hleaves hcore
  have hsend : directSend s t cls body = ({ u with core := { u.core with directOut := u.core.directOut + 1 } }, false) := by
    show (match s.handOn s.core.ownSource t cls body with
      | (u, none) => _
      | (u, some (.deny _)) => _
      | (u, some _) => _) = _
    rw [hu]
    exact if_neg (ne_true_of_eq_false hown)
  refine ⟨_, hsend, leavesFrom_withCore hleaves rfl rfl rfl, ?_⟩
  rw [hcore]
  rfl

/-- The checks of a request under the direct status (R288, R300, R342). -/
theorem directReady_full {s : State} {t : Target} {cls : BitVec 4} (hf : fenceHolds s.core.fences s.core.effects t.die cls = false) (h : 16 ≤ s.core.directOut) :
    directReady s t cls = .stall .allowance := by
  rw [directReady, hf, stallIf_false, Res.ok_bind, show decide (Config.directAllowance ≤ s.core.directOut) = true from decide_eq_true h, Bool.true_or, stallIf_true]

theorem directReady_ok {s : State} {t : Target} {cls : BitVec 4} (hf : fenceHolds s.core.fences s.core.effects t.die cls = false)
    (h : s.core.directOut < 16) (hroom : s.die.pairRoom t.die cls = true) : directReady s t cls = .ok () := by
  have hout : decide (Config.directAllowance ≤ s.core.directOut) = false := decide_eq_false (not_le.2 h)
  rw [directReady, hf, stallIf_false, Res.ok_bind, hout, hroom, Bool.not_true, Bool.or_false, stallIf_false]

/-! ## Messages (R179) -/

/-- The end of `msg.send`: a message that was not answered at hand-on is one that is not accepted yet. -/
def messageSent (uid : Nat) (r : State × Bool) : Res State :=
  match r with
  | (u, true) => .ok u.advance
  | (u, false) => .ok { u with core := { u.core with msgsOut := u.core.msgsOut ++ [uid] } }.advance

section
variable {s : State} {o : OpMsgSend} (hcv : s.core.status.cv = true) (habsent : msgAbsent s (s.rd o.b) = false)
  (htorus : s.inTorus (s.target (s.rd o.b)).die = true)
include hcv habsent htorus

/-- A message to a place that is there waits while the core has 16 that are not accepted. -/
theorem msgSend_waits (h : 16 ≤ s.core.msgsOut.length) : exec (.msgSend o) s = .next (s.waitsOn .message) := by
  show execMsgSend o s = _
  simp only [execMsgSend, needCtx_ok hcv, habsent, htorus, decide_eq_true h, Bool.true_or, Bool.not_true, Bool.false_eq_true, if_false, Res.ok_bind,
    faultAt_false, stallIf_true, Res.stall_bind, ends_stall]
  rfl

variable (hout : s.core.msgsOut.length < 16) (hretry : s.die.retryBlocks (s.target (s.rd o.b)) o.cls (isMsgTo (s.target (s.rd o.b)).core) = false)
include hout hretry

/-- With fewer, and none to the same place that was put off, it is a request under the direct status. -/
theorem msgSend_direct : exec (.msgSend o) s = ends s ((directReady s (s.target (s.rd o.b)) o.cls).bind fun _ =>
    messageSent s.modul.nextUid (directSend s (s.target (s.rd o.b)) o.cls (.msg (s.rd o.a)))) := by
  show execMsgSend o s = _
  simp only [execMsgSend, needCtx_ok hcv, habsent, htorus, hretry, decide_eq_false (not_le.2 hout), Bool.or_false, Bool.not_true, Bool.false_eq_true,
    if_false, Res.ok_bind, faultAt_false, stallIf_false]
  rfl
end

/-- What a pair written at the end of an instruction leaves. -/
theorem State.wrPair_advance (s : State) (d : Reg) (lo hi : Word) : ((s.wrPair d lo hi).advance).settled = s.afterPair d lo hi := by
  unfold State.afterPair State.afterWrite Core.regsWith State.wrPair State.wr Core.wr regAfter
  split <;> split <;> rfl

theorem messageReceive_holds : messageReceive := by
  intro s o hcv
  refine ⟨fun m rest hin => ?_, fun hin => ?_, ?_⟩
  · show execMsgRecv o s = _
    rw [execMsgRecv, needCtx_ok hcv, Res.ok_bind, hin]
    dsimp only
    rw [ends_ok, State.wrPair_advance]
    rfl
  · show execMsgRecv o s = _
    rw [execMsgRecv, needCtx_ok hcv, Res.ok_bind, hin, ends_stall]
    rfl
  · show execMsgPoll o s = _
    rw [execMsgPoll, needCtx_ok hcv, Res.ok_bind, ends_ok, State.wr_advance]

theorem messageSend_holds : messageSend := by
  intro s o hcv w t habsent htorus hown
  refine ⟨msgSend_waits hcv habsent htorus, fun hout hretry hfence => ⟨fun hfull => ?_, fun hdirect hroom => ?_⟩⟩
  · rw [msgSend_direct hcv habsent htorus hout hretry, directReady_full hfence hfull, Res.stall_bind, ends_stall]
    rfl
  · obtain ⟨u, hu, hleaves, hcore⟩ := directSend_leaves o.cls (.msg (s.rd o.a)) hown
    rw [msgSend_direct hcv habsent htorus hout hretry, directReady_ok hfence hdirect hroom, Res.ok_bind, hu]
    refine ⟨_, rfl, leavesFrom_withCore hleaves rfl rfl rfl, ?_⟩
    dsimp only [State.advance, State.settled]
    rw [hcore]
    exact ⟨rfl, rfl, rfl, rfl⟩

end Sys2Proof.Machine

namespace Sys2Proof
open Sys2Proof.Machine

/-- Settles O15: `messageReceive_holds` and `messageSend_holds`. -/
theorem messages : Obligations.Messages := ⟨messageReceive_holds, messageSend_holds⟩

end Sys2Proof
end

section
/-! SUPPORT. O16: barriers (R185, R186). -/

namespace Sys2Proof.Machine

/-! ## A core's part of a barrier -/

theorem part_eq (b : Barrier) (k : Fin 4) : b.part k.val = b.cores[k] := by
  simp [Barrier.part, List.getD_eq_getElem?_getD]

theorem cores_setPart (b : Barrier) (k j : Fin 4) (v : BarCore) : (b.setPart k.val v).cores[j] = if j = k then v else b.cores[j] := by
  simp only [Barrier.setPart, Fin.getElem_fin, Vector.getElem_ofFn, Fin.ext_iff]

theorem tokenMet_iff (b : Barrier) (w : Word) : (tokenMet b w = true ↔ w.toNat / 2 % 2 ^ 32 ≠ (if w.getLsbD 0 then b.g1 else b.g0).toNat) := by
  rw [tokenMet, bne_iff_ne, ne_comm]
  rfl

/-! ## The arrival (R186) -/

/-- What an arrival changes of its core's part: the parity flips, and the pending bit of the old one is set. -/
def BarCore.arrived (c : BarCore) : BarCore := { c with lp := !c.lp, pd0 := c.pd0 || !c.lp, pd1 := c.pd1 || c.lp }

/-- How many have arrived at a parity. -/
def Barrier.count (b : Barrier) (p : Bool) : Nat := if p then b.a1 else b.a0

/-- The barrier with the arrival of core k counted. -/
def Barrier.counted (b : Barrier) (k : Fin 4) : Barrier :=
  { b.setPart k.val b.cores[k].arrived with
    a0 := if b.cores[k].lp then b.a0 else b.a0 + 1
    a1 := if b.cores[k].lp then b.a1 + 1 else b.a1 }

theorem cores_counted (b : Barrier) (k j : Fin 4) : (b.counted k).cores[j] = if j = k then b.cores[k].arrived else b.cores[j] :=
  cores_setPart b k j _

theorem cores_complete (b : Barrier) (p : Bool) (j : Fin 4) :
    (b.complete p).cores[j] = if p then { b.cores[j] with pd1 := false } else { b.cores[j] with pd0 := false } := by
  cases p
  · exact Vector.getElem_map ..
  · exact Vector.getElem_map ..

section
variable (b : Barrier) (k : Fin 4)

/-- An arrival is counted, and the last one of its parity completes the phase. -/
theorem arrive_eq : b.arrive k.val =
    if b.count b.cores[k].lp + 1 = b.cnt then (b.counted k).complete b.cores[k].lp else b.counted k := by
  unfold Barrier.arrive Barrier.counted BarCore.arrived Barrier.count
  simp only [part_eq]
  cases b.cores[k].lp
  · rfl
  · rfl

variable {b k} {p : Bool} (hp : b.cores[k].lp = p)
include hp

/-- What an arrival leaves of the counts and generations. -/
theorem arrive_counts : let b' := b.arrive k.val; let last := b.count p + 1 = b.cnt
    b'.cnt = b.cnt ∧ b'.count p = (if last then 0 else b.count p + 1) ∧ b'.gen p = (if last then b.gen p + 1 else b.gen p) ∧
      b'.count (!p) = b.count (!p) ∧ b'.gen (!p) = b.gen (!p) := by
  intro b' last
  have hb : b' = if last then (b.counted k).complete p else b.counted k := by simp only [b', last, arrive_eq, hp]
  have hp' : b.cores[k.val].lp = p := hp
  rw [hb]
  cases p
  all_goals
    by_cases h : last
    · simp [h, hp', Barrier.count, Barrier.gen, Barrier.counted, Barrier.complete, Barrier.setPart]
    · simp [h, hp', Barrier.count, Barrier.gen, Barrier.counted, Barrier.setPart]

/-- What an arrival leaves of a core's part. -/
theorem arrive_cores (j : Fin 4) : let c := (b.arrive k.val).cores[j]
    c.lp = (if j = k then !p else b.cores[j].lp) ∧ c.pd (!p) = b.cores[j].pd (!p) ∧
      c.pd p = (if b.count p + 1 = b.cnt then false else if j = k then true else b.cores[j].pd p) ∧
      c.sip = b.cores[j].sip ∧ c.saved = b.cores[j].saved := by
  intro c
  have hc : c = if b.count p + 1 = b.cnt then ((b.counted k).complete p).cores[j] else (b.counted k).cores[j] := by
    show (b.arrive k.val).cores[j] = _
    simp only [arrive_eq, hp]
    split
    · rfl
    · rfl
  have hp' : b.cores[k.val].lp = p := hp
  rw [hc, cores_complete, cores_counted]
  by_cases hj : j = k
  · subst hj
    cases p <;> split <;> simp [BarCore.arrived, BarCore.pd, hp']
  · rw [if_neg hj, if_neg hj, if_neg hj]
    cases p <;> split <;> simp [BarCore.pd]
end

/-! ## `bar.arrive` -/

theorem pd_eq (c : BarCore) (p : Bool) : c.pd p = if p then c.pd1 else c.pd0 := rfl

/-- The stalls before an arrival. -/
theorem arriveReady_eq {s : State} {k : Fin 4} (hk : s.core.id.core = k.val) (n : BitVec 4) : arriveReady s n =
    stallIf (decide ((s.barrier n).cnt = 0) || (s.barrier n).cores[k].pd (s.barrier n).cores[k].lp) .barrier := by
  rw [arriveReady, hk, part_eq]

theorem token_eq (b : Barrier) (k : Fin 4) : b.token k.val =
    BitVec.ofNat 64 ((if b.cores[k].lp then b.g1 else b.g0).toNat * 2 + if b.cores[k].lp then 1 else 0) := by
  rw [Barrier.token, part_eq]
  rfl

theorem barrierArrival_holds : barrierArrival := by
  intro s o k hcv hk b c p gen count openAt
  have hready := arriveReady_eq hk o.n
  have run : exec (.barArrive o) s = endsAfter s ((needCtx s).bind fun _ => arriveReady s o.n) o.rel (1 <<< o.cls.toNat) 3
      (.ok ((s.setBarrier o.n (b.arrive k.val)).wr o.d (b.token k.val)).advance) := by
    rw [← hk]
    rfl
  rw [run, needCtx_ok hcv, Res.ok_bind, hready]
  have hstalls : (decide (b.cnt = 0) || c.pd c.lp) = true ↔ b.cnt = 0 ∨ openAt = true := by
    rw [Bool.or_eq_true, decide_eq_true_iff]
    rfl
  refine ⟨fun h => ?_, fun hcnt hopen hrel => ⟨b.arrive k.val, ?_, ?_⟩⟩
  · rw [hstalls.2 h]
    rfl
  · have hfree : (o.rel && outstanding s (fenceSet s (1 <<< o.cls.toNat) 3)) = false := by
      rw [Bool.and_eq_false_iff]
      exact hrel
    have hgoes := eq_false_of_ne_true (hstalls.not.2 (not_or.2 ⟨hcnt, ne_true_of_eq_false hopen⟩))
    rw [hgoes, stallIf_false, endsAfter_ends hfree, ends_ok, State.wr_advance, token_eq]
  · have hp : b.cores[k].lp = p := rfl
    obtain ⟨hcnt', hcount, hgen, hcount', hgen'⟩ := arrive_counts hp
    have hcores := arrive_cores hp
    generalize b.arrive k.val = b' at *
    clear_value p
    have hother (j : Fin 4) : (if p then b'.cores[j].pd0 = b.cores[j].pd0 else b'.cores[j].pd1 = b.cores[j].pd1) ∧ (j ≠ k → b'.cores[j].lp = b.cores[j].lp) ∧
        b'.cores[j].sip = b.cores[j].sip ∧ b'.cores[j].saved = b.cores[j].saved := by
      obtain ⟨hlp, hpd', -, hsip, hsaved⟩ := hcores j
      refine ⟨?_, fun hj => by rw [hlp, if_neg hj], hsip, hsaved⟩
      cases p
      · exact hpd'
      · exact hpd'
    have hlp : b'.cores[k].lp = !p := by rw [(hcores k).1, if_pos rfl]
    have hpd (j : Fin 4) := (hcores j).2.2.1
    refine ⟨hcnt', hlp, ?_, hother, fun hlast => ?_, fun hmore => ?_⟩
    · cases p
      · exact ⟨hcount', hgen'⟩
      · exact ⟨hcount', hgen'⟩
    · replace hlast : b.count p + 1 = b.cnt := hlast
      simp only [if_pos hlast] at hcount hgen hpd
      cases p
      · exact ⟨⟨hcount, hgen⟩, hpd⟩
      · exact ⟨⟨hcount, hgen⟩, hpd⟩
    · replace hmore : b.count p + 1 ≠ b.cnt := hmore
      simp only [if_neg hmore] at hcount hgen hpd
      cases p
      · exact ⟨⟨hcount, hgen⟩, hpd⟩
      · exact ⟨⟨hcount, hgen⟩, hpd⟩

/-! ## `bar.wait` and `bar.init` -/

theorem barWait_eq {s : State} (hcv : s.core.status.cv = true) (o : OpBarWait) : exec (.barWait o) s =
    .next (if tokenMet (s.barrier o.n) (s.rd o.a) then (s.afterWait o.acq).afterNext else s.waitsOn .barrier) := by
  show execBarWait o s = _
  rw [execBarWait, needCtx_ok hcv, Res.ok_bind]
  cases tokenMet (s.barrier o.n) (s.rd o.a)
  · rfl
  · cases o.acq <;> rfl

/-- The barrier that `bar.init` leaves. -/
def Barrier.anew (b : Barrier) (n : Nat) : Barrier :=
  { cnt := n, a0 := 0, a1 := 0, g0 := b.g0 + 1, g1 := b.g1 + 1, cores := b.cores.map fun c => { c with lp := false, pd0 := false, pd1 := false, sip := false } }

theorem cores_anew (b : Barrier) (n : Nat) (k : Fin 4) :
    (b.anew n).cores[k] = { b.cores[k] with lp := false, pd0 := false, pd1 := false, sip := false } := Vector.getElem_map ..

/-! ## `bar.sync` -/

/-- A barrier that was written is read, and the loaded context stays. -/
theorem barrier_setBarrier {s : State} {x : CtxCluster} (hx : s.cluster.ctxAt s.core.cid.toNat = some x) (n : BitVec 4) (b : Barrier) :
    (s.setBarrier n b).barrier n = b ∧ ∃ y, (s.setBarrier n b).cluster.ctxAt s.core.cid.toNat = some y := by
  have hset : (s.setBarrier n b).cluster.ctxAt s.core.cid.toNat = _ :=
    ctxAt_updCtx s.cluster s.core.cid.toNat (fun x => { x with barriers := x.barriers.set n.toNat b n.isLt }) (fun _ => rfl)
  rw [hx, Option.map_some] at hset
  refine ⟨?_, _, hset⟩
  show (((s.setBarrier n b).cluster.ctxAt s.core.cid.toNat).map _).getD {} = b
  rw [hset]
  exact Vector.getElem_set_self ..

/-- The barrier when the `bar.sync` of core k is over: its synchronisation in progress is cleared. -/
def Barrier.synced (b : Barrier) (k : Fin 4) : Barrier := b.setPart k.val { b.cores[k] with sip := false }

theorem cores_synced (b : Barrier) (k : Fin 4) : (b.synced k).cores[k] = { b.cores[k] with sip := false } := by
  rw [Barrier.synced, cores_setPart, if_pos rfl]

/-- The state that a `bar.sync` leaves when it goes on. -/
def State.synced (s : State) (o : OpBarSync) (tok : Word) (b : Barrier) : State :=
  { s.setBarrier o.n b with core := ((s.afterWait o.acq).afterWrite o.d tok).core }

theorem sameBytes_synced (s : State) (o : OpBarSync) (tok : Word) (b : Barrier) : SameBytes s (s.synced o tok b) :=
  SameBytes.of_eq rfl rfl rfl rfl rfl

theorem barrier_synced {s : State} {x : CtxCluster} (hx : s.cluster.ctxAt s.core.cid.toNat = some x) (o : OpBarSync) (tok : Word) (b : Barrier) :
    (s.synced o tok b).barrier o.n = b := (barrier_setBarrier hx o.n b).1

/-- What `bar.sync` does with its token (R186). -/
theorem syncWait_eq {s : State} {k : Fin 4} (hk : s.core.id.core = k.val) (o : OpBarSync) (tok : Word) : syncWait s o tok =
    .next (if tokenMet (s.barrier o.n) tok then s.synced o tok ((s.barrier o.n).synced k)
      else (s.wr o.d tok).stalledOn .barrier { ids := [], n := tok.toNat + 1 }) := by
  rw [syncWait, hk, part_eq]
  split
  · unfold Barrier.synced State.synced State.afterWrite Core.regsWith State.wr Core.wr State.setBarrier
    congr 1
    split <;> cases o.acq <;> rfl
  · rfl

/-- The barrier when the `bar.sync` of core k has arrived and waits on its token. -/
def Barrier.syncing (b : Barrier) (k : Nat) : Barrier := (b.arrive k).setPart k { (b.arrive k).part k with sip := true, saved := b.token k }

/-- The only core of a barrier begins the next generation of parity 0 by its first arrival. -/
theorem syncing_alone {b : Barrier} {k : Fin 4} (hcnt : b.cnt = 1) (ha : b.a0 = 0) (hlp : b.cores[k].lp = false) :
    (b.syncing k).g0 = b.g0 + 1 ∧ (b.syncing k).a0 = 0 ∧ (b.syncing k).cores[k].lp = true := by
  obtain ⟨-, hcount, hgen, -, -⟩ := arrive_counts hlp
  have hlast : b.count false + 1 = b.cnt := by rw [hcnt, Barrier.count, if_neg Bool.false_ne_true, ha]
  rw [if_pos hlast] at hcount hgen
  refine ⟨hgen, hcount, ?_⟩
  rw [Barrier.syncing, cores_setPart, if_pos rfl, part_eq]
  exact (arrive_cores hlp k).1.trans (if_pos rfl)

theorem regs_wr (s : State) (d : Reg) (v : Word) : (s.wr d v).core.regs = s.core.regsWith d v := by
  unfold State.wr Core.wr Core.regsWith
  split <;> rfl

/-- A `bar.sync` that waits for a fence has taken no token yet. -/
theorem syncToken_none {c : Core} (h : ∀ i, c.issued = some i → i.n = 0) : c.syncToken = none := by
  rw [Core.syncToken]
  cases hi : c.issued with
  | none => rfl
  | some i => rw [Option.bind_some, if_pos (h i hi)]

section
variable {s : State} {o : OpBarSync} {k : Fin 4} (hcv : s.core.status.cv = true) (hk : s.core.id.core = k.val)
include hcv

/-- A core that has arrived, now or before a load, waits on its token. -/
theorem barSync_waits {tok : Word} (h : (∃ i, s.core.issued = some i ∧ i.n = tok.toNat + 1) ∨
      s.core.issued = none ∧ ((s.barrier o.n).part s.core.id.core).sip = true ∧ ((s.barrier o.n).part s.core.id.core).saved = tok) :
    exec (.barSync o) s = syncWait s o tok := by
  show execBarSync o s = _
  rw [execBarSync, needCtx_ok hcv]
  rcases h with ⟨i, hi, hn⟩ | ⟨hnone, hsip, rfl⟩
  · have htok : s.core.syncToken = some tok := by
      rw [Core.syncToken, hi, Option.bind_some, hn, if_neg (Nat.succ_ne_zero _), Nat.add_sub_cancel, BitVec.ofNat_toNat, BitVec.setWidth_eq]
    rw [htok]
  · rw [syncToken_none (by simp [hnone])]
    exact if_pos hsip

variable (htok : s.core.syncToken = none) (hsip : ((s.barrier o.n).part s.core.id.core).sip = false)
include htok hsip

/-- One that has not waits as an arrival does. -/
theorem barSync_stalls (h : arriveReady s o.n = .stall .barrier) : exec (.barSync o) s = .next (s.waitsOn .barrier) := by
  show execBarSync o s = _
  simp only [execBarSync, needCtx_ok hcv, htok, hsip, h, Bool.false_eq_true, if_false]
  rfl

/-- Or it arrives, and waits on its token. -/
theorem barSync_arrives (h : arriveReady s o.n = .ok ()) (hrel : (o.rel && outstanding s (fenceSet s (1 <<< o.cls.toNat) 3)) = false) :
    exec (.barSync o) s = syncWait (s.setBarrier o.n ((s.barrier o.n).syncing s.core.id.core)).settled o ((s.barrier o.n).token s.core.id.core) := by
  show execBarSync o s = _
  rw [execBarSync, needCtx_ok hcv, htok]
  simp only [hsip, h, Bool.false_eq_true, if_false]
  exact if_neg (ne_true_of_eq_false hrel)
end

theorem barrierWaitAndInit_holds : barrierWaitAndInit := by
  intro s hcv
  refine ⟨fun o => ?wait, fun o => ?init, fun o k x hk hx => ?sync⟩
  case wait =>
    intro b v gen
    rw [barWait_eq hcv]
    exact ⟨fun h => by rw [if_pos ((tokenMet_iff b v).2 h)], fun h => by rw [if_neg ((tokenMet_iff b v).not.2 (not_not.2 h))]⟩
  case init =>
    refine ⟨(s.barrier o.n).anew o.cnt.toNat, ?_, rfl, rfl, rfl, rfl, rfl, fun k => ?_⟩
    · show execBarInit o s = _
      rw [execBarInit, needCtx_ok hcv, Res.ok_bind, ends_ok]
      rfl
    · rw [cores_anew]
      exact ⟨rfl, rfl, rfl, rfl⟩
  case sync =>
    intro b c
    have hpart : b.part s.core.id.core = c := by rw [hk, part_eq]
    have hready := arriveReady_eq hk o.n
    refine ⟨fun hnone hsip => ⟨fun hcnt ha0 ha1 hlp hpd hrel => ?arrives, fun h => ?stalls⟩, fun tok htok => ⟨fun h => ?met, fun h => ?waits⟩⟩
    case stalls =>
      refine barSync_stalls hcv (syncToken_none (by simp [hnone])) (hpart ▸ hsip) ?_
      rw [hready, show (decide (b.cnt = 0) || c.pd c.lp) = true from Bool.or_eq_true_iff.2 (h.imp decide_eq_true id), stallIf_true]
    case met =>
      rw [barSync_waits hcv (hpart ▸ htok), syncWait_eq hk, if_pos ((tokenMet_iff b tok).2 h)]
      refine ⟨_, rfl, rfl, ?_, ?_, ?_, sameBytes_synced ..⟩
      · rw [barrier_synced hx]
        rfl
      · rw [barrier_synced hx]
        rfl
      · simp only [barrier_synced hx, cores_synced]
    case waits =>
      rw [barSync_waits hcv (hpart ▸ htok), syncWait_eq hk, if_neg ((tokenMet_iff b tok).not.2 (not_not.2 h))]
      refine ⟨_, rfl, ?_, ?_, rfl, rfl, rfl⟩
      · exact regs_wr s o.d tok
      · exact State.wr_core_pc s o.d tok
    case arrives =>
      have hfree : (o.rel && outstanding s (fenceSet s (1 <<< o.cls.toNat) 3)) = false := by
        rw [Bool.and_eq_false_iff]
        exact hrel
      have hgo : (decide (b.cnt = 0) || c.pd c.lp) = false := by
        rw [Bool.or_eq_false_iff, hcnt, hlp]
        exact ⟨rfl, hpd⟩
      have run := barSync_arrives hcv (syncToken_none (by simp [hnone])) (hpart ▸ hsip) (by rw [hready, hgo, stallIf_false]) hfree
      have htok : b.token s.core.id.core = BitVec.ofNat 64 (b.g0.toNat * 2) := by rw [hk, token_eq, hlp]; rfl
      rw [htok, hk] at run
      obtain ⟨hg, ha, hl⟩ := syncing_alone (k := k) hcnt ha0 hlp
      generalize b.syncing k.val = b1 at run hg ha hl
      obtain ⟨hread, y, hy⟩ := barrier_setBarrier hx o.n b1
      have hmet : tokenMet b1 (BitVec.ofNat 64 (b.g0.toNat * 2)) = true := by
        have hval : (BitVec.ofNat 64 (b.g0.toNat * 2)).toNat = b.g0.toNat * 2 := by
          rw [BitVec.toNat_ofNat]
          exact Nat.mod_eq_of_lt (by have := b.g0.isLt; omega)
        have heven : (BitVec.ofNat 64 (b.g0.toNat * 2)).getLsbD 0 = false := by
          rw [BitVec.getLsbD, hval, Nat.testBit_zero]
          simp
        rw [tokenMet_iff, hval, heven, if_neg Bool.false_ne_true, hg, Nat.mul_div_cancel _ two_pos, Nat.mod_eq_of_lt b.g0.isLt]
        intro heq
        have : b.g0 = b.g0 + 1 := BitVec.eq_of_toNat_eq heq
        bv_omega
      let u := (s.setBarrier o.n b1).settled
      have hu : u.barrier o.n = b1 := hread
      have hsynced := barrier_synced (s := u) hy o (BitVec.ofNat 64 (b.g0.toNat * 2)) (b1.synced k)
      rw [run, syncWait_eq (s := u) hk, hu, if_pos hmet]
      refine ⟨_, rfl, rfl, ?_, ?_, ?_, ?_, SameBytes.of_eq rfl rfl rfl rfl rfl⟩
      · rw [hsynced]
        exact hg
      · rw [hsynced]
        exact ha
      · simp only [hsynced, cores_synced, hl]
      · simp only [hsynced, cores_synced]

end Sys2Proof.Machine

namespace Sys2Proof
open Sys2Proof.Machine

/-- Settles O16: `barrierArrival_holds` and `barrierWaitAndInit_holds`. -/
theorem barriers : Obligations.Barriers := ⟨barrierArrival_holds, barrierWaitAndInit_holds⟩

end Sys2Proof
end

section
/-! SUPPORT. O22: fences (R183, R340–R345). -/

namespace Sys2Proof.Machine

/-! ## The earlier set (R341, R343) -/

section
variable {s : State} {mask : BitVec 16} {scope : Nat}

theorem dieIndex_isSome {n : Nat} : (s.dieIndex n).isSome = true ↔ ∃ d < s.dies, s.dieNumber d = n := by
  simp [State.dieIndex, List.find?_isSome]

theorem inScope_iff {e : Effect} : inScope s scope e = true ↔ inReach s scope e := by
  unfold inScope inReach
  cases e.host with
  | true => simp
  | false =>
    rcases scope with _ | _ | _ | n
    · simp [and_assoc]
    · simp
    · simpa using dieIndex_isSome
    · simp

theorem mem_earlier {e : Effect} : e ∈ earlier s mask ↔ earlierEffect s mask e := by
  rw [earlier, List.mem_filter, Bool.and_eq_true, earlierEffect]
  cases e.task with
  | none => simp
  | some t => simp [State.taskPending]

/-- What a fence takes down when it issues. -/
theorem mem_fenceSet (hi : s.core.issued = none) {u : Nat} :
    u ∈ fenceSet s mask scope ↔ ∃ e, e.uid = u ∧ earlierEffect s mask e ∧ inReach s scope e := by
  simp only [fenceSet, hi, List.mem_map, List.mem_filter, mem_earlier, inScope_iff]
  exact exists_congr fun _ => and_comm

/-- It waits when it takes something down. -/
theorem outstanding_issues (hi : s.core.issued = none) :
    outstanding s (fenceSet s mask scope) = true ↔ ∃ e, earlierEffect s mask e ∧ inReach s scope e := by
  rw [outstanding, List.any_eq_true]
  simp only [List.contains_iff_mem, mem_fenceSet hi]
  constructor
  · rintro ⟨_, -, e, -, he⟩
    exact ⟨e, he⟩
  · rintro ⟨e, he⟩
    exact ⟨e, he.1.1, e, rfl, he⟩

/-- It goes on waiting while an answer is out. -/
theorem outstanding_issued {k : Issued} (hi : s.core.issued = some k) :
    outstanding s (fenceSet s mask scope) = true ↔ ∃ e ∈ s.core.effects, e.uid ∈ k.ids := by
  simp only [outstanding, fenceSet, hi, List.any_eq_true, List.contains_iff_mem]

/-- An instruction that waits for its set waits for its earlier effects. -/
theorem waitsForEffects_of {i : Instr} (h : outstanding s (fenceSet s mask scope) = true →
    exec i s = .next (s.stalledOn .fence { ids := fenceSet s mask scope, n := 0 })) : waitsForEffects s mask scope i := by
  refine ⟨fun hi hout => ⟨_, h ((outstanding_issues hi).2 hout), fun _ => mem_fenceSet hi⟩, fun k hi hout => ?_⟩
  have hset : fenceSet s mask scope = k.ids := by simp only [fenceSet, hi]
  exact hset ▸ h ((outstanding_issued hi).2 hout)

/-- The wait of a release whose checks pass (R183). -/
theorem endsAfter_waits {r : Res State} (h : outstanding s (fenceSet s mask scope) = true) :
    endsAfter s (.ok ()) true mask scope r = .next (s.stalledOn .fence { ids := fenceSet s mask scope, n := 0 }) := if_pos h
end

/-! ## `fence.c` (R342) -/

/-- Orders whose effects are all performed hold nothing back. -/
theorem fenceHolds_live (orders : List FenceOrder) (effects : List Effect) (die : Nat) (cls : BitVec 4) :
    fenceHolds (orders.filter (fun f => f.uids.any fun u => effects.any fun x => x.uid = u)) effects die cls = fenceHolds orders effects die cls := by
  rw [fenceHolds, List.any_filter]
  congr 1
  funext f
  rw [Bool.eq_iff_iff, Bool.and_eq_true, and_iff_right_iff_imp, Bool.and_eq_true, List.any_eq_true]
  rintro ⟨-, e, he, h⟩
  rw [Bool.and_eq_true, List.contains_iff_mem] at h
  exact List.any_eq_true.2 ⟨e.uid, h.2, List.any_eq_true.2 ⟨e, he, decide_eq_true rfl⟩⟩

/-- What a new order holds back. -/
theorem fenceHolds_new {s : State} {mask : BitVec 16} {die : Nat} {cls : BitVec 4} :
    fenceHolds [{ mask := mask, uids := (earlier s mask).map fun x => x.uid }] s.core.effects die cls = true ↔
      mask.getLsbD cls.toNat = true ∧ ∃ e e', e' ∈ s.core.effects ∧ e'.die = die ∧ e'.host = false ∧ e'.uid = e.uid ∧ earlierEffect s mask e := by
  simp only [fenceHolds, List.any_cons, List.any_nil, Bool.or_false, Bool.and_eq_true, List.any_eq_true, decide_eq_true_iff, Bool.not_eq_true',
    List.contains_iff_mem, List.mem_map, mem_earlier]
  refine and_congr_right fun _ => ⟨?_, ?_⟩
  · rintro ⟨e', he', ⟨hdie, hhost⟩, e, he, hu⟩
    exact ⟨e, e', he', hdie, hhost, hu.symm, he⟩
  · rintro ⟨e, e', he', hdie, hhost, hu, he⟩
    exact ⟨e', he', ⟨hdie, hhost⟩, e, he, hu.symm⟩

/-- The orders that `fence.c` leaves: the live ones, and its own when there is something to wait for. -/
def fencesAfter (s : State) (mask : BitVec 16) : List FenceOrder :=
  let live := s.core.fences.filter (fun f => f.uids.any fun u => s.core.effects.any fun x => x.uid = u)
  if (earlier s mask).isEmpty then live else live ++ [{ mask := mask, uids := (earlier s mask).map fun x => x.uid }]

theorem exec_fenceC (s : State) (o : OpFenceC) : exec (.fenceC o) s = .next (s.afterNextWith fun c => { c with fences := fencesAfter s o.mask }) := by
  show execFenceC o s = _
  simp only [execFenceC, fencesAfter]
  split <;> rfl

theorem fenceHolds_fencesAfter (s : State) (mask : BitVec 16) (die : Nat) (cls : BitVec 4) :
    fenceHolds (fencesAfter s mask) s.core.effects die cls = true ↔ fenceHolds s.core.fences s.core.effects die cls = true ∨
      mask.getLsbD cls.toNat = true ∧ ∃ e e', e' ∈ s.core.effects ∧ e'.die = die ∧ e'.host = false ∧ e'.uid = e.uid ∧ earlierEffect s mask e := by
  unfold fencesAfter
  split
  · next hempty =>
    rw [fenceHolds_live, iff_self_or]
    rintro ⟨-, e, e', -, -, -, -, he⟩
    exact absurd (mem_earlier.2 he) (List.isEmpty_iff.1 hempty ▸ List.not_mem_nil)
  · rw [fenceHolds, List.any_append, Bool.or_eq_true]
    exact or_congr (by rw [← fenceHolds, fenceHolds_live]) fenceHolds_new

/-! ## The release forms (R183) -/

/-- A barrier that lets an arrival in. -/
theorem arriveReady_ok {s : State} {n : BitVec 4} {k : Fin 4} (hk : s.core.id.core = k.val) (hcnt : (s.barrier n).cnt ≠ 0)
    (hopen : (let c := (s.barrier n).cores[k]; if c.lp then c.pd1 else c.pd0) = false) : arriveReady s n = .ok () := by
  rw [arriveReady_eq hk, decide_eq_false hcnt, Bool.false_or, pd_eq]
  exact congrArg (stallIf · .barrier) hopen

section
variable {s : State} (hcv : s.core.status.cv = true)
include hcv

/-- An update of a flag whose checks pass. -/
theorem flagUpdate_waits {o : OpFlagAdd} {x : CtxCluster} (op : FlagOp) (hrel : o.rel = true) (hx : s.cluster.ctxAt s.core.cid.toNat = some x)
    (hok : (x.coreFlags (flagCore s o).core).launched = true ∧ (flagEntry (x.coreFlags (flagCore s o).core).fmap o.f).1 = true)
    (hfree : flagCore s o = s.core.id ∨ fenceHolds s.core.fences s.core.effects (s.dieNumber s.core.id.die) o.cls = false)
    (hout : outstanding s (fenceSet s (1 <<< o.cls.toNat) 3) = true) :
    flagUpdate o s op = .next (s.stalledOn .fence { ids := fenceSet s (1 <<< o.cls.toNat) 3, n := 0 }) := by
  have hheld : (flagCore s o != s.core.id && fenceHolds s.core.fences s.core.effects (s.dieNumber s.core.id.die) o.cls) = false := by
    rw [Bool.and_eq_false_iff]
    exact hfree.imp bne_eq_false_iff_eq.2 id
  rw [flagUpdate_eq hcv o op rfl, flagOk_eq hx, if_pos hok, Res.ok_bind, hheld, stallIf_false, hrel]
  exact endsAfter_waits hout

theorem barArrive_waits {o : OpBarArrive} (hrel : o.rel = true) (hready : arriveReady s o.n = .ok ()) :
    waitsForEffects s (1 <<< o.cls.toNat) 3 (.barArrive o) := by
  refine waitsForEffects_of fun hout => ?_
  show execBarArrive o s = _
  rw [execBarArrive, needCtx_ok hcv, Res.ok_bind, hready, hrel]
  exact endsAfter_waits hout

theorem barSync_releases {o : OpBarSync} (hrel : o.rel = true) (hready : arriveReady s o.n = .ok ()) (htok : s.core.syncToken = none)
    (hsip : ((s.barrier o.n).part s.core.id.core).sip = false) : waitsForEffects s (1 <<< o.cls.toNat) 3 (.barSync o) := by
  refine waitsForEffects_of fun hout => ?_
  show execBarSync o s = _
  simp only [execBarSync, needCtx_ok hcv, htok, hsip, hready, hrel, Bool.false_eq_true, if_false, Bool.true_and]
  exact if_pos hout

theorem rflag_waits {o : OpRflag} {t : Target} (hrel : o.rel = true) (ht : checkTarget s (s.rd o.b) = .ok t) :
    waitsForEffects s (1 <<< o.cls.toNat) 3 (.rflag o) := by
  refine waitsForEffects_of fun hout => ?_
  show execRflag o s = _
  simp only [execRflag, needCtx_ok hcv, Res.ok_bind, ht, hrel]
  exact endsAfter_waits hout

theorem sigSub_waits {o : OpSigSub} {j : Job} (hrel : o.rel = true) (hj : s.jobOf s.core.cid.toNat = some j) (hn : o.j.toNat < j.signals.length) :
    waitsForEffects s (1 <<< o.cls.toNat) 4 (.sigSub o) := by
  have hsignal : signalOf s o.j.toNat = .ok (j.fn, j.signals[o.j.toNat]) := by
    rw [signalOf, State.loadedJob, hj, Option.bind_some, List.getElem?_eq_getElem hn]
    rfl
  refine waitsForEffects_of fun hout => ?_
  show execSigSub o s = _
  simp only [execSigSub, needCtx_ok hcv, Res.ok_bind, hsignal, hrel]
  exact endsAfter_waits hout
end

end Sys2Proof.Machine

namespace Sys2Proof
open Sys2Proof.Machine

/-- Settles O22: `fence.c` leaves its order (`fenceHolds_fencesAfter`); every other wait is that of `endsAfter` (`waitsForEffects_of`). -/
theorem fences : Obligations.Fences := by
  intro s
  refine ⟨fun o => ⟨_, exec_fenceC s o, fenceHolds_fencesAfter s o.mask⟩, fun o => ⟨?_, fun hi h => ?_, fun k hi h => ?_⟩,
    fun hcv => ⟨?_, fun k hk => ⟨fun o hrel hcnt hopen => ?_, fun o hrel hcnt hsip hn hopen => ?_⟩, fun o t => rflag_waits hcv, fun o j => sigSub_waits hcv⟩⟩
  · exact waitsForEffects_of fun hout => endsAfter_waits hout
  · have hfree : outstanding s (fenceSet s o.mask o.scope.toNat) = false :=
      eq_false_of_ne_true ((outstanding_issues hi).not.2 (not_exists.2 h))
    exact endsAfter_ends (by rw [hfree]; rfl)
  · have hfree : outstanding s (fenceSet s o.mask o.scope.toNat) = false :=
      eq_false_of_ne_true ((outstanding_issued hi).not.2 fun ⟨e, he, hu⟩ => h e he hu)
    exact endsAfter_ends (by rw [hfree]; rfl)
  · intro o x hrel hx id there hlaunched hvalid hfree
    have hid : flagCore s o = id := flagCore_eq s o
    have run (op : FlagOp) := flagUpdate_waits hcv op hrel hx (by rw [hid]; exact ⟨hlaunched, hvalid⟩) (by rw [hid]; exact hfree)
    exact ⟨waitsForEffects_of (run (.add ((s.rd o.a).setWidth 32))), waitsForEffects_of (run (.set ((s.rd o.a).setWidth 32)))⟩
  · exact barArrive_waits hcv hrel (arriveReady_ok hk hcnt hopen)
  · exact barSync_releases hcv hrel (arriveReady_ok hk hcnt hopen) (syncToken_none hn) (by rw [hk, part_eq]; exact hsip)

end Sys2Proof
end

section
/-! SUPPORT. O28: the window instructions (R288, R294–R296, R300, R301). -/

namespace Sys2Proof.Machine

/-! ## A core's windows -/

theorem getD_windows (c : Core) (i : Fin 16) : c.windows.toList.getD i.val {} = c.windows[i] := by
  simp [List.getD_eq_getElem?_getD]

theorem updWindow_eq (c : Core) (i : Fin 16) (f : Window → Window) :
    c.updWindow i.val f = { c with windows := c.windows.set i.val (f c.windows[i]) i.isLt } := by
  rw [Core.updWindow]
  congr 1
  ext j hj : 1
  rw [Vector.getElem_ofFn, Vector.getElem_set]
  by_cases h : i.val = j
  · subst h
    rw [if_pos rfl, if_pos rfl]
  · rw [if_neg (Ne.symm h), if_neg h]
    rfl

/-! ## The checks (R295, R300, R301) -/

/-- The loaded context is cancelled in the cluster. -/
def State.ctxCancelled (s : State) : Prop := ∃ x, s.cluster.ctxAt s.core.cid.toNat = some x ∧ x.cancelled = true

theorem notCancelled_fault {s : State} (h : s.ctxCancelled) : notCancelled s = .fault { cause := .cancel } := by
  rw [notCancelled, (Option.any_eq_true ..).2 h, faultIf_true]
theorem notCancelled_ok {s : State} (h : ¬ s.ctxCancelled) : notCancelled s = .ok () := by
  rw [notCancelled, eq_false_of_ne_true ((Option.any_eq_true ..).not.2 h), faultIf_false]

/-- A window with outstanding requests, or that a pending task of the core names. -/
def State.windowBusy (s : State) (i : Fin 16) : Prop := 0 < s.core.windows[i].out ∨ remPending s.pendingTasks s.core.id.core i.val = true

theorem windowIdle_eq (s : State) (i : Fin 16) :
    windowIdle s i.val = stallIf (decide (0 < s.core.windows[i].out) || remPending s.pendingTasks s.core.id.core i.val) .window := by
  rw [windowIdle, getD_windows]
theorem windowIdle_stall {s : State} {i : Fin 16} (h : s.windowBusy i) : windowIdle s i.val = .stall .window := by
  rw [windowIdle_eq, Bool.or_eq_true_iff.2 (h.imp_left decide_eq_true), stallIf_true]
theorem windowIdle_ok {s : State} {i : Fin 16} (h : ¬ s.windowBusy i) : windowIdle s i.val = .ok () := by
  obtain ⟨hout, hrem⟩ := not_or.1 h
  rw [windowIdle_eq, decide_eq_false hout, eq_false_of_ne_true hrem, Bool.or_false, stallIf_false]

/-- The checks of a target (R295). -/
theorem checkTarget_eq (s : State) (w : Word) : checkTarget s w =
    (faultAt (w.getLsbD 18 || !s.inTorus (s.target w).die) .winUnmapped w).bind fun _ =>
    (faultAt ((s.dieIndex (s.target w).die).any (fun d => decide (s.ncl d ≤ (s.target w).clu))) .unitAbsent w).bind fun _ => .ok (s.target w) := rfl

theorem checkTarget_cases (s : State) (w : Word) : let t := s.target w
    let noPlace := w.getLsbD 18 = true ∨ s.inTorus t.die = false
    let noCluster := ∃ d, s.dieIndex t.die = some d ∧ s.ncl d ≤ t.clu
    (noPlace → checkTarget s w = .fault { cause := .winUnmapped, addr := some w }) ∧
    (¬ noPlace → noCluster → checkTarget s w = .fault { cause := .unitAbsent, addr := some w }) ∧
    (¬ noPlace → ¬ noCluster → checkTarget s w = .ok t) := by
  intro t noPlace noCluster
  have hplace : (w.getLsbD 18 || !s.inTorus t.die) = true ↔ noPlace := by rw [Bool.or_eq_true, Bool.not_eq_true']
  have hcluster : (s.dieIndex t.die).any (fun d => decide (s.ncl d ≤ t.clu)) = true ↔ noCluster := by
    simp only [Option.any_eq_true, decide_eq_true_iff]
    rfl
  rw [checkTarget_eq]
  refine ⟨fun h => ?_, fun h hc => ?_, fun h hc => ?_⟩
  · rw [hplace.2 h, faultAt_true, Res.fault_bind]
  · rw [eq_false_of_ne_true (hplace.not.2 h), faultAt_false, Res.ok_bind, hcluster.2 hc, faultAt_true, Res.fault_bind]
  · rw [eq_false_of_ne_true (hplace.not.2 h), faultAt_false, Res.ok_bind, eq_false_of_ne_true (hcluster.not.2 hc), faultAt_false, Res.ok_bind]

/-! ## Mapping and unmapping (R294, R295) -/

/-- A window with a place mapped. -/
def Window.mapTo (w : Window) (t : Target) (rb size : Nat) (raise : Bool) : Window :=
  { w with map := some { die := t.die, clu := t.clu, core := t.core, rb := rb, size := size, raise := raise } }

section
variable {s : State} (hcv : s.core.status.cv = true)
include hcv

theorem winMap_target {o : OpWinMap} {f : FaultInfo} (h : checkTarget s (s.rd o.a) = .fault f) : exec (.winMap o) s = .next (s.takeFault f) := by
  show execWinMap o s = _
  rw [execWinMap, needCtx_ok hcv, Res.ok_bind, h, Res.fault_bind, ends_fault]

theorem rflag_target {o : OpRflag} {f : FaultInfo} (h : checkTarget s (s.rd o.b) = .fault f) : exec (.rflag o) s = .next (s.takeFault f) := by
  show execRflag o s = _
  rw [execRflag, needCtx_ok hcv, Res.ok_bind, h, Res.fault_bind, endsAfter_fault]

/-- `win.map` after the checks of its target. -/
theorem winMap_mapped {o : OpWinMap} {i : Fin 16} {t : Target} (hn : o.n.toNat = i.val) (ht : checkTarget s (s.rd o.a) = .ok t) :
    let rb := (s.rd o.b).toNat % 2 ^ 22; let m := (s.rd o.b).toNat / 2 ^ 32 % 2 ^ 23
    exec (.winMap o) s = ends s ((faultIf (rb % 64 != 0 || m % 64 != 0) .misalign).bind fun _ =>
      (faultAt (m == 0 || decide (0x400000 < m) || decide (0x400000 < rb + m)) .winUnmapped (s.rd o.a)).bind fun _ =>
      (notCancelled s).bind fun _ => (windowIdle s i.val).bind fun _ =>
        .ok { s with core := { s.core with windows := s.core.windows.set i.val (s.core.windows[i].mapTo t rb m o.raise) i.isLt } }.advance) := by
  have hbits : bits (s.rd o.b) 21 0 = (s.rd o.b).toNat % 2 ^ 22 := by rw [bits, pow_zero, Nat.div_one]
  show execWinMap o s = _
  simp only [execWinMap, needCtx_ok hcv, Res.ok_bind, ht, hn, updWindow_eq, hbits]
  rfl

theorem winUnmap_eq {o : OpWin} {i : Fin 16} (hn : o.n.toNat = i.val) : exec (.winUnmap o) s =
    ends s ((notCancelled s).bind fun _ => (windowIdle s i.val).bind fun _ =>
      .ok { s with core := { s.core with windows := s.core.windows.set i.val { s.core.windows[i] with map := none } i.isLt } }.advance) := by
  show execWinUnmap o s = _
  simp only [execWinUnmap, needCtx_ok hcv, Res.ok_bind, hn, updWindow_eq]

theorem winAllow_eq {o : OpWinA} {i : Fin 16} (hn : o.n.toNat = i.val) (h : ¬ s.ctxCancelled) : exec (.winAllow o) s = .next (s.afterNextWith fun c =>
    { c with windows := c.windows.set i.val { s.core.windows[i] with alw := allowance ((s.rd o.a).toNat % 2048) } i.isLt }) := by
  show execWinAllow o s = _
  simp only [execWinAllow, needCtx_ok hcv, notCancelled_ok h, Res.ok_bind, hn, updWindow_eq, ends_ok]
  rfl

/-! ## Reading (R296) -/

theorem winStat_window {o : OpWinStat} {i : Fin 16} (hn : o.n.toNat = i.val) (hdirect : o.direct = false) (h : ¬ s.ctxCancelled) :
    let w := s.core.windows[i]
    exec (.winStat o) s = .next ({ s with core := { s.core with windows := s.core.windows.set i.val { w with den := w.den && !o.clr } i.isLt } }.afterWrite o.d
      (winStatWord w.alw w.out w.map w.den)) := by
  show execWinStat o s = _
  simp only [execWinStat, needCtx_ok hcv, notCancelled_ok h, Res.ok_bind, hn, updWindow_eq, getD_windows, hdirect, Bool.false_eq_true, if_false, ends_ok,
    State.wr_advance]

theorem winStat_direct {o : OpWinStat} (hdirect : o.direct = true) (h : ¬ s.ctxCancelled) :
    exec (.winStat o) s = .next ({ s with core := { s.core with directDen := s.core.directDen && !o.clr } }.afterWrite o.d
      (winStatWord 16 s.core.directOut none s.core.directDen)) := by
  show execWinStat o s = _
  simp only [execWinStat, needCtx_ok hcv, notCancelled_ok h, Res.ok_bind, hdirect, if_true, ends_ok, State.wr_advance]
  rfl
end

/-- A number made of a `win.stat` result's fields, read field by field (R296). -/
theorem statFields {alw out mapped rse den size : Nat} {v : Word} (halw : alw < 2048) (hout : out < 2048) (hmapped : mapped ≤ 1) (hrse : rse ≤ 1) (hden : den ≤ 1)
    (hsize : size < 2 ^ 23)
    (hv : v = BitVec.ofNat 64 (alw % 2048 * 2 ^ 37 + out % 2048 * 2 ^ 26 + mapped * 2 ^ 25 + rse * 2 ^ 24 + den * 2 ^ 23 + size % 2 ^ 23)) :
    v.toNat / 2 ^ 37 = alw ∧ v.toNat / 2 ^ 26 % 2048 = out ∧ (v.getLsbD 23 = true ↔ den = 1) ∧ (v.getLsbD 25 = true ↔ mapped = 1) ∧
      (v.getLsbD 24 = true ↔ rse = 1) ∧ v.toNat % 2 ^ 23 = size := by
  have hnat : v.toNat = alw * 2 ^ 37 + out * 2 ^ 26 + mapped * 2 ^ 25 + rse * 2 ^ 24 + den * 2 ^ 23 + size := by
    rw [hv, BitVec.toNat_ofNat]
    omega
  simp only [BitVec.getLsbD, Nat.testBit_eq_decide_div_mod_eq, decide_eq_true_iff, hnat]
  omega

theorem bitOf_eq_one {b : Bool} : bitOf b = 1 ↔ b = true := by cases b <;> decide

/-- The fields of a `win.stat` result. -/
theorem winStatWord_fields {alw out : Nat} (map : Option WinMap) (den : Bool) (halw : alw < 2048) (hout : out < 2048) (hsize : ∀ m, map = some m → m.size < 2 ^ 23) :
    let v := winStatWord alw out map den
    v.toNat / 2 ^ 37 = alw ∧ v.toNat / 2 ^ 26 % 2048 = out ∧ (v.getLsbD 23 = true ↔ den = true) ∧ (v.getLsbD 25 = true ↔ map ≠ none) ∧
      (map = none → v.toNat % 2 ^ 23 = 0 ∧ v.getLsbD 24 = false) ∧
      ∀ m, map = some m → v.toNat % 2 ^ 23 = m.size ∧ (v.getLsbD 24 = true ↔ m.raise = true) := by
  intro v
  cases map with
  | none =>
    obtain ⟨h1, h2, h3, h4, h5, h6⟩ := statFields (v := v) halw hout (bitOf_le false) (bitOf_le false) (bitOf_le den) (Nat.two_pow_pos 23) rfl
    exact ⟨h1, h2, h3.trans bitOf_eq_one, by simpa [bitOf] using h4, fun _ => ⟨h6, by simpa [bitOf] using h5⟩, nofun⟩
  | some m =>
    obtain ⟨h1, h2, h3, h4, h5, h6⟩ := statFields (v := v) halw hout (bitOf_le true) (bitOf_le m.raise) (bitOf_le den) (hsize m rfl) rfl
    refine ⟨h1, h2, h3.trans bitOf_eq_one, by simpa [bitOf] using h4, nofun, ?_⟩
    rintro _ ⟨⟩
    exact ⟨h6, h5.trans bitOf_eq_one⟩

theorem windowInstructions_holds : windowInstructions := by
  intro s hcv cancelled busy put
  refine ⟨fun o f => winMap_target hcv, fun o f => rflag_target hcv, checkTarget_cases s, fun o i t hn ht => ?map, fun o i hn => ?unmap, fun hc => ⟨fun o i hn => ?allow,
    fun o i hn => ⟨?window, ?direct⟩⟩⟩
  case map =>
    intro rb m
    rw [show exec (.winMap o) s = _ from winMap_mapped hcv hn ht]
    refine ⟨fun h => ?_, fun hrb hm => ⟨fun h => ?_, fun h0 hend => ⟨fun h => ?_, fun h hb => ?_, fun h hb => ?_⟩⟩⟩
    · have hbad : (rb % 64 != 0 || m % 64 != 0) = true := by simpa using h
      rw [hbad, faultIf_true, Res.fault_bind, ends_fault]
    all_goals
      have hgood : (rb % 64 != 0 || m % 64 != 0) = false := by simp [hrb, hm]
      rw [hgood, faultIf_false, Res.ok_bind]
    · have hlength : (m == 0 || decide (0x400000 < m) || decide (0x400000 < rb + m)) = true := by simp; omega
      rw [hlength, faultAt_true, Res.fault_bind, ends_fault]
    all_goals
      have hlength : (m == 0 || decide (0x400000 < m) || decide (0x400000 < rb + m)) = false := by simp [h0]; omega
      rw [hlength, faultAt_false, Res.ok_bind]
    · rw [notCancelled_fault h, Res.fault_bind, ends_fault]
    · rw [notCancelled_ok h, Res.ok_bind, windowIdle_stall hb, Res.stall_bind, ends_stall]
      rfl
    · rw [notCancelled_ok h, Res.ok_bind, windowIdle_ok hb, Res.ok_bind, ends_ok]
      rfl
  case unmap =>
    rw [winUnmap_eq hcv hn]
    refine ⟨fun h => ?_, fun h hb => ?_, fun h hb => ?_⟩
    · rw [notCancelled_fault h, Res.fault_bind, ends_fault]
    · rw [notCancelled_ok h, Res.ok_bind, windowIdle_stall hb, Res.stall_bind, ends_stall]
      rfl
    · rw [notCancelled_ok h, Res.ok_bind, windowIdle_ok hb, Res.ok_bind, ends_ok]
      rfl
  case allow => exact winAllow_eq hcv hn hc
  case window =>
    intro hdirect hsize halw hout
    exact ⟨_, winStat_window hcv hn hdirect hc, winStatWord_fields _ _ halw hout hsize⟩
  case direct =>
    intro hdirect hout
    obtain ⟨h1, h2, h3, h4, h5, -⟩ := winStatWord_fields none s.core.directDen (alw := 16) (by decide) hout nofun
    exact ⟨_, winStat_direct hcv hdirect hc, h1, h2, h3, by simpa [bitOf] using h4, (h5 rfl).1⟩

end Sys2Proof.Machine
end

section
/-! SUPPORT. O28: requests to other clusters (R167, R171, R288, R290, R293, R297, R300). -/

namespace Sys2Proof.Machine

/-! ## A request through a window (R94, R288, R290) -/

theorem placeOf_windowOffset {a : Nat} {i : Fin 16} (h : a / 0x4000000 = 16 + i.val) : placeOf a = .window i.val (a % 0x4000000) := by
  have hn : (a - 0x40000000) / 0x4000000 = i.val := by omega
  have hoff : (a - 0x40000000) % 0x4000000 = a % 0x4000000 := by omega
  exact ((if_neg (by omega)).trans (if_pos (by omega))).trans (by rw [hn, hoff])

/-- A request of the acting core's own through window n. -/
def Core.windowSource (c : Core) (n : Nat) : PktSource := { c.ownSource with window := some n }

section
variable {s : State} {i : Fin 16} {off : Nat} {ea : Word}

theorem windowAt_unmapped (h : s.core.windows[i].map = none) : windowAt s i.val off ea = .fault { cause := .winUnmapped, addr := some ea } := by
  rw [windowAt, getD_windows, h]

variable {m : WinMap} (hm : s.core.windows[i].map = some m)
include hm

theorem windowAt_beyond (h : m.size ≤ off) : windowAt s i.val off ea = .fault { cause := .winUnmapped, addr := some ea } := by
  rw [windowAt, getD_windows, hm]
  exact if_neg (by simp [h])
theorem windowAt_ok (hcv : s.core.status.cv = true) (h : off < m.size) : windowAt s i.val off ea = .ok m := by
  rw [windowAt, getD_windows, hm]
  exact if_pos (by simp [hcv, h])
end

section
variable {s : State} {i : Fin 16} {m : WinMap} {cls : BitVec 4} (hf : fenceHolds s.core.fences s.core.effects m.die cls = false)
include hf

theorem windowReady_full (h : s.core.windows[i].alw ≤ s.core.windows[i].out) : windowReady s i.val m cls = .stall .allowance := by
  rw [windowReady, hf, stallIf_false, Res.ok_bind, getD_windows, decide_eq_true h, Bool.true_or, stallIf_true]
theorem windowReady_ok (h : s.core.windows[i].out < s.core.windows[i].alw) (hroom : s.die.pairRoom m.die cls = true) : windowReady s i.val m cls = .ok () := by
  rw [windowReady, hf, stallIf_false, Res.ok_bind, getD_windows, decide_eq_false (not_le.2 h), hroom, Bool.not_true, Bool.or_false, stallIf_false]
end

/-- A request through a window to another cluster leaves; of the core only what is outstanding changes. -/
theorem handOn_leavesThrough {s : State} {t : Target} (n : Nat) (cls : BitVec 4) (body : PktBody) (hown : s.ownCluster s.core.id t = false) :
    ∃ u, s.handOn (s.core.windowSource n) t cls body = (u, none) ∧ leavesAs s t cls body (some n) u ∧
      u.core = addEffect (s.effectFor s.core.ownSource t cls) s.core := by
  let p := s.packetFor (s.core.windowSource n) t cls body
  let add := addEffect (s.effectFor s.core.ownSource t cls)
  obtain ⟨v, hu, hcore, hparked, hdie, hdies, hhbm, hhost⟩ : ∃ v : State,
      s.handOn (s.core.windowSource n) t cls body = ((v.inject s.core.id.die p).updCore s.core.id add, none) ∧
      v.core = s.core ∧ v.parked = s.parked ∧ v.die = s.die ∧ v.parkedDies = s.parkedDies ∧ v.modul.hbm = s.modul.hbm ∧ v.host = s.host :=
    ⟨_, if_neg (ne_true_of_eq_false hown), rfl, rfl, rfl, rfl, rfl, rfl⟩
  have only : OnlyDies v (v.inject s.core.id.die p) := onlyDies_updDie v _ _
  have hself := updCore_self (v.inject s.core.id.die p) add
  rw [only.core.trans hcore] at hself
  obtain ⟨hmem, hnext⟩ := dieAt_inject v s.core.id.die p
  have hat : v.dieAt s.core.id.die = s.dieAt s.core.id.die := by rw [State.dieAt, State.dieAt, hdie, hdies]
  rw [hat] at hmem hnext
  rw [hself] at hu
  refine ⟨_, hu, ⟨⟨_, hmem, rfl, rfl, rfl, rfl, rfl, rfl, rfl, rfl, rfl⟩, hnext, rfl, ?_⟩, rfl⟩
  exact SameBytes.of_eq rfl rfl (only.parked.trans hparked) ((congrArg Modul.hbm only.modul).trans hhbm)
    ((congrArg HostPort.mem only.host).trans (congrArg HostPort.mem hhost))

theorem windows_updWindow (c : Core) (i : Fin 16) (f : Window → Window) : (c.updWindow i.val f).windows[i] = f c.windows[i] := by
  rw [updWindow_eq]
  exact Vector.getElem_set_self ..

/-- It counts in OUT of the window (R288). -/
theorem windowSend_leaves {s : State} (i : Fin 16) {m : WinMap} (cls : BitVec 4) (body : PktBody)
    (hown : s.ownCluster s.core.id { die := m.die, clu := m.clu, core := m.core } = false) :
    ∃ u, windowSend s i.val m cls body = (u, none) ∧ leavesAs s { die := m.die, clu := m.clu, core := m.core } cls body (some i.val) u ∧
      u.core.windows[i] = { s.core.windows[i] with out := s.core.windows[i].out + 1 } ∧ u.core.regs = s.core.regs ∧ u.core.pc = s.core.pc := by
  obtain ⟨u, hu, hleaves, hcore⟩ := handOn_leavesThrough i.val cls body hown
  have hwindow : (u.core.updWindow i.val fun w => { w with out := w.out + 1 }).windows[i] = { s.core.windows[i] with out := s.core.windows[i].out + 1 } := by
    rw [windows_updWindow, hcore]
    rfl
  refine ⟨{ u with core := u.core.updWindow i.val fun w => { w with out := w.out + 1 } }, ?_, leavesFrom_withCore hleaves rfl rfl rfl, hwindow, ?_, ?_⟩
  · rw [Core.windowSource, Core.ownSource] at hu
    simp only [windowSend, hu]
  · simp only [Core.updWindow, hcore, addEffect]
  · simp only [Core.updWindow, hcore, addEffect]

/-! ## Stores and atomics through a window (R167, R171) -/

/-- What an atomic through a window comes to by its answer at hand-on. -/
def atomSent (s : State) (o : OpMem) (r : State × Option RespKind) : Res AtomEnd :=
  match r with
  | (t, some (.reply old)) => .ok (.done (t.takeOld o.d o.size o.sx false old.toNat))
  | (_, some (.deny c)) => .fault { cause := c, addr := some (memEa s o) }
  | (t, _) => .ok (.waits (awaiting t o false s.modul.nextUid (memEa s o)))

section
variable {s : State} {o : OpMem} {i : Fin 16} (hplace : (memEa s o).toNat / 0x4000000 = 16 + i.val) (ha : (memEa s o).toNat % 2 ^ o.size.toNat = 0)
include hplace ha

theorem exec_st_window : exec (.st o) s =
    ends s ((windowStore s i.val ((memEa s o).toNat % 0x4000000) (2 ^ o.size.toNat) (memEa s o) (s.rd o.d) o.cls).bind fun t => .ok t.advance) := by
  show execSt o s = _
  rw [execSt, memBytes, plainEa_ok (by omega) ha]
  simp only [Res.ok_bind, placeOf_windowOffset hplace]

/-- An atomic through a window, after the checks of its address. -/
theorem atomPlain_window (op : AtomOp) : atomPlain s o false (atomReq s o op) =
    (windowAt s i.val ((memEa s o).toNat % 0x4000000) (memEa s o)).bind fun m => (windowReady s i.val m o.cls).bind fun _ =>
      atomSent s o (windowSend s i.val m o.cls (.atomic (m.rb + (memEa s o).toNat % 0x4000000) (atomReq s o op))) := by
  have hea : plainEa (memEa s o) (atomWidth (atomReq s o op)) = .ok (memEa s o).toNat := plainEa_ok (by omega) ha
  rw [atomPlain, hea]
  simp only [Res.ok_bind, placeOf_windowOffset hplace]
  rfl

/-- The stores and atomics of n bytes. -/
def plainWrites (o : OpMem) : List Instr := .st o :: (atomTable (8 * 2 ^ o.size.toNat)).map fun p => p.1 o

/-- Each of them faults as its window does, and waits as its window does. -/
theorem plainWrites_window : ∀ k ∈ plainWrites o,
    (∀ f, windowAt s i.val ((memEa s o).toNat % 0x4000000) (memEa s o) = .fault f → exec k s = .next (s.takeFault f)) ∧
    ∀ m w, windowAt s i.val ((memEa s o).toNat % 0x4000000) (memEa s o) = .ok m → windowReady s i.val m o.cls = .stall w → exec k s = .next (s.waitsOn w) := by
  rw [plainWrites, List.forall_mem_cons, List.forall_mem_map]
  refine ⟨⟨fun f hat => ?_, fun m w hat hready => ?_⟩, fun p hp => ?_⟩
  · rw [exec_st_window hplace ha, windowStore, hat, Res.fault_bind, Res.fault_bind, ends_fault]
  · rw [exec_st_window hplace ha, windowStore, hat, Res.ok_bind, hready, Res.stall_bind, Res.stall_bind, ends_stall]
    rfl
  · obtain ⟨op, hexec, -⟩ := exec_atomTable_result s o p hp
    rw [atomPlain_window hplace ha] at hexec
    refine ⟨fun f hat => ?_, fun m w hat hready => ?_⟩
    · rw [hexec, hat, Res.fault_bind]
      rfl
    · rw [hexec, hat, Res.ok_bind, hready, Res.stall_bind]
      rfl
end

section
variable {s : State} {o : OpMem} {i : Fin 16} (hplace : (memEa s o).toNat / 0x4000000 = 16 + i.val) (ha : (memEa s o).toNat % 2 ^ o.size.toNat = 0)
  {m : WinMap} (hat : windowAt s i.val ((memEa s o).toNat % 0x4000000) (memEa s o) = .ok m) (hready : windowReady s i.val m o.cls = .ok ())
  (hown : s.ownCluster s.core.id { die := m.die, clu := m.clu, core := m.core } = false)
include hplace ha hat hready hown

/-- A store goes on when its packet has left. -/
theorem st_leaves : let at_ := m.rb + (memEa s o).toNat % 0x4000000
    ∃ u, exec (.st o) s = .next u ∧ leavesAs s { die := m.die, clu := m.clu, core := m.core } o.cls
      (.write at_ (bytesAt at_ (2 ^ o.size.toNat) (s.rd o.d).toNat) m.raise false) (some i.val) u ∧
      u.core.windows[i] = { s.core.windows[i] with out := s.core.windows[i].out + 1 } ∧ u.core.regs = s.core.regs ∧ u.core.pc = s.core.pc + 8 := by
  intro at_
  obtain ⟨u, hu, hleaves, hwin, hregs, hpc⟩ :=
    windowSend_leaves i o.cls (.write at_ (bytesAt at_ (2 ^ o.size.toNat) (s.rd o.d).toNat) m.raise false) hown
  refine ⟨_, ?_, leavesFrom_withCore hleaves (c := u.advance.settled.core) rfl rfl rfl, hwin, hregs, congrArg (· + 8) hpc⟩
  rw [exec_st_window hplace ha, windowStore, hat, Res.ok_bind, hready, Res.ok_bind, hu]
  rfl

/-- An atomic waits for its reply. -/
theorem atom_leaves {p : (OpMem → Instr) × (OpMem → Instr) × (Nat → Nat → Nat → Nat)} (hp : p ∈ atomTable (8 * 2 ^ o.size.toNat)) :
    ∃ u q, exec (p.1 o) s = .next u ∧ leavesAs s { die := m.die, clu := m.clu, core := m.core } o.cls
      (.atomic (m.rb + (memEa s o).toNat % 0x4000000) q) (some i.val) u ∧
      (∀ old < 2 ^ (8 * 2 ^ o.size.toNat), atomResult q old = p.2.2 old ((s.rd o.d).toNat % 2 ^ (8 * 2 ^ o.size.toNat))
        ((s.rd (o.d + 1)).toNat % 2 ^ (8 * 2 ^ o.size.toNat))) ∧
      u.core.windows[i] = { s.core.windows[i] with out := s.core.windows[i].out + 1 } ∧ u.core.regs = s.core.regs ∧ u.core.pc = s.core.pc ∧
      u.core.stall = some .reply ∧ u.core.await.map (fun a => (a.uid, a.d)) = some (s.modul.nextUid, o.d) := by
  obtain ⟨op, hexec, hresult⟩ := exec_atomTable_result s o p hp
  obtain ⟨u, hu, hleaves, hwin, hregs, hpc⟩ := windowSend_leaves i o.cls (.atomic (m.rb + (memEa s o).toNat % 0x4000000) (atomReq s o op)) hown
  refine ⟨awaiting u o false s.modul.nextUid (memEa s o), atomReq s o op, hexec.trans ?_, leavesFrom_withCore hleaves rfl rfl rfl,
    fun old hold => hresult old _ _ hold, hwin, hregs, hpc, rfl, rfl⟩
  rw [atomPlain_window hplace ha, hat, Res.ok_bind, hready, Res.ok_bind, hu]
  rfl
end

/-! ## `rflag` (R297) -/

theorem rflag_leaves {s : State} (hcv : s.core.status.cv = true) {o : OpRflag} {t : Target} (ht : checkTarget s (s.rd o.b) = .ok t)
    (hown : s.ownCluster s.core.id t = false) (hready : directReady s t o.cls = .ok ())
    (hrel : (o.rel && outstanding s (fenceSet s (1 <<< o.cls.toNat) 3)) = false) :
    ∃ u, exec (.rflag o) s = .next u ∧ leavesAs s t o.cls (.flag o.f (BitVec.ofNat 32 (s.rd o.a).toNat)) none u ∧
      u.core.directOut = s.core.directOut + 1 ∧ u.core.regs = s.core.regs ∧ u.core.pc = s.core.pc + 8 := by
  obtain ⟨u, hu, hleaves, hcore⟩ := directSend_leaves o.cls (.flag o.f (BitVec.ofNat 32 (s.rd o.a).toNat)) hown
  refine ⟨u.advance.settled, ?_, leavesFrom_withCore hleaves rfl rfl rfl, (congrArg Core.directOut hcore :), (congrArg Core.regs hcore :),
    (congrArg (fun c => c.pc + 8) hcore :)⟩
  have hsent : (directSend s t o.cls (.flag o.f ((s.rd o.a).setWidth 32))).1 = u := congrArg Prod.fst hu
  show execRflag o s = _
  rw [execRflag, needCtx_ok hcv, Res.ok_bind, ht, Res.ok_bind, Res.ok_bind, hready, Res.ok_bind, hsent]
  exact endsAfter_ends hrel

theorem requestsToOtherClusters_holds : requestsToOtherClusters := by
  intro s hcv
  refine ⟨fun o i => ?through, fun o t ht hown hfence hout hroom hrel => ?flag⟩
  case flag =>
    exact rflag_leaves hcv ht hown (directReady_ok hfence hout hroom) (Bool.and_eq_false_iff.2 hrel)
  case through =>
    intro ea n win hplace ha off
    have hwrites := plainWrites_window hplace ha
    have both {P : Instr → Prop} (h : ∀ k ∈ plainWrites o, P k) : P (.st o) ∧ ∀ p ∈ atomTable (8 * n), P (p.1 o) := by
      rwa [plainWrites, List.forall_mem_cons, List.forall_mem_map] at h
    refine ⟨fun hm => both fun k hk => (hwrites k hk).1 _ (windowAt_unmapped hm), fun m hm => ⟨fun hoff => both fun k hk => (hwrites k hk).1 _ (windowAt_beyond hm hoff),
      fun hoff hfence => ⟨fun hfull => both fun k hk => (hwrites k hk).2 m _ (windowAt_ok hm hcv hoff) (windowReady_full hfence hfull), ?_⟩⟩⟩
    intro hfree hroom t hown
    have hat := windowAt_ok (ea := ea) hm hcv hoff
    have hready := windowReady_ok hfence hfree hroom
    exact ⟨st_leaves hplace ha hat hready hown, fun _ p hp => atom_leaves hplace ha hat hready hown hp⟩

end Sys2Proof.Machine

namespace Sys2Proof
open Sys2Proof.Machine

/-- Settles O28: `windowInstructions_holds` and `requestsToOtherClusters_holds`. -/
theorem windowsAndRemoteRequests : Obligations.WindowsAndRemoteRequests := ⟨windowInstructions_holds, requestsToOtherClusters_holds⟩

end Sys2Proof
end

section
/-! SUPPORT. O46: what an answer does to the core that its packet came from (R278, R288, R293). -/

namespace Sys2Proof.Machine

/-! ## One count ends (R288) -/

/-- The core when its packet has been accepted or denied: the effect is over, and its count. -/
def answeredCore (p : Packet) (c : Core) : Core := messageDone p (countDown p (c.performed [p.uid]))

/-- What is counted of the sending core. -/
structure CountedCore (p : Packet) (c u : Core) : Prop where
  effects : ∀ e ∈ u.effects, e.uid ≠ p.uid
  msgsOut : p.uid ∉ u.msgsOut
  windows : c.holds p.from_.ctx = true → ∀ i : Fin 16, u.windows[i].out = c.windows[i].out - (if p.from_.window = some i.val then 1 else 0)
  directOut : c.holds p.from_.ctx = true →
    u.directOut = c.directOut - (if p.from_.window = none ∧ (isFlag p.body = true ∨ isMsg p.body = true) then 1 else 0)
/-- What its DEN bits are. -/
structure DenCore (p : Packet) (deny : Bool) (c u : Core) : Prop where
  windows : c.holds p.from_.ctx = true → ∀ i : Fin 16, u.windows[i].den = (c.windows[i].den || deny && isWrite p.body && decide (p.from_.window = some i.val))
  directDen : c.holds p.from_.ctx = true → u.directDen = (c.directDen || deny && (isFlag p.body || isMsg p.body) && decide (p.from_.window = none))

section
variable {p : Packet} {c u u' : Core}

/-- Other fields of the core do not count. -/
theorem CountedCore.congr (h : CountedCore p c u) (heff : u'.effects = u.effects) (hmsg : u'.msgsOut = u.msgsOut) (hwin : u'.windows = u.windows)
    (hout : u'.directOut = u.directOut) : CountedCore p c u' :=
  ⟨heff ▸ h.effects, hmsg ▸ h.msgsOut, hwin ▸ h.windows, hout ▸ h.directOut⟩
theorem DenCore.congr {deny : Bool} (h : DenCore p deny c u) (hwin : u'.windows = u.windows) (hden : u'.directDen = u.directDen) : DenCore p deny c u' :=
  ⟨hwin ▸ h.windows, hden ▸ h.directDen⟩

/-- A window of a core after an update of one. -/
theorem getElem_updWindow (c : Core) (n : Nat) (f : Window → Window) (i : Fin 16) :
    (c.updWindow n f).windows[i] = if n = i.val then f c.windows[i] else c.windows[i] := by
  simp only [Core.updWindow, Fin.getElem_fin, Vector.getElem_ofFn, eq_comm]

/-- What a count changes: windows or the direct status. -/
theorem countDown_cases (p : Packet) (c : Core) :
    countDown p c = { c with windows := (countDown p c).windows, directOut := (countDown p c).directOut } := by
  unfold countDown
  split
  · rfl
  · split
    · rfl
    · split <;> rfl

theorem countDown_windows (h : c.holds p.from_.ctx = true) (i : Fin 16) : (countDown p c).windows[i] =
    { c.windows[i] with out := c.windows[i].out - (if p.from_.window = some i.val then 1 else 0) } := by
  rw [countDown, h, Bool.not_true, if_neg Bool.false_ne_true]
  cases hw : p.from_.window with
  | none =>
    dsimp only
    split <;> rfl
  | some n =>
    simp only [getElem_updWindow, Option.some.injEq]
    split <;> rfl

theorem countDown_directOut (h : c.holds p.from_.ctx = true) :
    (countDown p c).directOut = c.directOut - (if p.from_.window = none ∧ (isFlag p.body = true ∨ isMsg p.body = true) then 1 else 0) := by
  rw [countDown, h, Bool.not_true, if_neg Bool.false_ne_true]
  cases hw : p.from_.window with
  | none =>
    simp only [Bool.or_eq_true, true_and]
    split <;> rfl
  | some n => rfl

/-- The fields of the answered core. -/
theorem answeredCore_eq (p : Packet) (c : Core) : answeredCore p c =
    { c with effects := c.effects.filter (fun e => !([p.uid].contains e.uid)), msgsOut := c.msgsOut.filter (fun u => u ≠ p.uid)
             windows := (countDown p c).windows, directOut := (countDown p c).directOut } := by
  unfold answeredCore messageDone Core.performed countDown Core.holds
  split
  · rfl
  · split
    · rfl
    · split <;> rfl

theorem countedCore_answered (p : Packet) (c : Core) : CountedCore p c (answeredCore p c) := by
  rw [answeredCore_eq]
  refine ⟨fun e he => ?_, fun h => ?_, fun h i => ?_, countDown_directOut⟩
  · simpa using (List.mem_filter.1 he).2
  · simpa using (List.mem_filter.1 h).2
  · exact (congrArg Window.out (countDown_windows h i) :)
theorem denCore_answered (p : Packet) (c : Core) : DenCore p false c (answeredCore p c) := by
  rw [answeredCore_eq]
  refine ⟨fun h i => ?_, fun h => ?_⟩
  · rw [Bool.false_and, Bool.false_and, Bool.or_false]
    exact (congrArg Window.den (countDown_windows h i) :)
  · rw [Bool.false_and, Bool.false_and, Bool.or_false]

/-! ## A denial (R293) -/

/-- What a denial changes: windows or the direct status. -/
theorem setDen_cases (p : Packet) (c : Core) : setDen p c = { c with windows := (setDen p c).windows, directDen := (setDen p c).directDen } := by
  unfold setDen
  split
  · split <;> rfl
  · split <;> rfl

theorem setDen_windows (p : Packet) (c : Core) (i : Fin 16) :
    (setDen p c).windows[i] = { c.windows[i] with den := c.windows[i].den || isWrite p.body && decide (p.from_.window = some i.val) } := by
  unfold setDen
  cases hw : p.from_.window with
  | none =>
    dsimp only
    cases isWrite p.body <;> split <;> simp
  | some n =>
    cases isWrite p.body with
    | false => simp
    | true =>
      simp only [if_true, getElem_updWindow, Option.some.injEq, Bool.true_and]
      split <;> simp [*]

theorem setDen_directDen (p : Packet) (c : Core) :
    (setDen p c).directDen = (c.directDen || (isFlag p.body || isMsg p.body) && decide (p.from_.window = none)) := by
  unfold setDen
  cases hw : p.from_.window with
  | none => cases h : isFlag p.body || isMsg p.body <;> simp
  | some n => cases isWrite p.body <;> simp [Core.updWindow]

theorem CountedCore.setDen (h : CountedCore p c u) : CountedCore p c (setDen p u) := by
  refine ⟨?_, ?_, fun hc i => ?_, fun hc => ?_⟩
  · rw [setDen_cases]
    exact h.effects
  · rw [setDen_cases]
    exact h.msgsOut
  · rw [setDen_windows]
    exact h.windows hc i
  · rw [setDen_cases]
    exact h.directOut hc
theorem DenCore.setDen (h : DenCore p false c u) : DenCore p true c (setDen p u) := by
  refine ⟨fun hc i => ?_, fun hc => ?_⟩
  · rw [setDen_windows, h.windows hc i]
    simp
  · rw [setDen_directDen, h.directDen hc]
    simp

/-- A denial in a save (R302). -/
theorem HardRecord.setDen_fields (p : Packet) (h : HardRecord) : (h.setDen p).tasks = h.tasks ∧
    (∀ i : Fin 16, (h.setDen p).windows[i].den = (h.windows[i].den || isWrite p.body && decide (p.from_.window = some i.val))) ∧
    (h.setDen p).directDen = (h.directDen || (isFlag p.body || isMsg p.body) && decide (p.from_.window = none)) := by
  unfold HardRecord.setDen
  cases hw : p.from_.window with
  | none =>
    refine ⟨?_, fun i => ?_, ?_⟩
    · dsimp only
      split <;> rfl
    · cases h : isFlag p.body || isMsg p.body <;> simp
    · cases h : isFlag p.body || isMsg p.body <;> simp
  | some n =>
    refine ⟨?_, fun i => ?_, ?_⟩
    · dsimp only
      split <;> rfl
    · cases isWrite p.body with
      | false => simp
      | true =>
        simp only [if_true, Fin.getElem_fin, Vector.getElem_ofFn, Option.some.injEq, Bool.true_and, eq_comm]
        split <;> simp [*]
    · cases isWrite p.body <;> simp
end

end Sys2Proof.Machine
end

section
/-! SUPPORT. O46: an answer at its source, up to what its kind asks for (R278, R279). -/

namespace Sys2Proof.Machine

/-! ## Acting as another core -/

theorem core_actAs (s : State) (id : CoreId) : (s.actAs id).core = s.coreAt id := by
  unfold State.actAs
  split
  · next h => rw [← h, coreAt_self]
  · rfl
theorem modul_actAs (s : State) (id : CoreId) : (s.actAs id).modul = s.modul := by
  unfold State.actAs
  split <;> rfl
theorem host_actAs (s : State) (id : CoreId) : (s.actAs id).host = s.host := by
  unfold State.actAs
  split <;> rfl
theorem sameBytes_actAs (s : State) (id : CoreId) : SameBytes s (s.actAs id) :=
  ⟨fun j _ => by rw [coreAt_actAs], fun _ => by rw [modul_actAs], fun _ => by rw [host_actAs]⟩

theorem onlyCores_updCore (s : State) (id : CoreId) (f : Core → Core) : OnlyCores s (s.updCore id f) := updCore_frame s id f
theorem acting_updCore (s : State) (id : CoreId) (f : Core → Core) (hid : ∀ c, (f c).id = c.id) : (s.updCore id f).core.id = s.core.id := by
  unfold State.updCore
  split
  · exact hid _
  · split <;> rfl

/-! ## What waits for room (R279) -/

/-- No HBM packet of a task waits for room. -/
def State.noFarWaits (s : State) (d : Nat) : Prop := ∀ c, ∀ t ∈ (s.clusterAt d c).tasks, t.hbmQueue = []

theorem flushCancels_none {s : State} {d : Nat} (h : (s.dieAt d).cancels = []) : s.flushCancels d = s := by
  rw [State.flushCancels, h]
  rfl
theorem flushFar_none {s : State} {d : Nat} (h : s.noFarWaits d) : s.flushFar d = s := by
  refine List.foldl_fixed' (fun c => ?_) _
  have hnone : (s.clusterAt d c).tasks.filter (fun t => !t.hbmQueue.isEmpty) = [] :=
    List.filter_eq_nil_iff.2 fun t ht => by simp [h c t ht]
  rw [hnone]
  rfl

theorem State.noFarWaits.congr {s t : State} {d : Nat} (h : s.noFarWaits d) (hc : ∀ c, t.clusterAt d c = s.clusterAt d c) : t.noFarWaits d :=
  fun c => hc c ▸ h c

/-- The die keeps the packet no longer. -/
def Die.forgets (p : Packet) (k : Die) : Die :=
  { k with unacked := k.unacked.filter (fun q => q.uid ≠ p.uid), dropped := k.dropped.filter (fun u => u ≠ p.uid)
           retried := k.retried.filter (fun r => r.1 ≠ p.uid) }

/-- The packet is answered, before what waits for its place goes out. -/
def State.drops (s : State) (d : Nat) (p : Packet) : State := (s.updDie d (Die.forgets p)).updCore p.from_.core (fun c => c.performed [p.uid])

section
variable (s : State) (d : Nat) (p : Packet)

theorem acting_drops : (s.drops d p).core.id = s.core.id := by
  rw [State.drops, acting_updCore _ _ (fun c => c.performed [p.uid]) fun _ => rfl, (onlyDies_updDie ..).core]
theorem forget_eq : s.forget d p = ((s.drops d p).flushCancels d).flushFar d := rfl
theorem dieAt_drops : (s.drops d p).dieAt d = (s.dieAt d).forgets p := by
  rw [State.drops, (onlyCores_updCore ..).dieAt, dieAt_updDie_same s d (Die.forgets p) (fun _ => rfl)]
theorem clusterAt_drops (d' c : Nat) : (s.drops d p).clusterAt d' c = s.clusterAt d' c := by
  rw [State.drops, clusterAt_updCore, (onlyDies_updDie s d _).clusterAt]
theorem coreAt_drops (id : CoreId) : (s.drops d p).coreAt id = if id = p.from_.core then (s.coreAt id).performed [p.uid] else s.coreAt id := by
  rw [State.drops, coreAt_updCore _ _ _ (fun c => c.performed [p.uid]) (fun _ => rfl), (onlyDies_updDie s d _).coreAt]
theorem sameBytes_drops : SameBytes s (s.drops d p) :=
  (onlyDies_updDie s d _).sameBytes.trans (sameBytes_updCore _ _ _ (fun _ => rfl) fun _ => rfl)
theorem modul_drops : (s.drops d p).modul = s.modul := by
  rw [State.drops, (onlyCores_updCore ..).modul, (onlyDies_updDie s d _).modul]
theorem host_drops : (s.drops d p).host = s.host := by
  rw [State.drops, (onlyCores_updCore ..).host, (onlyDies_updDie s d _).host]
end

/-- With nothing that waits, the packet is dropped and that is all. -/
theorem forget_noneWaits {s : State} {d : Nat} (h : noneWaits s d) (p : Packet) : s.forget d p = s.drops d p := by
  obtain ⟨hcancels, hfar⟩ := h
  have hdie : ((s.drops d p).dieAt d).cancels = [] := (congrArg Die.cancels (dieAt_drops s d p)).trans hcancels
  rw [forget_eq, flushCancels_none hdie, flushFar_none]
  exact State.noFarWaits.congr hfar fun c => clusterAt_drops s d p d c

/-! ## The task or the COPY packet of an HBM packet -/

section
variable (s : State) (p : Packet) (data : Option (BitVec 512 × Bool))

theorem mem_updQueue (s : State) (fn q : Nat) (g : Queue → Queue) : (s.updQueue fn q g).host.mem = s.host.mem := by
  unfold State.updQueue State.updFn
  split <;> rfl

/-- An answer to an HBM packet leaves cores, dies, jobs and bytes. -/
theorem farDone_keeps : (∀ id, (s.farDone p data).coreAt id = s.coreAt id) ∧ (∀ e, (s.farDone p data).dieAt e = s.dieAt e) ∧
    (s.farDone p data).modul = s.modul ∧ (s.farDone p data).core.id = s.core.id ∧ SameBytes s (s.farDone p data) := by
  have queue (fn q : Nat) (g : Queue → Queue) : (∀ id, (s.updQueue fn q g).coreAt id = s.coreAt id) ∧ (∀ e, (s.updQueue fn q g).dieAt e = s.dieAt e) ∧
      (s.updQueue fn q g).modul = s.modul ∧ (s.updQueue fn q g).core.id = s.core.id ∧ SameBytes s (s.updQueue fn q g) := by
    have only := onlyHost_updQueue s fn q g
    have hmodul : (s.updQueue fn q g).modul = s.modul := by
      unfold State.updQueue State.updFn
      split <;> rfl
    exact ⟨only.coreAt, only.dieAt, hmodul, congrArg Core.id only.core,
      fun id _ => by rw [only.coreAt], fun _ => by rw [hmodul], fun _ => by rw [mem_updQueue]⟩
  unfold State.farDone
  split
  · exact ⟨fun _ => rfl, fun _ => rfl, rfl, rfl, fun _ _ => rfl, fun _ => rfl, fun _ => rfl⟩
  · exact queue ..
  · have only := onlyClusters_updCluster s p.from_.core.die p.from_.core.clu
    exact ⟨(only _).coreAt, (only _).dieAt, (only _).modul, congrArg Core.id (updCluster_core ..), sameBytes_updCluster ..⟩
end

/-! ## The answer at its source -/

/-- The packet that is answered stands among those of its die. -/
theorem mem_of_answered {s : State} {r : Response} {d : Nat} {p : Packet} (h : s.answered r = some (d, p)) : p ∈ (s.dieAt d).unacked := by
  rw [State.answered, Option.bind_eq_some_iff] at h
  obtain ⟨e, -, h⟩ := h
  split at h
  · obtain ⟨q, hq, he⟩ := Option.map_eq_some_iff.1 h
    obtain ⟨rfl, rfl⟩ := Prod.mk.inj he
    exact List.mem_of_find?_eq_some hq
  · cases h

section
variable (s : State) (d : Nat) (r : Response)

theorem onlyDies_consumed : OnlyDies s (s.consumed d r) := onlyDies_updDie s d _
theorem dieAt_consumed : (s.consumed d r).dieAt d = { s.dieAt d with arrived := (s.dieAt d).arrived.erase r } :=
  dieAt_updDie_same s d _ fun _ => rfl
variable {s d}
theorem noneWaits_consumed (h : noneWaits s d) : noneWaits (s.consumed d r) d := by
  obtain ⟨hcancels, hfar⟩ := h
  exact ⟨(congrArg Die.cancels (dieAt_consumed s d r)).trans hcancels,
    State.noFarWaits.congr hfar fun c => (onlyDies_consumed s d r).clusterAt d c⟩
end

/-- An answer has ended its packet's count at its source: the packet is kept no longer, of the dies and cores nothing else changes that matters here. -/
structure EndsCount (s : State) (d : Nat) (p : Packet) (core : Core → Core) (t : State) : Prop where
  unacked : (t.dieAt d).unacked = (s.dieAt d).unacked.filter fun q => q.uid ≠ p.uid
  core : t.coreAt p.from_.core = core (s.coreAt p.from_.core)
  bytes : SameBytes s t

theorem EndsCount.farDone {s t : State} {d : Nat} {p : Packet} {f : Core → Core} (h : EndsCount s d p f t) (data : Option (BitVec 512 × Bool)) :
    EndsCount s d p f (t.farDone p data) := by
  obtain ⟨hcore, hdie, -, -, hbytes⟩ := farDone_keeps t p data
  exact ⟨(congrArg Die.unacked (hdie d)).trans h.unacked, (hcore _).trans h.core, h.bytes.trans hbytes⟩

theorem EndsCount.updCore {s t : State} {d : Nat} {p : Packet} {f : Core → Core} (h : EndsCount s d p f t) (g : Core → Core) (hid : ∀ c, (g c).id = c.id)
    (hspad : ∀ c, (g c).spad = c.spad) : EndsCount s d p (g ∘ f) (t.updCore p.from_.core g) := by
  have only := onlyCores_updCore t p.from_.core g
  refine ⟨(congrArg Die.unacked (only.dieAt d)).trans h.unacked, ?_, h.bytes.trans (sameBytes_updCore _ _ _ hid hspad)⟩
  rw [coreAt_updCore _ _ _ _ hid, if_pos rfl, h.core]
  rfl

theorem endsCount_forget {s : State} {d : Nat} (h : noneWaits s d) (r : Response) (p : Packet) :
    EndsCount s d p (fun c => c.performed [p.uid]) ((s.consumed d r).forget d p) := by
  have only := onlyDies_consumed s d r
  rw [forget_noneWaits (noneWaits_consumed r h)]
  refine ⟨?_, ?_, only.sameBytes.trans (sameBytes_drops ..)⟩
  · rw [dieAt_drops, dieAt_consumed]
    rfl
  · rw [coreAt_drops, if_pos rfl, only.coreAt]

/-- What acting as the sending core and changing it further does to a count. -/
theorem EndsCount.acting {s t : State} {d : Nat} {p : Packet} {f : Core → Core} (h : EndsCount s d p f t) (g : Core → Core) (hid : ∀ c, (g c).id = c.id)
    (hspad : ∀ c, (g c).spad = c.spad) :
    EndsCount s d p (g ∘ f) { t.actAs p.from_.core with core := g (t.actAs p.from_.core).core } ∧ (g (t.actAs p.from_.core).core).id = p.from_.core := by
  have hplace : (g (t.actAs p.from_.core).core).id = p.from_.core := by rw [hid, core_actAs, coreAt_id]
  refine ⟨⟨?_, ?_, h.bytes.trans ((sameBytes_actAs t _).trans (sameBytes_withCore _ (hid _) (hspad _)))⟩, hplace⟩
  · exact (congrArg Die.unacked (dieAt_actAs t p.from_.core d)).trans h.unacked
  · rw [State.coreAt, if_pos hplace, core_actAs, h.core]
    rfl
theorem EndsCount.actAs {s t : State} {d : Nat} {p : Packet} {f : Core → Core} (h : EndsCount s d p f t) (id : CoreId) : EndsCount s d p f (t.actAs id) :=
  ⟨(congrArg Die.unacked (dieAt_actAs t id d)).trans h.unacked, (coreAt_actAs t id _).trans h.core, h.bytes.trans (sameBytes_actAs t id)⟩

end Sys2Proof.Machine
end

section
/-! SUPPORT. O46: what each kind of answer comes to (R171, R278, R287, R288, R293, R298). -/

namespace Sys2Proof.Machine

/-! ## Counts and denials -/

/-- The core runs on as it did. -/
structure SameRun (c u : Core) : Prop where
  regs : u.regs = c.regs
  pc : u.pc = c.pc
  status : u.status = c.status
  await : u.await = c.await

/-- The core after a denial: DEN is set while its context holds it. -/
def deniedCore (p : Packet) (c : Core) : Core := if c.holds p.from_.ctx then setDen p (answeredCore p c) else answeredCore p c

section
variable (p : Packet) (c : Core)

theorem done_frame : (messageDone p (countDown p c)).id = c.id ∧ (messageDone p (countDown p c)).spad = c.spad := by
  rw [messageDone, countDown_cases]
  exact ⟨rfl, rfl⟩
theorem setDen_frame : (setDen p c).id = c.id ∧ (setDen p c).spad = c.spad := by
  rw [setDen_cases]
  exact ⟨rfl, rfl⟩
theorem answeredCore_holds (ctx : Nat) : (answeredCore p c).holds ctx = c.holds ctx := by
  rw [answeredCore_eq]
  rfl
theorem sameRun_answered : SameRun c (answeredCore p c) := by
  rw [answeredCore_eq]
  exact ⟨rfl, rfl, rfl, rfl⟩
theorem sameRun_denied : SameRun c (deniedCore p c) := by
  unfold deniedCore
  split
  · rw [setDen_cases, answeredCore_eq]
    exact ⟨rfl, rfl, rfl, rfl⟩
  · exact sameRun_answered p c
theorem countedCore_denied : CountedCore p c (deniedCore p c) := by
  unfold deniedCore
  split
  · exact (countedCore_answered p c).setDen
  · exact countedCore_answered p c
theorem denCore_denied : DenCore p true c (deniedCore p c) := by
  unfold deniedCore
  split
  · exact (denCore_answered p c).setDen
  · next h => exact ⟨fun hc => absurd hc h, fun hc => absurd hc h⟩
end

section
variable {s t : State} {d : Nat} {p : Packet} {f : Core → Core}

theorem EndsCount.forgotten (h : EndsCount s d p f t) : ∀ q ∈ (t.dieAt d).unacked, q.uid ≠ p.uid := by
  rw [h.unacked]
  exact fun q hq => of_decide_eq_true (List.mem_filter.1 hq).2

/-- What ends a count is counted. -/
theorem EndsCount.counted (h : EndsCount s d p f t) (hf : CountedCore p (s.coreAt p.from_.core) (f (s.coreAt p.from_.core))) : counted s d p t := by
  rw [← h.core] at hf
  exact ⟨h.forgotten, hf.effects, hf.msgsOut, h.bytes, fun hc => ⟨hf.windows hc, hf.directOut hc⟩⟩
theorem EndsCount.denAfter (h : EndsCount s d p f t) {deny : Bool} (hf : DenCore p deny (s.coreAt p.from_.core) (f (s.coreAt p.from_.core))) :
    denAfter s p t deny := by
  rw [← h.core] at hf
  exact fun hc => ⟨hf.windows hc, hf.directDen hc⟩

/-- A denial that a core takes. -/
theorem EndsCount.setDen (h : EndsCount s d p (answeredCore p) t) : EndsCount s d p (deniedCore p) (t.setDen p) := by
  have holding : (t.coreAt p.from_.core).holds p.from_.ctx = (s.coreAt p.from_.core).holds p.from_.ctx := by rw [h.core, answeredCore_holds]
  unfold State.setDen
  rw [holding]
  split
  · next hc =>
    obtain ⟨hunacked, hcore, hbytes⟩ := h.updCore (Sys2Proof.Machine.setDen p) (fun c => (setDen_frame p c).1) fun c => (setDen_frame p c).2
    exact ⟨hunacked, hcore.trans (if_pos hc).symm, hbytes⟩
  · next hc =>
    have same : SameBytes t (t.updSave p.from_.ctx p.from_.core fun a => { a with hard := a.hard.map (HardRecord.setDen p) }) :=
      SameBytes.of_eq rfl rfl rfl rfl rfl
    exact ⟨h.unacked, h.core.trans (if_neg hc).symm, h.bytes.trans same⟩
end

/-! ## ACK, and the common part of a denial -/

/-- The packet is answered, and its core's count ends. -/
def State.countsDown (s : State) (d : Nat) (p : Packet) : State := (s.forget d p).updCore p.from_.core (fun c => messageDone p (countDown p c))

section
variable {s : State} {d : Nat} (h : noneWaits s d) (r : Response) (p : Packet)
include h

theorem endsCount_countsDown : EndsCount s d p (answeredCore p) ((s.consumed d r).countsDown d p) :=
  (endsCount_forget h r p).updCore _ (fun c => (done_frame p c).1) fun c => (done_frame p c).2
theorem endsCount_accepted : EndsCount s d p (answeredCore p) ((s.consumed d r).accepted d p) := (endsCount_countsDown h r p).farDone none
theorem endsCount_denied (data : Option (BitVec 512 × Bool)) :
    EndsCount s d p (deniedCore p) ((((s.consumed d r).countsDown d p).setDen p).farDone p data) := (endsCount_countsDown h r p).setDen.farDone data
theorem modul_countsDown : ((s.consumed d r).countsDown d p).modul = s.modul := by
  rw [State.countsDown, (onlyCores_updCore ..).modul, forget_noneWaits (noneWaits_consumed r h), modul_drops, (onlyDies_consumed s d r).modul]
end

section
variable {s : State} {d : Nat} (h : noneWaits s d) (r : Response) (p : Packet)
include h

theorem clusterAt_countsDown (d' c : Nat) : ((s.consumed d r).countsDown d p).clusterAt d' c = s.clusterAt d' c := by
  rw [State.countsDown, clusterAt_updCore, forget_noneWaits (noneWaits_consumed r h), clusterAt_drops, (onlyDies_consumed s d r).clusterAt]
omit h in
theorem clusterAt_setDen (d' c : Nat) : (s.setDen p).clusterAt d' c = s.clusterAt d' c := by
  unfold State.setDen
  split
  · exact clusterAt_updCore ..
  · rfl

omit h in
theorem acting_setDen : (s.setDen p).core.id = s.core.id := by
  unfold State.setDen
  split
  · exact acting_updCore s p.from_.core (Sys2Proof.Machine.setDen p) fun c => (setDen_frame p c).1
  · rfl
/-- The acting core stays where it is. -/
theorem acting_countsDown : ((s.consumed d r).countsDown d p).core.id = s.core.id := by
  rw [State.countsDown, acting_updCore _ _ (fun c => messageDone p (countDown p c)) fun c => (done_frame p c).1,
    forget_noneWaits (noneWaits_consumed r h), acting_drops, (onlyDies_consumed s d r).core]
theorem acting_denied (data : Option (BitVec 512 × Bool)) : ((((s.consumed d r).countsDown d p).setDen p).farDone p data).core.id = s.core.id := by
  rw [(farDone_keeps ..).2.2.2.1, acting_setDen, acting_countsDown h]
end

/-! ## A denial in a save (R302) -/

/-- A save reads as what its update left. -/
theorem assoc_mapWhere {α β : Type} [DecidableEq α] (k : α) (f : α × β → α × β) (hf : ∀ p, (f p).1 = p.1) : ∀ l : List (α × β),
    assoc (mapWhere (fun p => p.1 = k) f l) k = (assoc l k).map fun v => (f (k, v)).2
  | [] => rfl
  | (a, v) :: l => by
    have ih := assoc_mapWhere k f hf l
    simp only [mapWhere, decide_eq_true_eq] at ih
    rw [mapWhere, List.map_cons]
    by_cases ha : a = k
    · subst ha
      simp [assoc, hf]
    · simp [assoc, ha, ih]

/-- A save with a denial in it, and the job that has it. -/
def SaveArea.withDenial (p : Packet) (a : SaveArea) : SaveArea := { a with hard := a.hard.map (HardRecord.setDen p) }
def Job.withDenial (p : Packet) (j : Job) : Job :=
  { j with saves := mapWhere (fun q => q.1 = p.from_.core) (fun q => (q.1, (q.2.withDenial p).retag j.saveKey)) j.saves }

theorem denSaved_updSave {s t : State} {p : Packet} (hjobs : t.modul.jobs =
      (s.updSave p.from_.ctx p.from_.core (SaveArea.withDenial p)).modul.jobs) : denSaved s p t := by
  intro _ j a h hj ha hh
  have htj : t.jobOf p.from_.ctx = some (j.withDenial p) := by
    rw [State.jobOf, hjobs]
    refine (jobOf_updJob s p.from_.ctx (Job.withDenial p) fun _ => rfl).trans ?_
    rw [hj]
    rfl
  obtain ⟨htasks, hwin, hden⟩ := h.setDen_fields p
  refine ⟨_, (a.withDenial p).retag j.saveKey, h.setDen p, htj, ?_, ?_, rfl, htasks, hwin, hden⟩
  · refine (assoc_mapWhere p.from_.core (fun q => (q.1, (q.2.withDenial p).retag j.saveKey)) (fun _ => rfl) j.saves).trans ?_
    rw [ha]
    rfl
  · exact (congrArg (Option.map (HardRecord.setDen p)) hh :)

end Sys2Proof.Machine
end

section
/-! SUPPORT. O46: ACK, DENY and REPLY (R171, R278, R293, R298). -/

namespace Sys2Proof.Machine

section
variable {s : State} {r : Response} {d : Nat} {p : Packet} (hr : s.answered r = some (d, p)) (hw : noneWaits s d)
include hr

theorem exec_ack (hk : r.kind = .ack) : exec (.ack r) s = .next ((s.consumed d r).accepted d p) := by
  show execAck r s = _
  simp only [execAck, hk, hr]
theorem exec_deny {cause : Cause} (hk : r.kind = .deny cause) : exec (.deny r) s = .next ((s.consumed d r).denied d p cause) := by
  show execDeny r s = _
  simp only [execDeny, hk, hr]
theorem exec_reply {old : BitVec 128} (hk : r.kind = .reply old) : exec (.reply r) s = .next (((s.consumed d r).accepted d p).replyTo p old.toNat) := by
  show execReply r s = _
  simp only [execReply, hk, hr]
theorem exec_replyData {v : BitVec 512} {bad : Bool} (hk : r.kind = .data v bad) :
    exec (.reply r) s = .next (((s.consumed d r).farDone p (some (v, bad))).forget d p) := by
  show execReply r s = _
  simp only [execReply, hk, hr]
theorem exec_retry (hk : r.kind = .retry) : exec (.retry r) s = .next ((s.consumed d r).retriedAt d p) := by
  show execRetry r s = _
  simp only [execRetry, hk, hr]
theorem exec_dropped (hk : r.kind = .dropped) : exec (.retry r) s =
    .next ((s.consumed d r).updDie d (fun k => { k with dropped := k.dropped.filter (fun u => u ≠ p.uid) ++ [p.uid] })) := by
  show execRetry r s = _
  simp only [execRetry, hk, hr]

include hw

/-! ## ACK -/

theorem ack_ends (hk : r.kind = .ack) : let me := p.from_.core; let c := s.coreAt me
    ∃ t, exec (.ack r) s = .next t ∧ counted s d p t ∧ denAfter s p t false ∧ (t.coreAt me).regs = c.regs ∧ (t.coreAt me).pc = c.pc := by
  have hcount := endsCount_accepted hw r p
  have run := sameRun_answered p (s.coreAt p.from_.core)
  rw [← hcount.core] at run
  exact ⟨_, exec_ack hr hk, hcount.counted (countedCore_answered ..), hcount.denAfter (denCore_answered ..), run.regs, run.pc⟩

/-! ## DENY -/

omit hr hw in
theorem denyTo_none {t : State} {p : Packet} (cause : Cause) (h : awaits t p = none) : t.denyTo p cause = t := by
  simp only [State.denyTo, h]

/-- The state of a denial before its fault. -/
def State.deniedAt (s : State) (r : Response) (d : Nat) (p : Packet) : State :=
  (((s.consumed d r).countsDown d p).setDen p).farDone p (some (0, true))

omit hr hw in
/-- A packet that is no POST is denied to the core that waits for it. -/
theorem denied_core (cause : Cause) (h : isPosting p.body = false) : (s.consumed d r).denied d p cause = (s.deniedAt r d p).denyTo p cause := by
  rw [State.denied]
  cases hb : p.body with
  | post => rw [hb] at h; cases h
  | _ => rfl
omit hr hw in
/-- A POST is denied to its task. -/
theorem denied_post {k : Task} (cause : Cause) (h : isPosting p.body = true) (hk : s.postTask p = some k) : (s.consumed d r).denied d p cause =
    (s.deniedAt r d p).taskFault p.from_.core.die p.from_.core.clu k { cause := cause } true := by
  have hpost : (s.consumed d r).postTask p = some k := by
    rw [State.postTask, (onlyDies_consumed s d r).clusterAt]
    exact hk
  rw [State.denied]
  cases hb : p.body with
  | post =>
    simp only [hpost]
    rfl
  | _ => rw [hb] at h; cases h

omit hr in
/-- A context that does not hold its core takes the denial in its save. -/
theorem denSaved_deniedAt (r : Response) (p : Packet) : denSaved s p (s.deniedAt r d p) := fun hc => by
  have hmodul := modul_countsDown hw r p
  have hcore := (endsCount_countsDown hw r p).core
  rw [State.deniedAt]
  generalize (s.consumed d r).countsDown d p = u at hmodul hcore
  have hden : u.setDen p = u.updSave p.from_.ctx p.from_.core (SaveArea.withDenial p) := if_neg (by rw [hcore, answeredCore_holds, hc]; exact Bool.false_ne_true)
  refine denSaved_updSave ?_ hc
  rw [(farDone_keeps ..).2.2.1, hden, State.updSave, State.updJob, hmodul]
  rfl

theorem deny_ends {cause : Cause} (hk : r.kind = .deny cause) (hpost : isPosting p.body = false)
    (hnone : ∀ a, (s.coreAt p.from_.core).await = some a → a.uid ≠ p.uid) : let me := p.from_.core; let c := s.coreAt me
    ∃ t, exec (.deny r) s = .next t ∧ counted s d p t ∧ denAfter s p t true ∧ denSaved s p t ∧ (t.coreAt me).regs = c.regs ∧ (t.coreAt me).pc = c.pc := by
  have hcount := endsCount_denied hw r p (some (0, true))
  have run := sameRun_denied p (s.coreAt p.from_.core)
  rw [← hcount.core] at run
  have hawaits : awaits (s.deniedAt r d p) p = none := by
    rw [awaits, Option.filter_eq_none_iff]
    intro a ha
    simpa using hnone a (run.await ▸ ha)
  have hexec : exec (.deny r) s = .next (s.deniedAt r d p) := by rw [exec_deny hr hk, denied_core cause hpost, denyTo_none cause hawaits]
  exact ⟨_, hexec, hcount.counted (countedCore_denied ..), hcount.denAfter (denCore_denied ..), denSaved_deniedAt hw r p, run.regs, run.pc⟩

omit hr hw in
theorem denyTo_some {t : State} {p : Packet} {a : Awaiting} (cause : Cause) (h : awaits t p = some a) : t.denyTo p cause =
    (State.takeFault { t.actAs p.from_.core with core := { (t.actAs p.from_.core).core with await := none } } { cause := cause, addr := some a.ea }).actAs t.core.id := by
  simp only [State.denyTo, h, State.asCore]

theorem deny_faults {cause : Cause} (hk : r.kind = .deny cause) (hpost : isPosting p.body = false) {a : Awaiting}
    (ha : (s.coreAt p.from_.core).await = some a) (hu : a.uid = p.uid) : let me := p.from_.core; let c := s.coreAt me
    ∃ u, counted s d p u ∧ denAfter s p u true ∧ u.core.id = me ∧ u.core.regs = c.regs ∧ u.core.pc = c.pc ∧ u.core.status = c.status ∧ u.core.await = none ∧
      exec (.deny r) s = .next ((u.takeFault { cause := cause, addr := some a.ea }).actAs s.core.id) := by
  have hcount := endsCount_denied hw r p (some (0, true))
  have run := sameRun_denied p (s.coreAt p.from_.core)
  have hacting := acting_denied hw r p (some (0, true))
  have hawaits : awaits (s.deniedAt r d p) p = some a := by
    rw [awaits, State.deniedAt, hcount.core, run.await, ha, Option.filter_some, if_pos (decide_eq_true hu)]
  obtain ⟨hends, hid⟩ := hcount.acting (fun c => { c with await := none }) (fun _ => rfl) fun _ => rfl
  have hcore : ((s.deniedAt r d p).actAs p.from_.core).core = deniedCore p (s.coreAt p.from_.core) := (core_actAs ..).trans hcount.core
  refine ⟨_, hends.counted ((countedCore_denied ..).congr rfl rfl rfl rfl), hends.denAfter ((denCore_denied ..).congr rfl rfl), hid,
    (congrArg Core.regs hcore).trans run.regs, (congrArg Core.pc hcore).trans run.pc, (congrArg Core.status hcore).trans run.status, rfl, ?_⟩
  rw [exec_deny hr hk, denied_core cause hpost, denyTo_some cause hawaits]
  exact congrArg (fun id => Host.Outcome.next (State.actAs _ id)) hacting

/-! ## The task of a POST -/

omit hr hw in
/-- An answer that no task waits for changes no task. -/
theorem farAnswer_post {t : Task} {p : Packet} (data : Option (BitVec 512 × Bool)) (hpost : isPosting p.body = true) (h : p.uid ∉ t.hbmOpen) :
    t.farAnswer p data = t := by
  have hopen : t.hbmOpen.filter (fun u => u ≠ p.uid) = t.hbmOpen := List.filter_eq_self.2 fun u hu => decide_eq_true fun e => h (e ▸ hu)
  unfold Task.farAnswer
  cases hb : p.body with
  | post => simp only [hopen]
  | _ => rw [hb] at hpost; cases hpost

theorem deny_post {cause : Cause} (hk : r.kind = .deny cause) (hpost : isPosting p.body = true) {k : Task} (htask : s.postTask p = some k)
    (hopen : ∀ v ∈ (s.clusterAt p.from_.core.die p.from_.core.clu).tasks, p.uid ∉ v.hbmOpen) : let me := p.from_.core
    ∃ u, counted s d p u ∧ u.clusterAt me.die me.clu = s.clusterAt me.die me.clu ∧
      exec (.deny r) s = .next (u.taskFault me.die me.clu k { cause := cause } true) := by
  have hcount := endsCount_denied hw r p (some (0, true))
  refine ⟨_, hcount.counted (countedCore_denied ..), ?_, (exec_deny hr hk).trans (congrArg _ (denied_post cause hpost htask))⟩
  obtain ⟨i, hi⟩ : ∃ i, p.from_.task = some i := by
    rw [State.postTask, Option.bind_eq_some_iff] at htask
    exact htask.imp fun _ h => h.1
  have hfar (t : State) : t.farDone p (some (0, true)) =
      t.updCluster p.from_.core.die p.from_.core.clu (fun k => k.updTask i (fun t => t.farAnswer p (some (0, true)))) := by
    rw [State.farDone, hi]
  have hplace : (((s.consumed d r).countsDown d p).setDen p).clusterAt p.from_.core.die p.from_.core.clu = s.clusterAt p.from_.core.die p.from_.core.clu := by
    rw [clusterAt_setDen, clusterAt_countsDown hw]
  have hsame : mapWhere (fun t => t.id = i) (fun t => t.farAnswer p (some (0, true))) (s.clusterAt p.from_.core.die p.from_.core.clu).tasks =
      (s.clusterAt p.from_.core.die p.from_.core.clu).tasks := by
    refine (List.map_congr_left fun t ht => ?_).trans (List.map_id _)
    split
    · exact farAnswer_post _ hpost (hopen t ht)
    · rfl
  rw [hfar, clusterAt_updCluster _ _ _ _ (fun k => updTask_place k _ _), hplace, Cluster.updTask, hsame]
end

end Sys2Proof.Machine
end

section
/-! SUPPORT. O46: REPLY, RETRY and the report of a drop (R171, R278, R286, R287). -/

namespace Sys2Proof.Machine

/-! ## The waiting atomic completes (R171) -/

/-- The core after its reply, with the registers it wrote. -/
def Core.replied (regs : Vector Word 64) (c : Core) : Core := { c with await := none, regs := regs, pc := c.pc + 8, stall := none, issued := none }

/-- The registers that a reply writes: the old value, or the pair of a claim. -/
def repliedRegs (a : Awaiting) (old : Nat) (c : Core) : Vector Word 64 :=
  if a.claim then ({ c with regs := c.regsWith a.d (BitVec.ofNat 64 (claimOf old).1) } : Core).regsWith (a.d + 1) (BitVec.ofNat 64 (claimOf old).2)
  else c.regsWith a.d (extend (BitVec.ofNat 2 a.size) a.sx old)

theorem takeOld_replied (s : State) (a : Awaiting) (old : Nat) :
    (({ s with core := { s.core with await := none } } : State).takeOld a.d (BitVec.ofNat 2 a.size) a.sx a.claim old).advance.settled =
      { s with core := s.core.replied (repliedRegs a old s.core) } := by
  unfold repliedRegs
  cases a.claim with
  | false =>
    rw [takeOld_word]
    rfl
  | true =>
    rw [takeOld_pair]
    rfl

/-- A value that reads as the old one does, signed or not, is the one that is written. -/
theorem extend_reply {a : Awaiting} {old : Nat} {v : Word}
    (h : v.toInt = toSigned (8 * 2 ^ (a.size % 4)) old ∧ a.sx = true ∨ v.toNat = old % 2 ^ (8 * 2 ^ (a.size % 4)) ∧ a.sx = false) :
    extend (BitVec.ofNat 2 a.size) a.sx old = v := by
  rcases h with ⟨hv, hsx⟩ | ⟨hv, hsx⟩
  · rw [extend, hsx, if_pos rfl, BitVec.toNat_ofNat, ← hv, BitVec.ofInt_toInt]
  · rw [extend, hsx, if_neg Bool.false_ne_true, BitVec.toNat_ofNat, ← hv, BitVec.ofNat_toNat, BitVec.setWidth_eq]

theorem replyTo_some {t : State} {p : Packet} {a : Awaiting} (old : Nat) (h : awaits t p = some a) : t.replyTo p old =
    State.actAs { t.actAs p.from_.core with core := (t.actAs p.from_.core).core.replied (repliedRegs a old (t.actAs p.from_.core).core) } t.core.id := by
  simp only [State.replyTo, h, State.asCore, takeOld_replied]

section
variable {s : State} {r : Response} {d : Nat} {p : Packet} (hr : s.answered r = some (d, p)) (hw : noneWaits s d)
include hr hw

theorem reply_ends {old : BitVec 128} (hk : r.kind = .reply old) {a : Awaiting} (ha : (s.coreAt p.from_.core).await = some a) (hu : a.uid = p.uid) :
    let me := p.from_.core; let c := s.coreAt me
    ∃ t, exec (.reply r) s = .next t ∧ counted s d p t ∧ denAfter s p t false ∧ (t.coreAt me).pc = c.pc + 8 ∧ (t.coreAt me).await = none ∧
      (t.coreAt me).stall = none ∧
      (a.claim = false → ∀ v : Word, v.toInt = toSigned (8 * 2 ^ (a.size % 4)) old.toNat ∧ a.sx = true ∨ v.toNat = old.toNat % 2 ^ (8 * 2 ^ (a.size % 4)) ∧ a.sx = false →
        (t.coreAt me).regs = c.regsWith a.d v) := by
  have hcount := endsCount_accepted hw r p
  have run := sameRun_answered p (s.coreAt p.from_.core)
  have hawaits : awaits ((s.consumed d r).accepted d p) p = some a := by
    rw [awaits, hcount.core, run.await, ha, Option.filter_some, if_pos (decide_eq_true hu)]
  have hacting : (((s.consumed d r).accepted d p).actAs p.from_.core).core = answeredCore p (s.coreAt p.from_.core) := (core_actAs ..).trans hcount.core
  obtain ⟨hends, -⟩ := hcount.acting (Core.replied (repliedRegs a old.toNat (answeredCore p (s.coreAt p.from_.core)))) (fun _ => rfl) fun _ => rfl
  rw [hacting] at hends
  have hback := hends.actAs ((s.consumed d r).accepted d p).core.id
  refine ⟨_, ?_, hback.counted ((countedCore_answered ..).congr rfl rfl rfl rfl), hback.denAfter ((denCore_answered ..).congr rfl rfl), ?_, ?_, ?_, fun hclaim v hv => ?_⟩
  · rw [exec_reply hr hk, replyTo_some _ hawaits, hacting]
  · exact (congrArg Core.pc hback.core).trans (congrArg (· + 8) run.pc)
  · exact congrArg Core.await hback.core
  · exact congrArg Core.stall hback.core
  · refine (congrArg Core.regs hback.core).trans ?_
    show repliedRegs a old.toNat (answeredCore p (s.coreAt p.from_.core)) = _
    rw [repliedRegs, hclaim, if_neg Bool.false_ne_true, extend_reply hv, Core.regsWith, run.regs]
    rfl

/-! ## A unit of HBM comes -/

section
variable (t : Task) (data : Option (BitVec 512 × Bool))

omit hr hw in
theorem farAnswer_frame : (t.farAnswer p data).id = t.id ∧ (t.farAnswer p data).hbmQueue = t.hbmQueue := by
  unfold Task.farAnswer
  split
  · exact ⟨rfl, rfl⟩
  · exact ⟨rfl, rfl⟩
end

section
variable {unit : Nat} {slot : Option Nat} (hb : p.body = .hbmRead unit slot) {v : BitVec 512 × Bool}
include hb

omit hr hw in
/-- A unit that comes is kept for the chunk that asked for it. -/
theorem farAnswer_unit (t : Task) : t.farAnswer p (some v) =
    { t with hbmOpen := t.hbmOpen.filter (fun u => u ≠ p.uid), hbmUnits := t.hbmUnits ++ [(unit, v)] } := by
  unfold Task.farAnswer
  simp only [hb]
omit hr hw in
theorem QPacket.farAnswer_unit (k : QPacket) : k.farAnswer p (some v) =
    { k with hbmOpen := k.hbmOpen.filter (fun u => u ≠ p.uid), hbmUnits := k.hbmUnits ++ [(unit, v)] } := by
  unfold QPacket.farAnswer
  simp only [hb]
end

/-- A queue whose packet takes a unit. -/
def Queue.farAnswer (k : Queue) (p : Packet) (data : Option (BitVec 512 × Bool)) (idx : Nat) : Queue :=
  { k with pkts := mapWhere (fun x => x.idx = idx) (fun x => x.farAnswer p data) k.pkts }

omit hr hw in
theorem clusterAt_updQueue (t : State) (fn q : Nat) (g : Queue → Queue) (d c : Nat) : (t.updQueue fn q g).clusterAt d c = t.clusterAt d c := by
  unfold State.updQueue State.updFn
  split <;> rfl

omit hr hw in
/-- Tasks and COPY packets that take a unit leave nothing that waits for room. -/
theorem noFarWaits_farDone {t : State} (h : t.noFarWaits d) (data : Option (BitVec 512 × Bool)) : (t.farDone p data).noFarWaits d := by
  unfold State.farDone
  split
  · exact h
  · exact h.congr fun c => clusterAt_updQueue ..
  · next i _ _ =>
    intro c u hu
    by_cases hplace : (d, c) = (p.from_.core.die, p.from_.core.clu)
    · obtain ⟨rfl, rfl⟩ := Prod.mk.inj hplace
      rw [clusterAt_updCluster _ _ _ _ (fun k => updTask_place k _ _)] at hu
      obtain ⟨v, hv, rfl⟩ := List.mem_map.1 hu
      split
      · exact ((farAnswer_frame v data).2).trans (h _ v hv)
      · exact h _ v hv
    · rw [clusterAt_updCluster_other (k := (d, c)) _ _ (fun k => updTask_place k _ _) hplace] at hu
      exact h c u hu

omit hr in
theorem noneWaits_farDone (data : Option (BitVec 512 × Bool)) : noneWaits ((s.consumed d r).farDone p data) d := by
  obtain ⟨hcancels, hfar⟩ := noneWaits_consumed r hw
  exact ⟨(congrArg Die.cancels ((farDone_keeps ..).2.1 d)).trans hcancels, noFarWaits_farDone hfar data⟩

/-- What the arrival of a unit leaves of the fabric. -/
theorem data_ends {v : BitVec 512} {bad : Bool} (hk : r.kind = .data v bad) : let t := ((s.consumed d r).farDone p (some (v, bad))).drops d p
    exec (.reply r) s = .next t ∧ SameBytes s t ∧ ∀ q ∈ (t.dieAt d).unacked, q.uid ≠ p.uid := by
  intro t
  have hdie : t.dieAt d = ((s.consumed d r).dieAt d).forgets p := (dieAt_drops ..).trans (congrArg (Die.forgets p) ((farDone_keeps ..).2.1 d))
  refine ⟨?_, (onlyDies_consumed s d r).sameBytes.trans ((farDone_keeps ..).2.2.2.2.trans (sameBytes_drops ..)), ?_⟩
  · rw [exec_replyData hr hk, forget_noneWaits (noneWaits_farDone hw _)]
  · rw [hdie]
    exact fun q hq => of_decide_eq_true (List.mem_filter.1 hq).2

/-- It comes to the task that asked for it. -/
theorem data_task {v : BitVec 512} {bad : Bool} {unit : Nat} {slot : Option Nat} {i : Nat} (hk : r.kind = .data v bad) (hb : p.body = .hbmRead unit slot)
    (hi : p.from_.task = some i) : let me := p.from_.core
    ∃ t, exec (.reply r) s = .next t ∧ SameBytes s t ∧ (∀ q ∈ (t.dieAt d).unacked, q.uid ≠ p.uid) ∧
      ∀ k, (s.clusterAt me.die me.clu).task? i = some k → ∃ k', (t.clusterAt me.die me.clu).task? i = some k' ∧
        k'.hbmUnits = k.hbmUnits ++ [(unit, (v, bad))] ∧ (∀ u, u ∈ k'.hbmOpen ↔ u ∈ k.hbmOpen ∧ u ≠ p.uid) ∧ k'.resume = k.resume ∧ k'.phase = k.phase := by
  obtain ⟨hexec, hbytes, hunacked⟩ := data_ends hr hw hk
  refine ⟨_, hexec, hbytes, hunacked, fun k hfind => ⟨k.farAnswer p (some (v, bad)), ?_, ?_⟩⟩
  · rw [clusterAt_drops, State.farDone, hi]
    dsimp only
    rw [clusterAt_updCluster _ _ _ _ (fun k => updTask_place k _ _), (onlyDies_consumed s d r).clusterAt]
    refine (find?_mapWhere_same _ _ (fun t => ?_) _).trans (congrArg (Option.map fun t => t.farAnswer p (some (v, bad))) hfind)
    rw [(farAnswer_frame t _).1]
  · rw [farAnswer_unit hb k]
    exact ⟨rfl, fun u => by rw [List.mem_filter, decide_eq_true_iff], rfl, rfl⟩

/-- Or to the COPY packet. -/
theorem data_copy {v : BitVec 512} {bad : Bool} {unit : Nat} {slot : Option Nat} {fn q idx : Nat} (hk : r.kind = .data v bad) (hb : p.body = .hbmRead unit slot)
    (hi : p.from_.task = none) (hpkt : p.from_.pkt = some (fn, q, idx)) :
    ∃ t, exec (.reply r) s = .next t ∧ SameBytes s t ∧ (∀ x ∈ (t.dieAt d).unacked, x.uid ≠ p.uid) ∧
      ∀ k ∈ (s.queueAt fn q).pkts, k.idx = idx →
        { k with hbmOpen := k.hbmOpen.filter (fun u => u ≠ p.uid), hbmUnits := k.hbmUnits ++ [(unit, (v, bad))] } ∈ (t.queueAt fn q).pkts := by
  obtain ⟨hexec, hbytes, hunacked⟩ := data_ends hr hw hk
  refine ⟨_, hexec, hbytes, hunacked, fun k hmem hidx => ?_⟩
  have hqueue : (((s.consumed d r).farDone p (some (v, bad))).drops d p).queueAt fn q = (s.queueAt fn q).farAnswer p (some (v, bad)) idx := by
    rw [queueAt_congr (congrArg HostPort.functions (host_drops ..)), State.farDone, hi, hpkt]
    refine (queueAt_updQueue_same _ fn q (fun k => k.farAnswer p (some (v, bad)) idx) fun _ => rfl).trans ?_
    rw [queueAt_congr (congrArg HostPort.functions (onlyDies_consumed s d r).host)]
  rw [hqueue]
  refine List.mem_map.2 ⟨k, hmem, ?_⟩
  dsimp only
  rw [if_pos (decide_eq_true hidx), QPacket.farAnswer_unit hb k]

/-! ## RETRY and the report of a drop (R286, R287) -/

/-- The die keeps the packet for sending again. -/
def Die.retries (p : Packet) (k : Die) : Die := { k with retried := k.retried.filter (fun r => r.1 ≠ p.uid) ++ [(p.uid, true)] }

omit hr in
/-- A message, or a post whose task is still there, waits to be sent again. -/
theorem retriedAt_kept (hpost : isPosting p.body = true → (s.postTask p).isSome = true) :
    (s.consumed d r).retriedAt d p = ((s.consumed d r).updCore p.from_.core (countDown p)).updDie d (Die.retries p) := by
  have htask : (s.consumed d r).postTask p = s.postTask p := by rw [State.postTask, (onlyDies_consumed s d r).clusterAt, State.postTask]
  have hsent : (isPosting p.body && ((s.consumed d r).postTask p).isNone) = false := by
    rw [htask, Bool.and_eq_false_imp]
    exact fun h => by rw [← Option.not_isSome, hpost h, Bool.not_true]
  obtain ⟨hcancels, hfar⟩ := noneWaits_consumed r hw
  have only := onlyDies_updDie ((s.consumed d r).updCore p.from_.core (countDown p)) d (Die.retries p)
  have hdie : ((((s.consumed d r).updCore p.from_.core (countDown p)).updDie d (Die.retries p)).dieAt d).cancels = [] := by
    rw [dieAt_updDie_same _ d (Die.retries p) (fun _ => rfl), (onlyCores_updCore ..).dieAt]
    exact hcancels
  have hflush := flushFar_none (State.noFarWaits.congr hfar fun c => (only.clusterAt d c).trans (clusterAt_updCore ..))
  rw [State.retriedAt, hsent, if_neg Bool.false_ne_true]
  exact (congrArg (fun t => State.flushFar t d) (flushCancels_none hdie)).trans hflush

theorem retry_ends (hk : r.kind = .retry) (hpost : isPosting p.body = true → (s.postTask p).isSome = true) : let me := p.from_.core; let c := s.coreAt me
    ∃ t, exec (.retry r) s = .next t ∧ (p.uid, true) ∈ (t.dieAt d).retried ∧ p ∈ (t.dieAt d).unacked ∧ SameBytes s t ∧
      (c.holds p.from_.ctx = true → p.from_.window = none → isMsg p.body = true → (t.coreAt me).directOut = c.directOut - 1) := by
  intro me c
  let u := (s.consumed d r).updCore me (countDown p)
  have hframe (c : Core) : (countDown p c).id = c.id ∧ (countDown p c).spad = c.spad := by
    rw [countDown_cases]
    exact ⟨rfl, rfl⟩
  have only := onlyDies_updDie u d (Die.retries p)
  have hdie : (u.updDie d (Die.retries p)).dieAt d = Die.retries p ((s.consumed d r).dieAt d) := by
    rw [dieAt_updDie_same u d (Die.retries p) (fun _ => rfl), (onlyCores_updCore ..).dieAt]
  have hmem := mem_of_answered hr
  refine ⟨_, (exec_retry hr hk).trans (congrArg _ (retriedAt_kept hw hpost)), ?_, ?_, ?_, fun hc hwin hmsg => ?_⟩
  · rw [hdie]
    exact List.mem_append_right _ (List.mem_singleton_self _)
  · rw [hdie, dieAt_consumed]
    exact hmem
  · exact (onlyDies_consumed s d r).sameBytes.trans ((sameBytes_updCore _ _ _ (fun c => (hframe c).1) fun c => (hframe c).2).trans only.sameBytes)
  · rw [only.coreAt, coreAt_updCore _ _ _ _ (fun c => (hframe c).1), if_pos rfl, (onlyDies_consumed s d r).coreAt, countDown_directOut hc,
      if_pos ⟨hwin, .inr hmsg⟩]

omit hw in
theorem dropped_ends (hk : r.kind = .dropped) : ∃ t, exec (.retry r) s = .next t ∧ p.uid ∈ (t.dieAt d).dropped ∧ p ∈ (t.dieAt d).unacked ∧
    t.coreAt p.from_.core = s.coreAt p.from_.core := by
  have hdie := dieAt_updDie_same (s.consumed d r) d (fun k => { k with dropped := k.dropped.filter (fun u => u ≠ p.uid) ++ [p.uid] }) fun _ => rfl
  refine ⟨_, exec_dropped hr hk, ?_, ?_, ?_⟩
  · rw [hdie]
    exact List.mem_append_right _ (List.mem_singleton_self _)
  · rw [hdie, dieAt_consumed]
    exact mem_of_answered hr
  · rw [(onlyDies_updDie ..).coreAt, (onlyDies_consumed s d r).coreAt]
end

end Sys2Proof.Machine
end

section
/-! SUPPORT. O46: a CANCEL that waited for room, and packets that go again (R279, R286, R287, R301). -/

namespace Sys2Proof.Machine

/-! ## A packet that leaves a die (R279) -/

/-- What is left of a die when a packet is put into its router. -/
theorem push_frame (k : Die) (now : Nat) (p : Port) (resp : Bool) (f : Flow) : k.push now p resp f = { k with bufs := (k.push now p resp f).bufs } := by
  unfold Die.push
  split <;> rfl

/-- The die after a packet has left it. -/
def Die.sends (k : Die) (now : Nat) (p : Packet) : Die :=
  { k with bufs := (k.push now .loc false (.request { p with seq := nextSeq k.seqs p.dst p.cls })).bufs
           seqs := assocSet k.seqs (pairKey p.dst p.cls) (nextSeq k.seqs p.dst p.cls + 1)
           unacked := k.unacked.filter (fun r => r.uid ≠ p.uid) ++ [{ p with seq := nextSeq k.seqs p.dst p.cls }] }

theorem inject_eq (s : State) (d : Nat) (p : Packet) : s.inject d p = s.updDie d (fun k => k.sends s.sched.now p) := by
  unfold State.inject
  congr 1
  funext k
  dsimp only
  rw [push_frame]
  rfl

section
variable (s : State) (d : Nat) (p : Packet)

theorem onlyDies_inject : OnlyDies s (s.inject d p) := onlyDies_updDie s d _
theorem dieAt_inject_eq : (s.inject d p).dieAt d = (s.dieAt d).sends s.sched.now p := by
  rw [inject_eq]
  exact dieAt_updDie_same s d (fun k => k.sends s.sched.now p) fun _ => rfl
end

/-- The packet is the last of its router's buffer, with the next number of its pair, which moves on. -/
theorem sends_leaves (k : Die) (now : Nat) (p : Packet) :
    (∃ b ∈ (k.sends now p).bufs, b.port = .loc ∧ b.resp = false ∧ b.flows.getLast? = some (.request { p with seq := nextSeq k.seqs p.dst p.cls })) ∧
    nextSeq (k.sends now p).seqs p.dst p.cls = nextSeq k.seqs p.dst p.cls + 1 ∧ { p with seq := nextSeq k.seqs p.dst p.cls } ∈ (k.sends now p).unacked := by
  refine ⟨push_last .., ?_, List.mem_append_right _ (List.mem_singleton_self _)⟩
  show (assoc (assocSet k.seqs (pairKey p.dst p.cls) _) (pairKey p.dst p.cls)).getD 0 = _
  rw [assoc_assocSet, if_pos rfl]
  rfl

/-! ## A CANCEL that waited for room (R279, R301) -/

/-- A packet that is answered leaves room. -/
theorem pairRoom_forgets {k : Die} {p : Packet} {die : Nat} {cls : BitVec 4} (h : k.pairRoom die cls = true) : (k.forgets p).pairRoom die cls = true := by
  have hle : ((k.forgets p).unacked.filter (fun q => q.dst = die && q.cls = cls && !(k.forgets p).retried.contains (q.uid, true))).length ≤
      (k.unacked.filter (fun q => q.dst = die && q.cls = cls && !k.retried.contains (q.uid, true))).length := by
    rw [Die.forgets, List.filter_filter]
    refine (List.monotone_filter_right _ fun q hq => ?_).length_le
    simp only [Bool.and_eq_true, Bool.not_eq_true', ← Bool.not_eq_true, List.contains_iff_mem, List.mem_filter, decide_eq_true_iff] at hq ⊢
    obtain ⟨⟨hpair, hretried⟩, hq⟩ := hq
    exact ⟨hpair, fun h => hretried ⟨h, hq⟩⟩
  exact decide_eq_true (hle.trans_lt (of_decide_eq_true h))

/-- A CANCEL waits no longer. -/
def Die.releases (q : Packet) (k : Die) : Die := { k with cancels := k.cancels.filter (fun r => r.uid ≠ q.uid) }

theorem flushCancels_one {s : State} {d : Nat} {q : Packet} (h : (s.dieAt d).cancels = [q]) (hroom : (s.dieAt d).pairRoom q.dst q.cls = true) :
    s.flushCancels d = (s.updDie d (Die.releases q)).inject d q := by
  rw [State.flushCancels, h, List.foldl_cons, List.foldl_nil, if_pos hroom]
  rfl

theorem cancel_leaves {s : State} {r : Response} {d : Nat} {p q : Packet} (hr : s.answered r = some (d, p)) (hk : r.kind = .ack)
    (hc : (s.dieAt d).cancels = [q]) (hne : q.uid ≠ p.uid) (hfar : ∀ c, ∀ t ∈ (s.clusterAt d c).tasks, t.hbmQueue = [])
    (hroom : (s.dieAt d).pairRoom q.dst q.cls = true) :
    ∃ t seq, exec (.ack r) s = .next t ∧ (t.dieAt d).cancels = [] ∧ { q with seq := seq } ∈ (t.dieAt d).unacked ∧ ∀ u ∈ (t.dieAt d).unacked, u.uid ≠ p.uid := by
  let u := (s.consumed d r).drops d p
  have hdrops : u.dieAt d = { (s.dieAt d) with arrived := (s.dieAt d).arrived.erase r }.forgets p := by rw [dieAt_drops, dieAt_consumed]
  let v := (u.updDie d (Die.releases q)).inject d q
  have hflush : u.flushCancels d = v := flushCancels_one (by rw [hdrops]; exact hc) (by rw [hdrops]; exact pairRoom_forgets hroom)
  have hplace (c : Nat) : v.clusterAt d c = s.clusterAt d c :=
    ((onlyDies_inject ..).clusterAt d c).trans (((onlyDies_updDie ..).clusterAt d c).trans ((clusterAt_drops ..).trans ((onlyDies_consumed s d r).clusterAt d c)))
  have hforget : (s.consumed d r).forget d p = v := by rw [forget_eq, hflush, flushFar_none (State.noFarWaits.congr hfar hplace)]
  have hdie : ((s.consumed d r).accepted d p).dieAt d = ((u.dieAt d).releases q).sends u.sched.now q := by
    rw [State.accepted, (farDone_keeps ..).2.1, (onlyCores_updCore ..).dieAt, hforget, dieAt_inject_eq, dieAt_updDie_same u d (Die.releases q) (fun _ => rfl),
      show (u.updDie d (Die.releases q)).sched = u.sched from (congrArg State.sched (onlyDies_updDie u d (Die.releases q)) :)]
  refine ⟨_, _, exec_ack hr hk, ?_, hdie ▸ (sends_leaves ..).2.2, fun x hx => ?_⟩
  · rw [hdie]
    have hwaits : (u.dieAt d).cancels = [q] := (congrArg Die.cancels hdrops).trans hc
    show (u.dieAt d).cancels.filter _ = []
    rw [hwaits]
    exact List.filter_eq_nil_iff.2 (by simp)
  · rw [hdie] at hx
    rcases List.mem_append.1 hx with hx | hx
    · have hx : x ∈ (u.dieAt d).unacked := (List.mem_filter.1 hx).1
      rw [hdrops] at hx
      exact of_decide_eq_true (List.mem_filter.1 hx).2
    · rw [List.mem_singleton.1 hx]
      exact hne

/-! ## Packets that go again (R286, R287) -/

/-- The die sends a dropped packet again. -/
def Die.resends (now uid : Nat) (p : Packet) (k : Die) : Die :=
  { (k.push now .loc false (.request p)) with dropped := k.dropped.filter (fun u => u ≠ uid) }

section
variable {s : State} {uid d : Nat} {p : Packet}

theorem packetResend_leaves (h : s.keeper uid (fun k => k.dropped.contains uid) = some (d, p)) :
    ∃ t, exec (.packetResend uid) s = .next t ∧
      (∃ b ∈ (t.dieAt d).bufs, b.port = .loc ∧ b.resp = false ∧ b.flows.getLast? = some (.request { p with seq := p.seq })) ∧
      uid ∉ (t.dieAt d).dropped ∧ (t.dieAt d).seqs = (s.dieAt d).seqs ∧ SameBytes s t := by
  have hdie := dieAt_updDie_same s d (Die.resends s.sched.now uid p) fun k => push_die k _ _ _ _
  refine ⟨s.updDie d (Die.resends s.sched.now uid p), ?_, ?_, ?_, ?_, (onlyDies_updDie s d _).sameBytes⟩
  · show execPacketResend uid s = _
    simp only [execPacketResend, h]
    rfl
  · rw [hdie]
    exact push_last ..
  · rw [hdie]
    exact fun hmem => of_decide_eq_true (List.mem_filter.1 hmem).2 rfl
  · rw [hdie]
    dsimp only [Die.resends]
    rw [push_frame]

variable (h : s.keeper uid (fun k => k.retried.contains (uid, true)) = some (d, p))
include h

theorem retriedResend_waits (hearlier : (s.dieAt d).earlierRetried p = true) : ∀ t, exec (.retriedPacketResend uid) s ≠ .next t := by
  intro t ht
  have hexec : execRetriedPacketResend uid s = .next t := ht
  simp only [execRetriedPacketResend, h, hearlier, Bool.or_true, if_true] at hexec
  cases hexec

/-- The die marks the packet as sent again. -/
def Die.sentAgain (uid : Nat) (k : Die) : Die := { k with retried := mapWhere (fun r => r.1 = uid) (fun r => (r.1, false)) k.retried }

omit h in
theorem countUp_frame (p : Packet) (c : Core) : (countUp p c).id = c.id ∧ (countUp p c).spad = c.spad := by
  unfold countUp
  split
  · exact ⟨rfl, rfl⟩
  · exact ⟨rfl, rfl⟩

theorem retriedResend_leaves (hstop : s.postStopped p = false) (hearlier : (s.dieAt d).earlierRetried p = false)
    (hown : s.ownCluster p.from_.core { die := p.dst, clu := p.clu, core := p.core } = false) (hroom : (s.dieAt d).pairRoom p.dst p.cls = true) :
    ∃ t n, exec (.retriedPacketResend uid) s = .next t ∧ n = nextSeq (s.dieAt d).seqs p.dst p.cls ∧
      (∃ b ∈ (t.dieAt d).bufs, b.port = .loc ∧ b.resp = false ∧ b.flows.getLast? = some (.request { p with seq := n })) ∧
      nextSeq (t.dieAt d).seqs p.dst p.cls = n + 1 ∧ (uid, true) ∉ (t.dieAt d).retried ∧ { p with seq := n } ∈ (t.dieAt d).unacked ∧ SameBytes s t := by
  let u := (s.updDie d (Die.sentAgain uid)).inject d p
  have hexec : exec (.retriedPacketResend uid) s = .next (u.updCore p.from_.core (countUp p)) := by
    show execRetriedPacketResend uid s = _
    simp only [execRetriedPacketResend, h, hstop, hearlier, hown, hroom, Bool.or_false, Bool.not_true, Bool.false_eq_true, if_false]
    rfl
  have hdie : (u.updCore p.from_.core (countUp p)).dieAt d = ((s.dieAt d).sentAgain uid).sends (s.updDie d (Die.sentAgain uid)).sched.now p := by
    rw [(onlyCores_updCore ..).dieAt, dieAt_inject_eq, dieAt_updDie_same s d (Die.sentAgain uid) (fun _ => rfl)]
  obtain ⟨hleaves, hnext, hmem⟩ := sends_leaves ((s.dieAt d).sentAgain uid) (s.updDie d (Die.sentAgain uid)).sched.now p
  refine ⟨_, _, hexec, rfl, ?_, ?_, ?_, ?_, ?_⟩
  · rw [hdie]
    exact hleaves
  · rw [hdie]
    exact hnext
  · rw [hdie]
    intro hin
    obtain ⟨⟨w, b⟩, -, he⟩ := List.mem_map.1 hin
    dsimp only at he
    split at he
    · cases he
    · next hw =>
      obtain ⟨rfl, -⟩ := Prod.mk.inj he
      exact hw (decide_eq_true rfl)
  · rw [hdie]
    exact hmem
  · exact (onlyDies_updDie ..).sameBytes.trans ((onlyDies_inject ..).sameBytes.trans
      (sameBytes_updCore _ _ _ (fun c => (countUp_frame p c).1) fun c => (countUp_frame p c).2))
end

end Sys2Proof.Machine

namespace Sys2Proof
open Sys2Proof.Machine

/-- Settles O46, answer by answer: each ends the count of its packet (`EndsCount`), and with nothing that waits for room no more happens at the die
(`forget_noneWaits`). -/
theorem answersAndResends : Obligations.AnswersAndResends := by
  refine ⟨fun s r d p hr hw => ?_, fun s r d p q hr hk hc hne hfar hroom => cancel_leaves hr hk hc hne hfar hroom,
    fun s uid d p => ⟨packetResend_leaves, retriedResend_waits, retriedResend_leaves⟩⟩
  exact ⟨ack_ends hr hw, fun cause hk => ⟨deny_ends hr hw hk, fun _ hpost => deny_faults hr hw hk hpost, fun _ hpost => deny_post hr hw hk hpost⟩,
    fun old a hk => reply_ends hr hw hk,
    fun v bad unit slot i => data_task hr hw, fun v bad unit slot fn q idx => data_copy hr hw, retry_ends hr hw, dropped_ends hr⟩

end Sys2Proof
end
